-- ==== Sys2Proof/Word.lean ====
section
/-! DEFINITION. The plain number types of the node: bytes, words and the widths of the marks that a request carries. -/
namespace Sys2Proof

/-- A byte. -/
abbrev Byte := BitVec 8
/-- A register, as the MMIO window moves it (R12). -/
abbrev Word := BitVec 32
/-- A 64-bit quantity, such as a pair of registers (R13). -/
abbrev DWord := BitVec 64
/-- A 16-byte slot of a wire flit (Table 3-1). -/
abbrev Slot := BitVec 128
/-- Byte strings, first byte first. -/
abbrev Bytes := List Byte

end Sys2Proof
end

