-- ==== Sys2Proof/Operand.lean ====
section
/-! DEFINITION. The types of the operands that come with commands from outside the node: messages, link
control fields, module and sensor reports, Meter Link payloads. -/
namespace Sys2Proof

/-- Who performs a register access: Warden inside the node, or an agent by its AID. -/
inductive Src where
  | warden
  | agent (aid : BitVec 12)
deriving DecidableEq, Repr

/-- The width of a register access: R12 decodes aligned accesses of 32 bits, and no narrower one. -/
inductive AccSize where
  | byte | half | word
deriving DecidableEq, Repr

/-- Where an access to the window goes and how wide it is (R12). -/
structure WinAddr where
  off  : BitVec 24
  size : AccSize
deriving DecidableEq, Repr

/-- A CCF message above the link layer: the class, the 120-bit header of R93 and the data slots. -/
structure Msg where
  cls  : BitVec 2
  hdr  : BitVec 120
  data : List Slot
deriving DecidableEq, Repr

/-- The fields of an LCTL PARAMS flit (Table 3-11). -/
structure ParamsFlit where
  version  : BitVec 8
  role     : BitVec 2
  encCap   : Bool
  encReq   : Bool
  nid      : BitVec 9
  aidFirst : BitVec 12
  aidCount : BitVec 13
  replay   : BitVec 16
deriving DecidableEq, Repr

/-- Four slot counts, one per credit class (Table 3-3). -/
structure Credits where
  req : BitVec 16
  snp : BitVec 16
  rsp : BitVec 16
  sys : BitVec 16
deriving DecidableEq, Repr

/-- What the TMC reports of a present cable module (R91). `cmis` is false when its CMIS data cannot be read. -/
structure Module where
  cmis    : Bool
  idByte  : Byte
  rev     : Byte
  state   : Byte
  maxPwr  : Byte
  length  : Byte
  vendor  : BitVec 128
  partNum : BitVec 128
  serial  : BitVec 128
deriving DecidableEq, Repr

/-- The CXL.mem requests of Table 4-9, any other CXL.mem request, and a CXL.cache message, which the link does not offer (Table 3-7). -/
inductive CxlOp where
  | memRdShared | memRdAny | memRdInvalid | memRdData
  | memInvAny | memInvOther | memSpecRd | memWr | memWrPtl
  | unsupported | cacheMsg
deriving DecidableEq, Repr

/-- What a host reaches by CXL.io: BAR0 at an offset (R88), or one of the four HDM decoders (Table 3-7). -/
inductive CxlIo where
  | bar0 (off : BitVec 24)
  | hdm (decoder : Fin 4)
deriving DecidableEq, Repr

/-- A CXL link that falls, and whether by a failure of its IDE (Table 3-7). -/
structure CxlFall where
  port : Fin 16
  ide  : Bool
deriving DecidableEq, Repr

/-- A CXL.mem request: the tag, the device physical address, and for writes the data, the byte enable and poison. -/
structure CxlReq where
  op     : CxlOp
  tag    : BitVec 16
  dpa    : BitVec 52
  data   : BitVec 512
  be     : BitVec 64
  poison : Bool
deriving DecidableEq, Repr

/-- What the sense path of a stack delivers for the oldest outstanding read of a queue: for a data read an error
mask on each line's 80 symbols, for a status read the VSTS word, for a Retrain whether every lane is inside its window (R257). -/
inductive ReadBurst where
  | lines (errs : List (List (Nat × Byte)))
  | status (temp : BitVec 16) (valid : Bool)
  | lineError
  | tracked (inside : Bool)
deriving DecidableEq, Repr

/-- The operands of the table's row ADD, which stands for two operations of the same name: the ADD field of RAS
(R278) and the micro-op ADD of the Recipe Engines (R314). -/
inductive AddForm where
  | retireMap
  | microOp (rce : Fin 48) (ctx : Fin 8)
deriving DecidableEq, Repr

/-- The header of a Meter Link frame (Table 16-2), and whether the CRC of the frame is right (R390). -/
structure FrameHdr where
  seq  : BitVec 16
  ack  : BitVec 16
  nak  : Bool
  good : Bool
deriving DecidableEq, Repr

/-- The payload of IDENT (Table 16-5). -/
structure IdentBody where
  serial     : BitVec 64
  lrVersion  : BitVec 32
  lrChecksum : BitVec 64
  certId     : BitVec 32
  sealEvents : BitVec 32
  calDate    : BitVec 32
  pubKey     : List Byte
deriving DecidableEq, Repr

/-- A record of a Tally as the ZM-3 has received it (Table 16-4): eleven counts. -/
structure TallyRec where
  tid    : BitVec 8
  job    : BitVec 20
  counts : List (BitVec 32)
deriving DecidableEq, Repr

/-- The payload of STATUS (Table 16-3, R401). -/
structure StatusBody where
  interval  : BitVec 32
  sealEvents : BitVec 32
  cond      : BitVec 2
  degCause  : BitVec 5
  bayClosed : Bool
  sealed    : Bool
  selfTest  : Bool
  energies  : List (BitVec 32)
deriving DecidableEq, Repr

/-- What the TMC reads on its own sensors and mirrors into the TMCB page (R443): 10 mV and 10 mA units, and 0.25 °C. -/
structure Sensors where
  inputV     : BitVec 16
  inputI     : BitVec 16
  bankV      : BitVec 16
  coolantIn  : BitVec 16
  coolantOut : BitVec 16
deriving DecidableEq, Repr

end Sys2Proof
end

