-- ==== Sys2Proof/Syntax.lean ====
section
/-! DEFINITION. The commands of the block: one constructor for each row of the table of operations and events, with the
operands that come from outside the node. What a command does is said in `Machine`. -/
namespace Sys2Proof

/-- The commands. A command that carries a CCF message carries the port it arrives on and the message as it stands in
its header slot and data slots. `addr` names an access to the window (R12), `page` a block page (Table 2-1). -/
inductive Instr where
  -- Block pages and epochs
  | registerWrite (src : Src) (addr : WinAddr) (val : Word)
  | pairLowerRead (addr : WinAddr)
  | pairLowerWrite (addr : WinAddr) (val : Word)
  | pairUpperWrite (addr : WinAddr) (val : Word)
  | rcRead (addr : WinAddr)
  | wmkCrossedRead (page : BitVec 12) (group : Fin 16)
  | wmkExtremeRead (page : BitVec 12) (group : Fin 16)
  | intForce (page : BitVec 12) (val : Word)
  | intEnWrite (page : BitVec 12) (val : Word)
  | intRouteWrite (val : Word)
  | blkLockSet (page : BitVec 12)
  | commit
  | discard
  | commitDone
  | drainSlow
  -- Fabric ports
  | flitReceive (port : Fin 16) (flit : Bytes)
  | nakRepeat (port : Fin 16)
  | ackTimer (port : Fin 16)
  | creditReturnTimer (port : Fin 16)
  | tagGroupClose (port : Fin 16)
  | params (port : Fin 16) (p : ParamsFlit)
  | creditInit (port : Fin 16) (c : Credits)
  | credit (port : Fin 16) (c : Credits)
  | keySwitch (port : Fin 16) (set : Bool)
  | recover (port : Fin 16)
  | down (port : Fin 16) (reason : BitVec 4)
  | retrain (port : Fin 16)
  | keySwitchWrite (port : Fin 16)
  | enableWrite (port : Fin 16) (en : Bool)
  | lossOfSignal (port : Fin 16)
  | trainingStepDone (port : Fin 16) (lanes : BitVec 2)
  | trainAttemptTimeout (port : Fin 16)
  | linkTimeout (port : Fin 16)
  | moduleChange (port : Fin 16) (m : Option Module)
  | cxlMemRequest (port : Fin 16) (r : CxlReq)
  | cxlBirsp (port : Fin 16) (la : BitVec 46)
  | cxlLinkDown (fall : CxlFall)
  | cxlIoAccess (port : Fin 16) (write : Bool) (addr : CxlIo) (dws : List (BitVec 4 × Word))
  -- Messages and their requests
  | rdS (port : Fin 16) (m : Msg)
  | rdOwn (port : Fin 16) (m : Msg)
  | upg (port : Fin 16) (m : Msg)
  | rdCur (port : Fin 16) (m : Msg)
  | wrFull (port : Fin 16) (m : Msg)
  | wrPtl (port : Fin 16) (m : Msg)
  | wb (port : Fin 16) (m : Msg)
  | clnEvict (port : Fin 16) (m : Msg)
  | jobOpen (port : Fin 16) (m : Msg)
  | jobClose (port : Fin 16) (m : Msg)
  | jobCloseEffect (tid : BitVec 8) (job : BitVec 20)
  | snpAck (port : Fin 16) (m : Msg)
  | snpAckD (port : Fin 16) (m : Msg)
  | dataRelay (port : Fin 16) (m : Msg)
  | sysRsp (port : Fin 16) (m : Msg)
  | mmioRd (port : Fin 16) (m : Msg)
  | mmioWr (port : Fin 16) (m : Msg)
  -- Admission and resolution
  | requestAdmit (fcStart : Bool)
  | bucketRefill
  | loadUpdate
  | agentLimitStep
  | resolve (rid : Nat)
  | walkDone (rid : Nat)
  -- Home, directory and agents
  | homeOrder (la : BitVec 37)
  | snpSlow (la : BitVec 37)
  | probeGo
  | agentAdmit (aid : BitVec 12) (inc : BitVec 16)
  | agentNotice (aid : BitVec 12) (inc : BitVec 16)
  | agentReadmit (aid : BitVec 12) (inc : BitVec 16)
  | sweepStep
  | sweepEnd
  -- Regions and keys
  | regionWord1Write (n : BitVec 12) (val : Word)
  | regionWord0Write (n : BitVec 12) (val : Word)
  | recallGo
  | recallDone
  | getTpk
  | keyLoad
  | keyRotate
  | keyErase
  | slotErased (slot : BitVec 8)
  | linkKeyLoad
  | rekeyIssue
  -- Memory channels
  | queueAccept (q : Fin 96)
  | mchCommandIssue (q : Fin 96)
  | readDataReturn (q : Fin 96) (b : ReadBurst)
  | refreshPlacement (ch : Fin 48)
  | statusPlacement (ch : Fin 48)
  | segClearDone (ch : Fin 48)
  | stackRailsGood
  | trainingDone (ch : Fin 48) (idPage : Bytes) (failStep : Option (BitVec 4))
  | retrainPlacement (ch : Fin 48)
  | parityAlert (q : Fin 96) (count : BitVec 8)
  | mchPowerEntry (ch : Fin 48)
  -- RAS and the event log
  | patrolPlacement
  | scrubRateStep
  | sliceBoundary
  | ptClear
  | btClear
  | add (form : AddForm)
  | rmapCopyPlace
  | staleFlush
  | evlogTailWrite (val : Word)
  -- Row compute, recipe engines, operators
  | rescanGo
  | rescanDone
  | bakeSub (port : Fin 16) (m : Msg)
  | bakeAbort (port : Fin 16) (m : Msg)
  | planLoad (port : Fin 16) (m : Msg)
  | planImageReadDone (rid : Nat)
  | planUnload (port : Fin 16) (m : Msg)
  | planUnloadDone (plan : BitVec 6)
  | bakeOrder (bid : Nat)
  | bakeStart (bid : Nat) (rce : Fin 48)
  | refillDone (rce : Fin 48) (ctx : Fin 8)
  | nop (rce : Fin 48) (ctx : Fin 8)
  | br (rce : Fin 48) (ctx : Fin 8)
  | bz (rce : Fin 48) (ctx : Fin 8)
  | bnz (rce : Fin 48) (ctx : Fin 8)
  | bltu (rce : Fin 48) (ctx : Fin 8)
  | loop (rce : Fin 48) (ctx : Fin 8)
  | call (rce : Fin 48) (ctx : Fin 8)
  | ret (rce : Fin 48) (ctx : Fin 8)
  | endOp (rce : Fin 48) (ctx : Fin 8)
  | lci (rce : Fin 48) (ctx : Fin 8)
  | lcx (rce : Fin 48) (ctx : Fin 8)
  | csync (rce : Fin 48) (ctx : Fin 8)
  | csw (rce : Fin 48) (ctx : Fin 8)
  | cscp (rce : Fin 48) (ctx : Fin 8)
  | li (rce : Fin 48) (ctx : Fin 8)
  | lih (rce : Fin 48) (ctx : Fin 8)
  | addi (rce : Fin 48) (ctx : Fin 8)
  | sub (rce : Fin 48) (ctx : Fin 8)
  | andOp (rce : Fin 48) (ctx : Fin 8)
  | orOp (rce : Fin 48) (ctx : Fin 8)
  | xorOp (rce : Fin 48) (ctx : Fin 8)
  | shli (rce : Fin 48) (ctx : Fin 8)
  | shri (rce : Fin 48) (ctx : Fin 8)
  | movlc (rce : Fin 48) (ctx : Fin 8)
  | grp (rce : Fin 48) (ctx : Fin 8)
  | sload (rce : Fin 48) (ctx : Fin 8)
  | sneg (rce : Fin 48) (ctx : Fin 8)
  | stra (rce : Fin 48) (ctx : Fin 8)
  | gend (rce : Fin 48) (ctx : Fin 8)
  | gendRelease (rce : Fin 48) (ctx : Fin 8)
  | lane (rce : Fin 48) (ctx : Fin 8)
  | laneRelease (rce : Fin 48) (ctx : Fin 8)
  | waitl (rce : Fin 48) (ctx : Fin 8)
  | waitg (rce : Fin 48) (ctx : Fin 8)
  | waitRelease (rce : Fin 48) (ctx : Fin 8)
  | recordWrite (bid : Nat)
  | statusWordWrite (bid : Nat)
  -- Translation and moves
  | xinv (port : Fin 16) (m : Msg)
  | xsync (port : Fin 16) (m : Msg)
  | xsyncDone
  | windowBoundary
  | hpqTailWrite (val : Word)
  | go
  | resume
  | abandon
  | release
  | migrLineTxn (mid : Fin 16)
  | migrStart (port : Fin 16) (m : Msg)
  | migrLine (port : Fin 16) (m : Msg)
  | migrAck (port : Fin 16) (m : Msg)
  | migrDone (port : Fin 16) (m : Msg)
  | migrAckTimer (mid : Fin 16)
  | moveTimeout (mid : Fin 16)
  -- Twin pairs
  | twLine (port : Fin 16) (m : Msg)
  | twDelta (port : Fin 16) (m : Msg)
  | twAck (port : Fin 16) (m : Msg)
  | twBake (port : Fin 16) (m : Msg)
  | twBakeEnd (port : Fin 16) (m : Msg)
  | twBakeRsp (port : Fin 16) (m : Msg)
  | twRenew (port : Fin 16) (m : Msg)
  | twRenewAck (port : Fin 16) (m : Msg)
  | twHandover (port : Fin 16) (m : Msg)
  | twJoin (port : Fin 16) (m : Msg)
  | twSynced (port : Fin 16) (m : Msg)
  | twAckTimer
  | renewTimer
  | fenceDeadline
  | takeover
  | resyncLine
  | autoJoinTimer
  | claim
  | join
  | solo
  | leave
  -- Metering and the ZM-3
  | meterLinkSync
  | meterLinkLost
  | meterFrameResend
  | meterAckTimer
  | ident (h : FrameHdr) (b : IdentBody)
  | status (h : FrameHdr) (b : StatusBody)
  | proof (h : FrameHdr) (pseq : BitVec 64) (rec : Bytes)
  | alarm (h : FrameHdr) (code : Byte) (chan : Byte) (interval : Word)
  | intervalMark
  | intervalLocalClose
  | proofTailWrite (val : Word)
  | zm3Presence (present : Bool)
  | meterEnroll
  | meterForget
  | zm3JobOpen (tid : BitVec 8) (job : BitVec 20) (interval : Word)
  | zm3TallyEnd (interval : Word) (recs : List TallyRec) (energies : List (BitVec 64)) (causes : BitVec 5) (metered : Bool)
  | zm3JobClose (tid : BitVec 8) (job : BitVec 20) (interval : Word) (flags : BitVec 3) (unmet : List (BitVec 64))
  -- Power and clocks
  | referenceLoss
  | pllPark (mc : Bool)
  | pllFastStartDone (mc : Bool) (locked : Bool)
  | pllLockLoss (mc : Bool)
  | blockNapEntry (page : BitVec 12)
  | blockDozeEntry (page : BitVec 12)
  | blockOffEntry (page : BitVec 12)
  | blockWakeDone (page : BitVec 12) (ticks : Nat)
  | tjSample (readings : List (BitVec 16 × Bool))
  | tjReport
  | thermtrip
  -- The tray
  | tmcMirrorUpdate (v : Sensors)
  | tmcLost
  | hsEnable
  | hsFastTrip
  | hsTimerTrip
  | hsOvervoltage
  | hsRetry
  | undervoltage
  | inputReturn
  | shutdownCommit (cause : BitVec 3)
  | shutdownDrainLimit
  | railsOff
  | bankOutputOpen
  | hardCut
  | trayRestart
  | leakDetect (sensor : Fin 4)
  | leakDetectorReset (sensor : Fin 4) (service : Bool) (dry : Bool)
  | coolingUpdate (demand : BitVec 7)
  | pumpFail (pumpB : Bool)
  | watchdogExpiry
  | tmcBoot
  | pinFunctionSwitch (pin : Fin 34) (fn : Fin 2)
  | strapSample (straps : BitVec 9)
  | presenceDebounce (input : Fin 19) (present : Bool)
  | chassisResetOn (pumps : BitVec 2)
  | gracefulShutdown
  | forceOff
  | powerCycle
  | bootSourceOverride (copy : BitVec 2)
  -- Boot, reset and the mailbox
  | coldReset
  | warmResetAssert
  | refReturnReset
  | hbStall
  | wardenHeartbeat (core : Bool)
  | coreLockup (core : Bool) (pc : Word) (sp : Word)
  | trialTimeout
  | mbxClaim (src : Src)
  | mbxRelease (src : Src)
  | ping
  | getInfo
  | getIdcert
  | admitKeys
  | warmReset
  | blockReset
  | profileWrite
  | profileRead
  | rmapForget
  | imageWrite
  | imageCheck
  | imagePrefer
  | imageConfirm
  | svnAdvance
  | standbySupplyLoss
  | meterLinkOutOfSync
  | null (h : FrameHdr)
  | zm3Hello (nid : BitVec 16) (nodeSerial : BitVec 64)
  | zm3ProofAck (seq : BitVec 64)
  | configReady
  | coldLockDone (mc : Bool)
  | bankCapacitanceTest (milliFarad : BitVec 16)
  | managerReset
  | tmcFirmwareUpdate (version : BitVec 16)
  | cxlMailboxCommand (port : Fin 16) (opcode : BitVec 16)
  | internalError (page : BitVec 12) (stops : Bool)
deriving DecidableEq, Repr

end Sys2Proof
end

