-- ==== Sys2Proof/Decode.lean ====
section
/-! DEFINITION. The table of operations gives no row a bit pattern: commands reach the node as messages, register accesses
and events, not as words. -/
namespace Sys2Proof

/-- The command that a word of table bits spells: none, since no row of the table gives bits. -/
def decodeTableWord (_nbits _w : Nat) : Option Instr := none

end Sys2Proof
end

