-- ==== Sys2Proof/Machine/State.lean ====
section
/-! DEFINITION. The state of the block: every register, queue, buffer, table, memory and pin that the manual gives the
node, its tray controller as far as the node sees it, and the meter module; and the state right after reset. -/
namespace Sys2Proof.Machine

/-! ### Faults and refusals -/

/-- The ways a command can stop. None of the block's commands ends in one of them today: a condition that a command
needs and does not find means that its event does not occur (assumption 2). -/
inductive Fault where
  /-- Raised by no meaning. Safe: it could only stop a run. -/
  | none
deriving DecidableEq, Repr

/-- Why a command has no meaning. -/
inductive Refusal where
  /-- The command is not modelled, by its mnemonic. Raised only by an arm of `exec`. Safe: the machine stops. -/
  | notModelled (mnemonic : String)
deriving DecidableEq, Repr

/-! ### Tables

A table lists (key, value) pairs with rising keys. A key that is not listed holds the default its reader names. -/

/-- A sparse table. -/
abbrev Tab (α : Type) := List (Nat × α)

/-! ### Fixed properties of one part -/

/-- The option units, fixed at manufacture (R2 to R4). -/
structure Options where
  c : Bool
  k : Bool
  w : Bool
deriving DecidableEq, Repr

/-- The fuses: the digest of the image-signing key, the serial and stepping, and the security version floor, which
only SVN_ADVANCE burns (R477). -/
structure Fuses where
  imageKey   : BitVec 384
  svnFloor   : Nat
  nodeSerial : BitVec 64
  stepMajor  : Byte
  stepMinor  : Byte
  idKey      : BitVec 384
deriving DecidableEq, Repr

/-! ### The fabric ports -/

/-- A wire flit before CRC and FEC: the fields of Table 3-2 and the sixteen slots. -/
structure Flit where
  ftype    : BitVec 2
  seq      : BitVec 10
  ack      : BitVec 10
  nak      : Bool
  tag      : Bool
  crdClass : BitVec 2
  crdCount : BitVec 5
  ksel     : Bool
  slots    : List Slot
deriving DecidableEq, Repr

/-- A link key set: the GCM key and the salt of its nonces (Table 7-6). -/
structure LinkKey where
  key  : BitVec 256
  salt : BitVec 32
deriving DecidableEq, Repr

/-- One direction of link encryption: the two key sets, the set in use, the group counter of each set and the flits of the open
tag group (R72, R75). -/
structure LinkCrypt where
  active : Bool
  keys   : List (Option LinkKey)
  sel    : Bool
  counts : List Nat
  group  : List Flit
deriving DecidableEq, Repr

/-- The steps of Table 3-5 that a port can stand at, and the states outside training. -/
inductive Train where
  | down | step (n : Nat) | up | recovery (n : Nat)
deriving DecidableEq, Repr

/-- A request that is outstanding until a response leaves the transmitter (R215): its agent, epoch, tenant and the job it counts to. -/
structure RspTag where
  id    : Nat
  aid   : Nat
  epoch : Nat
  tid   : Nat
  job   : Nat
deriving DecidableEq, Repr

/-- What a port holds beside its registers. `txq` are the messages that wait to be sent, each with the request that it ends;
`uncorr` are the AO times of uncorrectable flits not yet older than 1 µs (R79), `keyDue` a KEY_SWITCH that waits for the link to
carry it (R75); of a CXL link, the General Media event records as (status, node offset), the four HDM decoders as (0 not
committed, 1 committed, 2 error not committed; ways; granularity), and whether the RAS capability shows an uncorrectable
protocol error (Table 3-7). -/
structure Port where
  train      : Train
  attempts   : Nat
  recoverAt  : Nat
  lastParams : Option ParamsFlit
  refused    : Bool
  mode       : Nat
  module     : Option Module
  txSeq      : BitVec 10
  txAcked    : BitVec 10
  replay     : List Flit
  txq        : List (Msg × Option RspTag)
  credits    : List Nat
  toReturn   : List Nat
  rxAck      : BitVec 10
  discarding : Bool
  nakSent    : Bool
  nakCount   : Nat
  nakSeen    : Nat
  unackedRx  : Nat
  uncorr     : List Nat
  keyDue     : Bool
  rxBuf      : List Msg
  partialMsg : Option (Msg × Nat)
  txCrypt    : LinkCrypt
  rxCrypt    : LinkCrypt
  cxlHeld    : List CxlReq
  cxlBi      : List (Nat × Option (BitVec 512 × Bool))
  cxlEvents  : List (Nat × Nat)
  hdm        : List (Nat × Nat × Nat)
  cxlRas     : Bool
deriving DecidableEq, Repr

/-! ### Requests -/

/-- The operation of a request below the port: the opcodes of Table 4-5 that enter SHAPE, and the node's own work. -/
inductive Op where
  | rdS | rdOwn | upg | rdCur | wrFull | wrPtl | wb | clnEvict
  | bakeSub | bakeAbort | planLoad | planUnload | jobOpen | jobClose
  | recall | migr | rekey | probe | settle | sweep | bakeInv | planRead | resync | walk | migrStore
deriving DecidableEq, Repr

/-- Where a request is on the path of Table 1-2. -/
inductive Place where
  | bypass | queued | batch | resolving | walking | held | bakeWait
  | home | tracked | waitWay | waitTrk | memRead | memWrite | mirror | mbx | waitJob | done
deriving DecidableEq, Repr

/-- A request in the node, with the stamps of Table 1-3 and what each stage has found out. `adm` is its place in SHAPE's order of
admission, 0 for a request that SHAPE has not admitted (R20, R215); `ordered` says that HOME has ordered it, though it may still wait for a
way, a tracker or its directory set (R156). -/
structure Req where
  id      : Nat
  op      : Op
  port    : Nat
  intern  : Bool
  cxl     : Bool
  aid     : Nat
  incLo   : Nat
  tid     : Nat
  txid    : Nat
  job     : Nat
  addr    : Nat
  dnid    : Nat
  as1     : Bool
  psn     : Bool
  half    : Bool
  be      : BitVec 64
  data    : BitVec 512
  dslots  : List Slot
  place   : Place
  passes  : Nat
  epoch   : Nat
  pga     : Nat
  off     : Nat
  region  : Nat
  order   : Nat
  key     : Option (BitVec 512)
  mid     : Nat
  gen     : Nat
  admInc  : Option Nat
  grant   : Nat
  gate    : Option Nat
  wait    : Nat
  val     : Nat
  adm     : Nat := 0
  ordered : Bool := false
deriving DecidableEq, Repr

/-! ### The directory -/

/-- A directory entry (Table 5-1) with the line it is of. `shadow` marks an entry that stands for the partner of a
pair (R363) and takes no part in this node's own coherence. -/
structure DirEnt where
  la     : Nat
  way    : Nat
  modif  : Bool
  coarse : Bool
  region : Nat
  age    : Nat
  ptrs   : List (Nat × Nat)
  gvec   : BitVec 64
  shadow : Bool
deriving DecidableEq, Repr

/-- What a line tracker waits for (R130, Table 5-10). -/
inductive TrkKind where
  | fwdS | fwdOwn | fwdCur | inv
deriving DecidableEq, Repr

/-- A line tracker: the transaction of request `req` at line `la`, the agents awaited (with whether each was reached
by group), what has come of the owner's answer so far, the tenant and job that its snoops and their answers count to (R105), and the Twin
message whose acknowledgement they wait for (R362). -/
structure Trk where
  slot     : Nat
  la       : Nat
  kind     : TrkKind
  view     : Nat
  req      : Nat
  awaited  : List (Nat × Bool)
  since    : Nat
  slow     : Bool
  exact    : Bool
  serve    : Bool
  fault    : Bool
  before   : Option DirEnt
  tid      : Nat := 0
  job      : Nat := 0
  gate     : Option Nat := none
  stores   : Nat := 0
  dead     : Bool := false
deriving DecidableEq, Repr

/-- The work of the set scanner: the agents, the region recall and the directory image for a partner (R378) that it still
serves, each with the number of sets left to read, the counts of the AGENT_FENCED Crumb, and the next set (R160, R161,
R174). -/
structure Scan where
  agents   : List (Nat × Nat × Nat × Nat)
  regionRc : Option (Nat × Nat)
  image    : Option Nat
  next     : Nat
deriving DecidableEq, Repr

/-- A Bake fence over lines of the named rows, with its place in HOME's order (R148). -/
structure Fence where
  bake : Nat
  rows : List (Nat × Bool)
  order : Nat := 0
deriving DecidableEq, Repr

/-- A set that an uncorrectable error broke (R149): the lines settled since and whether each waits. -/
structure Broken where
  set     : Nat
  settled : List Nat
deriving DecidableEq, Repr

/-! ### Translation -/

/-- A cached leaf with its counting fields (R195, R200). -/
structure Leaf where
  tid     : Nat
  size    : Nat
  page    : Nat
  remote  : Bool
  nid     : Nat
  pga     : Nat
  nocount : Bool
  cnt     : Nat
  score   : Nat
  queued  : Bool
  lastAid : Nat
deriving DecidableEq, Repr

/-- A cached TABLE entry of level 1 or 2 (R195). -/
structure WalkEnt where
  tid   : Nat
  level : Nat
  page  : Nat
  next  : Nat
deriving DecidableEq, Repr

/-- The states of a MID slot (Table 8-14). -/
inductive MState where
  | idle | starting | copying | done | stuck | incoming | stuckIn
deriving DecidableEq, Repr

/-- A MID slot: its writable registers and the progress of its move. `doneL` is DONE at the source and RECEIVED at the
destination, `issued` the lines issued or taken, `acked` the RECEIVED last acknowledged, `sent` and `buf` the lines sent and
those read that wait to be sent in order (with PSN and the key's generation), `progress` the AO time at which DONE or RECEIVED
last advanced. `walking` says that the walk of GO or RELEASE is under way, and `prior` holds what SRC_PGA, SIZE, PEER_NID, DONE
and ISSUED showed before a GO, for a refusal by the destination (R203). -/
structure Move where
  kind     : Nat
  tid      : Nat
  tpa      : BitVec 64
  destPga  : BitVec 64
  destAid  : Nat
  state    : MState
  reason   : Nat
  size     : Nat
  peer     : Nat
  remoteMid : Nat
  srcPga   : Nat
  region   : Nat
  doneL    : Nat
  issued   : Nat
  acked    : Nat
  sent     : Nat
  resuming : Bool
  buf      : List (Nat × BitVec 512 × Bool × Option Nat)
  ahead    : List Nat
  progress : Nat
  port     : Nat
  walking  : Bool := false
  prior    : List Nat := []
deriving DecidableEq, Repr

/-! ### Keys -/

/-- A CRYPT key slot (R177, R184), with the region and line at which KEY_ERASE stopped its rotation (R186). -/
structure KeySlot where
  state  : Nat
  tid    : Nat
  gen    : Nat
  cur    : BitVec 512
  old    : Option (BitVec 512 × Nat)
  stop   : Option (Nat × Nat) := none
deriving DecidableEq, Repr

/-- The keys of a region's lines as HOME selects them at one moment (R179, R185): the current key with its generation, and during a
rotation the old one, the region and line of the pointer and the first line that rekeys of the stream have not reached. -/
structure KeyPick where
  cur    : BitVec 512
  gen    : Nat
  old    : Option (BitVec 512 × Nat)
  region : Nat
  la     : Nat
  done   : Nat
deriving DecidableEq, Repr

/-! ### The memory side -/

/-- A DRAM command of a sub-channel (R246, R247). Rows are the 18-bit row of R237; `vr` the row selector of R247. -/
inductive Cmd where
  | act (bank row : Nat) | pre (bank : Nat) | preab
  | rd (bank row col : Nat) | wr (bank row col : Nat)
  | refab | vact (bank sa vr : Nat) | vaa (bank sa vr : Nat) | vtra (bank sa a b c : Nat)
  | vsts | vclr | vidr (quarter : Nat) | sre | srx | pde | pdx | mpc | mrw | mrr | des
deriving DecidableEq, Repr

/-- The commands of one entry as they were issued, oldest first, for a replay (R258): the time in mc that its WR waits for its RD (R245),
and whether it is the VSTS, VCLR and PREab that begin a replay. -/
structure Past where
  gap   : Nat
  start : Bool
  cmds  : List Cmd
deriving DecidableEq, Repr

/-- What a Read entry is for. -/
inductive ReadFor where
  | req (rid : Nat) | dirSet (set : Nat) | rescan | scan (bid : Nat) | lane (ch : Nat) (operand : Nat)
deriving DecidableEq, Repr

/-- The kinds of queue entry (Table 10-1). -/
inductive EKind where
  | read (why : ReadFor)
  | write
  | merge (rid : Nat)
  | group (rce ctx : Nat) (cmds : List Cmd)
  | refresh
  | scrub (src : Nat)
  | poisonize
  | copy (ent : Nat)
  | reencode
  | status
  | retrain
  | segClear (seg : Nat)
  | power (sr : Bool)
deriving DecidableEq, Repr

/-- Who placed an entry (Table 10-1). -/
inductive ESrc where
  | refresh | home | rce | ras | pwr | mch
deriving DecidableEq, Repr

/-- An entry of a sub-channel queue. `srow` is the row it addresses, `row` the row after redirection (R280), `redir` the
redirections in force for the queue at its acceptance (bank, subarray, spare, rows), `lane` the context and the number of the
lane job that placed it, `words` the codewords that its writes store, `mask` the lines to be poisoned, `stale` whether its row
was stale at its acceptance, `phase` the commands behind it. -/
structure Entry where
  kind   : EKind
  src    : ESrc
  bank   : Nat
  srow   : Nat
  row    : Nat
  col    : Nat
  off    : Nat
  tid    : Nat
  job    : Nat
  epoch  : Nat
  req    : Option Nat
  bake   : Option Nat
  data   : BitVec 512
  poison : Bool
  be     : BitVec 64
  key    : Option (BitVec 512)
  mirror : Bool
  words  : List (List Byte)
  redir  : List (Nat × Nat × Nat × Nat)
  mask   : BitVec 128
  stale  : Bool
  phase  : Nat
  ready  : Nat
  lane   : Option (Nat × Nat) := none
deriving DecidableEq, Repr

/-- The open row of a bank, as subarray × 1,024 + row selector (R247), whether it is open since its last column command,
and the times at which commands of the bank last issued, in mc. -/
structure BankTime where
  opened  : Option Nat
  fresh   : Bool
  lastAct : Nat
  lastPre : Nat
  lastRd  : Nat
  lastWr  : Nat
  lastVaa : Nat
  lastTra : Nat
deriving DecidableEq, Repr

/-- Data that an entry's reads have sensed and that has not returned: one word of 80 symbols for each RD. A status burst
has no word. -/
structure Ret where
  ent   : Entry
  words : List (List Byte)
  whole : Bool
deriving DecidableEq, Repr

/-- A sub-channel queue with its timing history: `now` is the time in mc of its last command, `free` the earliest time
of the next after a command that takes the whole sub-channel, `acts` the latest activations, `power` 1 after PDE and 2
after SRE, `hist` the commands of the entry at the head and of those before it, newest first, `issued` the count of all commands, `redo`
what a replay has still to issue (R258), and `bus` the vendor command that the pins carried last: the CA bits of its two cycles and PAR,
absent while the VC pin was low (R247). -/
structure Queue where
  waiting : List Entry
  entries : List Entry
  banks   : Tab BankTime
  now     : Nat
  inSlot  : Nat
  lastRd  : Option Nat
  lastWr  : Option Nat
  acts    : List Nat
  free    : Nat
  power   : Nat
  rets    : List Ret
  hist    : List Past
  issued  : Nat
  redo    : List Past := []
  bus     : Option (Nat × Nat × Bool) := none
deriving DecidableEq, Repr

/-- What an MCH holds beside its registers: the training step that was retried, the AO tick at which its training would have
begun by Table 10-4, the times of parity alerts within the last 1 ms, the segments refreshed (R252, R253), whether Segment
clears are under way, the stale table as (queue, bank, row, mask) (R266), the hardware limit in force (R249), whether R59's
floor override is, and whether the mask holds bits from before a warm reset (R466). -/
structure Mch where
  step    : Nat
  retried : Bool
  alerts  : List Nat
  pasr    : BitVec 512
  clears  : Bool
  stale   : List (Nat × Nat × Nat × BitVec 128)
  hot     : Bool
  above    : Bool
  held    : Bool
  trainAt : Int := 0
deriving DecidableEq, Repr

/-- A page-table entry of RAS (R276): the page, its 24 slice counts, newest first, and whether it is lasting. -/
structure PageEnt where
  page    : Nat
  counts  : List Nat
  lasting : Bool
  born    : Nat
deriving DecidableEq, Repr

/-- A bank entry of RAS with its subarray slots (R276). -/
structure BankEnt where
  counts  : List Nat
  subs    : List (Nat × List Nat)
  lasting : Bool
  wide    : Bool
deriving DecidableEq, Repr

/-- A retire-map entry (R278, R279): 0 free, 1 copying, 2 active; rows whose copy entry was placed, accepted and has
issued. -/
structure RmapEnt where
  q      : Nat
  bank   : Nat
  sa     : Nat
  spare  : Nat
  state  : Nat
  placed : Nat
  copied : Nat
  issued : Nat
deriving DecidableEq, Repr

/-! ### What leaves the block -/

/-- What leaves the block, newest last in `State.outs`. -/
inductive Out where
  /-- A wire flit sent on a CCF port. -/
  | flit (port : Nat) (f : Flit)
  /-- A CXL.mem response: tag, message name as a code (0 NDR, 1 DRS), completion code (0 Cmp, 1 Cmp-S, 2 Cmp-E),
  DevLoad, poison, data. -/
  | cxlRsp (port tag kind cmp devload : Nat) (poison : Bool) (data : BitVec 512)
  /-- A back-invalidate snoop to the host: 0 BISnpInv, 1 BISnpData, 2 BISnpCur. -/
  | cxlBi (port kind la : Nat)
  /-- A CXL.io completion: 0 success, 4 Completer Abort. -/
  | cxlIo (port status : Nat) (data : Word)
  /-- The answer to a CXL memory device mailbox command: its return code and payload. -/
  | cxlMbx (port opcode code : Nat) (data : List Nat)
  /-- MSI-X vector of a CXL function (R90). -/
  | msix (port vector : Nat)
  /-- The node's interrupt to Warden (R40). -/
  | warden
  /-- A frame sent on the Meter Link by the node: its type, number and payload. -/
  | frame (ty seq : Nat) (ack : Nat) (nak : Bool) (payload : List Nat)
  /-- A frame sent by the ZM-3. -/
  | zm3 (ty : Nat) (payload : List Nat)
  /-- A signal to the TMC: its code and value. -/
  | tmc (code : Nat) (val : Nat)
  /-- A rail or output switched by the tray's power path: its code and new level. -/
  | rail (code : Nat) (on : Bool)
deriving DecidableEq, Repr

/-- The measured value of a watermark and whether it was beyond its threshold at the last sample (R43, R45). -/
structure Wmk where
  now    : Int
  beyond : Bool
deriving DecidableEq, Repr

/-- An entry of the agent table (Table 5-10): STATE, the incarnation, the AO time at which it became Fenced, and the cause of its
declaration (Table 6-2). -/
structure Agent where
  state    : Nat
  inc      : Nat
  fencedAt : Nat
  cause    : Nat := 0
deriving DecidableEq, Repr

/-- The scheduler of SHAPE (R222 to R232), with whether admission is open, closing (R494) or closed by a seventeenth broken set (R149). -/
structure Shape where
  vtime    : Nat
  tags     : Tab Nat
  eligible : List Nat
  rr       : Tab Nat
  ctok     : Tab Int
  ptok     : Tab Int
  batch    : List Nat
  fcSlots  : Nat
  fcPorts  : Tab Nat
  fcTop    : Option Nat
  tickUsed : Nat
  panic    : Bool
  load     : Nat
  limNow   : Nat
  throttle : Bool
  open_    : Bool
  closing  : Bool
  halted   : Bool := false
deriving DecidableEq, Repr

/-- The rotation in progress (R184): the slot, its tenant, and the pointer. -/
structure Rot where
  slot   : Nat
  tid    : Nat
  region : Nat
  la     : Nat
  issued : Bool
deriving DecidableEq, Repr

/-- What RAS holds beside its registers (R272 to R279): the page table by place, the banks, the retire map by entry, the
entry whose copy runs and whether its segment clear is still awaited, the patrol cursors by queue, the events counted
this second, the order of page births, and whether R59's scrub override is in force. -/
structure Ras where
  pages    : Tab PageEnt
  banks    : Tab BankEnt
  rmap     : Tab RmapEnt
  running  : Option Nat
  clearing : Bool
  cursor   : Tab Nat
  errSec   : Nat
  births   : Nat
  above     : Bool
  fields   : Tab Nat := []
deriving DecidableEq, Repr

/-- The event ring of EVLOG (R284, R285). -/
structure Evlog where
  ring  : List (Nat × List Nat)
  head  : Nat
  tail  : Nat
  used  : Nat
  seq   : Nat
  lost  : Nat
  first : Option Nat
deriving DecidableEq, Repr
/-! ### Jobs, counts and the Meter Link -/

/-- A job place (R398): open 0, closing 1, closed and waiting for its Proof's acknowledgement 2; the JOB_CLOSE request to
answer, the requests and Bakes that the close waits for, the marks of its close, the interval bounds METER names
(R397), its unmetered counts, and the counts that records to the fitted module have carried. -/
structure JobRec where
  tid      : Nat
  job      : Nat
  state    : Nat
  closer   : Option Nat
  waits    : List Nat
  disabled : Bool
  shutdown : Bool
  folded   : Bool
  first    : Nat
  last     : Nat
  unmet    : List Nat
  sent     : List Nat := List.replicate 11 0
deriving DecidableEq, Repr

/-- A closed interval of the backlog (R395, R396): the records not yet sent, by TID × 2^20 + JOB, how many the interval has,
its totals, whether it is folded, and the jobs whose JOB_CLOSE follows its TALLY_END. -/
structure Interval where
  num    : Nat
  recs   : Tab (List Nat)
  count  : Nat
  totals : List Nat
  folded : Bool
  after  : List Nat
deriving DecidableEq, Repr

/-- METER beside its registers (R391 to R400). `num` is the number of the running interval; frames stand as (type, body), those
sent and unacknowledged with their SEQ; `after` lists the jobs whose JOB_CLOSE follows the running interval; `bits` are the
flags of the latest STATUS; `tallied` says whether the interval closed last was tallied; `quitting` marks a hold-up shutdown
that waits for its SHUTDOWN frame, `ended` that every job has been closed for it. `up` says that the link has not been lost
since it last came into sync (R393). `proofs` is the ring, oldest first, with the place its head will be written to. -/
structure Meter where
  present : Bool
  sync    : Bool
  ident   : Bool
  bits    : Option Nat
  num     : Nat
  txSeq   : Nat
  rxSeq   : Nat
  nak     : Bool
  ackDue  : Bool
  unacked : List (Nat × Nat × List Nat)
  waiting : List (Nat × List Nat)
  backlog : List Interval
  after   : List Nat
  tallied : Bool
  quitting : Bool
  ended   : Bool
  proofs  : List (Nat × List Byte)
  head    : Nat
  up      : Bool := false
deriving DecidableEq, Repr

/-- A job in the ZM-3 (R406, R415): its six accumulators in nJ, and its degraded and unmetered intervals as (interval, whether
unmetered, causes). -/
structure ZJob where
  tid   : Nat
  job   : Nat
  first : Nat
  acc   : List Nat
  odd   : List (Nat × Bool × Nat)
deriving DecidableEq, Repr

/-- The ZM-3 (R384, R406 to R419): what HELLO told it, the jobs that JOB_OPEN frames have named since its last IDENT until the
first Tally, its open jobs, the JOB 0 total of each tenant, the unassigned energy, the abandoned jobs, the journal of
Proofs as (PSEQ, record, whether acknowledged), the PSEQ last issued, the 64-bit interval count, the openings,
insertions and tampers counted in SEAL_EVENTS, the Proofs issued since the last audit, whether its case is sealed (R385), the
firmware image fitted (R384), its own log of discarded frames by type, and the implausible intervals of the last second (R402). -/
structure Zm3 where
  nid        : Nat
  nodeSerial : Nat
  named      : Option (List (Nat × Nat))
  jobs       : List ZJob
  totals     : Tab Nat
  unassigned : Int
  abandoned  : List (Nat × Nat)
  journal    : List (Nat × List Byte × Bool)
  pseq       : Nat
  count      : Nat
  sealEvents : Nat
  audit      : Nat
  sealed     : Bool := true
  fw         : Nat := 0
  log        : List Nat := []
  suspect    : List Nat := []
deriving DecidableEq, Repr

/-! ### Twin pairs -/

/-- What waits for the acknowledgement of a Twin message (R362): a final response of a request (status, GRANT, line), a message to an
agent, or a back-invalidate (kind, line, PGA >> 6). -/
inductive Gate where
  | rsp (rid status grant : Nat) (data : Option (BitVec 512))
  | snp (aid : Nat) (m : Msg) (tid job : Nat)
  | bi (port kind la addr : Nat)
deriving DecidableEq, Repr

/-- A Bake that a pair shares (R366 to R368): `bid` is its Bake on this node, absent at the other node where it is not
replayed; `answer` what the partner answered, or what this node answered; `copies` whether the row copies are all
acknowledged; `ended` whether TW_BAKE_END was sent, or has arrived; `desc` the descriptor as TW_BAKE carried it. -/
structure TwBake where
  tid     : Nat
  btag    : Nat
  holder  : Bool
  seq     : Nat
  bid     : Option Nat
  job     : Nat
  desc    : BitVec 512
  answer  : Option Bool
  copies  : Bool
  ended   : Bool
deriving DecidableEq, Repr

/-- TWIN beside its registers: the Turn, the sequenced channel both ways, and the lease. `accepting` lists applied TW_LINEs that
no queue has accepted yet, `ackSent` the TSEQ last acknowledged to the holder, `renewals` the renewals sent and not yet answered
with their times, `ackedSent` the time of the latest acknowledged one, or of TW_SYNCED, `heard` when the latest renewal, or
TW_SYNCED, arrived; `rekeyed` the first line of each mirrored region that rekeys of the stream have not reached; `resync` the
resync pointer. -/
structure Twin where
  turn      : Nat
  leased    : Bool
  synced    : Bool
  current   : Bool
  desync    : Bool
  partPref  : Bool
  seqSent   : Nat
  seqAcked  : Nat
  applied   : Nat
  accepting : List Nat
  sinceAck  : Nat
  ackSent   : Nat
  unacked   : List (Nat × Msg × Nat × Nat)
  waiting   : List (Nat × Msg × Nat × Nat)
  gates     : List (Nat × Gate)
  writes    : List (Nat × Nat)
  lseq      : Nat
  renewals  : List (Nat × Nat)
  ackedSent : Nat
  ackedLseq : Nat
  heard     : Option Nat
  pendRecs  : List DirEnt
  bakes     : List TwBake
  resync    : Option Nat
  handing   : Option Nat
  usedPort  : Nat
  rekeyed   : Tab Nat
  turnCount : Nat
  resynced  : Nat
  heardLseq : Nat := 0
deriving DecidableEq, Repr


/-! ### Row compute -/

/-- A rescan of a bank subarray (R298): what is still to be read and whether a poisoned line found no entry. -/
structure Rescan where
  q      : Nat
  bank   : Nat
  sa     : Nat
  left   : Nat
  missed : Bool
deriving DecidableEq, Repr

/-- RDL beside its registers: the Poisoned Row List as (place, row, mask), the overflowed bank subarrays, and the rescan
(R297, R298). A row is numbered (queue × 16 + bank) × 2^18 + row, a bank subarray by its row number without the row. -/
structure Rdl where
  prl    : List (Nat × Nat × BitVec 128)
  ovf    : List Nat
  rescan : Option Rescan
deriving DecidableEq, Repr

/-- A value that a reduction carries: an integer, or an FP32 accumulator with its flags, with the elements counted and
whether a poisoned line was reduced (R304 to R308). -/
structure Part where
  int    : Int
  fp     : BitVec 32
  first  : Bool
  count  : Nat
  flags  : BitVec 5
  poison : Bool
deriving DecidableEq, Repr

/-- A lane job (R325, R345): context 8 stands for the node itself; `rank` is the place of the next line among the lines
of its channel, `last` the place after its last, `got` the operand lines that have returned for the line under way, `no` its number in the
order of placement. -/
structure LaneJob where
  bid  : Nat
  ctx  : Nat
  kind : Nat
  rank : Nat
  last : Nat
  got  : List (Nat × BitVec 512 × Bool)
  busy : Bool
  no   : Nat := 0
deriving DecidableEq, Repr

/-- The group that a context builds (R322, R323): its target, its commands, and whether it grew past 16. -/
structure Group where
  q     : Nat
  bank  : Nat
  sa    : Nat
  cmds  : List Cmd
  tooBig : Bool
  closed : Bool
deriving DecidableEq, Repr

/-- A context (Table 13-1). `window` holds the copies of the word at PC and of the word after it, each with whether its
parity failed; it is empty while the context refills. `state`: 0 free, 1 running, 2 stalled, 3 ended. `stall` says in
what: 1 GEND, 2 LANE, 3 WAITL, 4 WAITG. -/
structure Ctx where
  state   : Nat
  bid     : Nat
  pc      : Nat
  x       : List Word
  lc      : List Nat
  stack   : List Nat
  window  : List (Nat × Bool)
  group   : Option Group
  stall   : Nat
  since   : Nat
  layout  : Bool
  fault   : Nat
  faultPc : Nat
  page    : Tab Nat
deriving DecidableEq, Repr

/-- A span of a Bake: region and node offset of its first byte. -/
abbrev Span := Nat × Nat

/-- The record of a Bake (Table 14-9), from admission to its status word. `order` is its place in HOME's order, once it has one.
`runs` gives, per RCE, the runs begun and whether the latest has ended. `cause`, `fault` and `faultCh` are fixed at the decision
point. `scr` names scratch rows written since the reservation, as (bank subarray × 8 + scratch row), with the mask and whether
what they hold came from a stale row. `keys` are the keys of its Sealed regions as HOME selected them when it ordered the Bake
(R303). `stage`: 0 before its order, 1 preparing, 2 scanning, 3 running, 4 lane part, 5 record, 6 status, 7 status accepted. -/
structure Bake where
  id      : Nat
  btag    : Nat
  tid     : Nat
  job     : Nat
  port    : Nat
  aid     : Nat
  epoch   : Nat
  stage   : Nat
  order   : Option Nat
  plan    : Nat
  base    : Nat
  entry   : Nat
  kind    : Nat
  scratch : Nat
  laneOk  : Bool
  lazy    : Bool
  verify  : Bool
  raw     : Bool
  wantRec : Bool
  elem    : Nat
  rop     : Nat
  len     : Nat
  spanD   : Span
  spanA   : Span
  spanB   : Span
  spanC   : Span
  status  : Span
  record  : Span
  xarg0   : Nat
  xarg1   : Nat
  runs    : Tab (Nat × Bool)
  granted : List Nat
  scr     : List (Nat × BitVec 128 × Bool)
  scans   : List (Nat × Nat)
  scanned : List (Nat × BitVec 128)
  decided : Bool
  cause   : Nat
  fault   : Nat
  faultCh : Nat
  poison  : Bool
  stale   : Bool
  lanes   : Nat
  parts   : Tab Part
  replay  : Bool
  turned  : Bool
  desc    : BitVec 512
  keys    : Tab KeyPick := []
deriving DecidableEq, Repr

/-- A loaded plan (R339): closing names the PLAN_UNLOAD that waits for its end. -/
structure Plan where
  num     : Nat
  tid     : Nat
  base    : Nat
  words   : Nat
  sealed_ : Bool
  ops     : List (Nat × Nat × Nat × Bool)
  closing : Option Nat
deriving DecidableEq, Repr

/-- A PLAN_LOAD under way (R337): the request, the lines still to come, the lines read, and whether one was bad. -/
structure Load where
  rid    : Nat
  asked  : Nat
  lines  : List (Nat × BitVec 512)
  left   : Nat
  bad    : Bool
deriving DecidableEq, Repr
/-! ### Power, the tray and Warden -/

/-- PWR beside its registers (R430 to R437): when each page entered its present state, the AO ticks it spent in each before (by
page × 4 + state), its wakes, the sensors of the latest sample as (reading, whether valid), and the window boundaries that have passed
while XLAT slept and that it applies on wake (R433). -/
structure Pwr where
  since   : Tab Nat
  res     : Tab Nat
  wakes   : Tab Nat
  sensors : List (Nat × Bool)
  windows : Nat := 0
deriving DecidableEq, Repr

/-- An orderly shutdown (Table 19-7): its cause, whether METER has ended its jobs, whether the Crumbs are copied, whether
the rails are open and whether the bank output is. -/
structure Shut where
  cause   : Nat
  metered : Bool
  flushed : Bool
  rails   : Bool
  ended   : Bool
deriving DecidableEq, Repr

/-- The TMC and the safety path (R442 to R461). `now` counts AO ticks and no reset of the node touches it. The hold latches are
`hsEn`, `bankOut`, `stackRail`, `nodeRails`, `modPower` (by module) and `duties` (four fans, then two pumps). `uv` is the time
of an undervoltage in its ride-through window, `trip` that of a THERMTRIP latch. `wet` are the four leak sensors, `readings`
what the sensors said last. The non-volatile stores: the Crumb store, the log, the profile, the retire map, ENROLL_FP, the
confirmed preference and the image the TMC can serve. `pins` gives each switchable pin's function, plus 2 while it is held at
its safe level. `mirrored` is the AO time of the last mirror update, `wdtBoot` whether the watchdog reset the firmware, `start`
whether the node is to be started, `above` whether R59's cooling override is in force, `order` the options of the printed order
code, and `present` the presence inputs by their bit of TMCB 0x120. -/
structure Tmc where
  now       : Nat
  standby   : Bool
  running   : Bool
  hsEn      : Bool
  bankOut   : Bool
  stackRail : Bool
  nodeRails : Bool
  modPower  : List Bool
  duties    : List Nat
  powerGood : Bool
  latched   : Bool
  kind      : Nat
  retries   : Nat
  input     : Bool
  uv        : Option Nat
  shut      : Option Shut
  forced    : Bool
  offAt     : Option Nat
  start     : Bool
  leakLatch : Bool
  wet       : List Bool
  trip      : Option Nat
  straps    : BitVec 9
  override  : Option Nat
  readings  : Option Sensors
  tj        : Int
  stack     : Int
  reported  : Nat
  pumpsBad  : List Bool
  wdt       : Nat
  crumbs    : List (List Nat)
  log       : List (Nat × Nat)
  profile   : Option (List Byte)
  rmap      : Tab Nat
  enroll    : List Nat
  confirmed : Option Nat
  image     : List Byte
  pins      : Tab Nat
  capacity  : Nat
  mirrored  : Nat
  wdtBoot   : Bool
  above      : Bool
  order     : BitVec 3
  present   : BitVec 19
  version   : Nat
  traySerial : BitVec 64
deriving DecidableEq, Repr

/-- Warden beside its registers (R463 to R484): the owner of the mailbox; the command it performs with its LEN and the core that
executes it; the two flash devices; the version of the running image; the copy preferred before a trial and whether the running
boot is the trial; the cause of a requested warm reset that is prepared, and whether its recall sweep runs or has ended, with
the core that prepares it; the times of each core's restarts; and from the applied profile its management agents as (AID,
incarnation) and whether it was blank (R480); the PC and stack pointer that a core in lockup asserts to the other (R478). -/
structure Warden where
  owner    : Option Nat
  busy     : Option (Nat × Nat × Bool)
  flashA   : List Byte
  flashB   : List Byte
  former   : Nat
  trial    : Bool
  prep     : Option Nat
  sweep    : Nat
  restarts : List (List Nat)
  prepCore : Bool
  agents   : List (Nat × Nat)
  blank    : Bool
  lockup   : Option (Nat × Nat) := none
deriving DecidableEq, Repr

/-! ### The state -/

/-- The state of the block. -/
structure State where
  /-- The options of this part (R2). -/
  opts : Options
  /-- The fuses of this part. -/
  fuses : Fuses
  /-- The commands that wait, first in, first out. -/
  pending : List Instr
  /-- The model's own counter of free values (assumption 3). -/
  freeCtr : Nat
  /-- AO ticks since cold reset: CLK AO_TIME (R423). -/
  ao : Nat
  /-- The value the last register read returned. -/
  rdata : Nat
  /-- What has left the block. -/
  outs : List Out
  /-- Register fields that no structure below holds, by field key. -/
  regs : Tab Nat
  /-- RWE fields in force in the open epoch (R46). -/
  cfgOpen : Tab Nat
  /-- RWE fields in force in the draining epoch (R50). -/
  cfgDrain : Tab Nat
  /-- The staged sets of all blocks (R46). -/
  cfgStaged : Tab Nat
  /-- Upper halves latched by lower reads, by address of the upper register (R13). -/
  latches : Tab Nat
  /-- Held lower halves, by address of the lower register (R13). -/
  halves : Tab Nat
  /-- The holding buffer of the region table: the entry and its word 1 (R167). -/
  holdBuf : Option (Nat × Word)
  /-- The watermark groups, by page × 16 + group. -/
  wmk : Tab Wmk
  /-- Events of the running 1 ms window, by watermark group as above. -/
  wins : Tab Nat
  /-- Blocks on their way back to Run, and the AO time of each block's latest work (R430, R431). -/
  waking : List Nat
  lastUse : Tab Nat
  /-- The open and the draining epoch, whether a commit is pending and whether DRAIN_SLOW was raised for it. -/
  openEpoch : Nat
  drainEpoch : Nat
  commitPending : Bool
  slowRaised : Bool
  /-- Tenants whose root entry the pending commit changed (R196). -/
  rootChanged : List Nat
  /-- The DRAM of the 48 stacks. -/
  dram : List Host.Cell
  ports : Tab Port
  reqs : List Req
  nextId : Nat
  /-- The next number of arrival at the home. -/
  nextOrder : Nat
  shape : Shape
  agents : Tab Agent
  dir : List DirEnt
  /-- The sets held in DIRC frames, most recently used first, with whether a frame is dirty (R128). -/
  frames : List (Nat × Bool)
  trks : List Trk
  /-- Lines with an open transaction, with the request it serves. -/
  openTx : List (Nat × Nat)
  /-- Owed answers: agent, line, and the tenant and job they count to (R105, R143). -/
  owed : List (Nat × Nat × Nat × Nat)
  fences : List Fence
  broken : List Broken
  scan : Option Scan
  /-- The translation cache, by set, and the walk cache, most recently used first. -/
  tc : List Leaf
  wc : List WalkEnt
  /-- Waiting invalidation messages, in order of arrival: port, message, and the requests that an XSYNC waits for (R197, R199). -/
  xsyncs : List (Nat × Msg × List Nat)
  hpqHead : Nat
  hpqTail : Nat
  windowCount : Nat
  moves : Tab Move
  slots : Tab KeySlot
  rot : Option Rot
  lastGen : Tab Nat
  /-- The transport private key and public point of this reset (R180), absent while erased. -/
  tpk : Option (Nat × Nat × Nat)
  queues : Tab Queue
  mchs : Tab Mch
  ras : Ras
  rdl : Rdl
  /-- The plan area of each RCE's control store (R312): words with parity bit 32. -/
  planArea : Tab (Tab Nat)
  /-- Contexts, by RCE × 8 + context, and the context that each RCE served last. -/
  ctxs : Tab Ctx
  served : Tab Nat
  bakes : List Bake
  plans : List Plan
  loads : List Load
  /-- Lane jobs, by channel, in the order of placement. -/
  lanes : Tab (List LaneJob)
  evlog : Evlog
  twin : Twin
  jobs : List JobRec
  /-- Counts of the running interval by TID × 2^20 + JOB, eleven classes (Table 16-4). -/
  tally : Tab (List Nat)
  meter : Meter
  zm3 : Zm3
  pwr : Pwr
  tmc : Tmc
  warden : Warden
deriving DecidableEq, Repr


/-! ### Reset -/

/-- TWIN after reset: no channel, unpaired (Table 15-10). -/
def Twin.fresh : Twin :=
  { turn := 0, leased := false, synced := false, current := false, desync := false, partPref := false, seqSent := 0, seqAcked := 0,
    applied := 0, accepting := [], sinceAck := 0, ackSent := 0, unacked := [], waiting := [], gates := [], writes := [], lseq := 0,
    renewals := [], ackedSent := 0, ackedLseq := 0, heard := none, pendRecs := [], bakes := [], resync := none, handing := none,
    usedPort := 0, rekeyed := [], turnCount := 0, resynced := 0 }

def Shape.fresh : Shape :=
  { vtime := 0, tags := [], eligible := [], rr := [], ctok := [], ptok := [], batch := [], fcSlots := 0, fcPorts := [],
    fcTop := none, tickUsed := 0, panic := false, load := 0, limNow := 2048, throttle := false, open_ := false, closing := false }

def Ras.fresh : Ras :=
  { pages := [], banks := [], rmap := [], running := none, clearing := false, cursor := [], errSec := 0, births := 0, above := false }

def Evlog.fresh : Evlog := { ring := [], head := 0, tail := 0, used := 0, seq := 0, lost := 0, first := none }


/-- METER with no module reported, no link and an empty Proof ring (Table 16-9). -/
def Meter.fresh : Meter :=
  { present := false, sync := false, ident := false, bits := none, num := 0, txSeq := 0, rxSeq := 0, nak := false, ackDue := false,
    unacked := [], waiting := [], backlog := [], after := [], tallied := false, quitting := false, ended := false,
    proofs := [], head := 0 }

/-- A ZM-3 that has issued no Proof (R416). -/
def Zm3.fresh : Zm3 :=
  { nid := 0, nodeSerial := 0, named := none, jobs := [], totals := [], unassigned := 0, abandoned := [], journal := [], pseq := 0,
    count := 0, sealEvents := 0, audit := 0 }

def Pwr.fresh : Pwr := { since := [], res := [], wakes := [], sensors := List.replicate 16 (0, false) }

/-- A tray that is powered, with everything in order and empty stores (assumption 62). -/
def Tmc.fresh : Tmc :=
  { now := 0, standby := true, running := true, hsEn := true, bankOut := true, stackRail := false, nodeRails := true,
    modPower := List.replicate 16 false, duties := List.replicate 6 100, powerGood := true, latched := false, kind := 0, retries := 0,
    input := true, uv := none, shut := none, forced := false, offAt := none, start := true, leakLatch := false,
    wet := List.replicate 4 false, trip := none, straps := 0, override := none, readings := none, tj := 0, stack := 0, reported := 0,
    pumpsBad := [false, false], wdt := 0, crumbs := [], log := [], profile := none, rmap := [], enroll := List.replicate 8 0,
    confirmed := none, image := [], pins := [], capacity := 1000, mirrored := 0,
    wdtBoot := false, above := false, order := 7, present := 0, version := 0, traySerial := 0 }

/-- Warden at reset, with empty flash devices (assumption 62). -/
def Warden.fresh : Warden :=
  { owner := none, busy := none, flashA := [], flashB := [], former := 0, trial := false, prep := none, sweep := 0,
    restarts := [[], []], prepCore := false, agents := [], blank := false }

/-- A part with every option, and fuses that no claim rests on (assumptions 1 and 61). -/
def Fuses.fresh : Fuses := { imageKey := 0, svnFloor := 0, nodeSerial := 0, stepMajor := 0, stepMinor := 0, idKey := 0 }

/-- The block right after reset: every register at the value its table gives, which the field's reader supplies; empty
queues and tables; the DRAM as training leaves it. -/
def State.reset : State :=
  { opts := { c := true, k := true, w := true }, fuses := Fuses.fresh, pending := [], freeCtr := 0, ao := 0, rdata := 0, outs := [],
    regs := [], cfgOpen := [], cfgDrain := [], cfgStaged := [], latches := [], halves := [], holdBuf := none, wmk := [], wins := [],
    waking := [], lastUse := [], openEpoch := 0, drainEpoch := 0, commitPending := false, slowRaised := false, rootChanged := [],
    dram := [], ports := [], reqs := [], nextId := 0, nextOrder := 0, shape := Shape.fresh, agents := [], dir := [], frames := [],
    trks := [], openTx := [], owed := [], fences := [], broken := [], scan := none, tc := [], wc := [], xsyncs := [], hpqHead := 0,
    hpqTail := 0, windowCount := 0, moves := [], slots := [(0, { state := 1, tid := 0, gen := 0, cur := 0, old := none })], rot := none,
    lastGen := [], tpk := none, queues := [], mchs := [], ras := Ras.fresh, rdl := { prl := [], ovf := [], rescan := none },
    planArea := [], ctxs := [], served := [], bakes := [], plans := [], loads := [], lanes := [], evlog := Evlog.fresh,
    twin := Twin.fresh, jobs := [], tally := [], meter := Meter.fresh, zm3 := Zm3.fresh, pwr := Pwr.fresh,
    tmc := Tmc.fresh, warden := Warden.fresh }

end Sys2Proof.Machine
end

