-- ==== Sys2Proof/Machine/Bits.lean ====
section
/-! DEFINITION. Bit fields, byte order (R9) and tables: the helpers over plain numbers and lists that every block uses. -/
namespace Sys2Proof.Machine

/-- Bits lo … lo + w − 1 of a number. -/
def bits (x lo w : Nat) : Nat := x / 2 ^ lo % 2 ^ w

/-- Bit n of a number. -/
def bit (x n : Nat) : Bool := bits x n 1 == 1

/-- A flag as a number. -/
def b2n (b : Bool) : Nat := if b then 1 else 0

/-- The number with `v` in bits lo … lo + w − 1. -/
def setBits (x lo w v : Nat) : Nat := x - bits x lo w * 2 ^ lo + v % 2 ^ w * 2 ^ lo

/-- The value of a little-endian byte string (R9). -/
def leNat : List Byte → Nat
  | [] => 0
  | b :: t => b.toNat + 256 * leNat t

/-- The n bytes of a number, little-endian (R9). -/
def leBytes : Nat → Nat → List Byte
  | 0, _ => []
  | n + 1, x => BitVec.ofNat 8 x :: leBytes n (x / 256)

/-- The value of a big-endian byte string. -/
def beNat (l : List Byte) : Nat := leNat l.reverse

/-- The n bytes of a number, big-endian. -/
def beBytes (n x : Nat) : List Byte := (leBytes n x).reverse

/-- A signed number from w bits of two's complement. -/
def sgn (w x : Nat) : Int := if x % 2 ^ w < 2 ^ (w - 1) then (x % 2 ^ w : Nat) else (x % 2 ^ w : Nat) - (2 ^ w : Nat)

/-- The w bits of two's complement of a signed number. -/
def unsgn (w : Nat) (x : Int) : Nat := (x % (2 ^ w : Nat)).toNat

/-- Lists of n equal parts, cut from the front. -/
def chunks {α : Type} : Nat → Nat → List α → List (List α)
  | 0, _, _ => []
  | n + 1, k, l => l.take k :: chunks n k (l.drop k)

/-- The parts of a header from its fields: (lowest bit, width, value). -/
def packBits (l : List (Nat × Nat × Nat)) : Nat :=
  l.foldl (fun a (lo, w, v) => a + v % 2 ^ w * 2 ^ lo) 0

/-! ### Tables -/

/-- The value listed for a key. -/
def Tab.get? {α : Type} : Tab α → Nat → Option α
  | [], _ => none
  | (k, v) :: t, x => if x = k then some v else if x < k then none else Tab.get? t x

/-- The value of a key, or the default. -/
def Tab.get {α : Type} (t : Tab α) (x : Nat) (d : α) : α := (Tab.get? t x).getD d

/-- The table with a key set to a value. -/
def Tab.set {α : Type} : Tab α → Nat → α → Tab α
  | [], x, v => [(x, v)]
  | (k, w) :: t, x, v =>
    if x < k then (x, v) :: (k, w) :: t
    else if x = k then (x, v) :: t
    else (k, w) :: Tab.set t x v

/-- The table without a key. -/
def Tab.erase {α : Type} (t : Tab α) (x : Nat) : Tab α := t.filter (fun p => p.1 != x)

/-- Every value changed by a function. -/
def Tab.mapVal {α : Type} (f : α → α) (t : Tab α) : Tab α := t.map (fun p => (p.1, f p.2))

/-- The first table's entries over the second's. -/
def Tab.overlay {α : Type} (top base : Tab α) : Tab α := top.foldl (fun b p => Tab.set b p.1 p.2) base

/-- The first element that satisfies a test, changed. -/
def updFirst {α : Type} (p : α → Bool) (f : α → α) : List α → List α
  | [] => []
  | x :: t => if p x then f x :: t else x :: updFirst p f t

/-- The list without the first element that satisfies a test. -/
def dropFirst {α : Type} (p : α → Bool) : List α → List α
  | [] => []
  | x :: t => if p x then t else x :: dropFirst p t

/-- The list with its n-th element replaced. -/
def setNth {α : Type} (l : List α) (n : Nat) (v : α) : List α := l.take n ++ (if n < l.length then v :: l.drop (n + 1) else [])

/-- The smallest element by a measure, the first on a tie. -/
def minBy {α : Type} (f : α → Nat) : List α → Option α
  | [] => none
  | x :: t => match minBy f t with
    | none => some x
    | some y => if f y < f x then some y else some x

end Sys2Proof.Machine
end

