-- ==== Sys2Proof/Machine/Crypto.lean ====
section
/-! DEFINITION. The published algorithms the manual names: AES-256 (FIPS 197) in XTS (IEEE 1619), GCM (SP 800-38D) and
Key Wrap (RFC 3394); SHA-256 and SHA-384 (FIPS 180-4); the curve P-384 (FIPS 186) with ECDH (SP 800-56A). -/
namespace Sys2Proof.Machine

/-! ### AES-256 -/

/-- Multiplication by x in the field of AES, polynomial x^8 + x^4 + x^3 + x + 1. -/
def aesX (a : Nat) : Nat := if a < 128 then 2 * a else (2 * a) ^^^ 0x11B

/-- Multiplication in the field of AES. -/
def aesMul : Nat → Nat → Nat → Nat
  | 0, _, _ => 0
  | n + 1, a, b => aesX (aesMul n a (b / 2)) ^^^ (if b % 2 = 1 then a else 0)

/-- a^254 by fourteen multiplications. -/
def aesInv (a : Nat) : Nat :=
  let m := aesMul 8
  let a2 := m a a
  let a4 := m a2 a2
  let a8 := m a4 a4
  let a16 := m a8 a8
  let a32 := m a16 a16
  let a64 := m a32 a32
  let a128 := m a64 a64
  m a2 (m a4 (m a8 (m a16 (m a32 (m a64 a128)))))

/-- The substitution of one byte. -/
def aesSubByte (a : Nat) : Nat :=
  let b := aesInv a
  let rot := fun (n : Nat) => (b * 2 ^ n) % 256 + b / 2 ^ (8 - n)
  b ^^^ rot 1 ^^^ rot 2 ^^^ rot 3 ^^^ rot 4 ^^^ 0x63

/-- The substitution table. -/
def aesSbox : List Nat := (List.range 256).map aesSubByte

/-- The inverse substitution table. -/
def aesSboxInv : List Nat := (List.range 256).map (fun v => aesSbox.idxOf v)

def aesS (a : Nat) : Nat := aesSbox[a]?.getD 0
def aesSi (a : Nat) : Nat := aesSboxInv[a]?.getD 0

/-- The 60 words of the key schedule of a 256-bit key, each a list of four bytes. -/
def aesSchedule (key : List Nat) : List (List Nat) :=
  let w0 := chunks 8 4 key
  let (w, _) := (List.range 52).foldl (fun (st : List (List Nat) × Nat) j =>
    let (w, rc) := st
    let i := j + 8
    let prev := w[i - 1]?.getD []
    let back := w[i - 8]?.getD []
    let t := if i % 8 = 0 then
        let r := (prev.drop 1 ++ prev.take 1).map aesS
        (r.headD 0 ^^^ rc) :: r.drop 1
      else if i % 8 = 4 then prev.map aesS else prev
    (w ++ [back.zipWith (· ^^^ ·) t], if i % 8 = 0 then aesX rc else rc)) (w0, 1)
  w

def aesAddKey (s k : List Nat) : List Nat := s.zipWith (· ^^^ ·) k

/-- The bytes of a state moved so that position i takes byte f i. -/
def aesPerm (f : Nat → Nat) (s : List Nat) : List Nat := (List.range 16).map (fun i => s[f i]?.getD 0)

def aesShift (s : List Nat) : List Nat := aesPerm (fun i => (i + 4 * (i % 4)) % 16) s
def aesShiftInv (s : List Nat) : List Nat := aesPerm (fun i => (i + 12 * (i % 4)) % 16) s

def aesMixCol (m : List Nat) (c : List Nat) : List Nat :=
  (List.range 4).map (fun r => (List.range 4).foldl (fun a j =>
    a ^^^ aesMul 8 ((c)[j]?.getD 0) (m[(j + 4 - r) % 4]?.getD 0)) 0)

def aesMix (m : List Nat) (s : List Nat) : List Nat := (chunks 4 4 s).flatMap (aesMixCol m)

/-- One block encrypted. -/
def aesEnc (sched : List (List Nat)) (b : List Nat) : List Nat :=
  let rk := fun (r : Nat) => ((sched.drop (4 * r)).take 4).flatten
  let mid := (List.range 13).foldl (fun s r =>
    aesAddKey (aesMix [2, 3, 1, 1] (aesShift (s.map aesS))) (rk (r + 1))) (aesAddKey b (rk 0))
  aesAddKey (aesShift (mid.map aesS)) (rk 14)

/-- One block decrypted. -/
def aesDec (sched : List (List Nat)) (b : List Nat) : List Nat :=
  let rk := fun (r : Nat) => ((sched.drop (4 * r)).take 4).flatten
  let mid := (List.range 13).foldl (fun s r =>
    aesMix [14, 11, 13, 9] (aesAddKey ((aesShiftInv s).map aesSi) (rk (13 - r)))) (aesAddKey b (rk 14))
  aesAddKey ((aesShiftInv mid).map aesSi) (rk 0)

def toNats (l : List Byte) : List Nat := l.map (·.toNat)
def toBytes (l : List Nat) : List Byte := l.map (BitVec.ofNat 8)

/-! ### XTS-AES-256 (R178) -/

/-- The tweak times α in GF(2^128), as little-endian bytes. -/
def xtsNext (t : List Nat) : List Nat :=
  let v := leNat (toBytes t)
  toNats (leBytes 16 (if v < 2 ^ 127 then 2 * v else (2 * v) ^^^ (2 ^ 128 + 0x87)))

/-- One line under an XTS key pair, Key1 in the first 32 bytes; the tweak is the line address (R178). -/
def xtsLine (enc : Bool) (key : BitVec 512) (la : Nat) (d : List Byte) : List Byte :=
  let kb := toNats (leBytes 64 key.toNat)
  let k1 := aesSchedule (kb.take 32)
  let k2 := aesSchedule (kb.drop 32)
  let t0 := aesEnc k2 (toNats (leBytes 16 la))
  let (out, _) := (chunks 4 16 (toNats d)).foldl (fun (st : List Nat × List Nat) b =>
    let (o, t) := st
    let x := b.zipWith (· ^^^ ·) t
    let y := if enc then aesEnc k1 x else aesDec k1 x
    (o ++ y.zipWith (· ^^^ ·) t, xtsNext t)) ([], t0)
  toBytes out

/-! ### GCM (R72) -/

/-- Multiplication in GF(2^128) of GCM; the leftmost bit is the coefficient of x^0. -/
def ghMul (x y : Nat) : Nat :=
  ((List.range 128).foldl (fun (st : Nat × Nat) i =>
    let (z, v) := st
    (if bit x (127 - i) then z ^^^ v else z,
     if v % 2 = 1 then v / 2 ^^^ (0xE1 * 2 ^ 120) else v / 2)) (0, y)).1

/-- Bytes filled with zeros to whole blocks of 16. -/
def pad16 (l : List Nat) : List Nat := l ++ List.replicate ((16 - l.length % 16) % 16) 0

/-- GHASH of the additional data and the ciphertext. -/
def ghash (h : Nat) (aad ct : List Nat) : Nat :=
  let blocks := chunks ((pad16 aad ++ pad16 ct).length / 16) 16 (pad16 aad ++ pad16 ct)
  let z := blocks.foldl (fun y b => ghMul (y ^^^ beNat (toBytes b)) h) 0
  ghMul (z ^^^ (aad.length * 8 * 2 ^ 64 + ct.length * 8)) h

/-- n bytes of key stream from block `start`, for a 96-bit nonce. -/
def gcmStream (key : List (List Nat)) (nonce : List Nat) (start n : Nat) : List Nat :=
  (((List.range ((n + 15) / 16)).flatMap (fun i => aesEnc key (nonce ++ toNats (beBytes 4 (start + i)))))).take n

/-- The tag. -/
def gcmTag (key : List (List Nat)) (nonce aad ct : List Nat) : List Nat :=
  let h := beNat (toBytes (aesEnc key (List.replicate 16 0)))
  (toNats (beBytes 16 (ghash h aad ct))).zipWith (· ^^^ ·) (gcmStream key nonce 1 16)

/-! ### Key Wrap (RFC 3394) -/

/-- Unwrapping; none when the integrity check fails. -/
def kwUnwrap (kek : List Byte) (w : List Byte) : Option (List Byte) :=
  let sched := aesSchedule (toNats kek)
  let n := w.length / 8 - 1
  let r0 := chunks n 8 (toNats (w.drop 8))
  let (a, r) := (List.range (6 * n)).foldl (fun (st : List Nat × List (List Nat)) k =>
    let (a, r) := st
    let t := 6 * n - k
    let i := (t - 1) % n
    let b := aesDec sched (((a.zipWith (· ^^^ ·) (toNats (beBytes 8 t))) ++ (r[i]?.getD [])))
    (b.take 8, setNth r i (b.drop 8))) (toNats (w.take 8), r0)
  if a == List.replicate 8 0xA6 then some (toBytes r.flatten) else none

/-! ### SHA-2 -/

/-- Numbers of w bits rotated right. -/
def rotr (w x n : Nat) : Nat := x / 2 ^ n + x % 2 ^ n * 2 ^ (w - n)

/-- The primes below 420, of which SHA-2 takes 80. -/
def shaPrimes : List Nat :=
  ((List.range 410).drop 2).filter (fun n => ((List.range 21).drop 2).all (fun d => n % d != 0 || n == d))

/-- The largest r with r^k at most n, found bit by bit. -/
def rootK (k n : Nat) : Nat → Nat → Nat
  | 0, r => r
  | b + 1, r => rootK k n b (if (r + 2 ^ b) ^ k ≤ n then r + 2 ^ b else r)

/-- The first w bits of the fractional part of the cube root of a prime. -/
def shaK (w p : Nat) : Nat := rootK 3 (p * 2 ^ (3 * w)) (w + 4) 0 % 2 ^ w

def sha256K : List Nat := (shaPrimes.take 64).map (shaK 32)
def sha512K : List Nat := (shaPrimes.take 80).map (shaK 64)
def sha256H : List Nat := (shaPrimes.take 8).map (fun p => rootK 2 (p * 2 ^ 64) 37 0 % 2 ^ 32)
def sha384H : List Nat := ((shaPrimes.drop 8).take 8).map (fun p => rootK 2 (p * 2 ^ 128) 69 0 % 2 ^ 64)

/-- One block of SHA-2 with words of w bits; `c` gives the rotations and shifts of the four functions. -/
def shaBlock (w : Nat) (ks : List Nat) (c : List Nat) (h : List Nat) (blk : List Nat) : List Nat :=
  let g := fun (i : Nat) => (c)[i]?.getD 0
  let md := 2 ^ w
  let sched := (List.range (ks.length - 16)).foldl (fun (ws : List Nat) _ =>
    -- the newest word stands first
    let at' := fun (i : Nat) => ws[i - 1]?.getD 0
    let x := at' 15
    let y := at' 2
    let s0 := rotr w x (g 0) ^^^ rotr w x (g 1) ^^^ (x / 2 ^ g 2)
    let s1 := rotr w y (g 3) ^^^ rotr w y (g 4) ^^^ (y / 2 ^ g 5)
    ((at' 16 + s0 + at' 7 + s1) % md) :: ws) blk.reverse
  let out := (ks.zip sched.reverse).foldl (fun (v : List Nat) kw =>
    match v with
    | [a, b, cc, d, e, f, gg, hh] =>
      let s1 := rotr w e (g 6) ^^^ rotr w e (g 7) ^^^ rotr w e (g 8)
      let ch := (e &&& f) ^^^ ((md - 1 - e) &&& gg)
      let t1 := hh + s1 + ch + kw.1 + kw.2
      let s0 := rotr w a (g 9) ^^^ rotr w a (g 10) ^^^ rotr w a (g 11)
      let mj := (a &&& b) ^^^ (a &&& cc) ^^^ (b &&& cc)
      [(t1 + s0 + mj) % md, a, b, cc, (d + t1) % md, e, f, gg]
    | _ => v) h
  h.zipWith (fun a b => (a + b) % md) out

/-- SHA-2 over bytes, words of wb bytes. -/
def shaRun (wb : Nat) (ks c h0 : List Nat) (msg : List Byte) : List Nat :=
  let bl := 16 * wb
  let len := msg.length
  let zeros := (2 * bl - (len + 1 + 2 * wb) % bl) % bl
  let m := msg ++ [0x80] ++ List.replicate zeros 0 ++ beBytes (2 * wb) (len * 8)
  (chunks (m.length / bl) bl m).foldl (fun h b => shaBlock (8 * wb) ks c h ((chunks 16 wb b).map beNat)) h0

def sha256 (msg : List Byte) : List Byte :=
  (shaRun 4 sha256K [7, 18, 3, 17, 19, 10, 6, 11, 25, 2, 13, 22] sha256H msg).flatMap (beBytes 4)

def sha384 (msg : List Byte) : List Byte :=
  ((shaRun 8 sha512K [1, 8, 7, 19, 61, 6, 14, 18, 41, 28, 34, 39] sha384H msg).take 6).flatMap (beBytes 8)

/-! ### P-384 -/

def p384P : Nat := 2 ^ 384 - 2 ^ 128 - 2 ^ 96 + 2 ^ 32 - 1
def p384N : Nat := 0xffffffffffffffffffffffffffffffffffffffffffffffffc7634d81f4372ddf581a0db248b0a77aecec196accc52973
def p384B : Nat := 0xb3312fa7e23ee7e4988e056be3f82d19181d9c6efe8141120314088f5013875ac656398d8a2ed19d2a85c8edd3ec2aef
def p384Gx : Nat := 0xaa87ca22be8b05378eb1c71ef320ad746e1d3b628ba79b9859f741e082542a385502f25dbf55296c3a545e3872760ab7
def p384Gy : Nat := 0x3617de4a96262c6f5d9e98bf9292dc29f8f41dbd289a147ce9da3113b5f0b8c00a60b1ce1d7e819d7a431d7c90ea0e5f

/-- Powers modulo the prime, by the bits of the exponent, lowest first. -/
def p384Pow : Nat → Nat → Nat → Nat
  | 0, _, _ => 1
  | n + 1, a, e => (if e % 2 = 1 then a else 1) * p384Pow n (a * a % p384P) (e / 2) % p384P

/-- The inverse modulo the prime. -/
def p384Inv (a : Nat) : Nat := p384Pow 384 (a % p384P) (p384P - 2)

/-- Differences modulo the prime. -/
def p384Sub (a b : Nat) : Nat := (a + p384P - b % p384P) % p384P

/-- The sum of two points; none is the point at infinity. -/
def p384Add (a b : Option (Nat × Nat)) : Option (Nat × Nat) :=
  match a, b with
  | none, _ => b
  | _, none => a
  | some (x1, y1), some (x2, y2) =>
    if x1 = x2 && (y1 + y2) % p384P = 0 then none
    else
      let l := if x1 = x2 then (3 * x1 * x1 + p384P - 3) % p384P * p384Inv (2 * y1) % p384P
               else p384Sub y2 y1 * p384Inv (p384Sub x2 x1) % p384P
      let x3 := p384Sub (l * l) (x1 + x2)
      some (x3, p384Sub (l * p384Sub x1 x3) y1)

/-- A multiple of a point. -/
def p384Mul : Nat → Nat → Option (Nat × Nat) → Option (Nat × Nat)
  | 0, _, _ => none
  | n + 1, k, p =>
    let r := p384Mul n (k / 2) (p384Add p p)
    if k % 2 = 1 then p384Add p r else r

/-- A point from its 97-byte uncompressed form, after full public-key validation (SP 800-56A). -/
def p384Point (b : List Byte) : Option (Nat × Nat) :=
  let x := beNat ((b.drop 1).take 48)
  let y := beNat ((b.drop 49).take 48)
  if b.length = 97 && b.headD 0 = 0x04 && x < p384P && y < p384P &&
     y * y % p384P == (x * x * x + (p384P - 3) * x + p384B) % p384P &&
     p384Mul 384 p384N (some (x, y)) == none
  then some (x, y) else none

/-- The uncompressed form of a point. -/
def p384Bytes (x y : Nat) : List Byte := 0x04 :: (beBytes 48 x ++ beBytes 48 y)

/-- The key-encryption key of R181 from the node's private key, the peer's point and FixedInfo. -/
def kekOf (priv : Nat) (qe : Nat × Nat) (info : List Byte) : List Byte :=
  let z := match p384Mul 384 priv (some qe) with
    | some (x, _) => x
    | none => 0
  (sha384 ([0, 0, 0, 1] ++ beBytes 48 z ++ info)).take 32

/-- The bytes of ASCII text given by codes. -/
def ascii (s : String) : List Byte := s.toList.map (fun c => BitVec.ofNat 8 c.toNat)

end Sys2Proof.Machine
end

