-- ==== Sys2Proof/Machine/LineCode.lean ====
section
/-! DEFINITION. The two codes over GF(2^8) with polynomial x^8 + x^4 + x^3 + x^2 + 1: the FEC of the wire flit (R62) and
the line code of DRAM (R261 to R264); and CRC-32C (Table 3-1). -/
namespace Sys2Proof.Machine

/-! ### The field -/

/-- Multiplication by x. -/
def gfX (a : Nat) : Nat := if a < 128 then 2 * a else (2 * a) ^^^ 0x11D

/-- Multiplication, by the bits of the second factor from the top. -/
def gfMulAux : Nat → Nat → Nat → Nat
  | 0, _, _ => 0
  | n + 1, a, b => gfX (gfMulAux n a (b / 2)) ^^^ (if b % 2 = 1 then a else 0)

/-- Multiplication. -/
def gfMul (a b : Nat) : Nat := gfMulAux 8 a b

/-- Powers. -/
def gfPow (a : Nat) : Nat → Nat
  | 0 => 1
  | n + 1 => gfMul a (gfPow a n)

/-- The inverse, a^254; 0 for 0. -/
def gfInv (a : Nat) : Nat :=
  let a2 := gfMul a a
  let a4 := gfMul a2 a2
  let a8 := gfMul a4 a4
  let a16 := gfMul a8 a8
  let a32 := gfMul a16 a16
  let a64 := gfMul a32 a32
  let a128 := gfMul a64 a64
  gfMul a2 (gfMul a4 (gfMul a8 (gfMul a16 (gfMul a32 (gfMul a64 a128)))))

/-- α^0, α^1, … -/
def gfPowers : Nat → Nat → List Nat
  | 0, _ => []
  | n + 1, x => x :: gfPowers n (gfX x)

/-- A polynomial, lowest coefficient first, at a point. -/
def gfEval (p : List Nat) (x : Nat) : Nat := p.foldr (fun c a => c ^^^ gfMul a x) 0

/-- The sum of the products of two lists. -/
def gfDot (a b : List Nat) : Nat := (a.zip b).foldl (fun s p => s ^^^ gfMul p.1 p.2) 0

/-! ### CRC-32C -/

/-- One byte taken into the reflected CRC register of polynomial 0x1EDC6F41. -/
def crcByte (c : Nat) (b : Nat) : Nat :=
  (List.range 8).foldl (fun r _ => if r % 2 = 1 then r / 2 ^^^ 0x82F63B78 else r / 2) (c ^^^ b)

/-- CRC-32C, in the reflected form that the name stands for (assumption 10). -/
def crc32c (l : List Byte) : Nat := (l.foldl (fun c b => crcByte c b.toNat) 0xFFFFFFFF) ^^^ 0xFFFFFFFF

/-! ### FEC: RS(136,132) with generator roots α^0 to α^3 (R62) -/

/-- The generator's coefficients below x^4, highest first. -/
def fecGen : List Nat :=
  let p := (gfPowers 4 1).foldl (fun p r => (p ++ [0]).zipWith (· ^^^ ·) (0 :: p.map (gfMul r))) [1]
  p.drop 1

/-- The four parity bytes of 132 data bytes, the first byte being the highest coefficient (assumption 11). -/
def fecParity (d : List Nat) : List Nat :=
  d.foldl (fun r b =>
    let q := b ^^^ r.headD 0
    ((r.drop 1) ++ [0]).zipWith (fun x g => x ^^^ gfMul q g) fecGen) [0, 0, 0, 0]

/-- A codeword of 136 bytes decoded: the corrected codeword and the number of corrected bytes, or none. -/
def fecDecode (w : List Nat) : Option (List Nat × Nat) :=
  let syn := (gfPowers 4 1).map (fun r => w.foldl (fun a b => gfMul a r ^^^ b) 0)
  match syn with
  | [s0, s1, s2, s3] =>
    if s0 = 0 && s1 = 0 && s2 = 0 && s3 = 0 then some (w, 0)
    else
      let pos := (gfPowers 136 1).reverse      -- the locator of byte i
      let det := gfMul s1 s1 ^^^ gfMul s0 s2
      if det = 0 then
        -- one error, or none that can be corrected
        let x := gfMul s1 (gfInv s0)
        if s0 != 0 && x != 0 && gfMul s1 x == s2 && gfMul s2 x == s3 && pos.contains x then
          some (w.zipWith (fun b p => if p = x then b ^^^ s0 else b) pos, 1)
        else none
      else
        let l1 := gfMul (gfMul s0 s3 ^^^ gfMul s1 s2) (gfInv det)
        let l2 := gfMul (gfMul s1 s3 ^^^ gfMul s2 s2) (gfInv det)
        -- roots of X^2 + l1 X + l2 among the positions
        match pos.filter (fun x => gfMul x x ^^^ gfMul l1 x ^^^ l2 == 0) with
        | [x, y] =>
          let ey := gfMul (gfMul s0 x ^^^ s1) (gfInv (x ^^^ y))
          let ex := s0 ^^^ ey
          some (w.zipWith (fun b p => if p = x then b ^^^ ex else if p = y then b ^^^ ey else b) pos, 2)
        | _ => none
  | _ => none

/-- The even-numbered and the odd-numbered members of a list. -/
def deal : List Nat → List Nat × List Nat
  | [] => ([], [])
  | a :: t => let r := deal t; (a :: r.2, r.1)

/-- The 272 wire bytes of the first 260 bytes of a flit: CRC, then FEC_A and FEC_B (Table 3-1). -/
def flitSeal (b : List Byte) : List Byte :=
  let body := b.map (·.toNat) ++ (leBytes 4 (crc32c b)).map (·.toNat)
  let (e, o) := deal body
  (body ++ fecParity e ++ fecParity o).map (BitVec.ofNat 8)

/-- The receiver's decoding of 272 wire bytes (R62): the 260 bytes and the corrected count; or whether FEC failed. -/
inductive FlitCheck where
  | good (body : List Byte) (corrected : Nat)
  | badFec
  | badCrc (corrected : Nat)
deriving DecidableEq, Repr

/-- The receiver's FEC decoding and CRC check. -/
def flitOpen (w : List Byte) : FlitCheck :=
  let n := w.map (·.toNat)
  let (e, o) := deal (n.take 264)
  match fecDecode (e ++ (n.drop 264).take 4), fecDecode (o ++ (n.drop 268).take 4) with
  | some (a, ca), some (b, cb) =>
    let body := ((a.take 132).zip (b.take 132)).flatMap (fun p => [BitVec.ofNat 8 p.1, BitVec.ofNat 8 p.2])
    if crc32c (body.take 260) = leNat ((body.drop 260).take 4) then .good (body.take 260) (ca + cb) else .badCrc (ca + cb)
  | _, _ => .badFec

/-! ### The line code (R262): evaluations of a polynomial of degree below 66 at α^0 to α^79 -/

/-- The points α^0 to α^79. -/
def lcPoints : List Nat := gfPowers 80 1

/-- The products of (x + p) over points p other than x. -/
def lcProd (pts : List Nat) (x : Nat) : Nat := pts.foldl (fun a p => if p = x then a else gfMul a (x ^^^ p)) 1

/-- The weights of Lagrange interpolation through the first 66 points. -/
def lcWeights : List Nat := (lcPoints.take 66).map (fun x => gfInv (lcProd (lcPoints.take 66) x))

/-- The multipliers of the parity checks over all 80 points. -/
def lcDual : List Nat := lcPoints.map (fun x => gfInv (lcProd lcPoints x))

/-- The fourteen check symbols of the 66 symbols of data and metadata. -/
def lcChecks (m : List Nat) : List Nat :=
  let pts := lcPoints.take 66
  (lcPoints.drop 66).map (fun x =>
    gfMul (lcProd pts x)
      (gfDot (lcWeights.zipWith gfMul m) (pts.map (fun p => gfInv (x ^^^ p)))))

/-- A stored line: 64 data bytes, M0, M1 and the check symbols. -/
def lcEncode (data : List Byte) (m0 m1 : Nat) : List Byte :=
  let m := (data.map (·.toNat)) ++ [m0, m1]
  (m ++ lcChecks m).map (BitVec.ofNat 8)

/-- The fourteen syndromes of 80 symbols. -/
def lcSyn (r : List Nat) : List Nat :=
  let v := lcDual.zipWith gfMul r
  (List.range 14).map (fun j => gfDot v (lcPoints.map (fun x => gfPow x j)))

/-- The shortest recurrence of the syndromes (Berlekamp and Massey): the locator, lowest coefficient first, and its
length. -/
def lcLocator (syn : List Nat) : List Nat × Nat :=
  let step := fun (st : List Nat × List Nat × Nat × Nat × Nat) (n : Nat) =>
    let (c, b, len, m, bb) := st
    let d := (List.range (len + 1)).foldl (fun a i => a ^^^ gfMul ((c)[i]?.getD 0) (if i ≤ n then syn[n - i]?.getD 0 else 0)) 0
    if d = 0 then (c, b, len, m + 1, bb)
    else
      let k := gfMul d (gfInv bb)
      let sh := List.replicate m 0 ++ b.map (gfMul k)
      let w := max c.length sh.length
      let c' := (List.range w).map (fun i => ((c)[i]?.getD 0) ^^^ (sh[i]?.getD 0))
      if 2 * len ≤ n then (c', c, n + 1 - len, 1, d) else (c', b, len, m + 1, bb)
  let (c, _, len, _, _) := (List.range syn.length).foldl step ([1], [1], 0, 1, 1)
  (c, len)

/-- The solution of a square system over the field, by elimination on rows with their right sides last. -/
def gfSolve : Nat → List (List Nat) → Option (List Nat)
  | 0, _ => some []
  | n + 1, rows =>
    match rows.find? (fun r => r.headD 0 != 0) with
    | none => none
    | some p =>
      let piv := p.map (gfMul (gfInv (p.headD 0)))
      let rest := (dropFirst (fun r => r == p) rows).map (fun r =>
        ((r.zipWith (fun a b => a ^^^ gfMul (r.headD 0) b) piv)).drop 1)
      match gfSolve n rest with
      | none => none
      | some xs =>
        let tail := piv.drop 1
        some ((gfDot tail xs ^^^ (tail[n]?.getD 0)) :: xs)

/-- What the decoder makes of a word of 80 symbols (R263). -/
inductive LcResult where
  | ok (word : List Byte) (fixed : List Nat)
  | bad
deriving DecidableEq, Repr

/-- Decoding: every pattern of up to 6 wrong symbols is corrected, every other pattern reported. -/
def lcDecode (w : List Byte) : LcResult :=
  let r := w.map (·.toNat)
  let syn := lcSyn r
  if syn.all (· == 0) then .ok w []
  else
    let (c, len) := lcLocator syn
    let errs := (List.range 80).filter (fun i => gfEval c (gfInv (lcPoints[i]?.getD 0)) == 0)
    if len > 6 || errs.length != len then .bad
    else
      let xs := errs.map (fun i => lcPoints[i]?.getD 0)
      match gfSolve len ((List.range len).map (fun j => xs.map (fun x => gfPow x j) ++ [syn[j]?.getD 0])) with
      | none => .bad
      | some ys =>
        let fix := (errs.zip ys).map (fun p => (p.1, gfMul p.2 (gfInv (lcDual[p.1]?.getD 1))))
        let w' := fix.foldl (fun l p => setNth l p.1 ((l[p.1]?.getD 0) ^^^ p.2)) r
        if lcSyn w' |>.all (· == 0) then .ok (w'.map (BitVec.ofNat 8)) errs else .bad

/-! ### Metadata (R264) -/

/-- What M0 and M1 say of a line: clean, poisoned, or a metadata error. `compute` says whether the line lies in a
Compute region, where a complemented sense is valid. -/
inductive MetaMark where
  | clean | poison | error
deriving DecidableEq, Repr

/-- Reading of the metadata symbols. -/
def metaMark (m0 m1 : Nat) (compute : Bool) : MetaMark :=
  if m1 = 0x00 then (if m0 = 0x00 then .clean else if m0 = 0x0F then .poison else .error)
  else if m1 = 0xFF && compute then (if m0 = 0xFF then .clean else if m0 = 0xF0 then .poison else .error)
  else .error

/-- M0 as the node writes it. -/
def m0Of (poison : Bool) : Nat := if poison then 0x0F else 0x00

end Sys2Proof.Machine
end

