-- ==== Sys2Proof/Config.lean ====
section
/-! DEFINITION. What one implementation of the node fixes and the manual leaves open, and the free values. A constant
without a body is free: no proof can see what it is. -/
namespace Sys2Proof.Config

/-- The n-th free value: what the manual leaves undefined or draws from the node's random source (assumption 3). -/
opaque freeValue (n : Nat) : BitVec 512

/-- The deviation of the fc or mc clock from the reference, in ppm, that its monitor measures at an AO time (Table 18-9; assumption
107). -/
opaque pllDeviation (mc : Bool) (ao : Nat) : BitVec 16

/-- The set of the translation cache that an entry of a tenant, page size and page falls in; the manual gives 4,096
sets of 16 ways and not the index function (assumption 21). -/
opaque tcSet (tid size page : Nat) : Nat

/-- The ECDSA P-384 signature, r ‖ s, that a key makes over a digest with the n-th random nonce (assumption 30). -/
opaque ecdsaSign (key digest : BitVec 384) (n : Nat) : BitVec 768

/-- The node identity certificate, a byte string issued at manufacture (assumption 61). -/
opaque idCert : List Byte

/-- The part number and the manufacturing date in the tray's FRU memory (R460; assumption 61). -/
opaque fruPart : List Byte
opaque fruDate : List Byte

/-- The seed of the ZM-3's signing key, fixed for the module's life (R416; assumption 43). -/
opaque zm3Seed : BitVec 256

/-- The ZM-3's serial (bits 63 to 0), certificate number (95 to 64) and calibration date (127 to 96), as its IDENT carries them (Table
16-5; assumption 43). -/
opaque zm3Ident : BitVec 128

/-- The build and, from bit 16, the checksum that a ZM-3 firmware image reports (R384, Table 16-5; assumption 126). -/
opaque zm3Image (fw : Nat) : BitVec 80

end Sys2Proof.Config
end

