-- ==== Sys2Proof/Machine/Reg.lean ====
section
/-! DEFINITION. The register fields of every block page and table window, as the register tables of the manual list
them: offset, lowest bit, width, access code and reset value. Field descriptors carry no behaviour: `Machine.Ops` reads
and writes them and `Machine.Mmio` gives each access its effect. -/
namespace Sys2Proof.Machine

/-- The access codes of Table 0-7; `rweL` is RWE+RWL (R15). -/
inductive Acc where
  | ro | rw | w1c | w1s | wo | rc | rws | rwe | rwl | rweL
deriving DecidableEq, Repr

/-- A register field: its (first) page, offset in the page or window, lowest bit, width, access code, reset value, and
how many equal fields follow each other at which stride. A field wider than 32 bits is a pair (R13). -/
structure Field where
  page   : Nat
  off    : Nat
  lo     : Nat
  width  : Nat
  acc    : Acc
  rst    : Nat
  n      : Nat
  stride : Nat
deriving DecidableEq, Repr

end Sys2Proof.Machine

namespace Sys2Proof.Machine.Reg

/-! Table 2-3, the common page header: page 0 stands for every block page, which the instance number selects. -/
def H_CLASS : Field := ⟨0x0, 0x0, 24, 8, .ro, 0, 1, 0x4⟩
def H_INSTANCE : Field := ⟨0x0, 0x0, 16, 8, .ro, 0, 1, 0x4⟩
def H_MAJOR : Field := ⟨0x0, 0x0, 8, 8, .ro, 1, 1, 0x4⟩
def H_MINOR : Field := ⟨0x0, 0x0, 0, 8, .ro, 0, 1, 0x4⟩
def H_CAP_EPOCH : Field := ⟨0x0, 0x4, 31, 1, .ro, 0, 1, 0x4⟩
def H_CAP_WMK : Field := ⟨0x0, 0x4, 30, 1, .ro, 0, 1, 0x4⟩
def H_WMK_COUNT : Field := ⟨0x0, 0x4, 24, 6, .ro, 0, 1, 0x4⟩
def H_BLOCK_CAPS : Field := ⟨0x0, 0x4, 0, 24, .ro, 0, 1, 0x4⟩
def H_COND : Field := ⟨0x0, 0x8, 0, 2, .ro, 0, 1, 0x4⟩
def H_PWR_NOW : Field := ⟨0x0, 0xC, 0, 2, .ro, 0, 1, 0x4⟩
def H_PWR_DEEPEST : Field := ⟨0x0, 0xC, 4, 2, .rwe, 0, 1, 0x4⟩
def H_PWR_POLICY : Field := ⟨0x0, 0xC, 8, 5, .rwe, 0, 1, 0x4⟩
def H_INT_STAT : Field := ⟨0x0, 0x10, 0, 32, .w1c, 0, 1, 0x4⟩
def H_INT_EN : Field := ⟨0x0, 0x14, 0, 32, .rw, 0, 1, 0x4⟩
def H_INT_FORCE : Field := ⟨0x0, 0x18, 0, 32, .wo, 0, 1, 0x4⟩
def H_CROSSED : Field := ⟨0x0, 0x1C, 0, 16, .ro, 0, 1, 0x4⟩
def H_EPOCH_OPEN : Field := ⟨0x0, 0x20, 0, 8, .ro, 0, 1, 0x4⟩
def H_EPOCH_DRAINING : Field := ⟨0x0, 0x20, 8, 8, .ro, 0, 1, 0x4⟩
def H_DRAIN_PEND : Field := ⟨0x0, 0x20, 16, 1, .ro, 0, 1, 0x4⟩
def H_STAGED : Field := ⟨0x0, 0x20, 17, 1, .ro, 0, 1, 0x4⟩
def H_CFG_ERR : Field := ⟨0x0, 0x28, 0, 1, .w1c, 0, 1, 0x4⟩
def H_LOCK_VIOL : Field := ⟨0x0, 0x28, 1, 1, .w1c, 0, 1, 0x4⟩
def H_POLICY_OVR : Field := ⟨0x0, 0x28, 2, 1, .w1c, 0, 1, 0x4⟩
def H_INTERNAL : Field := ⟨0x0, 0x28, 3, 1, .w1c, 0, 1, 0x4⟩
def H_FIRST_WPAGE : Field := ⟨0x0, 0x28, 4, 12, .ro, 0, 1, 0x4⟩
def H_FIRST_OFFSET : Field := ⟨0x0, 0x28, 16, 12, .ro, 0, 1, 0x4⟩
def H_LOCK : Field := ⟨0x0, 0x2C, 0, 1, .w1s, 0, 1, 0x4⟩

/-! Table 2-4, the watermark groups. -/
def WMK_THRESH : Field := ⟨0x0, 0xF00, 0, 31, .rwe, 0, 16, 0x10⟩
def WMK_LOW : Field := ⟨0x0, 0xF00, 31, 1, .ro, 0, 16, 0x10⟩
def WMK_CROSSED : Field := ⟨0x0, 0xF04, 0, 1, .rc, 0, 16, 0x10⟩
def WMK_COUNT_ : Field := ⟨0x0, 0xF04, 16, 16, .rc, 0, 16, 0x10⟩
def WMK_EXTREME : Field := ⟨0x0, 0xF08, 0, 32, .rc, 0, 16, 0x10⟩
def WMK_NOW : Field := ⟨0x0, 0xF0C, 0, 32, .ro, 0, 16, 0x10⟩

def headerFields : List Field :=
  [H_CLASS, H_INSTANCE, H_MAJOR, H_MINOR, H_CAP_EPOCH, H_CAP_WMK, H_WMK_COUNT, H_BLOCK_CAPS, H_COND, H_PWR_NOW, H_PWR_DEEPEST, H_PWR_POLICY, H_INT_STAT, H_INT_EN, H_INT_FORCE, H_CROSSED, H_EPOCH_OPEN, H_EPOCH_DRAINING, H_DRAIN_PEND, H_STAGED, H_CFG_ERR, H_LOCK_VIOL, H_POLICY_OVR, H_INTERNAL, H_FIRST_WPAGE, H_FIRST_OFFSET, H_LOCK]
def wmkFields : List Field :=
  [WMK_THRESH, WMK_LOW, WMK_CROSSED, WMK_COUNT_, WMK_EXTREME, WMK_NOW]

/-! Table 2-7, BDIR. -/
def BDIR_C : Field := ⟨0x0, 0x100, 0, 1, .ro, 0, 1, 0x4⟩
def BDIR_K : Field := ⟨0x0, 0x100, 1, 1, .ro, 0, 1, 0x4⟩
def BDIR_W : Field := ⟨0x0, 0x100, 2, 1, .ro, 0, 1, 0x4⟩
def BDIR_MAP_VERSION : Field := ⟨0x0, 0x104, 0, 8, .ro, 1, 1, 0x4⟩
def BDIR_PRESENT : Field := ⟨0x0, 0x110, 0, 32, .ro, 0, 5, 0x4⟩
def BDIR_INT_PEND : Field := ⟨0x0, 0x130, 0, 32, .ro, 0, 5, 0x4⟩
def BDIR_TO_WARDEN : Field := ⟨0x0, 0x150, 0, 1, .rw, 1, 1, 0x4⟩
def BDIR_TO_AGENT : Field := ⟨0x0, 0x150, 1, 1, .rw, 0, 1, 0x4⟩
def BDIR_AGENT : Field := ⟨0x0, 0x150, 16, 12, .rw, 0, 1, 0x4⟩
def bdirFields : List Field :=
  [BDIR_C, BDIR_K, BDIR_W, BDIR_MAP_VERSION, BDIR_PRESENT, BDIR_INT_PEND, BDIR_TO_WARDEN, BDIR_TO_AGENT, BDIR_AGENT]

/-! Table 2-8, IDENT. -/
def IDENT_PART : Field := ⟨0x1, 0x100, 16, 16, .ro, 0x4800, 1, 0x4⟩
def IDENT_STEP_MAJOR : Field := ⟨0x1, 0x100, 8, 8, .ro, 0, 1, 0x4⟩
def IDENT_STEP_MINOR : Field := ⟨0x1, 0x100, 0, 8, .ro, 0, 1, 0x4⟩
def IDENT_NODE_SERIAL : Field := ⟨0x1, 0x108, 0, 64, .ro, 0, 1, 0x4⟩
def IDENT_TRAY_SERIAL : Field := ⟨0x1, 0x110, 0, 64, .ro, 0, 1, 0x4⟩
def IDENT_NID : Field := ⟨0x1, 0x118, 0, 9, .rwl, 0, 1, 0x4⟩
def IDENT_WARDEN_VER : Field := ⟨0x1, 0x11C, 0, 16, .ro, 0, 1, 0x4⟩
def identFields : List Field :=
  [IDENT_PART, IDENT_STEP_MAJOR, IDENT_STEP_MINOR, IDENT_NODE_SERIAL, IDENT_TRAY_SERIAL, IDENT_NID, IDENT_WARDEN_VER]

/-! Table 2-9, EPOCH. -/
def EPOCH_OPEN : Field := ⟨0x2, 0x100, 0, 8, .ro, 0, 1, 0x4⟩
def EPOCH_DRAINING : Field := ⟨0x2, 0x100, 8, 8, .ro, 0, 1, 0x4⟩
def EPOCH_PENDING : Field := ⟨0x2, 0x100, 16, 1, .ro, 0, 1, 0x4⟩
def EPOCH_COMMIT : Field := ⟨0x2, 0x104, 0, 1, .wo, 0, 1, 0x4⟩
def EPOCH_DISCARD : Field := ⟨0x2, 0x104, 1, 1, .wo, 0, 1, 0x4⟩
def EPOCH_RESULT : Field := ⟨0x2, 0x108, 0, 2, .ro, 0, 1, 0x4⟩
def EPOCH_COMMIT_COUNT : Field := ⟨0x2, 0x10C, 0, 32, .ro, 0, 1, 0x4⟩
def EPOCH_DRAIN_LIMIT : Field := ⟨0x2, 0x110, 0, 32, .rw, 0x2625a, 1, 0x4⟩
def EPOCH_DRAIN_ELAPSED : Field := ⟨0x2, 0x114, 0, 32, .ro, 0, 1, 0x4⟩
def EPOCH_DRAIN_PEND : Field := ⟨0x2, 0x120, 0, 32, .ro, 0, 5, 0x4⟩
def EPOCH_STAGED : Field := ⟨0x2, 0x140, 0, 32, .ro, 0, 5, 0x4⟩
def epochFields : List Field :=
  [EPOCH_OPEN, EPOCH_DRAINING, EPOCH_PENDING, EPOCH_COMMIT, EPOCH_DISCARD, EPOCH_RESULT, EPOCH_COMMIT_COUNT,
   EPOCH_DRAIN_LIMIT, EPOCH_DRAIN_ELAPSED, EPOCH_DRAIN_PEND, EPOCH_STAGED]

/-! Table 3-9, FPORT. -/
def FPORT_MODE : Field := ⟨0x10, 0x100, 0, 2, .rw, 0, 1, 0x4⟩
def FPORT_ENABLE : Field := ⟨0x10, 0x100, 2, 1, .rw, 0, 1, 0x4⟩
def FPORT_RETRAIN : Field := ⟨0x10, 0x100, 3, 1, .w1s, 0, 1, 0x4⟩
def FPORT_FALLBACK_EN : Field := ⟨0x10, 0x100, 4, 1, .rw, 1, 1, 0x4⟩
def FPORT_CMIS_OPTIONAL : Field := ⟨0x10, 0x100, 5, 1, .rw, 0, 1, 0x4⟩
def FPORT_STATE : Field := ⟨0x10, 0x104, 0, 4, .ro, 0, 1, 0x4⟩
def FPORT_WIDTH : Field := ⟨0x10, 0x104, 4, 2, .ro, 0, 1, 0x4⟩
def FPORT_DOWN_REASON : Field := ⟨0x10, 0x104, 8, 4, .ro, 0, 1, 0x4⟩
def FPORT_PEER_ROLE : Field := ⟨0x10, 0x104, 12, 2, .ro, 0, 1, 0x4⟩
def FPORT_PEER_NID_SEEN : Field := ⟨0x10, 0x104, 16, 9, .ro, 0, 1, 0x4⟩
def FPORT_PEER_DOWN_REASON : Field := ⟨0x10, 0x104, 28, 4, .ro, 0, 1, 0x4⟩
def FPORT_AID_FIRST : Field := ⟨0x10, 0x108, 0, 12, .rweL, 0, 1, 0x4⟩
def FPORT_AID_LAST : Field := ⟨0x10, 0x108, 16, 12, .rweL, 0, 1, 0x4⟩
def FPORT_PEER_NID : Field := ⟨0x10, 0x10C, 0, 9, .rweL, 0, 1, 0x4⟩
def FPORT_MMIO_ACCESS : Field := ⟨0x10, 0x110, 0, 2, .rweL, 0, 1, 0x4⟩
def FPORT_ENC_REQUIRE : Field := ⟨0x10, 0x114, 0, 1, .rwl, 0, 1, 0x4⟩
def FPORT_ENC_ACTIVE : Field := ⟨0x10, 0x114, 1, 1, .ro, 0, 1, 0x4⟩
def FPORT_KSEL_TX : Field := ⟨0x10, 0x114, 2, 1, .ro, 0, 1, 0x4⟩
def FPORT_KSEL_RX : Field := ⟨0x10, 0x114, 3, 1, .ro, 0, 1, 0x4⟩
def FPORT_KEY_SWITCH : Field := ⟨0x10, 0x114, 4, 1, .w1s, 0, 1, 0x4⟩
def FPORT_KEYS_LOADED : Field := ⟨0x10, 0x114, 6, 2, .ro, 0, 1, 0x4⟩
def FPORT_LINK_TIMEOUT : Field := ⟨0x10, 0x118, 0, 32, .rw, 0x3d09, 1, 0x4⟩
def FPORT_CXL_TID : Field := ⟨0x10, 0x11C, 0, 8, .rweL, 0, 1, 0x4⟩
def FPORT_CXL_DIRECT : Field := ⟨0x10, 0x11C, 8, 1, .rweL, 0, 1, 0x4⟩
def FPORT_CXL_AID : Field := ⟨0x10, 0x11C, 16, 12, .rwl, 0, 1, 0x4⟩
def FPORT_CXL_PGA_BASE : Field := ⟨0x10, 0x120, 0, 64, .rweL, 0, 1, 0x4⟩
def FPORT_CXL_JOB : Field := ⟨0x10, 0x128, 0, 20, .rwe, 0, 1, 0x4⟩
def FPORT_CXL_INCARN : Field := ⟨0x10, 0x12C, 0, 16, .rw, 0, 1, 0x4⟩
def FPORT_FEC_CORR : Field := ⟨0x10, 0x140, 0, 32, .rc, 0, 1, 0x4⟩
def FPORT_FEC_UNCORR : Field := ⟨0x10, 0x144, 0, 32, .rc, 0, 1, 0x4⟩
def FPORT_CRC_ERR : Field := ⟨0x10, 0x148, 0, 32, .rc, 0, 1, 0x4⟩
def FPORT_REPLAY : Field := ⟨0x10, 0x14C, 0, 32, .rc, 0, 1, 0x4⟩
def FPORT_RECOVERY : Field := ⟨0x10, 0x150, 0, 32, .rc, 0, 1, 0x4⟩
def FPORT_DOWNS : Field := ⟨0x10, 0x154, 0, 32, .rc, 0, 1, 0x4⟩
def FPORT_AUTH_FAIL : Field := ⟨0x10, 0x158, 0, 32, .rc, 0, 1, 0x4⟩
def FPORT_AID_DROP : Field := ⟨0x10, 0x15C, 0, 32, .rc, 0, 1, 0x4⟩
def FPORT_RSP_DROP : Field := ⟨0x10, 0x160, 0, 32, .rc, 0, 1, 0x4⟩
def FPORT_UNSUP : Field := ⟨0x10, 0x164, 0, 32, .rc, 0, 1, 0x4⟩
def FPORT_MMIO_DENY : Field := ⟨0x10, 0x168, 0, 32, .rc, 0, 1, 0x4⟩
def FPORT_CMIS_ID : Field := ⟨0x10, 0x180, 0, 8, .ro, 0, 1, 0x4⟩
def FPORT_CMIS_REV : Field := ⟨0x10, 0x180, 8, 8, .ro, 0, 1, 0x4⟩
def FPORT_CMIS_STATE : Field := ⟨0x10, 0x180, 16, 8, .ro, 0, 1, 0x4⟩
def FPORT_CMIS_VALID : Field := ⟨0x10, 0x180, 24, 1, .ro, 0, 1, 0x4⟩
def FPORT_CMIS_MAXPWR : Field := ⟨0x10, 0x184, 0, 8, .ro, 0, 1, 0x4⟩
def FPORT_CMIS_LENGTH : Field := ⟨0x10, 0x184, 8, 8, .ro, 0, 1, 0x4⟩
def FPORT_CMIS_VENDOR : Field := ⟨0x10, 0x190, 0, 32, .ro, 0, 4, 0x4⟩
def FPORT_CMIS_PN : Field := ⟨0x10, 0x1A0, 0, 32, .ro, 0, 4, 0x4⟩
def FPORT_CMIS_SN : Field := ⟨0x10, 0x1B0, 0, 32, .ro, 0, 4, 0x4⟩
def fportFields : List Field :=
  [FPORT_MODE, FPORT_ENABLE, FPORT_RETRAIN, FPORT_FALLBACK_EN, FPORT_CMIS_OPTIONAL, FPORT_STATE, FPORT_WIDTH,
   FPORT_DOWN_REASON, FPORT_PEER_ROLE, FPORT_PEER_NID_SEEN, FPORT_PEER_DOWN_REASON, FPORT_AID_FIRST, FPORT_AID_LAST,
   FPORT_PEER_NID, FPORT_MMIO_ACCESS, FPORT_ENC_REQUIRE, FPORT_ENC_ACTIVE, FPORT_KSEL_TX, FPORT_KSEL_RX,
   FPORT_KEY_SWITCH, FPORT_KEYS_LOADED, FPORT_LINK_TIMEOUT, FPORT_CXL_TID, FPORT_CXL_DIRECT, FPORT_CXL_AID,
   FPORT_CXL_PGA_BASE, FPORT_CXL_JOB, FPORT_CXL_INCARN, FPORT_FEC_CORR, FPORT_FEC_UNCORR, FPORT_CRC_ERR, FPORT_REPLAY,
   FPORT_RECOVERY, FPORT_DOWNS, FPORT_AUTH_FAIL, FPORT_AID_DROP, FPORT_RSP_DROP, FPORT_UNSUP, FPORT_MMIO_DENY,
   FPORT_CMIS_ID, FPORT_CMIS_REV, FPORT_CMIS_STATE, FPORT_CMIS_VALID, FPORT_CMIS_MAXPWR, FPORT_CMIS_LENGTH,
   FPORT_CMIS_VENDOR, FPORT_CMIS_PN, FPORT_CMIS_SN]

/-! Table 5-6, HOME. -/
def HOME_RCL_MAX : Field := ⟨0x9, 0x100, 0, 16, .rwe, 0x200, 1, 0x4⟩
def HOME_SNP_SLOW_LIMIT : Field := ⟨0x9, 0x104, 0, 32, .rw, 0x61b, 1, 0x4⟩
def HOME_TRK_BUSY : Field := ⟨0x9, 0x108, 0, 15, .ro, 0, 1, 0x4⟩
def HOME_FENCES_BUSY : Field := ⟨0x9, 0x10C, 0, 9, .ro, 0, 1, 0x4⟩
def HOME_FORWARDS : Field := ⟨0x9, 0x140, 0, 32, .rc, 0, 1, 0x4⟩
def HOME_INV_SNOOPS : Field := ⟨0x9, 0x144, 0, 32, .rc, 0, 1, 0x4⟩
def HOME_RECALLS : Field := ⟨0x9, 0x148, 0, 32, .rc, 0, 1, 0x4⟩
def HOME_ABSORBED : Field := ⟨0x9, 0x14C, 0, 32, .rc, 0, 1, 0x4⟩
def HOME_PRESUMED : Field := ⟨0x9, 0x150, 0, 32, .rc, 0, 1, 0x4⟩
def HOME_STALE_WB : Field := ⟨0x9, 0x154, 0, 32, .rc, 0, 1, 0x4⟩
def HOME_STRAY_ACK : Field := ⟨0x9, 0x158, 0, 32, .rc, 0, 1, 0x4⟩
def HOME_CONFLICT_WAITS : Field := ⟨0x9, 0x15C, 0, 32, .rc, 0, 1, 0x4⟩
def homeFields : List Field :=
  [HOME_RCL_MAX, HOME_SNP_SLOW_LIMIT, HOME_TRK_BUSY, HOME_FENCES_BUSY, HOME_FORWARDS, HOME_INV_SNOOPS, HOME_RECALLS,
   HOME_ABSORBED, HOME_PRESUMED, HOME_STALE_WB, HOME_STRAY_ACK, HOME_CONFLICT_WAITS]

/-! Table 5-8, DIRC. -/
def DIRC_STORE_BASE : Field := ⟨0xA, 0x100, 0, 64, .ro, 0x2fe00000000, 1, 0x4⟩
def DIRC_PROBE_LA : Field := ⟨0xA, 0x110, 0, 37, .rw, 0, 1, 0x4⟩
def DIRC_PROBE_GO : Field := ⟨0xA, 0x118, 0, 1, .w1s, 0, 1, 0x4⟩
def DIRC_PROBE_DONE : Field := ⟨0xA, 0x118, 1, 1, .ro, 0, 1, 0x4⟩
def DIRC_PROBE_HIT : Field := ⟨0xA, 0x118, 2, 1, .ro, 0, 1, 0x4⟩
def DIRC_PROBE_ENTRY : Field := ⟨0xA, 0x120, 0, 32, .ro, 0, 8, 0x4⟩
def DIRC_CACHE_HIT : Field := ⟨0xA, 0x140, 0, 32, .rc, 0, 1, 0x4⟩
def DIRC_CACHE_MISS : Field := ⟨0xA, 0x144, 0, 32, .rc, 0, 1, 0x4⟩
def DIRC_VALID_ENTRIES : Field := ⟨0xA, 0x148, 0, 32, .ro, 0, 1, 0x4⟩
def DIRC_COARSE_ENTRIES : Field := ⟨0xA, 0x14C, 0, 32, .ro, 0, 1, 0x4⟩
def DIRC_SET_FULL : Field := ⟨0xA, 0x150, 0, 32, .rc, 0, 1, 0x4⟩
def DIRC_BROKEN_SETS : Field := ⟨0xA, 0x154, 0, 5, .ro, 0, 1, 0x4⟩
def dircFields : List Field :=
  [DIRC_STORE_BASE, DIRC_PROBE_LA, DIRC_PROBE_GO, DIRC_PROBE_DONE, DIRC_PROBE_HIT, DIRC_PROBE_ENTRY, DIRC_CACHE_HIT,
   DIRC_CACHE_MISS, DIRC_VALID_ENTRIES, DIRC_COARSE_ENTRIES, DIRC_SET_FULL, DIRC_BROKEN_SETS]

/-! Table 7-10, TEN. -/
def TEN_RECALL_REGION : Field := ⟨0xB, 0x100, 0, 12, .rw, 0, 1, 0x4⟩
def TEN_RECALL_GO : Field := ⟨0xB, 0x104, 0, 1, .w1s, 0, 1, 0x4⟩
def TEN_RECALL_BUSY : Field := ⟨0xB, 0x104, 1, 1, .ro, 0, 1, 0x4⟩
def TEN_REG_ERR_REGION : Field := ⟨0xB, 0x108, 0, 12, .ro, 0, 1, 0x4⟩
def TEN_REG_ERR_REASON : Field := ⟨0xB, 0x108, 16, 4, .ro, 0, 1, 0x4⟩
def TEN_NOMAP_CNT : Field := ⟨0xB, 0x140, 0, 32, .rc, 0, 1, 0x4⟩
def TEN_DENIED_CNT : Field := ⟨0xB, 0x144, 0, 32, .rc, 0, 1, 0x4⟩
def tenFields : List Field :=
  [TEN_RECALL_REGION, TEN_RECALL_GO, TEN_RECALL_BUSY, TEN_REG_ERR_REGION, TEN_REG_ERR_REASON, TEN_NOMAP_CNT,
   TEN_DENIED_CNT]

/-! Table 7-11, CRYPT. -/
def CRYPT_SLOT_SEL : Field := ⟨0xC, 0x100, 0, 8, .rw, 0, 1, 0x4⟩
def CRYPT_SLOT_STATE : Field := ⟨0xC, 0x104, 0, 2, .ro, 0, 1, 0x4⟩
def CRYPT_SLOT_TID : Field := ⟨0xC, 0x104, 8, 8, .ro, 0, 1, 0x4⟩
def CRYPT_SLOT_GEN : Field := ⟨0xC, 0x104, 16, 16, .ro, 0, 1, 0x4⟩
def CRYPT_ROT_RATE : Field := ⟨0xC, 0x110, 0, 9, .rwe, 0x40, 1, 0x4⟩
def CRYPT_ROT_SLOT : Field := ⟨0xC, 0x114, 0, 8, .ro, 0, 1, 0x4⟩
def CRYPT_ROT_ACTIVE : Field := ⟨0xC, 0x114, 8, 1, .ro, 0, 1, 0x4⟩
def CRYPT_ROT_REGION : Field := ⟨0xC, 0x118, 0, 12, .ro, 0, 1, 0x4⟩
def CRYPT_ROT_LA : Field := ⟨0xC, 0x120, 0, 64, .ro, 0, 1, 0x4⟩
def CRYPT_KEY_RESULT : Field := ⟨0xC, 0x130, 0, 4, .ro, 0, 1, 0x4⟩
def cryptFields : List Field :=
  [CRYPT_SLOT_SEL, CRYPT_SLOT_STATE, CRYPT_SLOT_TID, CRYPT_SLOT_GEN, CRYPT_ROT_RATE, CRYPT_ROT_SLOT, CRYPT_ROT_ACTIVE,
   CRYPT_ROT_REGION, CRYPT_ROT_LA, CRYPT_KEY_RESULT]

/-! Table 8-12, XLAT. -/
def XLAT_WINDOW : Field := ⟨0xD, 0x100, 0, 32, .rwe, 0x3d09, 1, 0x4⟩
def XLAT_HOT_64K : Field := ⟨0xD, 0x104, 0, 16, .rwe, 0x400, 1, 0x4⟩
def XLAT_HOT_2M : Field := ⟨0xD, 0x104, 16, 16, .rwe, 0x1000, 1, 0x4⟩
def XLAT_HOT_1G : Field := ⟨0xD, 0x108, 0, 16, .rwe, 0, 1, 0x4⟩
def XLAT_HPQ_HEAD : Field := ⟨0xD, 0x10C, 0, 10, .ro, 0, 1, 0x4⟩
def XLAT_HPQ_TAIL : Field := ⟨0xD, 0x110, 0, 10, .rw, 0, 1, 0x4⟩
def XLAT_TC_HIT : Field := ⟨0xD, 0x140, 0, 32, .rc, 0, 1, 0x4⟩
def XLAT_TC_MISS : Field := ⟨0xD, 0x144, 0, 32, .rc, 0, 1, 0x4⟩
def XLAT_WALK_READS : Field := ⟨0xD, 0x148, 0, 32, .rc, 0, 1, 0x4⟩
def XLAT_WALK_ERR : Field := ⟨0xD, 0x14C, 0, 32, .rc, 0, 1, 0x4⟩
def XLAT_HPQ_DROP : Field := ⟨0xD, 0x150, 0, 32, .rc, 0, 1, 0x4⟩
def XLAT_XINV_CNT : Field := ⟨0xD, 0x154, 0, 32, .rc, 0, 1, 0x4⟩
def XLAT_HELD : Field := ⟨0xD, 0x158, 0, 32, .ro, 0, 1, 0x4⟩
def xlatFields : List Field :=
  [XLAT_WINDOW, XLAT_HOT_64K, XLAT_HOT_2M, XLAT_HOT_1G, XLAT_HPQ_HEAD, XLAT_HPQ_TAIL, XLAT_TC_HIT, XLAT_TC_MISS,
   XLAT_WALK_READS, XLAT_WALK_ERR, XLAT_HPQ_DROP, XLAT_XINV_CNT, XLAT_HELD]

/-! Table 8-14, MIGR. -/
def MIGR_MOVE_SEL : Field := ⟨0xE, 0x100, 0, 4, .rw, 0, 1, 0x4⟩
def MIGR_KIND : Field := ⟨0xE, 0x104, 0, 2, .rw, 0, 1, 0x4⟩
def MIGR_TID : Field := ⟨0xE, 0x104, 8, 8, .rw, 0, 1, 0x4⟩
def MIGR_TPA : Field := ⟨0xE, 0x108, 0, 64, .rw, 0, 1, 0x4⟩
def MIGR_DEST_PGA : Field := ⟨0xE, 0x110, 0, 64, .rw, 0, 1, 0x4⟩
def MIGR_DEST_AID : Field := ⟨0xE, 0x118, 0, 12, .rw, 0, 1, 0x4⟩
def MIGR_CMD : Field := ⟨0xE, 0x11C, 0, 3, .wo, 0, 1, 0x4⟩
def MIGR_STATE : Field := ⟨0xE, 0x120, 0, 3, .ro, 0, 1, 0x4⟩
def MIGR_REASON : Field := ⟨0xE, 0x120, 8, 4, .ro, 0, 1, 0x4⟩
def MIGR_SIZE : Field := ⟨0xE, 0x120, 12, 2, .ro, 0, 1, 0x4⟩
def MIGR_PEER_NID : Field := ⟨0xE, 0x120, 16, 9, .ro, 0, 1, 0x4⟩
def MIGR_DONE_LINES : Field := ⟨0xE, 0x124, 0, 17, .ro, 0, 1, 0x4⟩
def MIGR_ISSUED_LINES : Field := ⟨0xE, 0x128, 0, 17, .ro, 0, 1, 0x4⟩
def MIGR_SRC_PGA : Field := ⟨0xE, 0x12C, 0, 64, .ro, 0, 1, 0x4⟩
def MIGR_MIGR_TIMEOUT : Field := ⟨0xE, 0x140, 0, 32, .rw, 0x3d09, 1, 0x4⟩
def MIGR_WINDOW : Field := ⟨0xE, 0x144, 0, 7, .rw, 0x40, 1, 0x4⟩
def MIGR_LINES_MOVED : Field := ⟨0xE, 0x150, 0, 32, .rc, 0, 1, 0x4⟩
def MIGR_BOUNCES : Field := ⟨0xE, 0x154, 0, 32, .rc, 0, 1, 0x4⟩
def MIGR_KEY_MISS : Field := ⟨0xE, 0x158, 0, 32, .rc, 0, 1, 0x4⟩
def migrFields : List Field :=
  [MIGR_MOVE_SEL, MIGR_KIND, MIGR_TID, MIGR_TPA, MIGR_DEST_PGA, MIGR_DEST_AID, MIGR_CMD, MIGR_STATE, MIGR_REASON,
   MIGR_SIZE, MIGR_PEER_NID, MIGR_DONE_LINES, MIGR_ISSUED_LINES, MIGR_SRC_PGA, MIGR_MIGR_TIMEOUT, MIGR_WINDOW,
   MIGR_LINES_MOVED, MIGR_BOUNCES, MIGR_KEY_MISS]

/-! Table 9-5, SHAPE. -/
def SHAPE_RT_PORT : Field := ⟨0xF, 0x100, 0, 4, .rwe, 0, 1, 0x4⟩
def SHAPE_RT_EN : Field := ⟨0xF, 0x100, 4, 1, .rwe, 0, 1, 0x4⟩
def SHAPE_PANIC_ON : Field := ⟨0xF, 0x104, 0, 12, .rwe, 0x40, 1, 0x4⟩
def SHAPE_PANIC_OFF : Field := ⟨0xF, 0x104, 16, 12, .rwe, 0x10, 1, 0x4⟩
def SHAPE_STEER_PORTS : Field := ⟨0xF, 0x108, 0, 16, .rwe, 0, 1, 0x4⟩
def SHAPE_AGENT_LIM_CEIL : Field := ⟨0xF, 0x10C, 0, 12, .rwe, 0x800, 1, 0x4⟩
def SHAPE_AGENT_LIM_FLOOR : Field := ⟨0xF, 0x10C, 16, 12, .rwe, 0x20, 1, 0x4⟩
def SHAPE_AGENT_LIM_NOW : Field := ⟨0xF, 0x110, 0, 12, .ro, 0x800, 1, 0x4⟩
def SHAPE_AGENT_LIM_STEP : Field := ⟨0xF, 0x110, 16, 12, .rwe, 0x10, 1, 0x4⟩
def SHAPE_STEER_HI : Field := ⟨0xF, 0x114, 0, 4, .rwe, 0xd, 1, 0x4⟩
def SHAPE_STEER_LO : Field := ⟨0xF, 0x114, 4, 4, .rwe, 5, 1, 0x4⟩
def SHAPE_STEER_PERIOD : Field := ⟨0xF, 0x118, 0, 32, .rwe, 0x61b, 1, 0x4⟩
def SHAPE_BATCH_MAX : Field := ⟨0xF, 0x11C, 0, 4, .rwe, 8, 1, 0x4⟩
def SHAPE_BATCH_DEPTH : Field := ⟨0xF, 0x11C, 8, 5, .rwe, 0x10, 1, 0x4⟩
def SHAPE_BATCH_PASS : Field := ⟨0xF, 0x11C, 16, 4, .rwe, 8, 1, 0x4⟩
def SHAPE_LOAD_NOW : Field := ⟨0xF, 0x120, 0, 4, .ro, 0, 1, 0x4⟩
def SHAPE_PANIC : Field := ⟨0xF, 0x120, 4, 1, .ro, 0, 1, 0x4⟩
def SHAPE_THROTTLE : Field := ⟨0xF, 0x120, 5, 1, .ro, 0, 1, 0x4⟩
def SHAPE_VTIME : Field := ⟨0xF, 0x124, 0, 64, .ro, 0, 1, 0x4⟩
def SHAPE_OUTSTANDING : Field := ⟨0xF, 0x12C, 0, 16, .ro, 0, 1, 0x4⟩
def SHAPE_ADMITTED : Field := ⟨0xF, 0x140, 0, 32, .rc, 0, 1, 0x4⟩
def SHAPE_BUSY_CNT : Field := ⟨0xF, 0x144, 0, 32, .rc, 0, 1, 0x4⟩
def SHAPE_TNT_OFF_CNT : Field := ⟨0xF, 0x148, 0, 32, .rc, 0, 1, 0x4⟩
def SHAPE_BATCHED : Field := ⟨0xF, 0x14C, 0, 32, .rc, 0, 1, 0x4⟩
def SHAPE_PANICS : Field := ⟨0xF, 0x150, 0, 32, .rc, 0, 1, 0x4⟩
def SHAPE_THROTTLE_TICKS : Field := ⟨0xF, 0x154, 0, 32, .rc, 0, 1, 0x4⟩
def shapeFields : List Field :=
  [SHAPE_RT_PORT, SHAPE_RT_EN, SHAPE_PANIC_ON, SHAPE_PANIC_OFF, SHAPE_STEER_PORTS, SHAPE_AGENT_LIM_CEIL,
   SHAPE_AGENT_LIM_FLOOR, SHAPE_AGENT_LIM_NOW, SHAPE_AGENT_LIM_STEP, SHAPE_STEER_HI, SHAPE_STEER_LO,
   SHAPE_STEER_PERIOD, SHAPE_BATCH_MAX, SHAPE_BATCH_DEPTH, SHAPE_BATCH_PASS, SHAPE_LOAD_NOW, SHAPE_PANIC,
   SHAPE_THROTTLE, SHAPE_VTIME, SHAPE_OUTSTANDING, SHAPE_ADMITTED, SHAPE_BUSY_CNT, SHAPE_TNT_OFF_CNT, SHAPE_BATCHED,
   SHAPE_PANICS, SHAPE_THROTTLE_TICKS]

/-! Table 10-7, MCH. -/
def MCH_REFI_CEIL : Field := ⟨0x20, 0x100, 0, 13, .rwe, 0x1248, 1, 0x4⟩
def MCH_REFI_FLOOR : Field := ⟨0x20, 0x104, 0, 13, .rwe, 0x924, 1, 0x4⟩
def MCH_REFI_NOW : Field := ⟨0x20, 0x108, 0, 13, .ro, 0x1248, 1, 0x4⟩
def MCH_PASR_EN : Field := ⟨0x20, 0x10C, 0, 1, .rwe, 1, 1, 0x4⟩
def MCH_TEMP_NOW : Field := ⟨0x20, 0x110, 0, 16, .ro, 0, 1, 0x4⟩
def MCH_TEMP_VALID : Field := ⟨0x20, 0x110, 16, 1, .ro, 0, 1, 0x4⟩
def MCH_TRAIN_STATE : Field := ⟨0x20, 0x114, 0, 4, .ro, 0, 1, 0x4⟩
def MCH_TRAIN_FAIL_STEP : Field := ⟨0x20, 0x114, 8, 4, .ro, 0, 1, 0x4⟩
def MCH_RETRAIN_PERIOD : Field := ⟨0x20, 0x118, 0, 32, .rw, 0x2625a, 1, 0x4⟩
def MCH_QDEPTH0 : Field := ⟨0x20, 0x11C, 0, 7, .ro, 0, 1, 0x4⟩
def MCH_QDEPTH1 : Field := ⟨0x20, 0x11C, 16, 7, .ro, 0, 1, 0x4⟩
def MCH_ACT_CNT : Field := ⟨0x20, 0x140, 0, 32, .rc, 0, 1, 0x4⟩
def MCH_RD_CNT : Field := ⟨0x20, 0x144, 0, 32, .rc, 0, 1, 0x4⟩
def MCH_WR_CNT : Field := ⟨0x20, 0x148, 0, 32, .rc, 0, 1, 0x4⟩
def MCH_PRE_CNT : Field := ⟨0x20, 0x14C, 0, 32, .rc, 0, 1, 0x4⟩
def MCH_REF_CNT : Field := ⟨0x20, 0x150, 0, 32, .rc, 0, 1, 0x4⟩
def MCH_VCMD_CNT : Field := ⟨0x20, 0x154, 0, 32, .rc, 0, 1, 0x4⟩
def MCH_ROW_HITS : Field := ⟨0x20, 0x158, 0, 32, .rc, 0, 1, 0x4⟩
def MCH_CA_ALERT : Field := ⟨0x20, 0x15C, 0, 32, .rc, 0, 1, 0x4⟩
def MCH_REPLAY_CMDS : Field := ⟨0x20, 0x160, 0, 32, .rc, 0, 1, 0x4⟩
def MCH_PASR_MASK : Field := ⟨0x20, 0x180, 0, 32, .ro, 0, 16, 0x4⟩
def MCH_IDPAGE : Field := ⟨0x20, 0x200, 0, 32, .ro, 0, 64, 0x4⟩
def mchFields : List Field :=
  [MCH_REFI_CEIL, MCH_REFI_FLOOR, MCH_REFI_NOW, MCH_PASR_EN, MCH_TEMP_NOW, MCH_TEMP_VALID, MCH_TRAIN_STATE,
   MCH_TRAIN_FAIL_STEP, MCH_RETRAIN_PERIOD, MCH_QDEPTH0, MCH_QDEPTH1, MCH_ACT_CNT, MCH_RD_CNT, MCH_WR_CNT,
   MCH_PRE_CNT, MCH_REF_CNT, MCH_VCMD_CNT, MCH_ROW_HITS, MCH_CA_ALERT, MCH_REPLAY_CMDS, MCH_PASR_MASK, MCH_IDPAGE]

/-! Table 11-8, RAS. -/
def RAS_SCRUB_INT_CEIL : Field := ⟨0x81, 0x100, 0, 20, .rwe, 0xbb80, 1, 0x4⟩
def RAS_SCRUB_INT_FLOOR : Field := ⟨0x81, 0x104, 0, 20, .rwe, 0x12c0, 1, 0x4⟩
def RAS_SCRUB_INT_NOW : Field := ⟨0x81, 0x108, 0, 20, .ro, 0xbb80, 1, 0x4⟩
def RAS_PAGE_LIMIT : Field := ⟨0x81, 0x10C, 0, 8, .rwe, 8, 1, 0x4⟩
def RAS_BANK_LIMIT : Field := ⟨0x81, 0x10C, 16, 16, .rwe, 0x40, 1, 0x4⟩
def RAS_SLICE_SEC : Field := ⟨0x81, 0x110, 0, 32, .rwe, 0xe10, 1, 0x4⟩
def RAS_SLICE_NOW : Field := ⟨0x81, 0x114, 0, 32, .ro, 0, 1, 0x4⟩
def RAS_PT_SEL : Field := ⟨0x81, 0x120, 0, 12, .rw, 0, 1, 0x4⟩
def RAS_PT_PAGE : Field := ⟨0x81, 0x124, 0, 27, .ro, 0, 1, 0x4⟩
def RAS_PT_VALID : Field := ⟨0x81, 0x124, 28, 1, .ro, 0, 1, 0x4⟩
def RAS_PT_LASTING : Field := ⟨0x81, 0x124, 29, 1, .ro, 0, 1, 0x4⟩
def RAS_PT_COUNT : Field := ⟨0x81, 0x128, 0, 16, .ro, 0, 1, 0x4⟩
def RAS_PT_CLEAR : Field := ⟨0x81, 0x12C, 0, 1, .w1s, 0, 1, 0x4⟩
def RAS_BT_SEL : Field := ⟨0x81, 0x130, 0, 11, .rw, 0, 1, 0x4⟩
def RAS_BT_COUNT : Field := ⟨0x81, 0x134, 0, 16, .ro, 0, 1, 0x4⟩
def RAS_BT_LASTING : Field := ⟨0x81, 0x134, 16, 1, .ro, 0, 1, 0x4⟩
def RAS_BT_WIDE : Field := ⟨0x81, 0x134, 17, 1, .ro, 0, 1, 0x4⟩
def RAS_BT_CLEAR : Field := ⟨0x81, 0x134, 18, 1, .w1s, 0, 1, 0x4⟩
def RAS_BT_SA : Field := ⟨0x81, 0x138, 0, 64, .ro, 0, 1, 0x4⟩
def RAS_RMAP_SEL : Field := ⟨0x81, 0x140, 0, 8, .rw, 0, 1, 0x4⟩
def RAS_RM_QUEUE : Field := ⟨0x81, 0x144, 0, 7, .rws, 0, 1, 0x4⟩
def RAS_RM_BANK : Field := ⟨0x81, 0x144, 7, 4, .rws, 0, 1, 0x4⟩
def RAS_RM_SUBARRAY : Field := ⟨0x81, 0x144, 11, 9, .rws, 0, 1, 0x4⟩
def RAS_RM_SPARE : Field := ⟨0x81, 0x144, 20, 9, .rws, 0, 1, 0x4⟩
def RAS_RM_STATE : Field := ⟨0x81, 0x144, 30, 2, .ro, 0, 1, 0x4⟩
def RAS_ADD : Field := ⟨0x81, 0x148, 0, 1, .w1s, 0, 1, 0x4⟩
def RAS_RMAP_RESULT : Field := ⟨0x81, 0x148, 8, 4, .ro, 0, 1, 0x4⟩
def RAS_ROWS_DONE : Field := ⟨0x81, 0x148, 16, 10, .ro, 0, 1, 0x4⟩
def RAS_RMAP_BUSY : Field := ⟨0x81, 0x148, 31, 1, .ro, 0, 1, 0x4⟩
def RAS_STALE_FLUSH : Field := ⟨0x81, 0x150, 0, 1, .w1s, 0, 1, 0x4⟩
def RAS_STALE_ROWS : Field := ⟨0x81, 0x154, 0, 13, .ro, 0, 1, 0x4⟩
def RAS_CE_CNT : Field := ⟨0x81, 0x160, 0, 32, .rc, 0, 1, 0x4⟩
def RAS_UE_CNT : Field := ⟨0x81, 0x164, 0, 32, .rc, 0, 1, 0x4⟩
def RAS_META_ERR : Field := ⟨0x81, 0x168, 0, 32, .rc, 0, 1, 0x4⟩
def RAS_PT_EVICT : Field := ⟨0x81, 0x16C, 0, 32, .rc, 0, 1, 0x4⟩
def RAS_PT_FULL : Field := ⟨0x81, 0x170, 0, 32, .rc, 0, 1, 0x4⟩
def RAS_SCRUB_WRITES : Field := ⟨0x81, 0x174, 0, 32, .rc, 0, 1, 0x4⟩
def RAS_PASSES : Field := ⟨0x81, 0x178, 0, 32, .rc, 0, 1, 0x4⟩
def RAS_REENCODES : Field := ⟨0x81, 0x17C, 0, 32, .rc, 0, 1, 0x4⟩
def RAS_STALE_EAGER : Field := ⟨0x81, 0x180, 0, 32, .rc, 0, 1, 0x4⟩
def rasFields : List Field :=
  [RAS_SCRUB_INT_CEIL, RAS_SCRUB_INT_FLOOR, RAS_SCRUB_INT_NOW, RAS_PAGE_LIMIT, RAS_BANK_LIMIT, RAS_SLICE_SEC,
   RAS_SLICE_NOW, RAS_PT_SEL, RAS_PT_PAGE, RAS_PT_VALID, RAS_PT_LASTING, RAS_PT_COUNT, RAS_PT_CLEAR, RAS_BT_SEL,
   RAS_BT_COUNT, RAS_BT_LASTING, RAS_BT_WIDE, RAS_BT_CLEAR, RAS_BT_SA, RAS_RMAP_SEL, RAS_RM_QUEUE, RAS_RM_BANK,
   RAS_RM_SUBARRAY, RAS_RM_SPARE, RAS_RM_STATE, RAS_ADD, RAS_RMAP_RESULT, RAS_ROWS_DONE, RAS_RMAP_BUSY,
   RAS_STALE_FLUSH, RAS_STALE_ROWS, RAS_CE_CNT, RAS_UE_CNT, RAS_META_ERR, RAS_PT_EVICT, RAS_PT_FULL, RAS_SCRUB_WRITES,
   RAS_PASSES, RAS_REENCODES, RAS_STALE_EAGER]

/-! Table 11-10, EVLOG. -/
def EVLOG_HEAD : Field := ⟨0x3, 0x100, 0, 10, .ro, 0, 1, 0x4⟩
def EVLOG_TAIL : Field := ⟨0x3, 0x104, 0, 10, .rw, 0, 1, 0x4⟩
def EVLOG_USED : Field := ⟨0x3, 0x108, 0, 11, .ro, 0, 1, 0x4⟩
def EVLOG_SEQ_NEXT : Field := ⟨0x3, 0x10C, 0, 32, .ro, 0, 1, 0x4⟩
def EVLOG_LOST : Field := ⟨0x3, 0x110, 0, 32, .rc, 0, 1, 0x4⟩
def EVLOG_INT_SEV : Field := ⟨0x3, 0x114, 0, 2, .rw, 2, 1, 0x4⟩
def EVLOG_CRUMB : Field := ⟨0x3, 0x120, 0, 32, .ro, 0, 8, 0x4⟩
def evlogFields : List Field :=
  [EVLOG_HEAD, EVLOG_TAIL, EVLOG_USED, EVLOG_SEQ_NEXT, EVLOG_LOST, EVLOG_INT_SEV, EVLOG_CRUMB]

/-! Table 12-8, RDL. -/
def RDL_PRL_USED : Field := ⟨0x80, 0x100, 0, 13, .ro, 0, 1, 0x4⟩
def RDL_PRL_OVF_SA : Field := ⟨0x80, 0x104, 0, 20, .ro, 0, 1, 0x4⟩
def RDL_RS_QUEUE : Field := ⟨0x80, 0x108, 0, 7, .rw, 0, 1, 0x4⟩
def RDL_RS_BANK : Field := ⟨0x80, 0x108, 7, 4, .rw, 0, 1, 0x4⟩
def RDL_RS_SUBARRAY : Field := ⟨0x80, 0x108, 11, 9, .rw, 0, 1, 0x4⟩
def RDL_RESCAN_GO : Field := ⟨0x80, 0x10C, 0, 1, .w1s, 0, 1, 0x4⟩
def RDL_RESCAN_BUSY : Field := ⟨0x80, 0x10C, 1, 1, .ro, 0, 1, 0x4⟩
def RDL_RESCAN_OVF : Field := ⟨0x80, 0x10C, 2, 1, .ro, 0, 1, 0x4⟩
def RDL_PRL_SEL : Field := ⟨0x80, 0x110, 0, 12, .rw, 0, 1, 0x4⟩
def RDL_PRL_ROW : Field := ⟨0x80, 0x114, 0, 29, .ro, 0, 1, 0x4⟩
def RDL_PRL_VALID : Field := ⟨0x80, 0x114, 31, 1, .ro, 0, 1, 0x4⟩
def RDL_PRL_MASK : Field := ⟨0x80, 0x118, 0, 32, .ro, 0, 4, 0x4⟩
def RDL_LANE_LINES : Field := ⟨0x80, 0x140, 0, 32, .rc, 0, 1, 0x4⟩
def RDL_REENC_BAKE : Field := ⟨0x80, 0x144, 0, 32, .rc, 0, 1, 0x4⟩
def RDL_STALE_LAZY : Field := ⟨0x80, 0x148, 0, 32, .rc, 0, 1, 0x4⟩
def RDL_SCAN_LINES : Field := ⟨0x80, 0x14C, 0, 32, .rc, 0, 1, 0x4⟩
def RDL_POISON_ROWS : Field := ⟨0x80, 0x150, 0, 32, .rc, 0, 1, 0x4⟩
def RDL_LANE_EXEC_LINES : Field := ⟨0x80, 0x154, 0, 32, .rc, 0, 1, 0x4⟩
def rdlFields : List Field :=
  [RDL_PRL_USED, RDL_PRL_OVF_SA, RDL_RS_QUEUE, RDL_RS_BANK, RDL_RS_SUBARRAY, RDL_RESCAN_GO, RDL_RESCAN_BUSY,
   RDL_RESCAN_OVF, RDL_PRL_SEL, RDL_PRL_ROW, RDL_PRL_VALID, RDL_PRL_MASK, RDL_LANE_LINES, RDL_REENC_BAKE,
   RDL_STALE_LAZY, RDL_SCAN_LINES, RDL_POISON_ROWS, RDL_LANE_EXEC_LINES]

/-! Table 13-8, RCE. -/
def RCE_CTX_SEL : Field := ⟨0x50, 0x100, 0, 3, .rw, 0, 1, 0x4⟩
def RCE_CTX_STATE : Field := ⟨0x50, 0x104, 0, 2, .ro, 0, 1, 0x4⟩
def RCE_GROUP_OPEN : Field := ⟨0x50, 0x104, 2, 1, .ro, 0, 1, 0x4⟩
def RCE_GROUP_CMDS : Field := ⟨0x50, 0x104, 4, 4, .ro, 0, 1, 0x4⟩
def RCE_PC : Field := ⟨0x50, 0x108, 0, 14, .ro, 0, 1, 0x4⟩
def RCE_DEPTH : Field := ⟨0x50, 0x108, 16, 3, .ro, 0, 1, 0x4⟩
def RCE_FAULT : Field := ⟨0x50, 0x10C, 0, 4, .ro, 0, 1, 0x4⟩
def RCE_FAULT_PC : Field := ⟨0x50, 0x10C, 16, 14, .ro, 0, 1, 0x4⟩
def RCE_LC01 : Field := ⟨0x50, 0x110, 0, 32, .ro, 0, 1, 0x4⟩
def RCE_LC23 : Field := ⟨0x50, 0x114, 0, 32, .ro, 0, 1, 0x4⟩
def RCE_X : Field := ⟨0x50, 0x120, 0, 32, .ro, 0, 8, 0x4⟩
def RCE_CTX_TID : Field := ⟨0x50, 0x144, 0, 8, .ro, 0, 1, 0x4⟩
def RCE_CTX_JOB : Field := ⟨0x50, 0x144, 8, 20, .ro, 0, 1, 0x4⟩
def RCE_CS_ADDR : Field := ⟨0x50, 0x150, 0, 14, .rw, 0, 1, 0x4⟩
def RCE_CS_RDATA : Field := ⟨0x50, 0x154, 0, 32, .ro, 0, 1, 0x4⟩
def RCE_CS_RPAR : Field := ⟨0x50, 0x158, 0, 1, .ro, 0, 1, 0x4⟩
def RCE_UOPS : Field := ⟨0x50, 0x160, 0, 32, .rc, 0, 1, 0x4⟩
def RCE_GROUPS : Field := ⟨0x50, 0x164, 0, 32, .rc, 0, 1, 0x4⟩
def RCE_GEND_STALL : Field := ⟨0x50, 0x168, 0, 32, .rc, 0, 1, 0x4⟩
def RCE_FAULTS : Field := ⟨0x50, 0x16C, 0, 32, .rc, 0, 1, 0x4⟩
def RCE_CSW_CNT : Field := ⟨0x50, 0x170, 0, 32, .rc, 0, 1, 0x4⟩
def RCE_CS_PARITY : Field := ⟨0x50, 0x174, 0, 32, .rc, 0, 1, 0x4⟩
def rceFields : List Field :=
  [RCE_CTX_SEL, RCE_CTX_STATE, RCE_GROUP_OPEN, RCE_GROUP_CMDS, RCE_PC, RCE_DEPTH, RCE_FAULT, RCE_FAULT_PC, RCE_LC01,
   RCE_LC23, RCE_X, RCE_CTX_TID, RCE_CTX_JOB, RCE_CS_ADDR, RCE_CS_RDATA, RCE_CS_RPAR, RCE_UOPS, RCE_GROUPS,
   RCE_GEND_STALL, RCE_FAULTS, RCE_CSW_CNT, RCE_CS_PARITY]

/-! Table 15-10, TWIN. -/
def TWIN_PARTNER_NID : Field := ⟨0x8, 0x100, 0, 9, .rwl, 0, 1, 0x4⟩
def TWIN_PAIR_EN : Field := ⟨0x8, 0x100, 12, 1, .rwe, 0, 1, 0x4⟩
def TWIN_PREFERRED : Field := ⟨0x8, 0x100, 13, 1, .rw, 0, 1, 0x4⟩
def TWIN_HOLD_BACK : Field := ⟨0x8, 0x100, 14, 1, .rw, 0, 1, 0x4⟩
def TWIN_AUTO_JOIN : Field := ⟨0x8, 0x100, 15, 1, .rw, 1, 1, 0x4⟩
def TWIN_TW_PORT : Field := ⟨0x8, 0x104, 0, 4, .rwl, 0, 1, 0x4⟩
def TWIN_TW_PORT_ALT : Field := ⟨0x8, 0x104, 4, 4, .rwl, 0, 1, 0x4⟩
def TWIN_ALT_EN : Field := ⟨0x8, 0x104, 8, 1, .rwl, 0, 1, 0x4⟩
def TWIN_TURN_STATE : Field := ⟨0x8, 0x108, 0, 3, .ro, 0, 1, 0x4⟩
def TWIN_LEASED : Field := ⟨0x8, 0x108, 8, 1, .ro, 0, 1, 0x4⟩
def TWIN_SYNCED : Field := ⟨0x8, 0x108, 9, 1, .ro, 0, 1, 0x4⟩
def TWIN_CURRENT : Field := ⟨0x8, 0x108, 10, 1, .ro, 0, 1, 0x4⟩
def TWIN_PARTNER_PREF : Field := ⟨0x8, 0x108, 11, 1, .ro, 0, 1, 0x4⟩
def TWIN_CMD : Field := ⟨0x8, 0x10C, 0, 3, .wo, 0, 1, 0x4⟩
def TWIN_LEASE_T : Field := ⟨0x8, 0x110, 0, 32, .rwl, 0x1312d, 1, 0x4⟩
def TWIN_RENEW_T : Field := ⟨0x8, 0x114, 0, 32, .rwl, 0x3d09, 1, 0x4⟩
def TWIN_FENCE_T : Field := ⟨0x8, 0x118, 0, 32, .rwl, 0xf424, 1, 0x4⟩
def TWIN_GUARD_T : Field := ⟨0x8, 0x11C, 0, 32, .rwl, 0x1e85, 1, 0x4⟩
def TWIN_TSEQ_SENT : Field := ⟨0x8, 0x120, 0, 24, .ro, 0, 1, 0x4⟩
def TWIN_TSEQ_ACKED : Field := ⟨0x8, 0x124, 0, 24, .ro, 0, 1, 0x4⟩
def TWIN_TW_WINDOW : Field := ⟨0x8, 0x128, 0, 13, .rw, 0x1000, 1, 0x4⟩
def TWIN_RESYNC_RATE : Field := ⟨0x8, 0x12C, 0, 12, .rw, 0x400, 1, 0x4⟩
def TWIN_RESYNC_PTR : Field := ⟨0x8, 0x130, 0, 64, .ro, 0, 1, 0x4⟩
def TWIN_PENDING : Field := ⟨0x8, 0x138, 0, 15, .ro, 0, 1, 0x4⟩
def TWIN_TURN_COUNT : Field := ⟨0x8, 0x13C, 0, 32, .ro, 0, 1, 0x4⟩
def TWIN_LINES_SENT : Field := ⟨0x8, 0x140, 0, 32, .rc, 0, 1, 0x4⟩
def TWIN_DELTAS_SENT : Field := ⟨0x8, 0x144, 0, 32, .rc, 0, 1, 0x4⟩
def TWIN_REPLAYS : Field := ⟨0x8, 0x148, 0, 32, .rc, 0, 1, 0x4⟩
def TWIN_ROW_COPIES : Field := ⟨0x8, 0x14C, 0, 32, .rc, 0, 1, 0x4⟩
def TWIN_SELF_FENCES : Field := ⟨0x8, 0x150, 0, 32, .rc, 0, 1, 0x4⟩
def TWIN_PORT_SWITCHES : Field := ⟨0x8, 0x154, 0, 32, .rc, 0, 1, 0x4⟩
def TWIN_TW_STRAY : Field := ⟨0x8, 0x158, 0, 32, .rc, 0, 1, 0x4⟩
def twinFields : List Field :=
  [TWIN_PARTNER_NID, TWIN_PAIR_EN, TWIN_PREFERRED, TWIN_HOLD_BACK, TWIN_AUTO_JOIN, TWIN_TW_PORT, TWIN_TW_PORT_ALT,
   TWIN_ALT_EN, TWIN_TURN_STATE, TWIN_LEASED, TWIN_SYNCED, TWIN_CURRENT, TWIN_PARTNER_PREF, TWIN_CMD, TWIN_LEASE_T,
   TWIN_RENEW_T, TWIN_FENCE_T, TWIN_GUARD_T, TWIN_TSEQ_SENT, TWIN_TSEQ_ACKED, TWIN_TW_WINDOW, TWIN_RESYNC_RATE,
   TWIN_RESYNC_PTR, TWIN_PENDING, TWIN_TURN_COUNT, TWIN_LINES_SENT, TWIN_DELTAS_SENT, TWIN_REPLAYS, TWIN_ROW_COPIES,
   TWIN_SELF_FENCES, TWIN_PORT_SWITCHES, TWIN_TW_STRAY]

/-! Table 16-9, METER. -/
def METER_MSTATE : Field := ⟨0x7, 0x100, 0, 3, .ro, 0, 1, 0x4⟩
def METER_BAY_CLOSED : Field := ⟨0x7, 0x100, 8, 1, .ro, 0, 1, 0x4⟩
def METER_SEALED : Field := ⟨0x7, 0x100, 9, 1, .ro, 0, 1, 0x4⟩
def METER_SELFTEST_OK : Field := ⟨0x7, 0x100, 10, 1, .ro, 0, 1, 0x4⟩
def METER_ENROLL_MATCH : Field := ⟨0x7, 0x100, 11, 1, .ro, 0, 1, 0x4⟩
def METER_INTERVAL : Field := ⟨0x7, 0x104, 0, 32, .ro, 0, 1, 0x4⟩
def METER_COND : Field := ⟨0x7, 0x108, 0, 2, .ro, 2, 1, 0x4⟩
def METER_DEG_CAUSE : Field := ⟨0x7, 0x108, 8, 5, .ro, 0, 1, 0x4⟩
def METER_BACKLOG : Field := ⟨0x7, 0x10C, 0, 7, .ro, 0, 1, 0x4⟩
def METER_ZM3_SERIAL : Field := ⟨0x7, 0x110, 0, 64, .ro, 0, 1, 0x4⟩
def METER_LR_VERSION : Field := ⟨0x7, 0x118, 0, 32, .ro, 0, 1, 0x4⟩
def METER_LR_CHECKSUM : Field := ⟨0x7, 0x11C, 0, 64, .ro, 0, 1, 0x4⟩
def METER_CERT_ID : Field := ⟨0x7, 0x124, 0, 32, .ro, 0, 1, 0x4⟩
def METER_SEAL_EVENTS : Field := ⟨0x7, 0x128, 0, 32, .ro, 0, 1, 0x4⟩
def METER_CAL_DATE : Field := ⟨0x7, 0x12C, 0, 32, .ro, 0, 1, 0x4⟩
def METER_ALARM_CODE : Field := ⟨0x7, 0x130, 0, 8, .ro, 0, 1, 0x4⟩
def METER_ENROLL_FP : Field := ⟨0x7, 0x140, 0, 32, .ro, 0, 8, 0x4⟩
def METER_KEY_FP : Field := ⟨0x7, 0x160, 0, 32, .ro, 0, 8, 0x4⟩
def METER_CH_ENERGY : Field := ⟨0x7, 0x180, 0, 32, .ro, 0, 12, 0x4⟩
def METER_CH_METERED : Field := ⟨0x7, 0x1B0, 0, 1, .ro, 0, 1, 0x4⟩
def METER_JOBS_HELD : Field := ⟨0x7, 0x1C0, 0, 17, .ro, 0, 1, 0x4⟩
def METER_PROOF_HEAD : Field := ⟨0x7, 0x1C4, 0, 6, .ro, 0, 1, 0x4⟩
def METER_PROOF_TAIL : Field := ⟨0x7, 0x1C8, 0, 6, .rw, 0, 1, 0x4⟩
def METER_PROOF_LEN : Field := ⟨0x7, 0x1CC, 0, 9, .ro, 0, 1, 0x4⟩
def METER_PROOF_SEQ : Field := ⟨0x7, 0x1D0, 0, 32, .ro, 0, 1, 0x4⟩
def METER_PROOF_DATA : Field := ⟨0x7, 0x200, 0, 32, .ro, 0, 64, 0x4⟩
def METER_FRAMES_RX : Field := ⟨0x7, 0x300, 0, 32, .rc, 0, 1, 0x4⟩
def METER_CRC_ERR : Field := ⟨0x7, 0x304, 0, 32, .rc, 0, 1, 0x4⟩
def METER_RESENDS : Field := ⟨0x7, 0x308, 0, 32, .rc, 0, 1, 0x4⟩
def METER_RECORDS_SENT : Field := ⟨0x7, 0x30C, 0, 32, .rc, 0, 1, 0x4⟩
def METER_FOLDS : Field := ⟨0x7, 0x310, 0, 32, .rc, 0, 1, 0x4⟩
def METER_UNTALLIED : Field := ⟨0x7, 0x314, 0, 32, .rc, 0, 1, 0x4⟩
def meterFields : List Field :=
  [METER_MSTATE, METER_BAY_CLOSED, METER_SEALED, METER_SELFTEST_OK, METER_ENROLL_MATCH, METER_INTERVAL, METER_COND,
   METER_DEG_CAUSE, METER_BACKLOG, METER_ZM3_SERIAL, METER_LR_VERSION, METER_LR_CHECKSUM, METER_CERT_ID,
   METER_SEAL_EVENTS, METER_CAL_DATE, METER_ALARM_CODE, METER_ENROLL_FP, METER_KEY_FP, METER_CH_ENERGY,
   METER_CH_METERED, METER_JOBS_HELD, METER_PROOF_HEAD, METER_PROOF_TAIL, METER_PROOF_LEN, METER_PROOF_SEQ,
   METER_PROOF_DATA, METER_FRAMES_RX, METER_CRC_ERR, METER_RESENDS, METER_RECORDS_SENT, METER_FOLDS, METER_UNTALLIED]

/-! Table 18-7, PWR. -/
def PWR_TJ_NOW : Field := ⟨0x4, 0x100, 0, 16, .ro, 0, 1, 0x4⟩
def PWR_TJ_VALID : Field := ⟨0x4, 0x100, 16, 5, .ro, 0, 1, 0x4⟩
def PWR_TJ_SHUTDOWN : Field := ⟨0x4, 0x104, 0, 16, .rweL, 0x1cc, 1, 0x4⟩
def PWR_THROTTLE_REQ : Field := ⟨0x4, 0x108, 0, 1, .ro, 0, 1, 0x4⟩
def PWR_SHUT_REQ : Field := ⟨0x4, 0x108, 1, 1, .ro, 0, 1, 0x4⟩
def PWR_SENSOR_SEL : Field := ⟨0x4, 0x10C, 0, 4, .rw, 0, 1, 0x4⟩
def PWR_SENSOR_T : Field := ⟨0x4, 0x110, 0, 16, .ro, 0, 1, 0x4⟩
def PWR_SENSOR_OK : Field := ⟨0x4, 0x110, 16, 1, .ro, 0, 1, 0x4⟩
def PWR_RES_PAGE : Field := ⟨0x4, 0x120, 0, 8, .rw, 0, 1, 0x4⟩
def PWR_RES_RUN : Field := ⟨0x4, 0x128, 0, 64, .ro, 0, 1, 0x4⟩
def PWR_RES_NAP : Field := ⟨0x4, 0x130, 0, 64, .ro, 0, 1, 0x4⟩
def PWR_RES_DOZE : Field := ⟨0x4, 0x138, 0, 64, .ro, 0, 1, 0x4⟩
def PWR_RES_OFF : Field := ⟨0x4, 0x140, 0, 64, .ro, 0, 1, 0x4⟩
def PWR_WAKES : Field := ⟨0x4, 0x148, 0, 32, .rc, 0, 1, 0x4⟩
def PWR_NAP_AFTER : Field := ⟨0x4, 0x180, 0, 16, .rwe, 0, 8, 0x10⟩
def PWR_DOZE_AFTER : Field := ⟨0x4, 0x184, 0, 24, .rwe, 0, 8, 0x10⟩
def PWR_OFF_AFTER : Field := ⟨0x4, 0x188, 0, 24, .rwe, 0, 8, 0x10⟩
def pwrFields : List Field :=
  [PWR_TJ_NOW, PWR_TJ_VALID, PWR_TJ_SHUTDOWN, PWR_THROTTLE_REQ, PWR_SHUT_REQ, PWR_SENSOR_SEL, PWR_SENSOR_T,
   PWR_SENSOR_OK, PWR_RES_PAGE, PWR_RES_RUN, PWR_RES_NAP, PWR_RES_DOZE, PWR_RES_OFF, PWR_WAKES, PWR_NAP_AFTER,
   PWR_DOZE_AFTER, PWR_OFF_AFTER]

/-! Table 18-9, CLK. -/
def CLK_FC_STATE : Field := ⟨0x5, 0x100, 0, 3, .ro, 3, 1, 0x4⟩
def CLK_MC_STATE : Field := ⟨0x5, 0x100, 8, 3, .ro, 3, 1, 0x4⟩
def CLK_PARK_FC : Field := ⟨0x5, 0x104, 0, 1, .rwe, 1, 1, 0x4⟩
def CLK_PARK_MC : Field := ⟨0x5, 0x104, 1, 1, .rwe, 1, 1, 0x4⟩
def CLK_REF_OK : Field := ⟨0x5, 0x108, 0, 1, .ro, 0, 1, 0x4⟩
def CLK_ON_BACKUP : Field := ⟨0x5, 0x108, 1, 1, .ro, 0, 1, 0x4⟩
def CLK_MON_FC : Field := ⟨0x5, 0x10C, 0, 16, .ro, 0, 1, 0x4⟩
def CLK_MON_MC : Field := ⟨0x5, 0x10C, 16, 16, .ro, 0, 1, 0x4⟩
def CLK_FAST_STARTS : Field := ⟨0x5, 0x110, 0, 32, .rc, 0, 1, 0x4⟩
def CLK_COLD_LOCKS : Field := ⟨0x5, 0x114, 0, 32, .rc, 0, 1, 0x4⟩
def CLK_LOCK_LOSSES : Field := ⟨0x5, 0x118, 0, 32, .rc, 0, 1, 0x4⟩
def CLK_AO_TIME : Field := ⟨0x5, 0x120, 0, 64, .ro, 0, 1, 0x4⟩
def clkFields : List Field :=
  [CLK_FC_STATE, CLK_MC_STATE, CLK_PARK_FC, CLK_PARK_MC, CLK_REF_OK, CLK_ON_BACKUP, CLK_MON_FC, CLK_MON_MC,
   CLK_FAST_STARTS, CLK_COLD_LOCKS, CLK_LOCK_LOSSES, CLK_AO_TIME]

/-! Table 19-13, TMCB. -/
def TMCB_TMC_ALIVE : Field := ⟨0x82, 0x100, 0, 1, .ro, 0, 1, 0x4⟩
def TMCB_HOLDUP_PENDING : Field := ⟨0x82, 0x100, 1, 1, .ro, 0, 1, 0x4⟩
def TMCB_SHUT_COMMITTED : Field := ⟨0x82, 0x100, 2, 1, .ro, 0, 1, 0x4⟩
def TMCB_SHUT_CAUSE : Field := ⟨0x82, 0x100, 4, 3, .ro, 0, 1, 0x4⟩
def TMCB_LEAK_LATCH : Field := ⟨0x82, 0x100, 8, 1, .ro, 0, 1, 0x4⟩
def TMCB_HS_LATCHED : Field := ⟨0x82, 0x100, 9, 1, .ro, 0, 1, 0x4⟩
def TMCB_HS_TRIP_KIND : Field := ⟨0x82, 0x100, 10, 2, .ro, 0, 1, 0x4⟩
def TMCB_INPUT_V : Field := ⟨0x82, 0x104, 0, 16, .ro, 0, 1, 0x4⟩
def TMCB_INPUT_I : Field := ⟨0x82, 0x104, 16, 16, .ro, 0, 1, 0x4⟩
def TMCB_BANK_V : Field := ⟨0x82, 0x108, 0, 16, .ro, 0, 1, 0x4⟩
def TMCB_BANK_WEAK : Field := ⟨0x82, 0x108, 16, 1, .ro, 0, 1, 0x4⟩
def TMCB_COOL_FLOOR : Field := ⟨0x82, 0x10C, 0, 7, .rwe, 0x1e, 1, 0x4⟩
def TMCB_COOL_CEIL : Field := ⟨0x82, 0x10C, 8, 7, .rwe, 0x64, 1, 0x4⟩
def TMCB_COOL_NOW : Field := ⟨0x82, 0x10C, 16, 7, .ro, 0x64, 1, 0x4⟩
def TMCB_PUMP_A_OK : Field := ⟨0x82, 0x10C, 24, 1, .ro, 0, 1, 0x4⟩
def TMCB_PUMP_B_OK : Field := ⟨0x82, 0x10C, 25, 1, .ro, 0, 1, 0x4⟩
def TMCB_SHUT_BUDGET : Field := ⟨0x82, 0x110, 0, 9, .rwl, 0x190, 1, 0x4⟩
def TMCB_RECHARGE_V : Field := ⟨0x82, 0x114, 0, 16, .rwl, 0x125c, 1, 0x4⟩
def TMCB_ILIM : Field := ⟨0x82, 0x118, 0, 9, .rwl, 0x12c, 1, 0x4⟩
def TMCB_HS_POLICY : Field := ⟨0x82, 0x118, 16, 2, .rwl, 1, 1, 0x4⟩
def TMCB_STRAPS : Field := ⟨0x82, 0x11C, 0, 9, .ro, 0, 1, 0x4⟩
def TMCB_MOD_PRESENT : Field := ⟨0x82, 0x120, 0, 16, .ro, 0, 1, 0x4⟩
def TMCB_ZM3_PRESENT : Field := ⟨0x82, 0x120, 16, 1, .ro, 0, 1, 0x4⟩
def TMCB_BAY_CLOSED : Field := ⟨0x82, 0x120, 17, 1, .ro, 0, 1, 0x4⟩
def TMCB_BANK_PRESENT : Field := ⟨0x82, 0x120, 18, 1, .ro, 0, 1, 0x4⟩
def TMCB_COOLANT_IN : Field := ⟨0x82, 0x124, 0, 16, .ro, 0, 1, 0x4⟩
def TMCB_COOLANT_OUT : Field := ⟨0x82, 0x124, 16, 16, .ro, 0, 1, 0x4⟩
def TMCB_RIDE_THROUGHS : Field := ⟨0x82, 0x140, 0, 32, .rc, 0, 1, 0x4⟩
def TMCB_HS_TRIPS : Field := ⟨0x82, 0x144, 0, 32, .rc, 0, 1, 0x4⟩
def TMCB_WDT_EXPIRIES : Field := ⟨0x82, 0x148, 0, 32, .rc, 0, 1, 0x4⟩
def tmcbFields : List Field :=
  [TMCB_TMC_ALIVE, TMCB_HOLDUP_PENDING, TMCB_SHUT_COMMITTED, TMCB_SHUT_CAUSE, TMCB_LEAK_LATCH, TMCB_HS_LATCHED,
   TMCB_HS_TRIP_KIND, TMCB_INPUT_V, TMCB_INPUT_I, TMCB_BANK_V, TMCB_BANK_WEAK, TMCB_COOL_FLOOR, TMCB_COOL_CEIL,
   TMCB_COOL_NOW, TMCB_PUMP_A_OK, TMCB_PUMP_B_OK, TMCB_SHUT_BUDGET, TMCB_RECHARGE_V, TMCB_ILIM, TMCB_HS_POLICY,
   TMCB_STRAPS, TMCB_MOD_PRESENT, TMCB_ZM3_PRESENT, TMCB_BAY_CLOSED, TMCB_BANK_PRESENT, TMCB_COOLANT_IN,
   TMCB_COOLANT_OUT, TMCB_RIDE_THROUGHS, TMCB_HS_TRIPS, TMCB_WDT_EXPIRIES]

/-! Table 20-10, WARDEN. -/
def WARDEN_BOOT_PHASE : Field := ⟨0x6, 0x100, 0, 3, .ro, 0, 1, 0x4⟩
def WARDEN_BOOT_COPY : Field := ⟨0x6, 0x100, 4, 2, .ro, 0, 1, 0x4⟩
def WARDEN_MEM_KEPT : Field := ⟨0x6, 0x100, 8, 1, .ro, 0, 1, 0x4⟩
def WARDEN_COH_LOST : Field := ⟨0x6, 0x100, 9, 1, .ro, 0, 1, 0x4⟩
def WARDEN_TRIAL : Field := ⟨0x6, 0x100, 10, 1, .rws, 0, 1, 0x4⟩
def WARDEN_BOOT_PREF : Field := ⟨0x6, 0x100, 12, 2, .rws, 0, 1, 0x4⟩
def WARDEN_RESET_CAUSE : Field := ⟨0x6, 0x104, 0, 4, .ro, 0, 1, 0x4⟩
def WARDEN_WARDEN_HB : Field := ⟨0x6, 0x108, 0, 32, .ro, 0, 1, 0x4⟩
def WARDEN_W0_STATE : Field := ⟨0x6, 0x10C, 0, 2, .ro, 0, 1, 0x4⟩
def WARDEN_W1_STATE : Field := ⟨0x6, 0x10C, 2, 2, .ro, 0, 1, 0x4⟩
def WARDEN_W0_RESTARTS : Field := ⟨0x6, 0x10C, 8, 8, .ro, 0, 1, 0x4⟩
def WARDEN_W1_RESTARTS : Field := ⟨0x6, 0x10C, 16, 8, .ro, 0, 1, 0x4⟩
def WARDEN_SVN_FLOOR : Field := ⟨0x6, 0x110, 0, 6, .ro, 0, 1, 0x4⟩
def WARDEN_RUN_SVN : Field := ⟨0x6, 0x110, 8, 6, .ro, 0, 1, 0x4⟩
def WARDEN_MBX_CLAIM : Field := ⟨0x6, 0x120, 0, 1, .w1s, 0, 1, 0x4⟩
def WARDEN_MBX_RELEASE : Field := ⟨0x6, 0x120, 1, 1, .w1s, 0, 1, 0x4⟩
def WARDEN_MBX_HELD : Field := ⟨0x6, 0x120, 2, 1, .ro, 0, 1, 0x4⟩
def WARDEN_MBX_OWNER : Field := ⟨0x6, 0x120, 16, 12, .ro, 0, 1, 0x4⟩
def WARDEN_MBX_CODE : Field := ⟨0x6, 0x124, 0, 8, .wo, 0, 1, 0x4⟩
def WARDEN_MBX_LEN : Field := ⟨0x6, 0x124, 16, 10, .wo, 0, 1, 0x4⟩
def WARDEN_MBX_RESULT : Field := ⟨0x6, 0x128, 0, 8, .ro, 0, 1, 0x4⟩
def WARDEN_MBX_DONE : Field := ⟨0x6, 0x128, 8, 1, .ro, 1, 1, 0x4⟩
def WARDEN_MBX_OUT_LEN : Field := ⟨0x6, 0x128, 16, 10, .ro, 0, 1, 0x4⟩
def WARDEN_MBX_DENY : Field := ⟨0x6, 0x12C, 0, 32, .rc, 0, 1, 0x4⟩
def WARDEN_MBX_BUF : Field := ⟨0x6, 0x400, 0, 32, .rw, 0, 128, 0x4⟩
def wardenFields : List Field :=
  [WARDEN_BOOT_PHASE, WARDEN_BOOT_COPY, WARDEN_MEM_KEPT, WARDEN_COH_LOST, WARDEN_TRIAL, WARDEN_BOOT_PREF,
   WARDEN_RESET_CAUSE, WARDEN_WARDEN_HB, WARDEN_W0_STATE, WARDEN_W1_STATE, WARDEN_W0_RESTARTS, WARDEN_W1_RESTARTS,
   WARDEN_SVN_FLOOR, WARDEN_RUN_SVN, WARDEN_MBX_CLAIM, WARDEN_MBX_RELEASE, WARDEN_MBX_HELD, WARDEN_MBX_OWNER,
   WARDEN_MBX_CODE, WARDEN_MBX_LEN, WARDEN_MBX_RESULT, WARDEN_MBX_DONE, WARDEN_MBX_OUT_LEN, WARDEN_MBX_DENY,
   WARDEN_MBX_BUF]

/-! Table 9-7. -/
def SHAPE_T_MODE : Field := ⟨0x100, 0x0, 0, 2, .rwe, 0, 256, 0x40⟩
def SHAPE_T_WEIGHT : Field := ⟨0x100, 0x0, 8, 8, .rwe, 0x10, 256, 0x40⟩
def SHAPE_T_OVH : Field := ⟨0x100, 0x0, 16, 8, .rwe, 0, 256, 0x40⟩
def SHAPE_T_CIR : Field := ⟨0x100, 0x4, 0, 18, .rwe, 0, 256, 0x40⟩
def SHAPE_T_CBS : Field := ⟨0x100, 0x8, 0, 31, .rwe, 0, 256, 0x40⟩
def SHAPE_T_PIR : Field := ⟨0x100, 0xC, 0, 18, .rwe, 0, 256, 0x40⟩
def SHAPE_T_PBS : Field := ⟨0x100, 0x10, 0, 31, .rwe, 0, 256, 0x40⟩
def SHAPE_T_QLIMIT : Field := ⟨0x100, 0x14, 0, 12, .rwe, 0x800, 256, 0x40⟩
def SHAPE_T_C_TOK : Field := ⟨0x100, 0x18, 0, 32, .ro, 0, 256, 0x40⟩
def SHAPE_T_P_TOK : Field := ⟨0x100, 0x1C, 0, 32, .ro, 0, 256, 0x40⟩
def SHAPE_T_S : Field := ⟨0x100, 0x20, 0, 48, .ro, 0, 256, 0x40⟩
def SHAPE_T_QUEUED : Field := ⟨0x100, 0x28, 0, 16, .ro, 0, 256, 0x40⟩
def SHAPE_T_OUTSTAND : Field := ⟨0x100, 0x28, 16, 16, .ro, 0, 256, 0x40⟩
def SHAPE_T_ADMITS : Field := ⟨0x100, 0x2C, 0, 32, .rc, 0, 256, 0x40⟩
def SHAPE_T_REFUSALS : Field := ⟨0x100, 0x30, 0, 32, .rc, 0, 256, 0x40⟩
def shapeTenantFields : List Field :=
  [SHAPE_T_MODE, SHAPE_T_WEIGHT, SHAPE_T_OVH, SHAPE_T_CIR, SHAPE_T_CBS, SHAPE_T_PIR, SHAPE_T_PBS, SHAPE_T_QLIMIT,
   SHAPE_T_C_TOK, SHAPE_T_P_TOK, SHAPE_T_S, SHAPE_T_QUEUED, SHAPE_T_OUTSTAND, SHAPE_T_ADMITS, SHAPE_T_REFUSALS]

/-! Table 9-7, agents. -/
def SHAPE_A_OUT : Field := ⟨0x100, 0x10000, 0, 12, .ro, 0, 4096, 0x4⟩
def shapeAgentFields : List Field :=
  [SHAPE_A_OUT]

/-! Table 7-1 and 7-2, region entries. -/
def TEN_R_VALID : Field := ⟨0x200, 0x0, 0, 1, .rwe, 0, 4096, 0x20⟩
def TEN_R_CLOSED : Field := ⟨0x200, 0x0, 1, 1, .rwe, 0, 4096, 0x20⟩
def TEN_R_ISO : Field := ⟨0x200, 0x0, 2, 1, .rwe, 0, 4096, 0x20⟩
def TEN_R_UE : Field := ⟨0x200, 0x0, 3, 1, .rwe, 0, 4096, 0x20⟩
def TEN_R_LAYOUT : Field := ⟨0x200, 0x0, 4, 1, .rwe, 0, 4096, 0x20⟩
def TEN_R_MIRROR : Field := ⟨0x200, 0x0, 5, 1, .rwe, 0, 4096, 0x20⟩
def TEN_R_COH : Field := ⟨0x200, 0x0, 6, 1, .rwe, 0, 4096, 0x20⟩
def TEN_R_ACCESS : Field := ⟨0x200, 0x0, 7, 1, .rwe, 0, 4096, 0x20⟩
def TEN_R_PERM_RD : Field := ⟨0x200, 0x0, 8, 1, .rwe, 0, 4096, 0x20⟩
def TEN_R_PERM_WR : Field := ⟨0x200, 0x0, 9, 1, .rwe, 0, 4096, 0x20⟩
def TEN_R_PERM_BAKE : Field := ⟨0x200, 0x0, 10, 1, .rwe, 0, 4096, 0x20⟩
def TEN_R_TID : Field := ⟨0x200, 0x0, 16, 8, .rwe, 0, 4096, 0x20⟩
def TEN_R_BASE : Field := ⟨0x200, 0x4, 0, 15, .rwe, 0, 4096, 0x20⟩
def TEN_R_SIZE : Field := ⟨0x200, 0x4, 16, 15, .rwe, 0, 4096, 0x20⟩
def TEN_R_DIR_COUNT : Field := ⟨0x200, 0x8, 0, 29, .ro, 0, 4096, 0x20⟩
def regionFields : List Field :=
  [TEN_R_VALID, TEN_R_CLOSED, TEN_R_ISO, TEN_R_UE, TEN_R_LAYOUT, TEN_R_MIRROR, TEN_R_COH, TEN_R_ACCESS, TEN_R_PERM_RD,
   TEN_R_PERM_WR, TEN_R_PERM_BAKE, TEN_R_TID, TEN_R_BASE, TEN_R_SIZE, TEN_R_DIR_COUNT]

/-! Table 7-1, tenant entries. -/
def TEN_T_ENABLE : Field := ⟨0x200, 0x20000, 0, 1, .rwe, 0, 256, 0x10⟩
def TEN_T_SLOT : Field := ⟨0x200, 0x20000, 8, 8, .ro, 0, 256, 0x10⟩
def TEN_T_LAST_GEN : Field := ⟨0x200, 0x20004, 0, 16, .ro, 0, 256, 0x10⟩
def tenantFields : List Field :=
  [TEN_T_ENABLE, TEN_T_SLOT, TEN_T_LAST_GEN]

/-! Table 7-1, the agent map. -/
def TEN_M_TID : Field := ⟨0x200, 0x30000, 0, 8, .rwe, 0, 4096, 0x4⟩
def TEN_M_BOUND : Field := ⟨0x200, 0x30000, 8, 1, .rwe, 0, 4096, 0x4⟩
def agentMapFields : List Field :=
  [TEN_M_TID, TEN_M_BOUND]

/-! Table 8-1, the root table. -/
def XLAT_ROOT_XEN : Field := ⟨0x400, 0x0, 0, 1, .rwe, 0, 256, 0x10⟩
def XLAT_ROOT_COUNT_EN : Field := ⟨0x400, 0x0, 1, 1, .rwe, 0, 256, 0x10⟩
def XLAT_ROOT_BASE : Field := ⟨0x400, 0x4, 0, 43, .rwe, 0, 256, 0x10⟩
def rootFields : List Field :=
  [XLAT_ROOT_XEN, XLAT_ROOT_COUNT_EN, XLAT_ROOT_BASE]

/-! Table 8-1, the Hot Page Queue. -/
def XLAT_HPQ_W : Field := ⟨0x400, 0x10000, 0, 32, .ro, 0, 4096, 0x4⟩
def hpqFields : List Field :=
  [XLAT_HPQ_W]

/-! Table 5-10, the agent table. -/
def DIRC_AT_INC : Field := ⟨0x800, 0x0, 0, 16, .rw, 0, 4096, 0x4⟩
def DIRC_AT_PORT : Field := ⟨0x800, 0x0, 16, 4, .ro, 0, 4096, 0x4⟩
def DIRC_AT_CXL : Field := ⟨0x800, 0x0, 20, 1, .ro, 0, 4096, 0x4⟩
def DIRC_AT_STATE : Field := ⟨0x800, 0x0, 21, 2, .rw, 0, 4096, 0x4⟩
def agentFields : List Field :=
  [DIRC_AT_INC, DIRC_AT_PORT, DIRC_AT_CXL, DIRC_AT_STATE]

/-! Table 5-10, the tracker view. -/
def DIRC_TRK_W : Field := ⟨0x800, 0x100000, 0, 32, .ro, 0, 65536, 0x4⟩
def trackerFields : List Field :=
  [DIRC_TRK_W]

/-! Block-specific causes of INT_STAT, by block. -/
def I_EPOCH_COMMIT_DONE : Nat := 0
def I_EPOCH_DRAIN_SLOW : Nat := 1
def I_EPOCH_COMMIT_BUSY : Nat := 2
def I_FPORT_LINK_UP : Nat := 0
def I_FPORT_LINK_DOWN : Nat := 1
def I_FPORT_RECOVER : Nat := 2
def I_FPORT_AUTH : Nat := 3
def I_FPORT_MODULE_CHANGE : Nat := 4
def I_FPORT_MODULE_POWER : Nat := 5
def I_HOME_SNP_SLOW : Nat := 0
def I_HOME_STRAY : Nat := 1
def I_DIRC_DIR_UE : Nat := 0
def I_DIRC_SET_SETTLED : Nat := 1
def I_DIRC_BROKEN_FULL : Nat := 2
def I_TEN_RECALL_DONE : Nat := 0
def I_TEN_REG_REJECT : Nat := 1
def I_CRYPT_KEY_DONE : Nat := 0
def I_CRYPT_KEY_FAIL : Nat := 1
def I_XLAT_HPQ_NEW : Nat := 0
def I_XLAT_WALK_FAULT : Nat := 1
def I_MIGR_MOVE_DONE : Nat := 0
def I_MIGR_MOVE_STUCK : Nat := 1
def I_MIGR_MOVE_REFUSED : Nat := 2
def I_SHAPE_PANIC_RAISED : Nat := 0
def I_SHAPE_THROTTLE : Nat := 1
def I_SHAPE_LIM_FLOOR : Nat := 2
def I_MCH_TRAIN_FAIL : Nat := 0
def I_MCH_ALERT : Nat := 1
def I_MCH_REFI_SHORT : Nat := 2
def I_MCH_SEG_CLEAR_DONE : Nat := 3
def I_MCH_TEMP_INVALID : Nat := 4
def I_RAS_PAGE_LASTING : Nat := 0
def I_RAS_BANK_LASTING : Nat := 1
def I_RAS_UE : Nat := 2
def I_RAS_RETIRE_DONE : Nat := 3
def I_RAS_RMAP_REFUSED : Nat := 4
def I_EVLOG_NEW : Nat := 0
def I_EVLOG_LOST : Nat := 1
def I_RDL_PRL_OVF : Nat := 0
def I_RDL_RESCAN_DONE : Nat := 1
def I_RCE_FAULT : Nat := 0
def I_RCE_CS_PARITY : Nat := 1
def I_TWIN_TURN_CHANGE : Nat := 0
def I_TWIN_SELF_FENCED : Nat := 1
def I_TWIN_TAKEOVER : Nat := 2
def I_TWIN_SYNCED : Nat := 3
def I_TWIN_TWO_HOLDERS : Nat := 4
def I_TWIN_PARTNER_LOST : Nat := 5
def I_METER_STATE_CHANGE : Nat := 0
def I_METER_ALARM : Nat := 1
def I_METER_PROOF_NEW : Nat := 2
def I_METER_FOLD : Nat := 3
def I_METER_LINK_LOST : Nat := 4
def I_PWR_TJ_SHUT : Nat := 0
def I_PWR_SENSOR_FAIL : Nat := 1
def I_PWR_WAKE_SLOW : Nat := 2
def I_CLK_REF_LOSS : Nat := 0
def I_CLK_COLD_LOCK : Nat := 1
def I_CLK_LOCK_LOSS : Nat := 2
def I_TMCB_HOLDUP : Nat := 0
def I_TMCB_SHUT_COMMIT : Nat := 1
def I_TMCB_TMC_LOST : Nat := 2
def I_TMCB_HS_TRIP : Nat := 3
def I_TMCB_PRESENCE : Nat := 4
def I_TMCB_PUMP_FAIL : Nat := 5
def I_WARDEN_MBX_DONE : Nat := 0
def I_WARDEN_CONFIG_READY : Nat := 1
def I_WARDEN_CORE_LOCKUP : Nat := 2

/-- The page ranges of Table 2-1: first page, last page. -/
def blockRanges : List (Nat × Nat) :=
  (List.range 16).map (fun p => (p, p)) ++ [(0x10, 0x1F), (0x20, 0x4F), (0x50, 0x7F), (0x80, 0x80), (0x81, 0x81), (0x82, 0x82)]

/-- The class code of a page (Table 2-1), 0 for a reserved page. -/
def classOf (p : Nat) : Nat :=
  if p < 0x10 then p + 1
  else if p < 0x20 then 0x11 else if p < 0x50 then 0x12 else if p < 0x80 then 0x13
  else if p < 0x83 then p - 0x80 + 0x14 else 0

/-- The first page of a page's class. -/
def firstPage (p : Nat) : Nat :=
  if p < 0x10 then p else if p < 0x20 then 0x10 else if p < 0x50 then 0x20 else if p < 0x80 then 0x50 else p

/-- The fields of a block page beyond the common header (the register tables of the owning chapters). -/
def blockFields (p : Nat) : List Field :=
  match firstPage p with
  | 0x00 => bdirFields | 0x01 => identFields | 0x02 => epochFields | 0x03 => evlogFields | 0x04 => pwrFields
  | 0x05 => clkFields | 0x06 => wardenFields | 0x07 => meterFields | 0x08 => twinFields | 0x09 => homeFields
  | 0x0A => dircFields | 0x0B => tenFields | 0x0C => cryptFields | 0x0D => xlatFields | 0x0E => migrFields
  | 0x0F => shapeFields | 0x10 => fportFields | 0x20 => mchFields | 0x50 => rceFields | 0x80 => rdlFields
  | 0x81 => rasFields | 0x82 => tmcbFields | _ => []

/-- The watermark groups of a page: whether each is a low watermark, and its THRESH at reset (Tables 3-10, 5-7, 5-9,
8-13, 9-6, 10-8, 11-9, 11-11, 12-9, 13-9, 15-11, 16-10, 18-8, 19-14). -/
def wmkGroups (p : Nat) : List (Bool × Nat) :=
  match firstPage p with
  | 0x10 => [(false, 100000), (false, 100), (false, 1792)]
  | 0x09 => [(false, 14336), (false, 64)]
  | 0x0A => [(false, 234881024), (false, 100000), (false, 1048576)]
  | 0x0D => [(false, 768), (false, 100000)]
  | 0x0F => [(false, 28672), (false, 12), (false, 48)]
  | 0x20 => [(false, 56), (false, 56), (false, 169)]
  | 0x81 => [(false, 3584), (false, 96), (false, 1000)]
  | 0x03 => [(false, 768)]
  | 0x80 => [(false, 3584)]
  | 0x50 => [(false, 7)]
  | 0x08 => [(false, 3072), (false, 31250)]
  | 0x07 => [(false, 32), (false, 61440)]
  | 0x04 => [(false, 380)]
  | 0x82 => [(false, 200), (true, 4800)]
  | _ => []

/-- The blocks whose CAP_EPOCH reads 1, by the owning chapters' register pages. -/
def capEpoch (p : Nat) : Bool :=
  match firstPage p with
  | 0x00 | 0x01 | 0x02 | 0x03 | 0x06 | 0x07 | 0x0E => false
  | _ => classOf p != 0

/-- The deepest state that Table 18-3 permits a block under any condition (R429): 0 Run, 1 Nap, 2 Doze, 3 Off. -/
def deepestPermitted (p : Nat) : Nat :=
  match firstPage p with
  | 0x03 | 0x04 | 0x05 | 0x82 | 0x07 => 0
  | 0x00 | 0x01 | 0x02 | 0x0F | 0x08 => 1
  | 0x06 | 0x09 | 0x0C | 0x80 | 0x81 | 0x20 => 2
  | _ => 3

/-- The reset values of the eight policies (Table 18-4): NAP_AFTER, DOZE_AFTER, OFF_AFTER. -/
def policyReset (i : Nat) : Nat × Nat × Nat :=
  match i with
  | 1 => (0, 0, 0) | 2 => (64, 0, 0) | 3 => (16, 16, 1563) | _ => (256, 1563, 156250)

/-- The reset value of a field at an instance page and index: the register table's, or where the table refers to the
block, that block's (Tables 18-3 and 18-4, the watermark tables). -/
def resetVal (f : Field) (inst idx : Nat) : Nat :=
  if f.page = 0 && f.off = 0xC && f.lo = 4 then deepestPermitted inst
  else if f.page = 0 && f.off = 0xF00 && f.lo = 0 then ((wmkGroups inst)[idx]?.getD (false, 0)).2
  else if f.page = 4 && f.off = 0x180 then (policyReset idx).1
  else if f.page = 4 && f.off = 0x184 then (policyReset idx).2.1
  else if f.page = 4 && f.off = 0x188 then (policyReset idx).2.2
  else f.rst

/-- The key of a field in the register tables of the state: its window address and lowest bit. -/
def keyOf (f : Field) (inst idx : Nat) : Nat :=
  ((f.page + inst) * 0x1000 + f.off + idx * f.stride) * 64 + f.lo

end Sys2Proof.Machine.Reg
end

