-- ==== Sys2Proof/Machine/Ops.lean ====
section
/-! DEFINITION. The named operations over registers and memory: reading and writing register fields by their access
codes (R14), staging and epochs (R46 to R50), free values, and the DRAM of the stacks as bytes of rows. -/
namespace Sys2Proof.Machine

open Reg

/-! ### Registers -/

/-- Whether a field is epoch-staged. -/
def Field.staged (f : Field) : Bool := f.acc == .rwe || f.acc == .rweL

/-- The value of a field in the open configuration (R46). -/
def State.rd (s : State) (f : Field) (inst : Nat := 0) (idx : Nat := 0) : Nat :=
  Tab.get (if f.staged then s.cfgOpen else s.regs) (keyOf f inst idx) (resetVal f inst idx)

/-- The value of a field as a request stamped `ep` sees it (R19, R50). -/
def State.rdAt (s : State) (ep : Nat) (f : Field) (inst : Nat := 0) (idx : Nat := 0) : Nat :=
  if f.staged && s.commitPending && ep == s.drainEpoch
  then Tab.get s.cfgDrain (keyOf f inst idx) (resetVal f inst idx)
  else s.rd f inst idx

/-- The value of a field as it will stand after the next commit (R48). -/
def State.rdNext (s : State) (f : Field) (inst : Nat := 0) (idx : Nat := 0) : Nat :=
  (Tab.get? s.cfgStaged (keyOf f inst idx)).getD (s.rd f inst idx)

/-- A field set to a value, at once: what hardware does to its own fields, and a write to a field that is not staged. -/
def State.wr (s : State) (f : Field) (v : Nat) (inst : Nat := 0) (idx : Nat := 0) : State :=
  if f.staged then { s with cfgOpen := Tab.set s.cfgOpen (keyOf f inst idx) (v % 2 ^ f.width) }
  else { s with regs := Tab.set s.regs (keyOf f inst idx) (v % 2 ^ f.width) }

/-- A value entered into the staged set (R46). -/
def State.stage (s : State) (f : Field) (v : Nat) (inst : Nat := 0) (idx : Nat := 0) : State :=
  { s with cfgStaged := Tab.set s.cfgStaged (keyOf f inst idx) (v % 2 ^ f.width) }

/-- A counter increased by n, saturating at the largest value of its field (R14). -/
def State.bumpBy (s : State) (f : Field) (n : Nat) (inst : Nat := 0) (idx : Nat := 0) : State :=
  s.wr f (min (2 ^ f.width - 1) (s.rd f inst idx + n)) inst idx

/-- A counter increased by one, saturating. -/
def State.bump (s : State) (f : Field) (inst : Nat := 0) (idx : Nat := 0) : State := s.bumpBy f 1 inst idx

/-- The node's ID (Table 2-8). -/
def State.nid (s : State) : Nat := s.rd IDENT_NID

/-- Whether a page belongs to a block that this part has (R5, R30, R38). -/
def State.present (s : State) (p : Nat) : Bool :=
  if p = 0x08 then s.opts.w
  else if p = 0x0C then s.opts.k
  else if 0x50 ≤ p && p ≤ 0x80 then s.opts.c
  else p < 0x83

/-- The pages of Table 2-1. -/
def allPages : List Nat := List.range 0x83

/-! ### Free values -/

/-- The next free value, and the state with the counter advanced. -/
def State.free (s : State) : BitVec 512 × State := (Config.freeValue s.freeCtr, { s with freeCtr := s.freeCtr + 1 })

/-- A state with one more thing that has left the block. -/
def State.out (s : State) (o : Out) : State := { s with outs := s.outs ++ [o] }

/-! ### The DRAM

A row of a subarray holds 8 KiB in its data mats and 2 KiB in its check mats (R236). The model gives each row a place
of 10,240 bytes in which column c holds the 80 symbols of its line, in the order of R261. Row selectors 512 to 522 are
S0 to S7, ZERO, ONES and the negation row. -/

/-- The memory: bytes of rows, rising, none of them zero; an unlisted byte reads as zero, as training's segment clear
leaves it (R254, R255; assumption 5). -/
abbrev Memory := List Host.Cell

/-- What an unlisted byte of DRAM reads as. -/
def Memory.default : Byte := 0

/-- The canonical form: addresses strictly rising and no entry equal to the default. -/
def Memory.wf : Memory → Bool
  | [] => true
  | [(_, b)] => b != Memory.default
  | (a, b) :: (a', b') :: t => b != Memory.default && decide (a < a') && Memory.wf ((a', b') :: t)

/-- A byte read. -/
def Memory.read : Memory → Nat → Byte
  | [], _ => Memory.default
  | (x, c) :: t, a => if a = x then c else if a < x then Memory.default else Memory.read t a

/-- A byte written. -/
def Memory.write : Memory → Nat → Byte → Memory
  | [], a, b => if b = Memory.default then [] else [(a, b)]
  | (x, c) :: t, a, b =>
    if a < x then (if b = Memory.default then (x, c) :: t else (a, b) :: (x, c) :: t)
    else if a = x then (if b = Memory.default then t else (a, b) :: t)
    else (x, c) :: Memory.write t a b

/-- Consecutive bytes read. -/
def Memory.readN (m : Memory) (a n : Nat) : List Byte := (List.range n).map (fun i => m.read (a + i))

/-- Consecutive bytes written. -/
def Memory.writeN (m : Memory) (a : Nat) : List Byte → Memory
  | [] => m
  | b :: t => Memory.writeN (m.write a b) (a + 1) t

/-- The listed bytes of a range. -/
def Memory.cells (m : Memory) (a n : Nat) : Memory := m.filter (fun c => decide (a ≤ c.1) && decide (c.1 < a + n))

/-- A range set to zero. -/
def Memory.clear (m : Memory) (a n : Nat) : Memory := m.filter (fun c => !(decide (a ≤ c.1) && decide (c.1 < a + n)))

/-- Bytes of a row. -/
def rowBytes : Nat := 10240

/-- The selectors of the constant and negation rows (R247), as row numbers of the model. -/
def rowZero : Nat := 520
def rowOnes : Nat := 521
def rowNeg : Nat := 522

/-- The first byte of a row: queue, bank, subarray, row selector. -/
def rowAddr (q bank sa vr : Nat) : Nat := (((q * 16 + bank) * 512 + sa) * 523 + vr) * rowBytes

/-- The first byte of a line of a data row given as the 18-bit row of R237. -/
def lineAddr (q bank row col : Nat) : Nat := rowAddr q bank (row / 512) (row % 512) + col * 80

/-- The contents of a row, as listed cells at offsets within the row; the constant row ONES lists every byte. -/
def rowCells (m : Memory) (q bank sa vr : Nat) : Memory :=
  if vr = rowZero then []
  else if vr = rowOnes then (List.range rowBytes).map (fun i => (i, 0xFF))
  else (m.cells (rowAddr q bank sa vr) rowBytes).map (fun c => (c.1 - rowAddr q bank sa vr, c.2))

/-- A row given contents; the constant rows keep theirs (R247). -/
def rowPut (m : Memory) (q bank sa vr : Nat) (r : Memory) : Memory :=
  if vr = rowZero || vr = rowOnes then m
  else r.foldl (fun a c => a.write (rowAddr q bank sa vr + c.1) c.2) (m.clear (rowAddr q bank sa vr) rowBytes)

/-- The complement of a row. -/
def rowNot (r : Memory) : Memory :=
  (List.range rowBytes).filterMap (fun i => let b := ~~~ (Memory.read r i); if b = 0 then none else some (i, b))

/-- The bitwise majority of three bytes. -/
def maj3 (a b c : Byte) : Byte := (a &&& b) ||| (a &&& c) ||| (b &&& c)

/-- The bitwise majority of three rows (VTRA, R247). -/
def rowMaj (a b c : Memory) : Memory :=
  (List.range rowBytes).filterMap (fun i =>
    let v := maj3 (Memory.read a i) (Memory.read b i) (Memory.read c i); if v = 0 then none else some (i, v))

end Sys2Proof.Machine
end

