-- ==== Sys2Proof/Machine/Operands.lean ====
section
/-! DEFINITION. The operand forms of messages: the fields of the four header formats (Tables 4-1 to 4-4, 8-5, 8-10),
the headers the node builds, and the slots of a message (R66, R93). -/
namespace Sys2Proof.Machine

/-- Message classes (Table 3-3). -/
def clsReq : Nat := 0
def clsSnp : Nat := 1
def clsRsp : Nat := 2
def clsSys : Nat := 3

/-- Status codes (Table 4-8). -/
def stOK : Nat := 0x0
def stPoison : Nat := 0x1
def stUE : Nat := 0x2
def stNomap : Nat := 0x3
def stDenied : Nat := 0x4
def stTntOff : Nat := 0x5
def stFenced : Nat := 0x6
def stBusy : Nat := 0x7
def stAborted : Nat := 0x8
def stAlready : Nat := 0x9
def stNounit : Nat := 0xA
def stRefused : Nat := 0xB

/-- The NEXT_NID that names no node (R109). -/
def nidNone : Nat := 0x1FF

end Sys2Proof.Machine

namespace Sys2Proof

open Machine

/-- A field of a message header. -/
def Msg.f (m : Msg) (lo w : Nat) : Nat := bits m.hdr.toNat lo w

/-- The opcode, in every format. -/
def Msg.opc (m : Msg) : Nat := m.f 0 8

/-! Requests (Table 4-1). -/
def Msg.rqSrc (m : Msg) : Nat := m.f 8 12
def Msg.rqTid (m : Msg) : Nat := m.f 20 8
def Msg.rqTxid (m : Msg) : Nat := m.f 28 11
def Msg.rqJob (m : Msg) : Nat := m.f 39 20
def Msg.rqAddr (m : Msg) : Nat := m.f 59 46
def Msg.rqDnid (m : Msg) : Nat := m.f 105 9
def Msg.rqAs (m : Msg) : Bool := bit m.hdr.toNat 114
def Msg.rqPsn (m : Msg) : Bool := bit m.hdr.toNat 115
def Msg.rqHalf (m : Msg) : Bool := bit m.hdr.toNat 116
def Msg.rqInc (m : Msg) : Nat := m.f 117 3

/-! Responses (Table 4-2). -/
def Msg.rsDst (m : Msg) : Nat := m.f 8 12
def Msg.rsDnode (m : Msg) : Bool := bit m.hdr.toNat 20
def Msg.rsTxid (m : Msg) : Nat := m.f 21 11
def Msg.rsStatus (m : Msg) : Nat := m.f 32 4
def Msg.rsLoad (m : Msg) : Nat := m.f 36 4
def Msg.rsRspr (m : Msg) : Nat := m.f 40 12
def Msg.rsRnode (m : Msg) : Bool := bit m.hdr.toNat 52
def Msg.rsGrant (m : Msg) : Nat := m.f 53 2
def Msg.rsAddr (m : Msg) : Nat := m.f 55 46

/-! System messages (Table 4-4). -/
def Msg.syTxid (m : Msg) : Nat := m.f 34 11
def Msg.sySrc (m : Msg) : Nat := m.f 8 12
def Msg.sySnode (m : Msg) : Bool := bit m.hdr.toNat 20
def Msg.syDst (m : Msg) : Nat := m.f 21 12
def Msg.syDnode (m : Msg) : Bool := bit m.hdr.toNat 33
def Msg.syOffset (m : Msg) : Nat := m.f 45 24
def Msg.syWdata (m : Msg) : Nat := m.f 69 32
def Msg.syStatus (m : Msg) : Nat := m.f 45 4
def Msg.syRdata (m : Msg) : Nat := m.f 49 32

/-- The NID that a node's message names as its source. -/
def Msg.srcNid (m : Msg) : Nat := m.f 8 9

/-- The data slots of a message as one number, first slot lowest: the bytes in slot order. -/
def Msg.payload (m : Msg) : Nat := m.data.foldr (fun s a => s.toNat + 2 ^ 128 * a) 0

/-- Four data slots as a line. -/
def Msg.line (m : Msg) : BitVec 512 := BitVec.ofNat 512 m.payload

/-- The AID that a message names as its source, where it names an agent (R77). -/
def Msg.srcAid (m : Msg) : Option Nat :=
  if m.cls.toNat = clsReq then some m.rqSrc
  else if m.cls.toNat = clsRsp then (if m.rsRnode then none else some m.rsRspr)
  else if m.cls.toNat = clsSys then (if m.sySnode then none else some m.sySrc)
  else none

end Sys2Proof

namespace Sys2Proof.Machine

/-- A line as four data slots. -/
def lineSlots (d : BitVec 512) : List Slot :=
  [BitVec.ofNat 128 d.toNat, BitVec.ofNat 128 (d.toNat / 2 ^ 128), BitVec.ofNat 128 (d.toNat / 2 ^ 256),
   BitVec.ofNat 128 (d.toNat / 2 ^ 384)]

/-- The 64 bytes of a line. -/
def lineBytes (d : BitVec 512) : List Byte := leBytes 64 d.toNat

/-- A line of bytes. -/
def lineOf (l : List Byte) : BitVec 512 := BitVec.ofNat 512 (leNat l)

/-- A message from its class, header fields and data. -/
def mkMsg (cls : Nat) (fields : List (Nat × Nat × Nat)) (data : List Slot := []) : Msg :=
  { cls := BitVec.ofNat 2 cls, hdr := BitVec.ofNat 120 (packBits fields), data := data }

/-- DATA to an agent (Table 4-2). -/
def mkData (dst txid status load nid grant line : Nat) (d : BitVec 512) : Msg :=
  mkMsg clsRsp [(0, 8, 0x40), (8, 12, dst), (21, 11, txid), (32, 4, status), (36, 4, load), (40, 9, nid), (52, 1, 1),
    (53, 2, grant), (55, 46, if grant = 0 then 0 else line)] (lineSlots d)

/-- CMP to an agent (Table 4-2). -/
def mkCmp (dst txid status load nid grant next : Nat) : Msg :=
  mkMsg clsRsp [(0, 8, 0x41), (8, 12, dst), (21, 11, txid), (32, 4, status), (36, 4, load), (40, 9, nid), (52, 1, 1),
    (53, 2, grant), (101, 9, if status = stNomap then next else 0)]

/-- A snoop to an agent (Table 4-3). -/
def mkSnp (opc dst nid rqaid rqtxid status load grant : Nat) (fault : Bool) (line : Nat) : Msg :=
  mkMsg clsSnp [(0, 8, opc), (8, 12, dst), (20, 9, nid), (29, 12, rqaid), (41, 11, rqtxid), (52, 4, status),
    (56, 4, load), (60, 2, grant), (62, 1, b2n fault), (63, 46, line)]

/-- SYS_RSP to the sender of a system message (Table 4-4). -/
def mkSysRsp (dst : Nat) (dnode : Bool) (nid txid status rdata : Nat) : Msg :=
  mkMsg clsSys [(0, 8, 0x82), (8, 9, nid), (20, 1, 1), (21, 12, dst), (33, 1, b2n dnode), (34, 11, txid),
    (45, 4, status), (49, 32, rdata)]

/-- INTR to an agent (Table 4-4). -/
def mkIntr (dst nid : Nat) : Msg :=
  mkMsg clsSys [(0, 8, 0x84), (8, 9, nid), (20, 1, 1), (21, 12, dst), (45, 9, nid)]

/-- A message from this node to another node, with fields above bit 44. -/
def mkNodeMsg (opc nid dst txid : Nat) (fields : List (Nat × Nat × Nat)) (data : List Slot := []) : Msg :=
  mkMsg clsSys ([(0, 8, opc), (8, 9, nid), (20, 1, 1), (21, 9, dst), (33, 1, 1), (34, 11, txid)] ++ fields) data

/-! ### Slots -/

end Sys2Proof.Machine

namespace Sys2Proof

open Machine

/-- A DATA, a CMP or a forward with the load level of the moment at which it leaves (R23, R106). A message whose level a rule fixes
(R357) carries it already. -/
def Msg.withLoad (m : Msg) (load : Nat) : Msg :=
  let lo := if m.cls.toNat = clsRsp then 36 else 56
  if ((m.cls.toNat = clsRsp && (m.opc = 0x40 || m.opc = 0x41)) || (m.cls.toNat = clsSnp && (m.opc = 0x20 || m.opc = 0x21 || m.opc = 0x22))) &&
      m.f lo 4 = 0 then
    { m with hdr := BitVec.ofNat 120 (m.hdr.toNat + load % 16 * 2 ^ lo) }
  else m

/-- Whether a message that an opcode of a class and a peer allow goes between the kinds of ends that Table 4-5 gives it (R94): DATA and
CMP go to an agent, an answer to a snoop comes from an agent and goes to a node, an access to the window comes from an agent, and
every other system message goes to a node; between nodes, both ends are nodes. -/
def Msg.rightEnds (m : Msg) (fromNode : Bool) : Bool :=
  if m.cls.toNat = clsRsp then (if m.opc = 0x40 || m.opc = 0x41 then !m.rsDnode else m.rsDnode && !m.rsRnode)
  else if m.cls.toNat = clsSys then
    if m.opc = 0x82 then m.sySnode
    else if fromNode then m.sySnode && m.syDnode
    else if m.opc = 0x80 || m.opc = 0x81 then m.syDnode && !m.sySnode
    else m.syDnode
  else true

/-- The slots of a message: the header slot (R66) and the data slots. -/
def Msg.slots (m : Msg) : List Slot :=
  BitVec.ofNat 128 (0x80 + m.data.length % 8 * 16 + m.cls.toNat + 256 * m.hdr.toNat) :: m.data

end Sys2Proof

namespace Sys2Proof.Machine

/-- Whether a slot in header position holds a message (R66). -/
def slotValid (s : Slot) : Bool := bit s.toNat 7

/-- DSLOTS of a header slot. -/
def slotD (s : Slot) : Nat := bits s.toNat 4 3

/-- The message that begins with a header slot, with no data yet. -/
def slotMsg (s : Slot) : Msg :=
  { cls := BitVec.ofNat 2 s.toNat, hdr := BitVec.ofNat 120 (s.toNat / 256), data := [] }

/-- The DSLOTS that Table 4-5 and the owning chapters give an opcode that a node may receive in a class, from a peer of
ROLE node or from another peer: the least and the most. Absent: not defined, or not in that direction (R94). -/
def slotsAllowed (cls opc : Nat) (fromNode : Bool) : Option (Nat × Nat) :=
  if cls = clsReq && !fromNode then
    if opc = 0x01 || opc = 0x02 || opc = 0x03 || opc = 0x04 || opc = 0x08 || opc = 0x18 || opc = 0x19 then some (0, 0)
    else if opc = 0x05 || opc = 0x07 then some (4, 4)
    else if opc = 0x06 then some (3, 3)
    else if opc = 0x10 || opc = 0x12 then some (1, 4)
    else if opc = 0x11 || opc = 0x13 then some (1, 1)
    else none
  else if cls = clsRsp then
    if opc = 0x40 then some (4, 4)
    else if opc = 0x41 then some (0, 0)
    else if opc = 0x42 && !fromNode then some (0, 0)
    else if opc = 0x43 && !fromNode then some (4, 4)
    else none
  else if cls = clsSys then
    if fromNode then
      if opc = 0x82 then some (0, 0)
      else if opc = 0xA0 then some (1, 1)
      else if opc = 0xA1 then some (4, 4)
      else if opc = 0xA2 || opc = 0xA3 then some (0, 0)
      else if opc = 0x90 then some (4, 4)
      else if opc = 0x91 then some (2, 2)
      else if opc = 0x93 then some (4, 4)
      else if opc = 0x92 || opc = 0x94 || opc = 0x95 || (0x98 ≤ opc && opc ≤ 0x9C) then some (0, 0)
      else none
    else if opc = 0x80 || opc = 0x81 || opc = 0x88 || opc = 0x89 then some (0, 0)
    else none
  else none

end Sys2Proof.Machine
end

