-- ==== Sys2Proof/Machine/Link.lean ====
section
/-! DEFINITION. The transmit side of the fabric ports: flits, sequence numbers and the replay buffer, credits, tag groups
(R64 to R75), the choice of a port for an agent (R493), and the counting of slots to jobs (R27). -/
namespace Sys2Proof.Machine

open Reg

/-! ### Counting (R27, Table 16-4) -/

/-- The job that costs of a tenant and JOB count to: the job while it holds an open or closing place, else JOB 0
(R102, R104). -/
def State.costJob (s : State) (tid job : Nat) : Nat :=
  if s.jobs.any (fun j => j.tid == tid && j.job == job && j.state < 2) then job else 0

/-- The job that a request admitted now counts to: its JOB while it is open and not closing, else JOB 0 (R102, R104). -/
def State.openJob (s : State) (tid job : Nat) : Nat :=
  if s.jobs.any (fun j => j.tid == tid && j.job == job && j.state == 0) then job else 0

/-- n events of a count class added to the running interval. -/
def State.count (s : State) (cls tid job n : Nat) : State :=
  let k := tid * 2 ^ 20 + s.costJob tid job
  let c := Tab.get s.tally k (List.replicate 11 0)
  { s with tally := Tab.set s.tally k (setNth c cls ((c)[cls]?.getD 0 + n)) }

/-! ### Ports -/

/-- A direction of link encryption that is off. -/
def LinkCrypt.off : LinkCrypt := { active := false, keys := [none, none], sel := false, counts := [0, 0], group := [] }

/-- A direction that encrypts no more: its key sets stay, with their counters. -/
def LinkCrypt.idle (c : LinkCrypt) : LinkCrypt := { c with active := false, group := [] }

/-- A port as reset leaves it. -/
def Port.fresh : Port :=
  { train := .down, attempts := 0, recoverAt := 0, lastParams := none, refused := false, mode := 0, module := none,
    txSeq := 1, txAcked := 0, replay := [], txq := [], credits := [0, 0, 0, 0], toReturn := [0, 0, 0, 0],
    rxAck := 0, discarding := false, nakSent := false, nakCount := 0, nakSeen := 0, unackedRx := 0, uncorr := [], keyDue := false,
    rxBuf := [], partialMsg := none, txCrypt := .off, rxCrypt := .off, cxlHeld := [], cxlBi := [], cxlEvents := [],
    hdm := List.replicate 4 (0, 0, 0), cxlRas := false }

/-- A port whose link begins anew: its module, its mode and its key sets stand, and so does what a CXL device keeps for its host. -/
def Port.unlinked (c : Port) : Port :=
  { Port.fresh with
    module := c.module, mode := c.mode, attempts := c.attempts, txCrypt := c.txCrypt.idle,
    rxCrypt := c.rxCrypt.idle, cxlEvents := c.cxlEvents, hdm := c.hdm, cxlRas := c.cxlRas }

def State.port (s : State) (p : Nat) : Port := Tab.get s.ports p Port.fresh
def State.setPort (s : State) (p : Nat) (v : Port) : State := { s with ports := Tab.set s.ports p v }

/-- The state codes of FPORT STATE (Table 3-9). -/
def Train.code : Train → Nat
  | .down => 0
  | .step n => if n ≤ 2 then 1 else if n = 3 then 2 else if n ≤ 5 then 3 else 4
  | .up => 5
  | .recovery _ => 6

def Port.isUp (p : Port) : Bool := p.train == .up
/-- Up or in Recovery: the link keeps its sequence state (R79). -/
def Port.alive (p : Port) : Bool := match p.train with | .up | .recovery _ => true | _ => false

/-- A port in CXL mode. -/
def Port.isCxl (p : Port) : Bool := p.mode == 1

/-- PEER_ROLE codes (Table 3-9). -/
def roleAgent : Nat := 1
def roleSwitch : Nat := 2
def roleNode : Nat := 3

/-! ### Flits -/

/-- The header word of a flit (Table 3-2). -/
def Flit.hdr (f : Flit) : Nat :=
  packBits [(0, 2, f.ftype.toNat), (2, 10, f.seq.toNat), (12, 10, f.ack.toNat), (22, 1, b2n f.nak), (23, 1, b2n f.tag),
    (24, 2, f.crdClass.toNat), (26, 5, f.crdCount.toNat), (31, 1, b2n f.ksel)]

def Flit.hdrBytes (f : Flit) : List Byte := leBytes 4 f.hdr
def Flit.slotBytes (f : Flit) : List Byte := f.slots.flatMap (fun x => leBytes 16 x.toNat)

/-- The 272 bytes of a flit on the wire (Table 3-1). -/
def Flit.wire (f : Flit) : List Byte := flitSeal (f.hdrBytes ++ f.slotBytes)

/-- The flit of 260 checked bytes. -/
def flitOf (b : List Byte) : Flit :=
  let h := leNat (b.take 4)
  { ftype := BitVec.ofNat 2 h, seq := BitVec.ofNat 10 (bits h 2 10), ack := BitVec.ofNat 10 (bits h 12 10),
    nak := bit h 22, tag := bit h 23, crdClass := BitVec.ofNat 2 (bits h 24 2), crdCount := BitVec.ofNat 5 (bits h 26 5),
    ksel := bit h 31, slots := (chunks 16 16 (b.drop 4)).map (fun l => BitVec.ofNat 128 (leNat l)) }

/-- Sixteen slots, filled with empty ones. -/
def fillSlots (l : List Slot) : List Slot := (l ++ List.replicate 16 0).take 16

/-! ### Tag groups (R72) -/

/-- The key set in use. -/
def LinkCrypt.key (c : LinkCrypt) : Option LinkKey := (c.keys[if c.sel then 1 else 0]?).join

/-- The group counter of the key set in use. -/
def LinkCrypt.count (c : LinkCrypt) : Nat := c.counts[if c.sel then 1 else 0]?.getD 0
/-- The next group. -/
def LinkCrypt.step (c : LinkCrypt) : LinkCrypt := { c with group := [], counts := setNth c.counts (if c.sel then 1 else 0) (c.count + 1) }

/-- The nonce of the open group: the salt, then the group counter (R9; assumption 12). -/
def LinkCrypt.nonce (k : LinkKey) (count : Nat) : List Nat := toNats (leBytes 4 k.salt.toNat ++ leBytes 8 count)

/-- Slots of the n-th flit of a group through the key stream. -/
def gcmSlots (k : LinkKey) (count n : Nat) (slots : List Slot) (m : Nat) : List Slot :=
  let sched := aesSchedule (toNats (leBytes 32 k.key.toNat))
  let ks := gcmStream sched (LinkCrypt.nonce k count) (2 + 16 * n) (16 * m)
  (slots.take m).zipWith (fun s b => BitVec.ofNat 128 (s.toNat ^^^ leNat (toBytes b))) (chunks m 16 ks) ++ slots.drop m

/-- The tag over the flits of a group; the closing flit's ciphertext leaves out SLOT15. -/
def groupTag (k : LinkKey) (count : Nat) (fs : List Flit) : Slot :=
  let sched := aesSchedule (toNats (leBytes 32 k.key.toNat))
  let aad := toNats (fs.flatMap Flit.hdrBytes)
  let ct := toNats (fs.flatMap (fun f => if f.tag then f.slotBytes.take 240 else f.slotBytes))
  BitVec.ofNat 128 (leNat (toBytes (gcmTag sched (LinkCrypt.nonce k count) aad ct)))

/-- A flit encrypted as the next of the transmit group, which it closes if `close`. -/
def sealFlit (c : LinkCrypt) (f : Flit) (close : Bool) : Flit × LinkCrypt :=
  match c.active, c.key with
  | true, some k =>
    let body := gcmSlots k c.count c.group.length f.slots (if close then 15 else 16)
    let f1 := { f with ksel := c.sel, tag := close, slots := body }
    let g := c.group ++ [f1]
    if close then
      ({ f1 with slots := setNth f1.slots 15 (groupTag k c.count g) }, c.step)
    else (f1, { c with group := g })
  | _, _ => (f, c)

/-! ### Sending -/

/-- Flit types (Table 3-2). -/
def ftMsg : Nat := 0
def ftIdle : Nat := 1
def ftLctl : Nat := 2

/-- A direction that encrypts and whose key set has been erased. -/
def LinkCrypt.mute (c : LinkCrypt) : Bool := c.active && c.key.isNone

/-- One flit out: the header takes ACK, NAK and the credit of one class, the lowest that has credit to return (DESIGN CHOICE, assumption
120); a sequenced flit takes the next SEQ and enters the replay buffer (R64, R65, R69, R70). A direction that encrypts and whose key set has been
erased sends none (assumption 80). -/
def State.emitFlit (s : State) (p ty : Nat) (slots : List Slot) (close : Bool := false) : State :=
  let c := s.port p
  let seqd := ty != ftIdle
  if seqd && c.txCrypt.mute then s
  else
  let nak := c.discarding && !c.nakSent
  let cls := if seqd then (List.range 4).find? (fun i => c.toReturn[i]?.getD 0 != 0) else none
  let ci := cls.getD 0
  let cn := if cls.isSome then min 31 (c.toReturn[ci]?.getD 0) else 0
  let f0 : Flit := {
    ftype := BitVec.ofNat 2 ty, seq := if seqd then c.txSeq else 0, ack := c.rxAck, nak := nak, tag := false,
    crdClass := BitVec.ofNat 2 ci, crdCount := BitVec.ofNat 5 cn, ksel := c.txCrypt.active && c.txCrypt.sel, slots := fillSlots slots }
  let (f, tc) := if seqd then sealFlit c.txCrypt f0 (close || c.txCrypt.group.length == 7) else (f0, c.txCrypt)
  let c' := { c with
    txSeq := if seqd then c.txSeq + 1 else c.txSeq, replay := if seqd then c.replay ++ [f] else c.replay,
    toReturn := setNth c.toReturn ci (c.toReturn[ci]?.getD 0 - cn), nakSent := c.nakSent || nak,
    nakCount := if nak then c.nakCount + 1 else c.nakCount, unackedRx := 0, txCrypt := tc }
  (s.setPort p c').out (.flit p f)

/-- Whether a message may go now: the link is Up, its class holds credit for its slots, the replay buffer has room, and the key of a
direction that encrypts is there (R67, R70, R72). -/
def Port.maySend (c : Port) (m : Msg) : Bool :=
  c.isUp && !c.txCrypt.mute && decide (1 + m.data.length ≤ c.credits[m.cls.toNat]?.getD 0) && decide (c.replay.length < 512)

/-- LCTL kinds (Table 3-4). -/
def lkParams : Nat := 1
def lkCreditInit : Nat := 2
def lkCredit : Nat := 3
def lkKeySwitch : Nat := 4
def lkRecover : Nat := 5
def lkDown : Nat := 6

/-- SLOT0 of an LCTL flit (Table 3-11). -/
def lctlSlot (kind : Nat) (fields : List (Nat × Nat × Nat)) : Slot := BitVec.ofNat 128 (packBits ((0, 8, kind) :: fields))

/-- The transmitter's switch to its loaded key set, as an LCTL KEY_SWITCH: at step 8, and to the other set on KEY_SWITCH
(R72, R75). -/
def State.sendKeySwitch (s : State) (p : Nat) (toSet : Bool) : State :=
  let s1 := s.emitFlit p ftLctl [lctlSlot lkKeySwitch [(8, 1, b2n toSet)]] true
  let c := s1.port p
  s1.setPort p { c with txCrypt := { c.txCrypt with active := true, sel := toSet, group := [] }, keyDue := false }

/-- Whether a direction holds a key set. -/
def LinkCrypt.loaded (c : LinkCrypt) (set : Bool) : Bool := ((c.keys[if set then 1 else 0]?).join).isSome

/-- A KEY_SWITCH that waited sent as soon as the link is Up and the replay buffer has room (R70, R75, R79). -/
def State.dueKeySwitch (s : State) (p : Nat) : State :=
  let c := s.port p
  if c.keyDue && c.isUp && decide (c.replay.length < 512) then s.sendKeySwitch p (!c.txCrypt.sel) else s

/-- The waiting messages of a port sent as far as credit allows, after a KEY_SWITCH that waits; a message that waits holds back later
ones of its own class only (R67, R68). -/
def State.pump (s : State) (p : Nat) : State :=
  (s.port p).txq.foldl (fun (s : State) x =>
    let c := s.port p
    let m := x.1
    let firstOfClass := (c.txq.find? (fun y => y.1.cls == m.cls)) == some x
    if firstOfClass && c.maySend m then
      let i := m.cls.toNat
      let c' := { c with txq := dropFirst (fun y => y == x) c.txq, credits := setNth c.credits i (c.credits[i]?.getD 0 - (1 + m.data.length)) }
      (s.setPort p c').emitFlit p ftMsg (m.withLoad s.shape.load).slots
    else s) (s.dueKeySwitch p)

/-- A message handed to a port's transmitter; a final response keeps its request outstanding until it leaves (R215). A port that is
neither Up nor in Recovery discards it, and counts a response in RSP_DROP (R82). The slots count to the TID and JOB of their
cause (R27). -/
def State.send (s : State) (p : Nat) (m : Msg) (tid job : Nat) (tag : Option RspTag := none) : State :=
  let c := s.port p
  if c.alive then
    ((s.setPort p { c with txq := c.txq ++ [(m, tag)] }).count 0 tid job (1 + m.data.length)).pump p
  else if m.cls.toNat = clsRsp then s.bump FPORT_RSP_DROP p
  else s

/-- Whether an AID lies in a port's range (R77); a CXL port's range is its CXL_AID. -/
def State.inRange (s : State) (p aid : Nat) : Bool :=
  if (s.port p).isCxl then aid == s.rd FPORT_CXL_AID p
  else s.rd FPORT_AID_FIRST p ≤ aid && aid ≤ s.rd FPORT_AID_LAST p

/-- The port through which the node addresses an AID: the lowest-numbered port that is Up or in Recovery and holds the
AID, else the lowest-numbered that holds it (R493). -/
def State.portOf (s : State) (aid : Nat) : Option Nat :=
  match (List.range 16).find? (fun p => (s.port p).alive && s.inRange p aid) with
  | some p => some p
  | none => (List.range 16).find? (fun p => s.inRange p aid)

/-- An entry of the agent table. -/
def State.agent (s : State) (aid : Nat) : Agent := Tab.get s.agents aid { state := 0, inc := 0, fencedAt := 0 }

/-- Agent STATE codes (Table 5-10). -/
def agAbsent : Nat := 0
def agLive : Nat := 1
def agFenced : Nat := 2
def agScanning : Nat := 3

def State.live (s : State) (aid : Nat) : Bool := (s.agent aid).state == agLive

/-- Whether an AID is the host of a CXL link of this node: the port that carries it. -/
def State.cxlPort (s : State) (aid : Nat) : Option Nat :=
  (List.range 16).find? (fun p => (s.port p).isCxl && s.rd FPORT_CXL_AID p == aid)

/-- LOAD mapped to DevLoad (Table 4-7): 0 light, 1 optimal, 2 moderate, 3 severe. -/
def devLoad (load : Nat) : Nat := if load ≤ 5 then 0 else if load ≤ 9 then 1 else if load ≤ 12 then 2 else 3

/-- A message to an agent that is not an answer to its own system message: discarded while the agent is not Live, an
RSP-class one counted in RSP_DROP (R152). -/
def State.sendAgent (s : State) (aid : Nat) (m : Msg) (tid job : Nat) : State :=
  match s.portOf aid with
  | none => s
  | some p =>
    if s.live aid then s.send p m tid job
    else if m.cls.toNat = clsRsp then s.bump FPORT_RSP_DROP p
    else s

/-- An answer to a system message: it is sent whatever the agent's STATE (R152), counted to TID 0 and JOB 0 (R105). -/
def State.sysAnswer (s : State) (p : Nat) (m : Msg) (status rdata : Nat) : State :=
  s.send p (mkSysRsp m.sySrc m.sySnode s.nid m.syTxid status (if status = stOK then rdata else 0)) 0 0

end Sys2Proof.Machine
end

