-- ==== Sys2Proof/Machine/Flags.lean ====
section
/-! DEFINITION. The flags of a block page: interrupt causes and their delivery (R35, R40), ERR_SUMMARY (R11, R15, R35),
watermarks (R43 to R45), Crumbs (R281 to R285) and policy overrides (R59). -/
namespace Sys2Proof.Machine

open Reg

/-! ### Interrupts -/

/-- A block's summary: INT_STAT AND INT_EN is not zero. -/
def State.summary (s : State) (page : Nat) : Bool :=
  s.present page && (s.rd H_INT_STAT page &&& s.rd H_INT_EN page) != 0

/-- The node summary: the OR of the block summaries. -/
def State.nodeSummary (s : State) : Bool := allPages.any s.summary

/-- An interrupt delivered to the agent of INT_ROUTE: INTR, or MSI-X vector 0 on a CXL link (R40, R90). -/
def State.intrAgent (s : State) : State :=
  let a := s.rd BDIR_AGENT
  match s.cxlPort a with
  | some p => if s.live a then s.out (.msix p 0) else s
  | none => s.sendAgent a (mkIntr a s.nid) 0 0

/-- One interrupt to each destination that INT_ROUTE enables (R40). -/
def State.deliver (s : State) : State :=
  let s1 := if s.rd BDIR_TO_WARDEN = 1 then s.out .warden else s
  if s.rd BDIR_TO_AGENT = 1 then s1.intrAgent else s1

/-- The state after a change, with an interrupt if the node summary rose (R40). -/
def State.edge (before after : State) : State :=
  if !before.nodeSummary && after.nodeSummary then after.deliver else after

/-- A cause of a block's INT_STAT set. -/
def State.raise (s : State) (page cause : Nat) : State :=
  s.edge (s.wr H_INT_STAT (s.rd H_INT_STAT page ||| 2 ^ cause) page)

/-- Bits of INT_STAT common to all blocks. -/
def iERR : Nat := 31
def iWMK : Nat := 30
def iPOL : Nat := 29

/-! ### ERR_SUMMARY -/

/-- A discarded write recorded as CFG_ERR with the place of the first one (R11, Table 2-3). `wpage` is the table-window
page, or 0 for the block's own page. -/
def State.cfgErr (s : State) (page wpage off : Nat) : State :=
  let s1 := if s.rd H_CFG_ERR page = 0 then (s.wr H_FIRST_WPAGE wpage page).wr H_FIRST_OFFSET off page else s
  (s1.wr H_CFG_ERR 1 page).raise page iERR

/-- A write that would have changed a locked field (R15). -/
def State.lockViol (s : State) (page : Nat) : State := (s.wr H_LOCK_VIOL 1 page).raise page iERR

/-- An internal error of a block; `stops` says whether it stopped (Table 2-3). -/
def State.internalErr (s : State) (page : Nat) (stops : Bool) : State :=
  let s1 := if stops then s.wr H_COND 2 page else s
  (s1.wr H_INTERNAL 1 page).raise page iERR

/-! ### Watermarks -/

/-- Whether a value is beyond the threshold of a group in force. -/
def State.wmkBeyond (s : State) (page g : Nat) (v : Int) : Bool :=
  let t : Int := s.rd WMK_THRESH page g
  if ((wmkGroups page)[g]?.getD (false, 0)).1 then decide (v < t) else decide (v > t)

/-- Whether a group measures a temperature or a voltage that a report brings: its first sample is the first report. Every other group
counts what the block holds, which is nothing right after reset, in the first cycle that samples it (R45). -/
def wmkReported (page g : Nat) : Bool :=
  (firstPage page == 0x20 && g == 2) || firstPage page == 0x04 || firstPage page == 0x82

/-- What a group showed at its latest sample, none before the first. -/
def State.wmkLast (s : State) (page g : Nat) : Option Wmk :=
  match Tab.get? s.wmk (page * 16 + g) with
  | some w => some w
  | none => if wmkReported page g then none else some { now := 0, beyond := false }

/-- One sample of a measured value (R43 to R45): the first after reset sets the state only; a change to beyond is a
crossing; EXTREME follows the maximum, or the minimum of a low watermark. -/
def State.sample (s : State) (page g : Nat) (v : Int) : State :=
  let beyond := s.wmkBeyond page g v
  let low := ((wmkGroups page)[g]?.getD (false, 0)).1
  let k := page * 16 + g
  let old := s.wmkLast page g
  let ext : Int := sgn 32 (s.rd WMK_EXTREME page g)
  let ext' := if old.isNone then v else if low then min ext v else max ext v
  let s1 := { s with wmk := Tab.set s.wmk k { now := v, beyond := beyond } }.wr WMK_EXTREME (unsgn 32 ext') page g
  match old with
  | some w =>
    if beyond && !w.beyond then
      ((s1.wr WMK_CROSSED 1 page g).bump WMK_COUNT_ page g).raise page iWMK
    else s1
  | none => s1

/-- n events counted in the running 1 ms window of a group. -/
def State.winAdd (s : State) (page g n : Nat) : State :=
  { s with wins := Tab.set s.wins (page * 16 + g) (Tab.get s.wins (page * 16 + g) 0 + n) }

/-- The groups that measure events of a 1 ms window, as page × 16 + group: translation cache misses, capacity recalls, and each port's
corrected symbols and replays. -/
def winGroups : List Nat :=
  [0x0D * 16 + 1, 0x0A * 16 + 1] ++ (List.range 16).flatMap (fun p => [(0x10 + p) * 16, (0x10 + p) * 16 + 1])

/-- The windows at their end: each counted value is sampled, also one of no events, and its count begins again. A group that never
counted an event stays at its idle sample. -/
def State.winClose (s : State) : State :=
  winGroups.foldl (fun (s : State) k =>
    if (Tab.get? s.wins k).isSome || (Tab.get? s.wmk k).isSome then
      { s.sample (k / 16) (k % 16) (Tab.get s.wins k 0 : Nat) with wins := Tab.erase s.wins k }
    else s) s

/-- Every group judged again against the thresholds in force, as after a commit (R43). -/
def State.resample (s : State) : State :=
  s.wmk.foldl (fun s p => s.sample (p.1 / 16) (p.1 % 16) p.2.now) s

/-! ### Waking blocks (R431, R432) -/

/-- Wake hints to blocks: those not in Run begin to return to it. -/
def State.hint (s : State) (pages : List Nat) : State :=
  { s with
    waking := s.waking ++ pages.filter (fun p => s.rd H_PWR_NOW p != 0 && !s.waking.contains p),
    lastUse := pages.foldl (fun t p => Tab.set t p s.ao) s.lastUse }

/-- Whether a page belongs to a block of the mc domain, or of the fc domain (Table 1-1). -/
def onMc (p : Nat) : Bool := (0x20 ≤ p && p < 0x82)
def onFc (p : Nat) : Bool := p < 0x20 && p != 0x04 && p != 0x05

/-- The PLL states of Table 18-1. -/
def pllRunning : Nat := 0
def pllParked : Nat := 1
def pllStarting : Nat := 2
def pllCold : Nat := 3

/-- The first wake of a block of a parked domain begins a fast start (R425). -/
def State.unpark (s : State) (p : Nat) : State :=
  let s1 := if onFc p && s.rd CLK_FC_STATE = pllParked then s.wr CLK_FC_STATE pllStarting else s
  if onMc p && s1.rd CLK_MC_STATE = pllParked then s1.wr CLK_MC_STATE pllStarting else s1

/-- A block put into a power state, with the residency of the state it leaves and, on return to Run, a wake counted (Table
18-7). -/
def State.setPwr (s : State) (p st : Nat) : State :=
  let old := s.rd H_PWR_NOW p
  let w := s.pwr
  let k := p * 4 + old
  let w1 : Pwr := { w with
    res := Tab.set w.res k (Tab.get w.res k 0 + (s.ao - Tab.get w.since p 0)), since := Tab.set w.since p s.ao,
    wakes := if st = 0 then Tab.set w.wakes p (min 0xFFFFFFFF (Tab.get w.wakes p 0 + 1)) else w.wakes }
  let s1 := { s with pwr := w1 }.wr H_PWR_NOW st p
  if st = 0 then s1.unpark p else s1

/-- Blocks that do work: they are in Run, since work waits for the wake and power states add latency only (R431, R434). -/
def State.use (s : State) (pages : List Nat) : State :=
  let s1 := pages.foldl (fun (s : State) p => if s.rd H_PWR_NOW p = 0 then s else s.setPwr p 0) s
  { s1 with
    waking := s1.waking.filter (fun p => !pages.contains p), lastUse := pages.foldl (fun t p => Tab.set t p s.ao) s1.lastUse }

/-- Whether a page's block cannot act: it has stopped on a fault (Table 2-3), or the node has no power. -/
def State.stopped (s : State) (p : Nat) : Bool := s.rd H_COND p == 2 || !s.tmc.nodeRails

/-- What a block does with an event: nothing while it is stopped, or when this part does not have it. -/
def State.onBlk (s : State) (p : Nat) (k : Host.Outcome State Fault Refusal) : Host.Outcome State Fault Refusal :=
  if s.stopped p || !s.present p then .next s else k

/-! ### Crumbs -/

/-- Places of the EVLOG ring. -/
def evPlaces : Nat := 1024

def pgEVLOG : Nat := 0x03

/-- A Crumb that takes the next SEQ and is stored in the ring (R282, R284). -/
def State.crumbStore (s : State) (page code sev : Nat) (payload : List Nat) : State :=
  let e := s.evlog
  let w0 := packBits [(0, 12, code), (12, 4, sev), (16, 8, page), (24, 8, s.openEpoch)]
  let rec4 := [w0, e.seq, s.ao % 2 ^ 32, s.ao / 2 ^ 32] ++ (payload ++ [0, 0, 0, 0]).take 4
  let e' := { e with
    ring := (e.ring.filter (fun c => c.1 != e.head)) ++ [(e.head, rec4)], head := (e.head + 1) % evPlaces,
    used := e.used + 1, seq := (e.seq + 1) % 2 ^ 32 }
  let s1 := { s with evlog := e' }.sample pgEVLOG 0 (e.used + 1)
  if s.rd EVLOG_INT_SEV ≤ sev then s1.raise pgEVLOG I_EVLOG_NEW else s1

/-- A Crumb offered by a block (R282): with fewer than 64 places free only SEV 2 and 3 are stored; a Crumb that is not
stored is lost (R285). -/
def State.crumb (s : State) (page code sev : Nat) (payload : List Nat) : State :=
  let e := s.evlog
  let free := evPlaces - e.used
  if free = 0 || (free < 64 && sev < 2) then
    let e' := { e with seq := (e.seq + 1) % 2 ^ 32, lost := e.lost + 1, first := some (e.first.getD e.seq) }
    ({ s with evlog := e' }.bump EVLOG_LOST).raise pgEVLOG I_EVLOG_LOST
  else s.crumbStore page code sev payload

/-- Places of the ring freed by moving TAIL n places on (R284), and the EVLOG_LOST Crumb once 64 places are free again
after losses (R285). -/
def State.evlogFree (s : State) (n : Nat) : State :=
  let e := s.evlog
  let gone := (List.range n).map (fun i => (e.tail + i) % evPlaces)
  let e' := { e with ring := e.ring.filter (fun c => !gone.contains c.1), tail := (e.tail + n) % evPlaces, used := e.used - n }
  let s1 := { s with evlog := e' }.sample pgEVLOG 0 (e.used - n : Nat)
  if e.lost > 0 && evPlaces - e'.used ≥ 64 then
    { s1 with evlog := { s1.evlog with lost := 0, first := none } }.crumbStore pgEVLOG 0x003 2 [e.lost, e.first.getD 0]
  else s1

/-! ### Policy overrides -/

/-- The start or the end of a hardware floor's override of software policy (R59): floor 0 refresh, 1 scrub, 2 thermal. -/
def State.policyOvr (s : State) (page floor : Nat) (start : Bool) (policy enforced : Nat) : State :=
  (((s.wr H_POLICY_OVR 1 page).raise page iERR).raise page iPOL).crumb page 0x001 1
    [b2n start + floor * 256, policy, enforced]

end Sys2Proof.Machine
end

