-- ==== Sys2Proof/Machine/Path.lean ====
section
/-! DEFINITION. The request path between the blocks: the address hash (R237), regions of an epoch, places and counts of
requests (R215), final responses (R95 to R100, Table 3-6), entries handed to the sub-channel queues (R240), the Twin
channel's sending side (R360, R362), and the key that HOME selects (R179, R185). -/
namespace Sys2Proof.Machine

open Reg

/-! ### Addresses -/

/-- Lines of a row group. -/
def groupLines : Nat := 12288

/-- The place of a line (R237): queue, bank, 18-bit row, column. -/
def hashLine (la : Nat) : Nat × Nat × Nat × Nat :=
  let g := la / groupLines
  let i := la % groupLines
  let c := i / 96
  ((i + c + g) % 96, g % 16, g / 16 % 2 ^ 18, c)

/-- The line address that a place holds: the inverse of the hash. -/
def unhashLine (q bank row col : Nat) : Nat :=
  let g := row * 16 + bank
  let i := (q + 96 * 1000000 - (col + g) % 96) % 96
  g * groupLines + col * 96 + i

/-- The segment of a line (R238). -/
def segOf (la : Nat) : Nat := la / groupLines / 2 ^ 13

/-- The home node and the node offset of a PGA: bits [51:43] and [42:0]. -/
def pgaNid (pga : Nat) : Nat := bits pga 43 9
def pgaOff (pga : Nat) : Nat := pga % 2 ^ 43
def mkPga (nid off : Nat) : Nat := nid % 512 * 2 ^ 43 + off % 2 ^ 43

/-- The first node offset of the directory store (R124). -/
def storeBase : Nat := 0x2FE00000000

/-- The set and the tag of a line (R125). -/
def dirSet (la : Nat) : Nat := bits la 0 25 ^^^ bits la 25 12
def dirTag (la : Nat) : Nat := bits la 25 12

/-! ### Regions -/

/-- The regions with VALID 1 in a configuration. -/
def validRegions (cfg : Tab Nat) : List Nat :=
  cfg.filterMap (fun p =>
    let k := p.1
    let base := keyOf TEN_R_VALID 0 0
    if base ≤ k && k < base + 4096 * 0x20 * 64 && (k - base) % (0x20 * 64) = 0 && p.2 = 1 then some ((k - base) / (0x20 * 64)) else none)

/-- The configuration that a request stamped `ep` sees (R19). -/
def State.cfg (s : State) (ep : Nat) : Tab Nat := if s.commitPending && ep == s.drainEpoch then s.cfgDrain else s.cfgOpen

/-- A field of a region entry in the configuration of an epoch. -/
def State.rgn (s : State) (ep : Nat) (f : Field) (n : Nat) : Nat := s.rdAt ep f 0 n

/-- Whether region n covers a node offset in an epoch (Table 7-2). -/
def State.covers (s : State) (ep n off : Nat) : Bool :=
  let u := off / 0x10000000
  s.rgn ep TEN_R_VALID n = 1 && s.rgn ep TEN_R_BASE n ≤ u && u < s.rgn ep TEN_R_BASE n + s.rgn ep TEN_R_SIZE n

/-- The valid region of a node offset in an epoch. -/
def State.regionOf (s : State) (ep off : Nat) : Option Nat := (validRegions (s.cfg ep)).find? (fun n => s.covers ep n off)

/-- Whether a region's attribute bit is 1 in an epoch. -/
def State.attr (s : State) (ep : Nat) (f : Field) (n : Nat) : Bool := s.rgn ep f n == 1

/-- Whether a segment belongs to a Compute region in an epoch (R239, R265). -/
def State.computeSeg (s : State) (ep seg : Nat) : Bool :=
  (validRegions (s.cfg ep)).any (fun n => s.attr ep TEN_R_LAYOUT n &&
    s.rgn ep TEN_R_BASE n ≤ 24 * seg && 24 * seg < s.rgn ep TEN_R_BASE n + s.rgn ep TEN_R_SIZE n)

/-! ### Requests -/

/-- A request with nothing found out yet. -/
def Req.blank : Req :=
  { id := 0, op := .rdS, port := 0, intern := false, cxl := false, aid := 0, incLo := 0, tid := 0, txid := 0, job := 0,
    addr := 0, dnid := 0, as1 := false, psn := false, half := false, be := 0, data := 0, dslots := [], place := .queued,
    passes := 0, epoch := 0, pga := 0, off := 0, region := 0, order := 0, key := none, mid := 0, gen := 0,
    admInc := none, grant := 0, gate := none, wait := 0, val := 0, adm := 0 }

def State.req (s : State) (rid : Nat) : Option Req := s.reqs.find? (fun r => r.id == rid)
def State.updReq (s : State) (rid : Nat) (f : Req → Req) : State := { s with reqs := updFirst (fun r => r.id == rid) f s.reqs }
def State.dropReq (s : State) (rid : Nat) : State := { s with reqs := s.reqs.filter (fun r => r.id != rid) }

/-- The line of a request. -/
def Req.la (r : Req) : Nat := r.off / 64

/-- Whether a request has left SHAPE (R213). -/
def Req.admitted (r : Req) : Bool := match r.place with | .bypass | .queued => false | _ => true

/-- Whether a request stands at HOME or below it. -/
def Req.atHome (r : Req) : Bool := match r.place with
  | .home | .tracked | .waitWay | .waitTrk | .memRead | .memWrite | .mirror => true
  | _ => false

/-- Whether a tenant is enabled in the open epoch; TID 0 always is (R164). -/
def State.enabled (s : State) (tid : Nat) : Bool := tid == 0 || s.rd TEN_T_ENABLE 0 tid == 1

/-- The requests whose final response waits in a transmitter, by arrival port (R215). -/
def State.leaving (s : State) (p : Nat) : List RspTag := (s.port p).txq.filterMap (fun x => x.2)
def State.leavings (s : State) : List RspTag := s.ports.flatMap (fun p => p.2.txq.filterMap (fun x => x.2))

/-- Requests outstanding on the node, from a port, of an agent: those that SHAPE admitted, until their final response leaves the node
(R215, R231). The work that HOME and XLAT make for themselves is not among them (R161). -/
def State.outNode (s : State) : Nat := (s.reqs.filter (fun r => r.adm != 0)).length + s.leavings.length
def State.outPort (s : State) (p : Nat) : Nat :=
  (s.reqs.filter (fun r => r.adm != 0 && !r.intern && r.port == p)).length + (s.leaving p).length
def State.outAgent (s : State) (a : Nat) : Nat :=
  (s.reqs.filter (fun r => r.adm != 0 && !r.intern && r.aid == a)).length + (s.leavings.filter (fun t => t.aid == a)).length
def State.outTenant (s : State) (t : Nat) : Nat :=
  (s.reqs.filter (fun r => r.adm != 0 && r.tid == t)).length + (s.leavings.filter (fun x => x.tid == t)).length

/-- Whether a request's agent is the Live incarnation it names (R108). -/
def State.incOk (s : State) (r : Req) : Bool := s.live r.aid && (s.agent r.aid).inc % 8 == r.incLo

/-- A number of arrival, and the state with the next one. -/
def State.nextOrd (s : State) : Nat × State := (s.nextOrder, { s with nextOrder := s.nextOrder + 1 })

/-- Whether a request or Bake has left the node, its final response included (R104, R199, R215). -/
def State.hasLeft (s : State) (id : Nat) : Bool :=
  (s.req id).isNone && !s.bakes.any (fun b => b.id == id) && !s.leavings.any (fun t => t.id == id)

/-- What a close waits for: the requests of the job that were admitted before it, and the job's Bakes (R104). -/
def State.jobWaits (s : State) (tid job adm : Nat) : List Nat :=
  ((s.reqs.filter (fun r => r.adm != 0 && decide (r.adm < adm) && r.tid == tid && r.job == job)).map (·.id)) ++
    ((s.bakes.filter (fun b => b.tid == tid && b.job == job)).map (·.id))

/-- The close of an open job begins with the admission of its JOB_CLOSE: from then on its JOB counts to JOB 0 (R104). -/
def State.beginClose (s : State) (tid job rid adm : Nat) : State :=
  { s with jobs := s.jobs.map (fun (j : JobRec) =>
      if j.tid == tid && j.job == job && j.state == 0 then { j with state := 1, closer := some rid, waits := s.jobWaits tid job adm } else j) }

/-- Pages of the blocks on the path. -/
def pgTWIN : Nat := 0x08
def pgHOME : Nat := 0x09
def pgDIRC : Nat := 0x0A
def pgTEN : Nat := 0x0B
def pgCRYPT : Nat := 0x0C
def pgXLAT : Nat := 0x0D
def pgMIGR : Nat := 0x0E
def pgSHAPE : Nat := 0x0F
def pgFPORT (p : Nat) : Nat := 0x10 + p
def pgMCH (n : Nat) : Nat := 0x20 + n
def pgRCE (n : Nat) : Nat := 0x50 + n
def pgRDL : Nat := 0x80
def pgRAS : Nat := 0x81
def pgTMCB : Nat := 0x82
def pgPWR : Nat := 0x04
def pgCLK : Nat := 0x05
def pgWARDEN : Nat := 0x06
def pgMETER : Nat := 0x07
def pgEPOCH : Nat := 0x02

/-- The counts that follow the number of outstanding requests, sampled (Tables 3-10 and 9-6). -/
def State.sampleOut (s : State) (r : Req) : State :=
  let s1 := s.sample pgSHAPE 0 s.outNode
  if r.intern then s1 else s1.sample (pgFPORT r.port) 2 (s.outPort r.port)

/-! ### Final responses -/

/-- Whether a request's answer on CXL.mem is a data response (Table 3-6, Table 4-9). -/
def Op.reads : Op → Bool
  | .rdS | .rdOwn | .rdCur => true
  | _ => false

/-- The message on a CXL link that a status and a grant make (Tables 3-6, 4-7 and 4-9). A failed request is answered
with zero data and poison, or a completion, and leaves an event record and a Crumb, whose code the manual does not give:
it is a free value (assumption 13). `load` is the level that DevLoad shows (R106). -/
def State.cxlAnswer (s : State) (r : Req) (status grant : Nat) (data : Option (BitVec 512)) (load : Nat) : State :=
  let dl := devLoad load
  let cmp := if grant = 1 then 1 else if grant = 0 then 0 else 2
  if (status = stOK || status = stPoison) && (data.isSome || !r.op.reads) then
    match data with
    | some d => s.out (.cxlRsp r.port r.txid 1 cmp dl (status == stPoison) d)
    | none => s.out (.cxlRsp r.port r.txid 0 cmp dl false 0)
  else
    let (v, s1) := s.free
    let c := s1.port r.port
    let s2 := (s1.setPort r.port { c with cxlEvents := c.cxlEvents ++ [(status, r.off)] }).out (.msix r.port 1)
    let s3 := s2.crumb (pgFPORT r.port) (bits v.toNat 0 12) (bits v.toNat 12 2) [bits v.toNat 32 32]
    if r.op.reads then s3.out (.cxlRsp r.port r.txid 1 0 dl true 0) else s3.out (.cxlRsp r.port r.txid 0 0 dl false 0)

/-- The canonical PGA of a line: it carries this node's NID, or the pair NID, the lower of the two, for a mirrored region
(R100, R356). -/
def State.canonPga (s : State) (ep region off : Nat) : Nat :=
  mkPga (if s.attr ep TEN_R_MIRROR region then min s.nid (s.rd TWIN_PARTNER_NID) else s.nid) off

/-- What a request leaves behind it while its final response waits to leave (R215). -/
def Req.tag (r : Req) : Option RspTag := if r.adm = 0 then none else some { id := r.id, aid := r.aid, epoch := r.epoch, tid := r.tid, job := r.job }

/-- The final response of a request of an agent, through its arrival port (R95, R96, Table 1-3). It takes the LOAD of the moment at
which it leaves (R23), or `load`. -/
def State.respond (s : State) (r : Req) (status grant : Nat) (data : Option (BitVec 512)) (next : Nat := nidNone)
    (load : Option Nat := none) : State :=
  let ld := load.getD 0
  if r.intern then s
  else if !s.live r.aid then s.bump FPORT_RSP_DROP r.port
  else if r.cxl then
    (if (s.port r.port).alive then s.cxlAnswer r status grant data (load.getD s.shape.load) else s.bump FPORT_RSP_DROP r.port)
  else
    let pga := s.canonPga r.epoch r.region r.off
    match data with
    | some d =>
      if status = stOK || status = stPoison then
        s.send r.port (mkData r.aid r.txid status ld s.nid grant (pga / 64) d) r.tid r.job r.tag
      else s.send r.port (mkCmp r.aid r.txid status ld s.nid 0 next) r.tid r.job r.tag
    | none => s.send r.port (mkCmp r.aid r.txid status ld s.nid grant next) r.tid r.job r.tag

/-- A request ended at its requester: answered, then no longer outstanding (R95, R215). -/
def State.finish (s : State) (rid status grant : Nat) (data : Option (BitVec 512)) (next : Nat := nidNone)
    (load : Option Nat := none) : State :=
  match s.req rid with
  | none => s
  | some r => ((s.respond r status grant data next load).dropReq rid).sampleOut r

/-! ### The Twin channel, sending side (R360) -/

/-- TURN_STATE codes (Table 15-4). -/
def tuUnpaired : Nat := 0
def tuIdle : Nat := 1
def tuHolder : Nat := 2
def tuStandby : Nat := 3
def tuFenced : Nat := 4
def tuJoining : Nat := 5
def tuHanding : Nat := 6

/-- The port that carries the Twin channel: TW_PORT, or the alternate where it is enabled and TW_PORT is not Up (R359). -/
def State.twChosen (s : State) : Nat :=
  if s.rd TWIN_ALT_EN = 1 && !(s.port (s.rd TWIN_TW_PORT)).isUp then s.rd TWIN_TW_PORT_ALT else s.rd TWIN_TW_PORT

/-- The port of the Twin channel while its link is Up or in Recovery. -/
def State.twPort (s : State) : Option Nat := if (s.port s.twChosen).alive then some s.twChosen else none

/-- Whether every port that may carry the Twin channel is Down. -/
def State.twLost (s : State) : Bool :=
  !(s.port (s.rd TWIN_TW_PORT)).alive && (s.rd TWIN_ALT_EN = 0 || !(s.port (s.rd TWIN_TW_PORT_ALT)).alive)

/-- A message to the partner. -/
def State.twSend (s : State) (m : Msg) (tid job : Nat) : State :=
  match s.twPort with
  | some p => s.send p m tid job
  | none => s

/-- What a change of a port's state does to the Twin channel: PARTNER_LOST when both ports are down; a channel that moves
to another port, or returns to Up, has every unacknowledged message sent again in order (R360). `was` is the state before, `back` the port
that has returned to Up. -/
def State.twMoved (s was : State) (back : Option Nat) : State :=
  if s.opts.w && s.rd TWIN_PAIR_EN = 1 then
    let s := if s.twLost && !was.twLost then s.raise pgTWIN I_TWIN_PARTNER_LOST else s
    match s.twPort with
    | none => s
    | some q =>
      if was.twPort = some q && back != some q then s
      else
        let s1 := if s.twin.usedPort != q + 1 && s.twin.usedPort != 0 then s.bump TWIN_PORT_SWITCHES else s
        let s2 := { s1 with twin := { s1.twin with usedPort := q + 1 } }
        s2.twin.unacked.foldl (fun (s : State) u => s.twSend u.2.1 u.2.2.1 u.2.2.2) s2
  else s

/-- A sequenced Twin message with the next TSEQ; at TW_WINDOW unacknowledged it waits (R360). Answers the number. -/
def State.twSeq (s : State) (opc : Nat) (fields : List (Nat × Nat × Nat)) (data : List Slot) (tid job : Nat) : Nat × State :=
  let t := s.twin
  let n := (t.seqSent + t.waiting.length + 1) % 2 ^ 24
  let m := mkNodeMsg opc s.nid (s.rd TWIN_PARTNER_NID) 0 ((45, 24, n) :: fields) data
  if t.unacked.length < s.rd TWIN_TW_WINDOW && t.waiting.isEmpty then
    (n, ({ s with twin := { t with seqSent := n, unacked := t.unacked ++ [(n, m, tid, job)] } }.twSend m tid job).sample pgTWIN 0
      (t.unacked.length + 1 : Nat))
  else (n, { s with twin := { t with waiting := t.waiting ++ [(n, m, tid, job)] } })

/-- Whether the stream covers a line at this holder: the partner is synced, or a resynchronization has passed the line
(R365, R378). -/
def State.twCovers (s : State) (off : Nat) : Bool :=
  let t := s.twin
  (t.turn == tuHolder || t.turn == tuHanding) &&
    (t.synced || (match t.resync with | some ptr => decide (off < ptr) | none => false))

/-- Whether directory changes of mirrored lines stream to the partner: synced, or resynchronizing (R362, R378). -/
def State.twDeltas (s : State) : Bool :=
  (s.twin.turn == tuHolder || s.twin.turn == tuHanding) && (s.twin.synced || s.twin.resync.isSome)

/-- The 32 bytes of a directory entry (Table 5-1); no entry is all zero. -/
def entryBits (e : Option DirEnt) (pend : Bool) : Nat :=
  match e with
  | none => 0
  | some e =>
    packBits [(0, 1, 1), (1, 2, if pend then 0 else if e.modif then 2 else 1), (3, 1, b2n e.coarse),
      (4, 3, if e.coarse then 0 else e.ptrs.length), (8, 12, dirTag e.la), (20, 12, e.region), (40, 8, e.age)] +
    (if e.coarse then 0 else packBits ((List.range e.ptrs.length).map (fun i =>
      let p := e.ptrs[i]?.getD (0, 0)
      (64 + 16 * i, 16, p.1 + p.2 % 8 * 2 ^ 12 + 2 ^ 15)))) +
    (if e.coarse then e.gvec.toNat * 2 ^ 128 else 0)

/-- A directory delta for a line of a mirrored region, when deltas stream (R362): the number that its acknowledgement
must cover, if one was sent. -/
def State.twDelta (s : State) (la region : Nat) (e : Option DirEnt) (pend : Bool) (tid job : Nat) : Option Nat × State :=
  if s.attr s.openEpoch TEN_R_MIRROR region && s.twDeltas then
    let v := entryBits e pend
    let (n, s1) := s.twSeq 0x91 [(69, 37, la), (106, 1, b2n pend)] [BitVec.ofNat 128 v, BitVec.ofNat 128 (v / 2 ^ 128)] tid job
    (some n, s1.bump TWIN_DELTAS_SENT)
  else (none, s)

/-- Whether TSEQ n has been acknowledged: it is no longer among those sent or waiting. -/
def State.twAcked (s : State) (n : Nat) : Bool :=
  !(s.twin.unacked.any (fun u => u.1 == n)) && !(s.twin.waiting.any (fun u => u.1 == n))

/-- A final response that first waits for a Twin acknowledgement (R362). -/
def State.finishGated (s : State) (gate : Option Nat) (rid status grant : Nat) (data : Option (BitVec 512)) : State :=
  match gate with
  | some n => if s.twAcked n then s.finish rid status grant data
              else { s with twin := { s.twin with gates := s.twin.gates ++ [(n, .rsp rid status grant data)] } }
  | none => s.finish rid status grant data

/-- A snoop that first waits for a Twin acknowledgement (R362). -/
def State.snpGated (s : State) (gate : Option Nat) (aid : Nat) (m : Msg) (tid job : Nat) : State :=
  match gate with
  | some n => if s.twAcked n then s.sendAgent aid m tid job
              else { s with twin := { s.twin with gates := s.twin.gates ++ [(n, .snp aid m tid job)] } }
  | none => s.sendAgent aid m tid job

/-- A back-invalidate sent to the host of a CXL link (R123). -/
def State.backInv (s : State) (p kind la addr : Nat) : State :=
  let c := s.port p
  (s.setPort p { c with cxlBi := c.cxlBi ++ [(la, none)] }).out (.cxlBi p kind addr)

/-- A back-invalidate that first waits for a Twin acknowledgement (R362). -/
def State.biGated (s : State) (gate : Option Nat) (p kind la addr : Nat) : State :=
  match gate with
  | some n => if s.twAcked n then s.backInv p kind la addr
              else { s with twin := { s.twin with gates := s.twin.gates ++ [(n, .bi p kind la addr)] } }
  | none => s.backInv p kind la addr

/-! ### Keys (R179, R185) -/

/-- Key slot states (Table 7-11). -/
def ksEmpty : Nat := 0
def ksLoaded : Nat := 1
def ksRotating : Nat := 2
def ksErasing : Nat := 3

def KeySlot.empty : KeySlot := { state := 0, tid := 0, gen := 0, cur := 0, old := none }
def State.slot (s : State) (n : Nat) : KeySlot := Tab.get s.slots n KeySlot.empty

/-- The slot that a tenant holds. -/
def State.slotOf (s : State) (tid : Nat) : Option Nat :=
  (s.slots.find? (fun p => p.1 != 0 && p.2.tid == tid && p.2.state != ksEmpty)).map (·.1)

/-- The region and line at which a slot's rotation stands: those of the pointer, or those at which KEY_ERASE stopped it. -/
def State.rotAt (s : State) (n : Nat) : Nat × Nat :=
  match s.rot with
  | some r => if r.slot = n then (r.region, r.la) else ((s.slot n).stop).getD (0, 0)
  | none => ((s.slot n).stop).getD (0, 0)

/-- The keys of a region's lines now: none for a Managed region, and none where the tenant holds no slot. -/
def State.keyPick (s : State) (ep region : Nat) : Option KeyPick :=
  if s.attr ep TEN_R_ISO region then
    (s.slotOf (s.rgn ep TEN_R_TID region)).map (fun n =>
      let k := s.slot n
      { cur := k.cur, gen := k.gen, old := k.old, region := (s.rotAt n).1, la := (s.rotAt n).2, done := Tab.get s.twin.rekeyed region 0 })
  else none

/-- The key of a line with its generation: during rotation the new key below the pointer, and below what rekeys of the stream have reached,
and the old key elsewhere (R185, R364). -/
def KeyPick.at_ (k : KeyPick) (region la : Nat) : BitVec 512 × Nat :=
  match k.old with
  | none => (k.cur, k.gen)
  | some o => if region < k.region || (region == k.region && la < k.la) || la < k.done then (k.cur, k.gen) else o

/-- The key, with its generation, that HOME selects for a line of a region (R179). -/
def State.keyFor (s : State) (ep region la : Nat) : Option (BitVec 512 × Nat) := (s.keyPick ep region).map (fun k => k.at_ region la)

/-! ### Moves (Table 8-14) -/

def Move.fresh : Move :=
  { kind := 0, tid := 0, tpa := 0, destPga := 0, destAid := 0, state := .idle, reason := 0, size := 0, peer := 0, remoteMid := 0,
    srcPga := 0, region := 0, doneL := 0, issued := 0, acked := 0, sent := 0, resuming := false, buf := [],
    ahead := [], progress := 0, port := 0 }

def State.move (s : State) (n : Nat) : Move := Tab.get s.moves n Move.fresh
def State.setMove (s : State) (n : Nat) (v : Move) : State := { s with moves := Tab.set s.moves n v }

/-- Kinds of move (Table 8-14). -/
def mkLocal : Nat := 0
def mkNode : Nat := 1
def mkAgent : Nat := 2

/-- The lines of a move's frame: 64 KiB or 2 MiB. -/
def Move.lines (m : Move) : Nat := if m.size = 0 then 1024 else 32768

/-- Lines finished in order, with those that finished ahead of their turn. -/
def Move.finish (m : Move) (i : Nat) : Move :=
  let a := i :: m.ahead
  let d := (List.range (a.length)).foldl (fun d _ => if a.contains d then d + 1 else d) m.doneL
  { m with doneL := d, ahead := a.filter (fun j => decide (d ≤ j)) }

/-! ### Entries for the queues -/

def Queue.fresh : Queue :=
  { waiting := [], entries := [], banks := [], now := 0, inSlot := 0, lastRd := none, lastWr := none, acts := [], free := 0, power := 0,
    rets := [], hist := [], issued := 0 }

def State.queue (s : State) (q : Nat) : Queue := Tab.get s.queues q Queue.fresh
def State.setQueue (s : State) (q : Nat) (v : Queue) : State := { s with queues := Tab.set s.queues q v }

/-- An entry for the line at a node offset. -/
def lineEntry (kind : EKind) (src : ESrc) (off tid job ep : Nat) (req : Option Nat) : Nat × Entry :=
  let (q, b, r, c) := hashLine (off / 64)
  (q, { kind := kind, src := src, bank := b, srow := r, row := r, col := c, off := off, tid := tid, job := job,
        epoch := ep, req := req, bake := none, data := 0, poison := false, be := 0, key := none, mirror := false,
        words := [], redir := [], mask := 0, stale := false, phase := 0, ready := 0 })

/-- An entry that addresses no line. -/
def plainEntry (kind : EKind) (src : ESrc) (ep : Nat) : Entry :=
  (lineEntry kind src 0 0 0 ep none).2

/-- An entry made ready for a queue: it waits for its place there (R240). -/
def State.enqueue (s : State) (q : Nat) (e : Entry) : State :=
  let (n, s1) := s.nextOrd
  let c := s1.queue q
  s1.setQueue q { c with waiting := c.waiting ++ [{ e with ready := n }] }

/-- A read of a request's line. -/
def State.readLine (s : State) (r : Req) (why : ReadFor) (key : Option (BitVec 512)) : State :=
  let (q, e) := lineEntry (.read why) .home r.off r.tid r.job r.epoch (some r.id)
  s.enqueue q { e with key := key }

/-- What a line of a region is stored as: plaintext never reaches a line of a Sealed region. Once the tenant's slot is Empty such a line takes
a free value, since what it then reads as is undefined (R176, R187; assumption 122). -/
def State.sealedData (s : State) (ep region : Nat) (key : Option (BitVec 512)) (data : BitVec 512) : BitVec 512 × State :=
  if key.isNone && s.attr ep TEN_R_ISO region then s.free else (data, s)

/-- A write of a line for a request, mirrored when its region is (R361). `req` absent: nothing waits for it. -/
def State.writeLine (s : State) (off region tid job ep : Nat) (req : Option Nat) (data : BitVec 512) (poison : Bool)
    (key : Option (BitVec 512)) : State :=
  let (q, e) := lineEntry .write .home off tid job ep req
  let (d, s1) := s.sealedData ep region key data
  s1.enqueue q { e with data := d, poison := poison, key := key, mirror := s.attr ep TEN_R_MIRROR region && s.twCovers off }

end Sys2Proof.Machine
end

