-- ==== Sys2Proof/Machine/Peek.lean ====
section
/-! DEFINITION. Memory and tables as the node finds them without a request: redirected rows (R280), table entries (Tables 8-2
and 8-3), a line as its queue will leave it, and walks over it for MIGR (R203) and for CXL writes (R122). -/
namespace Sys2Proof.Machine

open Reg

/-- A row after redirection (R280). -/
def redirect (l : List (Nat × Nat × Nat × Nat)) (bank row : Nat) : Nat :=
  match l.find? (fun e => e.1 == bank && e.2.1 == row / 512) with
  | some e => if row % 512 < e.2.2.2 then e.2.2.1 * 512 + row % 512 else row
  | none => row

/-! ### Table entries (Tables 8-2 and 8-3) -/

/-- A table entry as read: what it says, at its level. -/
inductive TEnt where
  | invalid
  | table (next : Nat)
  | page (pga : Nat) (nocount : Bool)
  | remote (nid : Nat)
  | error
deriving DecidableEq, Repr

/-- The bits of a page offset at a level. -/
def pageBits (level : Nat) : Nat := if level = 1 then 30 else if level = 2 then 21 else 16

/-- The size code of a leaf at a level (Table 8-6). -/
def sizeCode (level : Nat) : Nat := 3 - level
def sizeBits (size : Nat) : Nat := if size = 0 then 16 else if size = 1 then 21 else 30

/-- A table entry decoded, with the faults of Table 8-4, row 4, that the entry itself shows. -/
def decodeTEnt (level v : Nat) : TEnt :=
  let ty := bits v 0 2
  if ty = 0 then .invalid
  else if ty = 1 then
    let next := bits v 8 35 * 256
    if level = 3 then .error
    else if bits v 2 6 ≠ 0 || bits v 43 21 ≠ 0 then .error
    else if level = 1 && next % 4096 ≠ 0 then .error
    else .table next
  else if ty = 2 then
    let pga := bits v 16 36 * 65536
    if bits v 3 13 ≠ 0 || bits v 52 12 ≠ 0 then .error
    else if pga % 2 ^ pageBits level ≠ 0 then .error
    else .page pga (bit v 2)
  else if bits v 2 14 ≠ 0 || bits v 25 39 ≠ 0 then .error
  else .remote (bits v 16 9)

/-- The address of the entry that a walk reads at a level, in the table at `base` (Table 8-2). -/
def tentAddr (level base tpa : Nat) : Nat :=
  base + 8 * (if level = 1 then bits tpa 30 18 else if level = 2 then bits tpa 21 9 else bits tpa 16 5)

/-- The region of a table address, if the address is in a Managed, Uncached region of TID 0 (R190). -/
def State.tableRegion (s : State) (ep a : Nat) : Option Nat :=
  (s.regionOf ep a).filter (fun n => !s.attr ep TEN_R_ISO n && s.attr ep TEN_R_COH n && s.rgn ep TEN_R_TID n == 0)

/-! ### The node's view of a line and of a walk -/

/-- The word of 80 symbols that DRAM holds for a line, in the row that the copies issued so far have put it (R279). -/
def State.storedWord (s : State) (off : Nat) : List Byte :=
  let (q, bank, row, col) := hashLine (off / 64)
  let l := (s.ras.rmap.filter (fun e => e.2.state != 0 && e.2.q == q)).map (fun e => (e.2.bank, e.2.sa, e.2.spare, e.2.issued))
  Memory.readN s.dram (lineAddr q bank (redirect l bank row) col) 80

/-- Bytes of a line replaced where the byte enable is 1. -/
def mergeLine (old new : BitVec 512) (be : BitVec 64) : BitVec 512 :=
  lineOf ((List.range 64).map (fun i =>
    BitVec.ofNat 8 ((if be.getLsbD i then new else old).toNat / 2 ^ (8 * i))))

/-- A Managed line as the accepted and waiting entries of its queue will leave it, with whether it is bad. -/
def State.peekLine (s : State) (off : Nat) : BitVec 512 × Bool :=
  let (q, bank, row, col) := hashLine (off / 64)
  let base : BitVec 512 × Bool := match lcDecode (s.storedWord off) with
    | .ok w _ => (lineOf (w.take 64), metaMark (w[64]?.getD 0).toNat (w[65]?.getD 0).toNat (s.computeSeg s.openEpoch (row / 512)) != .clean)
    | .bad => (0, true)
  let es := ((s.queue q).entries ++ (s.queue q).waiting).filter (fun e => e.bank == bank && e.srow == row && e.col == col)
  es.foldl (fun (a : BitVec 512 × Bool) e => match e.kind with
    | .write => (e.data, e.poison)
    | .merge _ => (mergeLine a.1 e.data e.be, a.2 || e.poison)
    | _ => a) base

/-- The levels of a walk over the tables as memory holds them: the page leaf that a TPA ends at, with its level. -/
def State.migrWalkFrom (s : State) (tpa : Nat) : Nat → Nat → Nat → Option (Nat × Nat)
  | 0, _, _ => none
  | fuel + 1, level, base =>
    let a := tentAddr level base tpa
    if (s.tableRegion s.openEpoch a).isNone then none
    else
      let (d, bad) := s.peekLine (a / 64 * 64)
      match (if bad then TEnt.error else decodeTEnt level (bits d.toNat (64 * (a / 8 % 8)) 64)) with
      | .page pga _ => some (level, pga)
      | .table next => s.migrWalkFrom tpa fuel (level + 1) next
      | _ => none

/-- A walk of a tenant's tables for a TPA in the open epoch. -/
def State.migrWalk (s : State) (tid tpa : Nat) : Option (Nat × Nat) :=
  if tpa / 2 ^ 48 ≠ 0 || s.rd XLAT_ROOT_XEN 0 tid = 0 then none else s.migrWalkFrom tpa 3 1 (s.rd XLAT_ROOT_BASE 0 tid)

end Sys2Proof.Machine
end

