-- ==== Sys2Proof/Machine/Home.lean ====
section
/-! DEFINITION. HOME and DIRC: the directory, transactions and line trackers, snoops and their answers, capacity
recalls, fences and broken sets (R124 to R150), with what agent loss does to them (R156 to R158). -/
namespace Sys2Proof.Machine

open Reg

/-! ### The directory -/

/-- The valid entry of a line, shadows of a pair's partner left out (R363). -/
def State.ent (s : State) (la : Nat) : Option DirEnt := s.dir.find? (fun e => e.la == la && !e.shadow)

/-- The valid entries of a set, shadows included: each takes a way. -/
def State.setEnts (s : State) (set : Nat) : List DirEnt := s.dir.filter (fun e => dirSet e.la == set)

/-- The lowest free way of a set (DESIGN CHOICE, assumption 121). -/
def State.freeWay (s : State) (set : Nat) : Option Nat :=
  (List.range 8).find? (fun w => !(s.setEnts set).any (fun e => e.way == w))

/-- Samples of valid and coarse entries (Table 5-9). -/
def State.sampleDir (s : State) : State :=
  (s.sample pgDIRC 0 s.dir.length).sample pgDIRC 2 (s.dir.filter (fun e => e.coarse)).length

/-- A line's entry replaced, created in the lowest free way, or removed; the set's frame becomes dirty. -/
def State.putEnt (s : State) (la : Nat) (new : Option DirEnt) : State :=
  let old := s.dir.find? (fun e => e.la == la)
  let rest := s.dir.filter (fun e => e.la != la)
  let d := match new with
    | none => rest
    | some e =>
      let w := match old with
        | some o => o.way
        | none => (s.freeWay (dirSet la)).getD 8
      rest ++ [{ e with la := la, way := w }]
  ({ s with dir := d, frames := s.frames.map (fun (f : Nat × Bool) => if f.1 == dirSet la then (f.1, true) else f) }).sampleDir

/-- A new exact entry for one agent: M with an owner, or S with one holder. -/
def entOf (la region : Nat) (modif : Bool) (aid inc : Nat) : DirEnt :=
  { la := la, way := 0, modif := modif, coarse := false, region := region, age := 0, ptrs := [(aid, inc % 8)], gvec := 0, shadow := false }

/-- The group of an agent: AID[11:6]. -/
def groupBit (aid : Nat) : BitVec 64 := BitVec.ofNat 64 (2 ^ (aid / 64))

/-- An S entry with one more holder: exact to four, then coarse with the groups of all (R127). -/
def DirEnt.join (e : DirEnt) (aid inc : Nat) : DirEnt :=
  if e.coarse then { e with gvec := e.gvec ||| groupBit aid }
  else if e.ptrs.any (fun p => p.1 == aid) then e
  else if e.ptrs.length < 4 then { e with ptrs := e.ptrs ++ [(aid, inc % 8)] }
  else { e with coarse := true, ptrs := [], gvec := (e.ptrs.foldl (fun g p => g ||| groupBit p.1) (groupBit aid)) }

/-- An entry without a holder: none when no exact pointer remains. A coarse entry is unchanged (R127). -/
def DirEnt.leave (e : DirEnt) (aid : Nat) : Option DirEnt :=
  if e.coarse then some e
  else
    let p := e.ptrs.filter (fun p => p.1 != aid)
    if p.isEmpty then none else some { e with ptrs := p }

def DirEnt.owner (e : DirEnt) : Nat := (e.ptrs.headD (0, 0)).1
def DirEnt.names (e : DirEnt) (aid : Nat) : Bool := !e.coarse && e.ptrs.any (fun p => p.1 == aid)

/-- Live agents of the groups an entry marks. -/
def State.groupAgents (s : State) (e : DirEnt) : List Nat :=
  (s.agents.filter (fun a => a.2.state == agLive && bit e.gvec.toNat (a.1 / 64))).map (·.1)

/-- A set access: the entry used has its AGE cleared, the others of the set advance (Table 5-1), up to 255 (DESIGN CHOICE, assumption 121);
the entries that stand for a pair's partner change by deltas only (R363). The set becomes the most recently used frame, dirty where an
AGE changed (R128). -/
def State.touch (s : State) (la : Nat) : State :=
  let set := dirSet la
  let aged := fun (e : DirEnt) =>
    if e.shadow then e
    else if e.la == la then { e with age := 0 } else if dirSet e.la == set then { e with age := min 255 (e.age + 1) } else e
  let d := s.dir.map aged
  let f := (s.frames.filter (fun f => f.1 == set)).map (fun f => (f.1, f.2 || s.dir.any (fun e => aged e != e)))
  { s with dir := d, frames := f ++ s.frames.filter (fun f => f.1 != set) }

/-- Whether a set lies in a frame of the on-die cache (R128). -/
def State.cached (s : State) (set : Nat) : Bool := s.frames.any (fun f => f.1 == set)

/-- The 32 bytes of each way of a set as its four store lines. -/
def State.setLines (s : State) (set : Nat) : List (BitVec 512) :=
  let way := fun (w : Nat) => entryBits ((s.setEnts set).find? (fun e => e.way == w)) false
  (List.range 4).map (fun i => BitVec.ofNat 512 (way (2 * i) + way (2 * i + 1) * 2 ^ 256))

/-- The node offset of a set's store lines (R125). -/
def setOff (set : Nat) : Nat := storeBase + set * 0x100

/-- The key of the directory store: slot 0 with option K, none without (R124, R177). -/
def State.storeKey (s : State) : Option (BitVec 512) := if s.opts.k then some (s.slot 0).cur else none

/-- A frame written back: its four store lines, counted to TID 0 and JOB 0 (R128). -/
def State.writeSet (s : State) (set : Nat) : State :=
  ((List.range 4).zip (s.setLines set)).foldl (fun s p =>
    let (q, e) := lineEntry .write .home (setOff set + 64 * p.1) 0 0 s.openEpoch none
    s.enqueue q { e with data := p.2, key := s.storeKey }) s

/-- A set brought into the cache: the least recently used of the 12 ways of its cache set leaves, written back if dirty. -/
def State.fillFrame (s : State) (set : Nat) : State :=
  if s.cached set then s
  else
    let same := s.frames.filter (fun f => f.1 % 2 ^ 14 == set % 2 ^ 14)
    match (if same.length < 12 then none else same.getLast?) with
    | none => { s with frames := (set, false) :: s.frames }
    | some v =>
      let s1 := if v.2 then s.writeSet v.1 else s
      { s1 with frames := (set, false) :: s1.frames.filter (fun f => f.1 != v.1) }

/-- The four store lines of a set read for the set (R125, R128), counted to a TID and JOB. -/
def State.readSet (s : State) (set tid job ep : Nat) (rid : Option Nat) : State :=
  (List.range 4).foldl (fun s i =>
    let (q, e) := lineEntry (.read (.dirSet set)) .home (setOff set + 64 * i) tid job ep rid
    s.enqueue q { e with key := s.storeKey }) s

/-- A line's entry changed (R128): a set whose frame has left meanwhile is read again into one, counted to TID 0 and JOB 0. -/
def State.setEnt (s : State) (la : Nat) (new : Option DirEnt) : State :=
  let set := dirSet la
  ((if s.cached set then s else (s.readSet set 0 0 s.openEpoch none).fillFrame set)).putEnt la new

/-! ### Transactions -/

/-- Whether a line has an open transaction (R130). -/
def State.isOpen (s : State) (la : Nat) : Bool := s.openTx.any (fun p => p.1 == la)
def State.openLine (s : State) (la rid : Nat) : State := { s with openTx := s.openTx ++ [(la, rid)] }
def State.closeLine (s : State) (la : Nat) : State := { s with openTx := s.openTx.filter (fun p => p.1 != la) }

/-- Requests that wait in a line's conflict queue, in order of arrival at the home (R21). -/
def State.waitingAt (s : State) (la : Nat) : List Req := s.reqs.filter (fun r => r.place == .home && r.la == la)

/-- The longest conflict queue (Table 5-7). -/
def State.longestQueue (s : State) : Nat :=
  s.openTx.foldl (fun m p => max m (s.waitingAt p.1).length) 0

/-- The row that a fence names, as one number. -/
def rowKey (la : Nat) : Nat := let (q, b, r, _) := hashLine la; (q * 16 + b) * 2 ^ 18 + r

/-- Whether a request for a line waits behind a Bake's fence (R148): every request that arrived at the home after the Bake's ordering
(R21), but the Bake's own work and the sweep. -/
def State.fenced (s : State) (r : Req) : Bool :=
  r.op != .sweep && s.fences.any (fun f =>
    decide (f.order ≤ r.order) && !(r.intern && (r.op == .bakeInv || r.op == .wrPtl || r.op == .resync) && r.mid == f.bake) &&
      f.rows.any (fun x => x.1 == rowKey r.la))

/-- The line's canonical PGA >> 6, as snoops and DATA carry it (R100, R356). -/
def State.lineAddr6 (s : State) (r : Req) : Nat := s.canonPga r.epoch r.region r.off / 64

/-- A grant as its code (Table 4-2). -/
def grI : Nat := 0
def grS : Nat := 1
def grE : Nat := 2
def grM : Nat := 3

/-- A line served from memory to a request (R137): the entry as it will stand, a delta where the region is mirrored,
and the read, whose data becomes the final response. -/
def State.serveMem (s : State) (r : Req) (grant : Nat) (change : Bool) (new : Option DirEnt) : State :=
  let s1 := if change then s.setEnt r.la new else s
  let (gate, s2) := if change then s1.twDelta r.la r.region new false r.tid r.job else (none, s1)
  let s3 := s2.updReq r.id (fun r => { r with place := .memRead, grant := grant, gate := gate })
  (s3.openLine r.la r.id).readLine r (.req r.id) r.key

/-- A request's write of its whole line (R137). -/
def State.serveWrite (s : State) (r : Req) : State :=
  let s1 := s.updReq r.id (fun r => { r with place := .memWrite })
  (s1.openLine r.la r.id).writeLine r.off r.region r.tid r.job r.epoch (some r.id) r.data r.psn r.key

/-- A masked write as a Merge entry (R97, R245). -/
def State.serveMerge (s : State) (r : Req) : State :=
  let s1 := (s.updReq r.id (fun r => { r with place := .memWrite })).openLine r.la r.id
  let (q, e) := lineEntry (.merge r.id) .home r.off r.tid r.job r.epoch (some r.id)
  s1.enqueue q { e with data := r.data, poison := r.psn, be := r.be, key := r.key, mirror := s.attr r.epoch TEN_R_MIRROR r.region && s.twCovers r.off }

/-- A removal of holders, streamed without waiting (R362). -/
def State.dropHolder (s : State) (r : Req) (new : Option DirEnt) : State :=
  ((s.setEnt r.la new).twDelta r.la r.region new false r.tid r.job).2

/-! ### Snoops -/

/-- Snoop opcodes (Table 4-5). -/
def opSnpFwdS : Nat := 0x20
def opSnpFwdOwn : Nat := 0x21
def opSnpFwdCur : Nat := 0x22
def opSnpInv : Nat := 0x23

/-- One snoop of a holder: to a CXL host a back-invalidate in its place (R123). Both wait for the acknowledgement that they need (R362). A
forward takes its LOAD when it leaves (R23). -/
def State.snoop (s : State) (gate : Option Nat) (opc aid : Nat) (r : Req) (grant : Nat) (fault : Bool) : State :=
  match s.cxlPort aid with
  | some p => s.biGated gate p (if opc = opSnpFwdS then 1 else if opc = opSnpFwdCur then 2 else 0) r.la (s.lineAddr6 r)
  | none =>
    s.snpGated gate aid (if opc = opSnpInv then mkSnp opc aid s.nid 0 0 0 0 0 false (s.lineAddr6 r)
      else mkSnp opc aid s.nid r.aid r.txid stOK 0 grant fault (s.lineAddr6 r)) r.tid r.job

/-- The lowest free tracker (DESIGN CHOICE, assumption 121). -/
def State.freeTrk (s : State) : Option Nat :=
  if s.trks.length < 16384 then (List.range (s.trks.length + 1)).find? (fun i => !s.trks.any (fun t => t.slot == i)) else none

/-- The marks of an ordered request that tries again: its set has been brought in, so that its lookup is counted once, and its lookup is
done. -/
def lookedUp : Nat := 1000
def ordered : Nat := 1001

/-- The tracker that a request may take: none while another that came to wait earlier waits (R130). -/
def State.trkFor (s : State) (r : Req) : Option Nat :=
  if s.reqs.any (fun x => x.place == .waitTrk && x.wait == ordered && x.id != r.id && (r.wait != ordered || decide (x.order < r.order)))
  then none else s.freeTrk

/-- A request that needs a tracker when none is free: it waits in order of arrival, its line's queue blocked behind it (R130). -/
def State.waitTrk (s : State) (r : Req) : State :=
  if r.wait = ordered then (s.updReq r.id (fun x => { x with place := .waitTrk, wait := ordered })).openLine r.la r.id
  else
    let (n, s1) := s.nextOrd
    (s1.updReq r.id (fun x => { x with place := .waitTrk, wait := ordered, order := n })).openLine r.la r.id

/-- The kind code of a tracker's view (Table 5-10). -/
def trkView (r : Req) (k : TrkKind) : Nat :=
  match r.op with
  | .settle => 4
  | .recall | .migr => 3
  | _ => match k with
    | .inv => 2
    | _ => 1

/-- Whether a request will be granted a copy when its transaction ends. -/
def Op.grants : Op → Bool
  | .rdS | .rdOwn | .upg => true
  | _ => false

/-- Whether data that an answer brings is stored: an owner's is discarded where a full write follows (Table 5-3). -/
def Trk.keeps (t : Trk) (r : Req) : Bool := !((r.op == .wrFull || r.op == .migrStore) && t.before.any (fun e => e.modif))

/-- Whether the data that an answer brings goes to the partner as well: the transaction then lasts until both queues have accepted it
(R361). -/
def State.answerMirrored (s : State) (t : Trk) : Bool := (s.req t.req).any (fun r =>
  t.keeps r && s.attr r.epoch TEN_R_MIRROR r.region && s.twCovers r.off)

/-- A tracker whose transaction waits for one more stored answer. -/
def Trk.storing (t : Trk) (more : Bool) : Trk := { t with stores := t.stores + b2n more }

/-- What a read or a store for the Twin channel is for: a resynchronized line, an entry of the directory image, a row copy,
a line that the stream brought, the data of a snoop answer. -/
def rsLine : Nat := 0
def rsImage : Nat := 1
def rsCopy : Nat := 2
def rsStore : Nat := 3
def rsAnswer : Nat := 4

/-- Data that an answer brings, stored with its poison mark (R140); for a mirrored line a node's request awaits both queues (R361). -/
def State.storeAnswer (s : State) (t : Trk) (d : BitVec 512) (poison : Bool) : State :=
  match s.req t.req with
  | none => s
  | some r =>
    if !t.keeps r then s
    else if s.answerMirrored t then
      let x : Req := { Req.blank with
        id := s.nextId, op := .resync, intern := true, gen := rsAnswer, mid := t.slot, tid := r.tid, job := r.job, off := r.off, region := r.region,
        epoch := r.epoch, place := .memWrite }
      { s with reqs := s.reqs ++ [x], nextId := s.nextId + 1 }.writeLine r.off r.region r.tid r.job r.epoch (some x.id) d poison r.key
    else s.writeLine r.off r.region r.tid r.job r.epoch none d poison r.key

/-- The requester of a forward whose owner has given the line up, served by HOME itself with the grant of state I, while the
owner's answer is still awaited (R141). Its answer waits for the pending delta, as the forward did (R362). -/
def State.serveFwd (s : State) (t : Trk) : State :=
  match s.req t.req with
  | none => s
  | some r =>
    let s1 := match t.kind with
      | .fwdCur => s.serveMem r grI true t.before
      | _ => s.serveMem r grE true (some (entOf r.la r.region true r.aid (s.agent r.aid).inc))
    s1.updReq r.id (fun x => { x with gate := t.gate })

/-- An awaited agent that has given the line up: it is removed from the entry, and still awaited; a forward's requester is served by
HOME itself (R141). -/
def State.holderGone (s : State) (t : Trk) (aid : Nat) : State :=
  let t1 := { t with before := t.before.bind (fun e => e.leave aid), serve := t.serve || t.kind != .inv }
  let s1 : State := { s with trks := updFirst (fun x => x.slot == t.slot) (fun _ => t1) s.trks }
  if t.kind != .inv && !t.serve then s1.serveFwd t1 else s1

/-- A WB or CLN_EVICT of an awaited agent, absorbed: stored and completed at once (R141). -/
def State.absorb (s : State) (t : Trk) (r : Req) : State :=
  let s1 := if r.op == .wb then s.storeAnswer t r.data r.psn else s
  ((s1.finish r.id stOK 0 none).bump HOME_ABSORBED).holderGone (t.storing (r.op == .wb && s.answerMirrored t)) r.aid

/-- Evictions of awaited agents that already wait in the line's conflict queue when the snoops go out, absorbed: such an agent
answers only after its CMP (R141, Table 5-2; assumption 115). -/
def State.absorbWaiting (s : State) (la slot : Nat) : State :=
  (s.waitingAt la).foldl (fun (s : State) r =>
    match s.trks.find? (fun t => t.slot == slot) with
    | some t => if (r.op == .wb || r.op == .clnEvict) && r.admInc.isSome && t.awaited.any (fun a => a.1 == r.aid) then s.absorb t r else s
    | none => s) s

/-- A transaction that sends snoops: a tracker awaits their answers (R130); for a forward, or where the requester will be
granted a copy, a pending delta goes first (R362). -/
def State.openTrk (s : State) (slot : Nat) (r : Req) (kind : TrkKind) (e : DirEnt) (awaited : List (Nat × Bool)) (exact : Bool) : State :=
  let fault := !s.attr r.epoch TEN_R_UE r.region
  let t : Trk := {
    slot := slot, la := r.la, kind := kind, view := trkView r kind, req := r.id, awaited := awaited, since := s.ao, slow := false,
    exact := exact, serve := false, fault := fault, before := some e, tid := r.tid, job := r.job }
  let s1 := (({ s with trks := s.trks ++ [t] }.openLine r.la r.id).updReq r.id (fun r => { r with place := .tracked, val := 0 }))
  let s2 := s1.sample pgHOME 0 s1.trks.length
  let (gate, s3) := if kind != .inv || r.op.grants then
      s2.twDelta r.la r.region (some (if r.intern then e else { e.join r.aid (s.agent r.aid).inc with modif := false })) true r.tid r.job
    else (none, s2)
  let s3' : State := { s3 with trks := updFirst (fun x => x.slot == slot) (fun x => { x with gate := gate }) s3.trks }
  let s4 := match kind with
    | .fwdS => (s3'.bump HOME_FORWARDS).snoop gate opSnpFwdS e.owner r grS fault
    | .fwdOwn => (s3'.bump HOME_FORWARDS).snoop gate opSnpFwdOwn e.owner r grE fault
    | .fwdCur => (s3'.bump HOME_FORWARDS).snoop gate opSnpFwdCur e.owner r grI fault
    | .inv => awaited.foldl (fun (s : State) (a : Nat × Bool) => (s.bump HOME_INV_SNOOPS).snoop gate opSnpInv a.1 r 0 false) s3'
  s4.absorbWaiting r.la slot

/-- Whom SNP_INV goes to (R131, R132, R142): recorded holders other than the requester, or every Live agent of the
marked groups other than the requester and agents whose RD_OWN already waits for the line. -/
def State.invTargets (s : State) (r : Req) (e : DirEnt) : List (Nat × Bool) :=
  if e.coarse then
    ((s.groupAgents e).filter (fun a => !(a == r.aid && !r.intern) &&
      !(s.waitingAt r.la).any (fun w => w.op == .rdOwn && w.aid == a && w.id != r.id))).map (fun a => (a, true))
  else ((e.ptrs.map (·.1)).filter (fun a => !(a == r.aid && !r.intern) && s.live a)).map (fun a => (a, false))

/-! ### Lines of broken sets (R149) -/

/-- The populated lines of a set: 1,536 of them. -/
def setLas (set : Nat) : List Nat := (List.range 1536).map (fun t => t * 2 ^ 25 + (set ^^^ t))

/-- The region of a line of a Coherent region in the open epoch. -/
def State.cohRegion (s : State) (la : Nat) : Option Nat :=
  (s.regionOf s.openEpoch (la * 64)).filter (fun n => !s.attr s.openEpoch TEN_R_COH n)

def State.brokenSet (s : State) (set : Nat) : Option Broken := s.broken.find? (fun b => b.set == set)

/-- A line waits for its settlement: its set is broken and it is not settled. -/
def State.unsettled (s : State) (la : Nat) : Bool :=
  match s.brokenSet (dirSet la) with
  | some b => !b.settled.contains la && (s.cohRegion la).isSome
  | none => false

/-- A set whose lines are all settled returns to normal use. -/
def State.freeBroken (s : State) (set : Nat) : State :=
  match s.brokenSet set with
  | some b =>
    if (setLas set).all (fun la => b.settled.contains la || (s.cohRegion la).isNone) then
      { s with broken := s.broken.filter (fun b => b.set != set) }.raise pgDIRC I_DIRC_SET_SETTLED
    else s
  | none => s

/-- A line marked settled. -/
def State.markSettled (s : State) (la : Nat) : State :=
  { s with broken := updFirst (fun b => b.set == dirSet la) (fun b => { b with settled := b.settled ++ [la] }) s.broken }.freeBroken (dirSet la)

/-! ### Ends of transactions -/

/-- The requests that wait for a way of a set, in the order in which they came to wait (R145). -/
def State.wayWaiters (s : State) (set : Nat) : List Req := s.reqs.filter (fun r => r.place == .waitWay && dirSet r.la == set)

/-- The request that a free way of a set goes to: the one that has waited longest (R145). -/
def State.wayNext (s : State) (set : Nat) : Option Req := minBy (fun r => r.order) (s.wayWaiters set)

/-- A recall in a set has ended: the request that its way goes to may ask for another, should it find none free (R145). -/
def State.wakeSet (s : State) (set : Nat) : State :=
  match s.wayNext set with
  | some r => s.updReq r.id (fun x => { x with wait := 0 })
  | none => s

/-- A request that ends inside the node without a response. -/
def State.endReq (s : State) (rid : Nat) : State :=
  match s.req rid with
  | none => s
  | some r => (s.dropReq rid).sampleOut r

/-- A read of a request's line that changes no state: its data goes to what the request is for. -/
def State.readOwn (s : State) (r : Req) : State :=
  ((s.updReq r.id (fun r => { r with place := .memRead })).openLine r.la r.id).readLine r (.req r.id) r.key

/-- The port to another node: the lowest-numbered that is Up or in Recovery with that node as its peer. -/
def State.nodePort (s : State) (nid : Nat) : Option Nat :=
  (List.range 16).find? (fun p => (s.port p).alive && !(s.port p).isCxl && s.rd FPORT_PEER_ROLE p == roleNode && s.rd FPORT_PEER_NID_SEEN p == nid)

/-- A MIGR message to a node, counted to TID 0 and JOB 0 (R205). Without a port to the node it is lost. -/
def State.migrSend (s : State) (nid : Nat) (m : Msg) : State :=
  match s.nodePort nid with
  | some p => s.send p m 0 0
  | none => s

/-- The completion of a move whose last line is done (R209, R211). -/
def State.migrComplete (s : State) (n : Nat) : State :=
  let m := s.move n
  if m.doneL = m.lines && m.state == .copying then
    let s1 := (s.setMove n { m with state := .done }).raise pgMIGR I_MIGR_MOVE_DONE
    if m.kind = mkNode then s1.migrSend m.peer (mkNodeMsg 0xA3 s.nid m.peer (2 * n + 1) [(45, 4, n)]) else s1
  else s

/-- A line transaction of a move once its line is recalled (R204): the line is read, or, for an Agent move, the line is
done (R211). -/
def State.migrRead (s : State) (r : Req) : State :=
  let m := s.move r.mid
  if m.kind = mkAgent then
    ((s.setMove r.mid (m.finish r.txid)).migrComplete r.mid).endReq r.id
  else s.readOwn r

/-- The mark of a CXL host's request that the owner's relayed answer has completed. -/
def cxlAnswered : Nat := 1

/-- A request that its owner has answered: it has left, but a CXL host's stays outstanding until that answer has come this way (R123,
R215). -/
def State.forwarded (s : State) (r : Req) : State :=
  if r.cxl && r.val != cxlAnswered then s.updReq r.id (fun x => { x with place := .done }) else s.endReq r.id

/-- The bracketed step of a transaction whose snoops are answered (Table 5-3), for the entry as its answers left it. -/
def State.bracket (s : State) (t : Trk) (r : Req) : State :=
  let inc := (s.agent r.aid).inc
  let own := entOf r.la r.region true r.aid inc
  let cxlOwner := match t.before with
    | some e => (s.cxlPort e.owner).isSome
    | none => false

  match t.kind, r.op with
  | .fwdS, _ =>
    let e := match t.before with
      | some e => { (e.join r.aid inc) with modif := false }
      | none => entOf r.la r.region false r.aid inc
    if cxlOwner then s.serveMem r grS true (some e) else (s.dropHolder r (some e)).forwarded r
  | .fwdOwn, _ => if cxlOwner then s.serveMem r grE true (some own) else (s.dropHolder r (some own)).forwarded r
  | .fwdCur, _ => if cxlOwner then s.serveMem r grI false none else (s.dropHolder r t.before).forwarded r
  | .inv, .rdOwn => s.serveMem r grE true (some own)
  | .inv, .upg =>
    if t.exact then
      let (gate, s1) := (s.setEnt r.la (some own)).twDelta r.la r.region (some own) false r.tid r.job
      s1.finishGated (if t.view = 0 then gate else none) r.id stOK grE none
    else s.serveMem r grE true (some own)
  | .inv, .wrFull => (s.dropHolder r none).serveWrite r
  | .inv, .wrPtl => (s.dropHolder r none).serveMerge r
  | .inv, .migrStore => (s.dropHolder r none).serveWrite r
  | .inv, .migr => (s.dropHolder r none).migrRead r
  | .inv, .planRead => s.serveMem r grI true none
  | .inv, .settle => ((s.dropHolder r none).endReq r.id).markSettled r.la
  | .inv, _ => ((s.dropHolder r none).endReq r.id).wakeSet (dirSet r.la)

/-- Whether a request's read still waits for a place in its queue. -/
def State.readWaits (s : State) (rid : Nat) : Bool := s.queues.any (fun q => q.2.waiting.any (fun e => e.req == some rid))

/-- A tracker ended: freed, its line's transaction closed, and the bracketed step carried out (R140). Its answer does not wait
for the delta that ends it, since a pending delta went before its snoops (R362). A forward's requester that HOME has served itself has
no step left; its line stays open while the read has no place (R130). -/
def State.endTrk (s : State) (t : Trk) : State :=
  let s0 : State := { s with trks := s.trks.filter (fun x => x.slot != t.slot) }
  if t.serve then (if s0.readWaits t.req then s0 else s0.closeLine t.la).sample pgHOME 0 s0.trks.length
  else
    let s1 := s0.closeLine t.la
    let s2 := s1.sample pgHOME 0 s1.trks.length
    match s2.req t.req with
    | some r => if t.dead then (s2.dropHolder r none).forwarded r else (s2.bracket t r).updReq r.id (fun x => { x with gate := none })
    | none => s2

/-- A tracker changed by an answer, and ended when nothing is awaited any more and every stored answer of a mirrored line has reached both
queues (R361). -/
def State.answered (s : State) (t : Trk) : State :=
  let s1 := { s with trks := updFirst (fun x => x.slot == t.slot) (fun _ => t) s.trks }
  if t.awaited.isEmpty && t.stores = 0 then s1.endTrk t else s1

/-- A snoop answer of an awaited agent (Table 5-4): the agent is no longer awaited; an SNP_INV's holder is removed; a
poisoned answer under FAULT leaves the line I (R113). -/
def State.takeAnswer (s : State) (t : Trk) (aid : Nat) (d : Option (BitVec 512 × Bool)) : State :=
  let t1 := { t with awaited := t.awaited.filter (fun a => a.1 != aid) }.storing (d.isSome && s.answerMirrored t)
  let fwd := t.kind != .inv
  let s1 := match d with
    | some (x, p) => s.storeAnswer t x p
    | none => s
  match fwd, d with
  | true, some (_, true) =>
    s1.answered { t1 with dead := t.fault && !t.serve && (s.cxlPort aid).isNone }
  | true, _ => s1.answered t1
  | false, _ =>
    s1.answered { t1 with before := t.before.bind (fun e => e.leave aid) }

/-- A snoop answer at HOME (R140, R143, R152): owed answers first, then awaited ones; any other is stray. `la6` is the
PGA >> 6 of the answer. -/
def State.homeAnswer (s : State) (aid la : Nat) (d : Option (BitVec 512 × Bool)) (tid job slots : Nat) : State :=
  let t? := s.trks.find? (fun t => t.la == la && t.awaited.any (fun a => a.1 == aid))
  let owed? := s.owed.find? (fun o => o.1 == aid && o.2.1 == la)
  let cost := match owed?, t? with
    | some o, _ => o.2.2
    | none, some t => (t.tid, t.job)
    | none, none => (tid, job)
  let s0 := s.count 0 cost.1 cost.2 slots
  if !s.live aid then
    ((s0.bump HOME_STRAY_ACK).raise pgHOME I_HOME_STRAY).crumb pgHOME 0x202 1 [la % 2 ^ 32, la / 2 ^ 32, aid]
  else if owed?.isSome then
    let s1 := { s0 with owed := dropFirst (fun o => o.1 == aid && o.2.1 == la) s0.owed }
    match t? with
    | some t =>
      -- absorbed under R141: stored, the agent removed, its answer still awaited
      let s2 := match d with
        | some (x, p) => s1.storeAnswer t x p
        | none => s1
      (s2.bump HOME_ABSORBED).holderGone (t.storing (d.isSome && s1.answerMirrored t)) aid
    | none =>
      let rg := (s1.regionOf s1.openEpoch (la * 64)).getD 0
      let (n, s2) := s1.nextOrd
      let r := { Req.blank with
        id := s2.nextId, op := if d.isSome then .wb else .clnEvict, intern := true, aid := aid, off := la * 64, region := rg,
        place := .home, order := n, epoch := s2.openEpoch, data := (d.getD (0, false)).1, psn := (d.getD (0, false)).2,
        admInc := some 0, key := (s2.keyFor s2.openEpoch rg la).map (·.1) }
      { s2 with reqs := s2.reqs ++ [r], nextId := s2.nextId + 1 }
  else match t? with
    | some t => s0.takeAnswer t aid d
    | none => ((s0.bump HOME_STRAY_ACK).raise pgHOME I_HOME_STRAY).crumb pgHOME 0x202 1 [la % 2 ^ 32, la / 2 ^ 32, aid]

/-! ### Arrival at the home -/

/-- A resolved request handed to HOME's entry: it joins its line's conflict queue, but for an eviction that is absorbed
(R141); an RD_OWN of an agent snooped by group counts as its answer (R142). -/
def State.homeArrive (s : State) (rid : Nat) : State :=
  match s.req rid with
  | none => s
  | some r =>
    let t? := s.trks.find? (fun t => t.la == r.la && t.awaited.any (fun a => a.1 == r.aid) && !r.intern)
    match t? with
    | some t =>
      if (r.op == .wb || r.op == .clnEvict) && r.admInc.isSome then s.absorb t r
      else
        let (n, s1) := s.nextOrd
        let s2 := (s1.updReq rid (fun r => { r with place := .home, order := n })).bump HOME_CONFLICT_WAITS
        if r.op == .rdOwn && s.incOk r && t.awaited.any (fun a => a == (r.aid, true)) then
          let s3 := { s2 with owed := s2.owed ++ [(r.aid, r.la, t.tid, t.job)] }.bump HOME_PRESUMED
          s3.answered { t with awaited := t.awaited.filter (fun a => a.1 != r.aid) }
        else s2
    | none =>
      let (n, s1) := s.nextOrd
      let busy := s.isOpen r.la || !(s.waitingAt r.la).isEmpty
      let s2 := s1.updReq rid (fun r => { r with place := .home, order := n })
      (if busy then s2.bump HOME_CONFLICT_WAITS else s2).sample pgHOME 1 s2.longestQueue

end Sys2Proof.Machine
end

