-- ==== Sys2Proof/Machine/Loss.lean ====
section
/-! DEFINITION. What HOME does when an agent dies (R151 to R163): the agent table, declaration, the tracker pass, the
sweep and its actions; and the sets that an uncorrectable error broke (R149). -/
namespace Sys2Proof.Machine

open Reg

/-! ### Sweep actions (Table 6-3) -/

/-- Whether an AID is one that HOME no longer serves. -/
def State.dead (s : State) (aid : Nat) : Bool := !s.live aid

/-- Lines poisoned and entries dropped, added to the counts of an agent's sweep (R155). -/
def State.sweepCount (s : State) (aid poisoned dropped : Nat) : State :=
  match s.scan with
  | none => s
  | some c => { s with scan := some { c with
      agents := c.agents.map (fun a => if a.1 == aid then (a.1, a.2.1, a.2.2.1 + poisoned, a.2.2.2 + dropped) else a) } }

/-- The read of a line and its write back with the poison mark, counted to TID 0 and JOB 0 (Table 6-3, R161). -/
def State.poisonLine (s : State) (off region tid job : Nat) : State :=
  let (q, e) := lineEntry .poisonize .home off tid job s.openEpoch none
  s.enqueue q { e with
    key := (s.keyFor s.openEpoch region (off / 64)).map (·.1), poison := true,
    mirror := s.attr s.openEpoch TEN_R_MIRROR region && s.twCovers off }

/-- The sweep action on a line's entry, for every agent it names that is not Live (Table 6-3, R157). -/
def State.applySweep (s : State) (la : Nat) : State :=
  match s.ent la with
  | none => s
  | some e =>
    if e.coarse then s
    else if e.modif then
      if s.dead e.owner then
        let s1 := (s.setEnt la none).poisonLine (la * 64) e.region 0 0
        (s1.twDelta la e.region none false 0 0).2.sweepCount e.owner 1 0
      else s
    else
      let gone := (e.ptrs.map (·.1)).filter s.dead
      if gone.isEmpty then s
      else
        let p := e.ptrs.filter (fun p => s.live p.1)
        let new := if p.isEmpty then none else some { e with ptrs := p }
        let s1 := ((s.setEnt la new).twDelta la e.region new false 0 0).2
        gone.foldl (fun s a => s.sweepCount a 0 1) s1

/-- A line's transaction ended, with the sweep action on the entry it leaves (R157). -/
def State.endTx (s : State) (la : Nat) : State := (s.closeLine la).applySweep la

/-- The sweep action on a line whose transaction has ended with its bracketed step. -/
def State.settleEnd (s : State) (la : Nat) : State := if s.isOpen la then s else s.applySweep la

/-! ### The tracker pass (R158) -/

/-- R150 and the loss completion: the line stored poisoned, the requester recorded, the answer CMP without data. -/
def State.lossForward (s : State) (t : Trk) : State :=
  let s1 := { s with trks := s.trks.filter (fun x => x.slot != t.slot) }.closeLine t.la
  match s1.req t.req with
  | none => s1
  | some r =>
    let inc := (s1.agent r.aid).inc
    let new := match t.kind with
      | .fwdS => some (entOf r.la r.region false r.aid inc)
      | .fwdOwn => some (entOf r.la r.region true r.aid inc)
      | _ => none
    let owner := match t.before with
      | some e => e.owner
      | none => 0
    let s2 := ((s1.dropHolder r new).poisonLine r.off r.region r.tid r.job).sweepCount owner 1 0
    let s3 := if r.cxl && r.val = cxlAnswered then s2.endReq r.id
      else s2.finish r.id (if s.attr r.epoch TEN_R_UE r.region then stPoison else stUE) 0 none
    (s3.settleEnd r.la).sample pgHOME 0 s2.trks.length

/-- One tracker of the pass for a dead agent: a forward whose owner still counts as one is lost, also where a back-invalidate of a CXL
host stands for it (DESIGN CHOICE, assumption 121); any other wait counts as answered without data. -/
def State.passTrk (s : State) (aid slot : Nat) : State :=
  match s.trks.find? (fun t => t.slot == slot) with
  | none => s
  | some t =>
    if t.awaited.any (fun a => a.1 == aid) then
      if t.kind != .inv && !t.serve then s.lossForward t
      else (s.takeAnswer t aid none).settleEnd t.la
    else s

/-- The tracker pass: every tracker in order, and owed answers of the agent cancelled. -/
def State.trackerPass (s : State) (aid : Nat) : State :=
  let s1 := (s.trks.map (·.slot)).foldl (fun s n => s.passTrk aid n) s
  { s1 with owed := s1.owed.filter (fun o => o.1 != aid) }

/-- Whether a message waits for an agent that HOME no longer serves: every one to it but the answers to its own system messages
(R152). -/
def Msg.forAgent (m : Msg) (aid : Nat) : Bool :=
  if m.cls.toNat = clsRsp then !m.rsDnode && m.rsDst == aid
  else if m.cls.toNat = clsSnp then m.rsDst == aid
  else m.cls.toNat == clsSys && m.opc == 0x84 && !m.syDnode && m.syDst == aid

/-- The messages to an agent that still wait in a transmitter, discarded; RSP-class ones are counted in RSP_DROP (R152). -/
def State.purgeTx (s : State) (aid : Nat) : State :=
  s.ports.foldl (fun (s : State) p =>
    let gone := p.2.txq.filter (fun x => Msg.forAgent x.1 aid)
    if gone.isEmpty then s
    else (s.setPort p.1 { s.port p.1 with txq := p.2.txq.filter (fun x => !Msg.forAgent x.1 aid) }).bumpBy FPORT_RSP_DROP
      (gone.filter (fun x => x.1.cls.toNat == clsRsp)).length p.1) s

/-! ### Declaration -/

/-- Sets of the directory. -/
def dirSets : Nat := 2 ^ 25

def State.setAgent (s : State) (aid : Nat) (a : Agent) : State := { s with agents := Tab.set s.agents aid a }

/-- The set scanner at rest. -/
def Scan.idle : Scan := { agents := [], regionRc := none, image := none, next := 0 }

/-- The set scanner joined at the set it has reached (R161). -/
def State.joinSweep (s : State) (aid : Nat) : State :=
  let c := s.scan.getD Scan.idle
  { s with scan := some { c with agents := c.agents ++ [(aid, dirSets, 0, 0)] } }

/-- Causes of declaration (Table 6-2), as AGENT_LOST codes. -/
def lostNotice : Nat := 0
def lostPort : Nat := 1
def lostCxl : Nat := 2

/-- A declaration (R153, R155): nothing for an agent that is not Live. The sweep's counts take in the lines that the tracker pass poisons. The agent's mailbox is released (R483). -/
def State.declare (s : State) (aid cause : Nat) : State :=
  let a := s.agent aid
  if a.state = agLive then
    let s0 : State := if s.warden.owner = some aid then { s with warden := { s.warden with owner := none } } else s
    let s1 := (s0.setAgent aid { a with state := agScanning, cause := cause }).purgeTx aid
    let s2 := s1.crumb pgHOME 0x210 2 [packBits [(0, 12, aid), (12, 4, cause), (16, 16, a.inc)]]
    (s2.joinSweep aid).trackerPass aid
  else s

/-- An agent-table write (R151, Table 6-1), at its place in the window for a CFG_ERR. -/
def State.agentWrite (s : State) (aid state inc : Nat) : State :=
  let a := s.agent aid
  if a.state = agAbsent && state = agLive then s.setAgent aid { state := agLive, inc := inc % 65536, fencedAt := 0 }
  else if a.state = agLive && state = agFenced && inc = a.inc then s.declare aid lostNotice
  else if a.state = agFenced && state = agLive && inc = (a.inc + 1) % 65536 && s.ao ≥ a.fencedAt + 1563 then
    s.setAgent aid { state := agLive, inc := inc, fencedAt := 0 }
  else s.cfgErr pgDIRC (0x800 + aid * 4 / 0x1000) (aid * 4 % 0x1000)

/-- AGENT_ADMIT. -/
def execAgentAdmit (aid : BitVec 12) (inc : BitVec 16) (s : State) : Host.Outcome State Fault Refusal := s.onBlk pgDIRC <|
  .next (s.agentWrite aid.toNat agLive inc.toNat)

/-- AGENT_NOTICE. -/
def execAgentNotice (aid : BitVec 12) (inc : BitVec 16) (s : State) : Host.Outcome State Fault Refusal := s.onBlk pgDIRC <|
  .next (s.agentWrite aid.toNat agFenced inc.toNat)

/-- AGENT_READMIT: the write of Live to a Fenced entry. -/
def execAgentReadmit (aid : BitVec 12) (inc : BitVec 16) (s : State) : Host.Outcome State Fault Refusal := s.onBlk pgDIRC <|
  .next (s.agentWrite aid.toNat agLive inc.toNat)

/-! ### The sweep (R160, R161) -/

/-- An internal request at the home's entry, counted to TID 0 and JOB 0: it joins its line's conflict queue. -/
def State.homeIntern (s : State) (op : Op) (la region : Nat) : State :=
  let (n, s1) := s.nextOrd
  let r := { Req.blank with
    id := s1.nextId, op := op, intern := true, off := la * 64, region := region, place := .home, order := n, epoch := s1.openEpoch,
    key := (s1.keyFor s1.openEpoch region la).map (·.1) }
  { s1 with reqs := s1.reqs ++ [r], nextId := s1.nextId + 1 }

/-- Work of the node in a tenant's internal queue at SHAPE (R146, R213). -/
def State.queueIntern (s : State) (op : Op) (tid job la region : Nat) : State :=
  let (n, s1) := s.nextOrd
  let r := { Req.blank with
    id := s1.nextId, op := op, intern := true, tid := tid, job := job, off := la * 64, region := region, place := .queued, order := n }
  { s1 with reqs := s1.reqs ++ [r], nextId := s1.nextId + 1 }


/-- Whether an entry needs a sweep action for an agent. -/
def DirEnt.namesDead (e : DirEnt) (aid : Nat) : Bool := !e.shadow && e.names aid

/-- The sweep actions of a set queued for the agents that still need it. -/
def State.sweepSet (s : State) (set : Nat) (ags : List Nat) : State :=
  ((s.setEnts set).filter (fun e => ags.any e.namesDead)).foldl (fun (s : State) e => s.homeIntern .sweep e.la e.region) s

/-- The recalls of a set's entries of a region, or of every region under number 4,096 (R174, R467). -/
def State.recallSet (s : State) (set : Nat) (rg : Option Nat) : State :=
  match rg with
  | none => s
  | some n => ((s.setEnts set).filter (fun e => (n == 4096 || e.region == n) && !e.shadow)).foldl
      (fun (s : State) e => s.queueIntern .recall 0 0 e.la e.region) s

/-- The entries of a set that are of mirrored lines, each a probe ordered at its line whose entry goes to the partner (R378). -/
def State.imageSet (s : State) (set : Nat) (on : Bool) : State :=
  if on then ((s.setEnts set).filter (fun e => !e.shadow && s.attr s.openEpoch TEN_R_MIRROR e.region)).foldl
      (fun (s : State) e => (s.homeIntern .resync e.la e.region).updReq s.nextId (fun r => { r with gen := 1 })) s
  else s

/-- One set further, wrapping after the last. -/
def Scan.advance (c : Scan) : Scan := {
  agents := c.agents.map (fun (a : Nat × Nat × Nat × Nat) => (a.1, a.2.1 - 1, a.2.2)),
  regionRc := c.regionRc.map (fun (r : Nat × Nat) => (r.1, r.2 - 1)), image := c.image.map (fun n => n - 1),
  next := (c.next + 1) % dirSets }

/-- SWEEP_STEP: one set read, its sweep actions queued, the entries of a recalled region recalled, and those of mirrored lines probed for
a partner that resynchronizes (R160, R174, R378). -/
def execSweepStep (s : State) : Host.Outcome State Fault Refusal := s.onBlk pgHOME <|
  match s.scan with
  | none => .next s
  | some c =>
    let ags := (c.agents.filter (fun a => a.2.1 != 0)).map (·.1)
    let rg := (c.regionRc.filter (fun r => r.2 != 0)).map (·.1)
    let im := c.image.any (fun n => n != 0)
    if ags.isEmpty && rg.isNone && !im then .next s
    else
      let s1 := if s.cached c.next then s else s.readSet c.next 0 0 s.openEpoch none
      .next { ((s1.sweepSet c.next ags).recallSet c.next rg).imageSet c.next im with scan := some c.advance }

/-- Whether an entry is a read of the sweep, or a line that it poisons (R160, R161). -/
def Entry.sweeps (e : Entry) : Bool := match e.kind with
  | .read (.dirSet _) | .poisonize => e.req.isNone
  | _ => false

/-- Whether a read of the sweep has not returned, or a line that it poisons has not been accepted, which is when the action ends (R130,
R160). -/
def Queue.sweeping (c : Queue) : Bool :=
  c.waiting.any Entry.sweeps || (c.entries.filter Entry.sweeps).any (fun e => e.kind != .poisonize) || c.rets.any (fun x => x.ent.sweeps && x.ent.kind != .poisonize)

/-- Whether sweep actions that name an agent's lines, or accesses of the sweep, are still under way. -/
def State.sweepBusy (s : State) (aid : Nat) : Bool :=
  s.reqs.any (fun r => r.op == .sweep && (s.dir.any (fun e => e.la == r.la && e.namesDead aid))) || s.queues.any (fun q => q.2.sweeping)

/-- The scanner without work is at rest. -/
def Scan.rest (c : Scan) : Option Scan := if c.agents.isEmpty && c.regionRc.isNone && c.image.isNone then none else some c

/-- SWEEP_END: an agent whose sets have all been read and whose actions have ended becomes Fenced (R155, R160). -/
def execSweepEnd (s : State) : Host.Outcome State Fault Refusal := s.onBlk pgHOME <|
  match s.scan with
  | none => .next s
  | some c =>
    match c.agents.find? (fun a => a.2.1 == 0 && !s.sweepBusy a.1) with
    | none => .next s
    | some a =>
      let g := s.agent a.1
      let s1 := s.setAgent a.1 { g with state := agFenced, fencedAt := s.ao }
      let s2 := s1.crumb pgHOME 0x211 1 [packBits [(0, 12, a.1), (12, 4, g.cause), (16, 16, g.inc)], a.2.2.1, a.2.2.2]
      .next { s2 with scan := { c with agents := c.agents.filter (fun x => x.1 != a.1) }.rest }

/-! ### Broken sets (R149) -/

/-- An uncorrectable error in a set read from the store: the set is cleared and broken, its lines to be settled in the
background through SHAPE; a seventeenth set stops HOME, which closes admission (R149). -/
def State.breakSet (s : State) (set : Nat) : State :=
  if (s.brokenSet set).isSome then s
  else
    let slot := s.broken.length
    let s1 := (s.raise pgDIRC I_DIRC_DIR_UE).crumb pgHOME 0x204 2 [set, slot]
    let s2 := { s1 with dir := s1.dir.filter (fun e => dirSet e.la != set) }.sampleDir
    if slot < 16 then
      let s3 := { s2 with broken := s2.broken ++ [{ set := set, settled := [] }] }
      ((setLas set).filterMap (fun la => (s3.cohRegion la).map (fun n => (la, n)))).foldl
        (fun (s : State) p => s.queueIntern .settle 0 0 p.1 p.2) s3 |>.freeBroken set
    else
      let s3 := (s2.raise pgDIRC I_DIRC_BROKEN_FULL).wr H_COND 2 pgHOME
      { s3 with shape := { s3.shape with halted := true } }

end Sys2Proof.Machine
end

