-- ==== Sys2Proof/Machine/Port.lean ====
section
/-! DEFINITION. The fabric ports: receiving flits (R62 to R73), LCTL kinds, training, Recovery and Down (R77 to R83), and
cable modules (R91, R92). -/
namespace Sys2Proof.Machine

open Reg

/-! ### LCTL flits (Tables 3-4 and 3-11) -/

/-- Four credit counts as LCTL fields. -/
def creditFields (req snp rsp sys : Nat) : List (Nat × Nat × Nat) := [(16, 16, req), (32, 16, snp), (48, 16, rsp), (64, 16, sys)]

/-- A training flit: it carries no sequence number, since SEQ starts at step 7. -/
def State.emitTraining (s : State) (p : Nat) (slot : Slot) : State :=
  s.out (.flit p {
    ftype := BitVec.ofNat 2 ftLctl, seq := 0, ack := 0, nak := false, tag := false, crdClass := 0, crdCount := 0, ksel := false,
    slots := fillSlots [slot] })

/-- The AIDs of the node's CXL links (Table 3-11, R123). -/
def State.cxlAids (s : State) : List Nat :=
  ((List.range 16).filter (fun p => (s.port p).isCxl)).map (fun p => s.rd FPORT_CXL_AID p)

/-- PARAMS as the node sends it. -/
def State.sendParams (s : State) (p : Nat) : State :=
  let a := s.cxlAids
  let lo := a.foldl min 4095
  let hi := a.foldl max 0
  s.emitTraining p (lctlSlot lkParams [(8, 8, 1), (16, 2, 3), (24, 1, 1), (25, 1, s.rd FPORT_ENC_REQUIRE p), (32, 9, s.nid),
    (48, 12, if a.isEmpty then 0 else lo), (64, 13, if a.isEmpty then 0 else hi - lo + 1), (80, 16, 512)])

/-! ### Modules (R91, R92) -/

/-- The CMIS copy of a port: zero without a module or without readable data. -/
def State.copyCmis (s : State) (p : Nat) (m : Option Module) : State :=
  let z : Module := { cmis := false, idByte := 0, rev := 0, state := 0, maxPwr := 0, length := 0, vendor := 0, partNum := 0, serial := 0 }
  let v := match m with
    | some x => if x.cmis then x else z
    | none => z
  let s1 := ((((((s.wr FPORT_CMIS_ID v.idByte.toNat p).wr FPORT_CMIS_REV v.rev.toNat p).wr FPORT_CMIS_STATE v.state.toNat p).wr
    FPORT_CMIS_VALID (b2n v.cmis) p).wr FPORT_CMIS_MAXPWR v.maxPwr.toNat p).wr FPORT_CMIS_LENGTH v.length.toNat p)
  (List.range 4).foldl (fun (s : State) i =>
    ((s.wr FPORT_CMIS_VENDOR (v.vendor.toNat / 2 ^ (32 * i)) p i).wr FPORT_CMIS_PN (v.partNum.toNat / 2 ^ (32 * i)) p i).wr
      FPORT_CMIS_SN (v.serial.toNat / 2 ^ (32 * i)) p i) s1

/-- DOWN_REASON codes (Table 3-9). -/
def drDisabled : Nat := 1
def drTrainFail : Nat := 2
def drTimeout : Nat := 3
def drAuth : Nat := 4
def drNoKey : Nat := 5
def drParams : Nat := 6
def drPeerDown : Nat := 7
def drModulePower : Nat := 8
def drModuleId : Nat := 9

/-- Why a port's module keeps it from training, if it does. -/
def State.moduleHold (s : State) (p : Nat) (m : Module) : Option Nat :=
  if m.cmis && m.maxPwr.toNat > 64 then some drModulePower
  else if !m.cmis && s.rd FPORT_CMIS_OPTIONAL p = 0 then some drModuleId
  else none

/-! ### Training -/

/-- Whether a port is the odd half of a CXL pair (R84). -/
def State.paired (s : State) (p : Nat) : Bool := p % 2 == 1 && (s.port (p - 1)).isCxl

def State.setState (s : State) (p : Nat) (t : Train) : State := s.setPort p { s.port p with train := t }

/-- Agents of a port's range that are Live. -/
def State.liveBehind (s : State) (p : Nat) : List Nat :=
  (s.agents.filter (fun a => a.2.state == agLive && s.inRange p a.1)).map (·.1)

/-- The buffers of a port that enters Down emptied: what has not reached admission is discarded, and a response that still waited to
be sent is counted (R82). -/
def State.clearLink (s : State) (p : Nat) : State :=
  let c := s.port p
  (c.txq.foldl (fun (s : State) x => if x.1.cls.toNat = clsRsp then s.bump FPORT_RSP_DROP p else s) (s.setPort p c.unlinked)).wr
    FPORT_WIDTH 0 p

/-- Down (R80 to R83). `dn` says whether a DOWN flit may be sent first. -/
def State.goDown (s : State) (p reason : Nat) (dn : Bool) : State :=
  let c := s.port p
  let wasAlive := c.alive
  let s1 := if dn && c.isUp && !c.isCxl then s.emitFlit p ftLctl [lctlSlot lkDown [(8, 4, reason)]] true else s
  let s4 := (s1.clearLink p).wr FPORT_DOWN_REASON reason p
  let held := reason = drTrainFail || reason = drModulePower || reason = drModuleId
  let s5 := if wasAlive || (held && c.train != .down) then
      (s4.raise (pgFPORT p) I_FPORT_LINK_DOWN).crumb (pgFPORT p) 0x104 2 [packBits [(0, 4, p), (8, 4, reason)]]
    else s4
  if wasAlive then
    let s6 := s5.bump FPORT_DOWNS p
    if c.isCxl then s6.declare (s6.rd FPORT_CXL_AID p) lostCxl
    else
      let role := s6.rd FPORT_PEER_ROLE p
      if role = roleNode then s6.twMoved s none
      else (s6.liveBehind p).foldl (fun (s : State) a => s.declare a lostPort) s6
  else s5

/-- An attempt of one port at step 2: the mode written takes effect (R84), the link state begins anew. MODE 0b10 leaves the port
Down (R78; assumption 114). -/
def State.attemptOne (s : State) (p : Nat) : State :=
  let c := s.port p
  let off := s.rd FPORT_MODE p = 2
  let s1 := (s.setPort p { c.unlinked with
    train := if off then .down else .step 2, mode := s.rd FPORT_MODE p }).wr FPORT_WIDTH 0 p
  if off && c.train != .down then s1.wr FPORT_DOWN_REASON drDisabled p else s1

/-- Training begins where R78 lets it: ENABLE 1, not disabled, a module present that does not hold the port, and no hold
of TRAIN_FAIL unless `fresh` lifts it. -/
def State.trainBy (s : State) (p : Nat) (fresh : Bool) (go : State → State) : State :=
  let c := s.port p
  match c.train, c.module with
  | .down, some m =>
    if s.rd FPORT_ENABLE p = 1 && s.rd FPORT_MODE p ≠ 2 && !s.paired p then
      let s1 := s.copyCmis p (some m)
      match s1.moduleHold p m with
      | some r =>
        let s2 := s1.wr FPORT_DOWN_REASON r p
        if r = drModulePower then s2.raise (pgFPORT p) I_FPORT_MODULE_POWER else s2
      | none => if !fresh && s1.rd FPORT_DOWN_REASON p = drTrainFail then s1 else go (s1.setPort p { c with attempts := 0 })
    else s
  | _, _ => s

/-- An attempt: an even port that begins it in CXL mode takes the odd port of its pair Down, and one that leaves CXL mode lets the odd
port train again (R78, R84; assumption 114). -/
def State.attempt (s : State) (p : Nat) : State :=
  let was := (s.port p).isCxl
  let cxl := s.rd FPORT_MODE p = 1
  if p % 2 = 1 then s.attemptOne p
  else if cxl && !was then (if (s.port (p + 1)).train == .down then s else s.goDown (p + 1) drDisabled true).attemptOne p
  else if was && !cxl then (s.attemptOne p).trainBy (p + 1) false (fun s => s.attemptOne (p + 1))
  else s.attemptOne p

/-- Training begins where R78 lets it. -/
def State.tryTrain (s : State) (p : Nat) (fresh : Bool := false) : State := s.trainBy p fresh (fun s => s.attempt p)

/-- Down, and a new attempt where R78 lets it begin at once. -/
def State.fall (s : State) (p reason : Nat) (dn : Bool) : State := (s.goDown p reason dn).tryTrain p

/-- Recovery (R79): entered from Up only. -/
def State.recover (s : State) (p : Nat) : State :=
  let c := s.port p
  if c.isUp then
    (((s.setPort p { c with train := .recovery 4, recoverAt := s.ao, nakCount := 0, nakSeen := 0, uncorr := [] }).bump
      FPORT_RECOVERY p).raise (pgFPORT p) I_FPORT_RECOVER).twMoved s none
  else s

/-- Every held flit sent again, in order (R69, R79). -/
def State.replayAll (s : State) (p : Nat) : State := (s.port p).replay.foldl (fun (s : State) f => s.out (.flit p f)) s

/-- Whether encryption applies to a link (R72). -/
def State.wantEnc (s : State) (p : Nat) : Bool :=
  match (s.port p).lastParams with
  | some q => (s.rd FPORT_ENC_REQUIRE p = 1 || q.encReq) && q.encCap
  | none => false

/-- Agents that Warden sets Live when a port reaches Up: the profile's management agents behind it and, with a blank profile, every
agent that FPORT0's peer reports in PARAMS, with incarnation 0 (R480). -/
def State.bootAgents (s : State) (p : Nat) : State :=
  let w := s.warden
  let peer := match (s.port p).lastParams with
    | some q => if w.blank && p = 0 then (List.range q.aidCount.toNat).map (fun i => (q.aidFirst.toNat + i, 0)) else []
    | none => []
  (w.agents ++ peer).foldl (fun (s : State) a =>
    if (s.agent a.1).state = agAbsent && s.inRange p a.1 then s.setAgent a.1 { state := agLive, inc := a.2, fencedAt := 0 } else s) s

/-- A link that reaches Up: what waits is sent. -/
def State.linkUp (s : State) (p : Nat) : State := ((((s.setState p .up).raise (pgFPORT p) I_FPORT_LINK_UP).bootAgents p).pump p).twMoved s (some p)

/-- The checks of R77 on a peer's PARAMS. The reserved ROLE 0, for which R77 names no check, is judged like an agent or a switch
(DESIGN CHOICE, assumption 120). -/
def State.paramsOk (s : State) (p : Nat) (q : ParamsFlit) : Bool :=
  let enc := s.rd FPORT_ENC_REQUIRE p = 1 || q.encReq
  let range := if q.role.toNat = roleNode then q.nid.toNat = s.rd FPORT_PEER_NID p
    else q.aidCount = 0 || (s.rd FPORT_AID_FIRST p ≤ q.aidFirst.toNat &&
      q.aidFirst.toNat + q.aidCount.toNat - 1 ≤ s.rd FPORT_AID_LAST p)
  range && (!enc || q.encCap)

/-- Step 6 judged: the link goes on to step 7, where the node sends its credits, or is held with DOWN_REASON PARAMS, and its transmitter
keeps sending PARAMS (R77). -/
def State.judgeParams (s : State) (p : Nat) (q : ParamsFlit) : State :=
  let c := s.port p
  if s.paramsOk p q then
    (s.setPort p { c with train := .step 7, refused := false, lastParams := some q }).emitTraining p
      (lctlSlot lkCreditInit (creditFields 2048 512 4096 512))
  else ((s.setPort p { c with refused := true, lastParams := some q }).wr FPORT_DOWN_REASON drParams p).sendParams p

/-- A refused link judged again, after a commit or a write of ENC_REQUIRE (R77). -/
def State.rejudge (s : State) (p : Nat) : State :=
  let c := s.port p
  match c.lastParams with
  | some q => if c.train == .step 6 && c.refused then s.judgeParams p q else s
  | none => s

/-- PARAMS sent again by every refused link, which keeps sending them (R77). -/
def State.paramsAgain (s : State) : State :=
  ((List.range 16).filter (fun p => (s.port p).train == .step 6 && (s.port p).refused)).foldl (fun (s : State) p => s.sendParams p) s

/-- A trained width that the port may use: x8, or x4 where FALLBACK_EN allows (R60). -/
def State.widthOk (s : State) (p lanes : Nat) : Bool := lanes = 3 || ((lanes = 1 || lanes = 2) && s.rd FPORT_FALLBACK_EN p = 1)

/-- The next step of Table 3-5. A CXL link has no PARAMS, credits or keys of CCF: from FEC lock it goes to step 9. A link that must
encrypt does not pass step 8 before its transmitter has a key set (R72; DESIGN CHOICE, assumption 120). -/
def State.trainStep (s : State) (p lanes : Nat) : State :=
  let c := s.port p
  match c.train with
  | .step n =>
    if n = 2 || n = 3 then s.setState p (.step (n + 1))
    else if n = 4 then (if s.widthOk p lanes then (s.setState p (.step 5)).wr FPORT_WIDTH lanes p else s)
    else if n = 5 then
      if c.mode = 1 then s.setState p (.step 9) else (s.setState p (.step 6)).sendParams p
    else if n = 8 then
      if !s.wantEnc p then s.setState p (.step 9)
      else if c.txCrypt.loaded false || c.txCrypt.loaded true then
        (s.sendKeySwitch p (if c.txCrypt.loaded c.txCrypt.sel then c.txCrypt.sel else !c.txCrypt.sel)).setState p (.step 9)
      else s
    else if n = 9 then s.linkUp p
    else s
  | .recovery n =>
    if n = 4 then (if s.widthOk p lanes then (s.setState p (.recovery 5)).wr FPORT_WIDTH lanes p else s)
    else (((s.setState p .up).replayAll p).pump p).twMoved s (some p)
  | _ => s

/-- TRAINING_STEP_DONE. -/
def execTrainingStepDone (port : Fin 16) (lanes : BitVec 2) (s : State) : Host.Outcome State Fault Refusal := s.onBlk (pgFPORT port.val) <|
  .next (s.trainStep port.val lanes.toNat)

/-- PARAMS: the peer's PARAMS in step 6. -/
def execParams (port : Fin 16) (p : ParamsFlit) (s : State) : Host.Outcome State Fault Refusal := s.onBlk (pgFPORT port.val) <|
  if (s.port port.val).train == .step 6 then
    let s1 := (s.wr FPORT_PEER_ROLE p.role.toNat port.val).wr FPORT_PEER_NID_SEEN (if p.role.toNat = roleNode then p.nid.toNat else 0) port.val
    .next (s1.judgeParams port.val p)
  else .next s

/-- CREDIT_INIT: the initial credits, in step 7. -/
def execCreditInit (port : Fin 16) (c : Credits) (s : State) : Host.Outcome State Fault Refusal := s.onBlk (pgFPORT port.val) <|
  let d := s.port port.val
  if d.train == .step 7 then .next (s.setPort port.val { d with
      train := .step 8, credits := [c.req.toNat, c.snp.toNat, c.rsp.toNat, c.sys.toNat], txSeq := 1, txAcked := 0, rxAck := 0 })
  else .next s

/-- TRAIN_ATTEMPT_TIMEOUT: an attempt past step 2 and not held at step 6 starts again; the third failure holds the port
Down. -/
def execTrainAttemptTimeout (port : Fin 16) (s : State) : Host.Outcome State Fault Refusal := s.onBlk (pgFPORT port.val) <|
  let p := port.val
  let c := s.port p
  match c.train with
  | .step n =>
    if n ≤ 2 || c.refused then .next s
    else if c.attempts + 1 ≥ 3 then .next (s.goDown p drTrainFail false)
    else .next ((s.setPort p { c with attempts := c.attempts + 1 }).attempt p)
  | _ => .next s

/-- LINK_TIMEOUT: the ticks since Recovery began have reached LINK_TIMEOUT. -/
def execLinkTimeout (port : Fin 16) (s : State) : Host.Outcome State Fault Refusal := s.onBlk (pgFPORT port.val) <|
  let p := port.val
  match (s.port p).train with
  | .recovery _ => if (s.port p).recoverAt + s.rd FPORT_LINK_TIMEOUT p ≤ s.ao then .next (s.fall p drTimeout false) else .next s
  | _ => .next s

/-- LOSS_OF_SIGNAL: an Up link enters Recovery; a training attempt waits at step 2 again and no attempt is counted as failed, since R78
counts those that pass 200 ms (DESIGN CHOICE, assumption 120). -/
def execLossOfSignal (port : Fin 16) (s : State) : Host.Outcome State Fault Refusal := s.onBlk (pgFPORT port.val) <|
  let p := port.val
  match (s.port p).train with
  | .up => .next (s.recover p)
  | .recovery _ => .next (s.setState p (.recovery 4))
  | .step _ => .next ((s.attempt p).wr FPORT_WIDTH 0 p)
  | .down => .next s

/-- RECOVER: a peer's RECOVER flit. -/
def execRecover (port : Fin 16) (s : State) : Host.Outcome State Fault Refusal := s.onBlk (pgFPORT port.val) <| .next (s.recover port.val)

/-- Whether a port takes flits: it is Up, or in step 8 or 9, in which KEY_SWITCH flits pass and a peer that is Up already sends
(Table 3-5). -/
def Port.listens (c : Port) : Bool := match c.train with
  | .up => true
  | .step n => decide (8 ≤ n)
  | _ => false

/-- A peer's DOWN accepted in sequence (R81). -/
def State.peerDown (s : State) (p reason : Nat) : State :=
  if (s.port p).listens then (s.wr FPORT_PEER_DOWN_REASON reason p).fall p drPeerDown false else s

/-- DOWN. -/
def execDown (port : Fin 16) (reason : BitVec 4) (s : State) : Host.Outcome State Fault Refusal := s.onBlk (pgFPORT port.val) <|
  .next (s.peerDown port.val reason.toNat)

/-- The effect of RETRAIN (R79). -/
def State.retrain (s : State) (p : Nat) : State :=
  let c := s.port p
  match c.train with
  | .up => s.recover p
  | .recovery _ => s
  | .step _ => (s.setPort p { c with attempts := 0 }).attempt p
  | .down => (s.setPort p { c with attempts := 0 }).tryTrain p true

/-- RETRAIN. -/
def execRetrain (port : Fin 16) (s : State) : Host.Outcome State Fault Refusal := s.onBlk (pgFPORT port.val) <|
  if s.paired port.val then .next s else .next (s.retrain port.val)

/-- The effect of a write of ENABLE (R78, R80). -/
def State.enableWrite (s : State) (p : Nat) (en : Bool) : State :=
  let was := s.rd FPORT_ENABLE p = 1
  let s1 := s.wr FPORT_ENABLE (b2n en) p
  if en && !was then s1.retrain p
  else if !en && was then s1.goDown p drDisabled true
  else s1

/-- The effect of a write of MODE: it takes effect at the next training, which a Down port begins at once (R78, Table 3-9). -/
def State.modeWrite (s : State) (p v : Nat) : State := (s.wr FPORT_MODE v p).tryTrain p

/-- ENABLE_WRITE. -/
def execEnableWrite (port : Fin 16) (en : Bool) (s : State) : Host.Outcome State Fault Refusal := s.onBlk (pgFPORT port.val) <|
  if s.paired port.val then .next s else .next (s.enableWrite port.val en)

/-- The effect of KEY_SWITCH (R75): the transmitter changes to the other key set, at once or as soon as the link is Up and the replay
buffer has room (R70, R79). The write is ignored where the other set is not loaded or the direction does not encrypt (DESIGN
CHOICE, assumption 120). -/
def State.keySwitchWrite (s : State) (p : Nat) : State :=
  let c := s.port p
  if c.alive && c.txCrypt.active && c.txCrypt.loaded (!c.txCrypt.sel) then (s.setPort p { c with keyDue := true }).dueKeySwitch p
  else s

/-- KEY_SWITCH_WRITE. -/
def execKeySwitchWrite (port : Fin 16) (s : State) : Host.Outcome State Fault Refusal := s.onBlk (pgFPORT port.val) <| .next (s.keySwitchWrite port.val)

/-- The receiver told of the key set of the flits that follow; whether it holds that set is found at the first flit that names it
(R75). -/
def State.rxKeySwitch (s : State) (p : Nat) (set : Bool) : State :=
  let c := s.port p
  s.setPort p { c with rxCrypt := { c.rxCrypt with active := true, sel := set, group := [] } }

/-- KEY_SWITCH: a peer's KEY_SWITCH flit, on a link in its steps 8 and 9 or Up. -/
def execKeySwitch (port : Fin 16) (set : Bool) (s : State) : Host.Outcome State Fault Refusal := s.onBlk (pgFPORT port.val) <|
  match (s.port port.val).train with
  | .up => .next (s.rxKeySwitch port.val set)
  | .step n => if n ≥ 8 then .next (s.rxKeySwitch port.val set) else .next s
  | _ => .next s

/-- Credits returned (R67), and what they let go. -/
def State.addCredits (s : State) (p : Nat) (l : List Nat) : State :=
  let c := s.port p
  (s.setPort p { c with credits := (c.credits.zip l).map (fun x => x.1 + x.2) }).pump p

/-- CREDIT. -/
def execCredit (port : Fin 16) (c : Credits) (s : State) : Host.Outcome State Fault Refusal := s.onBlk (pgFPORT port.val) <|
  if (s.port port.val).isUp then .next (s.addCredits port.val [c.req.toNat, c.snp.toNat, c.rsp.toNat, c.sys.toNat]) else .next s

/-- CREDIT_RETURN_TIMER: credit to return goes out in an LCTL CREDIT flit. -/
def execCreditReturnTimer (port : Fin 16) (s : State) : Host.Outcome State Fault Refusal := s.onBlk (pgFPORT port.val) <|
  let p := port.val
  let c := s.port p
  if c.isUp && c.toReturn.any (· != 0) && c.replay.length < 512 then
    let l := c.toReturn
    let s1 := s.setPort p { c with toReturn := [0, 0, 0, 0] }
    .next (s1.emitFlit p ftLctl [lctlSlot lkCredit (creditFields (l[0]?.getD 0) (l[1]?.getD 0) (l[2]?.getD 0) (l[3]?.getD 0))])
  else .next s

/-- ACK_TIMER: an IDLE flit carries ACK while an accepted flit is unacknowledged (R70). -/
def execAckTimer (port : Fin 16) (s : State) : Host.Outcome State Fault Refusal := s.onBlk (pgFPORT port.val) <|
  if (s.port port.val).listens && (s.port port.val).unackedRx > 0 then .next (s.emitFlit port.val ftIdle []) else .next s

/-- A NAK for the same ACK sent in an IDLE flit; the eighth without progress starts Recovery (R69, R71). -/
def State.sendNak (s : State) (p : Nat) : State :=
  let s1 := s.emitFlit p ftIdle []
  if (s1.port p).nakCount ≥ 8 then s1.recover p else s1

/-- NAK_REPEAT: 1 µs without progress since the last NAK. -/
def execNakRepeat (port : Fin 16) (s : State) : Host.Outcome State Fault Refusal := s.onBlk (pgFPORT port.val) <|
  let p := port.val
  let c := s.port p
  if c.listens && c.discarding && c.nakSent then .next ((s.setPort p { c with nakSent := false }).sendNak p) else .next s

/-- TAG_GROUP_CLOSE: an open tag group of the transmitter is closed by a flit without messages (R74). -/
def execTagGroupClose (port : Fin 16) (s : State) : Host.Outcome State Fault Refusal := s.onBlk (pgFPORT port.val) <|
  let p := port.val
  let c := s.port p
  if c.isUp && c.txCrypt.active && !c.txCrypt.group.isEmpty && c.replay.length < 512 then .next (s.emitFlit p ftMsg [] true) else .next s

/-- MODULE_CHANGE. The TMC powers a module whose CMIS maximum power is within the limit (R92, R459). A module removed during training
takes the port Down; Table 3-9 has no code for it and DOWN_REASON keeps its value (DESIGN CHOICE, assumption 120). -/
def execModuleChange (port : Fin 16) (m : Option Module) (s : State) : Host.Outcome State Fault Refusal :=
  let p := port.val
  let c := s.port p
  let on := m.any (fun (x : Module) => x.cmis && decide (x.maxPwr.toNat ≤ 64))
  let s0 : State := { s with tmc := { s.tmc with modPower := setNth s.tmc.modPower p on } }
  if s.stopped (pgFPORT p) then .next (s0.setPort p { c with module := m }) else
  let s1 := ((s0.setPort p { c with module := m, attempts := 0 }).copyCmis p m).raise (pgFPORT p) I_FPORT_MODULE_CHANGE
  let s2 := match m with
    | some x => if x.cmis && x.maxPwr.toNat > 64 then s1.raise (pgFPORT p) I_FPORT_MODULE_POWER else s1
    | none => s1
  match c.train with
  | .down =>
    .next (s2.tryTrain p true)
  | .step _ =>
    match m with
    | none => .next (s2.clearLink p)
    | some x => match s2.moduleHold p x with
      | some r => .next (s2.goDown p r false)
      | none => .next (s2.attempt p)
  | _ => .next s2

/-! ### Receiving flits -/

/-- A protocol error (R94): the Crumb, and Down with DOWN_REASON PARAMS. -/
def State.protocolError (s : State) (p cls opc : Nat) : State :=
  (s.crumb (pgFPORT p) 0x103 2 [packBits [(0, 4, p), (8, 8, opc), (16, 4, cls)]]).fall p drParams true

/-- Whether a header is one that R94 allows on a port. -/
def State.allowed (s : State) (p : Nat) (m : Msg) (d : Nat) : Bool :=
  let node := s.rd FPORT_PEER_ROLE p = roleNode
  match slotsAllowed m.cls.toNat m.opc node with
  | none => false
  | some (lo, hi) => lo ≤ d && d ≤ hi && m.rightEnds node

/-- One slot of an accepted MSG flit (R66). -/
def State.takeSlot (s : State) (p : Nat) (x : Slot) : State :=
  let c := s.port p
  if !c.listens then s
  else match c.partialMsg with
  | some (m, need) =>
    let m1 := { m with data := m.data ++ [x] }
    if need ≤ 1 then s.setPort p { c with partialMsg := none, rxBuf := c.rxBuf ++ [m1] }
    else s.setPort p { c with partialMsg := some (m1, need - 1) }
  | none =>
    if slotValid x then
      let m := slotMsg x
      if s.allowed p m (slotD x) then
        if slotD x = 0 then s.setPort p { c with rxBuf := c.rxBuf ++ [m] }
        else s.setPort p { c with partialMsg := some (m, slotD x) }
      else s.protocolError p m.cls.toNat m.opc
    else s

/-- An LCTL flit accepted in sequence; a reserved kind is ignored (Table 3-4). -/
def State.takeLctl (s : State) (p : Nat) (x : Slot) : State :=
  let v := x.toNat
  let k := bits v 0 8
  if k = lkCredit then s.addCredits p [bits v 16 16, bits v 32 16, bits v 48 16, bits v 64 16]
  else if k = lkKeySwitch then s.rxKeySwitch p (bit v 8)
  else if k = lkRecover then s.recover p
  else if k = lkDown then s.peerDown p (bits v 8 4)
  else s

/-- A sequenced flit delivered exactly once: its credits, then its slots. -/
def State.deliverFlit (s : State) (p : Nat) (f : Flit) : State :=
  let c := s.port p
  let l := (List.range 4).map (fun i => if i = f.crdClass.toNat then f.crdCount.toNat else 0)
  let s1 := (s.setPort p { c with rxAck := f.seq, unackedRx := c.unackedRx + 1 }).addCredits p l
  if f.ftype.toNat = ftLctl then s1.takeLctl p (f.slots.headD 0)
  else (if f.tag then f.slots.take 15 else f.slots).foldl (fun (s : State) x => s.takeSlot p x) s1

/-- A tag group whose last flit has arrived: verified, decrypted and delivered, or the link goes Down (R72, R73). -/
def State.closeGroup (s : State) (p : Nat) (g : List Flit) : State :=
  let c := s.port p
  match c.rxCrypt.key with
  | none => s.fall p drNoKey true
  | some k =>
    let n := c.rxCrypt.count
    let last := g.getLast?
    let good := match last with
      | some f => f.tag && groupTag k n g == f.slots.getLastD 0
      | none => false
    if good then
      let plain := ((List.range g.length).zip g).map (fun x => { x.2 with slots := gcmSlots k n x.1 x.2.slots (if x.2.tag then 15 else 16) })
      let s1 := s.setPort p { c with rxCrypt := c.rxCrypt.step }
      plain.foldl (fun (s : State) f => if (s.port p).listens then s.deliverFlit p f else s) s1
    else
      ((((s.setPort p { c with rxCrypt := { c.rxCrypt with group := [] } }).bump FPORT_AUTH_FAIL p).raise (pgFPORT p) I_FPORT_AUTH).crumb
        (pgFPORT p) 0x101 2 [p]).fall p drAuth true

/-- Whether a received flit's slots are encrypted: the direction has switched to a key set, or must encrypt and this is not the KEY_SWITCH
that begins it (R72). -/
def State.rxSealed (s : State) (p : Nat) (f : Flit) : Bool :=
  (s.port p).rxCrypt.active ||
    (s.wantEnc p && !(f.ftype.toNat == ftLctl && bits (f.slots.headD 0).toNat 0 8 == lkKeySwitch))

/-- A sequenced flit that is next in order. An encrypted one is of the key set that its KSEL names; where the receiver does not hold
that set the link goes Down with NO_KEY (R75). -/
def State.acceptFlit (s : State) (p : Nat) (f : Flit) : State :=
  let c := s.port p
  let s0 := if c.discarding then (s.bump FPORT_REPLAY p).winAdd (pgFPORT p) 1 1 else s
  let s1 := s0.setPort p { c with discarding := false, nakSent := false, nakCount := 0 }
  if s.rxSealed p f then
    if !c.rxCrypt.loaded f.ksel then s1.fall p drNoKey true
    else
      let g := c.rxCrypt.group ++ [f]
      let s2 := s1.setPort p { s1.port p with rxCrypt := { c.rxCrypt with active := true, sel := f.ksel, group := g } }
      if f.tag || g.length ≥ 8 then s2.closeGroup p g else s2
  else s1.deliverFlit p f

/-- The ACK of a header: cumulative within a window of 512 (R65); a NAK starts a replay (R69). -/
def State.takeAck (s : State) (p : Nat) (f : Flit) : State :=
  let c := s.port p
  let d := (f.ack - c.txAcked).toNat
  let c1 := if d ≤ 512 && d ≠ 0 then
      { c with txAcked := f.ack, replay := c.replay.filter (fun h => let e := (f.ack - h.seq).toNat; decide (e > 512)), nakSeen := 0 }
    else c
  let s1 := s.setPort p c1
  if f.nak then
    let s2 := ((s1.setPort p { c1 with nakSeen := c1.nakSeen + 1 }).bump FPORT_REPLAY p).winAdd (pgFPORT p) 1 1
    if c1.nakSeen + 1 ≥ 8 then s2.recover p else s2.replayAll p
  else s1

/-- A flit that R69 discards, with every later one until the next in order; a NAK goes out. -/
def State.refuseFlit (s : State) (p : Nat) : State :=
  let c := s.port p
  if c.discarding then s else (s.setPort p { c with discarding := true, nakSent := false }).sendNak p

/-- The uncorrectable flits of the last 1 µs: those of this AO tick of 640 ns and of the one before (assumption 20). -/
def Port.recentUncorr (c : Port) (ao : Nat) : List Nat := c.uncorr.filter (fun t => decide (ao ≤ t + 1))

/-- A decoded flit. An ACK goes out before 64 accepted flits are unacknowledged, those of an open tag group among them (R70, R73). -/
def State.takeFlit (s : State) (p : Nat) (f : Flit) : State :=
  if f.ftype.toNat = 3 then (s.bump FPORT_CRC_ERR p).refuseFlit p
  else
    let s1 := s.takeAck p f
    let c := s1.port p
    if f.ftype.toNat = ftIdle || !c.listens then s1.pump p
    else
      let want := c.rxAck + 1 + BitVec.ofNat 10 (if c.rxCrypt.active then c.rxCrypt.group.length else 0)
      if f.seq = want then
        let s2 := s1.acceptFlit p f
        let d := s2.port p
        if d.listens && 0 < d.unackedRx && 64 ≤ d.unackedRx + d.rxCrypt.group.length then (s2.emitFlit p ftIdle []).pump p
        else s2.pump p
      else if (want - f.seq).toNat ≤ 512 then s1
      else s1.refuseFlit p

/-- FLIT_RECEIVE: a wire flit at a CCF port that takes flits. -/
def execFlitReceive (port : Fin 16) (flit : Bytes) (s : State) : Host.Outcome State Fault Refusal := s.onBlk (pgFPORT port.val) <|
  let p := port.val
  let c := s.port p
  if !c.listens || c.isCxl then .next s
  else match flitOpen flit with
  | .badFec =>
    let l := c.recentUncorr s.ao ++ [s.ao]
    let s1 := (s.setPort p { c with uncorr := l }).bump FPORT_FEC_UNCORR p
    if l.length ≥ 16 then .next (s1.recover p) else .next (s1.refuseFlit p)
  | .badCrc n =>
    .next (((s.bumpBy FPORT_FEC_CORR n p).winAdd (pgFPORT p) 0 n).bump FPORT_CRC_ERR p |>.refuseFlit p)
  | .good b n => .next (((s.bumpBy FPORT_FEC_CORR n p).winAdd (pgFPORT p) 0 n).takeFlit p (flitOf b))

end Sys2Proof.Machine
end

