-- ==== Sys2Proof/Machine/Shape.lean ====
section
/-! DEFINITION. SHAPE: arrival checks, token buckets, the virtual-time scheduler, batching, panic, load feedback and
throttle (R213 to R235, R494). -/
namespace Sys2Proof.Machine

open Reg

/-! ### Classes of work -/

/-- WB and CLN_EVICT, which pass every check and wait apart (R99, R221). -/
def Op.bypasses : Op → Bool
  | .wb | .clnEvict => true
  | _ => false

/-- Requests that may share a batch (R225). -/
def Op.batches : Op → Bool
  | .rdS | .rdOwn | .upg | .rdCur | .wrFull | .wrPtl => true
  | _ => false

/-- The batch key (R225). -/
def Req.batchKey (r : Req) : Option (Nat × Bool × Nat) :=
  if r.op.batches && !r.intern then some (r.tid, r.as1, bits r.addr 16 36) else none

/-- The byte count of Table 9-2. -/
def Req.bytes (r : Req) : Nat :=
  match r.op with
  | .clnEvict | .jobOpen | .jobClose | .probe | .sweep => 0
  | .bakeSub | .bakeAbort | .planLoad | .planUnload => 16 * r.dslots.length
  | _ => 64

/-- The length that a request charges (R216), under an epoch's OVH. -/
def State.length (s : State) (r : Req) : Nat := r.bytes + s.rd SHAPE_T_OVH 0 r.tid

/-! ### Buckets (R217, R218) -/

def State.cTok (s : State) (t : Nat) : Int := Tab.get s.shape.ctok t 0
def State.pTok (s : State) (t : Nat) : Int := Tab.get s.shape.ptok t 0
def State.mode (s : State) (t : Nat) : Nat := s.rd SHAPE_T_MODE 0 t

/-- The most negative token count. -/
def tokMin : Int := -2147483648

/-- A signed 32-bit count that saturates at −2^31. -/
def satTok (x : Int) : Int := max tokMin x

/-- One refill of a bucket. -/
def refillTok (tok : Int) (rate cap : Nat) : Int := min (tok + rate) cap

/-- The refill of every active bucket. A bucket that is full, or was never touched, keeps its place in the table. -/
def State.refill (s : State) : State :=
  let one := fun (s : State) (t : Nat) =>
    let c := refillTok (s.cTok t) (s.rd SHAPE_T_CIR 0 t) (s.rd SHAPE_T_CBS 0 t)
    let p := refillTok (s.pTok t) (s.rd SHAPE_T_PIR 0 t) (s.rd SHAPE_T_PBS 0 t)
    if s.mode t = 1 then { s with shape := { s.shape with ctok := Tab.set s.shape.ctok t c } }
    else if s.mode t = 2 then { s with shape := { s.shape with ctok := Tab.set s.shape.ctok t c, ptok := Tab.set s.shape.ptok t p } }
    else s
  (List.range 256).foldl one s

/-- Whether a tenant's head request may be admitted by its buckets. -/
def State.test (s : State) (t : Nat) : Bool :=
  if s.mode t = 0 then true else if s.mode t = 1 then decide (s.cTok t ≥ 0) else decide (s.pTok t ≥ 0)

/-- Whether a tenant's head belongs to the committed pass (Table 9-3). -/
def State.committed (s : State) (t : Nat) : Bool := s.mode t ≠ 2 || decide (s.cTok t ≥ 0)

/-- The charge of a length. -/
def State.charge (s : State) (t len : Nat) : State :=
  let c := satTok (s.cTok t - len)
  let p := satTok (s.pTok t - len)
  let com := s.committed t
  let s1 := if s.mode t ≠ 0 && com then { s with shape := { s.shape with ctok := Tab.set s.shape.ctok t c } } else s
  if s.mode t = 2 then { s1 with shape := { s1.shape with ptok := Tab.set s1.shape.ptok t p } } else s1

/-- Buckets at a commit: a cap below a positive count clamps it (R219). -/
def State.clampToks (s : State) : State :=
  let one := fun (s : State) (t : Nat) =>
    let c := s.cTok t
    let p := s.pTok t
    let cb : Int := s.rd SHAPE_T_CBS 0 t
    let pb : Int := s.rd SHAPE_T_PBS 0 t
    { s with shape := { s.shape with
        ctok := if c > cb then Tab.set s.shape.ctok t cb else s.shape.ctok,
        ptok := if p > pb then Tab.set s.shape.ptok t pb else s.shape.ptok } }
  ((s.shape.ctok.map (·.1)) ++ (s.shape.ptok.map (·.1))).foldl one s

/-! ### Tags (R223, R224) -/

/-- Whether tag a is at or after tag b, modulo 2^48 within a window of 2^47. -/
def tagGe (a b : Nat) : Bool := (a + 2 ^ 48 - b % 2 ^ 48) % 2 ^ 48 < 2 ^ 47
def tagMax (a b : Nat) : Nat := if tagGe a b then a else b
def State.tag (s : State) (t : Nat) : Nat := Tab.get s.shape.tags t 0
def State.setTag (s : State) (t v : Nat) : State := { s with shape := { s.shape with tags := Tab.set s.shape.tags t (v % 2 ^ 48) } }

/-- The advance of a tenant's tag by a request of a length. -/
def State.advanceTag (s : State) (t len : Nat) : State := s.setTag t (s.tag t + len * 4096 / s.rd SHAPE_T_WEIGHT 0 t)

/-! ### Queues -/

/-- The queue of a request: its port, or 16 for the internal queue (R213). -/
def Req.queueNo (r : Req) : Nat := if r.intern then 16 else r.port

/-- The requests of one admission queue, in order. -/
def State.admQueue (s : State) (t q : Nat) : List Req := s.reqs.filter (fun r => r.place == .queued && r.tid == t && r.queueNo == q)

/-- Tenants with a waiting request. -/
def State.waitingTids (s : State) : List Nat :=
  (s.reqs.filter (fun r => r.place == .queued)).foldl (fun l r => if l.contains r.tid then l else l ++ [r.tid]) []

/-- Free places under the limits of R215. -/
def State.placeFree (s : State) (r : Req) : Bool := s.outNode < 32768 && (r.intern || s.outPort r.port < 2048)

/-- Recalls open at once (R146). -/
def State.openRecalls (s : State) : Nat := (s.reqs.filter (fun r => r.intern && (r.op == .recall || r.op == .settle) && r.admitted)).length

/-- Whether the Bake table has a place for one more Bake of a tenant: 1,024 on the node, 64 for each tenant (R346). -/
def State.bakePlace (s : State) (t : Nat) : Bool :=
  let tids := s.bakes.map (fun b => b.tid) ++ (s.reqs.filter (fun r => r.op == .bakeSub && r.place == .resolving)).map (fun r => r.tid)
  tids.length < 1024 && (tids.filter (· == t)).length < 64

/-- Whether admission is closed to a request: before ADMIT to every one, while closing to all but WB, CLN_EVICT and JOB_CLOSE (R494), and
once a seventeenth set has broken to all but WB and CLN_EVICT, which are never refused after ADMIT (R99, R149). -/
def State.closedTo (s : State) (r : Req) : Bool :=
  !s.shape.open_ || (s.shape.closing && !(r.op.bypasses || r.op == .jobClose)) || (s.shape.halted && !r.op.bypasses)

/-- Whether a head may be admitted, its slot apart: a free place, the tenant's test, for a recall RCL_MAX, and for a Bake
a place in the Bake table. -/
def State.mayAdmit (s : State) (r : Req) : Bool :=
  s.placeFree r && (r.intern || !s.closedTo r) && (r.op != .bakeSub || s.bakePlace r.tid) && s.test r.tid && !((r.op == .recall || r.op == .settle) && s.openRecalls ≥ s.rd HOME_RCL_MAX)

/-- Slots of a port in an fc (R222, R233). -/
def State.portSlots (s : State) : Nat := if s.shape.throttle then 1 else 2
def State.fcLimit (s : State) : Nat := if s.shape.throttle then 16 else 32
def State.slotLeft (s : State) (r : Req) : Bool := r.intern || Tab.get s.shape.fcPorts r.port 0 < s.portSlots

/-- The head of each of a tenant's queues that may be admitted. -/
def State.heads (s : State) (t : Nat) : List Req :=
  (List.range 17).filterMap (fun q => ((s.admQueue t q).head?).filter s.mayAdmit)

/-- Eligibility judged again: a tenant that becomes eligible takes S = max(S, V) (R223). -/
def State.reEval (s : State) : State :=
  let e := s.waitingTids.filter (fun t => !(s.heads t).isEmpty)
  let s1 := (e.filter (fun t => !s.shape.eligible.contains t)).foldl (fun s t => s.setTag t (tagMax (s.tag t) s.shape.vtime)) s
  { s1 with shape := { s1.shape with eligible := e } }

/-- The end of an fc (R223): V follows the tags held at the admissions of its passes; where no pass admitted a request and no tenant is
eligible, it follows every tag. -/
def State.closeFc (s : State) : State :=
  let v := match s.shape.fcTop with
    | some x => tagMax x s.shape.vtime
    | none => if s.shape.eligible.isEmpty then s.shape.tags.foldl (fun a p => tagMax p.2 a) s.shape.vtime else s.shape.vtime
  { s with shape := { s.shape with vtime := v, fcTop := none, fcSlots := 0, fcPorts := [] } }

/-! ### Panic (R228) -/

/-- Requests waiting at the real-time port. -/
def State.rtWaiting (s : State) : Nat :=
  (s.reqs.filter (fun r => r.place == .queued && !r.intern && r.port == s.rd SHAPE_RT_PORT)).length

/-- Panic judged on the number waiting. -/
def State.judgePanic (s : State) : State :=
  let n := s.rtWaiting
  let s1 := s.sample pgSHAPE 2 n
  if s.rd SHAPE_RT_EN = 0 then { s1 with shape := { s1.shape with panic := false } }
  else if !s.shape.panic && s.rd SHAPE_PANIC_ON ≤ n then
    (({ s1 with shape := { s1.shape with panic := true } }).bump SHAPE_PANICS).raise pgSHAPE I_SHAPE_PANIC_RAISED
  else if s.shape.panic && n ≤ s.rd SHAPE_PANIC_OFF then { s1 with shape := { s1.shape with panic := false } }
  else s1

/-! ### Arrival (R214, R494) -/

/-- Whether a port is steered (R231). -/
def State.steered (s : State) (p : Nat) : Bool := bit (s.rd SHAPE_STEER_PORTS) p

/-- Checks 2 to 4 of Table 9-1. -/
def State.busyAt (s : State) (r : Req) : Bool :=
  decide (2048 ≤ s.outPort r.port) || decide (32768 ≤ s.outNode) ||
    (s.steered r.port && decide (s.shape.limNow ≤ s.outAgent r.aid)) ||
    decide (s.rd SHAPE_T_QLIMIT 0 r.tid ≤ (s.admQueue r.tid r.port).length)

/-- The slots in which a request arrived, counted to its tenant and its job (R27). -/
def State.countSlots (s : State) (r : Req) (job : Nat) : State :=
  if r.intern || r.cxl then s else s.count 0 r.tid job (1 + r.dslots.length)

/-- A refusal at arrival, counted. -/
def State.refuse (s : State) (r : Req) (status : Nat) : State :=
  let s1 := (s.countSlots r (s.openJob r.tid r.job)).respond { r with epoch := s.openEpoch } status 0 none
  if status = stBusy then (s1.bump SHAPE_BUSY_CNT).bump SHAPE_T_REFUSALS 0 r.tid
  else s1.bump SHAPE_TNT_OFF_CNT

/-- A request entered into its queue, with wake hints (R432). A request that comes while no tenant is eligible ends the fc under way and
an fc without an eligible tenant (R223; DESIGN CHOICE, assumption 27). -/
def State.enterQueue (s : State) (r : Req) (place : Place) : State :=
  let (n, s1) := s.nextOrd
  let s2 := if s1.shape.eligible.isEmpty then s1.closeFc.closeFc else s1
  let s3 := { s2 with reqs := s2.reqs ++ [{ r with id := s2.nextId, place := place, order := n }], nextId := s2.nextId + 1 }
  ((s3.hint [pgXLAT, pgTEN, pgHOME, pgDIRC]).use [pgSHAPE]).judgePanic.reEval

/-- A request that arrives at SHAPE (Table 9-1). WB and CLN_EVICT pass every check, and so does JOB_CLOSE (R214). -/
def State.arrive (s : State) (r : Req) : State :=
  if s.closedTo r then s.refuse r stBusy
  else if r.op.bypasses then s.enterQueue r .bypass
  else if r.op == .jobClose then s.enterQueue r .queued
  else if !s.enabled r.tid then s.refuse r stTntOff
  else if s.busyAt r then s.refuse r stBusy
  else s.enterQueue r .queued

/-! ### Requests from messages -/

/-- The request that a REQ message carries. -/
def reqOf (op : Op) (port : Nat) (m : Msg) : Req :=
  let whole := op == .wrFull || op == .wb
  let be := bits m.payload 0 32
  let half := m.rqHalf
  { Req.blank with
    op := op, port := port, aid := m.rqSrc, incLo := m.rqInc, tid := m.rqTid, txid := m.rqTxid, job := m.rqJob,
    addr := m.rqAddr * 64, dnid := m.rqDnid, as1 := m.rqAs, psn := m.rqPsn, half := half,
    be := if op == .wrPtl then BitVec.ofNat 64 (if half then be * 2 ^ 32 else be) else 0,
    data := if whole then m.line
      else if op == .wrPtl then BitVec.ofNat 512 (if half then m.payload / 2 ^ 128 * 2 ^ 256 else m.payload / 2 ^ 128 % 2 ^ 256) else 0,
    dslots := m.data }

/-- A message handed up by an Up port: its slots leave the receive buffer and their credit returns (R67). -/
def State.takeMsg (s : State) (p : Nat) (m : Msg) : State :=
  let c := s.port p
  if c.rxBuf.contains m then
    let i := m.cls.toNat
    s.setPort p { c with rxBuf := dropFirst (fun x => x == m) c.rxBuf, toReturn := setNth c.toReturn i (c.toReturn[i]?.getD 0 + 1 + m.data.length) }
  else s

/-- Whether a port holds an older message of the class of `m`, which goes first (R115). -/
def Port.older (c : Port) (m : Msg) : Bool := c.rxBuf.contains m && c.rxBuf.find? (fun x => x.cls == m.cls) != some m

/-- A message of an opcode as it passes the port (R77, R94): absent where no such message arrives, or an older one of its class goes
first. A message that R94 does not allow sends the port Down, and one from outside the AID range is dropped; `false` marks that nothing
more happens. -/
def State.portIn (s : State) (p cls opc : Nat) (m : Msg) : Option (State × Bool) :=
  let c := s.port p
  if !c.isUp || c.isCxl || m.cls.toNat != cls || m.opc != opc || c.older m then none
  else
    let s1 := s.takeMsg p m
    if !s1.allowed p m m.data.length then some (s1.protocolError p cls opc, false)
    else match m.srcAid with
      | some a =>
        if s1.inRange p a then some (s1, true)
        else
          let s2 := s1.count 0 0 0 (1 + m.data.length)
          some ((s2.bump FPORT_AID_DROP p).crumb (pgFPORT p) 0x102 1 [packBits [(0, 4, p), (16, 12, a)]], false)
      | none => some (s1, true)

/-- A REQ message of an operation: passed by the port, counted, and judged at SHAPE. -/
def State.reqIn (s : State) (p opc : Nat) (op : Op) (m : Msg) : State :=
  match s.portIn p clsReq opc m with
  | none => s
  | some (s1, false) => s1
  | some (s1, true) => s1.arrive (reqOf op p m)

/-- RD_S. -/
def execRdS (port : Fin 16) (m : Msg) (s : State) : Host.Outcome State Fault Refusal := s.onBlk (pgFPORT port.val) <| .next (s.reqIn port.val 0x01 .rdS m)
/-- RD_OWN. -/
def execRdOwn (port : Fin 16) (m : Msg) (s : State) : Host.Outcome State Fault Refusal := s.onBlk (pgFPORT port.val) <| .next (s.reqIn port.val 0x02 .rdOwn m)
/-- UPG. -/
def execUpg (port : Fin 16) (m : Msg) (s : State) : Host.Outcome State Fault Refusal := s.onBlk (pgFPORT port.val) <| .next (s.reqIn port.val 0x03 .upg m)
/-- RD_CUR. -/
def execRdCur (port : Fin 16) (m : Msg) (s : State) : Host.Outcome State Fault Refusal := s.onBlk (pgFPORT port.val) <| .next (s.reqIn port.val 0x04 .rdCur m)
/-- WR_FULL. -/
def execWrFull (port : Fin 16) (m : Msg) (s : State) : Host.Outcome State Fault Refusal := s.onBlk (pgFPORT port.val) <| .next (s.reqIn port.val 0x05 .wrFull m)
/-- WR_PTL. -/
def execWrPtl (port : Fin 16) (m : Msg) (s : State) : Host.Outcome State Fault Refusal := s.onBlk (pgFPORT port.val) <| .next (s.reqIn port.val 0x06 .wrPtl m)
/-- WB. -/
def execWb (port : Fin 16) (m : Msg) (s : State) : Host.Outcome State Fault Refusal := s.onBlk (pgFPORT port.val) <| .next (s.reqIn port.val 0x07 .wb m)
/-- CLN_EVICT. -/
def execClnEvict (port : Fin 16) (m : Msg) (s : State) : Host.Outcome State Fault Refusal := s.onBlk (pgFPORT port.val) <| .next (s.reqIn port.val 0x08 .clnEvict m)

/-! ### One slot (R222, R226) -/

/-- The requests waiting apart, oldest first, whose port has a slot. -/
def State.nextBypass (s : State) : Option Req :=
  minBy (fun r => r.order) (s.reqs.filter (fun r => r.place == .bypass && s.slotLeft r && s.placeFree r))

/-- The next member of a batch whose head was admitted before. -/
def State.nextMember (s : State) : Option Req :=
  ((s.shape.batch.filterMap s.req).filter (fun r => r.place == .queued && s.slotLeft r && s.placeFree r && !s.closedTo r)).head?

/-- In panic, the oldest head of the real-time port that passes its tenant's test. -/
def State.nextPanic (s : State) : Option Req :=
  if s.shape.panic then
    let p := s.rd SHAPE_RT_PORT
    minBy (fun r => r.order) ((s.waitingTids.filterMap (fun t => (s.admQueue t p).head?)).filter (fun r => s.mayAdmit r && s.slotLeft r))
  else none

/-- The tenant of a pass with the smallest tag, the lower TID on a tie, among those with a head that has a slot. -/
def State.nextTid (s : State) (pass : Bool) : Option Nat :=
  let ts := s.waitingTids.filter (fun t => s.committed t == pass && (s.heads t).any s.slotLeft)
  ts.foldl (fun b t => match b with
    | none => some t
    | some u =>
      if s.tag t = s.tag u then (if t < u then some t else some u)
      else if tagGe (s.tag u) (s.tag t) then some t else some u) none

/-- The tenant's next queue in round robin. -/
def State.nextHead (s : State) (t : Nat) : Option Req :=
  let r0 := Tab.get s.shape.rr t 0
  ((List.range 17).map (fun i => (r0 + i) % 17)).findSome? (fun q =>
    ((s.admQueue t q).head?).filter (fun r => s.mayAdmit r && s.slotLeft r))

/-- The members that follow a head in its batch (R226), as ids, with the entries each passes counted. -/
def batchMembers (key : Nat × Bool × Nat) (maxN passMax : Nat) : List Req → List Nat → List Nat → List Nat
  | [], _, acc => acc
  | r :: t, passed, acc =>
    if acc.length + 1 ≥ maxN then acc
    else if r.batchKey = some key && passed.all (fun n => n < passMax) then
      batchMembers key maxN passMax t (passed.map (· + 1)) (acc ++ [r.id])
    else batchMembers key maxN passMax t (passed ++ [r.passes]) acc

/-- The batch of a head, and the queue's entries with their pass counts advanced. -/
def State.formBatch (s : State) (r : Req) : State :=
  match r.batchKey with
  | none => s
  | some k =>
    let q := ((s.admQueue r.tid r.queueNo).take (s.rd SHAPE_BATCH_DEPTH)).drop 1
    let ids := batchMembers k (s.rd SHAPE_BATCH_MAX) (s.rd SHAPE_BATCH_PASS) q [] []
    let later := fun (x : Req) => (ids.filter (fun i => match q.find? (fun y => y.id == i) with
      | some y => decide (x.order < y.order)
      | none => false)).length
    let s1 := q.foldl (fun (s : State) x => if ids.contains x.id then s else s.updReq x.id (fun y => { y with passes := y.passes + later x })) s
    { s1 with shape := { s1.shape with batch := s1.shape.batch ++ ids } }

/-- Where an admitted request goes: node-made line work to HOME, requests to stage 3. -/
def Req.first (r : Req) : Place := if r.intern then .home else .resolving

/-- A request admitted: charged, its tenant's tag advanced, stamped, and one slot used (R18, R215 to R223). The slots in which it arrived
count to its stamps (R27). -/
def State.admitReq (s : State) (r : Req) (member : Bool) : State :=
  let len := s.length r
  let held := s.tag r.tid
  let a := s.agent r.aid
  let ok := a.state == agLive && a.inc % 8 == r.incLo
  let (n, s0) := s.nextOrd
  let s1 := (s0.charge r.tid len).advanceTag r.tid len
  let job := if r.intern || r.op == .jobOpen || r.op == .jobClose then r.job else s.openJob r.tid r.job
  let s1' := s1.countSlots r (s.openJob r.tid r.job)
  let s2' := s1'.updReq r.id (fun x => { x with
    place := x.first, epoch := s.openEpoch, job := job, admInc := if ok then some a.inc else none, adm := n + 1 })
  let s2 := if r.op == .jobClose && ok && r.job != 0 then s2'.beginClose r.tid r.job r.id (n + 1) else s2'
  let h := s2.shape
  let pass := !member && !r.op.bypasses
  let s3 := { s2 with shape := { h with
      fcSlots := h.fcSlots + 1, tickUsed := h.tickUsed + 1,
      fcPorts := if r.intern then h.fcPorts else Tab.set h.fcPorts r.port (Tab.get h.fcPorts r.port 0 + 1),
      batch := h.batch.filter (· != r.id),
      fcTop := if pass then some (match h.fcTop with
        | some x => tagMax held x
        | none => held) else h.fcTop } }
  let s4 := ((s3.bump SHAPE_ADMITTED).bump SHAPE_T_ADMITS 0 r.tid).sampleOut r
  if member then s4.bump SHAPE_BATCHED else s4

/-- An admission of a queue's head, with its batch. -/
def State.admitHead (s : State) (r : Req) : State := (s.formBatch r).admitReq r false

/-- What an admitted request does first: work of the node joins its line's queue at HOME; a request waits at stage 3. -/
def State.launch (s : State) (r : Req) : State :=
  if r.intern then
    match s.req r.id with
    | some x => s.homeArrive x.id
    | none => s
  else s

/-- One slot of an fc, filled in the order of R222. A request admitted in panic belongs to no pass and moves no virtual time (R223). -/
def State.fillSlot (s : State) : State :=
  if s.shape.fcSlots ≥ s.fcLimit then s
  else match s.nextBypass with
  | some r => (s.admitReq r false).launch r
  | none => match s.nextMember with
    | some r => (s.admitReq r true).launch r
    | none => match s.nextPanic with
      | some r =>
        let s1 := s.admitHead r
        ({ s1 with shape := { s1.shape with fcTop := s.shape.fcTop } } : State).launch r
      | none => match (s.nextTid true).orElse (fun _ => s.nextTid false) with
        | none => s
        | some t => match s.nextHead t with
          | none => s
          | some r =>
            let s1 := { s with shape := { s.shape with rr := Tab.set s.shape.rr t ((r.queueNo + 1) % 17) } }
            (s1.admitHead r).launch r

/-! ### CXL requests held in the port (R86) -/

/-- The line that a device physical address names, as the tables stand (R85): for the choice between WB and WR_FULL. -/
def State.cxlLine (s : State) (p dpa : Nat) : Option Nat :=
  let pga := if s.rd FPORT_CXL_DIRECT p = 1 then some (s.rd FPORT_CXL_PGA_BASE p + dpa)
    else (s.migrWalk (s.rd FPORT_CXL_TID p) dpa).map (fun l => l.2 + dpa % 2 ^ pageBits l.1)
  pga.map (fun a => pgaOff a / 64)

/-- The internal operation of a CXL.mem request (Table 4-9); MemWr is a WB where the directory records the host as owner. -/
def State.cxlOp (s : State) (p : Nat) (q : CxlReq) : Option Op :=
  match q.op with
  | .memRdShared | .memRdData => some .rdS
  | .memRdAny => some .rdOwn
  | .memRdInvalid => some .rdCur
  | .memInvAny => some .upg
  | .memInvOther => some .clnEvict
  | .memWr =>
    if s.dir.any (fun e => some e.la == s.cxlLine p q.dpa.toNat && !e.shadow && e.modif && e.owner == s.rd FPORT_CXL_AID p) then some .wb
    else some .wrFull
  | .memWrPtl => some .wrPtl
  | .memSpecRd | .unsupported | .cacheMsg => none

/-- The request of a CXL.mem request (R85, R122). -/
def State.cxlReq (s : State) (p : Nat) (q : CxlReq) (op : Op) : Req :=
  let direct := s.rd FPORT_CXL_DIRECT p = 1
  { Req.blank with
    op := op, port := p, cxl := true, aid := s.rd FPORT_CXL_AID p, incLo := s.rd FPORT_CXL_INCARN p % 8, tid := s.rd FPORT_CXL_TID p,
    txid := q.tag.toNat, job := s.rd FPORT_CXL_JOB p, addr := ((if direct then s.rd FPORT_CXL_PGA_BASE p else 0) + q.dpa.toNat) / 64 * 64,
    dnid := s.nid, as1 := !direct, psn := q.poison, be := q.be, data := q.data }

/-- Whether the port must hold a CXL request: checks 2 to 4 of Table 9-1 would not pass, or admission is closed to it (R86, R214,
R494). -/
def State.cxlHolds (s : State) (r : Req) : Bool := s.closedTo r || (!r.op.bypasses && s.busyAt r)

/-- Held CXL requests passed on, in order, as far as they may go. -/
def State.cxlPump (s : State) (p : Nat) : State :=
  (s.port p).cxlHeld.foldl (fun (s : State) q =>
    let c := s.port p
    if c.cxlHeld.head? == some q && c.alive then
      match s.cxlOp p q with
      | none => s.setPort p { c with cxlHeld := c.cxlHeld.drop 1 }
      | some op =>
        let r := s.cxlReq p q op
        if s.cxlHolds r then s else (s.setPort p { c with cxlHeld := c.cxlHeld.drop 1 }).arrive r
    else s) s

/-- REQUEST_ADMIT: one slot of the present fc, or the first slot of the next. -/
def execRequestAdmit (fcStart : Bool) (s : State) : Host.Outcome State Fault Refusal := s.onBlk pgSHAPE <|
  let s1 := if fcStart then s.closeFc else s
  let s2 := (List.range 16).foldl (fun s p => if (s.port p).isCxl then s.cxlPump p else s) s1
  .next (s2.reEval.fillSlot.judgePanic.reEval)

/-- BUCKET_REFILL. -/
def execBucketRefill (s : State) : Host.Outcome State Fault Refusal := s.onBlk pgSHAPE <| .next s.refill.reEval

/-! ### Load and limits (R230 to R233) -/

/-- LOAD_UPDATE: the level of one AO tick. -/
def execLoadUpdate (s : State) : Host.Outcome State Fault Refusal := s.onBlk pgSHAPE <|
  let lo := 16 * s.outNode / 32768
  let ls := 16 * s.shape.tickUsed / (if s.shape.throttle then 16384 else 32768)
  let lt := if s.shape.throttle then 13 else 0
  let l := min 15 (max lo (max ls lt))
  .next ({ s with shape := { s.shape with load := l, tickUsed := 0 } }.sample pgSHAPE 1 l)

/-- AGENT_LIM_NOW moved; reaching the floor is reported. -/
def State.setLim (s : State) (v : Nat) : State :=
  let s1 := { s with shape := { s.shape with limNow := v } }
  if v = s.rd SHAPE_AGENT_LIM_FLOOR && s.shape.limNow ≠ v then s1.raise pgSHAPE I_SHAPE_LIM_FLOOR else s1

/-- AGENT_LIMIT_STEP: the end of a STEER_PERIOD. -/
def execAgentLimitStep (s : State) : Host.Outcome State Fault Refusal := s.onBlk pgSHAPE <|
  let n := s.shape.limNow
  if s.rd SHAPE_STEER_HI ≤ s.shape.load then .next (s.setLim (max (s.rd SHAPE_AGENT_LIM_FLOOR) (n / 2)))
  else if s.shape.load ≤ s.rd SHAPE_STEER_LO then .next (s.setLim (min (s.rd SHAPE_AGENT_LIM_CEIL) (n + s.rd SHAPE_AGENT_LIM_STEP)))
  else .next s

/-- SHAPE at a commit: AGENT_LIM_NOW and the buckets clamped (R219, R232), panic judged afresh where RT_EN or RT_PORT
changed (R228). -/
def State.shapeCommit (s : State) (rtChanged : Bool) : State :=
  let n := min (s.rd SHAPE_AGENT_LIM_CEIL) (max (s.rd SHAPE_AGENT_LIM_FLOOR) s.shape.limNow)
  let s1 := (s.setLim n).clampToks
  let s2 := if rtChanged then { s1 with shape := { s1.shape with panic := false } } else s1
  s2.judgePanic.reEval

/-- Throttle judged on the temperatures: node Tj at 100 °C or more, in units of 0.25 °C, or a hot stack (R233). -/
def State.judgeThrottle (s : State) : State :=
  let tj := decide (sgn 16 (s.rd PWR_TJ_NOW) ≥ 400)
  let st := (List.range 48).any (fun n => decide (sgn 16 (s.rd MCH_TEMP_NOW n) ≥ 190))
  let t := tj || st
  if t == s.shape.throttle then s
  else (({ s with shape := { s.shape with throttle := t } }).raise pgSHAPE I_SHAPE_THROTTLE).crumb pgSHAPE 0x381 1
    [packBits [(0, 1, b2n t), (1, 1, b2n tj), (2, 1, b2n st)]]

/-! ### Snoop answers (R213) -/

/-- The line address of a PGA >> 6. -/
def laOf (a : Nat) : Nat := a % 2 ^ 37

/-- SNP_ACK: an answer goes to HOME without admission. -/
def execSnpAck (port : Fin 16) (m : Msg) (s : State) : Host.Outcome State Fault Refusal := s.onBlk (pgFPORT port.val) <|
  match s.portIn port.val clsRsp 0x42 m with
  | none => .next s
  | some (s1, false) => .next s1
  | some (s1, true) => .next (((s1.use [pgHOME]).homeAnswer m.rsRspr (laOf m.rsAddr) none 0 0 1).settleEnd (laOf m.rsAddr))

/-- SNP_ACK_D. -/
def execSnpAckD (port : Fin 16) (m : Msg) (s : State) : Host.Outcome State Fault Refusal := s.onBlk (pgFPORT port.val) <|
  match s.portIn port.val clsRsp 0x43 m with
  | none => .next s
  | some (s1, false) => .next s1
  | some (s1, true) => .next (((s1.use [pgHOME]).homeAnswer m.rsRspr (laOf m.rsAddr)
      (some (m.line, m.rsStatus == stPoison)) 0 0 5).settleEnd (laOf m.rsAddr))

end Sys2Proof.Machine
end

