-- ==== Sys2Proof/Machine/Ten.lean ====
section
/-! DEFINITION. TEN: region entries and their write checks (R166 to R170), the resolution checks (R171 to R173) and region
recalls (R174). -/
namespace Sys2Proof.Machine

open Reg

/-! ### Region entry writes -/

/-- The fields of a region entry (Table 7-2). -/
structure RegionEnt where
  valid  : Nat
  closed : Nat
  iso    : Nat
  ue     : Nat
  layout : Nat
  mirror : Nat
  coh    : Nat
  access : Nat
  prd    : Nat
  pwr    : Nat
  pbake  : Nat
  tid    : Nat
  base   : Nat
  size   : Nat
deriving DecidableEq, Repr

/-- The entry that words 0 and 1 spell. -/
def regionOfWords (w0 w1 : Nat) : RegionEnt :=
  { valid := bits w0 0 1, closed := bits w0 1 1, iso := bits w0 2 1, ue := bits w0 3 1, layout := bits w0 4 1,
    mirror := bits w0 5 1, coh := bits w0 6 1, access := bits w0 7 1, prd := bits w0 8 1, pwr := bits w0 9 1,
    pbake := bits w0 10 1, tid := bits w0 16 8, base := bits w1 0 15, size := bits w1 16 15 }

/-- An entry through a reader of its fields: of the open values, or of the values after the next commit. -/
def regionBy (rd : Field → Nat) : RegionEnt :=
  { valid := rd TEN_R_VALID, closed := rd TEN_R_CLOSED, iso := rd TEN_R_ISO, ue := rd TEN_R_UE, layout := rd TEN_R_LAYOUT,
    mirror := rd TEN_R_MIRROR, coh := rd TEN_R_COH, access := rd TEN_R_ACCESS, prd := rd TEN_R_PERM_RD,
    pwr := rd TEN_R_PERM_WR, pbake := rd TEN_R_PERM_BAKE, tid := rd TEN_R_TID, base := rd TEN_R_BASE, size := rd TEN_R_SIZE }

/-- Valid directory entries of a region (R170). -/
def State.dirCount (s : State) (n : Nat) : Nat := (s.dir.filter (fun e => e.region == n)).length

/-- Whether two entries' ranges meet. -/
def RegionEnt.meets (a b : RegionEnt) : Bool := a.base < b.base + b.size && b.base < a.base + a.size

/-- Whether a protected field changes (R169). -/
def RegionEnt.protectedChange (o e : RegionEnt) : Bool :=
  (o.valid == 1 && e.valid == 0) || o.tid != e.tid || o.base != e.base || o.size != e.size || o.iso != e.iso ||
    o.layout != e.layout || o.mirror != e.mirror || o.coh != e.coh

/-- COMPUTE_GRANULE in 256 MiB units: a segment of 6 GiB, or 0 without option C (R239). -/
def State.granule (s : State) : Nat := if s.opts.c then 24 else 0

/-- Regions that will be valid after the next commit. -/
def State.nextRegions (s : State) : List Nat := validRegions (Tab.overlay s.cfgStaged s.cfgOpen)

/-- The first failing check of Table 7-3, as its reason code; 0 when all pass. -/
def State.regionCheck (s : State) (n : Nat) (e : RegionEnt) : Nat :=
  let o := regionBy (fun f => s.rd f 0 n)
  if (e.iso = 1 && !s.opts.k) || (e.layout = 1 && !s.opts.c) || (e.mirror = 1 && !s.opts.w) then 1
  else if e.mirror = 1 && s.rd TWIN_PAIR_EN = 0 then 2
  else if e.iso = 1 && e.tid = 0 then 3
  else if e.valid = 1 && (e.base + e.size > 12256 || e.size = 0) then 4
  else if e.layout = 1 && (e.base % s.granule ≠ 0 || e.size % s.granule ≠ 0) then 5
  else if e.valid = 1 && s.nextRegions.any (fun m => m != n && e.meets (regionBy (fun f => s.rdNext f 0 m))) then 6
  else if o.valid = 1 && o.protectedChange e && (o.closed = 0 || s.dirCount n ≠ 0 || s.commitPending) then 7
  else if o.valid = 1 && o.protectedChange e && o.iso = 1 && (match s.slotOf o.tid with
      | some k => (s.slot k).state == ksRotating
      | none => false) then 8
  else 0

/-- A whole entry staged. -/
def State.stageRegion (s : State) (n : Nat) (e : RegionEnt) : State :=
  [(TEN_R_VALID, e.valid), (TEN_R_CLOSED, e.closed), (TEN_R_ISO, e.iso), (TEN_R_UE, e.ue), (TEN_R_LAYOUT, e.layout),
   (TEN_R_MIRROR, e.mirror), (TEN_R_COH, e.coh), (TEN_R_ACCESS, e.access), (TEN_R_PERM_RD, e.prd), (TEN_R_PERM_WR, e.pwr),
   (TEN_R_PERM_BAKE, e.pbake), (TEN_R_TID, e.tid), (TEN_R_BASE, e.base), (TEN_R_SIZE, e.size)].foldl
    (fun s (p : Field × Nat) => s.stage p.1 p.2 0 n) s

/-- A write of word 1: the holding buffer takes it (R167). -/
def State.regionWord1 (s : State) (n val : Nat) : State := { s with holdBuf := some (n, BitVec.ofNat 32 val) }

/-- A write of word 0: the entry with the buffered word 1, or its staged or open word 1, checked and staged, or discarded
(R167). -/
def State.regionWord0 (s : State) (n val : Nat) : State :=
  let w1 := match s.holdBuf with
    | some (k, w) => if k = n then w.toNat else s.rdNext TEN_R_BASE 0 n + s.rdNext TEN_R_SIZE 0 n * 2 ^ 16
    | none => s.rdNext TEN_R_BASE 0 n + s.rdNext TEN_R_SIZE 0 n * 2 ^ 16
  let e := regionOfWords val w1
  let s1 := { s with holdBuf := none }
  match s.regionCheck n e with
  | 0 => s1.stageRegion n e
  | k => (((s1.wr TEN_REG_ERR_REGION n).wr TEN_REG_ERR_REASON k).cfgErr pgTEN (0x200 + n * 0x20 / 0x1000) (n * 0x20 % 0x1000)).raise
      pgTEN I_TEN_REG_REJECT

/-- REGION_WORD1_WRITE. -/
def execRegionWord1Write (n : BitVec 12) (val : Word) (s : State) : Host.Outcome State Fault Refusal := s.onBlk pgTEN <|
  .next (s.regionWord1 n.toNat val.toNat)

/-- REGION_WORD0_WRITE. -/
def execRegionWord0Write (n : BitVec 12) (val : Word) (s : State) : Host.Outcome State Fault Refusal := s.onBlk pgTEN <|
  .next (s.regionWord0 n.toNat val.toNat)

/-! ### Region recall (R174) -/

/-- RECALL_GO: starts on a region that is closed in the open epoch, with no commit pending and none running. -/
def State.recallGo (s : State) : State :=
  let n := s.rd TEN_RECALL_REGION
  if s.rd TEN_R_CLOSED 0 n = 1 && !s.commitPending && s.rd TEN_RECALL_BUSY = 0 && s.scan.all (fun c => c.regionRc.isNone) then
    let c := s.scan.getD Scan.idle
    { s with scan := some { c with regionRc := some (n, dirSets) } }.wr TEN_RECALL_BUSY 1
  else s.cfgErr pgTEN 0 0x104

/-- RECALL_GO. -/
def execRecallGo (s : State) : Host.Outcome State Fault Refusal := s.onBlk pgTEN <| .next s.recallGo

/-- RECALL_DONE: every set read and every recall of the region ended. -/
def execRecallDone (s : State) : Host.Outcome State Fault Refusal := s.onBlk pgTEN <|
  match s.scan with
  | none => .next s
  | some c => match c.regionRc with
    | some (n, 0) =>
      if n = 4096 || s.reqs.any (fun r => r.op == .recall && r.region == n) then .next s
      else .next ({ s with scan := { c with regionRc := none }.rest }.wr TEN_RECALL_BUSY 0 |>.raise pgTEN I_TEN_RECALL_DONE)
    | _ => .next s

/-! ### Resolution checks (Table 7-4) -/

/-- Whether the agent map lets a requester use a region (check 5). -/
def State.agentMapOk (s : State) (ep aid tid : Nat) (iso : Bool) : Bool :=
  let bound := s.rdAt ep TEN_M_BOUND 0 aid = 1
  let t := s.rdAt ep TEN_M_TID 0 aid
  if bound then t == tid else !iso

/-- Whether an opcode's permission is set (Table 7-5) and the region is open to it (check 7). -/
def State.permOk (s : State) (ep n : Nat) (op : Op) : Bool :=
  let rd := s.attr ep TEN_R_PERM_RD n
  let wr := s.attr ep TEN_R_PERM_WR n
  match op with
  | .wb | .clnEvict => true
  | .rdS | .rdCur => rd && !s.attr ep TEN_R_CLOSED n
  | .rdOwn | .upg => rd && wr && !s.attr ep TEN_R_CLOSED n
  | _ => wr && !s.attr ep TEN_R_CLOSED n

/-- Check 8: a Sealed region's tenant holds a usable key. -/
def State.keyOk (s : State) (ep n : Nat) : Bool :=
  !s.attr ep TEN_R_ISO n || (match s.slotOf (s.rgn ep TEN_R_TID n) with
    | some k => (s.slot k).state == ksLoaded || (s.slot k).state == ksRotating
    | none => false)

/-- Whether a NID is that of the twin partner in an epoch (Table 8-4, R356). -/
def State.isPartner (s : State) (ep nid : Nat) : Bool :=
  s.opts.w && s.rdAt ep TWIN_PAIR_EN == 1 && nid == s.rdAt ep TWIN_PARTNER_NID

/-- Checks 2 to 8 for a line request whose address is a PGA: the region, or the status of the first failure. -/
def State.tenCheck (s : State) (r : Req) (pga : Nat) : Except Nat Nat :=
  if pgaNid pga ≠ s.nid && !s.isPartner r.epoch (pgaNid pga) then .error stNomap
  else match s.regionOf r.epoch (pgaOff pga) with
    | none => .error stNomap
    | some n =>
      if pgaNid pga ≠ s.nid && !s.attr r.epoch TEN_R_MIRROR n then .error stNomap
      else if s.rgn r.epoch TEN_R_TID n ≠ r.tid then .error stDenied
      else if !s.agentMapOk r.epoch r.aid r.tid (s.attr r.epoch TEN_R_ISO n) then .error stDenied
      else if s.attr r.epoch TEN_R_ACCESS n != r.as1 then .error stDenied
      else if !s.permOk r.epoch n r.op then .error stDenied
      else if !s.keyOk r.epoch n then .error stDenied
      else .ok n

/-- A request ended at stage 3, counted (Table 7-10). -/
def State.endAt3 (s : State) (rid status next : Nat) : State :=
  let s1 := if status = stNomap then s.bump TEN_NOMAP_CNT else if status = stDenied then s.bump TEN_DENIED_CNT else s
  s1.finish rid status 0 none next

/-- The NEXT_NID of a NOMAP that TEN gives an AS 1 request: the leaf's node where it is neither this node nor its twin partner (Table
8-4, R109, R356). -/
def State.nextNid (s : State) (r : Req) (pga : Nat) : Nat :=
  if r.as1 && pgaNid pga ≠ s.nid && !s.isPartner r.epoch (pgaNid pga) then pgaNid pga else nidNone

/-- A line request with its PGA: checked, and handed to HOME's entry. -/
def State.resolved (s : State) (r : Req) (pga : Nat) : State :=
  match s.tenCheck r pga with
  | .error st => s.endAt3 r.id st (if st = stNomap then s.nextNid r pga else nidNone)
  | .ok n => (s.updReq r.id (fun x => { x with pga := pga, off := pgaOff pga, region := n })).homeArrive r.id

end Sys2Proof.Machine
end

