-- ==== Sys2Proof/Machine/Xlat.lean ====
section
/-! DEFINITION. XLAT: translation, the two caches, walks, invalidation, and the access counters (R190 to R202), with the
overrides of moves (R206, R211). -/
namespace Sys2Proof.Machine

open Reg

/-! ### The caches (R195, R196) -/

/-- Whether the caches serve a tenant: not while a commit that changed its root entry drains. -/
def State.cacheOn (s : State) (tid : Nat) : Bool := !(s.commitPending && s.rootChanged.contains tid)

/-- Whether a leaf maps a TPA of a tenant. -/
def Leaf.maps (l : Leaf) (tid tpa : Nat) : Bool := l.tid == tid && l.page == tpa / 2 ^ sizeBits l.size

/-- The cached leaf of a TPA. -/
def State.tcFind (s : State) (tid tpa : Nat) : Option Leaf := if s.cacheOn tid then s.tc.find? (fun l => l.maps tid tpa) else none

/-- A leaf made the most recently used, with its counting fields as given. -/
def State.tcTouch (s : State) (l : Leaf) : State :=
  { s with tc := l :: s.tc.filter (fun x => !(x.tid == l.tid && x.size == l.size && x.page == l.page)) }

/-- Whether two leaves map one page in the same way, their counts apart. -/
def Leaf.same (a b : Leaf) : Bool :=
  a.tid == b.tid && a.size == b.size && a.page == b.page && a.remote == b.remote && a.nid == b.nid && a.pga == b.pga && a.nocount == b.nocount

/-- A new leaf: where its set of 16 ways is full, the least recently used of the set leaves. -/
def State.tcAdd (s : State) (l : Leaf) : State :=
  let k := Config.tcSet l.tid l.size l.page % 4096
  let rest := s.tc.filter (fun x => !(x.tid == l.tid && x.size == l.size && x.page == l.page))
  if rest.length < 16 then { s with tc := l :: rest }
  else
    let same := rest.filter (fun x => Config.tcSet x.tid x.size x.page % 4096 == k)
    if same.length < 16 then { s with tc := l :: rest }
    else match same.getLast? with
      | some v => { s with tc := l :: rest.filter (fun x => x != v) }
      | none => { s with tc := l :: rest }

/-- The leaf that a walk ends at, cached: a leaf that is there already, from another walk of the page, keeps its counts (R200). -/
def State.tcFill (s : State) (l : Leaf) : State :=
  match s.tc.find? (fun x => x.same l) with
  | some x => s.tcTouch x
  | none => s.tcAdd l

/-- A walk-cache entry added, or used again, among 4,096; the least recently used leaves (R195). -/
def State.wcFill (s : State) (w : WalkEnt) : State :=
  { s with wc := (w :: s.wc.filter (fun x => !(x.tid == w.tid && x.level == w.level && x.page == w.page))).take 4096 }

/-- The deepest cached TABLE entry on a TPA's walk path: the level to read next and the table's base. -/
def State.walkStart (s : State) (ep tid tpa : Nat) : Nat × Nat :=
  let f := fun (lv : Nat) => if s.cacheOn tid then s.wc.find? (fun w => w.tid == tid && w.level == lv && w.page == tpa / 2 ^ pageBits lv) else none
  match f 2 with
  | some w => (3, w.next)
  | none => match f 1 with
    | some w => (2, w.next)
    | none => (1, s.rdAt ep XLAT_ROOT_BASE 0 tid)

/-- The walk-cache entries that a walk uses, made the most recently used. -/
def State.walkTouch (s : State) (tid tpa : Nat) : State :=
  if s.cacheOn tid then
    match s.wc.find? (fun w => w.tid == tid && w.level == 2 && w.page == tpa / 2 ^ pageBits 2) with
    | some w => s.wcFill w
    | none => match s.wc.find? (fun w => w.tid == tid && w.level == 1 && w.page == tpa / 2 ^ pageBits 1) with
      | some w => s.wcFill w
      | none => s
  else s

/-! ### Counting (R200) -/

/-- Whether an operation's accesses are counted. -/
def Op.counted : Op → Bool
  | .rdS | .rdOwn | .upg | .rdCur | .wrFull | .wrPtl => true
  | _ => false

/-- A leaf after an access through it. -/
def Leaf.access (l : Leaf) (aid : Nat) : Leaf := { l with cnt := min 0xFFFF (l.cnt + 1), lastAid := aid }

/-- An access through a PAGE leaf, counted where R200 says. -/
def State.tcUse (s : State) (r : Req) (l : Leaf) : State :=
  if r.op.counted && !r.intern && !l.remote && !l.nocount && s.rdAt r.epoch XLAT_ROOT_COUNT_EN 0 r.tid = 1 then s.tcTouch (l.access r.aid)
  else s.tcTouch l

/-! ### Overrides (Table 8-9, R206, R211) -/

/-- A move that acts on resolution: its slot is not idle or still being checked. -/
def Move.active (m : Move) : Bool := match m.state with | .idle | .starting => false | _ => true

/-- Whether a move was incoming at this node. -/
def Move.incoming (m : Move) : Bool := match m.state with | .incoming | .stuckIn => true | _ => false

/-- The frame that a move's override covers, as a PGA: the source frame, or the destination frame of an incoming move. -/
def Move.frame (m : Move) : Nat := if m.incoming then m.destPga.toNat else m.srcPga

/-- The move whose frame holds a PGA, with its number. -/
def State.overrideOf (s : State) (pga : Nat) : Option (Nat × Move) :=
  s.moves.find? (fun p => p.2.active && p.2.frame ≤ pga && decide (pga < p.2.frame + 64 * p.2.lines))

/-- What an override makes of a line request. -/
inductive Ovr where
  | to (pga : Nat)
  | nomap (next : Nat)
  | hold
deriving DecidableEq, Repr

/-- Table 8-9 and R211, for a request whose resolved PGA lies in a move's frame. A line of a Local move goes to its new place when its
copy's write has been accepted, also ahead of its turn. -/
def Move.resolve (m : Move) (r : Req) (pga : Nat) : Ovr :=
  let i := (pga - m.frame) / 64
  if r.op.bypasses then .to pga
  else match m.state with
  | .incoming | .stuckIn => if i < m.doneL then .to pga else .nomap m.peer
  | _ =>
    if m.kind = mkAgent then (if r.op == .rdCur && r.aid == m.destAid then .to pga else .nomap nidNone)
    else if i < m.doneL || (m.kind == mkLocal && m.ahead.contains i) then
      (if m.kind = mkNode then .nomap m.peer else .to (m.destPga.toNat + (pga - m.srcPga)))
    else if i < m.issued then (match m.state with
      | .stuck => .nomap nidNone
      | _ => .hold)
    else .to pga

/-- A request with its translated PGA: overrides first, then the checks of TEN. -/
def State.withPga (s : State) (r : Req) (pga : Nat) : State :=
  match s.overrideOf pga with
  | none => s.resolved r pga
  | some (n, m) => match m.resolve r pga with
    | .to p => s.resolved r p
    | .nomap nx => (s.bump MIGR_BOUNCES).endAt3 r.id stNomap nx
    | .hold => s.updReq r.id (fun x => { x with place := .held, mid := n, pga := pga })

/-- Held requests of a move judged again. -/
def State.releaseHeld (s : State) (n : Nat) : State :=
  (s.reqs.filter (fun r => r.place == .held && r.mid == n)).foldl (fun (s : State) r => s.withPga r r.pga) s

/-! ### Windows and the Hot Page Queue (R201, R202) -/

/-- Whether the queue is full. -/
def State.hpqFull (s : State) : Bool := (s.hpqHead + 1) % 1024 == s.hpqTail

/-- The four words of a record (Table 8-6). -/
def hpqRecord (l : Leaf) (win : Nat) : List Nat :=
  [packBits [(0, 8, l.tid), (8, 2, l.size), (16, 16, l.score)], l.page * 2 ^ sizeBits l.size / 2 ^ 16 % 2 ^ 32,
   l.pga / 2 ^ 16 % 2 ^ 32, packBits [(0, 4, l.pga / 2 ^ 48), (8, 8, win), (16, 12, l.lastAid)]]

/-- A record pushed. -/
def State.hpqPush (s : State) (l : Leaf) : State :=
  let w := hpqRecord l s.windowCount
  let s1 := ((List.range 4).zip w).foldl (fun (s : State) x => s.wr XLAT_HPQ_W x.2 0 (s.hpqHead * 4 + x.1)) s
  let s2 := { s1 with hpqHead := (s.hpqHead + 1) % 1024 }
  (s2.raise pgXLAT I_XLAT_HPQ_NEW).sample pgXLAT 0 ((s2.hpqHead + 1024 - s2.hpqTail) % 1024 : Nat)

/-- The visit of one entry at a boundary. -/
def State.windowVisit (s : State) (l : Leaf) : State :=
  let hot := if l.size = 0 then s.rd XLAT_HOT_64K else if l.size = 1 then s.rd XLAT_HOT_2M else s.rd XLAT_HOT_1G
  let l1 := { l with score := min 0xFFFF (l.score / 2 + l.cnt), cnt := 0 }
  let isHot := hot ≠ 0 && l1.score ≥ hot && !l1.queued
  let s1 := if isHot then (if s.hpqFull then s.bump XLAT_HPQ_DROP else s.hpqPush l1) else s
  let l2 := if isHot && !s.hpqFull then { l1 with queued := true } else l1
  let l3 := if l2.queued && l2.score < hot / 2 then { l2 with queued := false } else l2
  { s1 with tc := s1.tc.map (fun x => if x == l then l3 else x) }

/-- A boundary: the visit of every entry. -/
def State.window (s : State) : State :=
  let s1 := { s with windowCount := s.windowCount + 1 }
  s1.tc.foldl (fun (s : State) l => if l.remote then s else s.windowVisit l) s1

/-- The boundaries that passed while XLAT slept, applied in order as it wakes (R433). -/
def State.windowsPassed (s : State) : State :=
  let s1 : State := { s with pwr := { s.pwr with windows := 0 } }
  (List.range s.pwr.windows).foldl (fun (s : State) _ => s.window) s1

/-- XLAT at work, with the boundaries applied that it slept through. -/
def State.useXlat (s : State) : State := (s.use [pgXLAT]).windowsPassed

/-- WINDOW_BOUNDARY. XLAT in Nap or Doze applies it on wake; one in Off holds no counters, so that it has no effect but on the boundary
count (R433, Table 8-6). -/
def execWindowBoundary (s : State) : Host.Outcome State Fault Refusal := s.onBlk pgXLAT <|
  match s.rd H_PWR_NOW pgXLAT with
  | 0 => .next s.window
  | 3 => .next { s with windowCount := s.windowCount + 1 }
  | _ => .next { s with pwr := { s.pwr with windows := s.pwr.windows + 1 } }

/-! ### Walks (R192 to R194) -/

/-- The end of a translation that names no page here. -/
def State.xlatNomap (s : State) (r : Req) (next : Nat) : State := s.endAt3 r.id stNomap next

/-- A walk error (Table 8-4, row 4). -/
def State.walkError (s : State) (r : Req) (level : Nat) : State :=
  let s1 := ((s.bump XLAT_WALK_ERR).raise pgXLAT I_XLAT_WALK_FAULT).crumb pgXLAT 0x301 1
    [packBits [(0, 8, r.tid), (8, 2, level)], r.addr % 2 ^ 32, r.addr / 2 ^ 32]
  s1.xlatNomap r nidNone

/-- One walk read ordered at the home for a walking request; a table address outside a Managed, Uncached region of TID 0
is a walk error (R190, R193). -/
def State.walkRead (s : State) (r : Req) (level base : Nat) : State :=
  let a := tentAddr level base r.addr
  match s.tableRegion r.epoch a with
  | none => s.walkError r level
  | some n =>
    let i : Req := { Req.blank with
      id := s.nextId, op := .walk, intern := true, tid := r.tid, job := r.job, off := a / 64 * 64, region := n, epoch := r.epoch,
      mid := r.id, place := .home }
    let s1 := { s with reqs := s.reqs ++ [i], nextId := s.nextId + 1 }
    let s2 := (s1.bump XLAT_WALK_READS).updReq r.id (fun x => { x with place := .walking, wait := level, val := 0 })
    s2.homeArrive i.id

/-- A translation through a leaf (Table 8-4, rows 3, 5 and 6). -/
def State.throughLeaf (s : State) (r : Req) (l : Leaf) : State :=
  let s1 := s.tcUse r l
  if l.remote then s1.xlatNomap r l.nid
  else s1.withPga r (l.pga + r.addr % 2 ^ sizeBits l.size)

/-- An AS 1 request at XLAT: row 1, the root, the cache, or a walk. -/
def State.translate (s : State) (r : Req) : State :=
  if r.addr / 2 ^ 48 ≠ 0 then s.xlatNomap r nidNone
  else if s.rdAt r.epoch XLAT_ROOT_XEN 0 r.tid = 0 then s.xlatNomap r nidNone
  else match s.tcFind r.tid r.addr with
  | some l => (s.bump XLAT_TC_HIT).throughLeaf r l
  | none =>
    let (lv, base) := s.walkStart r.epoch r.tid r.addr
    (((s.walkTouch r.tid r.addr).bump XLAT_TC_MISS).winAdd pgXLAT 1 1).walkRead r lv base

/-- The leaf that a walk's last entry makes. -/
def leafOf (r : Req) (level : Nat) (remote : Bool) (nid pga : Nat) (nocount : Bool) : Leaf :=
  { tid := r.tid, size := sizeCode level, page := r.addr / 2 ^ pageBits level, remote := remote, nid := nid, pga := pga,
    nocount := nocount, cnt := 0, score := 0, queued := false, lastAid := 0 }

/-- The data of a walk read: the entry is kept until WALK_DONE. Poisoned or uncorrectable table data is a walk error. -/
def State.walkData (s : State) (parent off : Nat) (d : BitVec 512) (bad : Bool) : State :=
  match s.req parent with
  | none => s
  | some r =>
    let level := r.wait % 4
    let idx := (if level = 1 then bits r.addr 30 18 else if level = 2 then bits r.addr 21 9 else bits r.addr 16 5) % 8
    let w := if off = 0 && bad then 0 else bits d.toNat (64 * idx) 64
    s.updReq parent (fun x => { x with wait := level + 4, val := if bad then 2 ^ 64 else w })

/-- WALK_DONE of a request: the entry last read is a leaf, ends the walk otherwise, or names the next table, whose entry is
read next. -/
def execWalkDone (rid : Nat) (s : State) : Host.Outcome State Fault Refusal := s.onBlk pgXLAT <|
  match s.req rid with
  | none => .next s
  | some r =>
    if r.place != .walking || r.wait < 4 then .next s
    else
      let level := r.wait - 4
      let s0 := s.useXlat
      match (if r.val = 2 ^ 64 then TEnt.error else decodeTEnt level r.val) with
      | .invalid => .next (s0.xlatNomap r nidNone)
      | .error => .next (s0.walkError r level)
      | .remote nid =>
        let l := leafOf r level true nid 0 false
        let s1 := if s0.cacheOn r.tid then s0.tcFill l else s0
        .next (s1.xlatNomap r nid)
      | .page pga nc =>
        let l := leafOf r level false 0 pga nc
        if s0.cacheOn r.tid then
          let s1 := s0.tcFill l
          .next (s1.throughLeaf r ((s1.tc.find? (fun x => x.same l)).getD l))
        else .next (s0.withPga r (pga + r.addr % 2 ^ pageBits level))
      | .table next =>
        let s1 := if s0.cacheOn r.tid then s0.wcFill { tid := r.tid, level := level, page := r.addr / 2 ^ pageBits level, next := next } else s0
        .next (s1.walkRead r (level + 1) next)

/-! ### Invalidation (R197 to R199) -/

/-- The answer to a SYS message that needs the window right: DENIED first, then FENCED (R89, R108, R197); absent when the
message may act. -/
def State.sysRight (s : State) (p : Nat) (m : Msg) (write : Bool) : Option Nat :=
  let a := s.rd FPORT_MMIO_ACCESS p
  if a = 0 || (write && a ≠ 2) then some stDenied
  else if m.sySnode || !s.live m.sySrc then some stFenced
  else none

/-- Whether a page of 2^w bytes at page number `pg` overlaps the span of 2^v bytes that holds a TPA. -/
def overlaps (pg w tpa v : Nat) : Bool := if w ≤ v then pg * 2 ^ w / 2 ^ v == tpa / 2 ^ v else tpa / 2 ^ w == pg

/-- The mark of a walk read of MIGR that an invalidation has overtaken. -/
def walkStale : Nat := 1

/-- The removal of XINV: cached leaves, walk-cache entries, and walks restarted (R198). -/
def State.xinvDo (s : State) (tid tpa scope : Nat) : State :=
  let v := if scope = 0 then 16 else if scope = 1 then 21 else 30
  let all := scope = 3
  let s1 := { s with
    tc := s.tc.filter (fun l => !(l.tid == tid && (all || overlaps l.page (sizeBits l.size) tpa v))),
    wc := s.wc.filter (fun w => !(w.tid == tid && (all || overlaps w.page (pageBits w.level) tpa v))) }
  let ws := s1.reqs.filter (fun r => r.place == .walking && r.tid == tid && (all || r.addr / 2 ^ v == tpa / 2 ^ v))
  ws.foldl (fun (s : State) r =>
    let s2 := { s with reqs := s.reqs.map (fun (x : Req) => if x.op == Op.walk && x.gen == 0 && x.mid == r.id then { x with mid := 2 ^ 64 } else x) }
    s2.walkRead r 1 (s2.rdAt r.epoch XLAT_ROOT_BASE 0 r.tid))
    { s1 with reqs := s1.reqs.map (fun (x : Req) =>
        if x.op == Op.walk && x.gen != 0 && x.val == tid && (all || x.addr / 2 ^ v == tpa / 2 ^ v) then { x with grant := walkStale } else x) }

/-- An XINV performed and answered (R198). -/
def State.xinvRun (s : State) (port : Nat) (m : Msg) : State :=
  let s1 := s.useXlat.xinvDo (m.f 45 8) (m.f 53 32 * 65536) (m.f 85 2)
  (s1.bump XLAT_XINV_CNT).sysAnswer port m stOK 0

/-- The invalidation messages of a source that wait, in the order in which they arrived. -/
def State.invOf (s : State) (src : Nat) : Option (Nat × Msg × List Nat) := s.xsyncs.find? (fun x => x.2.1.sySrc == src)

/-- XINV. It is performed at once unless an earlier invalidation message of its source waits: then it waits behind it (R197). -/
def execXinv (port : Fin 16) (m : Msg) (s : State) : Host.Outcome State Fault Refusal := s.onBlk (pgFPORT port.val) <|
  match s.portIn port.val clsSys 0x88 m with
  | none => .next s
  | some (s1, false) => .next s1
  | some (s1, true) =>
    let s2 := s1.count 0 0 0 1
    match s2.sysRight port.val m true with
    | some st => .next (s2.sysAnswer port.val m st 0)
    | none =>
      if (s2.invOf m.sySrc).isSome then .next { s2 with xsyncs := s2.xsyncs ++ [(port.val, m, [])] }
      else .next (s2.xinvRun port.val m)

/-- XSYNC: it waits for every request of a translated line that XLAT has resolved before it, and for every Bake that the node holds
(R199). -/
def execXsync (port : Fin 16) (m : Msg) (s : State) : Host.Outcome State Fault Refusal := s.onBlk (pgFPORT port.val) <|
  match s.portIn port.val clsSys 0x89 m with
  | none => .next s
  | some (s1, false) => .next s1
  | some (s1, true) =>
    let s2 := s1.count 0 0 0 1
    match s2.sysRight port.val m true with
    | some st => .next (s2.sysAnswer port.val m st 0)
    | none =>
      let w := (s2.reqs.filter (fun r => !r.intern && r.as1 && (match r.place with
        | .bypass | .queued | .batch | .resolving | .walking => false
        | _ => true))).map (·.id) ++ s2.bakes.map (fun b => b.id) ++ s2.leavings.map (fun t => t.id)
      .next { s2 with xsyncs := s2.xsyncs ++ [(port.val, m, w)] }

/-- The XINVs of a source that stand at the front of its waiting messages, performed in order (R197). -/
def State.invNext (src : Nat) : Nat → State → State
  | 0, s => s
  | n + 1, s => match s.invOf src with
    | none => s
    | some x =>
      if x.2.1.opc = 0x88 then State.invNext src n ({ s with xsyncs := dropFirst (fun y => y == x) s.xsyncs }.xinvRun x.1 x.2.1) else s

/-- Whether a waiting message is an XSYNC, the first of its source, whose requests have all left. -/
def State.syncReady (s : State) (x : Nat × Msg × List Nat) : Bool :=
  x.2.1.opc != 0x88 && s.invOf x.2.1.sySrc == some x && x.2.2.all s.hasLeft

/-- XSYNC_DONE: the first waiting XSYNC whose requests have all left is answered, and its source's next messages are performed. -/
def execXsyncDone (s : State) : Host.Outcome State Fault Refusal := s.onBlk pgXLAT <|
  match s.xsyncs.find? s.syncReady with
  | none => .next s
  | some x =>
    let s1 := { s with xsyncs := dropFirst (fun y => y == x) s.xsyncs }.sysAnswer x.1 x.2.1 stOK 0
    .next (State.invNext x.2.1.sySrc s1.xsyncs.length s1)

/-- A write of HPQ_TAIL (R202). -/
def State.hpqTailWrite (s : State) (v : Nat) : State :=
  let used := (s.hpqHead + 1024 - s.hpqTail) % 1024
  let adv := (v + 1024 - s.hpqTail) % 1024
  if adv ≤ used then { s with hpqTail := v }.sample pgXLAT 0 (used - adv : Nat) else s.cfgErr pgXLAT 0 0x110

/-- HPQ_TAIL_WRITE. -/
def execHpqTailWrite (val : Word) (s : State) : Host.Outcome State Fault Refusal := s.onBlk pgXLAT <| .next (s.hpqTailWrite (bits val.toNat 0 10))

/-- XLAT at a commit and at its end (R196). -/
def State.xlatDrained (s : State) : State :=
  { s with
    tc := s.tc.filter (fun l => !s.rootChanged.contains l.tid), wc := s.wc.filter (fun w => !s.rootChanged.contains w.tid),
    rootChanged := [] }

end Sys2Proof.Machine
end

