-- ==== Sys2Proof/Machine/Ras.lean ====
section
/-! DEFINITION. RAS: counting windows, lasting pages and banks (R274 to R277), patrol (R272, R273), the retire map (R278 to
R280), stale rows (R266 to R268), and the refreshed segments (R252 to R254, R279). -/
namespace Sys2Proof.Machine

open Reg

/-! ### Channels -/

def Mch.fresh : Mch :=
  { step := 0, retried := false, alerts := [], pasr := BitVec.allOnes 512, clears := false, stale := [], hot := false, above := false, held := false }

def State.mch (s : State) (n : Nat) : Mch := Tab.get s.mchs n Mch.fresh
def State.setMch (s : State) (n : Nat) (v : Mch) : State := { s with mchs := Tab.set s.mchs n v }

/-- All channels and all queues. -/
def channels : List Nat := List.range 48
def queueNos : List Nat := List.range 96

/-! ### Refreshed segments -/

/-- Whether region n of an epoch overlaps a segment: region units 24k to 24k + 23 (R238). -/
def State.inSegment (s : State) (ep n k : Nat) : Bool :=
  decide (s.rgn ep TEN_R_BASE n < 24 * k + 24) && decide (24 * k < s.rgn ep TEN_R_BASE n + s.rgn ep TEN_R_SIZE n)

/-- Whether a segment must be refreshed in the open epoch (R252, R279): it overlaps a valid region, holds part of the
directory store, or is a spare in use. -/
def State.wantSegment (s : State) (k : Nat) : Bool :=
  k = 510 || k = 511 || (validRegions s.cfgOpen).any (fun n => s.inSegment s.openEpoch n k) ||
    s.ras.rmap.any (fun e => e.2.state != 0 && e.2.spare == k)

/-- The segments that a channel must refresh in the open epoch: all of them with PASR_EN 0. -/
def State.wantMask (s : State) (ch : Nat) : BitVec 512 :=
  if s.rd MCH_PASR_EN ch = 0 then BitVec.allOnes 512
  else BitVec.ofNat 512 ((List.range 512).foldl (fun a k => a + (if s.wantSegment k then 2 ^ k else 0)) 0)

/-- Segment clears of a segment in both queues of a channel (R254). -/
def State.clearSegment (s : State) (ch k : Nat) : State :=
  let e := plainEntry (.segClear k) .mch s.openEpoch
  let s1 := (s.enqueue (2 * ch) e).enqueue (2 * ch + 1) e
  s1.setMch ch { s1.mch ch with clears := true }

/-- The segments of two masks' difference. -/
def newSegments (old new : BitVec 512) : List Nat := (List.range 512).filter (fun k => bit new.toNat k && !bit old.toNat k)

/-- The rise of a channel's mask: segments newly refreshed are cleared, with `also`, the segments whose layout changed
(R254, R265). -/
def State.raiseMask (s : State) (ch : Nat) (also : List Nat) : State :=
  let m := s.mch ch
  let new := m.pasr ||| s.wantMask ch
  let ks := newSegments m.pasr new
  (ks ++ also.filter (fun k => !ks.contains k)).foldl (fun s k => s.clearSegment ch k) (s.setMch ch { m with pasr := new })

/-- The fall of a channel's mask when a commit has drained (R253). A stack in training keeps its mask until step 11 (R255). Bits held from
before a warm reset stay until a commit has validated a region (R466). -/
def State.fallMask (s : State) (ch : Nat) : State :=
  let m := s.mch ch
  if s.rd MCH_TRAIN_STATE ch ≠ 0xF || m.held && (validRegions s.cfgOpen).isEmpty then s else s.setMch ch { m with pasr := s.wantMask ch, held := false }

/-- SEG_CLEAR_DONE of a channel: its last Segment clear has ended (R254); a copy that waited for it may begin. -/
def execSegClearDone (ch : Fin 48) (s : State) : Host.Outcome State Fault Refusal := s.onBlk (pgMCH ch.val) <|
  let m := s.mch ch.val
  let left := [2 * ch.val, 2 * ch.val + 1].any (fun q => ((s.queue q).entries ++ (s.queue q).waiting).any (fun e => match e.kind with
    | .segClear _ => true
    | _ => false))
  if m.clears && !left then
    let s1 := (s.setMch ch.val { m with clears := false }).raise (pgMCH ch.val) I_MCH_SEG_CLEAR_DONE
    let mine := match s1.ras.running with
      | some i => match Tab.get? s1.ras.rmap i with
        | some e => e.q / 2 == ch.val
        | none => false
      | none => false
    .next (if mine then { s1 with ras := { s1.ras with clearing := false } } else s1)
  else .next s

/-! ### Stale rows (R266 to R268) -/

/-- The poison mask of a stale row. -/
def State.staleMask (s : State) (q bank row : Nat) : Option (BitVec 128) :=
  ((s.mch (q / 2)).stale.find? (fun x => x.1 == q && x.2.1 == bank && x.2.2.1 == row)).map (fun x => x.2.2.2)

/-- The stale rows of the fullest MCH, sampled (Table 11-9). -/
def State.sampleStale (s : State) : State :=
  s.sample pgRAS 1 ((s.mchs.map (fun (m : Nat × Mch) => m.2.stale.length)).foldl max 0 : Nat)

/-- A row entered in its MCH's stale table. -/
def State.addStale (s : State) (q bank row : Nat) (mask : BitVec 128) : State :=
  let m := s.mch (q / 2)
  let rest := m.stale.filter (fun x => !(x.1 == q && x.2.1 == bank && x.2.2.1 == row))
  (s.setMch (q / 2) { m with stale := rest ++ [(q, bank, row, mask)] }).sampleStale

/-- A row no longer stale. -/
def State.dropStale (s : State) (q bank row : Nat) : State :=
  let m := s.mch (q / 2)
  (s.setMch (q / 2) { m with stale := m.stale.filter (fun x => !(x.1 == q && x.2.1 == bank && x.2.2.1 == row)) }).sampleStale

/-- One line of a stale row written: its mask bit takes the line's poison state (R268). -/
def State.staleWrite (s : State) (q bank row col : Nat) (poison : Bool) : State :=
  match s.staleMask q bank row with
  | none => s
  | some m => s.addStale q bank row (if poison then m ||| BitVec.ofNat 128 (2 ^ col) else m &&& ~~~ (BitVec.ofNat 128 (2 ^ col)))

/-- An entry of RAS for a row. -/
def rowEntry (kind : EKind) (bank row ep : Nat) : Entry := { plainEntry kind .ras ep with bank := bank, srow := row, row := row }

/-- A re-encode of a row placed in its queue, counted to TID 0 and JOB 0 (R267). -/
def State.placeReencode (s : State) (q bank row : Nat) : State := s.enqueue q (rowEntry .reencode bank row s.openEpoch)

/-- STALE_FLUSH: every stale row of the node is re-encoded. -/
def State.staleFlush (s : State) : State :=
  (s.mchs.flatMap (fun (m : Nat × Mch) => m.2.stale)).foldl (fun (s : State) (x : Nat × Nat × Nat × BitVec 128) => s.placeReencode x.1 x.2.1 x.2.2.1) s

/-- STALE_FLUSH. -/
def execStaleFlush (s : State) : Host.Outcome State Fault Refusal := s.onBlk pgRAS <| .next s.staleFlush

/-! ### Error events (R274 to R277) -/

/-- Sources of the memory payload (Table 11-5). -/
def srcRead : Nat := 0
def srcPatrol : Nat := 1
def srcDemand : Nat := 2
def srcCopy : Nat := 3
def srcReenc : Nat := 4
def srcMerge : Nat := 5

/-- The place of an error: queue, bank, row as addressed, column. -/
structure ErrAt where
  q    : Nat
  bank : Nat
  row  : Nat
  col  : Nat
deriving DecidableEq, Repr

def ErrAt.off (a : ErrAt) : Nat := unhashLine a.q a.bank a.row a.col * 64
def ErrAt.page (a : ErrAt) : Nat := a.off / 65536

/-- The payload of Table 11-5. `nsym` is 0xFF for an uncorrectable error. -/
def ErrAt.payload (a : ErrAt) (nsym first source count : Nat) : List Nat :=
  [a.off % 2 ^ 32, a.off / 2 ^ 32, packBits [(0, 7, a.q), (7, 4, a.bank), (11, 9, a.row / 512), (20, 9, a.row % 512)],
   packBits [(0, 8, nsym), (8, 8, first), (16, 8, source), (24, 8, min 255 count)]]

/-- The sum of slice counts (R275). -/
def windowSum (l : List Nat) : Nat := l.foldl (· + ·) 0

/-- One more event in the current slice. -/
def addEvent (l : List Nat) : List Nat := match l with
  | [] => [1]
  | c :: t => min 255 (c + 1) :: t

def PageEnt.count (e : PageEnt) : Nat := windowSum e.counts
def BankEnt.count (e : BankEnt) : Nat := windowSum e.counts

def BankEnt.fresh : BankEnt := { counts := [], subs := [], lasting := false, wide := false }

/-- The lowest free place of the page table. -/
def State.freePage (s : State) : Option Nat :=
  if s.ras.pages.length < 4096 then (List.range (s.ras.pages.length + 1)).find? (fun i => (Tab.get? s.ras.pages i).isNone) else none

def State.setPage (s : State) (i : Nat) (e : PageEnt) : State :=
  { s with ras := { s.ras with pages := Tab.set s.ras.pages i e } }.sample pgRAS 0 (Tab.set s.ras.pages i e).length

/-- A page's lasting state judged: over the limit, or at its first uncorrectable or metadata error. -/
def State.judgePage (s : State) (i : Nat) (at_ : ErrAt) (hard : Bool) (nsym first source : Nat) : State :=
  match Tab.get? s.ras.pages i with
  | none => s
  | some e =>
    if !e.lasting && (hard || decide (e.count > s.rd RAS_PAGE_LIMIT)) then
      ((s.setPage i { e with lasting := true }).crumb pgRAS 0x413 1 (at_.payload nsym first source e.count)).raise pgRAS I_RAS_PAGE_LASTING
    else s

/-- An event counted to its page (R276). -/
def State.pageEvent (s : State) (a : ErrAt) (hard : Bool) (nsym first source : Nat) : State :=
  match s.ras.pages.find? (fun p => p.2.page == a.page) with
  | some p => (s.setPage p.1 { p.2 with counts := addEvent p.2.counts }).judgePage p.1 a hard nsym first source
  | none =>
    let e : PageEnt := { page := a.page, counts := [1], lasting := false, born := s.ras.births }
    let s1 := { s with ras := { s.ras with births := s.ras.births + 1 } }
    match s.freePage with
    | some i => ((s1.setPage i e).crumb pgRAS 0x410 0 (a.payload nsym first source 1)).judgePage i a hard nsym first source
    | none =>
      match minBy (fun (p : Nat × PageEnt) => p.2.count * 2 ^ 64 + p.2.born) (s.ras.pages.filter (fun p => !p.2.lasting)) with
      | some v => (((s1.bump RAS_PT_EVICT).setPage v.1 e).crumb pgRAS 0x410 0 (a.payload nsym first source 1)).judgePage v.1 a hard nsym first source
      | none => s1.bump RAS_PT_FULL

/-- A bank entry with one more event, its subarray slots and WIDE (R276). -/
def BankEnt.event (e : BankEnt) (sa : Nat) : BankEnt :=
  let e1 := { e with counts := addEvent e.counts }
  if e.subs.any (fun x => x.1 == sa) then
    { e1 with subs := e.subs.map (fun (x : Nat × List Nat) => if x.1 == sa then (x.1, addEvent x.2) else x) }
  else if e.subs.length < 4 then { e1 with subs := e.subs ++ [(sa, [1])] }
  else { e1 with wide := true }

def State.setBank (s : State) (i : Nat) (e : BankEnt) : State := { s with ras := { s.ras with banks := Tab.set s.ras.banks i e } }
def State.bankEnt (s : State) (i : Nat) : BankEnt := Tab.get s.ras.banks i BankEnt.fresh

/-- A bank's lasting state judged. -/
def State.judgeBank (s : State) (i : Nat) (a : ErrAt) (nsym first source : Nat) : State :=
  let e := s.bankEnt i
  if !e.lasting && e.count > s.rd RAS_BANK_LIMIT then
    ((s.setBank i { e with lasting := true }).crumb pgRAS 0x414 1 (a.payload nsym first source e.count)).raise pgRAS I_RAS_BANK_LASTING
  else s

/-- An event counted to its page and its bank (R274). -/
def State.errEvent (s : State) (a : ErrAt) (hard : Bool) (nsym first source : Nat) : State :=
  let i := a.q * 16 + a.bank
  let s1 := { s with ras := { s.ras with errSec := s.ras.errSec + 1 } }.pageEvent a hard nsym first source
  (s1.setBank i ((s1.bankEnt i).event (a.row / 512))).judgeBank i a nsym first source

/-- The windowed count of an error's page. -/
def State.pageCount (s : State) (a : ErrAt) : Nat :=
  match s.ras.pages.find? (fun p => p.2.page == a.page) with
  | some p => p.2.count
  | none => 0

/-- A corrected read, counted. -/
def State.corrected (s : State) (a : ErrAt) (syms : List Nat) (source : Nat) : State :=
  (s.bump RAS_CE_CNT).errEvent a false syms.length (syms.foldl min 79) source

/-- An uncorrectable error or a metadata error: counted, reported by its Crumb, and as UE (R269, R270, R277). -/
def State.uncorrectable (s : State) (a : ErrAt) (isMeta : Bool) (source : Nat) : State :=
  let s1 := (if isMeta then s.bump RAS_META_ERR else s).bump RAS_UE_CNT
  let s2 := s1.errEvent a true 0xFF 0 source
  (s2.crumb pgRAS (if isMeta then 0x412 else 0x411) 2 (a.payload 0xFF 0 source (s2.pageCount a))).raise pgRAS I_RAS_UE

/-- Every page judged again, as after a commit that changes its limit (R277). -/
def State.judgePages (s : State) : State :=
  s.ras.pages.foldl (fun (s : State) (p : Nat × PageEnt) =>
    let la := p.2.page * 1024
    let (q, b, r, c) := hashLine la
    s.judgePage p.1 { q := q, bank := b, row := r, col := c } false 0 0 srcRead) s

/-- Every bank judged again, as after a commit that changes its limit (R277). -/
def State.judgeBanks (s : State) : State :=
  s.ras.banks.foldl (fun (s : State) (p : Nat × BankEnt) =>
    s.judgeBank p.1 { q := p.1 / 16, bank := p.1 % 16, row := (p.2.subs.headD (0, [])).1 * 512, col := 0 } 0 0 srcRead) s

/-- Lasting states judged at a commit that changes their limit (R277), `page` and `bank` being the limits before it. -/
def State.judgeLasting (s : State) (page bank : Nat) : State :=
  let s1 := if s.rd RAS_PAGE_LIMIT = page then s else s.judgePages
  if s1.rd RAS_BANK_LIMIT = bank then s1 else s1.judgeBanks

/-- A slice ended for a list of counts. -/
def nextSlice (l : List Nat) : List Nat := (0 :: l).take 24

/-- SLICE_BOUNDARY (R275, R276): the oldest slice leaves every entry; entries at 0 that are not lasting become free. -/
def execSliceBoundary (s : State) : Host.Outcome State Fault Refusal := s.onBlk pgRAS <|
  let pages := (Tab.mapVal (fun (e : PageEnt) => { e with counts := nextSlice e.counts }) s.ras.pages).filter (fun p => p.2.lasting || p.2.count != 0)
  let banks := Tab.mapVal (fun (e : BankEnt) => { e with
    counts := nextSlice e.counts,
    subs := (e.subs.map (fun (x : Nat × List Nat) => (x.1, nextSlice x.2))).filter (fun x => windowSum x.2 != 0) }) s.ras.banks
  .next (({ s with ras := { s.ras with pages := pages, banks := banks } }.bump RAS_SLICE_NOW).sample pgRAS 0 pages.length)

/-- PT_CLEAR: the selected page is no longer lasting; with no event in the window its entry becomes free. -/
def State.ptClear (s : State) : State :=
  let i := s.rd RAS_PT_SEL
  match Tab.get? s.ras.pages i with
  | none => s
  | some e =>
    if e.count = 0 then { s with ras := { s.ras with pages := Tab.erase s.ras.pages i } }.sample pgRAS 0 (Tab.erase s.ras.pages i).length
    else s.setPage i { e with lasting := false }

/-- PT_CLEAR. -/
def execPtClear (s : State) : Host.Outcome State Fault Refusal := s.onBlk pgRAS <| .next s.ptClear

/-- BT_CLEAR: the selected bank is neither lasting nor wide. -/
def State.btClear (s : State) : State :=
  let i := s.rd RAS_BT_SEL
  match Tab.get? s.ras.banks i with
  | none => s
  | some e => s.setBank i { e with lasting := false, wide := false }

/-- BT_CLEAR. -/
def execBtClear (s : State) : Host.Outcome State Fault Refusal := s.onBlk pgRAS <| .next s.btClear

/-! ### Patrol (R272, R273) -/

/-- Whether a channel refreshes a segment. -/
def State.refreshed (s : State) (ch k : Nat) : Bool := bit (s.mch ch).pasr.toNat k

/-- Row groups of one segment. -/
def segRows : Nat := 8192

/-- Whether a bank subarray is a spare in use, which no address of its own reaches (R280). -/
def State.spareUse (s : State) (q bank k : Nat) : Bool :=
  s.ras.rmap.any (fun e => e.2.state != 0 && e.2.q == q && e.2.bank == bank && e.2.spare == k)

/-- Whether the patrol of a queue visits a row group: its segment is refreshed and its bank subarray no spare in use. -/
def State.patrols (s : State) (q g : Nat) : Bool :=
  s.refreshed (q / 2) (g / segRows % 512) && !s.spareUse q (g % 16) (g / segRows % 512)

/-- The first line from a cursor on that the patrol visits, wrapping, with whether it wrapped: in the row group of the cursor, in the
next ones of its segment, or at the start of a later segment. -/
def State.patrolAt (s : State) (q cur : Nat) : Option (Nat × Bool) :=
  let g := cur / 128
  if s.patrols q g then some (cur % 2 ^ 29, decide (2 ^ 29 ≤ cur))
  else
    let next := match (List.range 16).find? (fun i => s.patrols q (g + 1 + i)) with
      | some i => some (g + 1 + i)
      | none => (List.range 512).findSome? (fun i => ((List.range 16).find? (fun j => s.patrols q ((g / segRows + 1 + i) * segRows + j))).map
          (fun j => (g / segRows + 1 + i) * segRows + j))
    next.map (fun n => (n * 128 % 2 ^ 29, decide (2 ^ 22 ≤ n)))

/-- One patrol placement in a queue: a Scrub entry, or at a stale row a re-encode in place of the row's reads (R268). -/
def State.patrol (s : State) (q : Nat) : State :=
  match s.patrolAt q (Tab.get s.ras.cursor q 0) with
  | none => s
  | some (n, wrapped) =>
    let s0 := if wrapped && q = 0 then s.bump RAS_PASSES else s
    let g := n / 128
    let row := g / 16
    let bank := g % 16
    let (s1, step) := match s0.staleMask q bank row with
      | some _ => (s0.placeReencode q bank row, 128 - n % 128)
      | none => (s0.enqueue q { rowEntry (.scrub srcPatrol) bank row s0.openEpoch with col := n % 128, off := unhashLine q bank row (n % 128) * 64 }, 1)
    { s1 with ras := { s1.ras with cursor := Tab.set s1.ras.cursor q (n + step) } }

/-- PATROL_PLACEMENT: one placement in every queue. -/
def execPatrolPlacement (s : State) : Host.Outcome State Fault Refusal := s.onBlk pgRAS <| .next (queueNos.foldl (fun s q => s.patrol q) (s.use [pgRAS]))

/-- The hardware limit of the patrol interval, in mc. -/
def scrubLimit : Nat := 192000

/-- SCRUB_INT_NOW set for a policy value, with the override where the limit governs (R59, R273). The override lasts while
the ceiling or the floor, which is at most the ceiling, exceeds the limit; its Crumb names the ceiling (Table 11-6). -/
def State.setScrub (s : State) (v : Nat) : State :=
  let above := s.rd RAS_SCRUB_INT_CEIL > scrubLimit || s.rd RAS_SCRUB_INT_FLOOR > scrubLimit
  let now := min v scrubLimit
  let s1 := s.wr RAS_SCRUB_INT_NOW now
  if above != s.ras.above then { s1 with ras := { s1.ras with above := above } }.policyOvr pgRAS 1 above (s.rd RAS_SCRUB_INT_CEIL) now else s1

/-- A working value clamped to a floor and a ceiling. -/
def clamp (lo hi v : Nat) : Nat := max lo (min hi v)

/-- The interval held to its bounds, as after a commit (R58). -/
def State.scrubClamp (s : State) : State := s.setScrub (clamp (s.rd RAS_SCRUB_INT_FLOOR) (s.rd RAS_SCRUB_INT_CEIL) (s.rd RAS_SCRUB_INT_NOW))

/-- SCRUB_RATE_STEP: halved after a second with errors, doubled after one without (R273). -/
def execScrubRateStep (s : State) : Host.Outcome State Fault Refusal := s.onBlk pgRAS <|
  let now := s.rd RAS_SCRUB_INT_NOW
  let v := if s.ras.errSec > 0 then now / 2 else now * 2
  let s1 := s.sample pgRAS 2 s.ras.errSec
  .next ({ s1 with ras := { s1.ras with errSec := 0 } }.setScrub (clamp (s.rd RAS_SCRUB_INT_FLOOR) (s.rd RAS_SCRUB_INT_CEIL) v))

/-! ### The retire map (R278 to R280) -/

/-- Redirections of a queue in force at an acceptance: bank, subarray, spare, and rows whose copy was accepted. -/
def State.redirFor (s : State) (q : Nat) : List (Nat × Nat × Nat × Nat) :=
  (s.ras.rmap.filter (fun e => e.2.state != 0 && e.2.q == q)).map (fun e => (e.2.bank, e.2.sa, e.2.spare, e.2.copied))

/-- The refusal of an ADD (Table 11-3); 0 when it is accepted. -/
def State.rmapCheck (s : State) (i q bank sa spare : Nat) : Nat :=
  let others := s.ras.rmap.filter (fun e => e.2.state != 0 && e.2.q == q && e.2.bank == bank)
  if s.ras.running.isSome then 1
  else if (match Tab.get? s.ras.rmap i with
    | some e => e.state != 0
    | none => false) then 2
  else if spare = 510 || spare = 511 then 3
  else if s.commitPending || (validRegions s.cfgOpen).any (fun n => s.inSegment s.openEpoch n spare) ||
      s.nextRegions.any (fun n => decide (s.rdNext TEN_R_BASE 0 n < 24 * spare + 24) &&
        decide (24 * spare < s.rdNext TEN_R_BASE 0 n + s.rdNext TEN_R_SIZE 0 n)) then 4
  else if spare = sa || others.any (fun e => e.2.sa == sa || e.2.sa == spare || e.2.spare == spare) then 5
  else 0

/-- An entry added: the spare's segment is refreshed from now on, cleared first if it was not, and the copy runs. -/
def State.rmapStart (s : State) (i q bank sa spare : Nat) : State :=
  let was := s.refreshed (q / 2) spare
  let e : RmapEnt := { q := q, bank := bank, sa := sa, spare := spare, state := 1, placed := 0, copied := 0, issued := 0 }
  let s1 := { s with ras := { s.ras with rmap := Tab.set s.ras.rmap i e, running := some i, clearing := !was } }
  channels.foldl (fun s ch => s.raiseMask ch []) s1

/-- The code of the signal that hands a retire-map entry to the TMC. -/
def tsRmap : Nat := 6

/-- A field written to a retire-map entry before ADD (R278), named by its lowest bit of register 0x144. -/
def State.rmapField (s : State) (i lo : Nat) : Nat := Tab.get s.ras.fields (i * 32 + lo) 0

/-- A field of the entry that RMAP_SEL selects, written. -/
def State.rmapPut (s : State) (lo v : Nat) : State :=
  { s with ras := { s.ras with fields := Tab.set s.ras.fields (s.rd RAS_RMAP_SEL * 32 + lo) v } }

/-- ADD of the retire map: the fields of the selected entry, as they were written. -/
def State.rmapAdd (s : State) : State :=
  let i := s.rd RAS_RMAP_SEL
  let q := s.rmapField i 0
  let bank := s.rmapField i 7
  let sa := s.rmapField i 11
  let spare := s.rmapField i 20
  match s.rmapCheck i q bank sa spare with
  | 0 =>
    let v := packBits [(0, 7, q), (7, 4, bank), (11, 9, sa), (20, 9, spare)]
    ({ s.rmapStart i q bank sa spare with tmc := { s.tmc with rmap := Tab.set s.tmc.rmap i v } }).out (.tmc tsRmap i)
  | k => (s.wr RAS_RMAP_RESULT k).raise pgRAS I_RAS_RMAP_REFUSED

/-- The number of a bank subarray. -/
def saKey (q bank sa : Nat) : Nat := (q * 16 + bank) * 512 + sa

/-- Whether a Bake holds a scratch reservation in a bank subarray (R290). -/
def State.reserved (s : State) (k : Nat) : Bool := s.bakes.any (fun b => b.granted.contains k)

/-- RMAP_COPY_PLACE: the next copy entry, once the segment clear has ended and, for the first, no Bake holds a reservation
there (R279, R290). -/
def execRmapCopyPlace (s : State) : Host.Outcome State Fault Refusal := s.onBlk pgRAS <|
  match s.ras.running with
  | none => .next s
  | some i => match Tab.get? s.ras.rmap i with
    | none => .next s
    | some e =>
      if s.ras.clearing || e.placed ≥ 512 || (e.placed = 0 && s.reserved (saKey e.q e.bank e.sa)) then .next s
      else
        let s1 := s.enqueue e.q (rowEntry (.copy i) e.bank (e.sa * 512 + e.placed) s.openEpoch)
        .next { s1 with ras := { s1.ras with rmap := Tab.set s1.ras.rmap i { e with placed := e.placed + 1 } } }

/-- A copy entry's last command issued; the last of all ends the copy (R279). -/
def State.copyIssued (s : State) (i : Nat) : State :=
  match Tab.get? s.ras.rmap i with
  | none => s
  | some e =>
    let n := e.issued + 1
    let s1 := { s with ras := { s.ras with
      rmap := Tab.set s.ras.rmap i { e with issued := n, state := if n = 512 then 2 else e.state },
      running := if n = 512 then none else s.ras.running } }
    if n = 512 then
      (s1.raise pgRAS I_RAS_RETIRE_DONE).crumb pgRAS 0x415 0 [packBits [(0, 8, i), (8, 7, e.q), (15, 4, e.bank), (19, 9, e.sa)], e.spare]
    else s1

/-! ### EVLOG -/

/-- A write of TAIL (R284): frees the places passed, or is discarded when it would pass HEAD. -/
def State.tailWrite (s : State) (v : Nat) : State :=
  let n := (v + evPlaces - s.evlog.tail) % evPlaces
  if n ≤ s.evlog.used then s.evlogFree n else s.cfgErr pgEVLOG 0 0x104

/-- EVLOG_TAIL_WRITE. -/
def execEvlogTailWrite (val : Word) (s : State) : Host.Outcome State Fault Refusal := s.onBlk pgEVLOG <| .next (s.tailWrite (bits val.toNat 0 10))

end Sys2Proof.Machine
end

