-- ==== Sys2Proof/Machine/Rdl.lean ====
section
/-! DEFINITION. RDL: the Poisoned Row List and rescans (R297, R298), and the arithmetic of the reductions (R304 to
R308, Tables 12-4 to 12-6). -/
namespace Sys2Proof.Machine

open Reg

/-! ### The Poisoned Row List (R297) -/

/-- The number of a row: queue, bank, 18-bit row. Its bank subarray is this number without the row of the subarray. -/
def rowNo (q bank row : Nat) : Nat := (q * 16 + bank) * 2 ^ 18 + row

/-- The lines of a row that are listed as poisoned. -/
def State.prlMask (s : State) (k : Nat) : BitVec 128 :=
  match s.rdl.prl.find? (fun e => e.2.1 == k) with
  | some e => e.2.2
  | none => 0

/-- Whether a bank subarray's overflow bit is set. -/
def State.overflowed (s : State) (k : Nat) : Bool := s.rdl.ovf.contains (k / 512)

/-- A row's mask set: an entry of the lowest free place, a changed mask, or a freed entry; with no place free the bank
subarray overflows (R298). -/
def State.setPrl (s : State) (k : Nat) (m : BitVec 128) : State :=
  let rest := s.rdl.prl.filter (fun e => e.2.1 != k)
  if m = 0 then { s with rdl := { s.rdl with prl := rest } }.sample pgRDL 0 rest.length
  else match s.rdl.prl.find? (fun e => e.2.1 == k) with
    | some e => { s with rdl := { s.rdl with prl := rest ++ [(e.1, k, m)] } }
    | none =>
      match (if rest.length < 4096 then (List.range (rest.length + 1)).find? (fun i => !rest.any (fun e => e.1 == i)) else none) with
      | some i => { s with rdl := { s.rdl with prl := rest ++ [(i, k, m)] } }.sample pgRDL 0 (rest.length + 1 : Nat)
      | none => { s with rdl := { s.rdl with ovf := if s.overflowed k then s.rdl.ovf else s.rdl.ovf ++ [k / 512] } }.raise pgRDL I_RDL_PRL_OVF

/-- One line's bit set or cleared, for a row of a Compute segment. -/
def State.prlLine (s : State) (q bank row col : Nat) (poison : Bool) : State :=
  if s.computeSeg s.openEpoch (row / 512) then
    let k := rowNo q bank row
    let m := s.prlMask k
    let b := BitVec.ofNat 128 (2 ^ col)
    let new := if poison then m ||| b else m &&& ~~~ b
    if new = m then s else s.setPrl k new
  else s

/-- A Segment clear in a queue frees the entries of its segment there. -/
def State.prlClear (s : State) (q seg : Nat) : State :=
  let keep := s.rdl.prl.filter (fun e => !(e.2.1 / 2 ^ 22 == q && e.2.1 / 512 % 512 == seg))
  if keep.length = s.rdl.prl.length then s else { s with rdl := { s.rdl with prl := keep } }.sample pgRDL 0 keep.length

/-! ### Rescan (R298) -/

/-- The reads of one row of a rescan, counted to TID 0 and JOB 0. -/
def State.rescanRow (s : State) (r : Rescan) : State :=
  let row := r.sa * 512 + (512 - r.left / 128)
  (List.range 128).foldl (fun (s : State) c =>
    s.enqueue r.q { rowEntry (.read .rescan) r.bank row s.openEpoch with src := .home, col := c, off := unhashLine r.q r.bank row c * 64 }) s

/-- RESCAN_GO: discarded while one runs. -/
def State.rescanGo (s : State) : State :=
  if s.rdl.rescan.isSome then s.cfgErr pgRDL 0 0x10C
  else
    let r : Rescan := { q := s.rd RDL_RS_QUEUE, bank := s.rd RDL_RS_BANK, sa := s.rd RDL_RS_SUBARRAY, left := 512 * 128, missed := false }
    { s with rdl := { s.rdl with rescan := some r } }.rescanRow r

/-- RESCAN_GO. -/
def execRescanGo (s : State) : Host.Outcome State Fault Refusal := s.onBlk pgRDL <| .next s.rescanGo

/-- One line of a rescan returned: listed if poisoned; the next row follows the last line of a row. -/
def State.rescanLine (s : State) (q bank row col : Nat) (poison : Bool) : State :=
  match s.rdl.rescan with
  | none => s
  | some r =>
    let s1 := s.bump RDL_SCAN_LINES
    let k := rowNo q bank row
    let new := if poison then s1.prlMask k ||| BitVec.ofNat 128 (2 ^ col) else s1.prlMask k
    let s2 := if poison then s1.setPrl k new else s1
    let r2 := { r with left := r.left - 1, missed := r.missed || (poison && s2.prlMask k != new) }
    let s3 := { s2 with rdl := { s2.rdl with rescan := some r2 } }
    if r2.left % 128 = 0 && r2.left != 0 then s3.rescanRow r2 else s3

/-- RESCAN_DONE: every line has returned; the overflow bit is cleared if every poisoned line found an entry. -/
def execRescanDone (s : State) : Host.Outcome State Fault Refusal := s.onBlk pgRDL <|
  match s.rdl.rescan with
  | none => .next s
  | some r =>
    if r.left = 0 then
      let k := saKey r.q r.bank r.sa
      let s1 := { s with rdl := { s.rdl with rescan := none, ovf := if r.missed then s.rdl.ovf else s.rdl.ovf.filter (· != k) } }
      .next ((s1.wr RDL_RESCAN_OVF (b2n r.missed)).raise pgRDL I_RDL_RESCAN_DONE)
    else .next s

/-! ### Floating point (R306, R307) -/

/-- A binary format: exponent bits and fraction bits. -/
structure Fmt where
  eb : Nat
  mb : Nat
deriving DecidableEq, Repr

def bf16 : Fmt := { eb := 8, mb := 7 }
def fp16 : Fmt := { eb := 5, mb := 10 }
def fp32 : Fmt := { eb := 8, mb := 23 }

/-- The number that an encoding stands for: ± m × 2^e, with e counted from the format's smallest unit. -/
inductive Fp where
  | nan (signalling : Bool)
  | inf (neg : Bool)
  | fin (neg : Bool) (m : Nat) (e : Int)
deriving DecidableEq, Repr

/-- The exponent of a format's smallest unit: that of its least subnormal. -/
def Fmt.unit (f : Fmt) : Int := 2 - (2 ^ (f.eb - 1) : Nat) - (f.mb : Int)

/-- An encoding read. -/
def Fmt.dec (f : Fmt) (x : Nat) : Fp :=
  let neg := bit x (f.eb + f.mb)
  let ex := bits x f.mb f.eb
  let fr := bits x 0 f.mb
  if ex = 2 ^ f.eb - 1 then (if fr = 0 then .inf neg else .nan (!bit fr (f.mb - 1)))
  else if ex = 0 then .fin neg fr f.unit
  else .fin neg (2 ^ f.mb + fr) (f.unit + (ex - 1 : Nat))

/-- The canonical quiet NaN. -/
def Fmt.qnan (f : Fmt) : Nat := (2 ^ f.eb - 1) * 2 ^ f.mb + 2 ^ (f.mb - 1)
def Fmt.infinity (f : Fmt) (neg : Bool) : Nat := b2n neg * 2 ^ (f.eb + f.mb) + (2 ^ f.eb - 1) * 2 ^ f.mb

/-- Flags of Table 12-6. -/
def flNV : BitVec 5 := 1
def flOF : BitVec 5 := 4
def flNX : BitVec 5 := 16

/-- The number of bits of a natural number. -/
def bitLen (n : Nat) : Nat := if n = 0 then 0 else Nat.log2 n + 1

/-- ± m × 2^e rounded to a format, ties to even, with the flags. -/
def Fmt.round (f : Fmt) (neg : Bool) (m : Nat) (e : Int) : Nat × BitVec 5 :=
  if m = 0 then (b2n neg * 2 ^ (f.eb + f.mb), 0)
  else
    let q0 := max (e + bitLen m - (f.mb + 1 : Nat)) f.unit
    let sh := (q0 - e).toNat
    let sig0 := if q0 ≤ e then m * 2 ^ (e - q0).toNat else m / 2 ^ sh
    let rem := if q0 ≤ e then 0 else m % 2 ^ sh
    let up := decide (2 * rem > 2 ^ sh) || (decide (2 * rem = 2 ^ sh) && rem != 0 && sig0 % 2 == 1)
    let sig1 := if up then sig0 + 1 else sig0
    let (sig, q) := if sig1 = 2 ^ (f.mb + 1) then (sig1 / 2, q0 + 1) else (sig1, q0)
    let ex := if sig < 2 ^ f.mb then 0 else (q - f.unit).toNat + 1
    let nx : BitVec 5 := if rem = 0 then 0 else flNX
    if ex ≥ 2 ^ f.eb - 1 then (f.infinity neg, flOF ||| flNX)
    else (b2n neg * 2 ^ (f.eb + f.mb) + ex * 2 ^ f.mb + sig % 2 ^ f.mb, nx)

/-- A signed integer × 2^e rounded; an exact zero is +0. -/
def Fmt.roundInt (f : Fmt) (v : Int) (e : Int) : Nat × BitVec 5 := f.round (decide (v < 0)) v.natAbs e

/-- An FP32 sum, rounded once. -/
def fpAdd (a b : Fp) : Nat × BitVec 5 :=
  match a, b with
  | .nan s, .nan t => (fp32.qnan, if s || t then flNV else 0)
  | .nan s, _ | _, .nan s => (fp32.qnan, if s then flNV else 0)
  | .inf x, .inf y => if x = y then (fp32.infinity x, 0) else (fp32.qnan, flNV)
  | .inf x, _ | _, .inf x => (fp32.infinity x, 0)
  | .fin s m e, .fin t n k =>
    if m = 0 && n = 0 then ((if s && t then 2 ^ 31 else 0), 0)
    else
      let lo := min e k
      let x : Int := (m * 2 ^ (e - lo).toNat : Nat)
      let y : Int := (n * 2 ^ (k - lo).toNat : Nat)
      fp32.roundInt ((if s then -x else x) + (if t then -y else y)) lo

/-- The order of numbers as keys of encodings, −0 below +0. -/
def Fmt.key (f : Fmt) (x : Nat) : Int :=
  let w := f.eb + f.mb
  if bit x w then -(bits x 0 w : Int) - 1 else (bits x 0 w : Int)

/-- Minimum and maximum of IEEE 754-2019. -/
def Fmt.pick (f : Fmt) (takeMin : Bool) (a b : Nat) : Nat × BitVec 5 :=
  match f.dec a, f.dec b with
  | .nan s, .nan t => (f.qnan, if s || t then flNV else 0)
  | .nan s, _ | _, .nan s => (f.qnan, if s then flNV else 0)
  | _, _ => ((if (if takeMin then decide (f.key a ≤ f.key b) else decide (f.key b ≤ f.key a)) then a else b), 0)

/-! ### Reductions -/

/-- The element types of Table 12-4: bits of an element, whether signed, and the format of a float. -/
def elemBits (e : Nat) : Nat := if e = 0xF then 1 else if e ≤ 7 then 8 * 2 ^ (e % 4) else if e = 0xA then 32 else 16
def elemSigned (e : Nat) : Bool := 4 ≤ e && e ≤ 7
def elemFmt (e : Nat) : Option Fmt := if e = 8 then some bf16 else if e = 9 then some fp16 else if e = 0xA then some fp32 else none
def elemOk (e : Nat) : Bool := e ≤ 0xA || e == 0xF

/-- The start of a reduction: 0, or the identity of its operation. -/
def Part.start (elem rop : Nat) : Part :=
  let fp := match elemFmt elem with
    | some f => if rop = 0 then 0 else f.infinity (rop != 1)
    | none => 0
  { int := 0, fp := BitVec.ofNat 32 fp, first := true, count := 0, flags := 0, poison := false }

/-- Two integers combined: their sum, or the one that the operation keeps. -/
def intCombine (rop : Nat) (first : Bool) (a b : Int) : Int :=
  if rop = 0 then a + b else if first then b else if rop = 1 then min a b else max a b

/-- One element taken into a reduction (R304 to R306). -/
def Part.take (elem rop : Nat) (p : Part) (x : Nat) : Part :=
  match elemFmt elem with
  | some f =>
    let (v, fl) := if rop = 0 then fpAdd (fp32.dec p.fp.toNat) (f.dec x) else f.pick (rop == 1) p.fp.toNat x
    { p with fp := BitVec.ofNat 32 v, flags := p.flags ||| fl, count := p.count + 1, first := false }
  | none =>
    let v : Int := if elemSigned elem then sgn (elemBits elem) x else (x : Int)
    { p with int := intCombine (if elem = 0xF then 0 else rop) p.first p.int v, count := p.count + 1, first := false }

/-- The elements of a line in ascending byte offset. -/
def lineElems (elem : Nat) (d : BitVec 512) : List Nat :=
  let w := elemBits elem
  (List.range (512 / w)).map (fun i => bits d.toNat (i * w) w)

/-- A line reduced. -/
def Part.line (elem rop : Nat) (p : Part) (d : BitVec 512) (poison : Bool) : Part :=
  let q := (lineElems elem d).foldl (fun p x => p.take elem rop x) p
  { q with poison := q.poison || poison }

/-- Two partials combined by the same operation, in the order of channels. -/
def Part.join (elem rop : Nat) (a b : Part) : Part :=
  if b.first then { a with poison := a.poison || b.poison }
  else
    let base := { a with count := a.count + b.count, flags := a.flags ||| b.flags, poison := a.poison || b.poison, first := false }
    match elemFmt elem with
    | some f =>
      let (v, fl) := if rop = 0 then fpAdd (fp32.dec a.fp.toNat) (fp32.dec b.fp.toNat) else f.pick (rop == 1) a.fp.toNat b.fp.toNat
      { base with fp := BitVec.ofNat 32 v, flags := base.flags ||| fl }
    | none => { base with int := intCombine (if elem = 0xF then 0 else rop) a.first a.int b.int }

/-- The value of the record: an FP32 sum of BF16 or FP16 elements is rounded once to its format, unless RAW (R306, R341). -/
def Part.value (elem rop : Nat) (raw : Bool) (p : Part) : Nat × BitVec 5 :=
  match elemFmt elem with
  | some f =>
    if rop = 0 && !raw && elem != 0xA then
      match fp32.dec p.fp.toNat with
      | .nan _ => (f.qnan, p.flags)
      | .inf n => (f.infinity n, p.flags)
      | .fin n m e => let (v, fl) := f.round n m e; (v, p.flags ||| fl)
    else (p.fp.toNat, p.flags)
  | none => (unsgn 128 p.int, 0)

/-- The 32-byte record of Table 12-6. -/
def Part.record (elem rop : Nat) (raw : Bool) (p : Part) : Nat :=
  let (v, fl) := p.value elem rop raw
  v % 2 ^ 128 + (p.count % 2 ^ 64) * 2 ^ 128 + packBits [(0, 5, fl.toNat), (8, 1, b2n p.poison), (16, 4, elem)] * 2 ^ 192

end Sys2Proof.Machine
end

