-- ==== Sys2Proof/Machine/Bakes.lean ====
section
/-! DEFINITION. The Bake table: spans and the split of a Bake (R286, R287, R343), scratch reservations (R289), lane jobs and
lane execution (R301 to R304, R325, R345), the decision point (R350), and the states of contexts that end (R328 to R330). -/
namespace Sys2Proof.Machine

open Reg

/-! ### Bakes -/

def State.bake (s : State) (bid : Nat) : Option Bake := s.bakes.find? (fun b => b.id == bid)
def State.updBake (s : State) (bid : Nat) (f : Bake → Bake) : State := { s with bakes := updFirst (fun b => b.id == bid) f s.bakes }

/-- Operator kinds (Table 14-1). -/
def kCOPY : Nat := 1
def kNOT : Nat := 2
def kAND : Nat := 3
def kOR : Nat := 4
def kMAJ : Nat := 5
def kXOR : Nat := 6
def kREDUCE : Nat := 9

/-- The operand spans of a kind. -/
def Bake.operands (b : Bake) : List Span :=
  if b.kind = kCOPY || b.kind = kNOT || b.kind = kREDUCE then [b.spanA]
  else if b.kind = kMAJ then [b.spanA, b.spanB, b.spanC]
  else [b.spanA, b.spanB]

/-- The result span, if the kind has one. -/
def Bake.results (b : Bake) : List Span := if b.kind = kREDUCE then [] else [b.spanD]

/-- Every span that a Bake names. -/
def Bake.spans (b : Bake) : List Span := b.operands ++ b.results

/-- Whether a Bake writes a record (R348). -/
def Bake.hasRecord (b : Bake) : Bool := b.wantRec || b.kind == kREDUCE

/-- Whether a Bake stops before its end (R350). -/
def Bake.aborted (b : Bake) : Bool := b.decided && b.cause != 0

/-- Causes of Table 14-10. -/
def causeFault : Nat := 1
def causeAbort : Nat := 2
def causeDisable : Nat := 3

/-- Fault classes (Table 13-4). -/
def fcNone : Nat := 0
def fcStack : Nat := 1
def fcIllegal : Nat := 2
def fcBounds : Nat := 3
def fcScratch : Nat := 4
def fcLayout : Nat := 5
def fcRunaway : Nat := 6
def fcLane : Nat := 7
def fcPeer : Nat := 8
def fcParity : Nat := 9
def fcTurn : Nat := 10
def fcShutdown : Nat := 11

/-! ### The split (R286, R343) -/

/-- Bytes of a row group and of 96 of them. -/
def groupBytes : Nat := 0xC0000
def corrBytes : Nat := 0x4800000

/-- The displacement of a span from A. -/
def Bake.delta (b : Bake) (x : Span) : Int := (x.2 : Int) - b.spanA.2

/-- Whether a Bake has an in-array part at all. -/
def State.mayArray (s : State) (b : Bake) : Bool :=
  b.kind != kREDUCE && b.spans.all (fun x => decide (b.delta x % (corrBytes : Int) = 0) && !s.attr b.epoch TEN_R_ISO x.1)

/-- Whether the row group of A with number g belongs to the in-array part: it lies within A, and its corresponding row
groups lie in A's segment. -/
def State.arrayGroup (s : State) (b : Bake) (g : Nat) : Bool :=
  s.mayArray b && decide (b.spanA.2 ≤ g * groupBytes) && decide ((g + 1) * groupBytes ≤ b.spanA.2 + 64 * b.len) &&
    b.spans.all (fun x => decide (((g : Int) + b.delta x / (groupBytes : Int)) / 8192 = (g : Int) / 8192))

/-- The row groups of the in-array part, in ascending order. -/
def State.arrayGroups (s : State) (b : Bake) : List Nat :=
  let lo := b.spanA.2 / groupBytes
  if s.mayArray b then ((List.range (b.len / groupLines + 2)).map (fun i => lo + i)).filter (fun g => s.arrayGroup b g) else []

/-- The runs: for each segment of A with in-array row groups, its first row group and their number (R343). -/
def State.runs (s : State) (b : Bake) : List (Nat × Nat) :=
  (s.arrayGroups b).foldl (fun (l : List (Nat × Nat)) g =>
    match l.getLast? with
    | some (f, n) => if f / 8192 = g / 8192 then l.dropLast ++ [(f, n + 1)] else l ++ [(g, 1)]
    | none => [(g, 1)]) []

/-- The row group of a span that corresponds to row group g of A. -/
def Bake.corr (b : Bake) (x : Span) (g : Nat) : Nat := ((g : Int) + b.delta x / (groupBytes : Int)).toNat

/-- The row of a row group within its bank: the 18-bit row of R237. -/
def groupRow (g : Nat) : Nat := g / 16 % 2 ^ 18

/-- Whether a node offset of span x belongs to the in-array part. -/
def State.inArray (s : State) (b : Bake) (i : Nat) : Bool := s.arrayGroup b ((b.spanA.2 + 64 * i) / groupBytes)

/-! ### Scratch reservations (R289, R290) -/

/-- The bank subarrays that a Bake's in-array part uses, in every queue. -/
def State.bakeSubs (s : State) (b : Bake) : List Nat :=
  if b.scratch = 0 then []
  else
    let pairs := ((s.arrayGroups b).map (fun g => (g % 16, groupRow g / 512))).foldl (fun (l : List (Nat × Nat)) p => if l.contains p then l else l ++ [p]) []
    queueNos.flatMap (fun q => pairs.map (fun p => saKey q p.1 p.2))

/-- Whether the copy of a retired bank subarray runs there. -/
def State.copying (s : State) (k : Nat) : Bool :=
  match s.ras.running with
  | some i => match Tab.get? s.ras.rmap i with
    | some e => saKey e.q e.bank e.sa == k && e.placed != 0
    | none => false
  | none => false

/-- Whether a Bake ordered before `b` holds or waits for one of b's scratch rows of a bank subarray. -/
def State.earlierHolds (s : State) (b : Bake) (k : Nat) : Bool :=
  s.bakes.any (fun c => c.order.isSome && c.order.getD 0 < b.order.getD 0 && (c.scratch &&& b.scratch) != 0 &&
    (c.granted.contains k || (s.bakeSubs c).contains k))

/-- Whether a Bake's reservation in a bank subarray can be granted now. -/
def State.grantable (s : State) (b : Bake) (k : Nat) : Bool := b.order.isSome && !s.earlierHolds b k && !s.copying k

/-- Reservations granted to every ordered Bake, in HOME's order, where they can be. -/
def State.regrant (s : State) : State :=
  s.bakes.foldl (fun (s : State) (b : Bake) =>
    if b.order.isSome && !b.aborted then
      let new := (s.bakeSubs b).filter (fun k => !b.granted.contains k && s.grantable b k)
      if new.isEmpty then s else s.updBake b.id (fun b => { b with granted := b.granted ++ new })
    else s) s

/-! ### Lines of a channel (R304, R325) -/

/-- The two lines of a block of 96 lines that a channel holds, in ascending order (R237). -/
def chanPair (n blk : Nat) : List Nat :=
  let f := fun (q : Nat) => let (_, _, _, c) := hashLine (blk * 96); unhashLine q (blk / 128 % 16) (blk / 128 / 16) c
  let a := f (2 * n)
  let b := f (2 * n + 1)
  if a < b then [a, b] else [b, a]

/-- The number of lines below a line that a channel holds. -/
def chanRank (n la : Nat) : Nat := 2 * (la / 96) + ((chanPair n (la / 96)).filter (fun x => decide (x < la))).length

/-- The line of a rank. -/
def chanLine (n rank : Nat) : Nat := (chanPair n (rank / 2))[rank % 2]?.getD 0

/-! ### Lane jobs -/

/-- The span whose lines a job covers: D for lane execution and for a reduction that a recipe places, A for REDUCE. -/
def Bake.jobSpan (b : Bake) : Span := if b.kind = kREDUCE then b.spanA else b.spanD

/-- Ranks of a span in a channel: the first and the one after the last. -/
def Bake.ranks (b : Bake) (n : Nat) : Nat × Nat :=
  let l := b.jobSpan.2 / 64
  (chanRank n l, chanRank n (l + b.len))

/-- The next rank from `r` on that a node-placed job handles: lines of the in-array part are left out (R343, R345). -/
def State.skipArray (s : State) (b : Bake) (n last : Nat) : Nat → Nat → Nat
  | 0, r => r
  | fuel + 1, r =>
    if last ≤ r then last
    else
      let i := chanLine n r - b.jobSpan.2 / 64
      if s.inArray b i then
        let g := (b.spanA.2 + 64 * i) / groupBytes
        let next := (g + 1) * groupLines - b.spanA.2 / 64 + b.jobSpan.2 / 64
        s.skipArray b n last fuel (max (r + 1) (chanRank n next))
      else r

def State.laneJobs (s : State) (ch : Nat) : List LaneJob := Tab.get s.lanes ch []
def State.setLane (s : State) (ch : Nat) (l : List LaneJob) : State := { s with lanes := Tab.set s.lanes ch l }

/-- The key of a line of a Bake: the one selected when HOME ordered it (R179, R303). -/
def Bake.key (b : Bake) (x : Span) (la : Nat) : Option (BitVec 512) := (Tab.get? b.keys x.1).map (fun k => (k.at_ x.1 la).1)

/-- The lines that a job reads for its next result line: one of each operand, or the element line itself. -/
def Bake.jobReads (b : Bake) (kind : Nat) : List Span := if kind = 1 then [b.jobSpan] else b.operands

/-- The reads of a job's next result line, counted to the Bake. -/
def State.laneReads (s : State) (ch : Nat) (j : LaneJob) (b : Bake) (i : Nat) : State :=
  let reads := b.jobReads j.kind
  ((List.range reads.length).zip reads).foldl (fun (s : State) (x : Nat × Span) =>
    let off := x.2.2 + 64 * i
    let (q, e) := lineEntry (.read (.lane ch x.1)) .home off b.tid b.job b.epoch none
    (((s.enqueue q { e with key := b.key x.2 (off / 64), bake := some b.id, lane := some (j.ctx, j.no) }).bump RDL_LANE_LINES).count 9 b.tid b.job 1)) s

/-- The lane's next reads: those of its first job that has a line left. A job of a Bake that was aborted places nothing
more (R300). -/
def lanePumpOver (ch : Nat) : List LaneJob → State → State
  | [], s => s.setLane ch []
  | j :: rest, s =>
    match s.bake j.bid with
    | none => lanePumpOver ch rest s
    | some b =>
      if j.busy then s.setLane ch (j :: rest)
      else
        let r := if j.ctx = 8 && j.kind = 0 then s.skipArray b ch j.last (b.len / groupLines + 3) j.rank else j.rank
        if b.aborted || j.last ≤ r then lanePumpOver ch rest s
        else (s.setLane ch ({ j with rank := r, busy := true, got := [] } :: rest)).laneReads ch j b (chanLine ch r - b.jobSpan.2 / 64)

def State.lanePump (s : State) (ch : Nat) : State := lanePumpOver ch (s.laneJobs ch) s

/-- A job placed on a lane, behind those before it. -/
def State.placeLane (s : State) (ch : Nat) (j : LaneJob) : State :=
  let (n, s1) := s.nextOrd
  (s1.setLane ch (s1.laneJobs ch ++ [{ j with no := n }])).lanePump ch

/-- The bitwise result of a kind (Table 14-1). -/
def laneResult (kind : Nat) (l : List (BitVec 512)) : BitVec 512 :=
  let a := l[0]?.getD 0
  let b := l[1]?.getD 0
  let c := l[2]?.getD 0
  if kind = kNOT then ~~~ a
  else if kind = kAND then a &&& b
  else if kind = kOR then a ||| b
  else if kind = kMAJ then (a &&& b) ||| (a &&& c) ||| (b &&& c)
  else if kind = kXOR then a ^^^ b
  else a

/-- A lane's line finished: the result written, or the elements reduced (R302, R304, R308). -/
def State.laneLine (s : State) (ch : Nat) (j : LaneJob) (b : Bake) : State :=
  let la := chanLine ch j.rank
  let i := la - b.jobSpan.2 / 64
  let vals := (List.range (b.jobReads j.kind).length).map (fun n => (j.got.find? (fun g => g.1 == n)).getD (n, 0, false))
  let poison := vals.any (fun v => v.2.2)
  if j.kind = 1 then
    let p := Part.line b.elem b.rop (Tab.get b.parts ch (Part.start b.elem b.rop)) (vals.headD (0, 0, false)).2.1 poison
    s.updBake b.id (fun b => { b with parts := Tab.set b.parts ch p, lanes := b.lanes + 1, poison := b.poison || poison })
  else
    let off := b.spanD.2 + 64 * i
    let (q, e) := lineEntry .write .home off b.tid b.job b.epoch none
    let s1 := s.enqueue q { e with
      data := laneResult b.kind (vals.map (fun v => v.2.1)), poison := poison, key := b.key b.spanD (off / 64), bake := some b.id,
      lane := some (j.ctx, j.no) }
    (((s1.bump RDL_LANE_LINES).bump RDL_LANE_EXEC_LINES).count 9 b.tid b.job 1).updBake b.id (fun b => { b with lanes := b.lanes + 1, poison := b.poison || poison })

/-- An operand line that has returned to a lane; with the last one the line is finished and the next begins. A Bake that was stopped places no
further Write entry (R300). -/
def State.laneData (s : State) (ch operand : Nat) (d : BitVec 512) (poison : Bool) : State :=
  match s.laneJobs ch with
  | [] => s
  | j :: rest =>
    match s.bake j.bid with
    | none => (s.setLane ch rest).lanePump ch
    | some b =>
      let j1 := { j with got := j.got ++ [(operand, d, poison)] }
      if j1.got.length < (b.jobReads j.kind).length then s.setLane ch (j1 :: rest)
      else
        let s1 := s.setLane ch ({ j1 with busy := false, rank := j.rank + 1, got := [] } :: rest)
        (if b.aborted && j.kind = 0 then s1 else s1.laneLine ch j1 b).lanePump ch

/-- The numbers of a context's lane jobs that have an entry in the channel's queues still to issue. -/
def State.laneQueued (s : State) (ch ctx bid : Nat) : List Nat :=
  [2 * ch, 2 * ch + 1].flatMap (fun q => ((s.queue q).entries ++ (s.queue q).waiting).filterMap (fun e => match e.lane with
    | some (c, n) => if c = ctx && e.bake = some bid then some n else none
    | none => none))

/-- Whether a lane job has an entry still to place: every job that writes results until its last line is finished, a reduction until the
reads of its last line are placed. -/
def LaneJob.unplaced (j : LaneJob) : Bool := j.kind != 1 || !j.busy || decide (j.rank + 1 < j.last)

/-- The number of lane jobs of a context of a Bake that have not yet issued their last entry (R325). -/
def State.laneBusy (s : State) (ch ctx bid : Nat) : Nat :=
  let placed := s.laneQueued ch ctx bid
  let open_ := ((s.laneJobs ch).filter (fun j => j.ctx == ctx && j.bid == bid && j.unplaced)).map (fun j => j.no)
  ((placed ++ open_).foldl (fun (l : List Nat) n => if l.contains n then l else n :: l) []).length

/-- Whether a Bake has a lane job under way. -/
def State.bakeLanes (s : State) (bid : Nat) : Bool := s.lanes.any (fun l => l.2.any (fun j => j.bid == bid))

/-! ### Entries of a Bake -/

/-- Whether an entry of a Bake is in a queue, waits for one, or has data to return. -/
def State.bakeEntries (s : State) (bid : Nat) : Bool :=
  s.queues.any (fun (q : Nat × Queue) => (q.2.entries ++ q.2.waiting).any (fun e => e.bake == some bid) || q.2.rets.any (fun r => r.ent.bake == some bid))

/-- Groups of a context that have not issued their last command. -/
def State.groupsOf (s : State) (rce ctx : Nat) : Bool :=
  [2 * rce, 2 * rce + 1].any (fun q => ((s.queue q).entries ++ (s.queue q).waiting).any (fun e => match e.kind with
    | .group r c _ => r == rce && c == ctx
    | _ => false))

/-- Whether a queue holds a group (R294). -/
def State.queueGroup (s : State) (q : Nat) : Bool :=
  ((s.queue q).entries ++ (s.queue q).waiting).any (fun e => match e.kind with
    | .group _ _ _ => true
    | _ => false)

/-! ### Contexts -/

def Ctx.fresh : Ctx :=
  { state := 0, bid := 0, pc := 0, x := List.replicate 8 0, lc := [0, 0, 0, 0], stack := [], window := [], group := none, stall := 0,
    since := 0, layout := false, fault := 0, faultPc := 0, page := [] }

def State.ctx (s : State) (rce c : Nat) : Ctx := Tab.get s.ctxs (rce * 8 + c) Ctx.fresh
def State.setCtx (s : State) (rce c : Nat) (v : Ctx) : State := { s with ctxs := Tab.set s.ctxs (rce * 8 + c) v }

/-- An RCE's control store and contexts lost (Tables 18-3, 20-3). -/
def State.loseRce (s : State) (rce : Nat) : State :=
  { s with planArea := Tab.erase s.planArea rce, ctxs := s.ctxs.filter (fun x => x.1 / 8 != rce) }

/-- Contexts not free, sampled (Table 13-9). -/
def State.sampleCtx (s : State) (rce : Nat) : State :=
  s.sample (pgRCE rce) 0 ((List.range 8).filter (fun c => (s.ctx rce c).state != 0)).length

/-- The context of a Bake on an RCE. -/
def State.ctxOf (s : State) (rce bid : Nat) : Option Nat :=
  (List.range 8).find? (fun c => let x := s.ctx rce c; x.state != 0 && x.bid == bid)

/-- Whether a context of the Bake still runs. -/
def State.ctxRuns (s : State) (bid : Nat) : Bool := s.ctxs.any (fun (c : Nat × Ctx) => c.2.bid == bid && (c.2.state == 1 || c.2.state == 2))

/-- A context ended with a class; its open group is discarded unplaced (R328, R329). -/
def Ctx.stop (c : Ctx) (cls : Nat) : Ctx := { c with state := 3, group := none, stall := 0, window := [], fault := cls, faultPc := c.pc }

/-- Ended contexts without entries or lane jobs left are free (R330). -/
def State.freeCtxs (s : State) : State :=
  let held := fun (k : Nat) (c : Ctx) => match s.bake c.bid with
    | some b => !b.aborted && decide ((Tab.get b.runs (k / 8) (0, false)).1 < (s.runs b).length)
    | none => false
  let free := fun (k : Nat) (c : Ctx) => c.state == 3 && !held k c && !s.groupsOf (k / 8) (k % 8) && s.laneBusy (k / 8) (k % 8) c.bid == 0
  let gone := s.ctxs.filter (fun (c : Nat × Ctx) => free c.1 c.2)
  if gone.isEmpty then s
  else
    let s1 := { s with ctxs := s.ctxs.map (fun (c : Nat × Ctx) => if free c.1 c.2 then (c.1, { c.2 with state := 0 }) else c) }
    gone.foldl (fun (s : State) (c : Nat × Ctx) => s.sampleCtx (c.1 / 8)) s1

/-! ### The decision point (R350) -/

/-- The mc that a stall has lasted, in GEND_STALL: how many they were no command says (assumption 106). -/
def State.stallCount (s : State) (rce : Nat) : State :=
  let (v, s1) := s.free
  s1.bumpBy RCE_GEND_STALL (v.toNat % 2 ^ 32) (pgRCE rce)

/-- Contexts of a Bake that are stalled take the stop there (R329). -/
def State.stopStalled (s : State) (bid cls : Nat) : State :=
  let waits := s.ctxs.filter (fun (c : Nat × Ctx) => c.2.bid == bid && c.2.state == 2 && c.2.stall == 1)
  let s1 := waits.foldl (fun (s : State) (c : Nat × Ctx) => s.stallCount (c.1 / 8)) s
  ({ s1 with ctxs := s1.ctxs.map (fun (c : Nat × Ctx) =>
      if c.2.bid == bid && c.2.state == 2 then (c.1, c.2.stop cls) else c) }).freeCtxs

/-- A Twin record of a Bake. -/
def State.twBakeOf (s : State) (b : Bake) : Option TwBake := s.twin.bakes.find? (fun t => t.bid == some b.id)

/-- Every context ended, for an aborted Bake, or every run ended on every RCE. -/
def State.contextsEnded (s : State) (b : Bake) : Bool :=
  !s.ctxRuns b.id && (b.aborted || b.kind == kREDUCE ||
    (let n := (s.runs b).length
     n == 0 || channels.all (fun r => match Tab.get? b.runs r with
      | some (k, done) => k == n && done
      | none => false)))

/-- TW_BAKE_END once the holder's contexts have ended (R368). -/
def State.bakeEnds (s : State) (bid : Nat) : State :=
  match s.bake bid with
  | none => s
  | some b =>
    match s.twBakeOf b with
    | some t =>
      if t.holder && b.decided && s.contextsEnded b && !t.ended then
        let (_, s1) := s.twSeq 0x94 [(69, 8, b.tid), (77, 16, b.btag), (93, 1, b2n b.aborted)] [] b.tid b.job
        { s1 with twin := { s1.twin with bakes := s1.twin.bakes.map (fun x => if x.bid == some bid then { x with ended := true } else x) } }
      else s
    | none => s

/-- Lane jobs of a stopped Bake that have no line under way are given up (R300). -/
def State.dropLanes (s : State) (bid : Nat) : State :=
  { s with lanes := Tab.mapVal (fun (l : List LaneJob) => l.filter (fun j => j.bid != bid || j.busy)) s.lanes }

/-- The first event that fixes a Bake's outcome (R350). Later ones do not act. -/
def State.conclude (s : State) (bid cause fault ch : Nat) : State :=
  match s.bake bid with
  | none => s
  | some b =>
    if b.decided then s
    else
      let s1 := s.updBake bid (fun b => { b with decided := true, cause := cause, fault := fault, faultCh := ch })
      let s2 := if cause = 0 then s1 else (s1.dropLanes bid).stopStalled bid (if cause = causeFault then fcPeer else fcNone)
      s2.bakeEnds bid

/-- The lane part placed once every run has ended (R345): lane execution of the lines outside the in-array part, or the
reduction of all of A. -/
def State.placeLanePart (s : State) (b : Bake) : State :=
  let kind := if b.kind = kREDUCE then 1 else 0
  let s1 := s.updBake b.id (fun b => { b with stage := 4 })
  let s2 := channels.foldl (fun (s : State) ch =>
    let (lo, hi) := b.ranks ch
    if lo = hi then s else s.placeLane ch { bid := b.id, ctx := 8, kind := kind, rank := lo, last := hi, got := [], busy := false }) s1
  if b.kind = kREDUCE then s2.conclude b.id 0 0 0 else s2

/-- What follows the end of a context: the last END fixes the outcome and the lane part is placed (R345, R350). -/
def State.afterEnd (s : State) (bid : Nat) : State :=
  match s.bake bid with
  | none => s
  | some b =>
    if s.contextsEnded b then
      let s1 := if b.decided then s else s.conclude bid 0 0 0
      match s1.bake bid with
      | some b1 => (if !b1.aborted && b1.stage = 3 then s1.placeLanePart b1 else s1).bakeEnds bid
      | none => s1
    else s

end Sys2Proof.Machine
end

