-- ==== Sys2Proof/Machine/Rce.lean ====
section
/-! DEFINITION. The Recipe Engines: the micro-op word, the fetch window, every opcode of Table 13-3, stalls and their
ends, faults, and safe points (R309 to R331). -/
namespace Sys2Proof.Machine

open Reg

/-! ### The micro-op word (R314) -/

/-- The bits that an opcode uses, OPC included; none for an undefined opcode. -/
def uopMask (opc : Nat) : Option Nat :=
  let top := 0xFC000000
  let a := 0x03800000
  let b := 0x00700000
  let c := 0x000E0000
  let n := 0x03000000
  let t := 0x00003FFF
  let imm := 0x0000FFFF
  match opc with
  | 0x01 | 0x08 | 0x09 | 0x0C | 0x24 | 0x29 | 0x2A => some top
  | 0x02 | 0x07 => some (top + t)
  | 0x03 | 0x04 => some (top + a + t)
  | 0x05 => some (top + a + b + t)
  | 0x06 => some (top + n + t)
  | 0x0A => some (top + n + imm)
  | 0x0B => some (top + n + b)
  | 0x0D => some (top + 0x02000000 + b + 0x3F)
  | 0x0E => some (top + a + 0xFC0 + 0x3F)
  | 0x10 | 0x11 => some (top + a + imm)
  | 0x12 => some (top + a + b + imm)
  | 0x13 | 0x14 | 0x15 | 0x16 | 0x17 => some (top + a + b + c)
  | 0x18 | 0x19 => some (top + a + b + 0x1F)
  | 0x1A => some (top + a + 3)
  | 0x20 => some (top + a)
  | 0x21 | 0x22 => some (top + 0x03000000 + 0xFFFFF)
  | 0x23 => some (top + 0x1FF)
  | 0x28 => some (top + a + b + 0xF0000)
  | _ => none

def uOpc (w : Nat) : Nat := bits w 26 6
def uA (w : Nat) : Nat := bits w 23 3
def uB (w : Nat) : Nat := bits w 20 3
def uC (w : Nat) : Nat := bits w 17 3
def uN (w : Nat) : Nat := bits w 24 2
def uT (w : Nat) : Nat := bits w 0 14
def uImm (w : Nat) : Nat := bits w 0 16

/-- A word that no rule of R314 forbids. -/
def uopLegal (w : Nat) : Bool :=
  match uopMask (uOpc w) with
  | some m => w &&& m == w
  | none => false

/-! ### The control store (R312, R331) -/

/-- The parity bit of a word: even parity over its 32 bits and the bit itself. -/
def csParity (w : Nat) : Nat := ((List.range 32).foldl (fun n i => n + bits w i 1) 0) % 2

/-- A word with its parity bit. -/
def csWord (w : Nat) : Nat := w % 2 ^ 32 + csParity w * 2 ^ 32

/-- The first address of a context's page. -/
def ctxPage (c : Nat) : Nat := 0x3E00 + 64 * c

/-- The stored word at an address of an RCE's control store, with its parity bit. -/
def State.csRead (s : State) (rce a : Nat) : Nat :=
  if a < 0x3E00 then Tab.get (Tab.get s.planArea rce []) a 0 else Tab.get (s.ctx rce ((a - 0x3E00) / 64)).page ((a - 0x3E00) % 64) 0

/-- A word copied into a window, with its parity checked. -/
def State.csFetch (s : State) (rce a : Nat) : (Nat × Bool) × State :=
  let x := s.csRead rce (a % 0x4000)
  let w := x % 2 ^ 32
  if x / 2 ^ 32 = csParity w then ((w, false), s)
  else ((w, true), ((s.bump RCE_CS_PARITY rce).raise (pgRCE rce) I_RCE_CS_PARITY).crumb (pgRCE rce) 0x502 2 [packBits [(0, 6, rce), (16, 14, a)]])

/-- The plan of a Bake. -/
def State.planOf (s : State) (b : Bake) : Option Plan := s.plans.find? (fun p => p.num == b.plan)

/-- Whether an address lies in the plan range of a Bake (R313). -/
def State.inPlan (s : State) (b : Bake) (a : Nat) : Bool :=
  match s.planOf b with
  | some p => decide (p.base ≤ a) && decide (a < p.base + p.words)
  | none => false

/-- Whether an address lies in a context's own page. -/
def inPage (c a : Nat) : Bool := decide (ctxPage c ≤ a) && decide (a < ctxPage c + 64)

/-- A T field: an address of the page range stands for the executing context's own page (R321). -/
def target (c t : Nat) : Nat := if 0x3E00 ≤ t && t ≤ 0x3E3F then t + 64 * c else t

/-! ### Contexts that run -/

/-- Whether a context is ready to execute. -/
def Ctx.ready (c : Ctx) : Bool := c.state == 1 && !c.window.isEmpty

/-- The context that an RCE serves next (R311). -/
def State.chosen (s : State) (rce : Nat) : Option Nat :=
  ((List.range 8).map (fun i => (Tab.get s.served rce 7 + 1 + i) % 8)).find? (fun c => (s.ctx rce c).ready)

/-- A general register. -/
def Ctx.reg (c : Ctx) (n : Nat) : Nat := (c.x[n]?.getD 0).toNat
def Ctx.setReg (c : Ctx) (n v : Nat) : Ctx := { c with x := setNth c.x n (BitVec.ofNat 32 v) }
def Ctx.counter (c : Ctx) (n : Nat) : Nat := c.lc[n]?.getD 0

/-- A fault of a context (R328): recorded, reported, and the Bake ended by it unless its outcome is fixed. A context that has ended has no
word in its window: the Crumb shows the one stored at its PC. -/
def State.rceFault (s : State) (rce c cls : Nat) : State :=
  let x := s.ctx rce c
  let w := (x.window.headD (s.csRead rce x.pc % 2 ^ 32, false)).1
  match s.bake x.bid with
  | none => s
  | some b =>
    let s1 := (s.bump RCE_FAULTS rce).setCtx rce c (x.stop cls)
    let s2 := (s1.raise (pgRCE rce) I_RCE_FAULT).crumb (pgRCE rce) 0x501 2
      [packBits [(0, 6, rce), (6, 3, c), (9, 4, cls), (16, 14, x.pc)], w, packBits [(0, 8, b.tid), (8, 20, b.job)]]
    ((s2.conclude b.id causeFault cls rce).afterEnd b.id).freeCtxs

/-- A context that takes its Bake's abort or a peer's fault at a safe point (R328, R329). -/
def State.ctxStop (s : State) (rce c : Nat) (b : Bake) : State :=
  let x := s.ctx rce c
  ((s.setCtx rce c (x.stop (if b.cause = causeFault then fcPeer else fcNone))).afterEnd b.id).freeCtxs

/-- What a micro-op does: a fault, a stall, or a change of the state in which the context has advanced. -/
inductive UAct where
  | fault (cls : Nat)
  | stall (n : Nat)
  | go (f : State → State)

/-- The faults that a word meets before it executes (R313, R314, R327, R331, R244). -/
def State.preFault (s : State) (c : Ctx) (ci : Nat) (b : Bake) (w : Nat × Bool) : Option Nat :=
  if c.layout then some fcLayout
  else if !s.inPlan b c.pc && !inPage ci c.pc then some fcBounds
  else if w.2 then some fcParity
  else if !uopLegal w.1 then some fcIllegal
  else if c.since ≥ 2 ^ 20 then some fcRunaway
  else none

/-- The context past its word: the next copy is taken before the word executes (R318); the cycle is counted (R326). -/
def State.advance (s : State) (rce c : Nat) (b : Bake) : State :=
  let x := s.ctx rce c
  let (copy, s1) := s.csFetch rce (x.pc + 2)
  let x1 := { x with pc := (x.pc + 1) % 0x4000, window := x.window.drop 1 ++ [copy], since := x.since + 1, state := 1, stall := 0 }
  { ((s1.setCtx rce c x1).bump RCE_UOPS rce).count 8 b.tid b.job 1 with served := Tab.set s.served rce c }

/-- One micro-op of a context, if its word is the one of this opcode and the context is the one the engine serves; a
word that faults does so whichever opcode is asked for, and a fault goes before an abort in the same mc. `safe` says whether the word is a
safe point now (R329). -/
def State.uop (s : State) (rce ci opc : Nat) (safe : Ctx → Nat → Bool) (act : State → Ctx → Bake → Nat → UAct) : State :=
  let c := s.ctx rce ci
  match c.window, s.bake c.bid with
  | w :: _, some b =>
    if s.chosen rce = some ci && s.rd H_COND (pgRCE rce) != 2 then
      match s.preFault c ci b w with
      | some f => s.rceFault rce ci f
      | none =>
        if uOpc w.1 ≠ opc then s
        else match act s c b w.1 with
          | .fault f => s.rceFault rce ci f
          | .stall n =>
            if b.aborted then s.ctxStop rce ci b else s.setCtx rce ci { c with state := 2, stall := n }
          | .go f => if b.aborted && c.group.isNone && safe c w.1 then s.ctxStop rce ci b else f (s.advance rce ci b)
    else s
  | _, _ => s

/-- Never a safe point. -/
def noSafe : Ctx → Nat → Bool := fun _ _ => false
/-- Always one. -/
def isSafe : Ctx → Nat → Bool := fun _ _ => true

/-- A context changed. -/
def State.updCtx (s : State) (rce c : Nat) (f : Ctx → Ctx) : State := s.setCtx rce c (f (s.ctx rce c))

/-- A branch taken: the window is empty until the refill, whose two cycles are counted (R315, R326). -/
def State.jump (s : State) (rce c t : Nat) (b : Bake) : State :=
  (s.updCtx rce c (fun x => { x with pc := t, window := [] })).count 8 b.tid b.job 2

/-- A register result. -/
def setXA (rce ci w v : Nat) : UAct := .go (fun s => s.updCtx rce ci (fun x => x.setReg (uA w) v))

/-- REFILL_DONE: the window takes the words at PC and after it. -/
def execRefillDone (rce : Fin 48) (ctx : Fin 8) (s : State) : Host.Outcome State Fault Refusal := s.onBlk (pgRCE rce.val) <|
  let c := s.ctx rce.val ctx.val
  if c.state = 1 && c.window.isEmpty then
    let (a, s1) := s.csFetch rce.val c.pc
    let (b, s2) := s1.csFetch rce.val (c.pc + 1)
    .next (s2.updCtx rce.val ctx.val (fun x => { x with window := [a, b] }))
  else .next s

/-! ### Control flow (R316, R317) -/

/-- NOP. -/
def execNop (rce : Fin 48) (ctx : Fin 8) (s : State) : Host.Outcome State Fault Refusal := s.onBlk (pgRCE rce.val) <|
  .next (s.uop rce.val ctx.val 0x01 noSafe (fun _ _ _ _ => .go id))

/-- A conditional branch. -/
def branchIf (rce ci : Nat) (cond : Ctx → Nat → Bool) : State → Ctx → Bake → Nat → UAct := fun _ c b w =>
  if cond c w then .go (fun s => s.jump rce ci (target ci (uT w)) b) else .go id

/-- BR. -/
def execBr (rce : Fin 48) (ctx : Fin 8) (s : State) : Host.Outcome State Fault Refusal := s.onBlk (pgRCE rce.val) <|
  .next (s.uop rce.val ctx.val 0x02 isSafe (branchIf rce.val ctx.val (fun _ _ => true)))

/-- BZ. -/
def execBz (rce : Fin 48) (ctx : Fin 8) (s : State) : Host.Outcome State Fault Refusal := s.onBlk (pgRCE rce.val) <|
  let t := fun (c : Ctx) w => c.reg (uA w) == 0
  .next (s.uop rce.val ctx.val 0x03 t (branchIf rce.val ctx.val t))

/-- BNZ. -/
def execBnz (rce : Fin 48) (ctx : Fin 8) (s : State) : Host.Outcome State Fault Refusal := s.onBlk (pgRCE rce.val) <|
  let t := fun (c : Ctx) w => c.reg (uA w) != 0
  .next (s.uop rce.val ctx.val 0x04 t (branchIf rce.val ctx.val t))

/-- BLTU. -/
def execBltu (rce : Fin 48) (ctx : Fin 8) (s : State) : Host.Outcome State Fault Refusal := s.onBlk (pgRCE rce.val) <|
  let t := fun (c : Ctx) w => decide (c.reg (uA w) < c.reg (uB w))
  .next (s.uop rce.val ctx.val 0x05 t (branchIf rce.val ctx.val t))

/-- LOOP: with the counter at 0 it falls through; otherwise it counts down and branches if the result is not 0. -/
def execLoop (rce : Fin 48) (ctx : Fin 8) (s : State) : Host.Outcome State Fault Refusal := s.onBlk (pgRCE rce.val) <|
  let t := fun (c : Ctx) w => decide (c.counter (uN w) > 1)
  .next (s.uop rce.val ctx.val 0x06 t (fun _ c b w => .go (fun s =>
    let s1 := s.updCtx rce.val ctx.val (fun x => { x with lc := setNth x.lc (uN w) (c.counter (uN w) - 1) })
    if t c w then s1.jump rce.val ctx.val (target ctx.val (uT w)) b else s1)))

/-- CALL. -/
def execCall (rce : Fin 48) (ctx : Fin 8) (s : State) : Host.Outcome State Fault Refusal := s.onBlk (pgRCE rce.val) <|
  .next (s.uop rce.val ctx.val 0x07 isSafe (fun _ c b w =>
    if c.stack.length ≥ 4 then .fault fcStack
    else .go (fun s => (s.updCtx rce.val ctx.val (fun x => { x with stack := (c.pc + 1) % 0x4000 :: x.stack })).jump rce.val ctx.val
      (target ctx.val (uT w)) b)))

/-- RET. -/
def execRet (rce : Fin 48) (ctx : Fin 8) (s : State) : Host.Outcome State Fault Refusal := s.onBlk (pgRCE rce.val) <|
  .next (s.uop rce.val ctx.val 0x08 isSafe (fun _ c b _ =>
    match c.stack with
    | [] => .fault fcStack
    | t :: rest => .go (fun s => (s.updCtx rce.val ctx.val (fun x => { x with stack := rest })).jump rce.val ctx.val t b)))

/-- END (R330). -/
def execEndOp (rce : Fin 48) (ctx : Fin 8) (s : State) : Host.Outcome State Fault Refusal := s.onBlk (pgRCE rce.val) <|
  .next (s.uop rce.val ctx.val 0x09 isSafe (fun _ c _ _ =>
    if c.group.isSome then .fault fcIllegal
    else .go (fun s =>
      let s1 := s.updCtx rce.val ctx.val (fun x => { x with state := 3, window := [], pc := c.pc })
      let s2 := s1.updBake c.bid (fun b => { b with
        runs := Tab.set b.runs rce.val ((Tab.get b.runs rce.val (0, false)).1, true) })
      ((s2.afterEnd c.bid).freeCtxs))))

/-! ### Registers and counters -/

/-- LCI. -/
def execLci (rce : Fin 48) (ctx : Fin 8) (s : State) : Host.Outcome State Fault Refusal := s.onBlk (pgRCE rce.val) <|
  .next (s.uop rce.val ctx.val 0x0A noSafe (fun _ _ _ w => .go (fun s =>
    s.updCtx rce.val ctx.val (fun x => { x with lc := setNth x.lc (uN w) (uImm w) }))))

/-- LCX. -/
def execLcx (rce : Fin 48) (ctx : Fin 8) (s : State) : Host.Outcome State Fault Refusal := s.onBlk (pgRCE rce.val) <|
  .next (s.uop rce.val ctx.val 0x0B noSafe (fun _ c _ w => .go (fun s =>
    s.updCtx rce.val ctx.val (fun x => { x with lc := setNth x.lc (uN w) (c.reg (uB w) % 2 ^ 16) }))))

/-- LI. -/
def execLi (rce : Fin 48) (ctx : Fin 8) (s : State) : Host.Outcome State Fault Refusal := s.onBlk (pgRCE rce.val) <|
  .next (s.uop rce.val ctx.val 0x10 noSafe (fun _ _ _ w => setXA rce.val ctx.val w (uImm w)))

/-- LIH. -/
def execLih (rce : Fin 48) (ctx : Fin 8) (s : State) : Host.Outcome State Fault Refusal := s.onBlk (pgRCE rce.val) <|
  .next (s.uop rce.val ctx.val 0x11 noSafe (fun _ c _ w => setXA rce.val ctx.val w (uImm w * 2 ^ 16 + c.reg (uA w) % 2 ^ 16)))

/-- ADDI. -/
def execAddi (rce : Fin 48) (ctx : Fin 8) (s : State) : Host.Outcome State Fault Refusal := s.onBlk (pgRCE rce.val) <|
  .next (s.uop rce.val ctx.val 0x12 noSafe (fun _ c _ w =>
    setXA rce.val ctx.val w (unsgn 32 ((c.reg (uB w) : Int) + sgn 16 (uImm w)))))

/-- The micro-op ADD. -/
def State.uopAdd (s : State) (rce ci : Nat) : State :=
  s.uop rce ci 0x13 noSafe (fun _ c _ w => setXA rce ci w (c.reg (uB w) + c.reg (uC w)))

/-- ADD: the micro-op, or the field of RAS that bears the same name. -/
def execAdd (form : AddForm) (s : State) : Host.Outcome State Fault Refusal :=
  match form with
  | .retireMap => s.onBlk pgRAS <| .next s.rmapAdd
  | .microOp rce ctx => s.onBlk (pgRCE rce.val) <| .next (s.uopAdd rce.val ctx.val)

/-- SUB. -/
def execSub (rce : Fin 48) (ctx : Fin 8) (s : State) : Host.Outcome State Fault Refusal := s.onBlk (pgRCE rce.val) <|
  .next (s.uop rce.val ctx.val 0x14 noSafe (fun _ c _ w =>
    setXA rce.val ctx.val w (unsgn 32 ((c.reg (uB w) : Int) - c.reg (uC w)))))

/-- AND. -/
def execAndOp (rce : Fin 48) (ctx : Fin 8) (s : State) : Host.Outcome State Fault Refusal := s.onBlk (pgRCE rce.val) <|
  .next (s.uop rce.val ctx.val 0x15 noSafe (fun _ c _ w => setXA rce.val ctx.val w (c.reg (uB w) &&& c.reg (uC w))))

/-- OR. -/
def execOrOp (rce : Fin 48) (ctx : Fin 8) (s : State) : Host.Outcome State Fault Refusal := s.onBlk (pgRCE rce.val) <|
  .next (s.uop rce.val ctx.val 0x16 noSafe (fun _ c _ w => setXA rce.val ctx.val w (c.reg (uB w) ||| c.reg (uC w))))

/-- XOR. -/
def execXorOp (rce : Fin 48) (ctx : Fin 8) (s : State) : Host.Outcome State Fault Refusal := s.onBlk (pgRCE rce.val) <|
  .next (s.uop rce.val ctx.val 0x17 noSafe (fun _ c _ w => setXA rce.val ctx.val w (c.reg (uB w) ^^^ c.reg (uC w))))

/-- SHLI. -/
def execShli (rce : Fin 48) (ctx : Fin 8) (s : State) : Host.Outcome State Fault Refusal := s.onBlk (pgRCE rce.val) <|
  .next (s.uop rce.val ctx.val 0x18 noSafe (fun _ c _ w => setXA rce.val ctx.val w (c.reg (uB w) * 2 ^ bits w 0 5)))

/-- SHRI. -/
def execShri (rce : Fin 48) (ctx : Fin 8) (s : State) : Host.Outcome State Fault Refusal := s.onBlk (pgRCE rce.val) <|
  .next (s.uop rce.val ctx.val 0x19 noSafe (fun _ c _ w => setXA rce.val ctx.val w (c.reg (uB w) / 2 ^ bits w 0 5)))

/-- MOVLC. -/
def execMovlc (rce : Fin 48) (ctx : Fin 8) (s : State) : Host.Outcome State Fault Refusal := s.onBlk (pgRCE rce.val) <|
  .next (s.uop rce.val ctx.val 0x1A noSafe (fun _ c _ w => setXA rce.val ctx.val w (c.counter (bits w 0 2))))

/-! ### Control-store writes (R318 to R320) -/

/-- CSYNC: both words of the window are discarded and fetched again. -/
def execCsync (rce : Fin 48) (ctx : Fin 8) (s : State) : Host.Outcome State Fault Refusal := s.onBlk (pgRCE rce.val) <|
  .next (s.uop rce.val ctx.val 0x0C noSafe (fun _ c b _ => .go (fun s => s.jump rce.val ctx.val ((c.pc + 1) % 0x4000) b)))

/-- A word of a context's page written, with its parity. -/
def State.pageWrite (s : State) (rce ci i v : Nat) : State :=
  (s.updCtx rce ci (fun x => { x with page := Tab.set x.page i (csWord v) })).bump RCE_CSW_CNT rce

/-- CSW. -/
def execCsw (rce : Fin 48) (ctx : Fin 8) (s : State) : Host.Outcome State Fault Refusal := s.onBlk (pgRCE rce.val) <|
  .next (s.uop rce.val ctx.val 0x0D noSafe (fun s c b w =>
    if !bit w 25 then
      (if s.inPlan b c.pc then .go (fun s => s.pageWrite rce.val ctx.val (bits w 0 6) (c.reg (uB w))) else .fault fcBounds)
    else
      let t : Int := (c.pc : Int) + sgn 6 (bits w 0 6)
      if inPage ctx.val c.pc && decide (0 ≤ t) && inPage ctx.val t.toNat then
        .go (fun s => s.pageWrite rce.val ctx.val (t.toNat - ctxPage ctx.val) (c.reg (uB w)))
      else .fault fcBounds))

/-- CSCP: CNT + 1 words copied, one per mc (R319, R326). -/
def execCscp (rce : Fin 48) (ctx : Fin 8) (s : State) : Host.Outcome State Fault Refusal := s.onBlk (pgRCE rce.val) <|
  .next (s.uop rce.val ctx.val 0x0E noSafe (fun s c b w =>
    let src := c.reg (uA w) % 2 ^ 14
    let n := bits w 6 6 + 1
    let d := bits w 0 6
    if s.inPlan b c.pc && s.inPlan b src && s.inPlan b (src + n - 1) && d + n ≤ 64 then
      .go (fun s => ((List.range n).foldl (fun (s : State) i => s.pageWrite rce.val ctx.val (d + i) (s.csRead rce.val (src + i))) s).count 8 b.tid b.job n)
    else .fault fcBounds))

/-! ### Groups (R322 to R324) -/

/-- GRP. -/
def execGrp (rce : Fin 48) (ctx : Fin 8) (s : State) : Host.Outcome State Fault Refusal := s.onBlk (pgRCE rce.val) <|
  .next (s.uop rce.val ctx.val 0x20 isSafe (fun _ c _ w =>
    let x := c.reg (uA w)
    if c.group.isSome || x / 2 ^ 14 ≠ 0 then .fault fcIllegal
    else .go (fun s => s.updCtx rce.val ctx.val (fun c => { c with
      group := some { q := 2 * rce.val + bits x 0 1, bank := bits x 1 4, sa := bits x 5 9, cmds := [], tooBig := false, closed := false } }))))

/-- A step's commands appended; more than 16 commands with the opening PRE make the group oversize. -/
def Group.add (g : Group) (l : List Cmd) : Group :=
  let cmds := g.cmds ++ l
  { g with cmds := cmds, tooBig := g.tooBig || decide (cmds.length + 1 > 16) }

/-- The scratch row that a selector names. -/
def scratchOf (vr : Nat) : Option Nat := if 0x200 ≤ vr && vr ≤ 0x207 then some (vr - 0x200) else none

/-- Whether a Bake reserves every scratch row among some selectors (R324). -/
def Bake.mayUse (b : Bake) (vrs : List Nat) : Bool :=
  vrs.all (fun v => match scratchOf v with
    | some k => bit b.scratch k
    | none => true)

/-- A step micro-op: its selectors and the commands they make in the open group. -/
def stepUop (rce ci : Nat) (vrs : Ctx → Nat → List Nat) (cmds : Group → List Nat → List Cmd) : State → Ctx → Bake → Nat → UAct := fun _ c b w =>
  match c.group with
  | none => .fault fcIllegal
  | some g =>
    let v := vrs c w
    if b.mayUse v then .go (fun s => s.updCtx rce ci (fun x => { x with group := some (g.add (cmds g v)) })) else .fault fcScratch

/-- The row selectors X and Y of a step. -/
def selXY (c : Ctx) (w : Nat) : List Nat :=
  [if bit w 25 then c.reg (bits w 10 3) % 2 ^ 10 else bits w 10 10, if bit w 24 then c.reg (bits w 0 3) % 2 ^ 10 else bits w 0 10]

/-- The commands of LOAD x→y (Table 12-1). -/
def loadStep (g : Group) (x y : Nat) : List Cmd := [.vact g.bank g.sa x, .vaa g.bank g.sa y, .pre g.bank]

/-- SLOAD. -/
def execSload (rce : Fin 48) (ctx : Fin 8) (s : State) : Host.Outcome State Fault Refusal := s.onBlk (pgRCE rce.val) <|
  .next (s.uop rce.val ctx.val 0x21 noSafe (stepUop rce.val ctx.val selXY (fun g v => loadStep g (v[0]?.getD 0) (v[1]?.getD 0))))

/-- SNEG. -/
def execSneg (rce : Fin 48) (ctx : Fin 8) (s : State) : Host.Outcome State Fault Refusal := s.onBlk (pgRCE rce.val) <|
  .next (s.uop rce.val ctx.val 0x22 noSafe (stepUop rce.val ctx.val selXY (fun g v =>
    loadStep g (v[0]?.getD 0) 0x20B ++ loadStep g 0x20A (v[1]?.getD 0))))

/-- STRA. -/
def execStra (rce : Fin 48) (ctx : Fin 8) (s : State) : Host.Outcome State Fault Refusal := s.onBlk (pgRCE rce.val) <|
  .next (s.uop rce.val ctx.val 0x23 noSafe (stepUop rce.val ctx.val
    (fun _ w => [0x200 + bits w 6 3, 0x200 + bits w 3 3, 0x200 + bits w 0 3])
    (fun g v => [.vtra g.bank g.sa (v[0]?.getD 0 - 0x200) (v[1]?.getD 0 - 0x200) (v[2]?.getD 0 - 0x200), .pre g.bank])))

/-- Whether a Bake's reservation in a group's subarray is granted, or can be now. -/
def State.hasScratch (s : State) (b : Bake) (k : Nat) : Bool := b.scratch == 0 || b.granted.contains k || s.grantable b k

/-- The conditions under which GEND places its group (R323). -/
def State.gendReady (s : State) (rce ci : Nat) (b : Bake) (g : Group) : Bool :=
  s.hasScratch b (saKey g.q g.bank g.sa) && !s.queueGroup g.q && decide ((s.queue g.q).entries.length < 64) &&
    !(List.range 8).any (fun c => c != ci && (let x := s.ctx rce c
      x.state == 2 && x.stall == 1 && (match x.group, s.bake x.bid with
        | some h, some d => h.q == g.q && decide (d.order.getD 0 < b.order.getD 0)
        | _, _ => false)))

/-- A group placed: its entry waits for its place in the queue. -/
def State.placeGroup (s : State) (rce ci : Nat) (b : Bake) (g : Group) : State :=
  let k := saKey g.q g.bank g.sa
  let e := { plainEntry (.group rce ci g.cmds) .rce b.epoch with
    bank := g.bank, srow := g.sa * 512, row := g.sa * 512, tid := b.tid, job := b.job, bake := some b.id, poison := g.tooBig }
  let s1 := s.updBake b.id (fun b => { b with granted := if b.scratch = 0 || b.granted.contains k then b.granted else b.granted ++ [k] })
  ((s1.enqueue g.q e).updCtx rce ci (fun x => { x with group := none, since := 0 })).bump RCE_GROUPS rce

/-- GEND. -/
def execGend (rce : Fin 48) (ctx : Fin 8) (s : State) : Host.Outcome State Fault Refusal := s.onBlk (pgRCE rce.val) <|
  .next (s.uop rce.val ctx.val 0x24 noSafe (fun s c b _ =>
    match c.group with
    | none => .fault fcIllegal
    | some g => if s.gendReady rce.val ctx.val b g then .go (fun s => s.placeGroup rce.val ctx.val b g) else .stall 1))

/-- A stalled context's micro-op carried out: it executes as it would have. -/
def State.release (s : State) (rce ci : Nat) (b : Bake) (f : State → State) : State := f (s.advance rce ci b)

/-- GEND_RELEASE: the group of a context stalled in GEND is placed once it can be; an aborted Bake's is discarded. -/
def execGendRelease (rce : Fin 48) (ctx : Fin 8) (s : State) : Host.Outcome State Fault Refusal := s.onBlk (pgRCE rce.val) <|
  let c := s.ctx rce.val ctx.val
  match c.state == 2 && c.stall == 1, c.group, s.bake c.bid with
  | true, some g, some b =>
    if b.aborted then .next ((s.stallCount rce.val).ctxStop rce.val ctx.val b)
    else if s.gendReady rce.val ctx.val b g then
      .next ((s.stallCount rce.val).release rce.val ctx.val b (fun s => s.placeGroup rce.val ctx.val b g))
    else .next s
  | _, _, _ => .next s

/-! ### Lane jobs and waits (R325) -/

/-- The job that a LANE word asks for, or a fault. -/
def Bake.laneJob (b : Bake) (rce ci : Nat) (c : Ctx) (w : Nat) : Option LaneJob :=
  let k := bits w 16 4
  let first := c.reg (uA w)
  let n := c.reg (uB w)
  let (lo, hi) := b.ranks rce
  if !b.laneOk || k > 1 || (k = 1 && !b.wantRec) || first + n > hi - lo then none
  else some { bid := b.id, ctx := ci, kind := k, rank := lo + first, last := lo + first + n, got := [], busy := false }

/-- A lane job placed for a context. -/
def State.laneFor (s : State) (rce ci : Nat) (j : LaneJob) : State :=
  (s.updCtx rce ci (fun x => { x with since := 0 })).placeLane rce j

/-- LANE. -/
def execLane (rce : Fin 48) (ctx : Fin 8) (s : State) : Host.Outcome State Fault Refusal := s.onBlk (pgRCE rce.val) <|
  .next (s.uop rce.val ctx.val 0x28 isSafe (fun s c b w =>
    match b.laneJob rce.val ctx.val c w with
    | none => .fault fcLane
    | some j => if s.laneBusy rce.val ctx.val b.id < 4 then .go (fun s => s.laneFor rce.val ctx.val j) else .stall 2))

/-- LANE_RELEASE. -/
def execLaneRelease (rce : Fin 48) (ctx : Fin 8) (s : State) : Host.Outcome State Fault Refusal := s.onBlk (pgRCE rce.val) <|
  let c := s.ctx rce.val ctx.val
  match c.state == 2 && c.stall == 2, s.bake c.bid with
  | true, some b =>
    match b.laneJob rce.val ctx.val c (c.window.headD (0, false)).1 with
    | some j => if s.laneBusy rce.val ctx.val b.id < 4 then .next (s.release rce.val ctx.val b (fun s => s.laneFor rce.val ctx.val j)) else .next s
    | none => .next s
  | _, _ => .next s

/-- Whether a WAITL or WAITG may end. -/
def State.waitOver (s : State) (rce ci stall bid : Nat) : Bool :=
  if stall = 3 then s.laneBusy rce ci bid == 0 else !s.groupsOf rce ci

/-- WAITL. -/
def execWaitl (rce : Fin 48) (ctx : Fin 8) (s : State) : Host.Outcome State Fault Refusal := s.onBlk (pgRCE rce.val) <|
  .next (s.uop rce.val ctx.val 0x29 noSafe (fun s c _ _ => if s.waitOver rce.val ctx.val 3 c.bid then .go id else .stall 3))

/-- WAITG. -/
def execWaitg (rce : Fin 48) (ctx : Fin 8) (s : State) : Host.Outcome State Fault Refusal := s.onBlk (pgRCE rce.val) <|
  .next (s.uop rce.val ctx.val 0x2A noSafe (fun s c _ _ => if s.waitOver rce.val ctx.val 4 c.bid then .go id else .stall 4))

/-- WAIT_RELEASE. -/
def execWaitRelease (rce : Fin 48) (ctx : Fin 8) (s : State) : Host.Outcome State Fault Refusal := s.onBlk (pgRCE rce.val) <|
  let c := s.ctx rce.val ctx.val
  match c.state == 2 && (c.stall == 3 || c.stall == 4), s.bake c.bid with
  | true, some b => if s.waitOver rce.val ctx.val c.stall c.bid then .next (s.release rce.val ctx.val b id) else .next s
  | _, _ => .next s

end Sys2Proof.Machine
end

