-- ==== Sys2Proof/Machine/Plans.lean ====
section
/-! DEFINITION. Bake Plans: the image and its checks (R335 to R338, R321), loading and unloading (R339, R340), and the
writes that the node makes for a Bake or a load (R339, R348, R349). -/
namespace Sys2Proof.Machine

open Reg

/-! ### Node writes ordered like WR_PTL -/

/-- What a masked write of the node is for: a record, a status word, a load report. -/
def wkRecord : Nat := 1
def wkStatus : Nat := 2
def wkReport : Nat := 3

/-- A masked write of n bytes at a node offset, at the home's entry (R339, R348, R349). `mid` names the Bake or the
request it is for. -/
def State.nodeWrite (s : State) (kind mid tid job ep region off n val status : Nat) : State :=
  let r : Req := { Req.blank with
    id := s.nextId, op := .wrPtl, intern := true, tid := tid, job := job, off := off / 64 * 64, region := region, epoch := ep,
    be := BitVec.ofNat 64 ((2 ^ n - 1) * 2 ^ (off % 64)), data := BitVec.ofNat 512 (val * 2 ^ (8 * (off % 64))), mid := mid, gen := kind,
    val := status, place := .home }
  ({ s with reqs := s.reqs ++ [r], nextId := s.nextId + 1 }).homeArrive r.id

/-! ### Span addresses (R336) -/

/-- A span address: region and byte offset within it. -/
def spanOf (v : Nat) : Nat × Nat := (bits v 0 12, bits v 12 42)

/-- The descriptor that a REQ message carries: bytes beyond its slots read as zero. -/
def Req.payload (r : Req) : Nat := r.dslots.foldr (fun x a => x.toNat + 2 ^ 128 * a) 0

/-- Bytes of a region in an epoch, and its first node offset. -/
def State.rgnBytes (s : State) (ep n : Nat) : Nat := s.rgn ep TEN_R_SIZE n * 0x10000000
def State.rgnBase (s : State) (ep n : Nat) : Nat := s.rgn ep TEN_R_BASE n * 0x10000000

/-- Checks 4, 5 and 8 of Table 7-4 for a region that a message names. -/
def State.namedOk (s : State) (r : Req) (n : Nat) : Bool :=
  s.rgn r.epoch TEN_R_TID n == r.tid && s.agentMapOk r.epoch r.aid r.tid (s.attr r.epoch TEN_R_ISO n) && s.keyOk r.epoch n

/-! ### The image -/

/-- The header of an image (Table 14-2). -/
structure Image where
  fmtOk  : Bool
  nops   : Nat
  sealed_ : Bool
  base   : Nat
  words  : Nat
deriving DecidableEq, Repr

/-- The header that the first line spells. -/
def imageHead (d : Nat) : Image :=
  let nops := bits d 40 8
  let words := bits d 80 16
  { fmtOk := bits d 0 32 == 0x4C504251 && bits d 32 8 == 1 && 1 ≤ nops && nops ≤ 32 && bits d 49 15 == 0 && bits d 78 2 == 0 &&
      1 ≤ words && words ≤ 15872,
    nops := nops, sealed_ := bit d 48, base := bits d 64 14, words := words }

/-- The length of an image in bytes. -/
def Image.bytes (h : Image) : Nat := 16 + 8 * h.nops + 4 * h.words

/-- The bytes of an image from its lines, by line number. -/
def Load.bytes (l : Load) (n : Nat) : List Byte :=
  (((List.range ((n + 63) / 64)).map (fun i => lineBytes (Tab.get l.lines i 0))).flatten).take n

/-- A little-endian field of the image. -/
def imgField (b : List Byte) (at_ n : Nat) : Nat := leNat ((b.drop at_).take n)

/-- Operator entries and code words of an image. -/
def imgEntry (b : List Byte) (i : Nat) : Nat := imgField b (16 + 8 * i) 8
def imgWord (h : Image) (b : List Byte) (i : Nat) : Nat := imgField b (16 + 8 * h.nops + 4 * i) 4

/-- The fields of an entry (Table 14-3): ENTRY, KIND, SCRATCH, LANE_OK. -/
def entryOf (v : Nat) : Nat × Nat × Nat × Bool := (bits v 0 14, bits v 16 4, bits v 20 8, bit v 28)

/-- Whether an entry's reserved bits are zero. -/
def entryClean (v : Nat) : Bool := bits v 14 2 == 0 && bits v 29 35 == 0

/-! ### Checks of the code (R321, Table 14-4) -/

/-- Opcodes with a T field. -/
def hasT (opc : Nat) : Bool := opc == 2 || opc == 3 || opc == 4 || opc == 5 || opc == 6 || opc == 7

/-- Code 0x4: a T field outside the plan and outside the page range. -/
def badTarget (h : Image) (w : Nat) : Bool :=
  hasT (uOpc w) && !(decide (h.base ≤ uT w) && decide (uT w < h.base + h.words)) && !(decide (0x3E00 ≤ uT w) && decide (uT w ≤ 0x3E3F))

/-- A CSW with MODE 1 and a given displacement. -/
def cswAt (w d : Nat) : Bool := uOpc w == 0x0D && bit w 25 && bits w 0 6 == d

/-- The first failure of codes 0x3 to 0x6, with the index of its word. -/
def codeCheck (h : Image) (ws : List Nat) : Option (Nat × Nat) :=
  let ix := List.range ws.length
  let w := fun (i : Nat) => ws[i]?.getD 0
  let find := fun (code : Nat) (p : Nat → Bool) => (ix.find? p).map (fun i => (code, i))
  (find 3 (fun i => !uopLegal (w i))).orElse (fun _ =>
    (find 4 (fun i => badTarget h (w i))).orElse (fun _ =>
      (find 5 (fun i => cswAt (w i) 1)).orElse (fun _ =>
        find 6 (fun i => cswAt (w i) 2 && uOpc (w (i + 1)) != 0x0C))))

/-- The words that control may reach after a word: by the incrementer, a branch or a CALL. -/
def successors (h : Image) (i w : Nat) : List Nat :=
  let t := if hasT (uOpc w) && h.base ≤ uT w then [uT w - h.base] else []
  let next := if uOpc w = 2 || uOpc w = 8 || uOpc w = 9 then [] else [i + 1]
  (t ++ next).filter (fun j => decide (j < h.words))

/-- The words reachable from a list. Every word is taken once, so that twice the number of words is fuel enough. -/
def reach (h : Image) (ws : List Nat) : Nat → List Nat → List Nat → List Nat
  | 0, _, seen => seen
  | _ + 1, [], seen => seen
  | fuel + 1, i :: todo, seen =>
    if seen.contains i then reach h ws fuel todo seen
    else reach h ws fuel (successors h i (ws[i]?.getD 0) ++ todo) (i :: seen)

/-- The scratch rows that a word names in literal fields. -/
def literalScratch (w : Nat) : List Nat :=
  let opc := uOpc w
  if opc = 0x21 || opc = 0x22 then
    ((if bit w 25 then [] else [bits w 10 10]) ++ (if bit w 24 then [] else [bits w 0 10])).filterMap scratchOf
  else if opc = 0x23 then [bits w 6 3, bits w 3 3, bits w 0 3]
  else []

/-- Code 0x8: a reachable word that names a scratch row its entry does not hold. -/
def scratchCheck (h : Image) (ws : List Nat) (ents : List (Nat × Nat × Nat × Bool)) : Option Nat :=
  (ents.filterMap (fun e =>
    let r := reach h ws (2 * h.words + 2) [e.1 - h.base] []
    (List.range h.words).find? (fun i => r.contains i && (literalScratch (ws[i]?.getD 0)).any (fun k => !bit e.2.2.1 k)))).head?

/-- Lane slots in use (R338), and whether a control-store word belongs to a loaded plan. -/
def State.laneSlots (s : State) : Nat := (s.plans.map (fun p => p.ops.length)).foldl (· + ·) 0
def State.csUsed (s : State) (a : Nat) : Bool := s.plans.any (fun p => decide (p.base ≤ a) && decide (a < p.base + p.words))

/-- The lowest free plan number from 1 to 63. -/
def State.freePlan (s : State) : Option Nat := (List.range 63).map (· + 1) |>.find? (fun n => !s.plans.any (fun p => p.num == n))

/-- The first failing check of Table 14-4, with the index of the word it names; code 0 when the image is accepted. -/
def State.imageCheck (s : State) (tid : Nat) (h : Image) (b : List Byte) (inRegion bad : Bool) : Nat × Nat :=
  let ents := (List.range h.nops).map (fun i => imgEntry b i)
  let ops := ents.map entryOf
  let ws := (List.range h.words).map (fun i => imgWord h b i)
  if !h.fmtOk || !inRegion || !ents.all entryClean || crc32c (b.drop 16) ≠ imgField b 12 4 then (1, 0xFFFF)
  else if bad then (2, 0xFFFF)
  else match codeCheck h ws with
    | some (c, i) => (c, i)
    | none =>
      if ops.any (fun e => !(decide (h.base ≤ e.1) && decide (e.1 < h.base + h.words)) || !(decide (1 ≤ e.2.1) && decide (e.2.1 ≤ 6))) then (7, 0xFFFF)
      else match scratchCheck h ws ops with
        | some i => (8, i)
        | none =>
          if h.base + h.words > 0x3E00 then (9, 0xFFFF)
          else if (List.range h.words).any (fun i => s.csUsed (h.base + i)) then (0xA, 0xFFFF)
          else if s.freePlan.isNone then (0xB, 0xFFFF)
          else if h.nops > 64 - s.laneSlots then (0xC, 0xFFFF)
          else if h.sealed_ && !(match s.slotOf tid with
              | some k => (s.slot k).state == ksLoaded || (s.slot k).state == ksRotating
              | none => false) then (0xD, 0xFFFF)
          else (0, 0xFFFF)

/-! ### Loading (R337, R339) -/

/-- The line reads of an image from line `i` on, ordered like RD_CUR and counted to the load's TID and JOB. -/
def State.planReads (s : State) (r : Req) (off region i n : Nat) : State :=
  (List.range n).foldl (fun (s : State) j =>
    let q : Req := { Req.blank with
      id := s.nextId, op := .planRead, intern := true, tid := r.tid, job := r.job, off := off + 64 * (i + j), region := region, epoch := r.epoch,
      mid := r.id, gen := i + j, place := .home }
    ({ s with reqs := s.reqs ++ [q], nextId := s.nextId + 1 }).homeArrive q.id) s

def State.updLoad (s : State) (rid : Nat) (f : Load → Load) : State := { s with loads := updFirst (fun l => l.rid == rid) f s.loads }

/-- The image and the report that a PLAN_LOAD names, as region and node offset. -/
def State.imageAt (s : State) (r : Req) : Nat × Nat :=
  let a := spanOf (bits r.payload 0 64); (a.1, s.rgnBase r.epoch a.1 + a.2)
def State.reportAt (s : State) (r : Req) : Nat × Nat :=
  let a := spanOf (bits r.payload 64 64); (a.1, s.rgnBase r.epoch a.1 + a.2)

/-- Bytes of the image's region from the image on. -/
def State.imageRoom (s : State) (r : Req) : Nat :=
  let a := s.imageAt r; s.rgnBase r.epoch a.1 + s.rgnBytes r.epoch a.1 - a.2

/-- Whether a PLAN_LOAD that arrived at the node before a load has yet to pass stage 3 (R339). -/
def State.loadEarlier (s : State) (rid : Nat) : Bool :=
  s.reqs.any (fun x => x.op == .planLoad && decide (x.id < rid) && x.place != .bakeWait && x.place != .done)

/-- A load put among those that wait, in order of arrival at the node, behind one that has begun (R339). -/
def Load.insert (l : Load) : List Load → List Load
  | [] => [l]
  | x :: rest => if l.rid < x.rid && x.asked = 0 then l :: x :: rest else x :: Load.insert l rest

/-- The load at the head begins, once none that arrived earlier is on its way to it: its first line is read, if its region holds one. -/
def State.startLoad (s : State) : State :=
  match s.loads with
  | [] => s
  | l :: _ => match s.req l.rid with
    | none => s
    | some r =>
      if l.asked = 0 && s.imageRoom r ≥ 64 && !s.loadEarlier l.rid then
        let a := s.imageAt r
        (s.updLoad l.rid (fun l => { l with asked := 1, left := 1 })).planReads r a.2 a.1 0 1
      else s

/-- A line of an image that has returned; the first tells how many follow. -/
def State.planData (s : State) (rid i : Nat) (d : BitVec 512) (bad : Bool) : State :=
  match s.loads.find? (fun l => l.rid == rid), s.req rid with
  | some l, some r =>
    let s1 := s.updLoad rid (fun l => { l with lines := Tab.set l.lines i d, left := l.left - 1, bad := l.bad || bad })
    let h := imageHead d.toNat
    if i = 0 && h.fmtOk && h.bytes ≤ s.imageRoom r && l.asked = 1 then
      let n := (h.bytes + 63) / 64 - 1
      let a := s.imageAt r
      (s1.updLoad rid (fun l => { l with asked := 1 + n, left := n })).planReads r a.2 a.1 1 n
    else s1
  | _, _ => s

/-- The longest free run of the plan area and the lowest address that starts a free run of n words. -/
def freeRuns (used : Nat → Bool) (n : Nat) : Nat × Nat :=
  let (best, first, _) := (List.range 0x3E00).foldl (fun (x : Nat × Option Nat × Nat) a =>
    let run := if used a then 0 else x.2.2 + 1
    (max x.1 run, (if x.2.1.isNone && run ≥ n && run > 0 then some (a + 1 - max n 1) else x.2.1), run)) (0, none, 0)
  (best, first.getD 0x3FFF)

/-- The load report (Table 14-5). -/
def State.loadReport (s : State) (reason plan words at_ : Nat) : Nat :=
  let (best, first) := freeRuns s.csUsed words
  packBits [(0, 8, reason), (8, 6, plan), (32, 14, first), (48, 14, best), (64, 7, 64 - s.laneSlots), (72, 6, 63 - s.plans.length), (96, 16, at_)]

/-- The code words of an image written at BASE on, in every RCE (R312, R335). -/
def State.loadCode (s : State) (h : Image) (b : List Byte) : Tab (Tab Nat) :=
  channels.foldl (fun (t : Tab (Tab Nat)) rce =>
    Tab.set t rce ((List.range h.words).foldl (fun t i => Tab.set t (h.base + i) (csWord (imgWord h b i))) (Tab.get t rce []))) s.planArea

/-- PLAN_IMAGE_READ_DONE: the image is whole and is checked; an accepted plan is loaded into every RCE, and the report is
written (R337, R339). A load whose turn has come begins. -/
def execPlanImageReadDone (rid : Nat) (s : State) : Host.Outcome State Fault Refusal := s.onBlk pgHOME <|
  match s.loads, s.req rid with
  | l :: _, some r =>
    if l.rid ≠ rid || l.left ≠ 0 || r.place != .bakeWait || r.wait ≠ 0 || s.loadEarlier rid then .next s
    else if l.asked = 0 && s.imageRoom r ≥ 64 then .next s.startLoad
    else
      let h := if l.asked = 0 then imageHead 0 else imageHead (Tab.get l.lines 0 0).toNat
      let whole := l.asked != 0 && h.bytes ≤ s.imageRoom r
      let b := if h.fmtOk && whole then l.bytes h.bytes else []
      if h.fmtOk && whole && h.sealed_ && !s.opts.k then
        .next (({ s with loads := s.loads.drop 1 }.finish rid stNounit 0 none).startLoad)
      else
        let (code, at_) := s.imageCheck r.tid h b whole l.bad
        let num := s.freePlan.getD 0
        let s1 := if code = 0 then
            { s with
              planArea := s.loadCode h b,
              plans := s.plans ++ [{ num := num, tid := r.tid, base := h.base, words := h.words, sealed_ := h.sealed_, ops := (List.range h.nops).map (fun i => entryOf (imgEntry b i)), closing := none }] }
          else s
        let a := s.reportAt r
        let s2 := s1.updReq rid (fun x => { x with wait := 1 })
        .next ((s2.use [pgRDL]).nodeWrite wkReport rid r.tid r.job r.epoch a.1 a.2 16
          (s1.loadReport code (if code = 0 then num else 0) h.words at_) (if code = 0 then stOK else stRefused))
  | _, _ => .next s

/-- The report's write accepted: the load is answered, and the next one begins. -/
def State.loadDone (s : State) (rid status : Nat) : State :=
  (({ s with loads := s.loads.filter (fun l => l.rid != rid) }).finish rid status 0 none).startLoad

/-- PLAN_LOAD at stage 3 (R336). -/
def State.planLoad (s : State) (r : Req) : State :=
  let i := spanOf (bits r.payload 0 64)
  let o := spanOf (bits r.payload 64 64)
  let bad := i.2 % 64 ≠ 0 || o.2 % 16 ≠ 0
  if !s.opts.c then s.endAt3 r.id stNounit nidNone
  else if s.rgn r.epoch TEN_R_VALID i.1 = 0 || s.rgn r.epoch TEN_R_VALID o.1 = 0 || o.2 + 16 > s.rgnBytes r.epoch o.1 then s.endAt3 r.id stNomap nidNone
  else if bad || !s.namedOk r i.1 || !s.namedOk r o.1 || !s.attr r.epoch TEN_R_PERM_RD i.1 || !s.attr r.epoch TEN_R_PERM_WR o.1 then
    s.endAt3 r.id stDenied nidNone
  else if !s.incOk r then s.finish r.id stFenced 0 none
  else
    let s1 := s.updReq r.id (fun x => { x with place := .bakeWait })
    let l : Load := { rid := r.id, asked := 0, lines := [], left := 0, bad := false }
    ({ s1 with loads := l.insert s1.loads } : State).startLoad

/-- PLAN_UNLOAD at stage 3 (R340). -/
def State.planUnload (s : State) (r : Req) : State :=
  let n := r.addr / 64 % 64
  if !s.opts.c then s.endAt3 r.id stNounit nidNone
  else match s.plans.find? (fun p => p.num == n && p.tid == r.tid && p.closing.isNone) with
    | none => s.endAt3 r.id stDenied nidNone
    | some _ =>
      if !s.incOk r then s.finish r.id stFenced 0 none
      else
      let s1 := { s with plans := s.plans.map (fun (p : Plan) => if p.num == n then { p with closing := some r.id } else p) }
      s1.updReq r.id (fun x => { x with place := .bakeWait })

/-- PLAN_UNLOAD_DONE: no Bake of the closed plan is left; its words, number and lane slots are free. -/
def execPlanUnloadDone (plan : BitVec 6) (s : State) : Host.Outcome State Fault Refusal := s.onBlk pgHOME <|
  match s.plans.find? (fun p => p.num == plan.toNat) with
  | some p => match p.closing with
    | some rid =>
      if s.bakes.any (fun b => b.plan == p.num) then .next s
      else .next (({ s with plans := s.plans.filter (fun x => x.num != p.num) }).finish rid stOK 0 none)
    | none => .next s
  | none => .next s

end Sys2Proof.Machine
end

