-- ==== Sys2Proof/Machine/BakeFlow.lean ====
section
/-! DEFINITION. A Bake from its checks to its status word (R341 to R354): the descriptor, its order at HOME with the fence
and the preparation, scans, starts of contexts, the record and the status word, aborts and disables, and the acceptance
of command groups with what they leave in the Poisoned Row List and the stale tables (R244, R292, R295 to R299). -/
namespace Sys2Proof.Machine

open Reg

/-! ### The descriptor (Table 14-6) -/

/-- A span address of the descriptor as region and node offset. -/
def State.bakeSpan (s : State) (ep v : Nat) : Span := let a := spanOf v; (a.1, s.rgnBase ep a.1 + a.2)

/-- The Bake that a descriptor describes, with its plan and operator. -/
def State.bakeOf (s : State) (r : Req) (d : Nat) (p : Option Plan) : Bake :=
  let op := match p with
    | some p => p.ops[bits d 8 5]?.getD (0, 0, 0, false)
    | none => (0, kREDUCE, 0, false)
  { id := r.id, btag := r.addr / 64 % 65536, tid := r.tid, job := r.job, port := r.port, aid := r.aid, epoch := r.epoch, stage := 0,
    order := none, plan := bits d 0 8, base := (p.map (fun p => p.base)).getD 0, entry := op.1, kind := op.2.1, scratch := op.2.2.1,
    laneOk := op.2.2.2, lazy := bit d 16, verify := bit d 17, raw := bit d 18, wantRec := bit d 19, elem := bits d 20 4, rop := bits d 24 2,
    len := bits d 64 32, spanD := s.bakeSpan r.epoch (bits d 192 64), spanA := s.bakeSpan r.epoch (bits d 256 64),
    spanB := s.bakeSpan r.epoch (bits d 320 64), spanC := s.bakeSpan r.epoch (bits d 384 64), status := s.bakeSpan r.epoch (bits d 128 64),
    record := s.bakeSpan r.epoch (bits d 384 64), xarg0 := bits d 448 32, xarg1 := bits d 480 32, runs := [], granted := [], scr := [],
    scans := [], scanned := [], decided := false, cause := 0, fault := 0, faultCh := 0, poison := false, stale := false, lanes := 0,
    parts := [], replay := false, turned := false, desc := BitVec.ofNat 512 d }

/-! ### Checks (Table 14-7) -/

/-- The named ranges of a Bake: its spans, its status word, and its record where it writes one, as region, node offset and
bytes. -/
def Bake.named (b : Bake) : List (Nat × Nat × Nat) :=
  b.spans.map (fun x => (x.1, x.2, 64 * b.len)) ++ [(b.status.1, b.status.2, 8)] ++ (if b.hasRecord then [(b.record.1, b.record.2, 32)] else [])

/-- Whether two ranges of node offsets meet. -/
def meet (a b : Nat × Nat × Nat) : Bool := decide (a.2.1 < b.2.1 + b.2.2) && decide (b.2.1 < a.2.1 + a.2.2)

/-- Check 3: alignment and encodings. ELEM 0xF with ROP SUM fails but for REDUCE, where ROP is ignored (R341). -/
def Bake.fieldsOk (b : Bake) : Bool :=
  b.spans.all (fun x => x.2 % 64 == 0) && b.status.2 % 8 == 0 && (!b.hasRecord || b.record.2 % 32 == 0) && b.len ≥ 1 && b.rop != 3 &&
    elemOk b.elem && (!b.wantRec || (b.plan != 0 && b.laneOk)) && (b.kind == kREDUCE || b.elem != 0xF || b.rop != 0)

/-- Check 4: the range lies wholly in its valid region. -/
def State.inRegion (s : State) (ep : Nat) (x : Nat × Nat × Nat) : Bool :=
  s.rgn ep TEN_R_VALID x.1 == 1 && decide (x.2.1 + x.2.2 ≤ s.rgnBase ep x.1 + s.rgnBytes ep x.1)

/-- Whether a request is an admitted Bake of a tenant and tag that has yet to pass stage 3; the Bake table holds it from its admission (Table
14-9). -/
def Req.subOf (r : Req) (tid btag : Nat) : Bool :=
  r.op == .bakeSub && r.adm != 0 && r.tid == tid && r.addr / 64 % 65536 == btag && r.place != .bakeWait && r.place != .done

/-- The mark of an admitted Bake that a BAKE_ABORT has reached before stage 3. -/
def subAborted : Nat := 1

/-- The first failing check of Table 14-7, as its status; none when all pass. -/
def State.bakeCheck (s : State) (r : Req) (b : Bake) (p : Option Plan) : Option Nat :=
  let ep := r.epoch
  let ranges := b.named
  let writes := b.results.map (fun x => x.1) ++ [b.status.1] ++ (if b.hasRecord then [b.record.1] else [])
  let spans := b.spans.map (fun x => (x.1, x.2, 64 * b.len))
  let st := (b.status.1, b.status.2, 8)
  let rc := (b.record.1, b.record.2, 32)
  let d := (b.spanD.1, b.spanD.2, 64 * b.len)
  if !s.opts.c then some stNounit
  else if b.kind = 0 then some stDenied
  else if !b.fieldsOk then some stDenied
  else if !ranges.all (fun x => s.inRegion ep x) then some stNomap
  else if !ranges.all (fun x => s.namedOk r x.1 && !s.attr ep TEN_R_CLOSED x.1) || !b.spans.all (fun x => s.attr ep TEN_R_PERM_BAKE x.1) ||
      !writes.all (fun n => s.attr ep TEN_R_PERM_WR n) then some stDenied
  else if !b.spans.all (fun x => s.attr ep TEN_R_LAYOUT x.1) then some stDenied
  else if b.spans.any (fun x => s.attr ep TEN_R_ISO x.1) && b.plan != 0 && !(match p with
      | some p => p.sealed_
      | none => true) then some stDenied
  else if (b.kind != kREDUCE && b.operands.any (fun x => x != b.spanD && meet (x.1, x.2, 64 * b.len) d)) || spans.any (fun x => meet x st) ||
      (b.hasRecord && (spans.any (fun x => meet x rc) || meet st rc)) then some stDenied
  else if s.bakes.any (fun c => c.tid == b.tid && c.btag == b.btag && !c.replay) ||
      s.reqs.any (fun x => x.subOf b.tid b.btag && decide (x.adm < r.adm)) then some stDenied
  else none

/-- BAKE_SUB at stage 3: checked, and entered in the Bake table. A Bake of a tenant that is disabled by then ends before
its first command (R188). -/
def State.bakeSub (s : State) (r : Req) : State :=
  let d := r.payload
  let p := s.plans.find? (fun p => p.num == bits d 0 8 && p.tid == r.tid && p.closing.isNone && decide (bits d 8 5 < p.ops.length))
  let b0 := s.bakeOf r d p
  let b := if bits d 0 8 = 0 then (if bits d 8 5 = 0 then b0 else { b0 with kind := 0 }) else if p.isNone then { b0 with kind := 0 } else b0
  match s.bakeCheck r b p with
  | some st => s.endAt3 r.id st nidNone
  | none =>
    let s1 := (s.updReq r.id (fun x => { x with place := .bakeWait, region := b.status.1 }))
    let s2 : State := { s1 with bakes := s1.bakes ++ [b] }
    if r.wait = subAborted then s2.conclude r.id causeAbort 0 0
    else if !s2.enabled r.tid then s2.conclude r.id causeDisable 0 0
    else if s2.shape.closing then s2.conclude r.id causeFault fcShutdown 0 else s2

/-- BAKE_ABORT at stage 3 (R351): of a Bake of the table, one that has not passed stage 3 included. -/
def State.bakeAbort (s : State) (r : Req) : State :=
  let tag := r.addr / 64 % 65536
  if !s.opts.c then s.endAt3 r.id stNounit nidNone
  else if !s.incOk r then s.finish r.id stFenced 0 none
  else match s.bakes.find? (fun b => b.tid == r.tid && b.btag == tag && !b.replay) with
    | some b => if b.decided then s.finish r.id stAlready 0 none else (((s.conclude b.id causeAbort 0 0).afterEnd b.id).finish r.id stOK 0 none)
    | none => match minBy (fun x => x.adm) (s.reqs.filter (fun x => x.subOf r.tid tag)) with
      | none => s.finish r.id stAlready 0 none
      | some x =>
        if x.wait = subAborted then s.finish r.id stAlready 0 none
        else (s.updReq x.id (fun x => { x with wait := subAborted })).finish r.id stOK 0 none

/-- BAKE_SUB. -/
def execBakeSub (port : Fin 16) (m : Msg) (s : State) : Host.Outcome State Fault Refusal := s.onBlk (pgFPORT port.val) <| .next (s.reqIn port.val 0x10 .bakeSub m)
/-- BAKE_ABORT. -/
def execBakeAbort (port : Fin 16) (m : Msg) (s : State) : Host.Outcome State Fault Refusal := s.onBlk (pgFPORT port.val) <| .next (s.reqIn port.val 0x11 .bakeAbort m)
/-- PLAN_LOAD. -/
def execPlanLoad (port : Fin 16) (m : Msg) (s : State) : Host.Outcome State Fault Refusal := s.onBlk (pgFPORT port.val) <| .next (s.reqIn port.val 0x12 .planLoad m)
/-- PLAN_UNLOAD. -/
def execPlanUnload (port : Fin 16) (m : Msg) (s : State) : Host.Outcome State Fault Refusal := s.onBlk (pgFPORT port.val) <| .next (s.reqIn port.val 0x13 .planUnload m)

/-! ### Order at HOME (R148, R347) -/

/-- The rows of a Bake's spans, each with whether it is a result row. -/
def Bake.rows (b : Bake) : List (Nat × Bool) :=
  let of_ := fun (x : Span) (res : Bool) =>
    let lo := x.2 / groupBytes
    let hi := (x.2 + 64 * b.len + groupBytes - 1) / groupBytes
    (List.range (hi - lo)).flatMap (fun i => queueNos.map (fun q => (rowNo q ((lo + i) % 16) (groupRow (lo + i)), res)))
  b.operands.flatMap (fun x => of_ x false) ++ b.results.flatMap (fun x => of_ x true)

/-- Whether a Bake names a mirrored region. -/
def State.bakeMirrored (s : State) (b : Bake) : Bool := b.named.any (fun x => s.attr b.epoch TEN_R_MIRROR x.1)

/-- The preparation: SNP_INV to the holders of result lines and the owners of operand lines, each as a request at its line
(R148); lines with an open transaction, or with requests that came before the Bake, are examined after them (R21). -/
def State.prepare (s : State) (b : Bake) (rows : List (Nat × Bool)) : State :=
  let las := (s.dir.filter (fun e => !e.shadow)).map (fun e => e.la) ++ s.openTx.map (fun o => o.1) ++
    (s.reqs.filter (fun r => r.place == .home && r.op != .bakeInv)).map (fun r => r.la)
  let uniq := las.foldl (fun (l : List Nat) x => if l.contains x then l else l ++ [x]) []
  uniq.foldl (fun (s : State) la =>
    let hit := rows.filter (fun x => x.1 == rowKey la)
    if hit.isEmpty then s
    else
      let res := hit.any (fun x => x.2)
      let need := s.isOpen la || !(s.waitingAt la).isEmpty || (match s.ent la with
        | some e => res || e.modif
        | none => false)
      if !need then s
      else
        let (n, s1) := s.nextOrd
        let rg := ((b.spans.map (fun x => x.1)).find? (fun m => s.covers b.epoch m (la * 64))).getD b.spanD.1
        let r : Req := { Req.blank with
          id := s1.nextId, op := .bakeInv, intern := true, tid := b.tid, job := b.job, off := la * 64, region := rg, place := .home, order := n,
          epoch := b.epoch, mid := b.id, gen := b2n res, key := (s1.keyFor b.epoch rg la).map (·.1) }
        { s1 with reqs := s1.reqs ++ [r], nextId := s1.nextId + 1 }) s

/-- The bank subarrays that a Bake's rows use. -/
def Bake.saKeys (b : Bake) : List Nat := (b.rows.map (fun x => x.1 / 512)).foldl (fun (l : List Nat) k => if l.contains k then l else l ++ [k]) []

/-- Whether a bank subarray that a Bake's rows use is retired or being copied (R367). -/
def State.bakeRetired (s : State) (b : Bake) : Bool :=
  s.ras.rmap.any (fun e => e.2.state != 0 && b.saKeys.contains (saKey e.2.q e.2.bank e.2.sa))

/-- TW_BAKE, where the stream to the partner runs; answers the number whose acknowledgement the CMP waits for (R366). -/
def State.twBakeSend (s : State) (b : Bake) : Option Nat × State :=
  if s.bakeMirrored b && b.kind != kREDUCE && s.twDeltas then
    let d := b.desc.toNat
    let withJob := setBits d 96 32 b.job
    let data := (List.range 4).map (fun i => BitVec.ofNat 128 (withJob / 2 ^ (128 * i)))
    let (n, s1) := s.twSeq 0x93 [(69, 8, b.tid), (77, 16, b.btag), (93, 14, b.base), (107, 1, b2n (s.bakeRetired b))] data b.tid b.job
    let t : TwBake := {
      tid := b.tid, btag := b.btag, holder := true, seq := n, bid := some b.id, job := b.job, desc := b.desc, answer := none, copies := false, ended := false }
    (some n, { s1 with twin := { s1.twin with bakes := s1.twin.bakes ++ [t] } })
  else (none, s)

/-- The keys of a Bake's Sealed regions as they stand (R303). -/
def State.bakeKeys (s : State) (b : Bake) : Tab KeyPick :=
  b.named.foldl (fun (t : Tab KeyPick) x => match s.keyPick b.epoch x.1 with
    | some k => Tab.set t x.1 k
    | none => t) []

/-- A Bake ordered: fence, keys, reservations, preparation, and its CMP. One aborted before is ordered too, and issues nothing (R351). -/
def State.bakeOrdered (s : State) (b : Bake) : State :=
  let (n, s0) := s.nextOrd
  let rows := b.rows
  let fence : Fence := { bake := b.id, rows := rows, order := n }
  let s1 := { s0 with fences := s0.fences ++ [fence] }.updBake b.id (fun b => { b with order := some n, stage := 1, keys := s0.bakeKeys b })
  let s2 := if b.aborted then s1 else (s1.regrant).prepare b rows
  if b.replay then s2
  else
    let (gate, s3) := s2.twBakeSend b
    (s3.finishGated gate b.id stOK 0 none).bakeEnds b.id

/-- BAKE_ORDER: the oldest Bake that waits for its fence is ordered; a request that the home must not serve is answered
FENCED (R108, R357). -/
def execBakeOrder (bid : Nat) (s : State) : Host.Outcome State Fault Refusal := s.onBlk pgHOME <|
  match s.bakes.find? (fun b => b.order.isNone) with
  | none => .next s
  | some b =>
    if b.id ≠ bid || s.fences.length ≥ 384 then .next s
    else
      let drop : State → State := fun s => { s with bakes := s.bakes.filter (fun c => c.id != bid) }
      match s.req bid with
      | none => .next ((s.use [pgHOME]).bakeOrdered b)
      | some r =>
        if s.bakeMirrored b && s.twin.turn != tuHolder then .next ((drop s).finish bid stFenced 0 none nidNone (some 15))
        else if !s.live r.aid || (s.agent r.aid).inc % 8 != r.incLo then .next ((drop s).finish bid stFenced 0 none)
        else .next ((s.use [pgHOME, pgDIRC]).bakeOrdered b)

/-! ### Scans and starts (R298, R344) -/

/-- The operand rows that must be scanned before a Bake's first group. -/
def State.scanRows (s : State) (b : Bake) : List (Nat × Nat) :=
  let rows := (s.arrayGroups b).flatMap (fun g => b.operands.flatMap (fun x =>
    let h := b.corr x g
    queueNos.map (fun q => rowNo q (h % 16) (groupRow h))))
  (rows.filter (fun k => b.verify || s.overflowed k)).map (fun k => (k, 0))

/-- The reads of the first row still to be scanned, counted to the Bake. -/
def State.scanRow (s : State) (b : Bake) : State :=
  match b.scans with
  | [] => s
  | (k, _) :: _ =>
    let q := k / 2 ^ 22
    let bank := k / 2 ^ 18 % 16
    let row := k % 2 ^ 18
    (List.range 128).foldl (fun (s : State) c =>
      s.enqueue q { rowEntry (.read (.scan b.id)) bank row b.epoch with
        src := .home, col := c, off := unhashLine q bank row c * 64, tid := b.tid, job := b.job, bake := some b.id }) s

/-- One line of a scan returned. -/
def State.scanLine (s : State) (bid col : Nat) (poison : Bool) : State :=
  match s.bake bid with
  | none => s
  | some b => match b.scans with
    | [] => s
    | (k, n) :: rest =>
      let old := match b.scanned.find? (fun x => x.1 == k) with
        | some x => x.2
        | none => 0
      let m := if poison then old ||| BitVec.ofNat 128 (2 ^ col) else old
      let b1 := { b with
        scanned := (b.scanned.filter (fun x => x.1 != k)) ++ [(k, m)],
        scans := if n + 1 = 128 then rest else (k, n + 1) :: rest, stage := if n + 1 = 128 && rest.isEmpty then 3 else b.stage }
      let s1 := (s.bump RDL_SCAN_LINES).updBake bid (fun _ => b1)
      if n + 1 = 128 && !b1.aborted then s1.scanRow b1 else s1

/-- Whether a Bake's preparation is still under way. -/
def State.preparing (s : State) (bid : Nat) : Bool := s.reqs.any (fun r => r.op == .bakeInv && r.mid == bid)

/-- The argument words (Table 14-8). -/
def Bake.args (b : Bake) (g n : Nat) : List Word :=
  let row := fun (x : Span) => groupRow (b.corr x g) % 512
  let used := fun (x : Span) => b.spans.contains x
  let opB := b.kind = kAND || b.kind = kOR || b.kind = kMAJ || b.kind = kXOR
  [packBits [(1, 4, g % 16), (5, 9, groupRow g / 512)], row b.spanA, if opB && used b.spanB then row b.spanB else 0, row b.spanD,
    if b.kind = kMAJ then row b.spanC else 0, n, b.xarg0, b.xarg1].map (BitVec.ofNat 32)

/-- Whether an earlier Bake in HOME's order still waits for its context on an RCE. -/
def State.startBlocked (s : State) (b : Bake) (rce : Nat) : Bool :=
  s.bakes.any (fun c => c.order.isSome && decide (c.order.getD 0 < b.order.getD 0) && !c.aborted && c.stage ≤ 3 &&
    !(s.runs c).isEmpty && (Tab.get? c.runs rce).isNone)

/-- A run begun on an RCE in a context (R310, R344). -/
def State.startRun (s : State) (b : Bake) (rce ci : Nat) (run : Nat × Nat) (k : Nat) : State :=
  let x := s.ctx rce ci
  let s1 := s.setCtx rce ci { Ctx.fresh with
    state := 1, bid := b.id, pc := b.entry, x := b.args run.1 run.2, fault := x.fault, faultPc := x.faultPc }
  let s2 := (s1.updBake b.id (fun b => { b with runs := Tab.set b.runs rce (k + 1, false), stage := 3 })).sampleCtx rce
  (s2.count 8 b.tid b.job 3).use [pgRCE rce]

/-- BAKE_START (R344, R347): once the preparation has ended and the operand rows that need it are scanned, the next run of
the Bake begins on an RCE, in HOME's order; a Bake without runs places its lane part. -/
def execBakeStart (bid : Nat) (rce : Fin 48) (s : State) : Host.Outcome State Fault Refusal := s.onBlk pgHOME <|
  match s.bake bid with
  | none => .next s
  | some b =>
    if b.order.isNone || b.aborted || s.preparing bid || b.stage > 3 then .next s
    else if b.stage = 1 && !(s.scanRows b).isEmpty then
      let b1 := { b with stage := 2, scans := s.scanRows b }
      .next ((s.updBake bid (fun _ => b1)).scanRow b1)
    else if b.stage = 2 then .next s
    else
      let runs := s.runs b
      if runs.isEmpty then
        let s1 := s.updBake bid (fun b => { b with stage := 3 })
        .next (if b.kind = kREDUCE then s1.placeLanePart b else (s1.conclude bid 0 0 0).placeLanePart b)
      else
        let (k, ended) := Tab.get b.runs rce.val (0, true)
        match (if ended then runs[k]? else none) with
        | none => .next s
        | some run =>
          if s.startBlocked b rce.val then .next s
          else match (s.ctxOf rce.val bid).orElse (fun _ => (List.range 8).find? (fun c => (s.ctx rce.val c).state == 0)) with
            | none => .next s
            | some ci => .next (s.startRun b rce.val ci run k)

/-! ### The record and the status word (R348, R349) -/

/-- Whether a Bake has begun to run in contexts or on lanes. -/
def Bake.begun (b : Bake) : Bool := !b.runs.isEmpty || decide (4 ≤ b.stage)

/-- Whether a Bake writes a record when it ends: one that was stopped before its start issues nothing (R348, R351). -/
def Bake.recordDue (b : Bake) : Bool := b.hasRecord && !b.replay && (!b.aborted || b.begun)

/-- Whether the node must not write a Bake's status word: it names a mirrored region and the node is not its home (R372). -/
def State.bakeFenced (s : State) (b : Bake) : Bool :=
  s.bakeMirrored b && !b.replay && s.twin.turn != tuHolder && s.twin.turn != tuHanding

/-- RECORD_WRITE: after every lane job has issued; of a Bake that was stopped while it ran, what was reduced until then. -/
def execRecordWrite (bid : Nat) (s : State) : Host.Outcome State Fault Refusal := s.onBlk pgHOME <|
  match s.bake bid with
  | none => .next s
  | some b =>
    if (b.stage = 4 || (b.aborted && b.stage < 5 && s.contextsEnded b)) && b.recordDue && !s.bakeFenced b && !s.bakeLanes bid && !s.bakeEntries bid then
      let p := channels.foldl (fun a ch => match Tab.get? b.parts ch with
        | some x => Part.join b.elem b.rop a x
        | none => a) (Part.start b.elem b.rop)
      .next ((s.updBake bid (fun b => { b with stage := 5, poison := b.poison || p.poison })).nodeWrite wkRecord bid b.tid b.job b.epoch
        b.record.1 b.record.2 32 (p.record b.elem b.rop b.raw) 0)
    else .next s

/-- The status word (Table 14-10). -/
def Bake.word (b : Bake) : Nat :=
  packBits [(0, 4, if b.aborted then 8 else 0), (4, 1, 1), (5, 1, b2n b.poison), (6, 1, b2n b.stale), (8, 4, if b.cause = causeFault then b.fault else 0),
    (12, 6, if b.cause = causeFault then b.faultCh else 0), (18, 2, b.cause), (32, 32, min (2 ^ 32 - 1) b.lanes)]

/-- Whether the partner has confirmed a Bake that it shares (R353, R368). -/
def State.twBakeReady (s : State) (b : Bake) : Bool :=
  match s.twBakeOf b with
  | some t => !t.holder || b.turned || t.answer == some true || (t.answer == some false && t.copies)
  | none => true

/-- Whether a Bake has an outcome and nothing of it is under way in contexts, lanes and queues (R330). The preparation of one that was stopped
is not waited for (R351). -/
def State.bakeQuiet (s : State) (b : Bake) : Bool :=
  b.order.isSome && b.decided && s.contextsEnded b && !s.bakeEntries b.id && !s.bakeLanes b.id && (b.aborted || !s.preparing b.id)

/-- Whether every part of a Bake has ended, so that its status word may be ordered (R299, R330). -/
def State.bakeOver (s : State) (b : Bake) : Bool :=
  s.bakeQuiet b && (if b.recordDue then b.stage == 5 && !s.reqs.any (fun r => r.op == .wrPtl && r.mid == b.id) else b.aborted || b.stage == 4)

/-- A Bake completed: its fence, its entry in the Bake table and its reservations are released (R289, R349). -/
def State.bakeDone (s : State) (bid : Nat) : State :=
  match s.bake bid with
  | none => s
  | some _ =>
    let t := s.twin.bakes.filter (fun t => t.bid != some bid)
    ({ s with fences := s.fences.filter (fun f => f.bake != bid), bakes := s.bakes.filter (fun c => c.id != bid),
              twin := { s.twin with bakes := t } }.freeCtxs).regrant

/-! ### Acceptance of command groups (R244, R292, R295 to R299) -/

/-- The row that a selector names: the negation row has two contacts (R247). -/
def vrRow (vr : Nat) : Nat := if vr = 0x20B then 0x20A else vr

/-- Whether the XD-96 knows a row selector: it ignores a vendor command with any other (R247). -/
def vrKnown (vr : Nat) : Bool := decide (vr ≤ 0x20B)

/-- The shape rules on a group's commands: the rows that it has read before it loaded them, and those it has loaded. -/
structure Shapely where
  read   : List Nat
  loaded : List Nat
  ok     : Bool
deriving DecidableEq, Repr

/-- One command judged. -/
def Shapely.step (x : Shapely) (c : Cmd) : Shapely :=
  match c with
  | .vact _ _ vr =>
    let r := vrRow vr
    if vrKnown vr then
      { x with read := (if x.loaded.contains r then x.read else r :: x.read), ok := x.ok && !(vr == 0x20A && !x.loaded.contains r) }
    else x
  | .vaa _ _ vr =>
    let r := vrRow vr
    if vrKnown vr then { x with loaded := r :: x.loaded, ok := x.ok && vr != 0x208 && vr != 0x209 && !x.read.contains r } else x
  | .vtra _ _ a b c =>
    let r := [0x200 + a, 0x200 + b, 0x200 + c]
    { x with loaded := r ++ x.loaded, ok := x.ok && a != b && b != c && a != c && !r.any (fun v => x.read.contains v && !x.loaded.contains v) }
  | _ => x

/-- Whether a group keeps the shape rules: it is not empty, ends with PRE, holds at most 16 commands with its opening PRE,
and no command breaks a rule. -/
def groupShape (cmds : List Cmd) : Bool :=
  let x := cmds.foldl Shapely.step { read := [], loaded := [], ok := true }
  x.ok && decide (cmds.length + 1 ≤ 16) && (match cmds.getLast? with
    | some (.pre _) => true
    | _ => false)

/-- Whether a group's segment belongs to a Compute region of the Bake's tenant in the Bake's epoch. -/
def State.groupRegion (s : State) (b : Bake) (sa : Nat) : Bool :=
  (validRegions (s.cfg b.epoch)).any (fun n => s.attr b.epoch TEN_R_LAYOUT n && s.rgn b.epoch TEN_R_TID n == b.tid && s.inSegment b.epoch n sa)

/-- What a row selector carries into a group: the poisoned lines and whether it comes from a stale row (R296). -/
structure Carry where
  mask  : BitVec 128
  stale : Bool
deriving DecidableEq, Repr

def Carry.or (a b : Carry) : Carry := { mask := a.mask ||| b.mask, stale := a.stale || b.stale }

/-- The flow of poison and staleness through a group: what each row written so far holds, the data rows written, and what the sense
amplifiers hold while a row is open. -/
structure Flow where
  rows : Tab Carry
  out  : List Nat
  open_ : Option Carry
deriving DecidableEq, Repr

/-- What a selector holds before the group: a data row's listed, stale or scanned poison; a scratch row's from earlier groups
of the Bake; nothing for the constant rows. -/
def State.carryOf (s : State) (b : Bake) (q bank sa vr : Nat) : Carry :=
  if vr < 512 then
    let k := rowNo q bank (sa * 512 + vr)
    let st := s.staleMask q bank (sa * 512 + vr)
    let sc := match b.scanned.find? (fun x => x.1 == k) with
      | some x => x.2
      | none => 0
    { mask := s.prlMask k ||| st.getD 0 ||| sc, stale := st.isSome }
  else match scratchOf vr with
    | some k => match b.scr.find? (fun x => x.1 == saKey q bank sa * 8 + k) with
      | some x => { mask := x.2.1, stale := x.2.2 }
      | none => { mask := 0, stale := false }
    | none => { mask := 0, stale := false }

/-- One command of the flow; the XD-96 ignores an unknown selector (R247). -/
def State.flow (s : State) (b : Bake) (q bank sa : Nat) (f : Flow) (c : Cmd) : Flow :=
  let look := fun (vr : Nat) => (Tab.get? f.rows (vrRow vr)).getD (s.carryOf b q bank sa (vrRow vr))
  match c with
  | .pre _ => { f with open_ := none }
  | .vact _ _ vr => if vrKnown vr then { f with open_ := some (look vr) } else f
  | .vaa _ _ vr => match f.open_ with
    | some o => if vrKnown vr then
        { f with rows := Tab.set f.rows (vrRow vr) o, out := if vr < 512 && !f.out.contains vr then f.out ++ [vr] else f.out }
      else f
    | none => f
  | .vtra _ _ x y z =>
    let m := (look (0x200 + x)).or ((look (0x200 + y)).or (look (0x200 + z)))
    { f with rows := Tab.set (Tab.set (Tab.set f.rows (0x200 + x) m) (0x200 + y) m) (0x200 + z) m, open_ := some m }
  | _ => f

/-- One result row of an accepted group: its listed poison, and its state by Table 12-3. The answer says whether a
re-encode must follow at once. -/
def State.resultRow (s : State) (b : Bake) (q bank row : Nat) (c : Carry) : State × Bool :=
  let logic := b.kind = kAND || b.kind = kOR || b.kind = kMAJ
  let stale := logic || c.stale || c.mask != 0
  let s1 := s.setPrl (rowNo q bank row) c.mask
  let s2 := if c.mask != 0 then (s1.bump RDL_POISON_ROWS).updBake b.id (fun b => { b with poison := true }) else s1
  if !stale then (s2.dropStale q bank row, false)
  else if b.lazy && decide ((s2.mch (q / 2)).stale.length < 128 || (s2.staleMask q bank row).isSome) then
    (((s2.addStale q bank row c.mask).bump RDL_STALE_LAZY).updBake b.id (fun b => { b with stale := true }), false)
  else
    let s3 := if b.lazy then s2.bump RAS_STALE_EAGER else s2
    ((s3.dropStale q bank row).bump RDL_REENC_BAKE, true)

/-- A group's acceptance: absent where the MCH refuses it with LAYOUT; otherwise the state with its result rows recorded,
and the re-encodes that follow it in the queue. -/
def State.acceptGroup (s : State) (b : Bake) (q : Nat) (e : Entry) (cmds : List Cmd) : Option (State × List Entry) :=
  let sa := e.srow / 512
  if !groupShape cmds || e.poison || !s.groupRegion b sa then none
  else
    let f := cmds.foldl (fun f c => s.flow b q e.bank sa f c) { rows := [], out := [], open_ := none }
    let scr := f.rows.filterMap (fun (x : Nat × Carry) => (scratchOf x.1).map (fun k => (saKey q e.bank sa * 8 + k, x.2.mask, x.2.stale)))
    let s1 := s.updBake b.id (fun b => { b with scr := b.scr.filter (fun y => !scr.any (fun x => x.1 == y.1)) ++ scr })
    let (s2, rows) := f.out.foldl (fun (a : State × List (Nat × BitVec 128)) vr =>
      let c := Tab.get f.rows vr { mask := 0, stale := false }
      let (s3, re) := a.1.resultRow b q e.bank (sa * 512 + vr) c
      (s3, if re then a.2 ++ [(sa * 512 + vr, c.mask)] else a.2)) (s1, [])
    some (s2, rows.map (fun x => { rowEntry .reencode e.bank x.1 e.epoch with
      tid := b.tid, job := b.job, bake := some b.id, mask := x.2, stale := true, src := .rce }))

/-- A LAYOUT answer to the context whose group was refused (R244): it faults at its next micro-op; a context that has
ended has none, and its fault is recorded at once (R328). -/
def State.layoutFault (s : State) (b : Bake) (rce ci : Nat) : State :=
  let x := s.ctx rce ci
  if x.bid = b.id && (x.state = 1 || x.state = 2) then s.setCtx rce ci { x with layout := true, state := 1, stall := 0 }
  else s.rceFault rce ci fcLayout

end Sys2Proof.Machine
end

