-- ==== Sys2Proof/Machine/Keys.lean ====
section
/-! DEFINITION. Rotation of tenant keys (R184, R185): the order of its lines, the rekey of one line, and its end. The key
commands of the mailbox stand with the mailbox. -/
namespace Sys2Proof.Machine

open Reg

/-- The valid Sealed regions of a tenant in the open epoch, in ascending number. -/
def State.sealedRegions (s : State) (tid : Nat) : List Nat :=
  (validRegions s.cfgOpen).filter (fun n => s.attr s.openEpoch TEN_R_ISO n && s.rgn s.openEpoch TEN_R_TID n == tid)

/-- The first line of a region and the line after its last. -/
def State.regionLines (s : State) (n : Nat) : Nat × Nat :=
  let b := s.rgn s.openEpoch TEN_R_BASE n * 0x400000
  (b, b + s.rgn s.openEpoch TEN_R_SIZE n * 0x400000)

/-- The line at which a rotation stands after region `n` and every line below `la` of it: in the same region, or the first
of the tenant's next Sealed region. -/
def State.rotSeek (s : State) (tid n la : Nat) : Option (Nat × Nat) :=
  let rs := s.sealedRegions tid
  if rs.contains n && (s.regionLines n).1 ≤ la && la < (s.regionLines n).2 then some (n, la)
  else (rs.find? (fun m => decide (n < m))).map (fun m => (m, (s.regionLines m).1))

/-- The pointer past the lines that rekeys of the stream have covered (R364). -/
def State.rotSkip (s : State) (tid : Nat) (p : Nat × Nat) : Option (Nat × Nat) :=
  let k := Tab.get s.twin.rekeyed p.1 0
  if p.2 < k then s.rotSeek tid p.1 k else some p

/-- The pointer past every region that the stream has covered. -/
def State.rotSkipAll (s : State) (tid : Nat) : Nat → Nat × Nat → Option (Nat × Nat)
  | 0, p => some p
  | n + 1, p => match s.rotSkip tid p with
    | none => none
    | some q => if q = p then some p else s.rotSkipAll tid n q

/-- The first line of a tenant that a rotation has still to rekey, what the stream has covered already left out (R364). -/
def State.rotFirst (s : State) (tid : Nat) : Option (Nat × Nat) :=
  ((s.sealedRegions tid).head?).bind (fun n => s.rotSkipAll tid 4096 (n, (s.regionLines n).1))

/-- A rotation's end: the old key is erased and the slot is Loaded again (R185). -/
def State.rotFinish (s : State) (slot : Nat) : State :=
  let k := s.slot slot
  let done := s.sealedRegions k.tid
  ({ s with
      rot := none, slots := Tab.set s.slots slot { k with state := ksLoaded, old := none, stop := none },
      twin := { s.twin with rekeyed := s.twin.rekeyed.filter (fun x => !done.contains x.1) } }).raise pgCRYPT I_CRYPT_KEY_DONE

/-- The next slot that waits in Rotating takes the pointer; one that has no line to rekey has ended (R184). -/
def State.rotNextOver : Nat → State → State
  | 0, s => s
  | n + 1, s => match s.slots.find? (fun p => p.2.state == ksRotating) with
    | none => s
    | some p => match s.rotFirst p.2.tid with
      | some x => { s with rot := some { slot := p.1, tid := p.2.tid, region := x.1, la := x.2, issued := false } }
      | none => rotNextOver n (s.rotFinish p.1)

/-- Rotations run one at a time, in ascending slot number. -/
def State.rotNext (s : State) : State := rotNextOver 256 s

/-- The pointer put at its next line, or the rotation ended past the last. -/
def State.rotPut (s : State) (r : Rot) (p : Option (Nat × Nat)) : State :=
  match p with
  | some x => { s with rot := some { r with region := x.1, la := x.2, issued := false } }
  | none => (s.rotFinish r.slot).rotNext

/-- The pointer past a line (R184). -/
def State.rotAdvance (s : State) : State :=
  match s.rot with
  | none => s
  | some r => s.rotPut r ((s.rotSeek r.tid r.region (r.la + 1)).bind (s.rotSkipAll r.tid 4096))

/-- A rekey that the stream brought for a line of a mirrored region (R364): a pointer that stands there passes it. -/
def State.rotStream (s : State) (region la : Nat) : State :=
  let s1 := { s with twin := { s.twin with rekeyed := Tab.set s.twin.rekeyed region (max (la + 1) (Tab.get s.twin.rekeyed region 0)) } }
  match s1.rot with
  | some r => if r.region = region && decide (r.la ≤ la) then s1.rotPut r (s1.rotSkipAll r.tid 4096 (r.region, r.la)) else s1
  | none => s1

/-- Whether rotation may rekey a line here: a mirrored region is rekeyed by its holder only (R364). -/
def State.mayRekey (s : State) (region : Nat) : Bool :=
  !s.attr s.openEpoch TEN_R_MIRROR region || s.twin.turn == tuHolder

/-- REKEY_ISSUE: the rekey of the line at the pointer joins SHAPE's internal queue under the tenant's TID. -/
def execRekeyIssue (s : State) : Host.Outcome State Fault Refusal := s.onBlk pgCRYPT <|
  match s.rot with
  | none => .next s
  | some r =>
    if r.issued || !s.mayRekey r.region then .next s
    else
      let s1 := { s with rot := some { r with issued := true } }.use [pgCRYPT]
      .next ((s1.queueIntern .rekey r.tid 0 r.la r.region).updReq s1.nextId (fun x => { x with mid := r.slot }))

/-- A rekey's line read: it is written back under the new key, poisoned where it was read so. A rekey whose rotation was
stopped by KEY_ERASE writes nothing. -/
def State.rekeyData (s : State) (r : Req) (d : BitVec 512) (poison : Bool) : State :=
  if s.rot.isSome && (s.slot r.mid).state = ksRotating then
    (s.updReq r.id (fun x => { x with place := .memWrite })).writeLine r.off r.region r.tid r.job r.epoch (some r.id) d poison
      (some (s.slot r.mid).cur)
  else (s.endTx r.la).endReq r.id

/-- A rekey's write accepted. -/
def State.rekeyDone (s : State) (r : Req) : State :=
  let s1 := (s.endTx r.la).endReq r.id
  match s1.rot with
  | some x => if x.slot = r.mid && x.la = r.la then s1.rotAdvance else s1
  | none => s1

end Sys2Proof.Machine
end

