-- ==== Sys2Proof/Machine/Migr.lean ====
section
/-! DEFINITION. MIGR: moves of pages (R203 to R211), the messages between nodes (Table 8-10), and the checks of Table 8-8. -/
namespace Sys2Proof.Machine

open Reg

/-! ### Checks (Table 8-8) -/

/-- Whether two spans of bytes meet. -/
def spansMeet (a n b k : Nat) : Bool := decide (a < b + k) && decide (b < a + n)

/-- The bytes of a frame. -/
def Move.bytes (m : Move) : Nat := 64 * m.lines

/-- The frames that a move holds on this node: its source, and the destination of a Local or incoming move. -/
def Move.framesHere (m : Move) : List Nat :=
  if m.incoming then [m.destPga.toNat]
  else if m.kind = mkLocal then [m.srcPga, m.destPga.toNat] else [m.srcPga]

/-- Whether a frame meets a frame of an active move on this node. -/
def State.frameBusy (s : State) (n pga len : Nat) : Bool :=
  s.moves.any (fun x => x.1 != n && x.2.state != .idle && x.2.framesHere.any (fun f => spansMeet f x.2.bytes pga len))

/-- The valid region that a frame lies wholly in. -/
def State.frameRegion (s : State) (pga len : Nat) : Option Nat :=
  (s.regionOf s.openEpoch (pgaOff pga)).filter (fun n => s.covers s.openEpoch n (pgaOff pga + len - 1))

/-- Whether two regions agree in TID, ISO, UE, COH and ACCESS. -/
def State.sameAttrs (s : State) (a b : Nat) : Bool :=
  [TEN_R_TID, TEN_R_ISO, TEN_R_UE, TEN_R_COH, TEN_R_ACCESS].all (fun f => s.rgn s.openEpoch f a == s.rgn s.openEpoch f b)

/-- The outcome of what checks 3, 4, 5 and 7 ask of the destination's region and key slot on another node, which no message tells the source
(assumption 48): none of them refuses, or the first that does. -/
def farCode (v : Nat) : Nat := if v % 5 = 0 then 0 else if v % 5 = 1 then 3 else if v % 5 = 2 then 4 else if v % 5 = 3 then 5 else 7

/-- Checks 3 to 8 for a leaf of a size; 0 when all pass. `far` is the outcome for the other node of a Node-kind move. -/
def State.migrCheck (s : State) (n : Nat) (m : Move) (far : Nat) : Nat :=
  let len := m.bytes
  let src := s.frameRegion m.srcPga len
  let dst := m.destPga.toNat
  let here := m.kind = mkLocal
  let dr := if here then s.regionOf s.openEpoch (pgaOff dst) else none
  let rs := src.toList ++ dr.toList
  let attr := fun (f : Field) => rs.any (fun r => s.attr s.openEpoch f r)
  let sealed_ := attr TEN_R_ISO
  if attr TEN_R_LAYOUT || far = 3 then 3
  else if attr TEN_R_MIRROR || far = 4 then 4
  else if far = 5 || (match src with
      | none => true
      | some a => here && (match s.frameRegion dst len with
        | some b => !s.sameAttrs a b
        | none => true)) || (m.kind ≠ mkAgent && (dst % len ≠ 0 || (if here then pgaNid dst ≠ s.nid else pgaNid dst = s.nid))) then 5
  else if s.frameBusy n m.srcPga len || (here && (s.frameBusy n dst len || spansMeet dst len m.srcPga len)) then 6
  else if sealed_ && (far = 7 || (match s.slotOf m.tid with
      | some k => (s.slot k).state != ksLoaded
      | none => true)) then 7
  else if m.kind = mkAgent && (!s.live m.destAid || (sealed_ && !(s.rd TEN_M_BOUND 0 m.destAid = 1 && s.rd TEN_M_TID 0 m.destAid = m.tid))) then 8
  else 0

/-- A GO or RELEASE refused (R203). -/
def State.migrRefuse (s : State) (n code : Nat) (state : MState) : State :=
  (s.setMove n { s.move n with reason := code, state := state, resuming := false }).raise pgMIGR I_MIGR_MOVE_REFUSED

/-- MIGR_START to the destination. -/
def State.migrStartSend (s : State) (n : Nat) (m : Move) (resume : Bool) : State :=
  s.migrSend m.peer (mkNodeMsg 0xA0 s.nid m.peer (2 * n) [(45, 4, n), (65, 8, m.tid), (73, 2, m.size), (76, 1, b2n resume)]
    [BitVec.ofNat 128 (m.tpa.toNat + m.destPga.toNat * 2 ^ 64)])

/-! ### Table walks of MIGR (R192, R193, R203, R209) -/

/-- What a table walk of MIGR is for, as its reads carry it: a GO, the check of an incoming MIGR_START, a RELEASE. -/
def mwGo : Nat := 1
def mwStart : Nat := 2
def mwRelease : Nat := 3

/-- A walk of MIGR as its reads carry it: its purpose, its slot, the tenant and the TPA, counted to TID 0 and JOB 0 (R205). `val` keeps
the tenant whose tables it walks. -/
def State.migrWalker (s : State) (why n tid tpa : Nat) : Req :=
  { Req.blank with op := .walk, intern := true, gen := why, mid := n, val := tid, addr := tpa, epoch := s.openEpoch }

/-- The move that GO checks, from the leaf that the walk found (R203). -/
def State.migrFrame (s : State) (m : Move) (level pga : Nat) : Move :=
  { m with
    srcPga := pga, size := sizeCode level, peer := if m.kind = mkNode then pgaNid m.destPga.toNat else 0,
    region := (s.regionOf s.openEpoch (pgaOff pga)).getD 0, doneL := 0, issued := 0, acked := 0, sent := 0, resuming := false, buf := [],
    ahead := [], progress := s.ao, remoteMid := 0, walking := false, prior := [m.srcPga, m.size, m.peer, m.doneL, m.issued] }

/-- GO after its walk: the checks of Table 8-8, and the start of the move. -/
def State.goWalked (s : State) (n : Nat) (leaf : Option (Nat × Nat)) : State :=
  let m := { s.move n with walking := false }
  let s0 := s.setMove n m
  match leaf with
  | none => s0.migrRefuse n 1 .idle
  | some (level, pga) =>
    if pgaNid pga ≠ s.nid then s0.migrRefuse n 1 .idle
    else if level = 1 then s0.migrRefuse n 2 .idle
    else
      let m1 := s.migrFrame m level pga
      let (v, s1) := if m.kind = mkNode then s0.free else (0, s0)
      match s1.migrCheck n m1 (if m.kind = mkNode then farCode v.toNat else 0) with
      | 0 =>
        if m.kind = mkNode then (s1.setMove n { m1 with state := .starting }).migrStartSend n m1 false
        else s1.setMove n { m1 with state := .copying }
      | c => s1.migrRefuse n c .idle

/-- Whether a TPA still maps as RELEASE must not, or does not map as it must (R209). -/
def Move.stale (m : Move) (leaf : Option (Nat × Nat)) : Bool :=
  match leaf with
  | none => m.kind == mkLocal
  | some (level, pga) =>
    if m.kind = mkLocal then !(sizeCode level = m.size && pga = m.destPga.toNat)
    else spansMeet pga (2 ^ pageBits level) m.srcPga m.bytes

/-- RELEASE after its walk: the override is dropped and the cached leaves of the frame removed, unless the map is stale (R209). -/
def State.releaseWalked (s : State) (n : Nat) (leaf : Option (Nat × Nat)) : State :=
  let m := { s.move n with walking := false }
  if m.stale leaf then (s.setMove n m).migrRefuse n 0xC .done
  else
    { s with tc := s.tc.filter (fun l => l.remote || !spansMeet l.pga (2 ^ sizeBits l.size) m.srcPga m.bytes) }.setMove n { m with state := .idle }

/-- Check 9 at the destination: its tables map the TPA to DEST_PGA by a page of the size, in one region of the tenant that is Translated
and neither Compute nor mirrored, with the tenant's key loaded where it is Sealed. -/
def State.destMaps (s : State) (leaf : Option (Nat × Nat)) (tid size pga : Nat) : Bool :=
  let len := if size = 0 then 0x10000 else 0x200000
  leaf == some (3 - size, pga) && pgaNid pga == s.nid && (match s.frameRegion pga len with
    | some r => s.rgn s.openEpoch TEN_R_TID r == tid && !s.attr s.openEpoch TEN_R_LAYOUT r && !s.attr s.openEpoch TEN_R_MIRROR r &&
        s.attr s.openEpoch TEN_R_ACCESS r && s.keyOk s.openEpoch r
    | none => false)

/-- An answer to the MIGR_START that a walk carries. -/
def State.startAnswer (s : State) (w : Req) (status v : Nat) : State :=
  s.send w.port (mkSysRsp w.aid w.as1 s.nid w.txid status v) 0 0

/-- MIGR_START after the destination's walk (R203, R207). How the destination learns the source's line addresses, which it
takes as tweaks, the manual does not say: their base is a free value (assumption 40). -/
def State.startWalked (s : State) (w : Req) (leaf : Option (Nat × Nat)) : State :=
  if !s.destMaps leaf w.val w.passes w.pga then s.startAnswer w stDenied 9
  else match (List.range 16).find? (fun n => (s.move n).state == .idle) with
    | none => s.startAnswer w stDenied 0xA
    | some n =>
      let (v, s1) := s.free
      let x : Move := { Move.fresh with
        kind := mkNode, tid := w.val, tpa := BitVec.ofNat 64 w.addr, destPga := BitVec.ofNat 64 w.pga, state := .incoming,
        reason := (s.move n).reason, size := w.passes, peer := w.aid, remoteMid := w.mid, srcPga := bits v.toNat 0 43 / 64 * 64,
        region := (s.regionOf s.openEpoch (pgaOff w.pga)).getD 0, progress := s.ao, port := w.port }
      (s1.setMove n x).startAnswer w stOK 0

/-- The end of a walk of MIGR: the page leaf that the TPA ends at, with its level, if it ends at one. -/
def State.migrWalked (s : State) (w : Req) (leaf : Option (Nat × Nat)) : State :=
  if w.gen = mwGo then s.goWalked w.mid leaf
  else if w.gen = mwRelease then s.releaseWalked w.mid leaf
  else s.startWalked w leaf

/-- One walk read of MIGR, ordered at the home (R193); a table address outside a Managed, Uncached region of TID 0 ends the walk
(R190). -/
def State.migrTable (s : State) (w : Req) (level base : Nat) : State :=
  let a := tentAddr level base w.addr
  match s.tableRegion w.epoch a with
  | none => s.migrWalked w none
  | some n =>
    let i : Req := { w with id := s.nextId, off := a / 64 * 64, region := n, wait := level, place := .home, ordered := false }
    ({ s with reqs := s.reqs ++ [i], nextId := s.nextId + 1 }.bump XLAT_WALK_READS).homeArrive i.id

/-- A walk of MIGR begun in the open epoch. -/
def State.migrWalkGo (s : State) (w : Req) : State :=
  if w.addr / 2 ^ 48 ≠ 0 || s.rd XLAT_ROOT_XEN 0 w.val = 0 then s.migrWalked w none
  else s.migrTable w 1 (s.rd XLAT_ROOT_BASE 0 w.val)

/-- A walk read of MIGR returned: the entry ends the walk or names the next table. A walk that an invalidation has overtaken begins again
(R198). -/
def State.migrWalkData (s : State) (w : Req) (d : BitVec 512) (bad : Bool) : State :=
  let level := w.wait % 4
  let idx := (if level = 1 then bits w.addr 30 18 else if level = 2 then bits w.addr 21 9 else bits w.addr 16 5) % 8
  if w.grant = walkStale then s.migrWalkGo { w with grant := 0, epoch := s.openEpoch }
  else match (if bad then TEnt.error else decodeTEnt level (bits d.toNat (64 * idx) 64)) with
  | .page pga _ => s.migrWalked w (some (level, pga))
  | .table next => s.migrTable w (level + 1) next
  | _ => s.migrWalked w none

/-! ### Commands -/

/-- CMD GO: the walk of the TPA begins. -/
def State.migrGo (s : State) : State :=
  let n := s.rd MIGR_MOVE_SEL
  let m := s.move n
  if m.state != .idle then s.cfgErr pgMIGR 0 0x11C
  else (s.setMove n { m with state := .starting, walking := true }).migrWalkGo (s.migrWalker mwGo n m.tid m.tpa.toNat)

/-- GO. -/
def execGo (s : State) : Host.Outcome State Fault Refusal := s.onBlk pgMIGR <| .next (s.use [pgMIGR]).migrGo

/-- CMD RESUME, of a stuck move at its source (R210). -/
def State.migrResume (s : State) : State :=
  let n := s.rd MIGR_MOVE_SEL
  let m := s.move n
  if m.state == .stuck then (s.setMove n { m with resuming := true, progress := s.ao }).migrStartSend n m true
  else s.cfgErr pgMIGR 0 0x11C

/-- RESUME. -/
def execResume (s : State) : Host.Outcome State Fault Refusal := s.onBlk pgMIGR <| .next (s.use [pgMIGR]).migrResume

/-- CMD ABANDON, of a stuck move: at the source every line below ISSUED is written back poisoned and the override dropped;
at the destination the slot is dropped (R210). -/
def State.migrAbandon (s : State) : State :=
  let n := s.rd MIGR_MOVE_SEL
  let m := s.move n
  match m.state with
  | .stuck =>
    let s1 := (List.range m.issued).foldl (fun (s : State) i => s.poisonLine (pgaOff m.srcPga + 64 * i) m.region 0 0) s
    s1.setMove n { m with state := .idle, buf := [], resuming := false }
  | .stuckIn => s.setMove n { m with state := .idle }
  | _ => s.cfgErr pgMIGR 0 0x11C

/-- ABANDON. -/
def execAbandon (s : State) : Host.Outcome State Fault Refusal := s.onBlk pgMIGR <| .next (s.use [pgMIGR]).migrAbandon

/-- CMD RELEASE, of a move that is done: the walk of the TPA begins (R209). -/
def State.migrRelease (s : State) : State :=
  let n := s.rd MIGR_MOVE_SEL
  let m := s.move n
  if m.state != .done || m.walking then s.cfgErr pgMIGR 0 0x11C
  else (s.setMove n { m with walking := true }).migrWalkGo (s.migrWalker mwRelease n m.tid m.tpa.toNat)

/-- RELEASE. -/
def execRelease (s : State) : Host.Outcome State Fault Refusal := s.onBlk pgMIGR <| .next (s.use [pgMIGR]).useXlat.migrRelease

/-! ### Line transactions (R204, R205) -/

/-- MIGR_LINE_TXN: the next line transaction, while the window has room. -/
def execMigrLineTxn (mid : Fin 16) (s : State) : Host.Outcome State Fault Refusal := s.onBlk pgMIGR <|
  let n := mid.val
  let m := s.move n
  if m.state == .copying && m.issued < m.lines && m.issued - m.doneL < s.rd MIGR_WINDOW then
    let s1 := (s.use [pgMIGR]).setMove n { m with issued := m.issued + 1 }
    .next ((s1.queueIntern .migr 0 0 (pgaOff m.srcPga / 64 + m.issued) m.region).updReq s1.nextId (fun r => { r with mid := n, txid := m.issued }))
  else .next s

/-- A move's line stored at a home of this node as a WR_FULL would be (R208). -/
def State.migrStore (s : State) (n i off : Nat) (d : BitVec 512) (poison : Bool) : State :=
  let r : Req := { Req.blank with
    id := s.nextId, op := .migrStore, intern := true, off := off, region := (s.regionOf s.openEpoch off).getD 0, epoch := s.openEpoch, mid := n,
    txid := i, data := d, psn := poison, place := .home }
  ({ s with reqs := s.reqs ++ [r], nextId := s.nextId + 1 }).homeArrive r.id

/-- The lines read that are next in order are sent. -/
def migrFlush (n : Nat) : Nat → State → State
  | 0, s => s
  | fuel + 1, s =>
    let m := s.move n
    match m.buf.find? (fun x => x.1 == m.sent) with
    | none => s
    | some (i, d, poison, gen) =>
      let s1 := s.setMove n { m with sent := m.sent + 1, buf := m.buf.filter (fun x => x.1 != i) }
      migrFlush n fuel (s1.migrSend m.peer (mkNodeMsg 0xA1 s.nid m.peer 0 [(45, 4, n), (49, 16, i), (65, 8, m.tid), (75, 1, b2n poison),
        (77, 1, b2n gen.isSome), (80, 16, gen.getD 0)] (lineSlots d)))

/-- The generation of a key of a tenant. -/
def State.genOf (s : State) (tid : Nat) (k : BitVec 512) : Nat :=
  match s.slotOf tid with
  | some n =>
    let x := s.slot n
    match x.old with
    | some (o, g) => if o = k then g else x.gen
    | none => x.gen
  | none => 0

/-- The line of a line transaction read (R204, R208): carried to the destination in order, or stored in the destination
frame. -/
def State.migrData (s : State) (r : Req) (d : BitVec 512) (poison : Bool) : State :=
  let s1 := (s.endTx r.la).endReq r.id
  let m := s1.move r.mid
  if m.state != .copying then s1
  else if m.kind = mkLocal then s1.migrStore r.mid r.txid (pgaOff m.destPga.toNat + 64 * r.txid) d poison
  else if r.txid < m.sent then s1
  else
    let line : Nat × BitVec 512 × Bool × Option Nat := match r.key with
      | some k => (r.txid, lineOf (xtsLine true k r.la (lineBytes d)), poison, some (s.genOf m.tid k))
      | none => (r.txid, d, poison, none)
    migrFlush r.mid 64 (s1.setMove r.mid { m with buf := m.buf.filter (fun x => x.1 != r.txid) ++ [line] })

/-! ### The destination -/

/-- The incoming move of a peer's MID. -/
def State.incomingOf (s : State) (nid mid : Nat) : Option (Nat × Move) :=
  s.moves.find? (fun p => p.2.incoming && p.2.peer == nid && p.2.remoteMid == mid)

/-- MIGR_ACK of an incoming move. -/
def State.migrAckSend (s : State) (n : Nat) : State :=
  let m := s.move n
  (s.setMove n { m with acked := m.doneL }).migrSend m.peer (mkNodeMsg 0xA2 s.nid m.peer 0 [(45, 4, m.remoteMid), (49, 16, m.doneL)])

/-- A store of a move accepted by its queue. -/
def State.migrStored (s : State) (r : Req) : State :=
  let s1 := (s.endTx r.la).endReq r.id
  let m := s1.move r.mid
  let mine := r.off = pgaOff m.destPga.toNat + 64 * r.txid && (m.incoming || (m.kind = mkLocal && m.state == .copying))
  if !mine then s1
  else
    let m1 := m.finish r.txid
    let s2 := (s1.setMove r.mid { m1 with progress := if m1.doneL = m.doneL then m.progress else s.ao }).bump MIGR_LINES_MOVED
    if m.incoming then (if m1.doneL ≥ m.acked + 8 || m1.doneL = m.lines then s2.migrAckSend r.mid else s2)
    else (s2.migrComplete r.mid).releaseHeld r.mid

/-- A MIGR message in: the state with it taken and counted, if it may act. -/
def State.migrIn (s : State) (p opc : Nat) (m : Msg) : Option (State × Bool) :=
  (s.portIn p clsSys opc m).map (fun x => (if x.2 then (x.1.count 0 0 0 (1 + m.data.length)).use [pgMIGR] else x.1, x.2))

/-- MIGR_START at the destination (R203, R207, R210): the walk of the TPA begins, with what its answer needs. A RESUME is answered with
RECEIVED, from which the lines will come again; one of a move that is not known is not answered. -/
def State.migrStartIn (s : State) (p : Nat) (m : Msg) : State :=
  let w : Req := { s.migrWalker mwStart (m.f 45 4) (m.f 65 8) (bits m.payload 0 64) with
    port := p, aid := m.srcNid, as1 := m.sySnode, txid := m.syTxid, passes := m.f 73 2, pga := bits m.payload 64 64 }
  if m.f 76 1 = 1 then
    match s.incomingOf m.srcNid (m.f 45 4) with
    | some (n, x) => (s.setMove n { x with state := .incoming, issued := x.doneL, progress := s.ao }).startAnswer w stOK x.doneL
    | none => s
  else s.migrWalkGo w

/-- MIGR_START. -/
def execMigrStart (port : Fin 16) (m : Msg) (s : State) : Host.Outcome State Fault Refusal := s.onBlk (pgFPORT port.val) <|
  match s.migrIn port.val 0xA0 m with
  | none => .next s
  | some (s1, false) => .next s1
  | some (s1, true) => .next (s1.migrStartIn port.val m)

/-- The key of a generation that a tenant's slot holds, current or old. -/
def State.keyOfGen (s : State) (tid gen : Nat) : Option (BitVec 512) :=
  match s.slotOf tid with
  | some n =>
    let x := s.slot n
    if x.gen = gen then some x.cur else (x.old.filter (fun o => o.2 == gen)).map (fun o => o.1)
  | none => none

/-- MIGR_LINE at the destination: the next expected line is stored, any other discarded (R208). -/
def State.migrLineIn (s : State) (m : Msg) : State :=
  match s.incomingOf m.srcNid (m.f 45 4) with
  | none => s
  | some (n, x) =>
    let i := m.f 49 16
    if x.state != .incoming || i ≠ x.issued then s
    else
      let s1 := s.setMove n { x with issued := i + 1 }
      let off := pgaOff x.destPga.toNat + 64 * i
      if m.f 77 1 = 0 then s1.migrStore n i off m.line (m.f 75 1 == 1)
      else match s.keyOfGen x.tid (m.f 80 16) with
        | some k => s1.migrStore n i off (lineOf (xtsLine false k (x.srcPga / 64 + i) (lineBytes m.line))) (m.f 75 1 == 1)
        | none => (s1.bump MIGR_KEY_MISS).migrStore n i off m.line true

/-- MIGR_LINE. -/
def execMigrLine (port : Fin 16) (m : Msg) (s : State) : Host.Outcome State Fault Refusal := s.onBlk (pgFPORT port.val) <|
  match s.migrIn port.val 0xA1 m with
  | none => .next s
  | some (s1, false) => .next s1
  | some (s1, true) => .next (s1.migrLineIn m)

/-- Whether a message is of the move that a slot carries to a peer. -/
def Move.sourceOf (m : Move) (nid : Nat) : Bool := m.kind == mkNode && m.peer == nid && !m.incoming

/-- DONE advanced by an acknowledgement (R206, R209). -/
def State.migrAdvance (s : State) (n d : Nat) : State :=
  let m := s.move n
  if m.state == .copying && m.doneL < d && d ≤ m.issued then
    let s1 := (s.setMove n { m with doneL := d, progress := s.ao }).bumpBy MIGR_LINES_MOVED (d - m.doneL)
    (s1.migrComplete n).releaseHeld n
  else s

/-- MIGR_ACK. -/
def execMigrAck (port : Fin 16) (m : Msg) (s : State) : Host.Outcome State Fault Refusal := s.onBlk (pgFPORT port.val) <|
  match s.migrIn port.val 0xA2 m with
  | none => .next s
  | some (s1, false) => .next s1
  | some (s1, true) =>
    let n := m.f 45 4
    .next (if (s1.move n).sourceOf m.srcNid then s1.migrAdvance n (m.f 49 16) else s1)

/-- MIGR_DONE: the destination's slot is free (R209). -/
def execMigrDone (port : Fin 16) (m : Msg) (s : State) : Host.Outcome State Fault Refusal := s.onBlk (pgFPORT port.val) <|
  match s.migrIn port.val 0xA3 m with
  | none => .next s
  | some (s1, false) => .next s1
  | some (s1, true) =>
    let s2 := match s1.incomingOf m.srcNid (m.f 45 4) with
      | some (n, x) => s1.setMove n { x with state := .idle }
      | none => s1
    .next (s2.sysAnswer port.val m stOK 0)

/-- A move that the destination refuses, or does not answer: nothing but STATE and REASON changes (R203). -/
def State.migrTurned (s : State) (n code : Nat) : State :=
  let m := s.move n
  (s.setMove n { m with
    srcPga := m.prior[0]?.getD 0, size := m.prior[1]?.getD 0, peer := m.prior[2]?.getD 0, doneL := m.prior[3]?.getD 0,
    issued := m.prior[4]?.getD 0 }).migrRefuse n code .idle

/-- A SYS_RSP to a MIGR message of this node: TXID 2n answers MIGR_START of move n, 2n + 1 MIGR_DONE (Table 8-10). -/
def State.migrRsp (s : State) (nid txid status rdata : Nat) : State :=
  let n := txid / 2
  let m := s.move n
  if txid % 2 = 1 || !m.sourceOf nid then s
  else
    let d := rdata % 2 ^ 17
    match m.state with
    | .starting =>
      if status = stOK then s.setMove n { m with state := .copying, doneL := d, issued := d, sent := d, progress := s.ao }
      else s.migrTurned n (rdata % 16)
    | .stuck =>
      if !m.resuming then s
      else if status = stOK then
        ((s.setMove n { m with state := .copying, doneL := d, issued := d, sent := d, buf := [], resuming := false, progress := s.ao }).bumpBy
          MIGR_LINES_MOVED (d - m.doneL)).migrComplete n
      else s.setMove n { m with reason := rdata % 16, resuming := false }
    | _ => s

/-- MIGR_ACK_TIMER: what is stored and not acknowledged is acknowledged. -/
def execMigrAckTimer (mid : Fin 16) (s : State) : Host.Outcome State Fault Refusal := s.onBlk pgMIGR <|
  let m := s.move mid.val
  if m.incoming && m.acked < m.doneL then .next (s.migrAckSend mid.val) else .next s

/-- A move stuck: reported once (R210). -/
def State.migrStuck (s : State) (n : Nat) (state : MState) : State :=
  let m := s.move n
  ((s.setMove n { m with state := state }).raise pgMIGR I_MIGR_MOVE_STUCK).crumb pgMIGR 0x302 2 [packBits [(0, 4, n), (8, 3, 3)], m.peer]

/-- MOVE_TIMEOUT: MIGR_TIMEOUT without progress, or without an answer to MIGR_START. -/
def execMoveTimeout (mid : Fin 16) (s : State) : Host.Outcome State Fault Refusal := s.onBlk pgMIGR <|
  let n := mid.val
  let m := s.move n
  if s.ao < m.progress + s.rd MIGR_MIGR_TIMEOUT then .next s
  else match m.state with
    | .starting => .next (if m.walking then s else s.migrTurned n 0xB)
    | .stuck => .next (if m.resuming then s.setMove n { m with reason := 0xB, resuming := false } else s)
    | .copying => .next (if m.kind = mkNode then (s.migrStuck n .stuck).releaseHeld n else s)
    | .incoming => .next (s.migrStuck n .stuckIn)
    | _ => .next s

end Sys2Proof.Machine
end

