-- ==== Sys2Proof/Machine/Accept.lean ====
section
/-! DEFINITION. Acceptance of entries by the sub-channel queues (R240), and what a write's observation point ends (R24,
R361): the requests it answers, the mirror's line, and what RDL and the stale tables record (R268, R297, R299). -/
namespace Sys2Proof.Machine

open Reg

/-! ### Writes past their observation point -/

/-- A Bake's row copies, the last of them acknowledged (R368). -/
def State.rowCopyDone (s : State) (bid : Nat) : State :=
  if s.reqs.any (fun r => r.op == .resync && r.gen == 2 && r.mid == bid) then s
  else match s.bake bid with
    | none => s
    | some b =>
      let s1 := { s with twin := { s.twin with
        bakes := s.twin.bakes.map (fun (t : TwBake) => if t.bid == some bid then { t with copies := true } else t) } }
      (s1.bump TWIN_ROW_COPIES).crumb pgTWIN 0x606 1 [packBits [(0, 8, b.tid), (8, 16, b.btag)], b.len]

/-- TW_ACK to the holder (R360): the last TSEQ applied in order whose line, if it is one, a queue has accepted (R361). -/
def State.twAckSend (s : State) : State :=
  let t := s.twin
  let n := match t.accepting.head? with
    | some k => (k + 2 ^ 24 - 1) % 2 ^ 24
    | none => t.applied
  if n = t.ackSent || !(t.turn = tuStandby || t.turn = tuJoining) then s
  else { s with twin := { t with ackSent := n, sinceAck := 0 } }.twSend (mkNodeMsg 0x92 s.nid (s.rd TWIN_PARTNER_NID) 0 [(45, 24, n)]) 0 0

/-- A line of the stream accepted by its queue. -/
def State.twStored (s : State) (tseq : Nat) : State :=
  let t := s.twin
  let s1 := { s with twin := { t with accepting := t.accepting.filter (fun n => n != tseq) } }
  if t.sinceAck ≥ 8 then s1.twAckSend else s1

/-- The data of a snoop answer has reached both queues: the transaction that stored it may end (R361). -/
def State.answerStored (s : State) (slot la : Nat) : State :=
  match s.trks.find? (fun t => t.slot == slot && t.la == la && t.stores != 0) with
  | some t => (s.answered { t with stores := t.stores - 1 }).settleEnd la
  | none => s

/-- A masked write of the node: its transaction ends, and what it was for goes on (R339, R348, R349). -/
def State.nodeWritten (s : State) (r : Req) : State :=
  let s1 := (s.endTx r.la).endReq r.id
  if r.gen = wkStatus then s1.bakeDone r.mid
  else if r.gen = wkReport then s1.loadDone r.mid r.val
  else s1

/-- A write of a request past its global observation point: its transaction ends and its completion is sent (R24, R130). -/
def State.writeDone (s : State) (rid : Nat) : State :=
  match s.req rid with
  | none => s
  | some r =>
    match r.op with
    | .migrStore => s.migrStored r
    | .rekey => s.rekeyDone r
    | .resync => if r.gen = rsStore then (s.endReq rid).twStored r.mid
      else if r.gen = rsAnswer then (s.endReq rid).answerStored r.mid r.la
      else ((s.endTx r.la).endReq rid).rowCopyDone r.mid
    | .wrPtl => if r.intern then s.nodeWritten r else (s.endTx r.la).finish rid r.val 0 none
    | _ => if r.intern then (s.endTx r.la).endReq rid else (s.endTx r.la).finish rid stOK 0 none

/-! ### The mirror (R361) -/

/-- Kinds of TW_LINE (Table 15-2). -/
def twWrite : Nat := 0
def twRekey : Nat := 1
def twCopy : Nat := 2
def twResync : Nat := 3

/-- A line sent to the partner as its queue stores it; a request that it belongs to waits for the acknowledgement. -/
def State.twLineSend (s : State) (off : Nat) (stored : BitVec 512) (poison : Bool) (kind tid job : Nat) (rid : Option Nat) : State :=
  let (n, s1) := s.twSeq 0x90 [(69, 37, off / 64), (106, 1, b2n poison), (107, 2, kind)] (lineSlots stored) tid job
  let s2 := s1.bump TWIN_LINES_SENT
  match rid with
  | some i => { s2 with twin := { s2.twin with writes := s2.twin.writes ++ [(n, i)] } }.updReq i (fun r => { r with place := .mirror })
  | none => s2

/-! ### Codewords -/

/-- A line through CRYPT, counted where it has a key (Table 16-4). -/
def cryptLine (enc : Bool) (key : Option (BitVec 512)) (off : Nat) (d : BitVec 512) : BitVec 512 :=
  match key with
  | some k => lineOf (xtsLine enc k (off / 64) (lineBytes d))
  | none => d

def State.cryptCount (s : State) (key : Option (BitVec 512)) (tid job : Nat) : State :=
  if key.isSome then (s.count 10 tid job 1).use [pgCRYPT] else s

/-- The codeword of a stored line. -/
def wordOf (stored : BitVec 512) (poison : Bool) : List Byte := lcEncode (lineBytes stored) (m0Of poison) 0

/-! ### Acceptance (R240) -/

/-- Whether an entry is a Refresh. -/
def Entry.isRefresh (e : Entry) : Bool := match e.kind with
  | .refresh => true
  | _ => false

/-- The waiting entry that a free place goes to: a Refresh first, then the one that has been ready longest. -/
def Queue.nextWaiting (c : Queue) : Option Entry :=
  match c.waiting.find? Entry.isRefresh with
  | some e => some e
  | none => minBy (fun e => e.ready) c.waiting

/-- Whether an entry addresses one row of a stack, which retirement redirects. -/
def Entry.hasRow (e : Entry) : Bool := match e.kind with
  | .refresh | .status | .retrain | .segClear _ | .power _ => false
  | _ => true

/-- The time of the AO tick in mc: a tick is 640 ns, 768 mc (Table 0-5). -/
def State.mcNow (s : State) : Nat := s.ao * 768

/-- The subarray that a row selector of a retired subarray goes to: a data row as its copy has been accepted or not, the scratch and
constant rows to the spare as soon as any row is there (R280). -/
def redirSel (l : List (Nat × Nat × Nat × Nat)) (bank sa vr : Nat) : Nat :=
  match l.find? (fun e => e.1 == bank && e.2.1 == sa) with
  | some e => if (if vr < 512 then decide (vr < e.2.2.2) else e.2.2.2 != 0) then e.2.2.1 else sa
  | none => sa

/-- A command of a group after redirection (R280). -/
def Cmd.redir (l : List (Nat × Nat × Nat × Nat)) : Cmd → Cmd
  | .vact b sa vr => .vact b (redirSel l b sa vr) vr
  | .vaa b sa vr => .vaa b (redirSel l b sa vr) vr
  | .vtra b sa x y z => .vtra b (redirSel l b sa 0x200) x y z
  | c => c

/-- An entry as its queue takes it: with the redirections in force (R280), whether its row is stale and with which mask. -/
def State.settleEntry (s : State) (q : Nat) (e : Entry) : Entry :=
  let red := s.redirFor q
  let row := match e.kind with
    | .copy _ => e.srow
    | _ => if e.hasRow then redirect red e.bank e.srow else e.row
  let st := s.staleMask q e.bank e.srow
  let own := match e.kind with
    | .reencode => e.bake.isSome
    | _ => false
  { e with
    kind := match e.kind with
      | .group rce ci cmds => .group rce ci (cmds.map (Cmd.redir red))
      | k => k
    row := row, redir := red, ready := s.mcNow, phase := 0,
    stale := if own then true else e.hasRow && st.isSome, mask := if own then e.mask else st.getD 0 }

/-- Entries appended to a queue, and the depth sampled. -/
def State.pushEntries (s : State) (q : Nat) (es : List Entry) : State :=
  let c := s.queue q
  let l := c.entries ++ es
  (s.setQueue q { c with entries := l }).sample (pgMCH (q / 2)) (q % 2) l.length

/-- A write accepted: its codeword, what the lists record, and its observation point or the mirror's line. -/
def State.acceptWrite (s : State) (q : Nat) (e : Entry) : State :=
  let stored := cryptLine true e.key e.off e.data
  let s1 := (s.pushEntries q [{ e with words := [wordOf stored e.poison] }]).cryptCount e.key e.tid e.job
  let s2 := (s1.prlLine q e.bank e.srow e.col e.poison).staleWrite q e.bank e.srow e.col e.poison
  let op := (e.req.bind s.req).map (fun r => r.op)
  if e.mirror then s2.twLineSend e.off stored e.poison (if op = some .rekey then twRekey else twWrite) e.tid e.job e.req
  else match e.req with
    | some rid => s2.writeDone rid
    | none => s2

/-- A line that an entry will surely leave poisoned, recorded when the entry is accepted (R268, R297). -/
def State.willPoison (s : State) (q : Nat) (e : Entry) : State := (s.prlLine q e.bank e.srow e.col true).staleWrite q e.bank e.srow e.col true

/-- A masked write accepted: a mirrored one ends with its line's acknowledgement, an agent's with the outcome of its read
(R111). One with PSN poisons its line. -/
def State.acceptMerge (s : State) (q : Nat) (e : Entry) (rid : Nat) : State :=
  let s0 := s.pushEntries q [e]
  let s1 := if e.poison && e.be != 0 then s0.willPoison q e else s0
  if e.mirror then s1
  else match s1.req rid with
    | some r => if r.intern then s1.writeDone rid else s1.endTx r.la
    | none => s1

/-- A row of free values: what a scratch row holds that a Bake reads before it writes it (R289; assumption 3). -/
def freeRow : Nat → State → Memory → Memory × State
  | 0, s, m => (m, s)
  | n + 1, s, m =>
    let (v, s1) := s.free
    freeRow n s1 (Memory.writeN m (64 * n) (lineBytes v))

/-- The scratch and negation rows that a group reads before the Bake has written them. -/
def unwritten (b : Bake) (k : Nat) (cmds : List Cmd) : List Nat :=
  let has := fun (vr : Nat) => match scratchOf vr with
    | some i => b.scr.any (fun x => x.1 == k * 8 + i)
    | none => false
  (cmds.foldl (fun (a : List Nat × List Nat × Bool) c =>
    let rd := match c with
      | .vact _ _ vr => if 0x200 ≤ vr && vr ≤ 0x207 then [vr] else if vr = 0x20A || vr = 0x20B then [0x20A] else []
      | .vtra _ _ x y z => [0x200 + x, 0x200 + y, 0x200 + z]
      | _ => []
    let wr := match c with
      | .vaa _ _ vr => if a.2.2 && vrKnown vr then [vrRow vr] else []
      | .vtra _ _ x y z => [0x200 + x, 0x200 + y, 0x200 + z]
      | _ => []
    let isOpen := match c with
      | .vact _ _ vr => vrKnown vr || a.2.2
      | .vtra _ _ _ _ _ => true
      | .pre _ => false
      | _ => a.2.2
    (a.1 ++ rd.filter (fun vr => !a.2.1.contains vr && !has vr && !a.1.contains vr), a.2.1 ++ wr, isOpen)) ([], [], false)).1

/-- A group accepted with the re-encodes that follow it, or refused with LAYOUT (R244, R299). It waits while the queue has
no room for them all. -/
def State.acceptGroupEntry (s : State) (q : Nat) (e : Entry) (rce ci : Nat) (cmds : List Cmd) : State :=
  match e.bake.bind s.bake with
  | none => s
  | some b =>
    let c := s.queue q
    let drop : State → State := fun s => let c := s.queue q; s.setQueue q { c with waiting := dropFirst (fun x => x.ready == e.ready && x.kind == e.kind) c.waiting }
    match s.acceptGroup b q e cmds with
    | none => ((drop s).layoutFault b rce ci).freeCtxs
    | some (s1, re) =>
      if c.entries.length + 1 + re.length > 64 then s
      else
        let s2 := (unwritten b (saKey q e.bank (e.srow / 512)) cmds).foldl (fun (s : State) vr =>
          let (r, s3) := freeRow 160 s []
          { s3 with dram := rowPut s3.dram q e.bank (redirSel (s3.redirFor q) e.bank (e.srow / 512) vr) vr r }) (drop s1)
        let g := s2.settleEntry q e
        s2.pushEntries q (g :: re.map (fun x => s2.settleEntry q x))

/-- A read set aside for its data: the line's transaction of a request ends when its read is accepted, and the next request
of the line is ordered behind it (R21, R241). Reads whose data goes on to another transaction keep theirs, and so does a read for which
a tracker still awaits an answer (R141). -/
def State.acceptRead (s : State) (q : Nat) (e : Entry) (why : ReadFor) : State :=
  let s1 := s.pushEntries q [e]
  match why with
  | .req rid => match s1.req rid with
    | some r =>
      if r.op == .rekey || r.op == .migr || r.op == .resync || s1.trks.any (fun t => t.req == rid) then s1 else s1.endTx r.la
    | none => s1
  | _ => s1

/-- A copy entry accepted: its row is at the spare from now on (R280). -/
def State.acceptCopy (s : State) (q i : Nat) (e : Entry) : State :=
  let s1 := s.pushEntries q [e]
  match Tab.get? s1.ras.rmap i with
  | some x => { s1 with ras := { s1.ras with rmap := Tab.set s1.ras.rmap i { x with copied := x.copied + 1 } } }
  | none => s1

/-- An entry taken from those that wait. -/
def State.acceptEntry (s : State) (q : Nat) (e : Entry) : State :=
  match e.kind with
  | .group rce ci cmds => s.acceptGroupEntry q e rce ci cmds
  | k =>
    let c := s.queue q
    let s1 := s.setQueue q { c with waiting := dropFirst (fun x => x.ready == e.ready && x.kind == e.kind) c.waiting }
    let x := s1.settleEntry q e
    match k with
    | .read why => s1.acceptRead q x why
    | .write => s1.acceptWrite q x
    | .merge rid => s1.acceptMerge q x rid
    | .copy i => s1.acceptCopy q i x
    | .reencode => if x.stale then (s1.pushEntries q [x]).setPrl (rowNo q x.bank x.srow) x.mask else s1.pushEntries q [x]
    | .poisonize => (s1.pushEntries q [x]).willPoison q x
    | .segClear seg => (s1.pushEntries q [x]).prlClear q seg
    | _ => s1.pushEntries q [x]

/-- The blocks beside the MCH that will handle an entry, which its acceptance hints to wake (R432): RDL for one of a lane job, RAS for
a patrol's, a copy's or a re-encode's. -/
def Entry.handlers (e : Entry) : List Nat :=
  (if e.lane.isSome then [pgRDL] else []) ++
    (match e.kind with
     | .scrub _ | .copy _ | .reencode | .poisonize | .segClear _ => [pgRAS]
     | _ => [])

/-- QUEUE_ACCEPT: a queue with room takes an entry that waits for it. -/
def execQueueAccept (q : Fin 96) (s : State) : Host.Outcome State Fault Refusal := s.onBlk (pgMCH (q.val / 2)) <|
  let c := s.queue q.val
  if c.entries.length < 64 then
    match c.nextWaiting with
    | some e => .next (((s.use [pgMCH (q.val / 2)]).hint e.handlers).acceptEntry q.val e)
    | none => .next s
  else .next s

end Sys2Proof.Machine
end

