-- ==== Sys2Proof/Machine/Meter.lean ====
section
/-! DEFINITION. METER: the Meter Link as the node drives it (R389 to R393), intervals and Tallies (R394 to R396), jobs on the
link (R102 to R104, R397, R398, R407, R408), the Proof ring (R399), and verification (R400 to R405). -/
namespace Sys2Proof.Machine

open Reg

/-! ### Frames -/

/-- Frame types (Table 16-3). -/
def fyNull : Nat := 0x00
def fyHello : Nat := 0x01
def fyTallyRec : Nat := 0x02
def fyTallyEnd : Nat := 0x03
def fyJobOpen : Nat := 0x04
def fyJobClose : Nat := 0x05
def fyShutdown : Nat := 0x06
def fyProofAck : Nat := 0x07

/-- A number as n little-endian body bytes. -/
def body (n x : Nat) : List Nat := toNats (leBytes n x)

/-- The key of a job in the counts. -/
def jobKey (tid job : Nat) : Nat := tid * 2 ^ 20 + job

/-- No counts. -/
def noCounts : List Nat := List.replicate 11 0

/-- Two lists of counts added class by class. -/
def addCounts (a b : List Nat) : List Nat := a.zipWith (· + ·) b

/-- The mask of the non-zero classes (Table 16-4). -/
def countMask (c : List Nat) : Nat := packBits ((List.range 11).map (fun i => (i, 1, b2n ((c)[i]?.getD 0 != 0))))

/-- The non-zero counts of a list, each as n bytes, saturating. -/
def countBytes (n : Nat) (c : List Nat) : List Nat := (c.filter (· != 0)).flatMap (fun x => body n (min x (2 ^ (8 * n) - 1)))

/-- The bytes of a record (Table 16-4). -/
def recBytes (k : Nat) (c : List Nat) : List Nat :=
  body 4 (packBits [(0, 8, k / 2 ^ 20), (8, 20, k)]) ++ body 4 (countMask c) ++ countBytes 4 c

/-- The frames at the front of a list of waiting ones sent, while fewer than 32 are unacknowledged (R391). -/
def State.meterSend (s : State) (ty : Nat) (b : List Nat) : State :=
  let m := s.meter
  let n := (m.txSeq + 1) % 65536
  { s with meter := { m with txSeq := n, unacked := m.unacked ++ [(n, ty, b)], nak := false, ackDue := false } }.out (.frame ty n m.rxSeq m.nak b)

/-- Whether another sequenced frame may go: the link is in sync and the window has room; only HELLO goes before IDENT. -/
def State.meterReady (s : State) (ty : Nat) : Bool :=
  s.meter.sync && decide (s.meter.unacked.length < 32) && (s.meter.ident || ty == fyHello)

/-- The records that fit into a body of 512 bytes after the interval number, and those left. -/
def fitRecs : Nat → Tab (List Nat) → Tab (List Nat) × Tab (List Nat)
  | _, [] => ([], [])
  | room, (k, c) :: t =>
    let n := 8 + (countBytes 4 c).length
    if n ≤ room then
      let (a, b) := fitRecs (room - n) t
      ((k, c) :: a, b)
    else ([], (k, c) :: t)

/-- BACKLOG after a change, sampled (Table 16-10). -/
def State.sampleBacklog (s : State) : State := s.sample pgMETER 0 s.meter.backlog.length

/-- JOBS_HELD after a change, sampled. -/
def State.sampleJobs (s : State) : State := s.sample pgMETER 1 s.jobs.length

/-- The place of a job. -/
def State.jobRec (s : State) (tid job : Nat) : Option JobRec := s.jobs.find? (fun j => j.tid == tid && j.job == job)

def State.updJob (s : State) (tid job : Nat) (f : JobRec → JobRec) : State :=
  { s with jobs := updFirst (fun j => j.tid == tid && j.job == job) f s.jobs }

/-- A place freed. -/
def State.dropJob (s : State) (tid job : Nat) : State :=
  { s with jobs := s.jobs.filter (fun j => !(j.tid == tid && j.job == job)) }.sampleJobs

/-- The body of JOB_CLOSE (Table 16-3). -/
def JobRec.closeBody (j : JobRec) : List Nat :=
  body 1 j.tid ++ body 3 j.job ++ body 4 j.last ++ body 2 (packBits [(0, 1, b2n j.disabled), (1, 1, b2n j.shutdown), (2, 1, b2n j.folded)]) ++
    body 2 (countMask j.unmet) ++ countBytes 8 j.unmet

/-- The JOB_CLOSE frame of a job. -/
def State.closeFrame (s : State) (k : Nat) : List (Nat × List Nat) :=
  match s.jobRec (k / 2 ^ 20) (k % 2 ^ 20) with
  | some j => [(fyJobClose, j.closeBody)]
  | none => []

/-- The body of TALLY_END. -/
def Interval.endBody (i : Interval) : List Nat :=
  body 4 i.num ++ body 4 i.count ++ body 2 (b2n i.folded) ++ body 2 (countMask i.totals) ++ countBytes 4 i.totals

/-- The SHUTDOWN frame of a hold-up shutdown, once nothing of it is left to send (R397). -/
def State.shutdownFrame (s : State) : State :=
  let m := s.meter
  if m.quitting && m.backlog.isEmpty && m.waiting.isEmpty && s.meterReady fyShutdown then
    { s with meter := { m with quitting := false } }.meterSend fyShutdown (body 4 m.num)
  else s

/-- Records noted as sent in their jobs. -/
def State.noteSent (s : State) (recs : Tab (List Nat)) : State :=
  { s with jobs := s.jobs.map (fun (j : JobRec) =>
      match Tab.get? recs (jobKey j.tid j.job) with
      | some c => { j with sent := addCounts j.sent c }
      | none => j) }

/-- One frame sent if one may go: the oldest waiting frame, else the next of the oldest closed interval (R395). -/
def State.meterStep (s : State) : State :=
  let m := s.meter
  match m.waiting with
  | (ty, b) :: t => if s.meterReady ty then { s with meter := { m with waiting := t } }.meterSend ty b else s
  | [] =>
    match m.backlog with
    | [] => s.shutdownFrame
    | i :: rest =>
      if !s.meterReady fyTallyRec then s
      else if i.recs.isEmpty then
        let s1 := { s with meter := { m with backlog := rest } }.meterSend fyTallyEnd i.endBody
        let fs := i.after.flatMap s.closeFrame
        { s1 with meter := { s1.meter with waiting := s1.meter.waiting ++ fs } }.sampleBacklog
      else
        let (a, b) := fitRecs 508 i.recs
        let s1 := { s with meter := { m with backlog := { i with recs := b } :: rest } }.noteSent a
        (s1.meterSend fyTallyRec (body 4 i.num ++ a.flatMap (fun p => recBytes p.1 p.2))).bumpBy METER_RECORDS_SENT a.length

/-- Frames sent until the window is full or nothing is left. -/
def State.meterPump (s : State) : State := (List.range 33).foldl (fun (s : State) _ => s.meterStep) s

/-- A frame that joins those to be sent. -/
def State.meterQueue (s : State) (ty : Nat) (b : List Nat) : State :=
  { s with meter := { s.meter with waiting := s.meter.waiting ++ [(ty, b)] } }.meterPump

/-- Every unacknowledged frame sent again, from ACK + 1 (R391). -/
def State.meterResend (s : State) : State :=
  let m := s.meter
  let s1 := m.unacked.foldl (fun (s : State) f => s.out (.frame f.2.1 f.1 m.rxSeq m.nak f.2.2)) s
  { s1 with meter := { m with nak := false, ackDue := false } }.bump METER_RESENDS

/-! ### Jobs (R102 to R104) -/

/-- A job that ends without a Proof (R408): its place is free and a JOB_UNPROVEN Crumb is written. -/
def State.unproven (s : State) (tid job : Nat) : State :=
  (s.dropJob tid job).crumb pgMETER 0x705 1 [packBits [(0, 8, tid), (8, 20, job)]]

/-- Whether METER is VERIFIED. -/
def msVerified : Nat := 3
def State.verified (s : State) : Bool := s.rd METER_MSTATE == msVerified

/-- The JOB_CLOSE of a job put behind the TALLY_END of the last interval that holds a count of it (R397). -/
def State.scheduleClose (s : State) (j : JobRec) : State :=
  let k := jobKey j.tid j.job
  let m := s.meter
  if (Tab.get? s.tally k).isSome then { s with meter := { m with after := m.after ++ [k] } }
  else if m.backlog.any (fun i => i.num == j.last) then
    { s with meter := { m with backlog := updFirst (fun i => i.num == j.last) (fun i => { i with after := i.after ++ [k] }) m.backlog } }
  else s.meterQueue fyJobClose j.closeBody

/-- A job's close takes effect (R104, R397, R408). -/
def State.closeJob (s : State) (j : JobRec) : State :=
  let s1 := match j.closer with
    | some rid => s.finish rid stOK 0 none
    | none => s
  if s1.verified then
    let j' := { j with state := 2, closer := none, waits := [] }
    (s1.updJob j.tid j.job (fun _ => j')).scheduleClose j'
  else s1.unproven j.tid j.job

/-- Whether a close may take effect: every request and Bake that it waits for has left the node, and its own JOB_CLOSE has come this
far (R104). -/
def State.closeReady (s : State) (j : JobRec) : Bool :=
  j.state == 1 && j.waits.all s.hasLeft &&
    (match j.closer.bind s.req with
     | some r => r.place == .waitJob
     | none => true)

/-- JOB_CLOSE_EFFECT: every request and Bake that the close waits for has left the node. -/
def execJobCloseEffect (tid : BitVec 8) (job : BitVec 20) (s : State) : Host.Outcome State Fault Refusal := s.onBlk pgMETER <|
  match s.jobRec tid.toNat job.toNat with
  | none => .next s
  | some j =>
    if s.closeReady j then .next (s.closeJob j) else .next s

/-- JOB_OPEN at the job table (R102, R103, R189, R397, R398). -/
def State.jobOpen (s : State) (r : Req) : State :=
  if !s.incOk r then s.finish r.id stFenced 0 none
  else if r.job = 0 then s.finish r.id stDenied 0 none
  else match s.jobRec r.tid r.job with
  | some j => if j.state = 0 then s.finish r.id stOK 0 none else s.finish r.id stBusy 0 none
  | none =>
    if s.jobs.length ≥ 65536 then s.finish r.id stBusy 0 none
    else
      let n := s.meter.num
      let j : JobRec := {
        tid := r.tid, job := r.job, state := 0, closer := none, waits := [], disabled := false, shutdown := false, folded := false,
        first := n, last := n, unmet := noCounts }
      let s1 := { s with jobs := s.jobs ++ [j] }.sampleJobs
      let s2 := if s1.meter.ident then s1.meterQueue fyJobOpen (body 1 r.tid ++ body 3 r.job ++ body 4 n) else s1
      s2.finish r.id stOK 0 none

/-- JOB_CLOSE at the job table (R102 to R104, R188). Its close began at its admission, or begins here where the job was opened since; a
close that began goes on though its agent is answered FENCED. -/
def State.jobClose (s : State) (r : Req) : State :=
  if !s.incOk r then
    (s.updJob r.tid r.job (fun j => if j.closer == some r.id then { j with closer := none } else j)).finish r.id stFenced 0 none
  else if r.job = 0 then s.finish r.id stDenied 0 none
  else match s.jobRec r.tid r.job with
  | some j =>
    if j.closer = some r.id then s.updReq r.id (fun x => { x with place := .waitJob })
    else if j.state = 0 then
      (s.updReq r.id (fun x => { x with place := .waitJob })).beginClose r.tid r.job r.id r.adm
    else s.finish r.id stAlready 0 none
  | none => s.finish r.id stAlready 0 none

/-- Every open job of a tenant begins closing at the commit that disables it (R188). -/
def State.disableJobs (s : State) (tid : Nat) : State :=
  { s with jobs := s.jobs.map (fun (j : JobRec) =>
      if j.tid == tid && j.state == 0 then { j with state := 1, disabled := true, waits := s.jobWaits tid j.job (2 ^ 64) } else j) }

/-! ### Intervals (R394 to R396) -/

/-- The counts of an interval that is not tallied, added to the unmetered counts of its jobs (R400). -/
def State.addUnmet (s : State) (recs : Tab (List Nat)) (num : Nat) : State :=
  { s with jobs := s.jobs.map (fun (j : JobRec) =>
      match Tab.get? recs (jobKey j.tid j.job) with
      | some c => { j with unmet := addCounts j.unmet c, last := num }
      | none => j) }

/-- The JOB_CLOSE frames that can no longer be sent: their jobs end without a Proof (R408). -/
def State.loseCloses (s : State) (ks : List Nat) : State :=
  ks.foldl (fun (s : State) k => if (s.jobRec (k / 2 ^ 20) (k % 2 ^ 20)).isSome then s.unproven (k / 2 ^ 20) (k % 2 ^ 20) else s) s

/-- The oldest interval that is not yet folded, folded (R396). -/
def State.fold (s : State) : State :=
  match s.meter.backlog.find? (fun i => !i.folded) with
  | none => s
  | some i =>
    let sums : Tab (List Nat) := i.recs.foldl (fun (t : Tab (List Nat)) p =>
      let k := jobKey (p.1 / 2 ^ 20) 0
      Tab.set t k (addCounts (Tab.get t k noCounts) p.2)) []
    let i' := { i with recs := sums, count := i.count - i.recs.length + sums.length, folded := true }
    let hit := i.recs.map (·.1)
    let s1 : State := { s with
      meter := { s.meter with backlog := updFirst (fun x => !x.folded) (fun _ => i') s.meter.backlog },
      jobs := s.jobs.map (fun (j : JobRec) => if hit.contains (jobKey j.tid j.job) then { j with folded := true } else j) }
    ((s1.bump METER_FOLDS).raise pgMETER I_METER_FOLD).crumb pgMETER 0x703 1 [i.num, i.recs.length]

/-- The running interval closed. A tallied one joins the backlog, which folds at 65 (R396); of one that is not, the counts
become unmetered counts (R400). -/
def State.closeInterval (s : State) (tallied : Bool) : State :=
  let recs := s.tally
  let m := s.meter
  let s1 : State := { s with tally := [], meter := { m with after := [], tallied := tallied } }
  if tallied then
    let i : Interval := {
      num := m.num, recs := recs, count := recs.length, totals := recs.foldl (fun a p => addCounts a p.2) noCounts, folded := false,
      after := m.after }
    let s2 : State := { s1 with
      meter := { s1.meter with backlog := m.backlog ++ [i] },
      jobs := s1.jobs.map (fun (j : JobRec) => if (Tab.get? recs (jobKey j.tid j.job)).isSome then { j with last := m.num } else j) }
    let s3 := if s2.meter.backlog.length > 64 then s2.fold else s2
    s3.sampleBacklog.meterPump
  else ((s1.addUnmet recs m.num).bump METER_UNTALLIED).loseCloses m.after

/-! ### The state of METER (R400) -/

/-- The enrolled fingerprint and the fitted module's, and whether they match: zero matches no key (R404). -/
def State.enrollMatch (s : State) : Bool :=
  (List.range 8).all (fun i => s.rd METER_ENROLL_FP 0 i == s.rd METER_KEY_FP 0 i) &&
    (List.range 8).any (fun i => s.rd METER_ENROLL_FP 0 i != 0)

/-- The state that METER's conditions call for: FAULT while the latest STATUS shows a failed self-test (assumption 42). -/
def State.meterTarget (s : State) : Nat :=
  let m := s.meter
  if !m.present then 0
  else if !m.sync || !m.ident then 1
  else match m.bits with
    | some b => if !bit b 2 then 4 else if bit b 0 && bit b 1 && s.enrollMatch then msVerified else 2
    | none => 2

/-- MSTATE follows its conditions; a change into or out of VERIFIED waits for an interval boundary, and VERIFIED begins at
a mark only, since the interval must be wholly verified. Outside VERIFIED the energies read as unmetered (R7). -/
def State.meterJudge (s : State) (boundary mark : Bool) : State :=
  let cur := s.rd METER_MSTATE
  let t := s.meterTarget
  let s1 := s.wr METER_ENROLL_MATCH (b2n s.enrollMatch)
  if t = cur then s1
  else if (t = msVerified && !mark) || (cur = msVerified && !boundary) then s1
  else (((s1.wr METER_MSTATE t).wr METER_CH_METERED 0).raise pgMETER I_METER_STATE_CHANGE).crumb pgMETER 0x701 1
    [packBits [(0, 3, t), (8, 3, cur)], s.rd METER_INTERVAL]

/-! ### The link -/

/-- The job of a JOB_CLOSE frame. -/
def closeKey (f : Nat × List Nat) : Option Nat :=
  if f.1 == fyJobClose then some (jobKey (leNat (toBytes (f.2.take 1))) (leNat (toBytes ((f.2.drop 1).take 3)))) else none

/-- METER_LINK_SYNC: both ends discard what is unacknowledged and start again, and the node sends HELLO (R393). -/
def execMeterLinkSync (s : State) : Host.Outcome State Fault Refusal := s.onBlk pgMETER <|
  let m := s.meter
  let s1 : State := { s with
    meter := { m with sync := true, up := true, ident := false, txSeq := 0, rxSeq := 0, nak := false, ackDue := false, unacked := [] } }
  let s2 := s1.loseCloses ((m.unacked.map (·.2)).filterMap closeKey)
  let hello := body 2 s2.nid ++ body 8 (s2.rd IDENT_NODE_SERIAL) ++ body 8 (s2.rd IDENT_TRAY_SERIAL) ++ [1]
  .next ((s2.meterSend fyHello hello).meterJudge false false)

/-- The link out of use: what was to be sent is unmetered, and its closes end without Proofs (R400). -/
def State.linkGone (s : State) : State :=
  let m := s.meter
  let lost := m.backlog.flatMap (·.after) ++ (m.waiting ++ m.unacked.map (·.2)).filterMap closeKey
  let s1 := m.backlog.foldl (fun (s : State) i => s.addUnmet i.recs i.num) s
  let s2 : State := { s1 with
    meter := { m with sync := false, up := false, ident := false, backlog := [], waiting := [], unacked := [], nak := false, ackDue := false } }
  (s2.loseCloses lost).sampleBacklog

/-- METER_LINK_LOST: no valid frame or mark for 3 ms (R393), whether or not the receiver has gone out of sync meanwhile. -/
def execMeterLinkLost (s : State) : Host.Outcome State Fault Refusal := s.onBlk pgMETER <|
  if s.meter.sync || s.meter.up then
    let n := s.meter.backlog.length
    let s1 := s.linkGone.raise pgMETER I_METER_LINK_LOST
    .next ((s1.crumb pgMETER 0x704 2 [s.rd METER_INTERVAL, n]).meterJudge false false)
  else .next s

/-- METER_LINK_OUT_OF_SYNC: METER no longer counts as VERIFIED from the next boundary on (R389, R400). -/
def execMeterLinkOutOfSync (s : State) : Host.Outcome State Fault Refusal := s.onBlk pgMETER <|
  if s.meter.sync then .next ({ s with meter := { s.meter with sync := false } }.meterJudge false false) else .next s

/-- METER_FRAME_RESEND: 100 µs without an advance of ACK while frames are unacknowledged (R391). -/
def execMeterFrameResend (s : State) : Host.Outcome State Fault Refusal := s.onBlk pgMETER <|
  if s.meter.sync && !s.meter.unacked.isEmpty then .next s.meterResend else .next s

/-- METER_ACK_TIMER: an accepted frame is acknowledged, in NULL when nothing else went (R391). -/
def execMeterAckTimer (s : State) : Host.Outcome State Fault Refusal := s.onBlk pgMETER <|
  let m := s.meter
  if m.sync && m.ackDue then
    .next ({ s with meter := { m with ackDue := false, nak := false } }.out (.frame fyNull 0 m.rxSeq m.nak []))
  else .next s

/-- ACK and NAK of a good frame: frames up to ACK are done, and NAK resends the rest (R391). -/
def State.meterAcked (s : State) (h : FrameHdr) : State :=
  let a := h.ack.toNat
  let m := s.meter
  let left := if m.unacked.any (fun f => f.1 == a) then (m.unacked.dropWhile (fun f => f.1 != a)).drop 1 else m.unacked
  let s1 : State := { s with meter := { m with unacked := left } }
  (if h.nak then s1.meterResend else s1).meterPump

/-- A sequenced frame: accepted when its CRC is right and it is the one after ACK; `take` says whether METER can take it.
`true` when its content acts: before IDENT, only IDENT does (R391, R393). -/
def State.meterFrame (s : State) (h : FrameHdr) (isIdent take : Bool) : State × Bool :=
  if !s.meter.sync then (s, false)
  else if !h.good then ({ s with meter := { s.meter with nak := true } }.bump METER_CRC_ERR, false)
  else
    let s1 := s.meterAcked h
    let m := s1.meter
    if h.seq.toNat ≠ (m.rxSeq + 1) % 65536 || !take then ({ s1 with meter := { m with nak := true } }, false)
    else ({ s1 with meter := { m with rxSeq := h.seq.toNat, ackDue := true } }.bump METER_FRAMES_RX, isIdent || m.ident)

/-- NULL: it carries ACK and NAK only. -/
def execNull (h : FrameHdr) (s : State) : Host.Outcome State Fault Refusal := s.onBlk pgMETER <|
  if !s.meter.sync then .next s
  else if !h.good then .next ({ s with meter := { s.meter with nak := true } }.bump METER_CRC_ERR)
  else .next (s.meterAcked h)

/-- The jobs whose JOB_CLOSE has not been sent yet: they are still open at the ZM-3 (assumption 41). -/
def Meter.closesLeft (m : Meter) : List Nat := m.after ++ m.backlog.flatMap (·.after) ++ m.waiting.filterMap closeKey

/-- JOB_OPEN sent again for every open job after IDENT (R407). A module other than the one before has not seen the jobs: they begin at the
first interval it marks, whose number METER does not know yet (assumption 41), and their earlier counts are unmetered (Table 17-7). -/
def State.reopenJobs (s : State) (fresh : Bool) : State :=
  let (v, s1) := if fresh then s.free else (0, s)
  let n := bits v.toNat 0 32
  let mine := fun (j : JobRec) => decide (j.state < 2) || s.meter.closesLeft.contains (jobKey j.tid j.job)
  let js := s1.jobs.map (fun (j : JobRec) =>
    if mine j && fresh then { j with first := n, last := n, unmet := addCounts j.unmet j.sent, sent := noCounts } else j)
  let opens := (js.filter mine).map (fun j => (fyJobOpen, body 1 j.tid ++ body 3 j.job ++ body 4 j.first))
  { s1 with jobs := js, meter := { s1.meter with waiting := opens ++ s1.meter.waiting } }

/-- IDENT: the module's identity (R403, R404, R407). -/
def execIdent (h : FrameHdr) (b : IdentBody) (s : State) : Host.Outcome State Fault Refusal := s.onBlk pgMETER <|
  let (s1, ok) := s.meterFrame h true true
  if !ok then .next s1
  else
    let fp := sha256 b.pubKey
    let other := s1.rd METER_ZM3_SERIAL ≠ b.serial.toNat
    let s2 := ((((s1.wr METER_ZM3_SERIAL b.serial.toNat).wr METER_LR_VERSION b.lrVersion.toNat).wr METER_LR_CHECKSUM
      b.lrChecksum.toNat).wr METER_CERT_ID b.certId.toNat).wr METER_SEAL_EVENTS b.sealEvents.toNat |>.wr METER_CAL_DATE b.calDate.toNat
    let s3 := (List.range 8).foldl (fun (s : State) i => s.wr METER_KEY_FP (leNat ((fp.drop (4 * i)).take 4)) 0 i) s2
    let s4 : State := { s3 with meter := { s3.meter with ident := true } }
    .next (((s4.reopenJobs other).meterPump).meterJudge false false)

/-- A tamper of the ZM-3's case, as the frame that reports it tells: SEALED stays 0 from then on, and SEAL_EVENTS counts it (R385;
assumption 126). -/
def State.zm3Tamper (s : State) : State :=
  if s.zm3.sealed then { s with zm3 := { s.zm3 with sealed := false, sealEvents := s.zm3.sealEvents + 1 } } else s

/-- STATUS of the interval just ended (R401). -/
def execStatus (h : FrameHdr) (b : StatusBody) (s : State) : Host.Outcome State Fault Refusal := s.onBlk pgMETER <|
  let (s1, ok) := s.meterFrame h false true
  if !ok then .next s1
  else
    let fl := packBits [(0, 1, b2n b.bayClosed), (1, 1, b2n b.sealed), (2, 1, b2n b.selfTest)]
    let s2 := (((s1.wr METER_INTERVAL b.interval.toNat).wr METER_COND b.cond.toNat).wr METER_DEG_CAUSE b.degCause.toNat).wr METER_SEAL_EVENTS
      b.sealEvents.toNat |>.wr METER_BAY_CLOSED (b2n b.bayClosed) |>.wr METER_SEALED (b2n b.sealed) |>.wr METER_SELFTEST_OK (b2n b.selfTest)
    let s3 := (List.range 12).foldl (fun (s : State) i => s.wr METER_CH_ENERGY (b.energies[i]?.getD 0).toNat 0 i) s2
    let s4 := s3.wr METER_CH_METERED (b2n (b.cond == 0 && s3.meter.tallied && s.verified))
    let s5 := if b.sealed then s4 else s4.zm3Tamper
    .next ({ s5 with meter := { s5.meter with bits := some fl, num := (b.interval.toNat + 1) % 2 ^ 32 } }.meterJudge false false)

/-- PROOF: put into the ring; while the ring is full the frame stays unaccepted (R399). -/
def execProof (h : FrameHdr) (pseq : BitVec 64) (rec : Bytes) (s : State) : Host.Outcome State Fault Refusal := s.onBlk pgMETER <|
  let (s1, ok) := s.meterFrame h false (!s.meter.ident || decide (s.meter.proofs.length < 64))
  if !ok then .next s1
  else
    let m := s1.meter
    .next ({ s1 with meter := { m with proofs := m.proofs ++ [(pseq.toNat, rec)], head := (m.head + 1) % 64 } }.raise pgMETER I_METER_PROOF_NEW)

/-- ALARM (Tables 16-7 and 16-11). -/
def execAlarm (h : FrameHdr) (code : Byte) (chan : Byte) (interval : Word) (s : State) : Host.Outcome State Fault Refusal := s.onBlk pgMETER <|
  let (s1, ok) := s.meterFrame h false true
  if !ok then .next s1
  else
    let s2 := if code = 1 then s1.zm3Tamper else s1
    .next (((s2.wr METER_ALARM_CODE code.toNat).raise pgMETER I_METER_ALARM).crumb pgMETER 0x702 2
      [packBits [(0, 8, code.toNat), (8, 8, chan.toNat)], interval.toNat])

/-! ### Intervals and the end of metering (R397) -/

/-- The end of metering in a hold-up shutdown: the running interval is closed, every open job closes with SHUTDOWN in
ascending order after the last TALLY_END, and SHUTDOWN follows. -/
def State.meterShutdown (s : State) : State :=
  let tallied := s.verified && s.meter.sync && s.meter.ident
  let s1 := s.closeInterval tallied
  let key := fun (j : JobRec) => jobKey j.tid j.job
  let s2 : State := { s1 with jobs := s1.jobs.map (fun (j : JobRec) => if j.state < 2 then { j with shutdown := true } else j) }
  let ks := ((s2.jobs.filter (fun j => j.state < 2)).map key).mergeSort (fun a b => decide (a ≤ b))
  let s3 := ks.foldl (fun (s : State) k =>
    match s.jobRec (k / 2 ^ 20) (k % 2 ^ 20) with
    | some j => s.closeJob { j with last := max j.last j.first }
    | none => s) s2
  { s3 with meter := { s3.meter with quitting := tallied, ended := true } }.meterPump

/-- Whether the node's work has ended in an orderly shutdown or in the preparation of a warm reset, and the jobs are still open: the
next interval boundary ends metering (Table 19-7, R467). -/
def State.meterEnds (s : State) : Bool :=
  !s.meter.ended && s.reqs.all (fun r => !r.admitted) && (s.tmc.shut.isSome || (s.warden.prep.isSome && s.warden.sweep == 2))

/-- The interval boundary: the running interval closes, and with it metering when it is to end. -/
def State.boundary (s : State) (tallied : Bool) : State := if s.meterEnds then s.meterShutdown else s.closeInterval tallied

/-- INTERVAL_MARK: the running interval is closed, and the next begins (R392, R394). -/
def execIntervalMark (s : State) : Host.Outcome State Fault Refusal := s.onBlk pgMETER <|
  if !s.meter.sync then .next s
  else
    let s2 := s.boundary (s.verified && s.meter.ident)
    .next ({ s2 with meter := { s2.meter with num := (s2.meter.num + 1) % 2 ^ 32 } }.meterJudge true true)

/-- INTERVAL_LOCAL_CLOSE: without a verified module METER closes intervals on its own clock, every 1,563 ticks (R394). -/
def execIntervalLocalClose (s : State) : Host.Outcome State Fault Refusal := s.onBlk pgMETER <|
  if !(s.meter.sync || s.meter.up) || !s.verified then .next ((s.boundary false).meterJudge true false)
  else .next s

/-! ### Proofs and enrolment -/

/-- The place of the oldest unread Proof. -/
def Meter.tail (m : Meter) : Nat := (m.head + 64 - m.proofs.length) % 64

/-- The place of a job whose Proof is acknowledged, free (R398). -/
def State.proofDone (s : State) (rec : List Byte) : State :=
  let tid := leNat ((rec.drop 6).take 1)
  let job := leNat ((rec.drop 32).take 4) % 2 ^ 20
  match s.jobRec tid job with
  | some j => if j.state = 2 then s.dropJob tid job else s
  | none => s

/-- PROOF_TAIL moved: each Proof it passes is acknowledged (R399); a write past PROOF_HEAD is discarded. -/
def State.proofTailWrite (s : State) (v : Nat) : State :=
  let m := s.meter
  let n := (v + 64 - m.tail) % 64
  if n > m.proofs.length then s.cfgErr pgMETER 0 0x1C8
  else
    let gone := m.proofs.take n
    let s1 : State := { s with meter := { m with proofs := m.proofs.drop n } }
    gone.foldl (fun (s : State) p => (s.proofDone p.2).meterQueue fyProofAck (body 8 p.1)) s1

/-- PROOF_TAIL_WRITE. -/
def execProofTailWrite (val : Word) (s : State) : Host.Outcome State Fault Refusal := s.onBlk pgMETER <| .next (s.proofTailWrite (bits val.toNat 0 6))

/-- The bay cover opened: the ZM-3 counts it in SEAL_EVENTS and sends the ALARM BAY_OPEN (R385, Table 16-7), and what its service connector
may load meanwhile is its firmware from then on, a free value (R384; assumption 126). -/
def State.bayOpened (s : State) : State :=
  let (v, s1) := s.free
  let s2 : State := { s1 with zm3 := { s1.zm3 with sealEvents := s1.zm3.sealEvents + 1, fw := v.toNat } }
  if s.meter.present then s2.out (.zm3 0x45 ([0x02, 0xFF] ++ body 4 s2.zm3.count)) else s2

/-- A module seated or gone (R400). An insertion counts in SEAL_EVENTS (R385). -/
def State.zm3Seat (s : State) (present : Bool) : State :=
  if present = s.meter.present then s
  else
    let s1 : State := { s with
      meter := { s.meter with present := present },
      tmc := { s.tmc with present := BitVec.ofNat 19 (setBits s.tmc.present.toNat 16 1 (b2n present)) }, zm3 := { s.zm3 with sealEvents := s.zm3.sealEvents + b2n present } }
    (s1.wr TMCB_ZM3_PRESENT (b2n present)).meterJudge false false

/-- ZM3_PRESENCE: the TMC reports the change. -/
def execZm3Presence (present : Bool) (s : State) : Host.Outcome State Fault Refusal :=  .next (s.zm3Seat present)

end Sys2Proof.Machine
end

