-- ==== Sys2Proof/Machine/Issue.lean ====
section
/-! DEFINITION. Issue of DRAM commands: the next command of a queue's oldest entry (R241 to R245), the earliest time that
Table 10-3 allows, the counting of commands (R22, R243), and their effects on the stack (R236, R247). -/
namespace Sys2Proof.Machine

open Reg

/-! ### Banks -/

def BankTime.blank : BankTime :=
  { opened := none, fresh := false, lastAct := 0, lastPre := 0, lastRd := 0, lastWr := 0, lastVaa := 0, lastTra := 0 }

def Queue.bank (c : Queue) (b : Nat) : BankTime := Tab.get c.banks b BankTime.blank
def Queue.setBank (c : Queue) (b : Nat) (v : BankTime) : Queue := { c with banks := Tab.set c.banks b v }

/-- An open row as one number: subarray × 1,024 + row selector. -/
def openOf (sa vr : Nat) : Nat := sa * 1024 + vr
def openRow (row : Nat) : Nat := openOf (row / 512) (row % 512)

/-- Whether any bank is open. -/
def Queue.anyOpen (c : Queue) : Bool := c.banks.any (fun b => b.2.opened.isSome)

/-! ### The next command of an entry (Table 10-1) -/

/-- What an entry does next: a command, a wait for data, or nothing more. -/
inductive NextCmd where
  | cmd (c : Cmd)
  | wait
  | done
deriving DecidableEq, Repr

/-- PRE and ACT where a row must be opened first (R242), else the command. -/
def Queue.inRow (c : Queue) (bank row : Nat) (x : Cmd) : NextCmd :=
  match (c.bank bank).opened with
  | some o => if o = openRow row then .cmd x else .cmd (.pre bank)
  | none => .cmd (.act bank row)

/-- Entries that read their line and may then write it: phase 1 awaits the data, 2 writes, 3 ends without a write. -/
def Queue.readThenWrite (c : Queue) (e : Entry) : NextCmd :=
  if e.phase = 0 then c.inRow e.bank e.row (.rd e.bank e.row e.col)
  else if e.phase = 1 then .wait
  else if e.phase = 2 then c.inRow e.bank e.row (.wr e.bank e.row e.col)
  else .done

/-- Entries that read a row and write it, or another row, back. -/
def Queue.rowThenRow (c : Queue) (e : Entry) (dst : Nat) : NextCmd :=
  if e.phase < 128 then c.inRow e.bank e.row (.rd e.bank e.row e.phase)
  else if e.phase < 256 then
    if e.words.length < 128 then .wait else c.inRow e.bank dst (.wr e.bank dst (e.phase - 128))
  else .done

/-- The row of a Segment clear's i-th step, bank fastest, after redirection. -/
def Entry.clearRow (e : Entry) (seg i : Nat) : Nat × Nat := (i % 16, redirect e.redir (i % 16) (seg * 512 + i / 16))

/-- The next command of an entry. -/
def Queue.nextOf (c : Queue) (e : Entry) (spare : Nat) : NextCmd :=
  match e.kind with
  | .read _ => if e.phase = 0 then c.inRow e.bank e.row (.rd e.bank e.row e.col) else .done
  | .write => if e.phase = 0 then c.inRow e.bank e.row (.wr e.bank e.row e.col) else .done
  | .merge _ | .scrub _ | .poisonize => c.readThenWrite e
  | .copy _ => c.rowThenRow e (spare * 512 + e.srow % 512)
  | .reencode => if e.stale then c.rowThenRow e e.row else .done
  | .group _ _ cmds =>
    if e.phase = 0 && (c.bank e.bank).opened.isSome then .cmd (.pre e.bank)
    else match cmds[e.phase]? with
      | some x => .cmd x
      | none => .done
  | .refresh => if e.phase = 0 then (if c.anyOpen then .cmd .preab else .cmd .refab) else .done
  | .status => if e.phase = 0 then .cmd .vsts else .done
  | .retrain => if e.phase = 0 then .cmd .preab else if e.phase = 1 then .cmd .mpc else .done
  | .segClear seg =>
    if e.phase ≥ 3 * 8192 then .done
    else
      let (bank, row) := e.clearRow seg (e.phase / 3)
      if e.phase % 3 = 0 then (if (c.bank bank).opened.isSome then .cmd (.pre bank) else .cmd (.vact bank (row / 512) 0x208))
      else if e.phase % 3 = 1 then .cmd (.vaa bank (row / 512) (row % 512))
      else .cmd (.pre bank)
  | .power sr => if e.phase = 0 then .cmd .preab else if e.phase = 1 then .cmd (if sr then .sre else .pde) else .done

/-- Whether a command takes the entry to its next phase: openings do not. -/
def Queue.advances (c : Queue) (e : Entry) (x : Cmd) : Bool :=
  match e.kind, x with
  | .read _, .rd _ _ _ | .write, .wr _ _ _ | .merge _, .rd _ _ _ | .scrub _, .rd _ _ _ | .poisonize, .rd _ _ _ => true
  | .merge _, .wr _ _ _ | .scrub _, .wr _ _ _ | .poisonize, .wr _ _ _ => true
  | .copy _, .rd _ _ _ | .copy _, .wr _ _ _ | .reencode, .rd _ _ _ | .reencode, .wr _ _ _ => true
  | .group _ _ _, x => !(e.phase = 0 && x = .pre e.bank && (c.bank e.bank).opened.isSome)
  | .refresh, .refab => true
  | .status, _ | .retrain, _ | .power _, _ => true
  | .segClear _, .pre _ => e.phase % 3 = 2
  | .segClear _, _ => true
  | _, _ => false

/-! ### Timing (Table 10-3, R245, R291) -/

/-- The n-th latest activation. -/
def Queue.actAt (c : Queue) (n gap : Nat) : Nat := match c.acts[n]? with
  | some t => t + gap
  | none => 0

/-- The earliest PRE of a bank. -/
def BankTime.preAt (b : BankTime) (c : Queue) : Nat :=
  let lr := if c.lastRd.isSome then b.lastRd + 9 else 0
  let lw := if c.lastWr.isSome then b.lastWr + 54 else 0
  let ras := if b.lastTra = b.lastAct then 0 else b.lastAct + 39
  max (max ras (max lr lw)) (max (b.lastVaa + 24) (b.lastTra + 36))

/-- The time from the RD to the WR of an entry that merges or rewrites its line: the data's end and 8 mc, or 30 mc where CRYPT is passed
(R245, R272). -/
def Entry.gap (e : Entry) : Nat := match e.kind with
  | .merge _ => if e.key.isSome then 49 else 27
  | .scrub _ | .poisonize => 27
  | _ => 0

/-- The earliest time of a command by the rules of Table 10-3 against the commands already issued. -/
def Queue.ruleAt (c : Queue) (gap : Nat) (x : Cmd) : Nat :=
  let after := fun (t : Option Nat) (gap : Nat) => match t with
    | some v => v + gap
    | none => 0
  let act := fun (bank : Nat) => let b := c.bank bank; max (b.lastPre + 17) (b.lastAct + 56)
  let merge := if gap = 0 then 0 else after c.lastRd gap
  match x with
  | .act bank _ | .vact bank _ _ => max (act bank) (max (c.actAt 0 2) (c.actAt 3 16))
  | .vtra bank _ _ _ _ => max (act bank) (max (c.actAt 0 2) (c.actAt 1 16))
  | .vaa bank _ _ => max ((c.bank bank).lastAct + 24) (max (c.actAt 0 2) (c.actAt 3 16))
  | .pre bank => (c.bank bank).preAt c
  | .preab => c.banks.foldl (fun a b => if b.2.opened.isSome then max a (b.2.preAt c) else a) 0
  | .rd bank _ _ => max ((c.bank bank).lastAct + 17) (max (after c.lastRd 2) (after c.lastWr 30))
  | .wr bank _ _ => max (max ((c.bank bank).lastAct + 17) merge) (max (after c.lastWr 2) (after c.lastRd 6))
  | .refab => c.banks.foldl (fun a b => max a (b.2.lastPre + 17)) 0
  | _ => 0

/-- The earliest slot of a command: not before a time, the command before it, or a rule allows, and at most two in one mc (R241). -/
def Queue.slotAt (c : Queue) (ready gap : Nat) (x : Cmd) : Nat :=
  let t := max (max c.now ready) (max c.free (c.ruleAt gap x))
  if t = c.now && c.inSlot ≥ 2 then t + 1 else t

/-- The time at which a command of an entry issues: not before the entry was accepted (R241). -/
def Queue.issueAt (c : Queue) (e : Entry) (x : Cmd) : Nat := c.slotAt e.ready e.gap x

/-! ### The command bus (R246, R247) -/

/-- The CA bits of the two cycles of a vendor command (Table 10-2): VOP, BANK and the low bits of SA, then the rest of SA and the selector,
the three scratch rows or the quarter. -/
def Cmd.vendor : Cmd → Option (Nat × Nat)
  | .vact b sa vr => some (packBits [(0, 4, 1), (4, 4, b), (8, 6, sa)], packBits [(0, 3, sa / 64), (3, 10, vr)])
  | .vaa b sa vr => some (packBits [(0, 4, 2), (4, 4, b), (8, 6, sa)], packBits [(0, 3, sa / 64), (3, 10, vr)])
  | .vtra b sa x y z =>
    some (packBits [(0, 4, 3), (4, 4, b), (8, 6, sa)], packBits [(0, 3, sa / 64), (3, 3, x), (6, 3, y), (9, 3, z)])
  | .vidr n => some (4, packBits [(3, 2, n)])
  | .vsts => some (5, 0)
  | .vclr => some (6, 0)
  | _ => none

/-- Whether the number of one bits among the low n is odd. -/
def oddBits : Nat → Nat → Bool
  | 0, _ => false
  | n + 1, x => (bit x n) ^^ (oddBits n x)

/-- A vendor command on the pins: its CA bits and PAR, even over them and the VC pin, which is high (R247). -/
def Cmd.onBus (x : Cmd) : Option (Nat × Nat × Bool) :=
  x.vendor.map (fun v => (v.1, v.2, !((oddBits 14 v.1) ^^ (oddBits 14 v.2))))

/-! ### Effects -/

/-- The contents of the open row of a bank, as its sense amplifiers hold them: through the complement contact the negation
row reads as its complement (R247). -/
def sensed (m : Memory) (q bank o : Nat) : Memory :=
  let sa := o / 1024
  let vr := o % 1024
  if vr = 0x20B then rowNot (rowCells m q bank sa rowNeg) else rowCells m q bank sa vr

/-- VAA: the second row takes what the sense amplifiers hold. -/
def vaaPut (m : Memory) (q bank o sa vr : Nat) : Memory :=
  let r := sensed m q bank o
  if vr = 0x20B then rowPut m q bank sa rowNeg (rowNot r)
  else if vr ≤ 0x20A then rowPut m q bank sa vr r
  else m

/-- VTRA: three scratch rows take their bitwise majority. -/
def vtraPut (m : Memory) (q bank sa a b c : Nat) : Memory :=
  let row := fun (k : Nat) => rowCells m q bank sa (0x200 + k)
  let v := rowMaj (row a) (row b) (row c)
  rowPut (rowPut (rowPut m q bank sa (0x200 + a) v) q bank sa (0x200 + b) v) q bank sa (0x200 + c) v

/-- The data that an RD senses, kept until it returns. -/
def Queue.sense (c : Queue) (e : Entry) (w : List Byte) : Queue :=
  let total := match e.kind with
    | .copy _ | .reencode => 128
    | _ => 1
  match c.rets.getLast? with
  | some r =>
    if !r.whole then
      let ws := r.words ++ [w]
      { c with rets := c.rets.dropLast ++ [{ r with words := ws, whole := decide (ws.length ≥ total) }] }
    else { c with rets := c.rets ++ [{ ent := e, words := [w], whole := total == 1 }] }
  | none => { c with rets := c.rets ++ [{ ent := e, words := [w], whole := total == 1 }] }

/-- A command's effect on its queue's banks, at its time. PREab counts for every bank, an unknown selector opens no row (R247, R248). -/
def Queue.applyBanks (c : Queue) (x : Cmd) (t : Nat) : Queue :=
  let acts := fun (n : Nat) => (List.replicate n t ++ c.acts).take 4
  match x with
  | .act bank row => { c.setBank bank { c.bank bank with opened := some (openRow row), fresh := true, lastAct := t } with acts := acts 1 }
  | .vact bank sa vr =>
    let o := if vrKnown vr then some (openOf sa vr) else (c.bank bank).opened
    { c.setBank bank { c.bank bank with opened := o, fresh := true, lastAct := t } with acts := acts 1 }
  | .vaa bank _ _ => { c.setBank bank { c.bank bank with lastVaa := t } with acts := acts 1 }
  | .vtra bank sa a _ _ =>
    { c.setBank bank { c.bank bank with opened := some (openOf sa (0x200 + a)), fresh := true, lastAct := t, lastTra := t } with acts := acts 3 }
  | .pre bank => c.setBank bank { c.bank bank with opened := none, lastPre := t }
  | .preab => (List.range 16).foldl (fun (c : Queue) b => c.setBank b { c.bank b with opened := none, lastPre := t }) c
  | .rd bank _ _ => { c.setBank bank { c.bank bank with fresh := false, lastRd := t } with lastRd := some t }
  | .wr bank _ _ => { c.setBank bank { c.bank bank with fresh := false, lastWr := t } with lastWr := some t }
  | .refab => { c with free := t + 354 }
  | .vsts | .vidr _ => { c with free := t + 20 }
  | .mpc => { c with free := t + 64 }
  | .pdx => { c with free := t + 9, power := 0 }
  | .srx => { c with free := t + 366, power := 0 }
  | .pde => { c with power := 1 }
  | .sre => { c with power := 2 }
  | .vclr | .mrw | .mrr | .des => c

/-- A command's effect on its queue, at its time, with what the pins carry. -/
def Queue.apply (c : Queue) (x : Cmd) (t : Nat) : Queue := { c.applyBanks x t with bus := x.onBus }

/-- The codeword that an RD senses: free values in a segment that is not refreshed, whose contents are lost (R252; assumption 123). -/
def State.senseWord (s : State) (q bank row col : Nat) : List Byte × State :=
  if s.refreshed (q / 2) (row / 512) then (Memory.readN s.dram (lineAddr q bank row col) 80, s)
  else
    let (a, s1) := s.free
    let (b, s2) := s1.free
    (lineBytes a ++ (lineBytes b).take 16, s2)

/-- A command's effect on the stack and on the data under way. -/
def State.cmdData (s : State) (q : Nat) (e : Entry) (x : Cmd) : State :=
  match x with
  | .rd bank row col =>
    let (w, s1) := s.senseWord q bank row col
    s1.setQueue q ((s1.queue q).sense e w)
  | .wr bank row col =>
    let k := match e.kind with
      | .copy _ | .reencode => e.phase - 128
      | _ => 0
    { s with dram := Memory.writeN s.dram (lineAddr q bank row col) (e.words[k]?.getD []) }
  | .vaa bank sa vr => match ((s.queue q).bank bank).opened with
    | some o => { s with dram := vaaPut s.dram q bank o sa vr }
    | none => s
  | .vtra bank sa a b c => { s with dram := vtraPut s.dram q bank sa a b c }
  | .vsts | .mpc => let c := s.queue q; s.setQueue q { c with rets := c.rets ++ [{ ent := e, words := [], whole := true }] }
  | _ => s

/-! ### Counting -/

/-- The count class of a command (Table 16-4). -/
def Cmd.cls : Cmd → Option Nat
  | .act _ _ | .vact _ _ _ => some 1
  | .rd _ _ _ => some 2
  | .wr _ _ _ => some 3
  | .pre _ | .preab => some 4
  | .vaa _ _ _ => some 5
  | .vtra _ _ _ _ _ => some 6
  | .refab => some 7
  | _ => none

/-- n commands of a class counted in the MCH's counters (Table 10-7). -/
def State.bumpCmd (s : State) (ch cls n : Nat) : State :=
  if cls = 1 then s.bumpBy MCH_ACT_CNT n ch
  else if cls = 2 then s.bumpBy MCH_RD_CNT n ch
  else if cls = 3 then s.bumpBy MCH_WR_CNT n ch
  else if cls = 4 then s.bumpBy MCH_PRE_CNT n ch
  else if cls = 5 || cls = 6 then s.bumpBy MCH_VCMD_CNT n ch
  else if cls = 7 then s.bumpBy MCH_REF_CNT n ch
  else s

/-- A command counted once, to its entry (R22, R243), and a column command that found its row open. -/
def State.countCmd (s : State) (q : Nat) (e : Entry) (x : Cmd) : State :=
  let ch := q / 2
  let hit := match x with
    | .rd bank _ _ | .wr bank _ _ => !((s.queue q).bank bank).fresh
    | _ => false
  let s1 := if hit then s.bump MCH_ROW_HITS ch else s
  match x.cls with
  | some k => (s1.bumpCmd ch k 1).count k e.tid e.job 1
  | none => s1

/-- A command entered in the history of the oldest entry, for a replay (R258). -/
def Queue.record (c : Queue) (gap : Nat) (x : Cmd) : Queue :=
  let h := match c.hist with
    | p :: r => { p with gap := gap, cmds := p.cmds ++ [x] } :: r
    | [] => [{ gap := gap, start := false, cmds := [x] }]
  { c with hist := h.take 260, issued := c.issued + 1 }

/-- A history slot with no command yet. -/
def Past.blank : Past := { gap := 0, start := false, cmds := [] }

/-! ### The end of an entry -/

/-- Whether an entry is a group that writes a row. -/
def Entry.rewrites (e : Entry) (bank row : Nat) : Bool := match e.kind with
  | .group _ _ cmds => e.bank == bank && e.srow / 512 == row / 512 && cmds.any (fun x => match x with
    | .vaa _ _ vr => vr == row % 512
    | _ => false)
  | _ => false

/-- Whether a later entry of the queue is a group that writes a row again. -/
def Queue.rewrites (c : Queue) (bank row : Nat) : Bool := (c.entries.drop 1).any (fun e => e.rewrites bank row)

/-- Entries behind a re-encode of a row: the row is not stale for them, up to a group that writes it again (R268). Eager re-encodes
carry their own mask. -/
def noLongerStale (bank row : Nat) : List Entry → List Entry
  | [] => []
  | e :: t =>
    if e.rewrites bank row then e :: t
    else (if e.bank = bank && e.srow = row && e.hasRow && !(e.kind == .reencode && e.bake.isSome) then { e with stale := false, mask := 0 } else e) ::
      noLongerStale bank row t

/-- The oldest entry leaves its queue with its last command: what it was for goes on. A Scrub entry holds its queue until
8 mc after its data (R272). -/
def State.entryEnd (s : State) (q : Nat) (e : Entry) : State :=
  let c := s.queue q
  let again := c.rewrites e.bank e.srow
  let hold := match e.kind, c.lastRd with
    | .scrub _, some t => max c.free (t + 27)
    | _, _ => c.free
  let behind := match e.kind with
    | .copy _ | .reencode => if e.stale then noLongerStale e.bank e.srow (c.entries.drop 1) else c.entries.drop 1
    | _ => c.entries.drop 1
  let c1 := { c with entries := behind, hist := Past.blank :: c.hist, free := hold }
  let s1 := (s.setQueue q c1).sample (pgMCH (q / 2)) (q % 2) (c.entries.length - 1 : Nat)
  match e.kind with
  | .copy i =>
    let s2 := if e.stale && !again then s1.dropStale q e.bank e.srow else s1
    (s2.copyIssued i).regrant
  | .reencode =>
    let s2 := if e.bake.isNone && e.stale then (if again then s1 else s1.dropStale q e.bank e.srow).bump RAS_REENCODES else s1
    s2.freeCtxs
  | .group _ _ _ | .read _ | .write => s1.freeCtxs
  | _ => s1

/-- The oldest entry taken out once it has nothing more to issue. -/
def State.popDone (s : State) (q : Nat) : State :=
  let c := s.queue q
  match c.entries with
  | [] => s
  | e :: _ =>
    let spare := match e.kind with
      | .copy i => ((Tab.get? s.ras.rmap i).map (fun x => x.spare)).getD 0
      | _ => 0
    match c.nextOf e spare with
    | .done => s.entryEnd q e
    | _ => s

/-- The command that the oldest entry of a queue issues next: PDX or SRX before any other in a stack that sleeps (R260). -/
def State.nextCmd (s : State) (q : Nat) (e : Entry) : NextCmd :=
  let c := s.queue q
  let spare := match e.kind with
    | .copy i => ((Tab.get? s.ras.rmap i).map (fun x => x.spare)).getD 0
    | _ => 0
  if c.power = 1 then .cmd .pdx else if c.power = 2 then .cmd .srx else c.nextOf e spare

/-- One command of the oldest entry. -/
def State.issueCmd (s : State) (q : Nat) (e : Entry) (x : Cmd) : State :=
  let c := s.queue q
  let t := c.issueAt e x
  let wake := x = .pdx || x = .srx
  let step := !wake && c.advances e x
  let s1 := (s.cmdData q e x).countCmd q e x
  let c1 := (s1.queue q).apply x t
  let c2 := { c1 with now := t, inSlot := if t = c.now then c.inSlot + 1 else 1 }
  let c3 := c2.record e.gap x
  let c4 := { c3 with entries := match c3.entries with
    | h :: r => { h with phase := if step then h.phase + 1 else h.phase } :: r
    | [] => [] }
  (s1.setQueue q c4).popDone q

/-- The MCH at work on an entry is in Run; a Power entry takes it out of it. -/
def State.useFor (s : State) (q : Nat) (e : Entry) : State := match e.kind with
  | .power _ => s
  | _ => s.use [pgMCH (q / 2)]

/-- Whether a channel drives its stack: it is not stopped, and its training has reached step 5, from which on Refresh and Status entries
run (R255, R256). -/
def State.mchRuns (s : State) (ch : Nat) : Bool := decide (5 ≤ s.rd MCH_TRAIN_STATE ch) && s.rd H_COND (pgMCH ch) != 2

/-- Whether a channel is trained and runs. -/
def State.mchTrained (s : State) (ch : Nat) : Bool := s.mchRuns ch && s.rd MCH_TRAIN_STATE ch == 0xF

/-! ### Replay (R258) -/

/-- What is left of a replay once the units that have nothing more are passed; each has its own place in the history. -/
def Queue.nextRedo (c : Queue) : Queue :=
  match c.redo with
  | p :: r =>
    if !p.cmds.isEmpty then c
    else match r with
      | [] => { c with redo := [] }
      | n :: _ => { c with redo := r, hist := { n with cmds := [] } :: c.hist }
  | [] => c

/-- The command that a replay issues next, and whether it is one of the commands repeated: an ACT comes first where the PREab closed the
row that a column command found open. -/
def Queue.redoCmd (c : Queue) (x : Cmd) : Cmd × Bool :=
  let need := fun (bank row : Nat) => if (c.bank bank).opened.isSome then (x, true) else (.act bank row, false)
  match x with
  | .rd bank row _ => need bank row
  | .wr bank row _ => need bank row
  | _ => (x, true)

/-- One command of a replay, under Table 10-3 and counted to TID 0 and JOB 0 (R243). Its data and effect are those of the first issue. -/
def State.redoIssue (s : State) (q : Nat) : State :=
  let c := s.queue q
  match c.redo with
  | [] => s
  | p :: r => match p.cmds with
    | [] => s.setQueue q c.nextRedo
    | y :: rest =>
      let (x, own) := c.redoCmd y
      let t := c.slotAt 0 p.gap x
      let s1 := s.countCmd q (plainEntry .status .mch s.openEpoch) x
      let c1 := (s1.queue q).apply x t
      let c2 := { c1 with now := t, inSlot := if t = c.now then c.inSlot + 1 else 1, redo := { p with cmds := if own then rest else p.cmds } :: r }
      let s2 := s1.setQueue q (c2.record p.gap x).nextRedo
      if own && !p.start then s2.bump MCH_REPLAY_CMDS (q / 2) else s2

/-- MCH_COMMAND_ISSUE: the next command of a replay, or of the queue's oldest entry, at the earliest slot (R241, R258). -/
def execMchCommandIssue (q : Fin 96) (s : State) : Host.Outcome State Fault Refusal := s.onBlk (pgMCH (q.val / 2)) <|
  let c := s.queue q.val
  if !s.mchRuns (q.val / 2) then .next s
  else if !c.redo.isEmpty then .next (s.redoIssue q.val)
  else match c.entries with
    | [] => .next s
    | e :: _ => match s.nextCmd q.val e with
      | .cmd x => .next ((s.useFor q.val e).issueCmd q.val e x)
      | .wait => .next s
      | .done => .next (s.entryEnd q.val e)

end Sys2Proof.Machine
end

