-- ==== Sys2Proof/Machine/Returns.lean ====
section
/-! DEFINITION. Read data returning from the stacks: decoding and classification (R263 to R265, R269, Table 11-2), what RAS
and RDL do with it (R268, R270, R271, R274), and what each read was for (R96, R111, R112, R128, R149). -/
namespace Sys2Proof.Machine

open Reg

/-! ### Classification (Table 11-2) -/

/-- A word as the read classifies it: the 64 bytes as used, the stored poison mark, the symbols corrected, and whether it is
uncorrectable or a metadata error. -/
structure Reading where
  data   : List Byte
  poison : Bool
  fixed  : List Nat
  ue     : Bool
  meta_  : Bool
deriving DecidableEq, Repr

/-- Detected poison: an uncorrectable or metadata error. -/
def Reading.bad (r : Reading) : Bool := r.ue || r.meta_

/-- Whether the data counts as poisoned. -/
def Reading.poisoned (r : Reading) : Bool := r.poison || r.bad

/-- A word decoded under the layout of its segment; a stale row's line is taken as stored, with poison from the mask
(R268). -/
def readWord (compute stale : Bool) (mask : BitVec 128) (col : Nat) (w : List Byte) : Reading :=
  if stale then { data := w.take 64, poison := mask.getLsbD col, fixed := [], ue := false, meta_ := false }
  else match lcDecode w with
    | .bad => { data := w.take 64, poison := false, fixed := [], ue := true, meta_ := false }
    | .ok v fixed =>
      match metaMark (v[64]?.getD 0).toNat (v[65]?.getD 0).toNat compute with
      | .clean => { data := v.take 64, poison := false, fixed := fixed, ue := false, meta_ := false }
      | .poison => { data := v.take 64, poison := true, fixed := fixed, ue := false, meta_ := false }
      | .error => { data := w.take 64, poison := false, fixed := [], ue := false, meta_ := true }

/-- A word with the errors of the sense path. -/
def withErrors (w : List Byte) (errs : List (Nat × Byte)) : List Byte :=
  errs.foldl (fun l (e : Nat × Byte) => if e.1 < l.length then setNth l e.1 ((l[e.1]?.getD 0) ^^^ e.2) else l) w

/-- The epoch whose layout an entry's line is read under: node work uses the open epoch (R265). -/
def State.layoutEpoch (s : State) (e : Entry) : Nat := match e.kind with
  | .read .rescan | .scrub _ | .copy _ | .reencode | .poisonize => s.openEpoch
  | _ => e.epoch

/-- The place of an entry's line. -/
def Entry.at_ (e : Entry) (q col : Nat) : ErrAt := { q := q, bank := e.bank, row := e.srow, col := col }

/-! ### What RAS does -/

/-- A Scrub entry for a line that a demand read found wanting (R270, R271). -/
def State.demandScrub (s : State) (q : Nat) (e : Entry) : State :=
  s.enqueue q { rowEntry (.scrub srcDemand) e.bank e.srow s.openEpoch with col := e.col, off := e.off }

/-- A UE that a demand scrub finds: reported, and not counted in a window (R270, R274). -/
def State.scrubUe (s : State) (a : ErrAt) (isMeta : Bool) : State :=
  let s1 := (if isMeta then s.bump RAS_META_ERR else s).bump RAS_UE_CNT
  (s1.crumb pgRAS (if isMeta then 0x412 else 0x411) 2 (a.payload 0xFF 0 srcDemand (s1.pageCount a))).raise pgRAS I_RAS_UE

/-- The counting of a reading (R274). -/
def State.countReading (s : State) (a : ErrAt) (r : Reading) (source : Nat) : State :=
  if r.bad then s.uncorrectable a r.meta_ source
  else if !r.fixed.isEmpty then s.corrected a r.fixed source
  else s

/-- What a demand Read entry's reading makes RAS do; `store` says that the line is of the directory store, whose damage HOME
handles (R149, R269). -/
def State.demandRas (s : State) (q : Nat) (e : Entry) (r : Reading) (store : Bool) : State :=
  let s1 := s.countReading (e.at_ q e.col) r srcRead
  if e.stale then s1.placeReencode q e.bank e.srow
  else if r.bad then (if store then s1 else s1.demandScrub q e)
  else if !r.fixed.isEmpty then s1.demandScrub q e
  else s1

/-- The words that the oldest entry goes on to write, or its end without a write. -/
def State.entryWords (s : State) (q : Nat) (ws : Option (List (List Byte))) : State :=
  let c := s.queue q
  match c.entries with
  | [] => s
  | e :: t =>
    let e1 := match ws with
      | some w => match e.kind with
        | .copy _ | .reencode => { e with words := w }
        | _ => { e with words := w, phase := 2 }
      | none => { e with phase := 3 }
    (s.setQueue q { c with entries := e1 :: t }).popDone q

/-- Whether an entry has recorded the poison state of a line at its own acceptance. -/
def Entry.recorded (e : Entry) (bank row col : Nat) : Bool := match e.kind with
  | .write => e.bank == bank && e.srow == row && e.col == col
  | .merge _ => e.bank == bank && e.srow == row && e.col == col && e.poison && e.be != 0
  | .poisonize => e.bank == bank && e.srow == row && e.col == col
  | .reencode => e.bank == bank && e.srow == row && e.stale
  | .segClear k => k == row / 512
  | _ => e.rewrites bank row

/-- The poison state in which a read leaves a line of the oldest entry, recorded as of the entry's acceptance: what entries accepted after
it have recorded stands (R268, R297). -/
def State.recordLine (s : State) (q : Nat) (e : Entry) (col : Nat) (poison : Bool) : State :=
  if ((s.queue q).entries.drop 1).any (fun x => x.recorded e.bank e.srow col) then s
  else (s.prlLine q e.bank e.srow col poison).staleWrite q e.bank e.srow col poison

/-- A line that an entry writes back: recorded in the lists, and written. -/
def State.writeBack (s : State) (q : Nat) (e : Entry) (stored : BitVec 512) (poison : Bool) : State :=
  (s.recordLine q e e.col poison).entryWords q (some [wordOf stored poison])

/-! ### Answers of reads -/

/-- The status of a read (R112): TEN's UE 1 is Poison mode. -/
def State.readStatus (s : State) (r : Req) (poisoned : Bool) : Nat :=
  if !poisoned then stOK else if s.attr r.epoch TEN_R_UE r.region then stPoison else stUE

/-- A read that ends in UE confers no copy: its requester, recorded when the read was ordered, is recorded as not holding the line,
as R113 has it; a forward that meanwhile went to that requester is served by HOME (R141; assumption 116). -/
def State.withdraw (s : State) (r : Req) : State :=
  if r.grant = grI then s
  else match s.trks.find? (fun t => t.la == r.la && t.kind != .inv && !t.serve && t.awaited.any (fun a => a.1 == r.aid)) with
  | some t => s.holderGone t r.aid
  | none => match s.ent r.la with
    | some e => if e.names r.aid then s.dropHolder r (e.leave r.aid) else s
    | none => s

/-- A read's data for an agent's request (R96, R112). -/
def State.answerRead (s : State) (r : Req) (d : BitVec 512) (poisoned : Bool) : State :=
  let st := s.readStatus r poisoned
  if st = stUE then (s.withdraw r).finishGated r.gate r.id stUE 0 none else s.finishGated r.gate r.id st r.grant (some d)

/-- The read of the i-th result line of a Bake for its row copies, in ascending node offset (R368). -/
def State.rowCopy (s : State) (b : Bake) (i : Nat) : State :=
  let n := s.nextId
  let la := b.spanD.2 / 64 + i
  (s.homeIntern .resync la b.spanD.1).updReq n (fun r => { r with
    gen := rsCopy, mid := b.id, val := i, tid := b.tid, job := b.job, epoch := b.epoch, key := b.key b.spanD la })

/-- A line read for the Twin channel: resynchronization, or the copy of a Bake's result, which the next one follows (R361,
R368, R378). -/
def State.resyncData (s : State) (r : Req) (d : BitVec 512) (poison : Bool) : State :=
  let stored := cryptLine true r.key r.off d
  if r.gen = rsCopy then
    let s1 := s.twLineSend r.off stored poison twCopy r.tid r.job (some r.id)
    match s1.bake r.mid with
    | some b => if r.val + 1 < b.len then s1.rowCopy b (r.val + 1) else s1
    | none => s1
  else
    let s1 := ((s.endTx r.la).endReq r.id).twLineSend r.off stored poison twResync 0 0 none
    { s1 with twin := { s1.twin with resynced := s1.twin.resynced + 1 } }

/-- The data of a read that a request waits for. -/
def State.reqData (s : State) (rid : Nat) (e : Entry) (d : BitVec 512) (rd : Reading) : State :=
  match s.req rid with
  | none => s
  | some r =>
    match r.op with
    | .walk => if r.gen ≠ 0 then (s.endReq rid).migrWalkData r d rd.poisoned
      else (s.walkData r.mid (if rd.poisoned then 0 else 1) d rd.poisoned).endReq rid
    | .rekey => s.rekeyData r d rd.poisoned
    | .migr => s.migrData r d rd.poisoned
    | .planRead => (s.planData r.mid r.gen d rd.poisoned).endReq rid
    | .resync => s.resyncData { r with key := e.key } d rd.poisoned
    | _ => if r.intern then s.endReq rid else s.answerRead r d rd.poisoned

/-- A set's line read from the store (R128, R149): the set is whole with its fourth line, and requests that wait for it are
ordered. -/
def State.setData (s : State) (set : Nat) (rid : Option Nat) (bad : Bool) : State :=
  let s1 := if bad then s.breakSet set else s
  match rid.bind s1.req with
  | none => s1
  | some r =>
    if r.wait ≤ 1 then
      ((s1.fillFrame set).closeLine r.la).updReq r.id (fun x => { x with place := .home, wait := 1000 })
    else s1.updReq r.id (fun x => { x with wait := x.wait - 1 })

/-- A Read entry's data. -/
def State.readData (s : State) (q : Nat) (e : Entry) (why : ReadFor) (rd : Reading) : State :=
  let d := cryptLine false e.key e.off (lineOf rd.data)
  let store := match why with
    | .dirSet _ => true
    | _ => false
  let s1 := (s.demandRas q e rd store).cryptCount e.key e.tid e.job
  match why with
  | .req rid => s1.reqData rid e d rd
  | .dirSet set => s1.setData set e.req rd.poisoned
  | .rescan => s1.rescanLine q e.bank e.srow e.col rd.poisoned
  | .scan bid => s1.scanLine bid e.col rd.poisoned
  | .lane ch n => s1.laneData ch n d rd.poisoned

/-! ### Entries that read and then write -/

/-- A Merge's data (R111, R245): the merged line is written, poisoned where the stored line was or could not be corrected;
a mask of zero writes nothing (R97). -/
def State.mergeData (s : State) (q : Nat) (e : Entry) (rid : Nat) (rd : Reading) : State :=
  let s1 := s.countReading (e.at_ q e.col) rd srcMerge
  let old := cryptLine false e.key e.off (lineOf rd.data)
  let bad := rd.poisoned
  let writes := e.be != 0 || rd.bad
  let stored := cryptLine true e.key e.off (mergeLine old e.data e.be)
  let poison := bad || (e.poison && e.be != 0)
  let s2 := if writes then
      ((s1.cryptCount e.key e.tid e.job).cryptCount e.key e.tid e.job).writeBack q e stored poison
    else (s1.cryptCount e.key e.tid e.job).entryWords q none
  match s2.req rid with
  | none => s2
  | some r =>
    let st := if e.be = 0 || !bad then stOK else s2.readStatus r true
    let s3 := if r.intern then s2 else s2.updReq rid (fun x => { x with val := st })
    if e.mirror then
      (if writes then s3.twLineSend e.off stored poison twWrite e.tid e.job (some rid) else s3.writeDone rid)
    else if r.intern then s3
    else s3.finish rid st 0 none

/-- A Scrub's data (R268, R270, R271): nothing, the correction, or the line written back poisoned. -/
def State.scrubData (s : State) (q : Nat) (e : Entry) (src : Nat) (rd : Reading) : State :=
  let a := e.at_ q e.col
  if e.stale then (s.entryWords q none).placeReencode q e.bank e.srow
  else if rd.bad then
    let s1 := if src = srcDemand then s.scrubUe a rd.meta_ else s.uncorrectable a rd.meta_ src
    (s1.bump RAS_SCRUB_WRITES).writeBack q e (lineOf rd.data) true
  else if rd.fixed.isEmpty then s.entryWords q none
  else
    let s1 := if src = srcDemand then s else s.corrected a rd.fixed src
    (s1.bump RAS_SCRUB_WRITES).writeBack q e (lineOf rd.data) rd.poison

/-- The read and write back that poisons a line (Table 6-3). -/
def State.poisonData (s : State) (q : Nat) (e : Entry) (rd : Reading) : State :=
  let s1 := (s.countReading (e.at_ q e.col) rd srcRead).writeBack q e (lineOf rd.data) true
  if e.mirror then s1.twLineSend e.off (lineOf rd.data) true twWrite e.tid e.job none else s1

/-- A row read whole to be written again (R267, R279): a stale row's lines with poison from the mask, any other's as they
decode. -/
def State.rowData (s : State) (q : Nat) (e : Entry) (source : Nat) (rds : List Reading) : State :=
  let s1 := ((List.range 128).zip rds).foldl (fun (s : State) x =>
    let (c, rd) := x
    let s2 := if e.stale then s else s.countReading (e.at_ q c) rd source
    s2.recordLine q e c rd.poisoned) s
  s1.entryWords q (some (rds.map (fun rd => wordOf (lineOf rd.data) rd.poisoned)))

/-! ### Status (R249, R251) -/

/-- The working refresh interval of a channel (R249), with the override where the floor exceeds the hardware limit (R59). -/
def State.setRefi (s : State) (ch : Nat) : State :=
  let m := s.mch ch
  let limit := if m.hot then 2340 else 4680
  let floor := s.rd MCH_REFI_FLOOR ch
  let want := max floor (s.rd MCH_REFI_CEIL ch)
  let now := min want limit
  let above := decide (floor > limit)
  let s1 := s.wr MCH_REFI_NOW now ch
  if above != m.above then (s1.setMch ch { m with above := above }).policyOvr (pgMCH ch) 0 above floor now else s1

/-- A reading of a stack's temperature in half degrees. -/
def State.stackTemp (s : State) (ch : Nat) (t : Nat) (valid : Bool) : State :=
  let v := if valid then t else 190
  let hot := decide (sgn 16 v ≥ 170)
  let m := s.mch ch
  let s1 := s.wr MCH_TEMP_NOW v ch
  let s2 := if valid then s1.wr MCH_TEMP_VALID 1 ch else s1.raise (pgMCH ch) I_MCH_TEMP_INVALID
  let s3 := if hot != m.hot then (s2.setMch ch { m with hot := hot }).raise (pgMCH ch) I_MCH_REFI_SHORT else s2
  ((s3.setRefi ch).sample (pgMCH ch) 2 (sgn 16 v)).judgeThrottle

/-! ### The return -/

/-- An MCH stopped (R256). -/
def State.stopMch (s : State) (ch step : Nat) : State :=
  (((s.wr H_COND 2 (pgMCH ch)).wr MCH_TRAIN_FAIL_STEP step ch).raise (pgMCH ch) I_MCH_TRAIN_FAIL).crumb (pgMCH ch) 0x401 3
    [packBits [(0, 6, ch), (8, 4, step)]]

/-- The data of the oldest read of a queue, with the errors of its way back. -/
def State.returned (s : State) (q : Nat) (r : Ret) (errs : List (List (Nat × Byte))) : State :=
  let e := r.ent
  let compute := s.computeSeg (s.layoutEpoch e) (e.srow / 512)
  let one := fun (col : Nat) (i : Nat) => readWord compute e.stale e.mask col (withErrors (r.words[i]?.getD []) (errs[i]?.getD []))
  match e.kind with
  | .read why => s.readData q e why (one e.col 0)
  | .merge rid => s.mergeData q e rid (one e.col 0)
  | .scrub src => s.scrubData q e src (one e.col 0)
  | .poisonize => s.poisonData q e (one e.col 0)
  | .copy _ => s.rowData q e srcCopy ((List.range 128).map (fun i => one i i))
  | .reencode => s.rowData q e srcReenc ((List.range 128).map (fun i => one i i))
  | _ => s

/-- READ_DATA_RETURN: the oldest outstanding read of a queue returns, in the order of the RD commands (R241). A Retrain that finds a lane
outside its window stops the MCH (R257). -/
def execReadDataReturn (q : Fin 96) (b : ReadBurst) (s : State) : Host.Outcome State Fault Refusal := s.onBlk (pgMCH (q.val / 2)) <|
  let c := s.queue q.val
  match c.rets with
  | [] => .next s
  | r :: rest =>
    if !r.whole then .next s
    else
      let s1 := (s.use [pgMCH (q.val / 2)]).setQueue q.val { c with rets := rest }
      match r.ent.kind, b with
      | .status, .status t valid => .next (s1.stackTemp (q.val / 2) t.toNat valid)
      | .status, .lineError => .next (s1.stackTemp (q.val / 2) 0 false)
      | .status, .lines _ | .status, .tracked _ => .next s
      | .retrain, .tracked false => .next (s1.stopMch (q.val / 2) (s1.rd MCH_TRAIN_STATE (q.val / 2)))
      | .retrain, .tracked true | .retrain, .lines _ => .next s1
      | _, .lines errs => .next (s1.returned q.val r errs)
      | _, _ => .next s

end Sys2Proof.Machine
end

