-- ==== Sys2Proof/Machine/Channels.lean ====
section
/-! DEFINITION. The memory channels' own work: refresh, status and retrain placements (R250, R251, R257), training and the
identity page (R255, R256, R259), command-bus errors (R258) and power entries (R260). -/
namespace Sys2Proof.Machine

open Reg

/-- An entry of the MCH placed in both queues of its channel, counted to TID 0 and JOB 0. -/
def State.placeBoth (s : State) (ch : Nat) (k : EKind) (src : ESrc) : State :=
  let e := plainEntry k src s.openEpoch
  (s.enqueue (2 * ch) e).enqueue (2 * ch + 1) e

/-- Whether a stack is in self-refresh. -/
def State.selfRefresh (s : State) (ch : Nat) : Bool := (s.queue (2 * ch)).power == 2 || (s.queue (2 * ch + 1)).power == 2

/-- REFRESH_PLACEMENT (R250): none while the stack is in self-refresh (R260). -/
def execRefreshPlacement (ch : Fin 48) (s : State) : Host.Outcome State Fault Refusal := s.onBlk (pgMCH ch.val) <|
  if s.mchRuns ch.val && !s.selfRefresh ch.val then .next (s.placeBoth ch.val .refresh .refresh) else .next s

/-- STATUS_PLACEMENT: a Status entry reads the stack through one of its queues, the even one. -/
def execStatusPlacement (ch : Fin 48) (s : State) : Host.Outcome State Fault Refusal := s.onBlk (pgMCH ch.val) <|
  if s.mchRuns ch.val then .next (s.enqueue (2 * ch.val) (plainEntry .status .mch s.openEpoch)) else .next s

/-- RETRAIN_PLACEMENT (R257). -/
def execRetrainPlacement (ch : Fin 48) (s : State) : Host.Outcome State Fault Refusal := s.onBlk (pgMCH ch.val) <|
  if s.mchTrained ch.val then .next (s.placeBoth ch.val .retrain .mch) else .next s

/-! ### Training -/

/-- The steps of Table 10-4 that the passing of time begins, with their AO ticks from the origin: 2.2 ms, 3.0 ms and so on, in ticks of
640 ns. Step 11 ends the training (TRAINING_DONE). -/
def trainSteps : List (Nat × Nat) :=
  [(2, 313), (3, 3438), (4, 4688), (5, 4844), (6, 5000), (7, 12500), (8, 18750), (9, 31250), (10, 39063)]

/-- The time of a step, in AO ticks from the origin. -/
def trainTime (step : Nat) : Nat := ((trainSteps.find? (fun x => x.1 == step)).map (fun x => x.2)).getD 0

/-- A training command of an MCH through a queue, at the present time. -/
def State.trainCmd (s : State) (q : Nat) (x : Cmd) : State :=
  let c := s.queue q
  let t := max s.mcNow (c.slotAt 0 0 x)
  s.setQueue q ({ c.apply x t with now := t, inSlot := 1 }.record 0 x)

/-- A step of Table 10-4 begun, with its commands through the even queue: ZQ calibration by MPC, the four VIDR of the identity page, MRW
(assumption 124). -/
def State.trainEnter (s : State) (ch step : Nat) : State :=
  let cmds := if step = 3 then [.mpc] else if step = 4 then [.vidr 0, .vidr 1, .vidr 2, .vidr 3] else if step = 5 then [.mrw] else ([] : List Cmd)
  (cmds.foldl (fun (s : State) x => s.trainCmd (2 * ch) x) s).wr MCH_TRAIN_STATE step ch

/-- The training of a channel as time passes: the next step once its time has come; a warm reset repeats steps 6 to 9 only (R465). -/
def State.trainTick (s : State) (ch : Nat) : State :=
  let st := s.rd MCH_TRAIN_STATE ch
  let last := if s.rd WARDEN_MEM_KEPT = 1 then 9 else 10
  if st = 0 || st ≥ last || s.rd H_COND (pgMCH ch) = 2 then s
  else if (trainTime (st + 1) : Int) ≤ (s.ao : Int) - (s.mch ch).trainAt then s.trainEnter ch (st + 1) else s

/-- Training begun at a step. -/
def State.trainFrom (s : State) (ch step : Nat) : State :=
  (s.setMch ch { s.mch ch with trainAt := (s.ao : Int) - (trainTime step : Int) }).wr MCH_TRAIN_STATE step ch

/-- STACK_RAILS_GOOD: every MCH that has not trained begins (R255). -/
def execStackRailsGood (s : State) : Host.Outcome State Fault Refusal := s.onBlk pgTMCB <|
  .next (channels.foldl (fun (s : State) ch => if s.rd MCH_TRAIN_STATE ch = 0 then s.trainFrom ch 1 else s) s)

/-- The 19 minima of Table 10-3 from RL to tXS, in mc. -/
def timingTable : List Nat := [17, 16, 17, 17, 39, 56, 2, 2, 16, 6, 12, 36, 9, 24, 24, 36, 354, 9, 366]

/-- Whether an identity page passes (R259, Table 10-5). -/
def idPageOk (b : List Byte) : Bool :=
  let f := fun (at_ n : Nat) => leNat ((b.drop at_).take n)
  b.length == 256 && crc32c (b.take 252) == f 252 4 && b.take 4 == ascii "XD96" &&
    (b.drop 8).take 8 == [2, 16, 0, 2, 0, 2, 13, 8] &&
    ((List.range 19).zip timingTable).all (fun x => decide (f (20 + 2 * x.1) 2 * 12 ≤ x.2 * 10000))

/-- The identity page copied into IDPAGE. -/
def State.copyIdPage (s : State) (ch : Nat) (b : List Byte) : State :=
  (List.range 64).foldl (fun (s : State) i => s.wr MCH_IDPAGE (leNat ((b.drop (4 * i)).take 4)) ch i) s

/-- A training step failed: it is retried once; when it fails again the MCH stops (R256). -/
def State.trainFail (s : State) (ch step : Nat) : State :=
  let m := s.mch ch
  if m.retried && m.step = step then s.stopMch ch step else (s.setMch ch { m with retried := true, step := step }).trainFrom ch step

/-- Rows of a queue that step 10 clears: those of all 512 segments. -/
def stackRows : Nat := 512 * 8192

/-- The rows of a stack zeroed by the Segment clears of Table 10-4, step 10, whose VACT, VAA and PRE count to TID 0 and JOB 0. -/
def State.clearStack (s : State) (ch : Nat) : State :=
  let n := 16 * 512 * 523 * rowBytes
  let s1 := { s with dram := Memory.clear s.dram (2 * ch * n) (2 * n) }
  [1, 5, 4].foldl (fun (s : State) k => (s.bumpCmd ch k (2 * stackRows)).count k 0 0 (2 * stackRows)) s1

/-- A stack trained: cleared and its mask loaded, or, with MEM_KEPT, its contents and its mask as they were (R466). -/
def State.trained (s : State) (ch : Nat) : State :=
  let m := s.mch ch
  let kept := s.rd WARDEN_MEM_KEPT = 1
  let s1 := if kept then s else s.clearStack ch
  let s2 := s1.setMch ch { m with retried := false, pasr := if kept then m.pasr else s1.wantMask ch, held := kept }
  (s2.wr MCH_TRAIN_STATE 0xF ch).wr H_COND 1 (pgMCH ch)

/-- TRAINING_DONE: the steps of Table 10-4 in progress end, or one of the eleven fails. The identity page is read and checked but where a
warm reset repeats steps 6 to 9 only. -/
def execTrainingDone (ch : Fin 48) (idPage : Bytes) (failStep : Option (BitVec 4)) (s : State) : Host.Outcome State Fault Refusal := s.onBlk (pgMCH ch.val) <|
  let n := ch.val
  let st := s.rd MCH_TRAIN_STATE n
  if st = 0 || st = 0xF || s.rd H_COND (pgMCH n) = 2 then .next s
  else match failStep with
    | some k => if 1 ≤ k.toNat && k.toNat ≤ 11 then .next (s.trainFail n k.toNat) else .next s
    | none =>
      if s.rd WARDEN_MEM_KEPT = 1 then .next (s.trained n)
      else
        let s1 := s.copyIdPage n idPage
        .next (if idPageOk idPage then s1.trained n else s1.trainFail n 4)

/-! ### Command-bus errors (R258) -/

/-- The part of a queue's history that a replay repeats: entries, newest first, up to the one that holds the command that
has `back` commands behind it. -/
def replayed : Nat → List Past → List Past
  | _, [] => []
  | back, p :: t => if back < p.cmds.length then [p] else p :: replayed (back - p.cmds.length) t

/-- What a replay still under way has left of the entry that it repeats, after what it has issued of it. -/
def Past.rest (p : Past) (redo : List Past) : Past := match redo with
  | r :: _ => { p with gap := r.gap, start := r.start, cmds := p.cmds ++ r.cmds }
  | [] => p

/-- The replay of a queue: VSTS, VCLR and PREab, then every command from the first of the entry that held the failing command, and what an
earlier replay had still to repeat. -/
def Queue.startRedo (c : Queue) (back : Nat) : Queue :=
  let hs := replayed back c.hist
  let units := match hs with
    | p :: t => t.reverse ++ [p.rest c.redo] ++ c.redo.drop 1
    | [] => c.redo
  { c with hist := Past.blank :: c.hist.drop hs.length, power := 0,
           redo := { gap := 0, start := true, cmds := [.vsts, .vclr, .preab] } :: units.filter (fun p => !p.start) }

/-- PARITY_ALERT: the alert of a queue's stack, with the count of the command that failed (R258). More than 16 within 1 ms
stop the MCH. -/
def execParityAlert (q : Fin 96) (count : BitVec 8) (s : State) : Host.Outcome State Fault Refusal := s.onBlk (pgMCH (q.val / 2)) <|
  let ch := q.val / 2
  let c := s.queue q.val
  if !s.mchRuns ch || c.issued = 0 then .next s
  else
    let m := s.mch ch
    let recent := s.ao :: m.alerts.filter (fun t => decide (s.ao < t + 1563))
    let s1 := ((((s.setMch ch { m with alerts := recent }).bump MCH_CA_ALERT ch).raise (pgMCH ch) I_MCH_ALERT).crumb (pgMCH ch) 0x402 1
      [packBits [(0, 7, q.val), (8, 8, count.toNat)]])
    let s2 := s1.setQueue q.val (c.startRedo ((c.issued + 256 - count.toNat) % 256))
    .next (if recent.length > 16 then s2.stopMch ch (s2.rd MCH_TRAIN_STATE ch) else s2)

/-! ### Power (R260) -/

/-- MCH_POWER_ENTRY: with its queues empty, an MCH in Nap places PDE and one in Doze SRE. -/
def execMchPowerEntry (ch : Fin 48) (s : State) : Host.Outcome State Fault Refusal := s.onBlk (pgMCH ch.val) <|
  let n := ch.val
  let want := s.rd H_PWR_NOW (pgMCH n)
  let empty := fun (q : Nat) => (s.queue q).entries.isEmpty && (s.queue q).waiting.isEmpty && (s.queue q).power < min want 2
  if s.mchTrained n && want != 0 && empty (2 * n) && empty (2 * n + 1) then
    let e := plainEntry (.power (want != 1)) .pwr s.openEpoch
    .next ((s.pushEntries (2 * n) [s.settleEntry (2 * n) e]).pushEntries (2 * n + 1) [s.settleEntry (2 * n + 1) e])
  else .next s

end Sys2Proof.Machine
end

