-- ==== Sys2Proof/Machine/Order.lean ====
section
/-! DEFINITION. Ordering at the home: stage 4 for one request, with Table 5-3 (R129 to R139), capacity recalls (R145),
SNP_SLOW (R144) and the directory probe. -/
namespace Sys2Proof.Machine

open Reg


/-! ### Capacity recalls (R145) -/

/-- Whether an entry may be a victim: no shadow, its line without an open transaction or a waiting request. -/
def State.mayEvict (s : State) (e : DirEnt) : Bool :=
  !e.shadow && !s.isOpen e.la &&
    !s.reqs.any (fun r => r.la == e.la && (r.place == .home || (r.intern && r.op == .recall)))

/-- The victim of a set: S before M, then the highest AGE, then the lowest way. -/
def State.victim (s : State) (set : Nat) : Option DirEnt :=
  minBy (fun e => b2n e.modif * 4096 + (255 - e.age) * 8 + e.way) ((s.setEnts set).filter s.mayEvict)

/-- A request that needs a way of a full set: it waits with its line's transaction open, and a recall of the victim, if
there is one, joins TID 0's internal queue at SHAPE (R145, R146). -/
def State.wantWay (s : State) (r : Req) : State :=
  let (n, s0) := s.nextOrd
  let s1 := if r.place == .waitWay then s
    else ((s0.updReq r.id (fun r => { r with place := .waitWay, wait := 0, order := n })).openLine r.la r.id).bump DIRC_SET_FULL
  match s1.victim (dirSet r.la) with
  | none => s1
  | some e => (s1.updReq r.id (fun r => { r with wait := 1 })).queueIntern .recall 0 0 e.la e.region

/-! ### Table 5-3 -/

/-- A transaction that must await these agents, or goes straight to its bracketed step when there are none. `exact` says
whether the requester is an exact pointer. No free tracker: the request waits (R130). -/
def State.withInv (s : State) (r : Req) (e : DirEnt) (exact : Bool) : State :=
  let targets := s.invTargets r e
  if targets.isEmpty then
    let t : Trk := {
      slot := 0, la := r.la, kind := .inv, view := 0, req := r.id, awaited := [], since := s.ao, slow := false, exact := exact,
      serve := false, fault := false, before := some e }
    (s.bracket t r).settleEnd r.la
  else match s.trkFor r with
    | none => s.waitTrk r
    | some n => s.openTrk n r .inv e targets exact

/-- A forward to the owner of an M entry. -/
def State.forward (s : State) (r : Req) (e : DirEnt) (kind : TrkKind) : State :=
  match s.trkFor r with
  | none => s.waitTrk r
  | some n => s.openTrk n r kind e [(e.owner, false)] false

/-- An eviction's end at once, with the change of the entry it made. -/
def State.evictDone (s : State) (r : Req) : State := if r.intern then s.endReq r.id else s.finish r.id stOK 0 none

/-- A WB (R138): stored from the recorded owner, discarded and counted from any other agent. -/
def State.orderWb (s : State) (r : Req) : State :=
  let stale := fun (s : State) => (s.bump HOME_STALE_WB).crumb pgHOME 0x201 1 [r.la % 2 ^ 32, r.la / 2 ^ 32, r.aid]
  match s.ent r.la with
  | none => (stale s).evictDone r
  | some e =>
    if e.modif then
      if e.owner = r.aid then (s.dropHolder r none).serveWrite r else (stale s).evictDone r
    else (stale (if e.names r.aid then s.dropHolder r (e.leave r.aid) else s)).evictDone r

/-- A CLN_EVICT. -/
def State.orderEvict (s : State) (r : Req) : State :=
  match s.ent r.la with
  | none => s.evictDone r
  | some e => (if e.names r.aid then s.dropHolder r (e.leave r.aid) else s).evictDone r

/-- Whether a request may take a free way of its set: no other waits for one longer (R145). -/
def State.mayTake (s : State) (r : Req) : Bool :=
  (s.freeWay (dirSet r.la)).isSome &&
    (s.wayWaiters (dirSet r.la)).all (fun x => x.id == r.id || ((r.place == .waitWay || r.wait == ordered) && decide (r.order < x.order)))

/-- A line that no entry is of: a new entry in a free way, or a wait for one. -/
def State.orderNew (s : State) (r : Req) : State :=
  if s.mayTake r then
    s.serveMem r grE true (some (entOf r.la r.region true r.aid (s.agent r.aid).inc))
  else s.wantWay r

/-- The entry found by a probe, or zeros (Table 5-8). -/
def State.probeDone (s : State) (r : Req) : State :=
  let e := s.dir.find? (fun e => e.la == r.la)
  let v := entryBits e false
  let s1 := (List.range 8).foldl (fun (s : State) i => s.wr DIRC_PROBE_ENTRY (v / 2 ^ (32 * i)) 0 i) s
  ((s1.wr DIRC_PROBE_DONE 1).wr DIRC_PROBE_HIT (b2n e.isSome)).endReq r.id

/-- A request of the Twin channel at its place in a line's order: the resync pointer passes the line, and it is read without
snoops; or the line's entry goes to the partner as it stands (R378). -/
def State.twinRead (s : State) (r : Req) : State :=
  if r.gen = 1 then ((s.twDelta r.la r.region (s.ent r.la) false 0 0).2).endReq r.id
  else
    let s1 := if r.gen = 0 then { s with twin := { s.twin with resync := s.twin.resync.map (fun p => max p (r.off + 64)) } } else s
    s1.serveMem r grI false none

/-- The settlement of a line's pending record after a takeover (R373): SNP_INV to every Live agent that the record or the
line's entry names, after which the line is I. -/
def State.settlePending (s : State) (r : Req) : State :=
  let recs := s.twin.pendRecs.filter (fun e => e.la == r.la) ++ (s.ent r.la).toList
  let names := recs.foldl (fun (l : List (Nat × Bool)) e =>
    let a := if e.coarse then (s.groupAgents e).map (fun x => (x, true)) else ((e.ptrs.map (fun p => p.1)).filter s.live).map (fun x => (x, false))
    l ++ a.filter (fun x => !l.any (fun y => y.1 == x.1))) []
  let done := fun (s : State) => { s with twin := { s.twin with pendRecs := s.twin.pendRecs.filter (fun e => e.la != r.la) } }
  if names.isEmpty then ((done s).dropHolder r none).endReq r.id
  else match s.trkFor r with
    | none => s.waitTrk r
    | some n => (done s).openTrk n r .inv { (entOf r.la r.region true 0 0) with ptrs := [] } names false

/-- Lines of Uncached regions (R129): no lookup, every request served from memory, no state. -/
def State.orderUncached (s : State) (r : Req) : State :=
  match r.op with
  | .rdS | .rdOwn | .upg | .rdCur | .planRead | .walk => s.serveMem r grI false none
  | .resync => s.twinRead r
  | .wrFull | .wb | .migrStore => s.serveWrite r
  | .wrPtl => s.serveMerge r
  | .clnEvict => s.evictDone r
  | .migr => s.migrRead r
  | .rekey => s.readOwn r
  | .probe => s.probeDone r
  | _ => s.endReq r.id

/-- Lines of Coherent regions (Table 5-3). -/
def State.orderCoherent (s : State) (r : Req) : State :=
  match r.op, s.ent r.la with
  | .probe, _ => s.probeDone r
  | .wb, _ => s.orderWb r
  | .clnEvict, _ => s.orderEvict r
  | .sweep, _ => s.endReq r.id
  | .rekey, _ => s.readOwn r
  | .resync, _ => s.twinRead r
  | .walk, _ => s.serveMem r grI false none
  | .settle, _ => s.endReq r.id
  | .rdS, none | .rdOwn, none | .upg, none => s.orderNew r
  | .rdCur, none | .planRead, none => s.serveMem r grI false none
  | .wrFull, none | .migrStore, none => s.serveWrite r
  | .wrPtl, none => s.serveMerge r
  | .migr, none => s.migrRead r
  | .rdS, some e =>
    if e.modif then (if e.owner = r.aid then s.serveMem r grE false none else s.forward r e .fwdS)
    else s.serveMem r grS true (some (e.join r.aid (s.agent r.aid).inc))
  | .rdOwn, some e =>
    if e.modif then (if e.owner = r.aid then s.serveMem r grE false none else s.forward r e .fwdOwn)
    else s.withInv r e false
  | .upg, some e =>
    if e.modif && e.owner = r.aid then s.serveMem r grE false none else s.withInv r e (!e.modif && e.names r.aid)
  | .rdCur, some e =>
    if e.modif && !(e.owner = r.aid) then s.forward r e .fwdCur else s.serveMem r grI false none
  | .planRead, some e => if e.modif then s.withInv r e false else s.serveMem r grI false none
  | .bakeInv, none => s.endReq r.id
  | .bakeInv, some e => if r.gen = 1 || e.modif then s.withInv r e false else s.endReq r.id
  | .wrFull, some e | .wrPtl, some e | .migrStore, some e | .migr, some e => s.withInv r e false
  | .recall, some e => (if r.wait = ordered then s else (s.bump HOME_RECALLS).winAdd pgDIRC 1 1).withInv r e false
  | _, _ => (s.endReq r.id).wakeSet (dirSet r.la)

/-! ### Stage 4 -/

/-- Whether a request is answered FENCED at stage 4, and whether with LOAD 15 (R108, R152, R156, R357). One that has been ordered goes on
whatever happens (R156). Probes and the work of a PLAN_LOAD are neither line requests nor Bakes. -/
def State.fencedAt4 (s : State) (r : Req) : Option Bool :=
  let mir := s.attr r.epoch TEN_R_MIRROR r.region
  if r.ordered then none
  else if r.intern && (r.op == .probe || r.op == .planRead || (r.op == .wrPtl && r.gen = 3)) then none
  else if mir && s.twin.turn != tuHolder && !(r.intern && s.twin.turn == tuHanding) then some true
  else if r.intern then none
  else if !mir && pgaNid r.pga != s.nid then some false
  else if (r.op == .wb || r.op == .clnEvict) && r.admInc.isSome then none
  else if !s.live r.aid || (s.agent r.aid).inc % 8 != r.incLo then some false
  else none

/-- The settlement of a line of a broken set (R149): SNP_INV to every Live agent, after which the line is I. The agents are not taken as
snooped by group: an RD_OWN of one of them waits in the line's queue and is no answer (DESIGN CHOICE, assumption 121). The request that
found the line unsettled waits behind it. -/
def State.settleLine (s : State) (r : Req) : State :=
  let ags := (s.agents.filter (fun a => a.2.state == agLive)).map (fun a => (a.1, false))
  if ags.isEmpty then s.markSettled r.la
  else match s.trkFor r with
    | none => s.waitTrk r
    | some n =>
      let s1 := s.homeIntern .settle r.la r.region
      match s1.req s.nextId with
      | none => s
      | some i =>
        let e := { (entOf r.la r.region true 0 0) with ptrs := [] }
        s1.openTrk n i .inv e ags false

/-- The lookup of a request's set: a hit is counted, and a miss reads the set's four lines first (R128). -/
def State.lookup (s : State) (r : Req) : Option State :=
  if s.cached (dirSet r.la) then some (if r.wait = lookedUp || r.wait = ordered then s else s.bump DIRC_CACHE_HIT)
  else none

/-- A miss: the request waits, with its line's transaction open, for the four lines of its set. -/
def State.missSet (s : State) (r : Req) : State :=
  let s1 := (s.bump DIRC_CACHE_MISS).updReq r.id (fun r => { r with place := .memRead, wait := 4 })
  (s1.openLine r.la r.id).readSet (dirSet r.la) r.tid r.job r.epoch (some r.id)

/-- The sweep action that goes before a request (R157), but for a lost owner's own eviction, which is carried out against its entry
(R156). -/
def State.sweepFor (s : State) (r : Req) : State :=
  if !r.intern && (r.op == .wb || r.op == .clnEvict) && s.dead r.aid && (s.ent r.la).any (fun e => e.modif && e.owner == r.aid) then s else s.applySweep r.la

/-- A line request ordered (R137, R157): FENCED, the lookup, the sweep action, a wait for settlement, and Table 5-3. -/
def State.orderReq (s : State) (r : Req) : State :=
  match s.fencedAt4 r with
  | some m => if r.intern then (if r.op == .settle then (s.endReq r.id).markSettled r.la else s.endReq r.id) else s.finish r.id stFenced 0 none nidNone (if m then some 15 else none)
  | none =>
    if s.attr r.epoch TEN_R_COH r.region then s.orderUncached r
    else match s.lookup r with
      | none => s.missSet r
      | some s1 =>
        let s2 := (if r.op == .probe || r.wait = ordered then s1 else s1.touch r.la).sweepFor r
        if r.op == .settle && r.gen = 1 then s2.settlePending r
        else if s2.unsettled r.la then
          if r.op == .settle && (s2.trkFor r).isSome then (s2.endReq r.id).settleLine r else s2.settleLine r
        else s2.orderCoherent r

/-- Whether HOME may order a request as far as its line goes: the line has no open transaction and no Bake's fence covers it. -/
def State.orderable (s : State) (r : Req) : Bool := !s.isOpen r.la && !s.fenced r

/-- Whether a request that HOME could order must let another go first: one that came earlier to the home and is bound for the same
sub-channel (R20). -/
def State.lateFor (s : State) (r : Req) : Bool :=
  s.reqs.any (fun x => x.place == .home && decide (x.order < r.order) && x.id != r.id && (hashLine x.la).1 == (hashLine r.la).1 && s.orderable x)

/-- An ordered request that waits for a way, a tracker or its set goes on, with the line that it holds (R130, R145, R156). -/
def State.goOn (s : State) (r : Req) : State :=
  ((s.closeLine r.la).updReq r.id (fun r => { r with place := .home })).orderReq { r with place := .home }

/-- HOME_ORDER of a line: its oldest waiting request is ordered if the line has no open transaction and no Bake's fence
covers it; a request that HOME has ordered and that waits for a way, a tracker or its set tries again. -/
def execHomeOrder (la : BitVec 37) (s : State) : Host.Outcome State Fault Refusal := s.onBlk pgHOME <|
  if s.rd H_COND pgHOME == 2 then .next s
  else match s.reqs.find? (fun r => (r.place == .waitWay || r.place == .waitTrk) && r.la == la.toNat) with
  | some r =>
    if r.place == .waitTrk then .next (s.goOn r)
    else if s.mayTake r then .next (s.goOn { r with wait := ordered })
    else if r.wait = 0 then .next (s.wantWay r) else .next s
  | none =>
    match minBy (fun r => r.order) (s.waitingAt la.toNat) with
    | none => .next s
    | some r =>
      if !s.orderable r || s.lateFor r then .next s
      else
        let k := (s.keyFor r.epoch r.region r.la).map (·.1)
        let s0 := (s.use [pgHOME, pgDIRC]).hint (pgMCH ((hashLine r.la).1 / 2) :: (if k.isSome then [pgCRYPT] else []))
        let s1 := (s0.updReq r.id (fun r => { r with key := k, ordered := true })).orderReq { r with key := k }
        .next (s1.sample pgHOME 1 s1.longestQueue)

/-- SNP_SLOW (R144): a tracker of the line that has waited SNP_SLOW_LIMIT is reported once. Of several awaited agents the Crumb names the
first that was snooped (DESIGN CHOICE, assumption 121). -/
def execSnpSlow (la : BitVec 37) (s : State) : Host.Outcome State Fault Refusal := s.onBlk pgHOME <|
  match s.trks.find? (fun t => t.la == la.toNat && !t.slow && decide (t.since + s.rd HOME_SNP_SLOW_LIMIT ≤ s.ao)) with
  | none => .next s
  | some t =>
    let a := match s.req t.req with
      | some r => r.aid
      | none => 0
    let s1 := { s with trks := updFirst (fun x => x.slot == t.slot) (fun x => { x with slow := true }) s.trks }
    .next ((s1.raise pgHOME I_HOME_SNP_SLOW).crumb pgHOME 0x203 1
      [t.la % 2 ^ 32, t.la / 2 ^ 32, packBits [(0, 12, a), (16, 12, (t.awaited.headD (0, false)).1)]])

/-- PROBE_GO: a probe of PROBE_LA joins the line's conflict queue. -/
def execProbeGo (s : State) : Host.Outcome State Fault Refusal := s.onBlk pgDIRC <|
  let la := s.rd DIRC_PROBE_LA
  .next (((s.wr DIRC_PROBE_DONE 0).wr DIRC_PROBE_HIT 0).homeIntern .probe la ((s.regionOf s.openEpoch (la * 64)).getD 0))

end Sys2Proof.Machine
end

