-- ==== Sys2Proof/Machine/Twin.lean ====
section
/-! DEFINITION. TWIN: the Turn and its lease (R369 to R376), the stream as the other node applies it (R360 to R364), Bakes on
mirrored regions (R366 to R368), resynchronization (R377 to R379) and handover (R380). -/
namespace Sys2Proof.Machine

open Reg

/-! ### The Turn (Table 15-4) -/

/-- TURN_STATE changed. -/
def State.setTurn (s : State) (t : Nat) : State :=
  if s.twin.turn = t then s else ({ s with twin := { s.twin with turn := t } }).raise pgTWIN I_TWIN_TURN_CHANGE

/-- Whether a region is mirrored. -/
def State.mirrored (s : State) (n : Nat) : Bool := s.attr s.openEpoch TEN_R_MIRROR n

/-- Whether a line lies in a mirrored region. -/
def State.mirLine (s : State) (la : Nat) : Bool := (s.regionOf s.openEpoch (la * 64)).any s.mirrored

/-- The shadow entries become this node's own (R373). -/
def State.ownShadows (s : State) : State := { s with dir := s.dir.map (fun e => { e with shadow := false }) }

/-- The entries of mirrored lines become shadows of the holder's. -/
def State.makeShadows (s : State) : State :=
  { s with dir := s.dir.map (fun e => if s.mirrored e.region then { e with shadow := true } else e) }

/-- What waited for the acknowledgement of messages goes on: responses, snoops, and writes past their observation point. -/
def State.twGo (s : State) (ns : List Nat) : State :=
  let gs := s.twin.gates.filter (fun g => ns.contains g.1)
  let ws := s.twin.writes.filter (fun w => ns.contains w.1)
  let s1 := { s with twin := { s.twin with
    gates := s.twin.gates.filter (fun g => !ns.contains g.1), writes := s.twin.writes.filter (fun w => !ns.contains w.1) } }
  let s2 := gs.foldl (fun (s : State) g => match g.2 with
    | .rsp rid st gr d => s.finish rid st gr d
    | .snp aid m tid job => s.sendAgent aid m tid job
    | .bi p kind la addr => s.backInv p kind la addr) s1
  ws.foldl (fun (s : State) w => s.writeDone w.2) s2

/-- The set scanner without a directory image to send. -/
def Scan.noImage (c : Scan) : Option Scan := { c with image := none }.rest

/-- An entry that sends nothing to the partner any more. -/
def Entry.solo (e : Entry) : Entry := { e with mirror := false }

/-- The masked writes of a queue that a mirrored line's acknowledgement would have ended. -/
def Queue.mirMerges (c : Queue) : List Nat :=
  ((c.entries ++ c.rets.map (fun r => r.ent)).filter (fun e => e.mirror)).filterMap (fun e => match e.kind with
    | .merge rid => some rid
    | _ => none)

/-- A masked write that its queue has accepted, whose transaction ends as one of a line that is not mirrored (R111, R365). -/
def State.mergeAccepted (s : State) (rid : Nat) : State :=
  match s.req rid with
  | some r => if r.intern then s.writeDone rid else s.endTx r.la
  | none => s

/-- Writes that stand in the queues reach their observation point at acceptance again, and nothing of them is streamed (R365, R372). -/
def State.unmirror (s : State) : State :=
  let ms := (s.queues.flatMap (fun q => q.2.mirMerges)).eraseDups
  let s1 := { s with queues := Tab.mapVal (fun (c : Queue) => { c with
    entries := c.entries.map Entry.solo, waiting := c.waiting.map Entry.solo, rets := c.rets.map (fun r => { r with ent := r.ent.solo }) }) s.queues }
  ms.foldl (fun (s : State) i => s.mergeAccepted i) s1

/-- A holder that no longer streams: nothing waits for acknowledgements any more (R365). -/
def State.twQuit (s : State) : State :=
  let ns := s.twin.unacked.map (fun u => u.1) ++ s.twin.waiting.map (fun u => u.1)
  let s1 := { s with twin := { s.twin with
    unacked := [], waiting := [], leased := false, synced := false, resync := none, bakes := s.twin.bakes.filter (fun t => !t.holder) } }
  let s2 := (s1.unmirror.twGo ns).sample pgTWIN 0 0
  { s2 with
    reqs := s2.reqs.filter (fun r => !(r.op == .resync && r.intern && r.gen ≤ 1 && r.place != .memRead)),
    scan := s2.scan.bind Scan.noImage }

/-- The node becomes the solo holder, with one move of the Turn more. -/
def State.soloHolder (s : State) : State :=
  ({ s with twin := { s.twin with
      leased := false, synced := false, current := false, desync := false, heard := none, resync := none, handing := none, unacked := [],
      waiting := [], gates := [], writes := [], renewals := [], accepting := [], turnCount := (s.twin.turnCount + 1) % 2 ^ 32 } }).ownShadows.setTurn tuHolder

/-! ### The fence (R372) -/


/-- Requests of mirrored lines at HOME or below: an agent's is answered FENCED with LOAD 15, the node's own end. -/
def State.fenceReqs (s : State) : State :=
  let rs := s.reqs.filter (fun r => r.atHome && s.attr r.epoch TEN_R_MIRROR r.region && !(r.op == .resync && r.gen = rsStore))
  let s1 := { s with
    trks := s.trks.filter (fun t => !rs.any (fun r => r.id == t.req)), openTx := s.openTx.filter (fun o => !rs.any (fun r => r.id == o.2)) }
  rs.foldl (fun (s : State) r => if r.intern then s.endReq r.id else s.finish r.id stFenced 0 none nidNone (some 15)) s1

/-- Bakes that name a mirrored region stop at their safe points. -/
def State.fenceBakes (s : State) : State :=
  (s.bakes.filter (fun b => s.bakeMirrored b && !b.replay)).foldl (fun (s : State) b => (s.conclude b.id causeFault fcTurn 0).afterEnd b.id) s

/-- The holder fences itself. Nothing more of what its queues hold is streamed, and snoop answers that come later are stray (R143). -/
def State.selfFence (s : State) : State :=
  let t := s.twin
  let tw : Twin := { t with
    current := true, leased := false, synced := false, resync := none, handing := none, renewals := [], unacked := [], waiting := [], gates := [],
    writes := [], bakes := t.bakes.filter (fun x => !x.holder) }
  let rot : Option Rot := s.rot.map (fun (r : Rot) => { r with issued := r.issued && !s.mirrored r.region })
  let s1 := ({ s with twin := tw, rot := rot, scan := s.scan.bind Scan.noImage }).setTurn tuFenced
  let gated := t.gates.filterMap (fun g => match g.2 with
    | .rsp rid _ _ _ => some rid
    | .snp _ _ _ _ | .bi _ _ _ _ => none)
  let s2 := gated.foldl (fun (s : State) rid => s.finish rid stFenced 0 none nidNone (some 15)) s1
  let s2' : State := { s2 with owed := s2.owed.filter (fun o => !s2.mirLine o.2.1) }
  let s3 := (s2'.fenceReqs.fenceBakes.unmirror.makeShadows).bump TWIN_SELF_FENCES
  (s3.raise pgTWIN I_TWIN_SELF_FENCED).crumb pgTWIN 0x601 2 [t.ackedLseq, s.ao - t.ackedSent]

/-- FENCE_DEADLINE: the deadline of a leased holder has come. -/
def execFenceDeadline (s : State) : Host.Outcome State Fault Refusal := s.onBlk pgTWIN <|
  let t := s.twin
  if (t.turn = tuHolder || t.turn = tuHanding) && t.leased && t.ackedSent + s.rd TWIN_FENCE_T ≤ s.ao then .next (s.use [pgTWIN]).selfFence else .next s

/-! ### Takeover (R373) -/

/-- The settlement of a pending record, ahead of every request that waits for its line. -/
def State.settleRecord (s : State) (e : DirEnt) : State :=
  let r := { Req.blank with
    id := s.nextId, op := .settle, intern := true, off := e.la * 64, region := e.region, place := .home, epoch := s.openEpoch, gen := 1,
    key := (s.keyFor s.openEpoch e.region e.la).map (·.1) }
  { s with reqs := r :: s.reqs, nextId := s.nextId + 1 }

/-- A Bake record still open: its replay stops, and its status word is to say ABORTED by fault TURN. -/
def State.turnBake (s : State) (t : TwBake) : State :=
  match t.bid.bind s.bake with
  | some b =>
    let s1 := (if b.decided then s else s.conclude b.id causeFault fcTurn 0).updBake b.id (fun b => { b with
      replay := false, turned := true, cause := causeFault, fault := fcTurn, faultCh := 0, stage := min b.stage 4 })
    s1.afterEnd b.id
  | none =>
    let r := { Req.blank with id := s.nextId, tid := t.tid, job := t.job, addr := t.btag * 64, epoch := s.openEpoch }
    let b : Bake := { s.bakeOf r t.desc.toNat none with turned := true, decided := true, cause := causeFault, fault := fcTurn }
    { s with bakes := s.bakes ++ [b], nextId := s.nextId + 1 }

/-- The takeover. -/
def State.takeover (s : State) : State :=
  let recs := s.twin.pendRecs
  let bs := s.twin.bakes.filter (fun t => !t.holder)
  let s1 := s.soloHolder
  let s2 := { s1 with twin := { s1.twin with bakes := [] } }
  let s3 := (s2.raise pgTWIN I_TWIN_TAKEOVER).crumb pgTWIN 0x602 2 [packBits [(0, 15, recs.length), (16, 16, bs.length)], s2.twin.turnCount]
  bs.foldl (fun (s : State) t => s.turnBake t) (recs.foldl (fun (s : State) e => s.settleRecord e) s3)

/-- TAKEOVER: a synced Standby at its takeover deadline (R370). -/
def execTakeover (s : State) : Host.Outcome State Fault Refusal := s.onBlk pgTWIN <|
  match s.twin.heard with
  | some t =>
    if s.twin.turn = tuStandby && s.twin.synced && t + s.rd TWIN_LEASE_T + s.rd TWIN_GUARD_T ≤ s.ao then .next (s.use [pgTWIN, pgHOME]).takeover
    else .next s
  | none => .next s

/-! ### Renewals (R369) -/

/-- Whether a message is of the Twin channel. -/
def Msg.isTwin (m : Msg) : Bool := m.cls.toNat == clsSys && 0x90 ≤ m.opc && m.opc ≤ 0x9F

/-- A renewal or its answer, ahead of every other Twin message that waits for credit (R359). -/
def State.twFirst (s : State) (m : Msg) : State :=
  match s.twPort with
  | none => s
  | some p =>
    let c := s.port p
    let a := c.txq.takeWhile (fun x => !Msg.isTwin x.1)
    ((s.setPort p { c with txq := a ++ [(m, none)] ++ c.txq.drop a.length }).count 0 0 0 1).pump p

/-- TW_RENEW. -/
def State.renew (s : State) : State :=
  let t := s.twin
  let n := (t.lseq + 1) % 2 ^ 16
  ({ s with twin := { t with lseq := n, renewals := (t.renewals.filter (fun (r : Nat × Nat) => r.1 != n)) ++ [(n, s.ao)] } }).twFirst
    (mkNodeMsg 0x98 s.nid (s.rd TWIN_PARTNER_NID) 0 [(45, 16, n), (61, 1, b2n t.desync)])

/-- RENEW_TIMER: every RENEW_T the holder sends TW_RENEW. -/
def execRenewTimer (s : State) : Host.Outcome State Fault Refusal := s.onBlk pgTWIN <|
  if s.twin.turn = tuHolder then .next (s.use [pgTWIN]).renew else .next s

/-- A Standby that gives up its synced copy (R376); replays that run are of no further use. -/
def State.toFenced (s : State) : State :=
  let rs := s.twin.bakes.filterMap (fun t => if t.holder then none else t.bid)
  let s1 := ({ s with twin := { s.twin with synced := false, heard := none, bakes := s.twin.bakes.filter (fun t => t.holder) } }).setTurn tuFenced
  rs.foldl (fun (s : State) b => (s.conclude b causeAbort 0 0).afterEnd b) s1

/-- TW_RENEW_ACK with the node's flags. -/
def State.renewAck (s : State) (n : Nat) : State :=
  s.twFirst (mkNodeMsg 0x99 s.nid (s.rd TWIN_PARTNER_NID) 0 [(45, 16, n), (61, 1, b2n s.twin.synced), (62, 1, s.rd TWIN_PREFERRED), (63, 1, s.rd TWIN_HOLD_BACK)])

/-- A Standby that leaves (R376): the holder hears SYNCED 0, under the number of the latest renewal received. -/
def State.leaveNow (s : State) : State :=
  let s1 := s.toFenced
  s1.renewAck s1.twin.heardLseq

/-! ### Handover (Table 15-7) -/

/-- Step 2: no transaction and no Bake of a mirrored line is left, and everything is acknowledged. -/
def State.handDrained (s : State) : Bool :=
  s.twin.unacked.isEmpty && s.twin.waiting.isEmpty && !s.bakes.any (fun b => b.order.isSome && !b.replay && s.bakeMirrored b) &&
    !s.reqs.any (fun r => r.atHome && r.place != .home && s.attr r.epoch TEN_R_MIRROR r.region) &&
    !s.queues.any (fun q => (q.2.entries ++ q.2.waiting).any (fun e => e.mirror) || q.2.rets.any (fun r => r.ent.mirror))

/-- The next step of a handover that can be taken: TW_HANDOVER once everything is drained, and Standby once it is
acknowledged, which a node that closes leaves at once (Table 19-7). The partner goes on numbering from TW_HANDOVER (assumption 50). -/
def State.handoverStep (s : State) : State :=
  if s.twin.turn ≠ tuHanding then s
  else match s.twin.handing with
  | none =>
    if s.handDrained then
      let (n, s1) := s.twSeq 0x9A [] [] 0 0
      { s1 with twin := { s1.twin with handing := some n } }
    else s
  | some n =>
    if s.twAcked n then
      let s1 := ({ s with twin := { s.twin with
          leased := false, synced := true, handing := none, renewals := [], heard := none, applied := n, ackSent := n, accepting := [], sinceAck := 0,
          pendRecs := [], bakes := [] } }).makeShadows.setTurn tuStandby
      if s1.shape.closing then s1.leaveNow else s1
    else s

/-- Step 1 of a handover. -/
def State.handoverBegin (s : State) : State := (s.setTurn tuHanding).handoverStep

/-! ### Messages in -/

/-- The TID and JOB that caused a Twin message received by the holder (R27, R361): those of the message that a TW_ACK names, and of the
Bake of a TW_BAKE_RSP; TID 0 and JOB 0 for any other. -/
def State.twCost (s : State) (opc : Nat) (m : Msg) : Nat × Nat :=
  if opc = 0x92 then ((s.twin.unacked.find? (fun u => u.1 == m.f 45 24)).map (fun u => u.2.2)).getD (0, 0)
  else if opc = 0x95 then
    ((s.twin.bakes.find? (fun t => t.holder && t.tid == m.f 69 8 && t.btag == m.f 77 16)).map (fun t => (t.tid, t.job))).getD (0, 0)
  else (0, 0)

/-- A Twin message in (R360): without option W it is answered NOUNIT; one of no partner is discarded and counted. -/
def State.twIn (s : State) (p opc : Nat) (m : Msg) : Option (State × Bool) :=
  (s.portIn p clsSys opc m).map (fun (x : State × Bool) =>
    if x.2 then
      let s1 := x.1.count 0 (s.twCost opc m).1 (s.twCost opc m).2 (1 + m.data.length)
      if !s1.opts.w then (s1.sysAnswer p m stNounit 0, false)
      else if s1.rd TWIN_PAIR_EN = 1 && m.srcNid = s1.rd TWIN_PARTNER_NID then (s1.use [pgTWIN], true)
      else (s1.bump TWIN_TW_STRAY, false)
    else (x.1, false))

/-- A Twin message in a state for which there is no handling. -/
def State.twStray (s : State) : State := s.bump TWIN_TW_STRAY

/-- A sequenced message at the other node: whether it is the next, which it then is no longer (R360). -/
def State.twNext (s : State) (m : Msg) : State × Bool :=
  if s.twin.turn = tuStandby || s.twin.turn = tuJoining then
    let n := m.f 45 24
    if n = (s.twin.applied + 1) % 2 ^ 24 then
      ({ s with twin := { s.twin with applied := n, sinceAck := s.twin.sinceAck + 1 } }, true)
    else (s, false)
  else (s.twStray, false)

/-- A TW_ACK after every eighth applied message. -/
def State.ackEighth (s : State) : State := if s.twin.sinceAck ≥ 8 then s.twAckSend else s

/-- A sequenced message handled: nothing unless it comes through, then its effect. -/
def State.twSeqIn (s : State) (p opc : Nat) (m : Msg) (f : State → State) : State :=
  match s.twIn p opc m with
  | none => s
  | some (s1, false) => s1
  | some (s1, true) => match s1.twNext m with
    | (s2, false) => s2
    | (s2, true) => (f s2).ackEighth

/-- An unsequenced message handled. -/
def State.twPlainIn (s : State) (p opc : Nat) (m : Msg) (f : State → State) : State :=
  match s.twIn p opc m with
  | none => s
  | some (s1, false) => s1
  | some (s1, true) => f s1

/-- TW_ACK_TIMER: what has been applied since the last TW_ACK is acknowledged. -/
def execTwAckTimer (s : State) : Host.Outcome State Fault Refusal := s.onBlk pgTWIN <|
  if s.twin.turn = tuStandby || s.twin.turn = tuJoining then .next s.twAckSend else .next s

/-! ### Lines and deltas (R361 to R364) -/

/-- The status word's line of a Bake that the partner shares. -/
def State.statusLine (s : State) (t : TwBake) : Nat := (s.bakeSpan s.openEpoch (bits t.desc.toNat 128 64)).2 / 64

/-- The record of a Bake closed by the first line of its status word after this node's answer (R368). -/
def State.closeRecord (s : State) (la : Nat) : State :=
  match s.twin.bakes.find? (fun t => !t.holder && t.answer.isSome && s.statusLine t == la) with
  | none => s
  | some t =>
    let s1 := match t.bid with
      | some b => s.bakeDone b
      | none => s
    { s1 with twin := { s1.twin with bakes := s1.twin.bakes.filter (fun x => !(!x.holder && x.tid == t.tid && x.btag == t.btag)) } }

/-- A line of the stream: stored as it is, counted to its region's tenant (R361). -/
def State.twLineIn (s : State) (m : Msg) : State :=
  let la := m.f 69 37
  let off := la * 64
  let rg := (s.regionOf s.openEpoch off).getD 0
  let r : Req := { Req.blank with
    id := s.nextId, op := .resync, intern := true, gen := rsStore, mid := m.f 45 24, off := off, region := rg, epoch := s.openEpoch, place := .memWrite }
  let (q, e) := lineEntry .write .home off (s.rgn s.openEpoch TEN_R_TID rg) 0 s.openEpoch (some r.id)
  let s1 := { s with
    reqs := s.reqs ++ [r], nextId := s.nextId + 1,
    twin := { s.twin with accepting := s.twin.accepting ++ [r.mid], resynced := s.twin.resynced + (if m.f 107 2 = twResync then 1 else 0) } }
  let s2 := s1.enqueue q { e with data := m.line, poison := m.f 106 1 == 1 }
  (if m.f 107 2 = twRekey then s2.rotStream rg la else s2).closeRecord la

/-- TW_LINE. -/
def execTwLine (port : Fin 16) (m : Msg) (s : State) : Host.Outcome State Fault Refusal := s.onBlk (pgFPORT port.val) <| .next (s.twSeqIn port.val 0x90 m (fun s => s.twLineIn m))

/-- The entry that the 32 bytes of a delta spell, for a line (Table 5-1): none where VALID is 0. -/
def entryOfBits (la v : Nat) : Option DirEnt :=
  if bits v 0 1 = 0 then none
  else
    let coarse := bit v 3
    let ptr := fun (i : Nat) => let p := bits v (64 + 16 * i) 16; (p % 2 ^ 12, bits p 12 3)
    some { la := la, way := 0, modif := bits v 1 2 = 2, coarse := coarse, region := bits v 20 12, age := bits v 40 8,
           ptrs := if coarse then [] else (List.range (bits v 4 3)).map ptr, gvec := if coarse then BitVec.ofNat 64 (bits v 128 64) else 0, shadow := true }

/-- A delta at the other node (R363). A set without a free way has an own entry recalled for the shadow (assumption 52). -/
def State.twDeltaIn (s : State) (m : Msg) : State :=
  let la := m.f 69 37
  let e := entryOfBits la m.payload
  let rest := s.twin.pendRecs.filter (fun x => x.la != la)
  if m.f 106 1 = 1 then { s with twin := { s.twin with pendRecs := rest ++ (e.toList) } }
  else
    let s1 := { s with twin := { s.twin with pendRecs := rest } }
    let full := e.isSome && !s1.dir.any (fun x => x.la == la) && (s1.freeWay (dirSet la)).isNone
    let s2 := s1.setEnt la e
    match (if full then s2.victim (dirSet la) else none) with
    | some v => s2.queueIntern .recall 0 0 v.la v.region
    | none => s2

/-- TW_DELTA. -/
def execTwDelta (port : Fin 16) (m : Msg) (s : State) : Host.Outcome State Fault Refusal := s.onBlk (pgFPORT port.val) <| .next (s.twSeqIn port.val 0x91 m (fun s => s.twDeltaIn m))

/-- Waiting messages sent as far as TW_WINDOW lets them. -/
def twRefill : Nat → State → State
  | 0, s => s
  | n + 1, s => match s.twin.waiting with
    | [] => s
    | w :: rest =>
      if s.twin.unacked.length < s.rd TWIN_TW_WINDOW then
        twRefill n (({ s with twin := { s.twin with seqSent := w.1, unacked := s.twin.unacked ++ [w], waiting := rest } }).twSend w.2.1 w.2.2.1 w.2.2.2)
      else s

/-- TW_ACK at the holder: everything up to its TSEQ is acknowledged. -/
def State.twAckIn (s : State) (n : Nat) : State :=
  let cov := s.twin.unacked.filter (fun u => decide ((n + 2 ^ 24 - u.1) % 2 ^ 24 < 2 ^ 23))
  if cov.isEmpty then s
  else
    let ns := cov.map (fun u => u.1)
    let s1 := { s with twin := { s.twin with unacked := s.twin.unacked.filter (fun u => !ns.contains u.1), seqAcked := n } }
    let s2 := twRefill 4096 (s1.twGo ns)
    (s2.sample pgTWIN 0 s2.twin.unacked.length).handoverStep

/-- TW_ACK. -/
def execTwAck (port : Fin 16) (m : Msg) (s : State) : Host.Outcome State Fault Refusal := s.onBlk (pgFPORT port.val) <|
  .next (s.twPlainIn port.val 0x92 m (fun s =>
    if s.twin.turn = tuHolder || s.twin.turn = tuHanding then s.twAckIn (m.f 45 24) else s.twStray))

/-! ### Bakes (R366 to R368) -/

/-- TW_BAKE_RSP, and the record with the answer. -/
def State.twBakeAnswer (s : State) (t : TwBake) (replayed : Bool) : State :=
  let s1 := { s with twin := { s.twin with
    bakes := s.twin.bakes.map (fun (x : TwBake) => if !x.holder && x.tid == t.tid && x.btag == t.btag then { x with answer := some replayed } else x) } }
  (if replayed then s1.bump TWIN_REPLAYS else s1).twSend
    (mkNodeMsg 0x95 s.nid (s.rd TWIN_PARTNER_NID) 0 [(69, 8, t.tid), (77, 16, t.btag), (93, 1, b2n (!replayed))]) t.tid t.job

/-- A Bake of the stream: replayed under this node's own plan, or answered copy at once (R367). -/
def State.twBakeIn (s : State) (m : Msg) : State :=
  let d := setBits m.payload 96 32 0
  let job := bits m.payload 96 32
  let tid := m.f 69 8
  let btag := m.f 77 16
  let p := s.plans.find? (fun p => p.tid == tid && p.base == m.f 93 14 && p.closing.isNone && decide (bits d 8 5 < p.ops.length))
  let r := { Req.blank with id := s.nextId, tid := tid, job := job, addr := btag * 64, epoch := s.openEpoch }
  let b : Bake := { s.bakeOf r d p with replay := true, plan := (p.map (fun p => p.num)).getD 0 }
  let copy := m.f 107 1 = 1 || !s.twin.synced || p.isNone || b.spans.any (fun x => s.attr s.openEpoch TEN_R_ISO x.1) || s.bakeRetired b
  let t : TwBake := {
    tid := tid, btag := btag, holder := false, seq := m.f 45 24, bid := if copy then none else some b.id, job := job, desc := BitVec.ofNat 512 d,
    answer := none, copies := false, ended := false }
  let s1 := { s with twin := { s.twin with bakes := s.twin.bakes.filter (fun (x : TwBake) => !(!x.holder && x.tid == tid && x.btag == btag)) ++ [t] } }
  if copy then s1.twBakeAnswer t false else { s1 with bakes := s1.bakes ++ [b], nextId := s1.nextId + 1 }

/-- TW_BAKE. -/
def execTwBake (port : Fin 16) (m : Msg) (s : State) : Host.Outcome State Fault Refusal := s.onBlk (pgFPORT port.val) <| .next (s.twSeqIn port.val 0x93 m (fun s => s.twBakeIn m))

/-- The answer of a replay that has ended, once the holder's Bake has (R368). -/
def State.replayEnd (s : State) (bid : Nat) : State :=
  match s.bake bid, s.twin.bakes.find? (fun t => t.bid == some bid && !t.holder) with
  | some b, some t =>
    if t.ended && t.answer.isNone && s.bakeQuiet b && (b.aborted || b.stage == 4) then s.twBakeAnswer t (!b.aborted && !t.copies) else s
  | some b, none => if s.bakeQuiet b then s.bakeDone bid else s
  | none, _ => s

/-- The holder's outcome at the other node: after an aborted Bake the replay stops at its safe points. -/
def State.twBakeEndIn (s : State) (m : Msg) : State :=
  let aborted := m.f 93 1 = 1
  match s.twin.bakes.find? (fun t => !t.holder && t.tid == m.f 69 8 && t.btag == m.f 77 16) with
  | none => s.twStray
  | some t =>
    let s1 := { s with twin := { s.twin with
      bakes := s.twin.bakes.map (fun (x : TwBake) => if x.bid == t.bid && x.tid == t.tid && x.btag == t.btag && !x.holder then
        { x with ended := true, copies := aborted } else x) } }
    match t.bid with
    | none => s1
    | some bid => ((if aborted then (s1.conclude bid causeAbort 0 0).afterEnd bid else s1).replayEnd bid)

/-- TW_BAKE_END. -/
def execTwBakeEnd (port : Fin 16) (m : Msg) (s : State) : Host.Outcome State Fault Refusal := s.onBlk (pgFPORT port.val) <| .next (s.twSeqIn port.val 0x94 m (fun s => s.twBakeEndIn m))

/-- The row copies of a Bake begun, once it is over and the partner wants them (R368). -/
def State.copyBegin (s : State) (bid : Nat) : State :=
  match s.bake bid with
  | none => s
  | some b => match s.twBakeOf b with
    | some t =>
      if t.holder && t.answer == some false && !t.copies && s.bakeOver b && !s.reqs.any (fun r => r.op == .resync && r.gen == rsCopy && r.mid == bid)
      then s.rowCopy b 0 else s
    | none => s

/-- TW_BAKE_RSP at the holder. -/
def State.twBakeRspIn (s : State) (m : Msg) : State :=
  match s.twin.bakes.find? (fun t => t.holder && t.tid == m.f 69 8 && t.btag == m.f 77 16 && t.answer.isNone) with
  | none => s.twStray
  | some t =>
    let s1 := { s with twin := { s.twin with
      bakes := s.twin.bakes.map (fun (x : TwBake) => if x.bid == t.bid then { x with answer := some (m.f 93 1 == 0) } else x) } }
    s1.copyBegin (t.bid.getD 0)

/-- TW_BAKE_RSP. -/
def execTwBakeRsp (port : Fin 16) (m : Msg) (s : State) : Host.Outcome State Fault Refusal := s.onBlk (pgFPORT port.val) <|
  .next (s.twPlainIn port.val 0x95 m (fun s => if s.twin.turn = tuHolder || s.twin.turn = tuHanding then s.twBakeRspIn m else s.twStray))


/-- STATUS_WORD_WRITE: the status word is ordered as a masked write of its 8 bytes, where the pair lets it be (R349, R368). A
replay ends with its answer instead, and a Bake that the fence stopped without a status word. -/
def execStatusWordWrite (bid : Nat) (s : State) : Host.Outcome State Fault Refusal := s.onBlk pgHOME <|
  match s.bake bid with
  | none => .next s
  | some b =>
    if b.replay then .next (s.replayEnd bid)
    else if s.bakeFenced b then .next (if s.bakeQuiet b then s.bakeDone bid else s)
    else if s.bakeOver b && b.stage < 6 then
      if s.twBakeReady b then
        .next ((s.updBake bid (fun b => { b with stage := 6 })).nodeWrite wkStatus bid b.tid b.job b.epoch b.status.1 b.status.2 8 b.word 0)
      else .next (s.copyBegin bid)
    else .next s

/-! ### The lease, messages (R369 to R376) -/

/-- TW_RENEW: answered by a node that is not the holder, whose takeover deadline it moves; a Holder that receives one fences
(R369, R370, R374, R376). -/
def State.twRenewIn (s : State) (m : Msg) : State :=
  let n := m.f 45 16
  if s.twin.turn = tuHolder then
    (s.selfFence.raise pgTWIN I_TWIN_TWO_HOLDERS).crumb pgTWIN 0x605 3 [packBits [(0, 9, m.srcNid), (16, 16, n)]]
  else if s.twin.turn = tuHanding || s.twin.turn = tuUnpaired then s.twStray
  else
    let s1 := if s.twin.turn = tuStandby && m.f 61 1 = 1 then s.toFenced else s
    let s2 := if s1.twin.turn = tuStandby then { s1 with twin := { s1.twin with heard := some s.ao } } else s1
    { s2 with twin := { s2.twin with heardLseq := n } }.renewAck n

/-- TW_RENEW. -/
def execTwRenew (port : Fin 16) (m : Msg) (s : State) : Host.Outcome State Fault Refusal := s.onBlk (pgFPORT port.val) <| .next (s.twPlainIn port.val 0x98 m (fun s => s.twRenewIn m))

/-- TW_RENEW_ACK at the holder: the deadline moves, and a partner that is not synced leaves the holder solo, whatever the renewal it names
(R369, R376); a leased holder begins a handover where R380 says so. -/
def State.twRenewAckIn (s : State) (m : Msg) : State :=
  let n := m.f 45 16
  let t := s.twin
  match t.renewals.find? (fun r => r.1 == n) with
  | none => if t.leased && m.f 61 1 = 0 then s.twQuit else s.twStray
  | some (_, sent) =>
    let synced := m.f 61 1 = 1
    let pref := m.f 62 1 = 1
    let s1 := ({ s with twin := { t with
      renewals := t.renewals.filter (fun r => decide (sent < r.2)), ackedSent := max t.ackedSent sent, ackedLseq := n, partPref := pref } }).sample pgTWIN 1
        (s.ao - sent : Nat)
    if t.leased && !synced then s1.twQuit
    else if t.turn = tuHolder && t.leased && s.rd TWIN_PREFERRED = 0 && s.rd TWIN_HOLD_BACK = 0 && pref && m.f 63 1 = 0 then s1.handoverBegin
    else s1

/-- TW_RENEW_ACK. -/
def execTwRenewAck (port : Fin 16) (m : Msg) (s : State) : Host.Outcome State Fault Refusal := s.onBlk (pgFPORT port.val) <|
  .next (s.twPlainIn port.val 0x99 m (fun s => if s.twin.turn = tuHolder || s.twin.turn = tuHanding then s.twRenewAckIn m else s.twStray))

/-- TW_HANDOVER at the other node: it is the holder now, leased, and renews at once (Table 15-7). -/
def State.twHandoverIn (s : State) : State :=
  if s.twin.turn = tuStandby && s.twin.synced then
    let s0 := s.twAckSend
    let t := s0.twin
    let s1 := ({ s0 with twin := { t with
        leased := true, synced := true, current := false, desync := false, heard := none, seqSent := t.applied, seqAcked := t.applied, unacked := [],
        waiting := [], renewals := [], ackedSent := s.ao, bakes := [], turnCount := (t.turnCount + 1) % 2 ^ 32 } }).ownShadows.setTurn tuHolder
    (s1.crumb pgTWIN 0x603 0 [s.nid, s1.twin.turnCount]).renew
  else s.twStray

/-- TW_HANDOVER. -/
def execTwHandover (port : Fin 16) (m : Msg) (s : State) : Host.Outcome State Fault Refusal := s.onBlk (pgFPORT port.val) <| .next (s.twSeqIn port.val 0x9A m (fun s => s.twHandoverIn))

/-- CMD CLAIM (R375). A node that closes stays in Fenced (Table 19-7). -/
def State.turnClaim (s : State) : State :=
  if s.shape.closing then s
  else if s.twin.turn = tuIdle || s.twin.turn = tuFenced then s.soloHolder else s.cfgErr pgTWIN 0 0x10C

/-- CLAIM. -/
def execClaim (s : State) : Host.Outcome State Fault Refusal := s.onBlk pgTWIN <| .next (s.use [pgTWIN]).turnClaim

/-- CMD SOLO (R376). -/
def State.turnSolo (s : State) : State :=
  if s.twin.turn = tuHolder && s.twin.leased then
    let s1 := s.twQuit
    { s1 with twin := { s1.twin with desync := true } }
  else s

/-- SOLO. -/
def execSolo (s : State) : Host.Outcome State Fault Refusal := s.onBlk pgTWIN <| .next (s.use [pgTWIN]).turnSolo

/-- CMD LEAVE (R376). -/
def State.turnLeave (s : State) : State := if s.twin.turn = tuStandby then s.leaveNow else s

/-- LEAVE. -/
def execLeave (s : State) : Host.Outcome State Fault Refusal := s.onBlk pgTWIN <| .next (s.use [pgTWIN]).turnLeave

/-! ### Resynchronization (R377 to R379) -/

/-- The TXID of TW_JOIN: the TXIDs below 32 are of MIGR messages. -/
def joinTxid : Nat := 32

/-- TW_JOIN sent by a node in Fenced or Idle whose Twin port is Up; a node that closes sends none. -/
def State.joinSend (s : State) : State :=
  match s.twPort with
  | some p => if (s.port p).isUp && !s.shape.closing && (s.twin.turn = tuFenced || s.twin.turn = tuIdle) then
      s.send p (mkNodeMsg 0x9B s.nid (s.rd TWIN_PARTNER_NID) joinTxid []) 0 0 else s
  | none => s

/-- JOIN. -/
def execJoin (s : State) : Host.Outcome State Fault Refusal := s.onBlk pgTWIN <| .next (s.use [pgTWIN]).joinSend

/-- AUTO_JOIN_TIMER. -/
def execAutoJoinTimer (s : State) : Host.Outcome State Fault Refusal := s.onBlk pgTWIN <|
  if s.rd TWIN_AUTO_JOIN = 1 then .next (s.use [pgTWIN]).joinSend else .next s

/-- The answer to TW_JOIN: on OK the node enters Joining without shadows and pending records, and takes the stream from its
first number (assumption 50). -/
def State.joinRsp (s : State) (status : Nat) : State :=
  if status = stNounit then s.twStray
  else if status = stOK && (s.twin.turn = tuFenced || s.twin.turn = tuIdle) then
    ({ s with
        dir := s.dir.filter (fun e => !e.shadow),
        twin := { s.twin with
          synced := false, current := false, pendRecs := [], applied := 0, accepting := [], sinceAck := 0, ackSent := 0, resynced := 0,
          rekeyed := [] } }).sampleDir.setTurn tuJoining
  else s

/-- The open transactions of mirrored lines as pending records of the partner (R378). -/
def State.imageOpen (s : State) : State :=
  s.openTx.foldl (fun (s : State) o =>
    if s.mirLine o.1 then
      let rg := (s.regionOf s.openEpoch (o.1 * 64)).getD 0
      let base := (s.trks.find? (fun t => t.la == o.1)).bind (fun t => t.before) |>.orElse (fun _ => s.ent o.1)
      let e := base.getD { entOf o.1 rg false 0 0 with ptrs := [] }
      let e1 := match s.req o.2 with
        | some r => if r.op.grants && !r.intern then e.join r.aid (s.agent r.aid).inc else e
        | none => e
      (s.twDelta o.1 rg (some e1) true 0 0).2
    else s) s

/-- A resynchronization begun: the stream starts at its first number, the set scanner takes the directory image. -/
def State.resyncStart (s : State) : State :=
  let s1 := s.twQuit
  let c := s1.scan.getD Scan.idle
  let s2 := { s1 with
    twin := { s1.twin with seqSent := 0, seqAcked := 0, desync := false, resync := some 0, resynced := 0 },
    scan := some { c with image := some dirSets } }
  s2.imageOpen

/-- TW_JOIN: the partner's is accepted by a Holder; any other node, and a Holder to any other sender, answers DENIED (R377). -/
def execTwJoin (port : Fin 16) (m : Msg) (s : State) : Host.Outcome State Fault Refusal := s.onBlk (pgFPORT port.val) <|
  match s.portIn port.val clsSys 0x9B m with
  | none => .next s
  | some (s1, false) => .next s1
  | some (s1, true) =>
    let s2 := s1.count 0 0 0 (1 + m.data.length)
    if !s2.opts.w then .next (s2.sysAnswer port.val m stNounit 0)
    else if s2.rd TWIN_PAIR_EN = 1 && m.srcNid = s2.rd TWIN_PARTNER_NID && s2.twin.turn = tuHolder then
      .next ((s2.use [pgTWIN]).sysAnswer port.val m stOK 0).resyncStart
    else .next (s2.sysAnswer port.val m stDenied 0)

/-- The first line of a mirrored region at or after a node offset. -/
def State.nextMirror (s : State) (off : Nat) : Option (Nat × Nat) :=
  minBy (fun (x : Nat × Nat) => x.2) ((validRegions s.cfgOpen).filterMap (fun n =>
    let lo := s.rgnBase s.openEpoch n
    let hi := lo + s.rgnBytes s.openEpoch n
    if s.mirrored n && decide (off < hi) then some (n, max off lo / 64) else none))

/-- RESYNC_LINE: the next mirrored line is read through SHAPE, once the one before it is ordered; when the lines and the scan
have both ended, TW_SYNCED goes and the holder is leased. -/
def execResyncLine (s : State) : Host.Outcome State Fault Refusal := s.onBlk pgTWIN <|
  match (if s.twin.turn = tuHolder then s.twin.resync else none) with
  | none => .next s
  | some ptr =>
    let mine := s.reqs.filter (fun r => r.op == .resync && r.intern && r.gen ≤ 1)
    if mine.any (fun r => r.gen == 0 && r.place != .memRead) then .next s
    else match s.nextMirror ptr with
      | some (n, la) => .next ((s.use [pgTWIN]).queueIntern .resync 0 0 la n)
      | none =>
        let scanned := match s.scan with
          | some c => c.image.all (fun n => n == 0)
          | none => true
        if !mine.isEmpty || !scanned then .next s
        else
          let s1 := (s.twSeq 0x9C [] [] 0 0).2
          .next { s1 with
            twin := { s1.twin with leased := true, synced := true, resync := none, ackedSent := s.ao },
            scan := s1.scan.bind Scan.noImage }

/-- TW_SYNCED at the joining node (R379). -/
def State.twSyncedIn (s : State) : State :=
  if s.twin.turn = tuJoining then
    let s1 := ({ s with twin := { s.twin with synced := true, heard := some s.ao } }).setTurn tuStandby
    let n := s1.twin.resynced
    (s1.raise pgTWIN I_TWIN_SYNCED).crumb pgTWIN 0x604 0 [s.rd TWIN_PARTNER_NID, n % 2 ^ 32, n / 2 ^ 32]
  else s.twStray

/-- TW_SYNCED. -/
def execTwSynced (port : Fin 16) (m : Msg) (s : State) : Host.Outcome State Fault Refusal := s.onBlk (pgFPORT port.val) <| .next (s.twSeqIn port.val 0x9C m (fun s => s.twSyncedIn))

/-! ### Pairing (R355) -/

/-- A commit that pairs or unpairs the node. -/
def State.pairCommit (s : State) : State :=
  if s.rd TWIN_PAIR_EN = 1 then
    if s.twin.turn = tuUnpaired then (s.setTurn tuIdle).twMoved s s.twPort else s
  else if s.twin.turn = tuUnpaired then s
  else
    let s1 := s.setTurn tuUnpaired
    { s1 with twin := { Twin.fresh with turnCount := s1.twin.turnCount } }

end Sys2Proof.Machine
end

