-- ==== Sys2Proof/Machine/Resolve.lean ====
section
/-! DEFINITION. Stage 3 for a request of any kind (R17, R116, R119, R171), JOB_OPEN and JOB_CLOSE on the wire, and responses that
arrive from other nodes (R94, R123). -/
namespace Sys2Proof.Machine

open Reg

/-- Whether an operation names a line. -/
def Op.onLine : Op → Bool
  | .rdS | .rdOwn | .upg | .rdCur | .wrFull | .wrPtl | .wb | .clnEvict => true
  | _ => false

/-- Whether an operation loads or unloads a plan. -/
def Op.onPlan : Op → Bool
  | .planLoad | .planUnload => true
  | _ => false

/-- Whether a request is still at stage 3. -/
def Req.atStage3 (r : Req) : Bool := match r.place with | .resolving | .walking | .held => true | _ => false

/-- The sub-channel of a request at stage 3, once it is known: an address of the node names it, a tenant's does not (R20, R237). -/
def Req.subChannel (r : Req) : Option Nat := if r.as1 then none else some (hashLine (pgaOff r.addr / 64)).1

/-- Whether two requests may be bound for the same sub-channel. -/
def Req.mayShare (x r : Req) : Bool := match x.subChannel, r.subChannel with
  | some a, some b => a == b
  | _, _ => true

/-- Whether an earlier request must be resolved first: one for the same line of the same agent through the same port (R116), one
admitted earlier that may be bound for the same sub-channel and that no override holds (R20, R206), or an earlier plan request of the same
agent, until it is answered (R119). -/
def State.resolveWaits (s : State) (r : Req) : Bool :=
  s.reqs.any (fun x => x.id != r.id && !x.intern &&
    ((decide (x.order < r.order) && x.aid == r.aid && x.atStage3 && x.op.onLine && r.op.onLine && x.port == r.port && x.as1 == r.as1 &&
        x.addr == r.addr) ||
      (decide (x.adm < r.adm) && (x.place == .resolving || x.place == .walking) && x.op.onLine && r.op.onLine && x.mayShare r) ||
      (decide (x.order < r.order) && x.aid == r.aid && x.op.onPlan && r.op.onPlan)))

/-- A request at stage 3 resolved. -/
def State.resolve (s : State) (r : Req) : State :=
  match r.op with
  | .bakeSub => s.bakeSub r
  | .bakeAbort => s.bakeAbort r
  | .planLoad => s.planLoad r
  | .planUnload => s.planUnload r
  | .jobOpen => s.jobOpen r
  | .jobClose => s.jobClose r
  | _ => if r.as1 then (s.use [pgTEN]).useXlat.translate r else (s.use [pgTEN]).withPga r r.addr

/-- RESOLVE of a request that has reached stage 3. -/
def execResolve (rid : Nat) (s : State) : Host.Outcome State Fault Refusal := s.onBlk pgTEN <|
  match s.req rid with
  | none => .next s
  | some r => if r.place != .resolving || s.resolveWaits r then .next s else .next (s.resolve r)

/-- JOB_OPEN. -/
def execJobOpen (port : Fin 16) (m : Msg) (s : State) : Host.Outcome State Fault Refusal := s.onBlk (pgFPORT port.val) <| .next (s.reqIn port.val 0x18 .jobOpen m)
/-- JOB_CLOSE. -/
def execJobClose (port : Fin 16) (m : Msg) (s : State) : Host.Outcome State Fault Refusal := s.onBlk (pgFPORT port.val) <| .next (s.reqIn port.val 0x19 .jobClose m)

/-! ### Responses from elsewhere -/

/-- The request of a CXL host that an owner's answer completes: forwarded, and not answered yet (R123). -/
def State.relayed (s : State) (aid txid : Nat) : Option Req :=
  s.reqs.find? (fun r => r.cxl && r.aid == aid && r.txid == txid && ((r.place == .tracked && r.val != cxlAnswered) || r.place == .done))

/-- A request of a CXL host whose answer has been relayed: it has left the node once its transaction has ended, too (R215). -/
def State.relayEnd (s : State) (r : Req) : State :=
  if r.place == .done then s.endReq r.id else s.updReq r.id (fun x => { x with val := cxlAnswered })

/-- A DATA or CMP for the agent of a CXL link here, sent as the CXL message that it makes, with the load level that it carries, and counted
to the request that it completes (R105, R106, R123); any other is dropped and counted (R94), and so is one to an agent that is not Live
(R152). -/
def State.relay (s : State) (p : Nat) (m : Msg) : State :=
  match s.cxlPort m.rsDst with
  | none => s.bump FPORT_RSP_DROP p
  | some q =>
    let r? := s.relayed m.rsDst m.rsTxid
    let r := r?.getD { Req.blank with
      op := .rdS, port := q, aid := m.rsDst, tid := s.rd FPORT_CXL_TID q, job := s.rd FPORT_CXL_JOB q, txid := m.rsTxid }
    let s1 := s.count 0 r.tid r.job (1 + m.data.length)
    let s2 := if !(s1.port q).alive || !s1.live m.rsDst then s1.bump FPORT_RSP_DROP q
      else s1.cxlAnswer r m.rsStatus m.rsGrant (if m.opc = 0x40 then some m.line else none) m.rsLoad
    if r?.isSome then s2.relayEnd r else s2

/-- DATA_RELAY. -/
def execDataRelay (port : Fin 16) (m : Msg) (s : State) : Host.Outcome State Fault Refusal := s.onBlk (pgFPORT port.val) <|
  match s.portIn port.val clsRsp (if m.opc = 0x41 then 0x41 else 0x40) m with
  | none => .next s
  | some (s1, false) => .next s1
  | some (s1, true) => .next (s1.relay port.val m)

/-- Whether a SYS_RSP from a node answers a message that this node sent and that waits for its answer: a MIGR_START of a move that starts
or resumes, a MIGR_DONE, or TW_JOIN. -/
def State.awaitsRsp (s : State) (nid txid : Nat) : Bool :=
  if txid < 32 then
    let v := s.move (txid / 2)
    v.peer == nid && (match v.state with
      | .starting => txid % 2 == 0 && !v.walking
      | .stuck => txid % 2 == 0 && v.resuming
      | .done => txid % 2 == 1
      | _ => false)
  else txid == joinTxid && s.opts.w && nid == s.rd TWIN_PARTNER_NID

/-- SYS_RSP from another node: handed to what awaits it. A NOUNIT answer to a Twin message marks it stray; any other that answers
nothing is dropped and counted (R94). -/
def execSysRsp (port : Fin 16) (m : Msg) (s : State) : Host.Outcome State Fault Refusal := s.onBlk (pgFPORT port.val) <|
  let p := port.val
  match s.portIn p clsSys 0x82 m with
  | none => .next s
  | some (s1, false) => .next s1
  | some (s1, true) =>
    let s2 := s1.count 0 0 0 1
    let nid := m.srcNid
    if !(s2.awaitsRsp nid m.syTxid) then
      .next (if s2.opts.w && nid = s2.rd TWIN_PARTNER_NID && m.syStatus = stNounit then s2.twStray else s2.bump FPORT_RSP_DROP p)
    else if m.syTxid < 32 then .next (s2.migrRsp nid m.syTxid m.syStatus m.syRdata)
    else .next (s2.joinRsp m.syStatus)

end Sys2Proof.Machine
end

