-- ==== Sys2Proof/Machine/Holds.lean ====
section
/-! DEFINITION. What each block holds: the requests, Bakes and entries with their epochs (R52), and whether a block is idle (the
terms of power). -/
namespace Sys2Proof.Machine

open Reg

/-- The block that has a request at its place: its page, beside the arrival port. -/
def State.holderOf (s : State) (r : Req) : Option Nat :=
  match r.place with
  | .bypass | .queued | .batch | .done => none
  | .resolving => some (if r.as1 then pgXLAT else pgTEN)
  | .walking | .held => some pgXLAT
  | .bakeWait => some pgHOME
  | .home | .tracked | .waitWay | .waitTrk => some pgHOME
  | .memRead | .memWrite =>
    if (List.range 96).any (fun q => (s.queue q).entries.any (fun e => e.req == some r.id) || (s.queue q).rets.any (fun x => x.ent.req == some r.id))
    then none else some pgHOME
  | .mirror => some pgTWIN
  | .mbx => some pgWARDEN
  | .waitJob => some pgMETER

/-- The epochs of the requests, Bakes and entries that a block holds. An arrival port holds every request admitted from it until it
is outstanding no longer, which is when its final response has left (R215). -/
def State.holdEpochs (s : State) (p : Nat) : List Nat :=
  let reqs := s.reqs.filter Req.admitted
  let here := (reqs.filter (fun r => s.holderOf r == some p)).map (·.epoch)
  if 0x10 ≤ p && p < 0x20 then here ++ (reqs.filter (fun r => !r.intern && pgFPORT r.port == p)).map (·.epoch) ++ (s.leaving (p - 0x10)).map (·.epoch)
  else if 0x20 ≤ p && p < 0x50 then
    let ch := p - 0x20
    [2 * ch, 2 * ch + 1].flatMap (fun q =>
      ((s.queue q).entries.filter (fun e => e.req.isSome || e.bake.isSome)).map (·.epoch) ++
        ((s.queue q).rets.filter (fun x => x.ent.req.isSome || x.ent.bake.isSome)).map (fun x => x.ent.epoch))
  else if 0x50 ≤ p && p < 0x80 then
    (s.bakes.filter (fun b => (s.ctxOf (p - 0x50) b.id).isSome)).map (·.epoch)
  else if p = pgRDL then
    (s.bakes.filter (fun b => s.lanes.any (fun c => c.2.any (fun j => j.bid == b.id)))).map (·.epoch)
  else if p = pgHOME then here ++ s.bakes.map (·.epoch)
  else here

/-- Whether a block holds a request or Bake stamped with the draining epoch (R52): only blocks that report drain. -/
def State.drainPend (s : State) (p : Nat) : Bool :=
  s.commitPending && s.present p && capEpoch p && (s.holdEpochs p).contains s.drainEpoch

/-- Whether any block still holds one. -/
def State.draining (s : State) : Bool := allPages.any s.drainPend

/-- Whether a block is idle: it holds no request, entry, Bake, lane job or duty under way. -/
def State.idle (s : State) (p : Nat) : Bool :=
  (s.holdEpochs p).isEmpty &&
  (if p = pgSHAPE then s.reqs.all Req.admitted
   else if 0x10 ≤ p && p < 0x20 then (s.port (p - 0x10)).train == .down
   else if 0x20 ≤ p && p < 0x50 then
     [2 * (p - 0x20), 2 * (p - 0x20) + 1].all (fun q => (s.queue q).entries.isEmpty && (s.queue q).waiting.isEmpty && (s.queue q).rets.isEmpty)
   else if 0x50 ≤ p && p < 0x80 then (List.range 8).all (fun c => (s.ctx (p - 0x50) c).state == 0)
   else if p = pgRDL then s.lanes.all (fun c => c.2.isEmpty) && s.rdl.rescan.isNone
   else if p = pgRAS then s.ras.running.isNone
   else if p = pgHOME then s.trks.isEmpty && s.openTx.isEmpty && s.scan.isNone
   else if p = pgDIRC then s.openTx.isEmpty && s.scan.isNone
   else if p = pgXLAT then s.xsyncs.isEmpty
   else if p = pgTWIN then s.twin.unacked.isEmpty && s.twin.bakes.isEmpty && s.twin.resync.isNone
   else if p = pgCRYPT then s.rot.isNone
   else if p = pgMIGR then s.moves.all (fun m => m.2.state == .idle)
   else if p = pgWARDEN then s.warden.busy.isNone
   else true)

/-- The deepest state that Table 18-3 permits a block under its present condition: where the condition for Off fails, Doze. -/
def State.permits (s : State) (p : Nat) : Nat :=
  let d := deepestPermitted p
  if 0x10 ≤ p && p < 0x20 then
    (if (s.port (p - 0x10)).train != .down then 0 else if s.rd FPORT_ENABLE (p - 0x10) = 1 then 2 else 3)
  else if p = pgDIRC then (if s.broken.isEmpty && s.reqs.all (fun r => r.op != .probe) then 3 else 2)
  else if p = pgTEN then (if s.rd TEN_RECALL_BUSY = 0 then 3 else 2)
  else if p = pgXLAT then (if s.moves.all (fun m => !m.2.active) && s.xsyncs.isEmpty then 3 else 2)
  else if p = pgMIGR then (if s.moves.all (fun m => m.2.state == .idle) then 3 else 2)
  else if 0x50 ≤ p && p < 0x80 then (if s.plans.isEmpty && (List.range 8).all (fun c => (s.ctx (p - 0x50) c).state == 0) then 3 else 2)
  else d

/-- The effective deepest state of a block (R429). -/
def State.deepest (s : State) (p : Nat) : Nat := min (s.rd H_PWR_DEEPEST p) (s.permits p)

end Sys2Proof.Machine
end

