-- ==== Sys2Proof/Machine/Power.lean ====
section
/-! DEFINITION. PWR and CLK: the reference and the PLLs (R423 to R426), block power states (R427 to R435), and the node's
temperature (R437 to R439). -/
namespace Sys2Proof.Machine

open Reg

/-! ### Signals to the TMC -/

/-- Codes of the node's signals to the TMC. -/
def tsRefLoss : Nat := 1
def tsReport : Nat := 2
def tsShutReq : Nat := 3
def tsThermtrip : Nat := 4
def tsProfile : Nat := 5
def tsCooling : Nat := 7

/-! ### Clocks -/

/-- The fields of a PLL's state. -/
def pllField (mc : Bool) : Field := if mc then CLK_MC_STATE else CLK_FC_STATE

/-- Whether a block runs in a PLL's domain. -/
def inDomain (mc : Bool) (p : Nat) : Bool := if mc then onMc p else onFc p

/-- A domain that stops: every block of it shows COND 0b10 (R424). A lost PLL shows cold locking, which it needs next (assumption
71). -/
def State.stopDomain (s : State) (mc : Bool) : State :=
  (allPages.filter (fun p => s.present p && inDomain mc p)).foldl (fun (s : State) p => s.wr H_COND 2 p) (s.wr (pllField mc) pllCold)

/-- A Holder fences itself when its clock cannot be trusted (R424). -/
def State.clockFence (s : State) : State :=
  if s.opts.w && (s.twin.turn = tuHolder || s.twin.turn = tuHanding) then s.selfFence else s

/-- REFERENCE_LOSS (R424). -/
def execReferenceLoss (s : State) : Host.Outcome State Fault Refusal := s.onBlk pgCLK <|
  if s.rd CLK_ON_BACKUP = 1 then .next s
  else
    let n := b2n (s.rd CLK_FC_STATE == pllRunning) + b2n (s.rd CLK_MC_STATE == pllRunning)
    let s0 := (((s.clockFence.wr CLK_ON_BACKUP 1).wr CLK_REF_OK 0).bumpBy CLK_LOCK_LOSSES n).raise pgCLK I_CLK_REF_LOSS
    let s1 := if n = 0 then s0 else s0.raise pgCLK I_CLK_LOCK_LOSS
    let s2 := (s1.crumb pgCLK 0x810 3 [s1.ao % 2 ^ 32]).out (.tmc tsRefLoss 1)
    .next ((s2.stopDomain false).stopDomain true)

/-- Whether a domain may park: its PARK bit is 1, and each block of it is in Doze or Off, or in the deepest state that Table 18-3
permits it where that is shallower (R425; assumption 70). -/
def State.mayPark (s : State) (mc : Bool) : Bool :=
  s.rd (pllField mc) == pllRunning && s.rd (if mc then CLK_PARK_MC else CLK_PARK_FC) == 1 &&
    allPages.all (fun p => !s.present p || !inDomain mc p || decide (min 2 (deepestPermitted p) ≤ s.rd H_PWR_NOW p))

/-- PLL_PARK. -/
def execPllPark (mc : Bool) (s : State) : Host.Outcome State Fault Refusal := s.onBlk pgCLK <|
  if s.mayPark mc then .next (s.wr (pllField mc) pllParked) else .next s

/-- PLL_FAST_START_DONE: lock, or the fall back to a cold lock (R426). -/
def execPllFastStartDone (mc : Bool) (locked : Bool) (s : State) : Host.Outcome State Fault Refusal := s.onBlk pgCLK <|
  if s.rd (pllField mc) ≠ pllStarting then .next s
  else if locked then .next ((s.wr (pllField mc) pllRunning).bump CLK_FAST_STARTS)
  else .next ((((s.wr (pllField mc) pllCold).bump CLK_COLD_LOCKS).raise pgCLK I_CLK_COLD_LOCK).crumb pgCLK 0x811 1 [b2n mc])

/-- COLD_LOCK_DONE: the domain runs (R425, R426). A PLL that lost lock is not locked again without a warm reset. -/
def execColdLockDone (mc : Bool) (s : State) : Host.Outcome State Fault Refusal := s.onBlk pgCLK <|
  if s.rd (pllField mc) = pllCold && !(allPages.any (fun p => s.present p && inDomain mc p && s.rd H_COND p == 2)) then
    .next (s.wr (pllField mc) pllRunning)
  else .next s

/-- PLL_LOCK_LOSS: a Running PLL loses lock, and its domain stops (R426). -/
def execPllLockLoss (mc : Bool) (s : State) : Host.Outcome State Fault Refusal := s.onBlk pgCLK <|
  if s.rd (pllField mc) ≠ pllRunning then .next s
  else
    let s1 := ((s.clockFence.bump CLK_LOCK_LOSSES).raise pgCLK I_CLK_LOCK_LOSS).crumb pgCLK 0x812 3 [b2n mc]
    .next (s1.stopDomain mc)

/-! ### Block power states -/

/-- The value of a block's policy field. -/
def State.policy (s : State) (p : Nat) (f : Field) : Nat := s.rd f 0 (s.rd H_PWR_POLICY p)

/-- Whether an idle block may enter a deeper state under a policy field, which gives its idle time in units of `unit` to the AO tick
(R429, R430). -/
def State.mayEnter (s : State) (p st : Nat) (f : Field) (unit : Nat := 1) : Bool :=
  s.present p && decide (s.rd H_PWR_NOW p < st) && decide (st ≤ s.deepest p) && s.policy p f != 0 && s.idle p && !s.waking.contains p &&
    decide (Tab.get s.lastUse p 0 + s.policy p f / unit ≤ s.ao)

/-- Cycles of a block's clock in an AO tick (R492). -/
def cyclesPerTick (p : Nat) : Nat := if onMc p then 768 else 1024

/-- BLOCK_NAP_ENTRY. -/
def execBlockNapEntry (page : BitVec 12) (s : State) : Host.Outcome State Fault Refusal := s.onBlk pgPWR <|
  let p := page.toNat
  if s.mayEnter p 1 PWR_NAP_AFTER (cyclesPerTick p) then .next (s.setPwr p 1) else .next s

/-- BLOCK_DOZE_ENTRY. -/
def execBlockDozeEntry (page : BitVec 12) (s : State) : Host.Outcome State Fault Refusal := s.onBlk pgPWR <|
  let p := page.toNat
  if s.mayEnter p 2 PWR_DOZE_AFTER then .next (s.setPwr p 2) else .next s

/-- What Off loses (Table 18-3): DIRC writes its dirty frames back and loses its cache; XLAT loses its caches and counters; an RCE
its control store and its contexts. -/
def State.offLoss (s : State) (p : Nat) : State :=
  if p = pgDIRC then
    { (s.frames.filter (·.2)).foldl (fun (s : State) f => s.writeSet f.1) s with frames := [] }
  else if p = pgXLAT then
    { s with tc := [], wc := [], windowCount := s.windowCount + s.pwr.windows, pwr := { s.pwr with windows := 0 } }
  else if 0x50 ≤ p && p < 0x80 then s.loseRce (p - 0x50)
  else s

/-- BLOCK_OFF_ENTRY. -/
def execBlockOffEntry (page : BitVec 12) (s : State) : Host.Outcome State Fault Refusal := s.onBlk pgPWR <|
  let p := page.toNat
  if s.mayEnter p 3 PWR_OFF_AFTER then .next ((s.offLoss p).setPwr p 3) else .next s

/-- The latest wake of a state in AO ticks: one for the cycles of Nap, that of Table 18-2 for Doze and Off with one for the AO edge and,
for an MCH, one for the stack's exit; in a domain that is not running, at least the fast start. -/
def State.wakeBound (s : State) (p : Nat) : Nat :=
  let st := s.rd H_PWR_NOW p
  let b := (if st = 3 then 33 else if st = 2 then 3 else 1) + b2n (0x20 ≤ p && p < 0x50)
  let slow := (onFc p && s.rd CLK_FC_STATE != pllRunning) || (onMc p && s.rd CLK_MC_STATE != pllRunning)
  if slow then max b 4 else b

/-- BLOCK_WAKE_DONE: a block that was woken is in Run; more than 16 ticks beyond its bound is slow (R431). -/
def execBlockWakeDone (page : BitVec 12) (ticks : Nat) (s : State) : Host.Outcome State Fault Refusal := s.onBlk pgPWR <|
  let p := page.toNat
  if !s.waking.contains p then .next s
  else
    let st := s.rd H_PWR_NOW p
    let s0 := { s.setPwr p 0 with waking := s.waking.filter (· != p) }
    let s1 := if p = pgXLAT then s0.windowsPassed else s0
    if ticks > s.wakeBound p + 16 then
      .next ((s1.raise pgPWR I_PWR_WAKE_SLOW).crumb pgPWR 0x803 1 [packBits [(0, 8, p), (8, 2, st)], ticks])
    else .next s1

/-- The boundaries that XLAT slept through, once it is in Run. -/
def State.windowsAwake (s : State) : State := if s.rd H_PWR_NOW pgXLAT = 0 then s.windowsPassed else s

/-- Blocks that are deeper than their effective deepest state wake at a commit (R431). -/
def State.wakeDeep (s : State) : State :=
  (s.use (allPages.filter (fun p => s.present p && decide (s.deepest p < s.rd H_PWR_NOW p)))).windowsAwake

/-! ### Temperature -/

/-- The junction temperature of a sample: the highest valid reading, or 115 °C with fewer than 12 (R437). -/
def tjOf (l : List (Nat × Bool)) : Int :=
  let ok := (l.filter (·.2)).map (fun p => sgn 16 p.1)
  if ok.length < 12 then 460 else ok.foldl max (-32768)

/-- TJ_SAMPLE: sixteen readings, each with its self-check (R437, R438). -/
def execTjSample (readings : List (BitVec 16 × Bool)) (s : State) : Host.Outcome State Fault Refusal := s.onBlk pgPWR <|
  let l := (List.range 16).map (fun i => match readings[i]? with
    | some (v, ok) => (v.toNat, ok)
    | none => (0, false))
  let tj := tjOf l
  let n := (l.filter (·.2)).length
  let failed := (List.range 16).filter (fun i => (s.pwr.sensors[i]?.getD (0, false)).2 && !(l[i]?.getD (0, false)).2)
  let s1 : State := { s with pwr := { s.pwr with sensors := l } }
  let s2 := failed.foldl (fun (s : State) i => (s.raise pgPWR I_PWR_SENSOR_FAIL).crumb pgPWR 0x802 1 [i]) s1
  let s3 := ((((s2.wr PWR_TJ_NOW (unsgn 16 tj)).wr PWR_TJ_VALID n).wr PWR_THROTTLE_REQ (b2n (decide (tj ≥ 400)))).sample pgPWR 0 tj).judgeThrottle
  if tj ≥ (s3.rd PWR_TJ_SHUTDOWN : Nat) && s3.rd PWR_SHUT_REQ = 0 then
    let s4 := ((s3.wr PWR_SHUT_REQ 1).raise pgPWR I_PWR_TJ_SHUT).crumb pgPWR 0x801 2 [packBits [(0, 16, unsgn 16 tj), (16, 5, n)]]
    .next (s4.out (.tmc tsShutReq (unsgn 16 tj)))
  else .next s3

/-- The highest stack reading of the MCHs, in 0.5 °C units. -/
def State.hotStack (s : State) : Int := (List.range 48).foldl (fun m n => max m (sgn 16 (s.rd MCH_TEMP_NOW n))) (-32768)

/-- TJ_REPORT: TJ_NOW and the highest stack reading to the TMC (R437). -/
def execTjReport (s : State) : Host.Outcome State Fault Refusal := s.onBlk pgPWR <|
  let tj := sgn 16 (s.rd PWR_TJ_NOW)
  .next ({ s with tmc := { s.tmc with tj := tj, stack := s.hotStack, reported := s.tmc.now } }.out
    (.tmc tsReport (packBits [(0, 16, unsgn 16 tj), (16, 16, unsgn 16 s.hotStack)])))

end Sys2Proof.Machine
end

