-- ==== Sys2Proof/Machine/Close.lean ====
section
/-! DEFINITION. How the node closes: the steps that an orderly shutdown and the preparation of a requested warm reset share
(Table 19-7, R449, R467, R494), and the erasure of keys (R186, R187). -/
namespace Sys2Proof.Machine

open Reg

/-! ### Admission -/

/-- A waiting request refused after all, because admission closed or its tenant was disabled. -/
def State.turnAway (s : State) (r : Req) (status : Nat) : State := (s.refuse r status).endReq r.id

/-- Admission closes (Table 19-7 step 2, R494): every waiting request but WB, CLN_EVICT, JOB_CLOSE and the node's own work receives
BUSY_RETRY. CXL requests wait on (R86). -/
def State.closeAdmission (s : State) : State :=
  let s1 : State := { s with shape := { s.shape with closing := true } }
  let out := s1.reqs.filter (fun r => r.place == .queued && !r.intern && !r.cxl && s1.closedTo r)
  (out.foldl (fun (s : State) r => s.turnAway r stBusy) s1).judgePanic.reEval

/-- Every Bake stops at its safe points with FAULT 0xB (R449). -/
def State.stopBakes (s : State) : State :=
  s.bakes.foldl (fun (s : State) b => (s.conclude b.id causeFault fcShutdown 0).afterEnd b.id) s

/-- TWIN at a shutdown (Table 19-7 step 3): a Holder with a synced partner hands over, one without fences, and a Standby
leaves. -/
def State.twinClose (s : State) : State :=
  if s.twin.turn = tuHolder then (if s.twin.leased then s.handoverBegin else s.selfFence)
  else s.turnLeave

/-- Admission closed, the Bakes stopped and the Turn given up. -/
def State.closeNode (s : State) : State := s.closeAdmission.stopBakes.twinClose

/-! ### Keys -/

/-- A slot in Erasing, with the place at which its rotation stops, by which its keys still serve the requests that use them. -/
def State.slotErasing (s : State) (n : Nat) : State :=
  { s with slots := Tab.set s.slots n { s.slot n with state := ksErasing, stop := some (s.rotAt n) } }

/-- A slot put in Erasing; a rotation of it stops (R186). -/
def State.eraseSlot (s : State) (n : Nat) : State :=
  let s1 := s.slotErasing n
  match s1.rot with
  | some r => if r.slot = n then { s1 with rot := none }.rotNext else s1
  | none => s1

/-- Whether a key is one that a slot holds. -/
def KeySlot.holds (k : KeySlot) (key : Option (BitVec 512)) : Bool := key == some k.cur || (k.old.isSome && key == k.old.map (·.1))

/-- Whether a region is a Sealed one of a tenant in an epoch. -/
def State.sealedFor (s : State) (ep tid n : Nat) : Bool := s.attr ep TEN_R_ISO n && s.rgn ep TEN_R_TID n == tid

/-- Whether CRYPT holds a request, an entry or a Bake that uses a slot: one whose key was selected, one past the region checks that HOME has
still to order, a PLAN_LOAD whose report it will write, or a Bake until its status word (R303). Slot 0 serves every request that the
directory sees. -/
def State.slotBusy (s : State) (n : Nat) : Bool :=
  let k := s.slot n
  s.reqs.any (fun r => r.admitted && (n == 0 || k.holds r.key || (r.op == .rekey && r.mid == n) ||
      (r.atHome && s.sealedFor r.epoch k.tid r.region) ||
      (r.op == .planLoad && r.place == .bakeWait && (s.sealedFor r.epoch k.tid (s.imageAt r).1 || s.sealedFor r.epoch k.tid (s.reportAt r).1)))) ||
    s.bakes.any (fun b => b.named.any (fun x => s.sealedFor b.epoch k.tid x.1)) ||
    s.queues.any (fun q => (q.2.entries ++ q.2.waiting).any (fun e => k.holds e.key) || q.2.rets.any (fun x => k.holds x.ent.key))

/-- A slot overwritten with zeros and Empty. -/
def State.clearSlot (s : State) (n : Nat) : State := { s with slots := Tab.set s.slots n KeySlot.empty }

/-- Both key sets of a direction erased (R187). A direction that encrypts sends nothing more in sequence (assumption 80). -/
def LinkCrypt.erase (c : LinkCrypt) : LinkCrypt := { c with keys := [none, none] }

/-- Every slot in Erasing, and the transport key and the link key sets erased (R187). -/
def State.eraseKeys (s : State) : State :=
  let s1 := (s.slots.filter (fun p => p.2.state != ksEmpty && p.2.state != ksErasing)).foldl (fun (s : State) p => s.slotErasing p.1) s
  { s1 with
    rot := none, tpk := none,
    ports := Tab.mapVal (fun (c : Port) => { c with txCrypt := c.txCrypt.erase, rxCrypt := c.rxCrypt.erase }) s1.ports }

/-! ### The drain limit -/

/-- Whatever is still open dropped without an answer (Table 19-7 step 4). -/
def State.dropOpen (s : State) : State :=
  { s with
    reqs := s.reqs.filter (fun r => r.place == .queued || r.place == .bypass), trks := [], openTx := [], owed := [], fences := [], bakes := [],
    loads := [], lanes := [], xsyncs := [], rot := none, twin := { s.twin with gates := [], bakes := [] },
    ctxs := [],
    queues := Tab.mapVal (fun (q : Queue) => { q with
      waiting := q.waiting.filter (fun e => e.req.isNone && e.bake.isNone), entries := q.entries.filter (fun e => e.req.isNone && e.bake.isNone),
      rets := q.rets.filter (fun x => x.ent.req.isNone && x.ent.bake.isNone) }) s.queues }

end Sys2Proof.Machine
end

