-- ==== Sys2Proof/Machine/Epoch.lean ====
section
/-! DEFINITION. EPOCH: commit, discard, the drain and its end (R49 to R54), with what each block does at a commit cycle. -/
namespace Sys2Proof.Machine

open Reg

/-! ### What a commit changes -/

/-- The tenants whose root entry a commit changes (R196). -/
def State.rootsChanged (s : State) : List Nat :=
  (List.range 256).filter (fun t => [XLAT_ROOT_XEN, XLAT_ROOT_COUNT_EN, XLAT_ROOT_BASE].any (fun f => s.rdNext f 0 t != s.rd f 0 t))

/-- The tenants that a commit disables (R188). -/
def State.tenantsOff (s : State) : List Nat :=
  (List.range 256).filter (fun t => s.rd TEN_T_ENABLE 0 t == 1 && s.rdNext TEN_T_ENABLE 0 t == 0)

/-- Whether a commit changes the real-time port (R228). -/
def State.rtChanged (s : State) : Bool :=
  s.rdNext SHAPE_RT_EN != s.rd SHAPE_RT_EN || s.rdNext SHAPE_RT_PORT != s.rd SHAPE_RT_PORT

/-- The configurations and epochs at a commit cycle (R50). -/
def State.openNext (s : State) : State :=
  { s with
    openEpoch := (s.openEpoch + 1) % 256, drainEpoch := s.openEpoch, commitPending := true, slowRaised := false, cfgDrain := s.cfgOpen,
    cfgOpen := Tab.overlay s.cfgStaged s.cfgOpen, cfgStaged := [] }

/-- A tenant disabled (R188, R234): what waits for admission is answered TNT_OFF, its Bakes stop, and its jobs begin closing. -/
def State.tenantOff (s : State) (t : Nat) : State :=
  let out := s.reqs.filter (fun r => r.place == .queued && r.tid == t && !r.intern && r.op != .jobClose)
  let s1 := out.foldl (fun (s : State) r => s.turnAway r stTntOff) s
  let s2 := (s1.bakes.filter (fun b => b.tid == t)).foldl (fun (s : State) b => (s.conclude b.id causeDisable 0 0).afterEnd b.id) s1
  s2.disableJobs t

/-- The memory channels at a commit cycle: segments newly refreshed or with a new layout are cleared, and the refresh interval follows its
bounds (R249, R253, R254, R265). -/
def State.channelsCommit (s : State) : State :=
  let also := (List.range 512).filter (fun k => s.computeSeg s.drainEpoch k != s.computeSeg s.openEpoch k)
  channels.foldl (fun (s : State) ch => (s.raiseMask ch also).setRefi ch) s

/-- The commit cycle (R50 to R57). -/
def State.commitCycle (s : State) : State :=
  let off := s.tenantsOff
  let rt := s.rtChanged
  let s1 := (({ s.openNext with rootChanged := s.rootsChanged }).wr EPOCH_RESULT 0).wr EPOCH_DRAIN_ELAPSED 0
  let s2 := ((off.foldl (fun (s : State) t => s.tenantOff t) s1).shapeCommit rt).channelsCommit
  let s3 := ((s2.scrubClamp.judgeLasting (s.rd RAS_PAGE_LIMIT) (s.rd RAS_BANK_LIMIT)).resample)
  let s4 := (List.range 16).foldl (fun (s : State) p => s.rejudge p) s3
  s4.pairCommit.wakeDeep

/-- A write of COMMIT: the commit cycle, or BUSY while a commit is pending (R50, R51). -/
def State.commit (s : State) : State :=
  if s.commitPending then (s.wr EPOCH_RESULT 1).raise pgEPOCH I_EPOCH_COMMIT_BUSY else s.commitCycle

/-- COMMIT. -/
def execCommit (s : State) : Host.Outcome State Fault Refusal := s.onBlk pgEPOCH <| .next s.commit

/-- A write of DISCARD (R49). -/
def State.discard (s : State) : State :=
  if s.commitPending then s.wr EPOCH_RESULT 1 else { s with cfgStaged := [] }.wr EPOCH_RESULT 0

/-- DISCARD. -/
def execDiscard (s : State) : Host.Outcome State Fault Refusal := s.onBlk pgEPOCH <| .next s.discard

/-- The end of a pending commit (R52, R196, R253). -/
def State.commitEnd (s : State) : State :=
  let s1 := (channels.foldl (fun (s : State) ch => s.fallMask ch) s).xlatDrained
  let s2 : State := { s1 with commitPending := false, drainEpoch := s1.openEpoch, cfgDrain := [] }
  (s2.wr EPOCH_COMMIT_COUNT (s2.rd EPOCH_COMMIT_COUNT + 1)).raise pgEPOCH I_EPOCH_COMMIT_DONE

/-- COMMIT_DONE: no block holds a request or Bake of the draining epoch. -/
def execCommitDone (s : State) : Host.Outcome State Fault Refusal := s.onBlk pgEPOCH <|
  if s.commitPending && !s.draining then .next s.commitEnd else .next s

/-- DRAIN_SLOW, once per pending commit (R53). -/
def State.drainSlow (s : State) : State :=
  if s.commitPending && !s.slowRaised && decide (s.rd EPOCH_DRAIN_LIMIT < s.rd EPOCH_DRAIN_ELAPSED) then
    (({ s with slowRaised := true }).raise pgEPOCH I_EPOCH_DRAIN_SLOW).crumb pgEPOCH 0x002 1
      [s.drainEpoch, (allPages.find? s.drainPend).getD 0]
  else s

/-- DRAIN_SLOW. -/
def execDrainSlow (s : State) : Host.Outcome State Fault Refusal := s.onBlk pgEPOCH <| .next s.drainSlow

end Sys2Proof.Machine
end

