-- ==== Sys2Proof/Machine/Sign.lean ====
section
/-! DEFINITION. Ed25519 as RFC 8032 defines it, without context or prehash: what the ZM-3 signs Proofs with and verifiers
check (R417, R421). -/
namespace Sys2Proof.Machine

def sha512H : List Nat := (shaPrimes.take 8).map (fun p => rootK 2 (p * 2 ^ 128) 69 0 % 2 ^ 64)

def sha512 (msg : List Byte) : List Byte :=
  (shaRun 8 sha512K [1, 8, 7, 19, 61, 6, 14, 18, 41, 28, 34, 39] sha512H msg).flatMap (beBytes 8)

/-- The prime of the field and the order of the base point. -/
def edP : Nat := 2 ^ 255 - 19
def edL : Nat := 2 ^ 252 + 27742317777372353535851937790883648493

/-- Powers modulo the prime, by the bits of the exponent, lowest first. -/
def edPow : Nat → Nat → Nat → Nat
  | 0, _, _ => 1
  | n + 1, a, e => (if e % 2 = 1 then a else 1) * edPow n (a * a % edP) (e / 2) % edP

/-- The inverse modulo the prime. -/
def edInv (a : Nat) : Nat := edPow 255 (a % edP) (edP - 2)

/-- The constant d of the curve, −121665 / 121666. -/
def edD : Nat := (edP - 121665) * edInv 121666 % edP

/-- The sum of two points. -/
def edAdd (a b : Nat × Nat) : Nat × Nat :=
  let c := edD * (a.1 * b.1 % edP) % edP * (a.2 * b.2 % edP) % edP
  ((a.1 * b.2 + b.1 * a.2) % edP * edInv (1 + c) % edP, (a.2 * b.2 + a.1 * b.1) % edP * edInv (edP + 1 - c) % edP)

/-- A multiple of a point. -/
def edMul : Nat → Nat → Nat × Nat → Nat × Nat
  | 0, _, _ => (0, 1)
  | n + 1, k, p =>
    let r := edMul n (k / 2) (edAdd p p)
    if k % 2 = 1 then edAdd p r else r

/-- The x of a point from its y and the lowest bit of x; none when there is no such point. -/
def edX (y sign : Nat) : Option Nat :=
  let u := (y * y + edP - 1) % edP
  let v := (edD * y % edP * y + 1) % edP
  let x2 := u * edInv v % edP
  let r := edPow 255 x2 ((edP + 3) / 8)
  let x := if r * r % edP = x2 then r else r * edPow 255 2 ((edP - 1) / 4) % edP
  if y ≥ edP || x * x % edP ≠ x2 || (x = 0 && sign = 1) then none
  else some (if x % 2 = sign then x else edP - x)

/-- The base point. -/
def edB : Nat × Nat :=
  let y := 4 * edInv 5 % edP
  ((edX y 0).getD 0, y)

/-- The 32 bytes of a point. -/
def edEnc (p : Nat × Nat) : List Byte := leBytes 32 (p.2 + p.1 % 2 * 2 ^ 255)

/-- The point of 32 bytes. -/
def edDec (b : List Byte) : Option (Nat × Nat) :=
  let v := leNat b
  let y := v % 2 ^ 255
  (edX y (v / 2 ^ 255)).map (fun x => (x, y))

/-- The secret scalar and the prefix of a seed. -/
def edSecret (seed : BitVec 256) : Nat × List Byte :=
  let h := sha512 (leBytes 32 seed.toNat)
  (setBits (setBits (leNat (h.take 32)) 0 3 0) 254 2 1, h.drop 32)

/-- The public key of a seed. -/
def edPublic (seed : BitVec 256) : List Byte := edEnc (edMul 256 (edSecret seed).1 edB)

/-- The signature of a message. -/
def edSign (seed : BitVec 256) (msg : List Byte) : List Byte :=
  let (a, pre) := edSecret seed
  let r := leNat (sha512 (pre ++ msg)) % edL
  let rb := edEnc (edMul 256 r edB)
  let k := leNat (sha512 (rb ++ edPublic seed ++ msg)) % edL
  rb ++ leBytes 32 ((r + k * a) % edL)

/-- Whether a signature of a message verifies under a public key. -/
def edVerify (pub msg sig : List Byte) : Bool :=
  let rb := sig.take 32
  let v := leNat (sig.drop 32)
  match edDec pub, edDec rb with
  | some a, some r =>
    let k := leNat (sha512 (rb ++ pub ++ msg)) % edL
    sig.length == 64 && decide (v < edL) && edMul 256 v edB == edAdd r (edMul 256 k a)
  | _, _ => false

end Sys2Proof.Machine
end

