-- ==== Sys2Proof/Machine/Tray.lean ====
section
/-! DEFINITION. The tray: the safety path (R442, R445, R451, R454, R455), the hold-up bank and the orderly shutdown (R446 to R450),
cooling (R452, R453), the TMC's firmware (R443, R456 to R460) and its Redfish actions (R461). Times are in AO ticks of the TMC: 2 ms are
3,125 ticks, 100 ms 156,250 and 60 s 93,750,000. -/
namespace Sys2Proof.Machine

open Reg

/-! ### The TMC and the node -/

/-- Entries of the TMC log. -/
def lgForced : Nat := 1
def lgLeak : Nat := 2
def lgStrap : Nat := 3

def State.tmcLog (s : State) (code v : Nat) : State := { s with tmc := { s.tmc with log := s.tmc.log ++ [(code, v)] } }

/-- What the TMC does at the node's TMCB: nothing while the node has no power. -/
def State.atNode (s : State) (f : State → State) : State := if s.stopped pgTMCB then s else f s

/-- Whether the TMC's firmware runs. -/
def Tmc.live (t : Tmc) : Bool := t.standby && t.running

/-- The node and stack rails open: the node is without power (R439, R448). -/
def State.railsOpen (s : State) : State :=
  let t := s.tmc
  ({ s with tmc := { t with stackRail := false, nodeRails := false, offAt := some t.now, start := false } }.out (.rail 0 false)).out (.rail 1 false)

/-- Every output off (R451, R455). -/
def State.allOff (s : State) : State :=
  let s1 := if s.tmc.nodeRails then s.railsOpen else s
  { s1 with tmc := { s1.tmc with
    hsEn := false, bankOut := false, modPower := List.replicate 16 false, duties := List.replicate 6 0, powerGood := false, start := false, shut := none,
    uv := none } }.out (.rail 2 false)

/-- THERMTRIP: both PLLs stop and the rails are opened (R439, Table 19-8). -/
def execThermtrip (s : State) : Host.Outcome State Fault Refusal :=
  if !s.tmc.nodeRails then .next s
  else
    let s1 := ((s.stopDomain false).stopDomain true).out (.tmc tsThermtrip 1)
    .next ({ s1 with tmc := { s1.tmc with trip := some s1.tmc.now } }.railsOpen)

/-! ### The mirror (R443) -/

/-- The TMC's state in the TMCB page. -/
def State.mirror (s : State) (v : Sensors) : State :=
  let t := s.tmc
  let fields : List (Field × Nat) := [(TMCB_TMC_ALIVE, 1), (TMCB_HOLDUP_PENDING, b2n (t.uv.isSome && t.shut.isNone)), (TMCB_SHUT_COMMITTED, b2n t.shut.isSome),
    (TMCB_LEAK_LATCH, b2n t.leakLatch), (TMCB_HS_LATCHED, b2n t.latched), (TMCB_HS_TRIP_KIND, t.kind), (TMCB_INPUT_V, v.inputV.toNat),
    (TMCB_INPUT_I, v.inputI.toNat), (TMCB_BANK_V, v.bankV.toNat), (TMCB_BANK_WEAK, b2n (decide (t.capacity < 800))),
    (TMCB_COOL_NOW, t.duties.foldl max 0), (TMCB_PUMP_A_OK, b2n (t.pumpsBad[0]? == some false)), (TMCB_PUMP_B_OK, b2n (t.pumpsBad[1]? == some false)),
    (TMCB_STRAPS, t.straps.toNat), (TMCB_MOD_PRESENT, bits t.present.toNat 0 16), (TMCB_ZM3_PRESENT, bits t.present.toNat 16 1),
    (TMCB_BAY_CLOSED, bits t.present.toNat 17 1), (TMCB_BANK_PRESENT, bits t.present.toNat 18 1), (TMCB_COOLANT_IN, v.coolantIn.toNat),
    (TMCB_COOLANT_OUT, v.coolantOut.toNat)]
  let s1 := (fields.foldl (fun (s : State) f => s.wr f.1 f.2) s).bumpBy TMCB_WDT_EXPIRIES t.wdt
  let s2 : State := { s1 with tmc := { s1.tmc with wdt := 0, mirrored := s.ao } }
  (s2.sample pgTMCB 0 v.coolantOut.toInt).sample pgTMCB 1 v.bankV.toNat

/-- TMC_MIRROR_UPDATE. -/
def execTmcMirrorUpdate (v : Sensors) (s : State) : Host.Outcome State Fault Refusal :=
  if !s.tmc.live then .next s
  else .next ({ s with tmc := { s.tmc with readings := some v } }.atNode (fun (s : State) => s.mirror v))

/-- TMC_LOST. -/
def execTmcLost (s : State) : Host.Outcome State Fault Refusal :=
  if s.stopped pgTMCB || s.rd TMCB_TMC_ALIVE = 0 then .next s
  else .next (((s.wr TMCB_TMC_ALIVE 0).raise pgTMCB I_TMCB_TMC_LOST).crumb pgTMCB 0x823 2 [s.ao - s.tmc.mirrored])

/-! ### The hot-swap (R444, R445) -/

/-- HS_ENABLE: the ramp ends at power good. -/
def execHsEnable (s : State) : Host.Outcome State Fault Refusal :=
  let t := s.tmc
  if t.standby && t.input && t.hsEn && !t.latched then .next { s with tmc := { t with powerGood := true } } else .next s

/-- A trip: the gate is down and the hot-swap latched off, with its kind. -/
def State.hsTrip (s : State) (kind : Nat) : State :=
  let t := s.tmc
  if t.standby && t.hsEn && t.input && !t.latched then
    ({ s with tmc := { t with latched := true, kind := kind, powerGood := false } }.out (.rail 2 false)).atNode (fun (s : State) =>
      ((s.bump TMCB_HS_TRIPS).raise pgTMCB I_TMCB_HS_TRIP).crumb pgTMCB 0x822 2 [packBits [(0, 2, kind), (8, 8, t.retries)]])
  else s

/-- HS_FAST_TRIP. -/
def execHsFastTrip (s : State) : Host.Outcome State Fault Refusal := .next (s.hsTrip 1)
/-- HS_TIMER_TRIP. -/
def execHsTimerTrip (s : State) : Host.Outcome State Fault Refusal := .next (s.hsTrip 2)
/-- HS_OVERVOLTAGE. -/
def execHsOvervoltage (s : State) : Host.Outcome State Fault Refusal := .next (s.hsTrip 3)

/-- Whether HS_POLICY lets a latched hot-swap retry (Table 19-3); an overvoltage has no retry. -/
def State.mayRetry (s : State) : Bool :=
  let p := s.rd TMCB_HS_POLICY
  s.tmc.standby && s.tmc.latched && (s.tmc.kind == 1 || s.tmc.kind == 2) && (p == 2 || (p == 1 && decide (s.tmc.retries < 3)))

/-- HS_RETRY: the latch opens and the ramp of R444 begins again. -/
def execHsRetry (s : State) : Host.Outcome State Fault Refusal :=
  if s.mayRetry then .next { s with tmc := { s.tmc with latched := false, retries := s.tmc.retries + 1 } } else .next s

/-! ### The hold-up bank (R446, R447) -/

/-- UNDERVOLTAGE: the ride-through window opens, unless a shutdown is committed. A latched hot-swap took the output away; otherwise the
input is gone. -/
def execUndervoltage (s : State) : Host.Outcome State Fault Refusal :=
  let t := s.tmc
  if !t.standby then .next s
  else
    let s1 : State := { s with tmc := { t with powerGood := false, input := t.latched } }
    if t.nodeRails && t.shut.isNone && t.uv.isNone then
      let s2 : State := { s1 with tmc := { s1.tmc with uv := some t.now } }
      .next (s2.atNode (fun (s : State) => (s.wr TMCB_HOLDUP_PENDING 1).raise pgTMCB I_TMCB_HOLDUP))
    else .next s1

/-- INPUT_RETURN: before 2 ms have passed the window ends and is counted; later the input only recharges the bank. -/
def execInputReturn (s : State) : Host.Outcome State Fault Refusal :=
  let t := s.tmc
  let s1 : State := { s with tmc := { t with input := true } }
  match t.uv with
  | none => .next s1
  | some at_ =>
    if !t.latched && t.hsEn && t.shut.isNone && t.now < at_ + 3125 then
      let s2 : State := { s1 with tmc := { s1.tmc with powerGood := true, uv := none } }
      .next (s2.atNode (fun (s : State) => ((s.wr TMCB_HOLDUP_PENDING 0).bump TMCB_RIDE_THROUGHS).crumb pgTMCB 0x820 0
        [(t.now - at_) * 16 / 25, s.rd TMCB_BANK_V]))
    else .next s1

/-! ### The orderly shutdown (R447 to R450) -/

/-- Steps 1 to 3 of Table 19-7. -/
def State.shutBegin (s : State) (cause : Nat) : State :=
  let s1 : State := { s with tmc := { s.tmc with
    shut := some { cause := cause, metered := false, flushed := false, rails := false, ended := false }, uv := none } }
  let s2 := s1.atNode (fun (s : State) =>
    (((((s.wr TMCB_SHUT_CAUSE cause).wr TMCB_SHUT_COMMITTED 1).wr TMCB_HOLDUP_PENDING 0).raise pgTMCB I_TMCB_SHUT_COMMIT).crumb pgTMCB 0x821 2
      [cause, s.rd TMCB_BANK_V]))
  if s2.stopped pgSHAPE then s2 else s2.closeNode.eraseKeys

/-- Whether a cause of Table 19-6 holds. Cause 4 is the user's action. -/
def State.shutCause (s : State) (cause : Nat) : Bool :=
  let t := s.tmc
  match cause with
  | 1 => t.uv.any (fun a => decide (a + 3125 ≤ t.now)) && !t.powerGood
  | 2 => s.rd PWR_SHUT_REQ == 1
  | 3 => decide (472 ≤ t.tj) || decide (200 ≤ t.stack) || t.readings.any (fun r => decide (260 ≤ r.coolantOut.toInt)) ||
      (decide (400 ≤ t.tj) && decide (t.reported + 156250 ≤ t.now))
  | 4 => true
  | 5 => t.pumpsBad.all id
  | _ => false

/-- A commit, made once (R447). -/
def State.shutCommit (s : State) (cause : Nat) : State :=
  if s.tmc.live && s.tmc.nodeRails && s.tmc.shut.isNone then s.shutBegin cause else s

/-- SHUTDOWN_COMMIT. -/
def execShutdownCommit (cause : BitVec 3) (s : State) : Host.Outcome State Fault Refusal :=
  if s.shutCause cause.toNat then .next (s.shutCommit cause.toNat) else .next s

/-- GRACEFUL_SHUTDOWN. -/
def execGracefulShutdown (s : State) : Host.Outcome State Fault Refusal := .next (s.shutCommit 4)

/-- SHUTDOWN_DRAIN_LIMIT: a Holder that has not handed over fences, and what is open is dropped. -/
def execShutdownDrainLimit (s : State) : Host.Outcome State Fault Refusal :=
  if s.tmc.shut.isSome && !s.stopped pgSHAPE then
    let s1 := if s.twin.turn = tuHolder || s.twin.turn = tuHanding then s.selfFence else s
    .next s1.dropOpen
  else .next s

/-- The Crumbs of the ring, oldest first. -/
def Evlog.inOrder (e : Evlog) : List (List Nat) :=
  (List.range e.used).filterMap (fun i => (e.ring.find? (fun c => c.1 == (e.tail + i) % evPlaces)).map (fun c => c.2))

/-- The Crumbs from TAIL to HEAD in the TMC's store, which keeps the newest 4,096 (Table 19-7 step 6). -/
def State.flushCrumbs (s : State) : State :=
  let all := s.tmc.crumbs ++ s.evlog.inOrder
  { s with tmc := { s.tmc with crumbs := all.drop (all.length - 4096) } }

/-- RAILS_OFF, once METER has closed its jobs: the Crumbs are copied, then the rails open. -/
def execRailsOff (s : State) : Host.Outcome State Fault Refusal :=
  match s.tmc.shut with
  | none => .next s
  | some sh =>
    if sh.rails || !(s.meter.ended || s.stopped pgMETER) then .next s
    else
      let s1 := (if s.tmc.nodeRails then s.flushCrumbs.railsOpen else s)
      .next { s1 with tmc := { s1.tmc with shut := some { sh with metered := true, flushed := true, rails := true } } }

/-- BANK_OUTPUT_OPEN: the sequence ends. -/
def execBankOutputOpen (s : State) : Host.Outcome State Fault Refusal :=
  match s.tmc.shut with
  | none => .next s
  | some sh =>
    if sh.rails && !sh.ended then .next ({ s with tmc := { s.tmc with bankOut := false, shut := some { sh with ended := true } } }.out (.rail 3 false))
    else .next s

/-- HARD_CUT: at SHUT_BUDGET, or with the bank at 32.0 V, whatever step has been reached. -/
def execHardCut (s : State) : Host.Outcome State Fault Refusal :=
  let t := s.tmc
  if t.nodeRails && (t.shut.isSome || !t.powerGood) then
    let s1 := if t.shut.isSome then { s with tmc := { t with forced := true } }.tmcLog lgForced t.now else s
    let s2 := s1.railsOpen
    .next { s2 with tmc := { s2.tmc with shut := t.shut.map (fun (x : Shut) => { x with rails := true }), uv := none } }
  else .next s

/-- The outputs that lead to a cold start on, once power is good. -/
def State.powerUp (s : State) : State :=
  let t := s.tmc
  { s with tmc := { t with
    hsEn := true, bankOut := true, powerGood := t.input, uv := none, shut := none, offAt := none, start := true,
    duties := if t.duties.all (· == 0) then List.replicate 6 100 else t.duties } }

/-- TRAY_RESTART after a hold-up shutdown: 100 ms off, the input present and the bank recharged (R450). -/
def execTrayRestart (s : State) : Host.Outcome State Fault Refusal :=
  let t := s.tmc
  let rested := t.offAt.any (fun a => decide (a + 156250 ≤ t.now))
  let charged := t.readings.any (fun v => decide (s.rd TMCB_RECHARGE_V ≤ v.bankV.toNat))
  if t.live && rested && charged && t.input && !t.latched && t.shut.any (fun x => x.cause == 1 && x.ended) then .next s.powerUp else .next s

/-! ### Leaks (R451) -/

/-- LEAK_DETECT. -/
def execLeakDetect (sensor : Fin 4) (s : State) : Host.Outcome State Fault Refusal :=
  if !s.tmc.standby then .next s
  else
    let s1 := s.allOff.tmcLog lgLeak sensor.val
    .next { s1 with tmc := { s1.tmc with leakLatch := true, wet := setNth s1.tmc.wet sensor.val true } }

/-- LEAK_DETECTOR_RESET: with every sensor that tripped reset, the latch opens; the outputs stay off. -/
def execLeakDetectorReset (sensor : Fin 4) (service : Bool) (dry : Bool) (s : State) : Host.Outcome State Fault Refusal :=
  if s.tmc.standby && service && dry then
    let w := setNth s.tmc.wet sensor.val false
    .next { s with tmc := { s.tmc with wet := w, leakLatch := s.tmc.leakLatch && w.any id } }
  else .next s

/-! ### Cooling (R452 to R454) -/

/-- Whether the second row of Table 19-8 asks for full cooling. -/
def Tmc.hot (t : Tmc) : Bool :=
  decide (380 ≤ t.tj) || decide (170 ≤ t.stack) || t.readings.any (fun r => decide (220 ≤ r.coolantOut.toInt))

/-- A pump's duty: the other at 100 % when one has failed. -/
def Tmc.pumpDuty (t : Tmc) (i d : Nat) : Nat := if t.pumpsBad[1 - i]? == some true && t.pumpsBad[i]? == some false then 100 else d

/-- COOLING_UPDATE: the loop's demand within COOL_FLOOR to COOL_CEIL, or 100 % whatever the ceiling. -/
def execCoolingUpdate (demand : BitVec 7) (s : State) : Host.Outcome State Fault Refusal :=
  let t := s.tmc
  if !t.live || t.leakLatch then .next s
  else
    let ceil := s.rd TMCB_COOL_CEIL
    let d := if t.hot then 100 else max (s.rd TMCB_COOL_FLOOR) (min ceil demand.toNat)
    let breaks := t.hot && decide (ceil < 100)
    let s1 : State := { s with tmc := { t with duties := [d, d, d, d, t.pumpDuty 0 d, t.pumpDuty 1 d], above := breaks } }
    .next ((if breaks = t.above then s1 else s1.atNode (fun (s : State) => s.policyOvr pgTMCB 2 breaks ceil 100)).out (.tmc tsCooling d))

/-- PUMP_FAIL: the other pump takes the full flow; with both failed the tray shuts down. -/
def execPumpFail (pumpB : Bool) (s : State) : Host.Outcome State Fault Refusal :=
  let t := s.tmc
  if !t.live || t.pumpsBad[b2n pumpB]? == some true then .next s
  else
    let bad := setNth t.pumpsBad (b2n pumpB) true
    let s1 : State := { s with tmc := { t with
      pumpsBad := bad, duties := if t.leakLatch then t.duties else setNth t.duties (4 + b2n (!pumpB)) 100 } }
    let s2 := s1.atNode (fun (s : State) =>
      (s.raise pgTMCB I_TMCB_PUMP_FAIL).crumb pgTMCB 0x825 2 [packBits [(0, 1, b2n (!pumpB)), (1, 1, b2n pumpB)]])
    .next (if bad.all id then s2.shutCommit 5 else s2)

/-- WATCHDOG_EXPIRY: full cooling, unless a leak keeps the pumps and fans off, and the TMC in reset. -/
def execWatchdogExpiry (s : State) : Host.Outcome State Fault Refusal :=
  let t := s.tmc
  if !t.standby then .next s
  else .next { s with tmc := { t with
    duties := if t.leakLatch then t.duties else List.replicate 6 100, running := false, wdt := t.wdt + 1, wdtBoot := true } }

/-! ### The firmware (R455 to R460) -/

/-- TMC_BOOT: every latch is adopted as it stands, and a commit that is due is made at once (R456). -/
def execTmcBoot (s : State) : Host.Outcome State Fault Refusal :=
  let t := s.tmc
  if !t.standby || t.running then .next s
  else
    let s1 : State := { s with tmc := { t with running := true, wdtBoot := false } }
    let s2 := s1.atNode (fun (s : State) =>
      let s3 := s.bumpBy TMCB_WDT_EXPIRIES t.wdt
      { s3 with tmc := { s3.tmc with wdt := 0 } }.crumb pgTMCB 0x824 1 [b2n t.wdtBoot, s3.rd TMCB_WDT_EXPIRIES])
    .next (if t.uv.any (fun a => decide (a + 3125 < t.now)) then s2.shutCommit 1 else s2)

/-- MANAGER_RESET: the TMC resets; no latch changes. -/
def execManagerReset (s : State) : Host.Outcome State Fault Refusal :=
  .next { s with tmc := { s.tmc with running := false, wdtBoot := s.tmc.wdtBoot && !s.tmc.running } }

/-- TMC_FIRMWARE_UPDATE. -/
def execTmcFirmwareUpdate (version : BitVec 16) (s : State) : Host.Outcome State Fault Refusal :=
  if s.tmc.live then .next { s with tmc := { s.tmc with running := false, wdtBoot := false, version := version.toNat } } else .next s

/-- PIN_FUNCTION_SWITCH: the driver is off and the pin at its safe level until the next tick ends (R457). -/
def execPinFunctionSwitch (pin : Fin 34) (fn : Fin 2) (s : State) : Host.Outcome State Fault Refusal :=
  if s.tmc.live && Tab.get s.tmc.pins pin.val 0 != fn.val then
    .next { s with tmc := { s.tmc with pins := Tab.set s.tmc.pins pin.val (fn.val + 2) } }
  else .next s

/-- STRAP_SAMPLE: at the rise of the standby supply, and at a Chassis Reset (R458). -/
def execStrapSample (straps : BitVec 9) (s : State) : Host.Outcome State Fault Refusal :=
  let s1 : State := { s with tmc := { s.tmc with straps := straps, standby := true } }
  let s2 := if bits straps.toNat 0 2 = 3 then s1.tmcLog lgStrap straps.toNat else s1
  .next (s2.atNode (fun (s : State) => s.wr TMCB_STRAPS straps.toNat))

/-- PRESENCE_DEBOUNCE: a presence input that has changed: a cable module, the ZM-3, the bay cover or the bank (R459). The cover opened
counts in SEAL_EVENTS (R385). -/
def execPresenceDebounce (input : Fin 19) (present : Bool) (s : State) : Host.Outcome State Fault Refusal :=
  let t := s.tmc
  let i := input.val
  if !t.live || bit t.present.toNat i == present then .next s
  else
    let v := setBits t.present.toNat i 1 (b2n present)
    let s1 : State := { s with tmc := { t with present := BitVec.ofNat 19 v } }
    let s2 : State := if i = 17 && !present then s1.bayOpened
      else if i = 16 && present && s1.stopped pgTMCB then { s1 with zm3 := { s1.zm3 with sealEvents := s1.zm3.sealEvents + 1 } }
      else s1
    .next (s2.atNode (fun (s : State) =>
      let s3 := ((s.wr TMCB_MOD_PRESENT (bits v 0 16)).wr TMCB_BAY_CLOSED (bits v 17 1)).wr TMCB_BANK_PRESENT (bits v 18 1)
      (if i = 16 then s3.zm3Seat present else s3).raise pgTMCB I_TMCB_PRESENCE))

/-- BANK_CAPACITANCE_TEST: below 0.80 F the bank is weak. -/
def execBankCapacitanceTest (milliFarad : BitVec 16) (s : State) : Host.Outcome State Fault Refusal :=
  if s.tmc.live then
    .next ({ s with tmc := { s.tmc with capacity := milliFarad.toNat } }.atNode (fun (s : State) =>
      s.wr TMCB_BANK_WEAK (b2n (decide (milliFarad.toNat < 800)))))
  else .next s

/-- STANDBY_SUPPLY_LOSS: every hold latch is cleared (R455). -/
def execStandbySupplyLoss (s : State) : Host.Outcome State Fault Refusal :=
  let s1 := s.allOff
  .next { s1 with tmc := { s1.tmc with standby := false, running := false } }

/-! ### Redfish actions (R450, R452, R461) -/

/-- Whether a Reset action On is accepted: no leak is latched, a trip is 60 s old with the coolant inlet below 45 °C, a thermal
shutdown has cooled down, and no shutdown still runs. -/
def State.onAllowed (s : State) (pumps : BitVec 2) : Bool :=
  let t := s.tmc
  let cool := t.readings.any (fun r => decide (r.coolantOut.toInt < 260))
  t.live && !t.leakLatch &&
    t.trip.all (fun a => decide (a + 93750000 ≤ t.now) && t.readings.any (fun r => decide (r.coolantIn.toInt < 180))) &&
    t.shut.all (fun x => x.ended && (if x.cause = 2 || x.cause = 3 then cool else if x.cause = 5 then pumps != 0 else true))

/-- CHASSIS_RESET_ON: the latches of the hot-swap and of THERMTRIP open, and a tray that is off is powered. -/
def execChassisResetOn (pumps : BitVec 2) (s : State) : Host.Outcome State Fault Refusal :=
  if s.onAllowed pumps then
    let t := s.tmc
    let s1 : State := { s with tmc := { t with
      latched := false, kind := 0, retries := 0, trip := none, pumpsBad := [!bit pumps.toNat 0, !bit pumps.toNat 1] } }
    .next (if t.nodeRails then s1 else s1.powerUp)
  else .next s

/-- FORCE_OFF: tray power is removed. -/
def execForceOff (s : State) : Host.Outcome State Fault Refusal :=
  if s.tmc.live then
    let s1 := s.allOff
    .next { s1 with tmc := { s1.tmc with duties := s.tmc.duties } }
  else .next s

/-- POWER_CYCLE: tray power is removed and, unless a latch holds it off, restored. -/
def execPowerCycle (s : State) : Host.Outcome State Fault Refusal :=
  if s.tmc.live then
    let s1 := s.allOff
    let s2 : State := { s1 with tmc := { s1.tmc with duties := s.tmc.duties } }
    .next (if s2.tmc.leakLatch || s2.tmc.trip.isSome || s2.tmc.latched then s2 else s2.powerUp)
  else .next s

/-- BOOT_SOURCE_OVERRIDE: for the next cold start only (R458). -/
def execBootSourceOverride (copy : BitVec 2) (s : State) : Host.Outcome State Fault Refusal :=
  if s.tmc.live then .next { s with tmc := { s.tmc with override := some copy.toNat } } else .next s

end Sys2Proof.Machine
end

