-- ==== Sys2Proof/Machine/Boot.lean ====
section
/-! DEFINITION. Images, resets and bring-up (R463 to R469, R473 to R482). -/
namespace Sys2Proof.Machine

open Reg

/-! ### ECDSA P-384 verification -/

/-- Powers modulo the order of the group, by the bits of the exponent, lowest first. -/
def p384OrdPow : Nat → Nat → Nat → Nat
  | 0, _, _ => 1
  | n + 1, a, e => (if e % 2 = 1 then a else 1) * p384OrdPow n (a * a % p384N) (e / 2) % p384N

/-- Whether r ‖ s is a signature over a digest by the key with a public point. -/
def ecdsaVerify (q : Nat × Nat) (digest : Nat) (r s : Nat) : Bool :=
  let w := p384OrdPow 384 s (p384N - 2)
  let p := p384Add (p384Mul 384 (digest * w % p384N) (some (p384Gx, p384Gy))) (p384Mul 384 (r * w % p384N) (some q))
  0 < r && r < p384N && 0 < s && s < p384N && (match p with
    | some (x, _) => x % p384N == r
    | none => false)

/-! ### Images (Table 20-4, R473) -/

/-- Results of the mailbox (Table 20-8). -/
def mrOK : Nat := 0x00
def mrUnknown : Nat := 0x80
def mrLength : Nat := 0x81
def mrNounit : Nat := 0x82
def mrState : Nat := 0x83
def mrAuth : Nat := 0x84
def mrRollback : Nat := 0x85
def mrRestarted : Nat := 0x86

/-- Bytes of a copy; a flash device reads as ones where nothing was written. -/
def fwBytes (b : List Byte) (at_ n : Nat) : List Byte :=
  let l := (b.drop at_).take n
  l ++ List.replicate (n - l.length) 0xFF

def fwNat (b : List Byte) (at_ n : Nat) : Nat := leNat (fwBytes b at_ n)

/-- The size of the header, and the longest body. -/
def fwHead : Nat := 512
def fwMax : Nat := 786432

def fwVersion (b : List Byte) : Nat := fwNat b 4 2
def fwSvn (b : List Byte) : Nat := fwNat b 6 1

/-- Whether a range of a copy is zero. -/
def fwZero (b : List Byte) (at_ n : Nat) : Bool := (fwBytes b at_ n).all (· == 0)

/-- Whether a copy's fields and reserved bytes are right. -/
def fwForm (b : List Byte) : Bool :=
  let len := fwNat b 8 4
  fwBytes b 0 4 == ascii "QWDN" && decide (1 ≤ len) && decide (len ≤ fwMax) && decide (fwSvn b < 64) && fwZero b 7 1 && fwZero b 16 96 &&
    fwZero b 209 47 && fwZero b 352 160

/-- Whether a copy is signed by the key whose digest is fused. -/
def State.fwSigned (s : State) (b : List Byte) : Bool :=
  let key := fwBytes b 112 97
  beNat (sha384 key) == s.fuses.imageKey.toNat && (match p384Point key with
    | some q =>
      let d := beNat (sha384 (fwBytes b 0 256 ++ fwBytes b fwHead (fwNat b 8 4)))
      ecdsaVerify q d (beNat (fwBytes b 256 48)) (beNat (fwBytes b 304 48))
    | none => false)

/-- R473 on a copy: OK, AUTH, or ROLLBACK where only the SVN is below the floor. -/
def State.fwCheck (s : State) (b : List Byte) : Nat :=
  if !fwForm b || !s.fwSigned b then mrAuth else if fwSvn b < s.fuses.svnFloor then mrRollback else mrOK

/-- The copies: flash A, flash B, and the TMC's. -/
def State.copy (s : State) (c : Nat) : List Byte := if c = 0 then s.warden.flashA else if c = 1 then s.warden.flashB else s.tmc.image

/-- The order in which the boot ROM tries the copies (R474). -/
def bootOrder (first : Nat) : List Nat := if first = 1 then [1, 0, 2] else if first = 2 then [2, 0, 1] else [0, 1, 2]

/-- The first choice of a cold boot: the override, the confirmed preference, or the strap. -/
def State.coldChoice (s : State) : Nat :=
  match s.tmc.override, s.tmc.confirmed with
  | some c, _ => c
  | none, some c => c
  | none, none => bits s.tmc.straps.toNat 0 2

/-! ### Bring-up (Table 20-6) -/

/-- The metadata key and the transport key pair of this reset, drawn from the random source (R177, R180). -/
def State.newKeys (s : State) : State :=
  let (k, s1) := s.free
  let (t, s2) := s1.free
  let d := 1 + t.toNat % (p384N - 1)
  let p := (p384Mul 384 d (some (p384Gx, p384Gy))).getD (0, 0)
  { s2 with
    tpk := some (d, p.1, p.2),
    slots := if s.opts.k then [(0, { state := ksLoaded, tid := 0, gen := 0, cur := k, old := none })] else [] }

/-- A retire-map entry as the TMC stores it, restored as active without a copy (R469). -/
def rmapOf (v : Nat) : RmapEnt :=
  { q := bits v 0 7, bank := bits v 7 4, sa := bits v 11 9, spare := bits v 20 9, state := 2, placed := 512, copied := 512, issued := 512 }

/-- Whether a stored profile is in force: it is there and its CRC is right (R480). -/
def profileGood (p : Option (List Byte)) : Bool :=
  p.any (fun b => b.length == 256 && crc32c (b.take 252) == leNat (b.drop 252))

/-- A port record of the profile, staged and written. -/
def State.profilePort (s : State) (b : List Byte) (p : Nat) : State :=
  let r := (b.drop (2 + 12 * p)).take 12
  let f := fun (at_ n w : Nat) => bits (leNat ((r.drop at_).take n)) 0 w
  let mode := f 0 1 2
  let acc := f 8 1 2
  let s1 := if mode = 3 || (mode = 1 && p % 2 = 1) then s else s.wr FPORT_MODE mode p
  let s2 := (((s1.wr FPORT_ENABLE (f 1 1 1) p).stage FPORT_AID_FIRST (f 2 2 12) p).stage FPORT_AID_LAST (f 4 2 12) p).stage FPORT_PEER_NID (f 6 2 9) p
  if acc = 3 then s2 else s2.stage FPORT_MMIO_ACCESS acc p

/-- The management agents of a profile. -/
def profileAgents (b : List Byte) : List (Nat × Nat) :=
  ((List.range 8).map (fun i => leNat ((b.drop (194 + 4 * i)).take 4))).filterMap (fun v => if bit v 15 then some (bits v 0 12, bits v 16 16) else none)

/-- The profile applied: its fields staged and committed, then its ports enabled (R480). -/
def State.applyProfile (s : State) : State :=
  let good := profileGood s.tmc.profile
  let b := s.tmc.profile.getD []
  let s1 := if good then
      let w := leNat (b.take 2)
      let s2 := (List.range 16).foldl (fun (s : State) p => s.profilePort b p) s
      if bit w 15 then s2.wr IDENT_NID (bits w 0 9) else s2
    else
      (((s.wr FPORT_MODE 0 0).wr FPORT_ENABLE 1 0).stage FPORT_AID_FIRST 0 0).stage FPORT_AID_LAST 0xFFF 0 |>.stage FPORT_MMIO_ACCESS 2 0
  let s3 : State := { s1 with warden := { s1.warden with agents := if good then profileAgents b else [], blank := !good } }
  let s4 := s3.commitCycle.commitEnd
  (List.range 16).foldl (fun (s : State) p => if s.rd FPORT_ENABLE p = 1 && !s.paired p then s.retrain p else s) s4

/-- What Warden does once its image runs: steps 3 to 5. -/
def State.wardenStarts (s : State) (c : Nat) (cold : Bool) : State :=
  let img := s.copy c
  let t := s.tmc
  let s1 := (((((s.wr WARDEN_BOOT_COPY c).wr IDENT_WARDEN_VER (fwVersion img)).wr WARDEN_RUN_SVN (fwSvn img)).wr WARDEN_BOOT_PHASE 1).wr IDENT_TRAY_SERIAL
    t.traySerial.toNat).crumb pgWARDEN 0x903 0
    [packBits [(0, 16, fwVersion img), (16, 6, fwSvn img), (24, 2, c), (28, 4, s.rd WARDEN_RESET_CAUSE)]]
  let opt := packBits [(0, 1, b2n s.opts.c), (1, 1, b2n s.opts.k), (2, 1, b2n s.opts.w)]
  let s2 := if opt = t.order.toNat then s1 else s1.crumb pgTMCB 0x826 1 [opt + t.order.toNat * 256]
  let s3 : State := { s2.newKeys with tmc := { t with stackRail := true } }
  let s4 : State := if cold then { s3 with ras := { s3.ras with rmap := t.rmap.map (fun p => (p.1, rmapOf p.2)) } } else s3
  let s5 := (List.range 8).foldl (fun (s : State) i => s.wr METER_ENROLL_FP (t.enroll[i]?.getD 0) 0 i) s4
  (s5.applyProfile.wr WARDEN_BOOT_PHASE 2).out (.rail 1 true)

/-- The boot ROM and the bring-up after it; BOOT_FAIL where no copy is accepted (R474). -/
def State.boot (s : State) (first cause : Nat) (cold : Bool) : State :=
  let s1 := s.wr WARDEN_RESET_CAUSE cause
  let order := bootOrder first
  match order.find? (fun c => s1.fwCheck (s1.copy c) == mrOK) with
  | some c => s1.wardenStarts c cold
  | none =>
    let l := order.getLastD 2
    (s1.wr WARDEN_BOOT_PHASE 5).crumb pgWARDEN 0x902 3 [l + s1.fwCheck (s1.copy l) * 256]

/-- Whether a byte of a stack is one of a line of the directory store (R124). -/
def storeCell (a : Nat) : Bool :=
  let r := a / rowBytes
  let b := r / 523 / 512
  decide (r % 523 < 512) && decide (storeBase ≤ unhashLine (b / 16) (b % 16) (r / 523 % 512 * 512 + r % 523) (a % rowBytes / 80) * 64)

/-- CONFIG_READY: every MCH has trained or stopped, and the directory store is written with invalid entries (assumption 100). -/
def execConfigReady (s : State) : Host.Outcome State Fault Refusal :=
  if s.rd WARDEN_BOOT_PHASE = 2 && channels.all (fun n => s.rd H_COND (pgMCH n) != 0) then
    let s1 : State := { s with dir := [], frames := [], broken := [], dram := s.dram.filter (fun c => !storeCell c.1) }
    .next ((((s1.wr H_COND 1 pgHOME).wr H_COND 1 pgDIRC).wr WARDEN_BOOT_PHASE 3).raise pgWARDEN I_WARDEN_CONFIG_READY)
  else .next s

/-! ### Resets (Table 20-2) -/

/-- The pages of the AO island. -/
def aoPage (p : Nat) : Bool := p == 0x03 || p == 0x04 || p == 0x05 || p == 0x82

/-- The page of a register key. -/
def keyPage (k : Nat) : Nat := k / 64 / 0x1000

/-- The keys of the RWS fields of registers; those of the retire map's entries stand in `Ras.fields`. -/
def rwsKeys : List Nat :=
  [keyOf WARDEN_TRIAL 0 0, keyOf WARDEN_BOOT_PREF 0 0]

/-- Whether a register outlives a warm reset: those of the AO island but for LOCK, and the RWS fields. -/
def keptKey (k : Nat) : Bool :=
  (aoPage (keyPage k) && !([3, 4, 5, 0x82].any (fun p => k == keyOf H_LOCK p 0))) || rwsKeys.contains k

/-- A port as reset leaves it, with its module still there. -/
def Port.renew (c : Port) : Port := { Port.fresh with module := c.module }

/-- What both resets leave: the options, the fuses, the tray, the meter module and the flash devices. -/
def State.resetBase (s : State) : State :=
  { State.reset with
    opts := s.opts, fuses := s.fuses, pending := s.pending, freeCtr := s.freeCtr, outs := s.outs, ports := Tab.mapVal Port.renew s.ports,
    meter := { Meter.fresh with present := bit s.tmc.present.toNat 16 }, zm3 := s.zm3, tmc := s.tmc,
    warden := { Warden.fresh with flashA := s.warden.flashA, flashB := s.warden.flashB } }

/-- Blocks ready and clocks running after a reset; the channels and the directory wait for their bring-up. -/
def State.ready (s : State) : State :=
  let ps := allPages.filter (fun p => s.present p && !(0x20 ≤ p && p < 0x50) && p != pgHOME && p != pgDIRC)
  let s1 := ps.foldl (fun (s : State) p => s.wr H_COND 1 p) s
  let s2 := (((s1.wr CLK_FC_STATE pllRunning).wr CLK_MC_STATE pllRunning).wr CLK_REF_OK 1).wr CLK_ON_BACKUP 0
  s2.wr TMCB_STRAPS s.tmc.straps.toNat

/-- Whether the node may be started: power is good and no latch holds it off. -/
def Tmc.mayStart (t : Tmc) : Bool := t.live && t.start && t.powerGood && !t.leakLatch && !t.latched && t.trip.isNone && t.shut.isNone

/-- COLD_RESET: NODE_RSTn released after the node rails are good. -/
def execColdReset (s : State) : Host.Outcome State Fault Refusal :=
  if s.tmc.mayStart then
    let first := s.coldChoice
    let s1 := s.resetBase
    let s2 : State := { s1 with tmc := { s1.tmc with nodeRails := true, start := false, offAt := none, override := none, reported := s1.tmc.now, above := false } }
    .next ((s2.ready).boot first 1 true)
  else .next s

/-- Whether a domain has stopped because its PLL lost lock (R424, R426). -/
def State.domainLost (s : State) (mc : Bool) : Bool :=
  s.rd (pllField mc) == pllCold && allPages.any (fun p => s.present p && inDomain mc p && s.rd H_COND p == 2)

/-- Whether every stack has entered self-refresh before a warm reset: no reference or lock was lost, every stack is trained, and either
the mc clock runs and places each stack there, or every MCH is in Doze, where it already is (R260, R465, R466). -/
def State.memKept (s : State) : Bool :=
  s.rd CLK_ON_BACKUP == 0 && !s.domainLost false && !s.domainLost true &&
    channels.all (fun n => s.rd MCH_TRAIN_STATE n == 0xF && s.rd H_COND (pgMCH n) == 1) &&
    (s.rd CLK_MC_STATE == pllRunning || channels.all (fun n => decide (2 ≤ s.rd H_PWR_NOW (pgMCH n))))

/-- Residency settled for blocks that a reset returns to Run. -/
def State.settlePwr (s : State) : Pwr :=
  (allPages.filter (fun p => !aoPage p && s.rd H_PWR_NOW p != 0)).foldl (fun (w : Pwr) p =>
    let k := p * 4 + s.rd H_PWR_NOW p
    { w with res := Tab.set w.res k (Tab.get w.res k 0 + (s.ao - Tab.get w.since p 0)), since := Tab.set w.since p s.ao }) s.pwr

/-- What a warm reset leaves (R464 to R466). A watermark of the AO island takes its first state anew (R43). -/
def State.warmBase (s : State) (kept : Bool) : State :=
  let b := s.resetBase
  { b with
    ao := s.ao, evlog := s.evlog, dram := s.dram, pwr := s.settlePwr, regs := s.regs.filter (fun p => keptKey p.1),
    wmk := (s.wmk.filter (fun p => aoPage (p.1 / 16))).map (fun p => (p.1, { p.2 with beyond := b.wmkBeyond (p.1 / 16) (p.1 % 16) p.2.now })),
    wins := s.wins.filter (fun p => aoPage (p.1 / 16)),
    meter := { b.meter with proofs := s.meter.proofs, head := s.meter.head },
    ras := { Ras.fresh with
      fields := s.ras.fields, running := s.ras.running, rmap := Tab.mapVal (fun (e : RmapEnt) => { e with placed := e.issued, copied := e.issued }) s.ras.rmap },
    mchs := if kept then Tab.mapVal (fun (m : Mch) => { Mch.fresh with pasr := m.pasr, held := true }) s.mchs else [],
    warden := { b.warden with former := s.warden.former, trial := s.warden.trial } }

/-- The trial at a warm reset: a trial that has run unconfirmed is reverted first (R476). -/
def State.trialBoot (s : State) : State :=
  if s.rd WARDEN_TRIAL = 0 then s
  else if s.warden.trial then
    let v := fwVersion (s.copy (s.rd WARDEN_BOOT_PREF))
    ({ ((s.wr WARDEN_BOOT_PREF s.warden.former).wr WARDEN_TRIAL 0) with warden := { s.warden with trial := false } }).crumb pgWARDEN 0x904 1 [v]
  else { s with warden := { s.warden with trial := true } }

/-- A warm reset with a cause. With MEM_KEPT the channels leave self-refresh and repeat steps 6 to 9; else they train in full. -/
def State.warmReset (s : State) (cause : Nat) (cohLost : Bool) : State :=
  let kept := s.memKept
  let s1 := (((s.warmBase kept).ready.wr WARDEN_MEM_KEPT (b2n kept)).wr WARDEN_COH_LOST (b2n cohLost)).trialBoot
  let s2 := s1.boot (s1.rd WARDEN_BOOT_PREF) cause false
  if s2.rd WARDEN_BOOT_PHASE = 5 then s2
  else channels.foldl (fun (s : State) n =>
    if kept then ((s.trainCmd (2 * n) .srx).trainCmd (2 * n + 1) .srx).trainFrom n 6 else s.trainFrom n 1) s2

/-- The steps of R467 begun. -/
def State.prepare467 (s : State) (cause : Nat) (core : Bool) : State :=
  ({ s with warden := { s.warden with prep := some cause, sweep := 0, prepCore := core } }).closeNode

/-- Whether steps 3 to 5 of R467 have ended. -/
def State.prepared (s : State) : Bool := s.reqs.all (fun r => !r.admitted) && s.warden.sweep == 2 && s.meter.ended

/-- WARM_RESET_ASSERT, the last step of a requested warm reset. -/
def execWarmResetAssert (s : State) : Host.Outcome State Fault Refusal :=
  match s.warden.prep with
  | some c => if s.prepared && !s.stopped pgWARDEN && s.tmc.shut.isNone then .next (s.warmReset c false) else .next s
  | none => .next s

/-- REF_RETURN_RESET: after a reference loss, or a PLL lock loss. -/
def execRefReturnReset (s : State) : Host.Outcome State Fault Refusal :=
  if !s.tmc.live || !s.tmc.nodeRails then .next s
  else if s.rd CLK_ON_BACKUP = 1 then .next (s.warmReset 7 true)
  else if s.domainLost false || s.domainLost true then .next (s.warmReset 8 true)
  else .next s

/-- HB_STALL: WARDEN_HB has not changed for 500 ms, since neither core runs. A prepared reset whose recalls have ended counts as
requested. -/
def execHbStall (s : State) : Host.Outcome State Fault Refusal :=
  let still := s.rd H_COND pgWARDEN == 2 || (s.rd WARDEN_W0_STATE != 0 && s.rd WARDEN_W1_STATE != 0)
  if s.tmc.live && s.tmc.nodeRails && still then .next (s.warmReset 6 !(s.warden.prep.isSome && s.warden.sweep == 2)) else .next s

end Sys2Proof.Machine
end

