-- ==== Sys2Proof/Machine/Cxl.lean ====
section
/-! DEFINITION. CXL mode (R84 to R87): CXL.mem requests in (R121, R122), back-invalidates and their answers (R123, R147), and
the memory device's mailbox (Table 3-7). -/
namespace Sys2Proof.Machine

open Reg

/-- CXL_MEM_REQUEST: held in the port until its arrival checks would pass, then passed on. MemSpecRd is dropped, and a request
outside the subset is counted; a CXL.cache message is reported in the RAS capability too (Table 3-7). A MemWr to a line that the
home has asked back is the data of the host's answer (R147). -/
def execCxlMemRequest (port : Fin 16) (r : CxlReq) (s : State) : Host.Outcome State Fault Refusal := s.onBlk (pgFPORT port.val) <|
  let p := port.val
  let c := s.port p
  if !c.isUp || !c.isCxl then .next s
  else match r.op with
  | .memSpecRd => .next s
  | .unsupported => .next (s.bump FPORT_UNSUP p)
  | .cacheMsg => .next ((s.setPort p { c with cxlRas := true }).bump FPORT_UNSUP p)
  | op =>
    let asked := c.cxlBi.any (fun b => some b.1 == s.cxlLine p r.dpa.toNat && b.2.isNone)
    if op == .memWr && asked then
      let bi := updFirst (fun (b : Nat × Option (BitVec 512 × Bool)) => some b.1 == s.cxlLine p r.dpa.toNat && b.2.isNone)
        (fun b => (b.1, some (r.data, r.poison))) c.cxlBi
      .next ((s.setPort p { c with cxlBi := bi }).out (.cxlRsp p r.tag.toNat 0 0 (devLoad s.shape.load) false 0))
    else .next ((s.setPort p { c with cxlHeld := c.cxlHeld ++ [r] }).cxlPump p)

/-- CXL_BIRSP: the host's BIRsp ends a back-invalidate; HOME sees one answer (R147). -/
def execCxlBirsp (port : Fin 16) (la : BitVec 46) (s : State) : Host.Outcome State Fault Refusal := s.onBlk (pgFPORT port.val) <|
  let p := port.val
  let c := s.port p
  let l := laOf la.toNat
  if !c.isUp || !c.isCxl then .next s
  else match c.cxlBi.find? (fun b => b.1 == l) with
  | none => .next s
  | some b =>
    let s1 := (s.setPort p { c with cxlBi := dropFirst (fun x => x == b) c.cxlBi }).use [pgHOME]
    .next ((s1.homeAnswer (s1.rd FPORT_CXL_AID p) l b.2 0 0 0).settleEnd l)

/-- An IDE integrity failure counted and raised (Table 3-9). -/
def State.ideFailure (s : State) (p : Nat) : State := (s.bump FPORT_AUTH_FAIL p).raise (pgFPORT p) I_FPORT_AUTH

/-- CXL_LINK_DOWN (R87): the link goes Down, and its agent is declared lost. Where an IDE integrity failure ends it, DOWN_REASON is AUTH
(Table 3-7). -/
def execCxlLinkDown (fall : CxlFall) (s : State) : Host.Outcome State Fault Refusal := s.onBlk (pgFPORT fall.port.val) <|
  let p := fall.port.val
  if (s.port p).isCxl && (s.port p).alive then
    .next (if fall.ide then (s.ideFailure p).fall p drAuth false else s.fall p drTimeout false)
  else .next s

/-- The supported commands of the memory device mailbox, by the opcodes of the CXL standard (Table 3-7; assumption 14). -/
def cxlMbxSupported : List Nat := [0x0100, 0x0101, 0x0400, 0x0401, 0x4000, 0x4100, 0x4200]

/-- What a supported command answers, as far as the manual gives it: the event records as (status, node offset) in turn; the capacity of
the device, all of it volatile, in units of 256 MiB, and no persistent capacity (Tables 0-4 and 3-7). -/
def Port.cxlMbxData (c : Port) (op : Nat) : List Nat :=
  if op = 0x0100 then c.cxlEvents.flatMap (fun e => [e.1, e.2])
  else if op = 0x4000 || op = 0x4100 then [12288, 12288, 0]
  else []

/-- CXL_MAILBOX_COMMAND: carried out if supported, else answered Unsupported; either way signalled by vector 1 (R90). Clear
Event Records clears the records. -/
def execCxlMailboxCommand (port : Fin 16) (opcode : BitVec 16) (s : State) : Host.Outcome State Fault Refusal := s.onBlk (pgFPORT port.val) <|
  let p := port.val
  let c := s.port p
  if !c.isUp || !c.isCxl then .next s
  else
    let op := opcode.toNat
    let s1 := if op = 0x0101 then s.setPort p { c with cxlEvents := [] } else s
    .next ((s1.out (.cxlMbx p op (if cxlMbxSupported.contains op then 0 else 3) (c.cxlMbxData op))).out (.msix p 1))

end Sys2Proof.Machine
end

