-- ==== Sys2Proof/Machine/Mbx.lean ====
section
/-! DEFINITION. The Warden mailbox (R483, R484): claim and release, and every command of Table 20-7: PING, GET_INFO, admission, warm
reset, block reset, profile, retire map, images (R470 to R480) and enrolment (R404); and Warden's cores (R476, R478). -/
namespace Sys2Proof.Machine

open Reg

/-! ### Ownership -/

/-- A write of MBX_CLAIM: granted when the mailbox is free. -/
def State.mbxClaim (s : State) (src : Src) : State :=
  match src, s.warden.owner with
  | .agent a, none => { s with warden := { s.warden with owner := some a.toNat } }
  | _, _ => s

/-- Whether a source owns the mailbox. -/
def State.mbxOwns (s : State) (src : Src) : Bool :=
  match src with
  | .agent a => s.warden.owner == some a.toNat
  | .warden => false

/-- A write of MBX_RELEASE: ignored and counted but from the owner. -/
def State.mbxRelease (s : State) (src : Src) : State :=
  if s.mbxOwns src then { s with warden := { s.warden with owner := none } } else s.bump WARDEN_MBX_DENY

/-- MBX_CLAIM. -/
def execMbxClaim (src : Src) (s : State) : Host.Outcome State Fault Refusal := s.onBlk pgWARDEN <| .next (s.mbxClaim src)
/-- MBX_RELEASE. -/
def execMbxRelease (src : Src) (s : State) : Host.Outcome State Fault Refusal := s.onBlk pgWARDEN <| .next (s.mbxRelease src)

/-! ### Commands -/

/-- The first n bytes of MBX_BUF. -/
def State.mbxIn (s : State) (n : Nat) : List Byte :=
  ((List.range ((n + 3) / 4)).flatMap (fun i => leBytes 4 (s.rd WARDEN_MBX_BUF 0 i))).take n

/-- An output written to MBX_BUF; bytes past its end keep what they held. -/
def State.mbxOut (s : State) (b : List Byte) : State :=
  (List.range ((b.length + 3) / 4)).foldl (fun (s : State) i =>
    let part := (b.drop (4 * i)).take 4
    let old := (leBytes 4 (s.rd WARDEN_MBX_BUF 0 i)).drop part.length
    s.wr WARDEN_MBX_BUF (leNat (part ++ old)) 0 i) s

/-- The end of a command: its output, OUT_LEN, RESULT and MBX_DONE (R484). -/
def State.mbxEnd (s : State) (result : Nat) (out : List Byte := []) : State :=
  let s1 : State := { s.mbxOut out with warden := { s.warden with busy := none } }
  (((s1.wr WARDEN_MBX_OUT_LEN out.length).wr WARDEN_MBX_RESULT result).wr WARDEN_MBX_DONE 1).raise pgWARDEN I_WARDEN_MBX_DONE

/-- The LEN that a command takes, or none for an undefined code (Tables 7-7, 20-7). -/
def mbxLen (code : Nat) : Option (Nat × Nat) :=
  match code with
  | 0x12 => some (2, 2)
  | 0x13 => some (256, 256)
  | 0x15 => some (1, 1)
  | 0x20 => some (5, 500)
  | 0x41 | 0x42 => some (172, 172)
  | 0x43 => some (1, 1)
  | 0x44 => some (148, 148)
  | 0x01 | 0x02 | 0x03 | 0x10 | 0x11 | 0x14 | 0x21 | 0x22 | 0x23 | 0x24 | 0x40 | 0x48 | 0x49 => some (0, 0)
  | _ => none

/-- A write of MBX_CMD by the owner: it starts the command, which one of the two cores executes (assumption 81), unless it ends in
UNKNOWN or LENGTH. It is ignored while a command runs. -/
def State.mbxStart (s : State) (code len : Nat) : State :=
  if s.rd WARDEN_MBX_DONE = 0 then s
  else
    let s1 := s.use [pgWARDEN]
    match mbxLen code with
    | none => s1.mbxEnd mrUnknown
    | some (lo, hi) =>
      if len < lo || hi < len then s1.mbxEnd mrLength
      else
        let (v, s2) := s1.free
        { s2 with warden := { s2.warden with busy := some (code, len, bit v.toNat 0) } }.wr WARDEN_MBX_DONE 0

/-- A command performed: `f` is its effect, with LEN. Nothing happens unless the mailbox runs that command. -/
def State.mbxRun (s : State) (code : Nat) (f : State → Nat → State) : State :=
  match s.warden.busy with
  | some (c, len, _) => if c = code then f s len else s
  | none => s

/-- PING. -/
def execPing (s : State) : Host.Outcome State Fault Refusal := s.onBlk pgWARDEN <| .next (s.mbxRun 0x01 (fun s _ => s.mbxEnd mrOK))

/-- GET_INFO. -/
def execGetInfo (s : State) : Host.Outcome State Fault Refusal := s.onBlk pgWARDEN <|
  .next (s.mbxRun 0x02 (fun s _ => s.mbxEnd mrOK (leBytes 8 (packBits
    [(0, 16, s.rd IDENT_WARDEN_VER), (16, 6, s.rd WARDEN_RUN_SVN), (24, 6, s.fuses.svnFloor), (32, 2, s.rd WARDEN_BOOT_COPY),
     (40, 4, s.rd WARDEN_RESET_CAUSE)]))))

/-- GET_IDCERT. -/
def execGetIdcert (s : State) : Host.Outcome State Fault Refusal := s.onBlk pgWARDEN <|
  .next (s.mbxRun 0x03 (fun s _ => s.mbxEnd mrOK (Config.idCert.take 512)))

/-- Whether ADMIT is accepted (R482). -/
def State.mayOpen (s : State) : Bool :=
  s.rd WARDEN_BOOT_PHASE == 3 && channels.all (fun n => s.rd H_COND (pgMCH n) == 1) && s.rd H_COND pgHOME == 1 && !s.commitPending &&
    !bit (s.rd TMCB_STRAPS) 8

/-- ADMIT. -/
def execAdmit (s : State) : Host.Outcome State Fault Refusal := s.onBlk pgWARDEN <|
  .next (s.mbxRun 0x10 (fun s _ =>
    if s.mayOpen then ({ s with shape := { s.shape with open_ := true } }.wr WARDEN_BOOT_PHASE 4).mbxEnd mrOK else s.mbxEnd mrState))

/-- WARM_RESET: OK, then the steps of R467. -/
def execWarmReset (s : State) : Host.Outcome State Fault Refusal := s.onBlk pgWARDEN <|
  .next (s.mbxRun 0x11 (fun s _ =>
    if s.warden.prep.isSome || s.tmc.shut.isSome then s.mbxEnd mrState
    else
      let core := s.warden.busy.any (fun b => b.2.2)
      (s.mbxEnd mrOK).prepare467 3 core))

/-! ### Block reset (R471, R472) -/

/-- Whether Table 20-3 lets a block be reset. -/
def State.mayReset (s : State) (p : Nat) : Bool :=
  if 0x10 ≤ p && p < 0x20 then (s.port (p - 0x10)).train == .down
  else if p = pgXLAT then s.moves.all (fun m => !m.2.active) && s.xsyncs.isEmpty
  else if p = pgMIGR then s.moves.all (fun m => m.2.state == .idle)
  else if 0x50 ≤ p && p < 0x80 then s.plans.isEmpty && (List.range 8).all (fun c => (s.ctx (p - 0x50) c).state == 0)
  else false

/-- The registers of a block back at reset, but for RWE configuration and LOCK; watermark groups too. -/
def State.clearPage (s : State) (p : Nat) : State :=
  { s with
    regs := s.regs.filter (fun r => keyPage r.1 != p || r.1 == keyOf H_LOCK p 0), wmk := s.wmk.filter (fun w => w.1 / 16 != p),
    wins := s.wins.filter (fun w => w.1 / 16 != p) }

/-- What a block loses beside its registers (Table 20-3). -/
def State.loseBlock (s : State) (p : Nat) : State :=
  if 0x10 ≤ p && p < 0x20 then
    let c := s.port (p - 0x10)
    (s.setPort (p - 0x10) { c.renew with txCrypt := c.txCrypt.idle, rxCrypt := c.rxCrypt.idle }).copyCmis
      (p - 0x10) c.module
  else if p = pgXLAT then
    { s with
      tc := [], wc := [], hpqHead := 0, hpqTail := 0, windowCount := 0, pwr := { s.pwr with windows := 0 },
      regs := s.regs.filter (fun r => !(0x400 ≤ keyPage r.1 && keyPage r.1 < 0x800)) }
  else if p = pgMIGR then { s with moves := [] }
  else s.loseRce (p - 0x50)

/-- BLOCK_RESET: NOUNIT where the block is an absent RCE (R6, R484), STATE for any other block than those of Table 20-3 or in another
condition. -/
def execBlockReset (s : State) : Host.Outcome State Fault Refusal := s.onBlk pgWARDEN <|
  .next (s.mbxRun 0x12 (fun s _ =>
    let p := leNat (s.mbxIn 2)
    if 0x50 ≤ p && p < 0x80 && !s.present p then s.mbxEnd mrNounit
    else if s.mayReset p then (((s.use [p]).clearPage p).loseBlock p).wr H_COND 1 p |>.mbxEnd mrOK else s.mbxEnd mrState))

/-! ### Stores of the TMC -/

/-- PROFILE_WRITE: stored as it is, applied at the next reset. -/
def execProfileWrite (s : State) : Host.Outcome State Fault Refusal := s.onBlk pgWARDEN <|
  .next (s.mbxRun 0x13 (fun s _ => if s.tmc.live then
    ({ s with tmc := { s.tmc with profile := some (s.mbxIn 256) } }.out (.tmc tsProfile 1)).mbxEnd mrOK else s))

/-- 256 bytes of free values. -/
def State.free256 (s : State) : List Byte × State :=
  (List.range 4).foldl (fun (a : List Byte × State) _ =>
    let (v, s1) := a.2.free
    (a.1 ++ leBytes 64 v.toNat, s1)) ([], s)

/-- PROFILE_READ. Where none is stored the bytes returned are open (assumption 82). -/
def execProfileRead (s : State) : Host.Outcome State Fault Refusal := s.onBlk pgWARDEN <|
  .next (s.mbxRun 0x14 (fun s _ =>
    if !s.tmc.live then s
    else match s.tmc.profile with
      | some b => s.mbxEnd mrOK b
      | none => let (b, s1) := s.free256; s1.mbxEnd mrOK b))

/-- RMAP_FORGET (R470). -/
def execRmapForget (s : State) : Host.Outcome State Fault Refusal := s.onBlk pgWARDEN <|
  .next (s.mbxRun 0x15 (fun s _ =>
    let n := leNat (s.mbxIn 1)
    if !s.tmc.live then s
    else if (Tab.get? s.tmc.rmap n).isSome then { s with tmc := { s.tmc with rmap := Tab.erase s.tmc.rmap n } }.mbxEnd mrOK else s.mbxEnd mrState))

/-! ### Images (R475 to R477) -/

/-- The flash copy that is not running, absent when the running copy came from the TMC. -/
def State.otherCopy (s : State) : Option Nat :=
  let c := s.rd WARDEN_BOOT_COPY
  if c = 0 then some 1 else if c = 1 then some 0 else none

/-- Bytes written into a copy; what lies past the longest image is no part of a copy. -/
def fwWrite (b : List Byte) (at_ : Nat) (d : List Byte) : List Byte :=
  if at_ < fwHead + fwMax then
    let pre := b.take at_ ++ List.replicate (at_ - b.length) 0xFF
    (pre ++ d ++ b.drop (at_ + d.length)).take (max b.length (fwHead + fwMax))
  else b

/-- IMAGE_WRITE. -/
def execImageWrite (s : State) : Host.Outcome State Fault Refusal := s.onBlk pgWARDEN <|
  .next (s.mbxRun 0x20 (fun s len =>
    match s.otherCopy with
    | none => s.mbxEnd mrState
    | some c =>
      let b := s.mbxIn len
      let img := fwWrite (s.copy c) (leNat (b.take 4)) (b.drop 4)
      let w := s.warden
      { s with warden := if c = 0 then { w with flashA := img } else { w with flashB := img } }.mbxEnd mrOK))

/-- IMAGE_CHECK. -/
def execImageCheck (s : State) : Host.Outcome State Fault Refusal := s.onBlk pgWARDEN <|
  .next (s.mbxRun 0x21 (fun s _ => match s.otherCopy with
    | none => s.mbxEnd mrState
    | some c => s.mbxEnd (s.fwCheck (s.copy c))))

/-- IMAGE_PREFER. A copy preferred again before its trial keeps the copy that its revert returns to. -/
def execImagePrefer (s : State) : Host.Outcome State Fault Refusal := s.onBlk pgWARDEN <|
  .next (s.mbxRun 0x22 (fun s _ => match s.otherCopy with
    | none => s.mbxEnd mrState
    | some c =>
      let k := s.fwCheck (s.copy c)
      if k = mrOK then
        let former := if s.rd WARDEN_TRIAL = 1 && s.rd WARDEN_BOOT_PREF = c then s.warden.former else s.rd WARDEN_BOOT_PREF
        let w : Warden := { s.warden with former := former, trial := false }
        (({ s with warden := w }.wr WARDEN_BOOT_PREF c).wr WARDEN_TRIAL 1).mbxEnd mrOK
      else s.mbxEnd k))

/-- Whether a trial runs: the preferred copy is the running one, on its first boot. -/
def State.trialRuns (s : State) : Bool := s.rd WARDEN_TRIAL == 1 && s.warden.trial && s.rd WARDEN_BOOT_COPY == s.rd WARDEN_BOOT_PREF

/-- IMAGE_CONFIRM. -/
def execImageConfirm (s : State) : Host.Outcome State Fault Refusal := s.onBlk pgWARDEN <|
  .next (s.mbxRun 0x23 (fun s _ =>
    if s.trialRuns then
      ({ s with
          warden := { s.warden with trial := false }, tmc := { s.tmc with confirmed := some (s.rd WARDEN_BOOT_PREF) } }.wr WARDEN_TRIAL 0).mbxEnd mrOK
    else s.mbxEnd mrState))

/-- SVN_ADVANCE: the floor rises to the running image's SVN, and never falls. -/
def execSvnAdvance (s : State) : Host.Outcome State Fault Refusal := s.onBlk pgWARDEN <|
  .next (s.mbxRun 0x24 (fun s _ =>
    if s.rd WARDEN_TRIAL = 1 then s.mbxEnd mrState
    else { s with fuses := { s.fuses with svnFloor := max s.fuses.svnFloor (s.rd WARDEN_RUN_SVN) } }.mbxEnd mrOK))

/-! ### Enrolment (R404) -/

/-- A fingerprint put into ENROLL_FP and into the TMC's store. -/
def State.enroll (s : State) (fp : List Nat) : State :=
  let s1 := (List.range 8).foldl (fun (s : State) i => s.wr METER_ENROLL_FP (fp[i]?.getD 0) 0 i) s
  ({ s1 with tmc := { s1.tmc with enroll := fp } }).meterJudge false false

/-- METER_ENROLL. -/
def execMeterEnroll (s : State) : Host.Outcome State Fault Refusal := s.onBlk pgWARDEN <|
  .next (s.mbxRun 0x48 (fun s _ => (s.enroll ((List.range 8).map (fun i => s.rd METER_KEY_FP 0 i))).mbxEnd mrOK))

/-- METER_FORGET. -/
def execMeterForget (s : State) : Host.Outcome State Fault Refusal := s.onBlk pgWARDEN <|
  .next (s.mbxRun 0x49 (fun s _ => (s.enroll (List.replicate 8 0)).mbxEnd mrOK))

/-! ### Keys (R180 to R187) -/

/-- Reason codes of Table 7-8. -/
def krUnwrap : Nat := 1
def krStaleGen : Nat := 2
def krNoSlot : Nat := 3
def krState : Nat := 4
def krWeakKey : Nat := 5
def krBadPoint : Nat := 6
def krTid0 : Nat := 7

/-- The end of a key command: KEY_RESULT records its reason, and a failure raises KEY_FAIL (R182). -/
def State.keyEnd (s : State) (reason : Nat) (out : List Byte := []) : State :=
  let s1 := if s.opts.k then s.wr CRYPT_KEY_RESULT reason else s
  (if reason ≠ 0 && s.opts.k then s1.raise pgCRYPT I_CRYPT_KEY_FAIL else s1).mbxEnd reason out

/-- GET_TPK: the transport public key, signed with the node identity key. After its erasure there is none to return (STATE). -/
def execGetTpk (s : State) : Host.Outcome State Fault Refusal := s.onBlk pgWARDEN <|
  .next (s.mbxRun 0x40 (fun s _ => match s.tpk with
    | none => s.keyEnd krState
    | some (_, x, y) =>
      let p := p384Bytes x y
      let sig := Config.ecdsaSign s.fuses.idKey (BitVec.ofNat 384 (beNat (sha384 p))) s.freeCtr
      { s with freeCtr := s.freeCtr + 1 }.keyEnd 0 (p ++ beBytes 96 sig.toNat)))

/-- A delivered key unwrapped (R181). -/
def State.unwrap (s : State) (qe : Nat × Nat) (info wrapped : List Byte) : Option (List Byte) :=
  match s.tpk with
  | none => none
  | some (d, _, _) => kwUnwrap (kekOf d qe info) wrapped

/-- FixedInfo of a tenant key (Table 7-6). -/
def State.tenantInfo (s : State) (tid gen : Nat) : List Byte :=
  ascii "LMN4800-TK" ++ leBytes 2 s.nid ++ leBytes 1 tid ++ leBytes 2 gen ++ leBytes 8 s.fuses.nodeSerial.toNat

/-- FixedInfo of a link key. -/
def State.linkInfo (s : State) (b : List Byte) : List Byte := ascii "LMN4800-LK" ++ leBytes 2 s.nid ++ b.take 3 ++ leBytes 8 s.fuses.nodeSerial.toNat

/-- The lowest Empty slot from 1. -/
def State.emptySlot (s : State) : Option Nat := ((List.range 255).map (· + 1)).find? (fun n => (s.slot n).state == ksEmpty)

/-- The checks that KEY_LOAD and KEY_ROTATE share, in the order of the model (assumption 83): the point, the tenant, its slot's state,
the generation, for a load a free slot, the unwrapping and the key: a reason, or the key. -/
def State.tenantKey (s : State) (b : List Byte) (load : Bool) : Except Nat (BitVec 512) :=
  let tid := leNat (b.take 1)
  let gen := leNat ((b.drop 1).take 2)
  match p384Point ((b.drop 3).take 97) with
  | none => .error krBadPoint
  | some qe =>
    let held := s.slotOf tid
    let ok := if load then held.isNone else held.any (fun n => (s.slot n).state == ksLoaded)
    if tid = 0 then .error krTid0
    else if !ok then .error krState
    else if gen ≠ Tab.get s.lastGen tid 0 + 1 then .error krStaleGen
    else if load && s.emptySlot.isNone then .error krNoSlot
    else match s.unwrap qe (s.tenantInfo tid gen) ((b.drop 100).take 72) with
      | none => .error krUnwrap
      | some k => if k.take 32 == (k.drop 32).take 32 then .error krWeakKey else .ok (BitVec.ofNat 512 (leNat k))

/-- KEY_LOAD. -/
def State.keyLoad (s : State) (len : Nat) : State :=
  if !s.opts.k then s.mbxEnd mrNounit
  else
    let b := s.mbxIn len
    let tid := leNat (b.take 1)
    let gen := leNat ((b.drop 1).take 2)
    match s.tenantKey b true, s.emptySlot with
    | .ok k, some n =>
      { s with
        slots := Tab.set s.slots n { state := ksLoaded, tid := tid, gen := gen, cur := k, old := none },
        lastGen := Tab.set s.lastGen tid gen }.keyEnd 0 (leBytes 1 n)
    | .ok _, none => s.keyEnd krNoSlot
    | .error r, _ => s.keyEnd r

/-- KEY_LOAD. -/
def execKeyLoad (s : State) : Host.Outcome State Fault Refusal := s.onBlk pgWARDEN <| .next (s.mbxRun 0x41 (fun s len => s.keyLoad len))

/-- KEY_ROTATE: the slot holds the old and the new key, and the rotation begins when no other runs (R184). -/
def State.keyRotate (s : State) (len : Nat) : State :=
  if !s.opts.k then s.mbxEnd mrNounit
  else
    let b := s.mbxIn len
    let tid := leNat (b.take 1)
    let gen := leNat ((b.drop 1).take 2)
    match s.tenantKey b false, s.slotOf tid with
    | .ok k, some n =>
      let o := s.slot n
      let s1 : State := { s with
        slots := Tab.set s.slots n { o with state := ksRotating, gen := gen, cur := k, old := some (o.cur, o.gen) },
        lastGen := Tab.set s.lastGen tid gen }
      (if s1.rot.isNone then s1.rotNext else s1).keyEnd 0
    | .ok _, none => s.keyEnd krState
    | .error r, _ => s.keyEnd r

/-- KEY_ROTATE. -/
def execKeyRotate (s : State) : Host.Outcome State Fault Refusal := s.onBlk pgWARDEN <| .next (s.mbxRun 0x42 (fun s len => s.keyRotate len))

/-- KEY_ERASE: the slot is Erasing at once; the command ends with SLOT_ERASED (R186). -/
def State.keyErase (s : State) : State :=
  if !s.opts.k then s.mbxEnd mrNounit
  else
    let tid := leNat (s.mbxIn 1)
    if tid = 0 then s.keyEnd krTid0
    else match s.slotOf tid with
      | none => s.keyEnd krState
      | some n => s.eraseSlot n

/-- KEY_ERASE. -/
def execKeyErase (s : State) : Host.Outcome State Fault Refusal := s.onBlk pgWARDEN <| .next (s.mbxRun 0x43 (fun s _ => s.keyErase))

/-- SLOT_ERASED: no request uses an Erasing slot; it is Empty, and a KEY_ERASE of its tenant ends (R186). -/
def execSlotErased (slot : BitVec 8) (s : State) : Host.Outcome State Fault Refusal := s.onBlk pgCRYPT <|
  let n := slot.toNat
  let k := s.slot n
  if k.state ≠ ksErasing || s.slotBusy n then .next s
  else
    let s1 := s.clearSlot n
    .next (s1.mbxRun 0x43 (fun s _ => if n ≠ 0 && leNat (s.mbxIn 1) = k.tid then s.keyEnd 0 else s))

/-- LINK_KEY_LOAD: the key set of a port's direction, from whose load the group counter starts anew (R72, R75). -/
def State.linkKeyLoad (s : State) (len : Nat) : State :=
  let b := s.mbxIn len
  let f := fun (i : Nat) => leNat ((b.drop i).take 1)
  match p384Point ((b.drop 3).take 97) with
  | none => s.keyEnd krBadPoint
  | some qe =>
    if 16 ≤ f 0 || 2 ≤ f 1 || 2 ≤ f 2 then s.keyEnd krState
    else
      let c := s.port (f 0)
      let d := if f 1 = 0 then c.txCrypt else c.rxCrypt
      if d.active && b2n d.sel = f 2 then s.keyEnd krState
      else match s.unwrap qe (s.linkInfo b) ((b.drop 100).take 48) with
        | none => s.keyEnd krUnwrap
        | some k =>
          let key : LinkKey := { key := BitVec.ofNat 256 (leNat (k.take 32)), salt := BitVec.ofNat 32 (leNat ((k.drop 32).take 4)) }
          let d' : LinkCrypt := { d with keys := setNth d.keys (f 2) (some key), counts := setNth d.counts (f 2) 0 }
          (s.setPort (f 0) (if f 1 = 0 then { c with txCrypt := d' } else { c with rxCrypt := d' })).keyEnd 0

/-- LINK_KEY_LOAD. -/
def execLinkKeyLoad (s : State) : Host.Outcome State Fault Refusal := s.onBlk pgWARDEN <| .next (s.mbxRun 0x44 (fun s len => s.linkKeyLoad len))

/-! ### The cores (R476, R478) -/

def coreState (core : Bool) : Field := if core then WARDEN_W1_STATE else WARDEN_W0_STATE
def coreRestarts (core : Bool) : Field := if core then WARDEN_W1_RESTARTS else WARDEN_W0_RESTARTS

/-- States of a core: running, in lockup, restarting. -/
def csRun : Nat := 0
def csLock : Nat := 1
def csStart : Nat := 2

/-- A requested warm reset that Warden starts itself, unless one is being prepared. -/
def State.ownReset (s : State) (cause : Nat) (core : Bool) : State :=
  if s.warden.prep.isSome || s.tmc.shut.isSome then s else s.prepare467 cause core

/-- What the other core does about a locked one: it restarts it, or at the fifth time within 60 s starts a warm reset; the command that
the locked core executed ends in RESTARTED, and a reset that it was preparing with admission left closed. -/
def State.restartCore (s : State) (core : Bool) : State :=
  let i := b2n core
  let recent := (s.warden.restarts[i]?.getD []).filter (fun t => decide (s.ao < t + 93750000))
  let s1 := if s.warden.busy.any (fun b => b.2.2 == core) then s.mbxEnd mrRestarted
    else if s.warden.prep == some 3 && s.warden.prepCore == core then s.mbxEnd mrRestarted else s
  let s2 : State := if s1.warden.prep == some 3 && s1.warden.prepCore == core then { s1 with warden := { s1.warden with prep := none, sweep := 0 } } else s1
  if recent.length ≥ 4 then (s2.crumb pgWARDEN 0x905 2 [i]).ownReset 5 (!core)
  else
    let s3 : State := { s2 with warden := { s2.warden with restarts := setNth s2.warden.restarts i (s.ao :: recent) } }
    (s3.wr (coreState core) csStart).bump (coreRestarts core)

/-- What a running core does about the other one, which has locked with a PC and a stack pointer (R478). -/
def State.answerLockup (s : State) (core : Bool) (pc sp : Nat) : State :=
  ((s.raise pgWARDEN I_WARDEN_CORE_LOCKUP).crumb pgWARDEN 0x901 2 [b2n core, pc, sp]).restartCore core

/-- CORE_LOCKUP. While the other core restarts, its PC and stack pointer stay asserted; with the other locked too, no one acts. -/
def execCoreLockup (core : Bool) (pc : Word) (sp : Word) (s : State) : Host.Outcome State Fault Refusal := s.onBlk pgWARDEN <|
  if s.rd (coreState core) ≠ csRun then .next s
  else
    let s1 := s.wr (coreState core) csLock
    if s.rd (coreState (!core)) = csRun then .next (s1.answerLockup core pc.toNat sp.toNat)
    else .next { s1 with warden := { s1.warden with lockup := some (pc.toNat, sp.toNat) } }

/-- A core that has come up finds the other in lockup, and acts on it. -/
def State.findLockup (s : State) (core : Bool) : State :=
  match s.warden.lockup with
  | some (pc, sp) =>
    if s.rd (coreState (!core)) = csLock then { s with warden := { s.warden with lockup := none } }.answerLockup (!core) pc sp else s
  | none => s

/-- WARDEN_HEARTBEAT: a core in lockup does not beat; the first beat of one that restarts shows it running. -/
def execWardenHeartbeat (core : Bool) (s : State) : Host.Outcome State Fault Refusal := s.onBlk pgWARDEN <|
  if s.rd (coreState core) = csLock then .next s
  else
    let s1 := (s.wr (coreState core) csRun).wr WARDEN_WARDEN_HB ((s.rd WARDEN_WARDEN_HB + 1) % 2 ^ 32)
    .next (if s.rd (coreState core) = csRun then s1 else s1.findLockup core)

/-- TRIAL_TIMEOUT: a trial not confirmed within 60 s is reverted by a requested warm reset (R476). -/
def execTrialTimeout (s : State) : Host.Outcome State Fault Refusal := s.onBlk pgWARDEN <|
  if s.rd WARDEN_TRIAL = 1 && s.warden.trial then
    let v := fwVersion (s.copy (s.rd WARDEN_BOOT_PREF))
    let s1 := (s.wr WARDEN_BOOT_PREF s.warden.former).wr WARDEN_TRIAL 0
    let s2 : State := { s1 with warden := { s1.warden with trial := false } }
    let (f, s3) := (s2.crumb pgWARDEN 0x904 1 [v]).free
    .next (s3.ownReset 4 (bit f.toNat 0))
  else .next s

end Sys2Proof.Machine
end

