-- ==== Sys2Proof/Machine/Views.lean ====
section
/-! DEFINITION. What a read of each register field returns (Tables 2-3 to 20-10): the fields that show other state of the block,
field by field; every other field shows its stored value. -/
namespace Sys2Proof.Machine

open Reg

/-! ### Places in the window -/

/-- A register field found at a place of the window: its instance, its place among equal fields, and whether the register is
the upper one of a pair. -/
structure Hit where
  f    : Field
  inst : Nat
  idx  : Nat
  hi   : Bool
deriving DecidableEq, Repr

/-- The distance of equal fields; a pair takes two registers. -/
def Field.step (f : Field) : Nat := if f.width > 32 then max 8 f.stride else f.stride

/-- A field of an instance at an offset, if the register there holds it. -/
def Field.hit (f : Field) (inst rel : Nat) : Option Hit :=
  let d := rel - f.off
  let i := d / f.step
  if rel < f.off || f.n ≤ i then none
  else if d % f.step = 0 then some { f := f, inst := inst, idx := i, hi := false }
  else if f.width > 32 && d % f.step = 4 then some { f := f, inst := inst, idx := i, hi := true }
  else none

/-- The block that a page of the window belongs to (Tables 2-1 and 2-2). -/
def ownerPage (page : Nat) : Nat :=
  if page < 0x100 then page else if page < 0x200 then pgSHAPE else if page < 0x400 then pgTEN else if page < 0x800 then pgXLAT else pgDIRC

/-- The first page of a table window. -/
def windowBase (page : Nat) : Nat := if page < 0x200 then 0x100 else if page < 0x400 then 0x200 else if page < 0x800 then 0x400 else 0x800

/-- The fields of a table window. -/
def windowFields (page : Nat) : List Field :=
  if page < 0x200 then shapeTenantFields ++ shapeAgentFields
  else if page < 0x400 then regionFields ++ tenantFields ++ agentMapFields
  else if page < 0x800 then rootFields ++ hpqFields
  else agentFields ++ trackerFields

/-- The fields of the register at a window offset: none at a reserved offset, in an absent or reserved page, or at an address that
is not aligned (R5, R12, R30, R33). -/
def State.hits (s : State) (addr : Nat) : List Hit :=
  let page := addr / 0x1000
  let off := addr % 0x1000
  if addr % 4 ≠ 0 then []
  else if 0x100 ≤ page then (windowFields page).filterMap (fun f => f.hit 0 (addr - windowBase page * 0x1000))
  else if !s.present page then []
  else if off < 0x30 then headerFields.filterMap (fun f => f.hit page off)
  else if 0xF00 ≤ off then
    (wmkFields.filterMap (fun f => f.hit page off)).filter (fun h => decide (h.idx < (wmkGroups page).length))
  else (blockFields page).filterMap (fun f => f.hit (page - firstPage page) off)

/-! ### The common header -/

/-- BLOCK_CAPS of a page (the register pages of the owning chapters). JOB_PLACES of METER needs one bit more than the 24 of the
field (assumption 87). -/
def State.blockCaps (s : State) (p : Nat) : Nat :=
  match firstPage p with
  | 0x10 => 1 + (if p % 2 = 0 then 2 else 0)
  | 0x09 => 16384
  | 0x0A => 8 + 12 * 16
  | 0x0B => s.granule
  | 0x0C => 256
  | 0x0D => 7
  | 0x0E => 16
  | 0x0F => 256
  | 0x20 => 64 + 2 ^ 7 + bits (s.rd MCH_IDPAGE (p - 0x20) 4) 16 1 * 2 ^ 8
  | 0x81 => 4096 + 256 * 2 ^ 13
  | 0x03 => 1024
  | 0x80 => 48 + 7 * 2 ^ 6 + 4096 * 2 ^ 9
  | 0x50 => 16384 + 8 * 2 ^ 15 + 4 * 2 ^ 19
  | 0x08 => 16384
  | 0x07 => 12 + 11 * 2 ^ 4
  | 0x04 => 16 + 8 * 2 ^ 5
  | 0x05 => 2
  | 0x82 => 16 + 4 * 2 ^ 5
  | 0x06 => 2 + 1024 * 2 ^ 2
  | _ => 0

/-- Whether a block holds a staged set (R46). -/
def State.stagedPage (s : State) (p : Nat) : Bool := s.cfgStaged.any (fun e => ownerPage (e.1 / 64 / 0x1000) == p)

/-- Bits by page: register n of 32 pages (Tables 2-7 and 2-9). -/
def pageBitsOf (t : Nat → Bool) (n : Nat) : Nat :=
  (List.range 32).foldl (fun a i => a + b2n (decide (32 * n + i < 0x83) && t (32 * n + i)) * 2 ^ i) 0

/-- The header field of page p (Table 2-3). -/
def State.viewHeader (s : State) (f : Field) (p : Nat) : Nat :=
  match f.off, f.lo with
  | 0x0, 24 => classOf p
  | 0x0, 16 => p - firstPage p
  | 0x4, 31 => b2n (capEpoch p)
  | 0x4, 30 => b2n (!(wmkGroups p).isEmpty)
  | 0x4, 24 => (wmkGroups p).length
  | 0x4, 0 => s.blockCaps p
  | 0x1C, 0 => (List.range (wmkGroups p).length).foldl (fun a g => a + s.rd WMK_CROSSED p g * 2 ^ g) 0
  | 0x20, 0 => s.openEpoch
  | 0x20, 8 => if s.drainPend p then s.drainEpoch else s.openEpoch
  | 0x20, 16 => b2n (s.drainPend p)
  | 0x20, 17 => b2n (s.stagedPage p)
  | _, _ => s.rd f p

/-- The fields of a watermark group (Table 2-4). -/
def State.viewWmk (s : State) (f : Field) (p g : Nat) : Nat :=
  match f.off, f.lo with
  | 0xF00, 31 => b2n (((wmkGroups p)[g]?.getD (false, 0)).1)
  | 0xF0C, 0 => match Tab.get? s.wmk (p * 16 + g) with
    | some w => unsgn 32 w.now
    | none => 0
  | _, _ => s.rd f p g

/-! ### Block pages -/

def State.viewBdir (s : State) (f : Field) (i : Nat) : Nat :=
  match f.off, f.lo with
  | 0x100, 0 => b2n s.opts.c
  | 0x100, 1 => b2n s.opts.k
  | 0x100, 2 => b2n s.opts.w
  | 0x110, 0 => pageBitsOf s.present i
  | 0x130, 0 => pageBitsOf s.summary i
  | _, _ => s.rd f 0 i

def State.viewIdent (s : State) (f : Field) (i : Nat) : Nat :=
  match f.off, f.lo with
  | 0x100, 8 => s.fuses.stepMajor.toNat
  | 0x100, 0 => s.fuses.stepMinor.toNat
  | 0x108, 0 => s.fuses.nodeSerial.toNat
  | _, _ => s.rd f 0 i

def State.viewEpoch (s : State) (f : Field) (i : Nat) : Nat :=
  match f.off, f.lo with
  | 0x100, 0 => s.openEpoch
  | 0x100, 8 => if s.commitPending then s.drainEpoch else s.openEpoch
  | 0x100, 16 => b2n s.commitPending
  | 0x120, 0 => pageBitsOf s.drainPend i
  | 0x140, 0 => pageBitsOf s.stagedPage i
  | _, _ => s.rd f 0 i

/-- The STATE of a port: Paired for the odd port of a CXL pair (R84). -/
def State.viewFport (s : State) (f : Field) (p i : Nat) : Nat :=
  let c := s.port p
  match f.off, f.lo with
  | 0x104, 0 => if s.paired p then 7 else c.train.code
  | 0x114, 1 => b2n c.txCrypt.active
  | 0x114, 2 => b2n c.txCrypt.sel
  | 0x114, 3 => b2n c.rxCrypt.sel
  | 0x114, 6 => b2n (c.txCrypt.loaded false && c.rxCrypt.loaded false) + 2 * b2n (c.txCrypt.loaded true && c.rxCrypt.loaded true)
  | _, _ => s.rd f p i

def State.viewHome (s : State) (f : Field) (i : Nat) : Nat :=
  match f.off with
  | 0x108 => s.trks.length
  | 0x10C => s.fences.length
  | _ => s.rd f 0 i

def State.viewDirc (s : State) (f : Field) (i : Nat) : Nat :=
  match f.off with
  | 0x148 => s.dir.length
  | 0x14C => (s.dir.filter (fun e => e.coarse)).length
  | 0x154 => s.broken.length
  | _ => s.rd f 0 i

/-- SLOT_INFO of the slot that SLOT_SEL names, and the rotation pointer (Table 7-11). -/
def State.viewCrypt (s : State) (f : Field) (i : Nat) : Nat :=
  let k := s.slot (s.rd CRYPT_SLOT_SEL)
  match f.off, f.lo with
  | 0x104, 0 => k.state
  | 0x104, 8 => k.tid
  | 0x104, 16 => k.gen
  | 0x114, 0 => match s.rot with | some r => r.slot | none => 0
  | 0x114, 8 => b2n (s.rot.isSome)
  | 0x118, 0 => match s.rot with | some r => r.region | none => 0
  | 0x120, 0 => match s.rot with | some r => r.la | none => 0
  | _, _ => s.rd f 0 i

def State.viewXlat (s : State) (f : Field) (i : Nat) : Nat :=
  match f.off with
  | 0x10C => s.hpqHead
  | 0x110 => s.hpqTail
  | 0x158 => (s.reqs.filter (fun r => r.place == .held)).length
  | _ => s.rd f 0 i

/-- The STATE codes of a MID slot (Table 8-14); a move whose MIGR_START is not yet answered shows COPYING. -/
def MState.code : MState → Nat
  | .idle => 0 | .starting => 1 | .copying => 1 | .done => 2 | .stuck => 3 | .incoming => 4 | .stuckIn => 3

/-- The MID slot that MOVE_SEL selects (Table 8-14). -/
def State.viewMigr (s : State) (f : Field) (i : Nat) : Nat :=
  let m := s.move (s.rd MIGR_MOVE_SEL)
  match f.off, f.lo with
  | 0x104, 0 => m.kind
  | 0x104, 8 => m.tid
  | 0x108, 0 => m.tpa.toNat
  | 0x110, 0 => m.destPga.toNat
  | 0x118, 0 => m.destAid
  | 0x120, 0 => m.state.code
  | 0x120, 8 => m.reason
  | 0x120, 12 => m.size
  | 0x120, 16 => m.peer
  | 0x124, 0 => m.doneL
  | 0x128, 0 => m.issued
  | 0x12C, 0 => m.srcPga
  | _, _ => s.rd f 0 i

def State.viewShape (s : State) (f : Field) (i : Nat) : Nat :=
  match f.off, f.lo with
  | 0x110, 0 => s.shape.limNow
  | 0x120, 0 => s.shape.load
  | 0x120, 4 => b2n s.shape.panic
  | 0x120, 5 => b2n s.shape.throttle
  | 0x124, 0 => s.shape.vtime
  | 0x12C, 0 => s.outNode
  | _, _ => s.rd f 0 i

def State.viewMch (s : State) (f : Field) (ch i : Nat) : Nat :=
  match f.off, f.lo with
  | 0x11C, 0 => (s.queue (2 * ch)).entries.length
  | 0x11C, 16 => (s.queue (2 * ch + 1)).entries.length
  | 0x180, 0 => bits (s.mch ch).pasr.toNat (32 * i) 32
  | _, _ => s.rd f ch i

/-- The slots of a bank's first four subarrays as the BT_SA pair shows them (Table 11-8). -/
def BankEnt.slots (e : BankEnt) : Nat :=
  (List.range e.subs.length).foldl (fun a n =>
    let x := e.subs[n]?.getD (0, [])
    a + (x.1 + min 127 (windowSum x.2) * 2 ^ 9) * 2 ^ (16 * n)) 0

/-- A retire-map field of the entry that RMAP_SEL selects: of the entry in use, else as written for ADD. -/
def State.viewRmap (s : State) (f : Field) (used : RmapEnt → Nat) : Nat :=
  match Tab.get? s.ras.rmap (s.rd RAS_RMAP_SEL) with
  | some e => if e.state = 0 then s.rmapField (s.rd RAS_RMAP_SEL) f.lo else used e
  | none => s.rmapField (s.rd RAS_RMAP_SEL) f.lo

def State.viewRas (s : State) (f : Field) (i : Nat) : Nat :=
  let pt := Tab.get? s.ras.pages (s.rd RAS_PT_SEL)
  let bt := s.bankEnt (s.rd RAS_BT_SEL)
  let run := s.ras.running.bind (fun n => Tab.get? s.ras.rmap n)
  match f.off, f.lo with
  | 0x124, 0 => (pt.map (fun e => e.page)).getD 0
  | 0x124, 28 => b2n pt.isSome
  | 0x124, 29 => b2n (pt.any (fun e => e.lasting))
  | 0x128, 0 => (pt.map (fun e => e.count)).getD 0
  | 0x134, 0 => min 0xFFFF bt.count
  | 0x134, 16 => b2n bt.lasting
  | 0x134, 17 => b2n bt.wide
  | 0x138, 0 => bt.slots
  | 0x144, 0 => s.viewRmap f (fun e => e.q)
  | 0x144, 7 => s.viewRmap f (fun e => e.bank)
  | 0x144, 11 => s.viewRmap f (fun e => e.sa)
  | 0x144, 20 => s.viewRmap f (fun e => e.spare)
  | 0x144, 30 => (Tab.get? s.ras.rmap (s.rd RAS_RMAP_SEL)).elim 0 (fun e => e.state)
  | 0x148, 16 => (run.map (fun e => e.issued)).getD 0
  | 0x148, 31 => b2n s.ras.running.isSome
  | 0x154, 0 => (channels.map (fun ch => (s.mch ch).stale.length)).foldl (· + ·) 0
  | _, _ => s.rd f 0 i

def State.viewEvlog (s : State) (f : Field) (i : Nat) : Nat :=
  let e := s.evlog
  match f.off with
  | 0x100 => e.head
  | 0x104 => e.tail
  | 0x108 => e.used
  | 0x10C => e.seq
  | 0x120 => match e.ring.find? (fun c => c.1 == e.tail) with
    | some c => c.2[i]?.getD 0
    | none => 0
  | _ => s.rd f 0 i

/-- A row of the Poisoned Row List as PRL_ROW spells it: queue, bank, subarray, row (Table 12-8). -/
def prlRowBits (k : Nat) : Nat := packBits [(0, 7, k / 2 ^ 22), (7, 4, k / 2 ^ 18), (11, 9, k / 2 ^ 9), (20, 9, k)]

def State.viewRdl (s : State) (f : Field) (i : Nat) : Nat :=
  let e := s.rdl.prl.find? (fun x => x.1 == s.rd RDL_PRL_SEL)
  match f.off, f.lo with
  | 0x100, 0 => s.rdl.prl.length
  | 0x104, 0 => s.rdl.ovf.length
  | 0x10C, 1 => b2n s.rdl.rescan.isSome
  | 0x114, 0 => (e.map (fun x => prlRowBits x.2.1)).getD 0
  | 0x114, 31 => b2n e.isSome
  | 0x118, 0 => (e.map (fun x => bits x.2.2.toNat (32 * i) 32)).getD 0
  | _, _ => s.rd f 0 i

/-- The context that CTX_SEL selects, and the control-store word at CS_ADDR (Table 13-8). -/
def State.viewRce (s : State) (f : Field) (n i : Nat) : Nat :=
  let c := s.ctx n (s.rd RCE_CTX_SEL n)
  let b := s.bake c.bid
  let live := c.state != 0
  match f.off, f.lo with
  | 0x104, 0 => c.state
  | 0x104, 2 => b2n c.group.isSome
  | 0x104, 4 => (c.group.map (fun g => g.cmds.length)).getD 0
  | 0x108, 0 => c.pc
  | 0x108, 16 => c.stack.length
  | 0x10C, 0 => c.fault
  | 0x10C, 16 => c.faultPc
  | 0x110, 0 => c.counter 0 + c.counter 1 * 2 ^ 16
  | 0x114, 0 => c.counter 2 + c.counter 3 * 2 ^ 16
  | 0x120, 0 => c.reg i
  | 0x144, 0 => if live then (b.map (fun b => b.tid)).getD 0 else 0
  | 0x144, 8 => if live then (b.map (fun b => b.job)).getD 0 else 0
  | 0x154, 0 => s.csRead n (s.rd RCE_CS_ADDR n) % 2 ^ 32
  | 0x158, 0 => s.csRead n (s.rd RCE_CS_ADDR n) / 2 ^ 32
  | _, _ => s.rd f n i

def State.viewTwin (s : State) (f : Field) (i : Nat) : Nat :=
  let t := s.twin
  match f.off, f.lo with
  | 0x108, 0 => t.turn
  | 0x108, 8 => b2n t.leased
  | 0x108, 9 => b2n t.synced
  | 0x108, 10 => b2n t.current
  | 0x108, 11 => b2n t.partPref
  | 0x120, 0 => t.seqSent
  | 0x124, 0 => if t.turn = tuHolder || t.turn = tuHanding then t.seqAcked else t.applied
  | 0x130, 0 => t.resync.getD 0
  | 0x138, 0 => t.pendRecs.length
  | 0x13C, 0 => t.turnCount
  | _, _ => s.rd f 0 i

def State.viewMeter (s : State) (f : Field) (i : Nat) : Nat :=
  let m := s.meter
  let p := m.proofs.head?
  match f.off, f.lo with
  | 0x10C, 0 => m.backlog.length
  | 0x1C0, 0 => s.jobs.length
  | 0x1C4, 0 => m.head
  | 0x1C8, 0 => m.tail
  | 0x1CC, 0 => (p.map (fun x => x.2.length)).getD 0
  | 0x1D0, 0 => (p.map (fun x => x.1)).getD 0
  | 0x200, 0 => (p.map (fun x => leNat ((x.2.drop (4 * i)).take 4))).getD 0
  | _, _ => s.rd f 0 i

/-- The AO ticks that a page has spent in a power state, with those of its present stay (Table 18-7). -/
def State.residency (s : State) (p st : Nat) : Nat :=
  Tab.get s.pwr.res (p * 4 + st) 0 + (if s.rd H_PWR_NOW p = st then s.ao - Tab.get s.pwr.since p 0 else 0)

def State.viewPwr (s : State) (f : Field) (i : Nat) : Nat :=
  let x := s.pwr.sensors[s.rd PWR_SENSOR_SEL]?.getD (0, false)
  let p := s.rd PWR_RES_PAGE
  match f.off, f.lo with
  | 0x110, 0 => x.1
  | 0x110, 16 => b2n x.2
  | 0x128, 0 => if s.present p then s.residency p 0 else 0
  | 0x130, 0 => s.residency p 1
  | 0x138, 0 => s.residency p 2
  | 0x140, 0 => s.residency p 3
  | 0x148, 0 => Tab.get s.pwr.wakes p 0
  | _, _ => s.rd f 0 i

/-- CLK's registers. What the monitors measure is open (assumption 107). -/
def State.viewClk (s : State) (f : Field) (i : Nat) : Nat :=
  match f.off with
  | 0x10C => if s.ao = 0 then s.rd f 0 i else (Config.pllDeviation (f.lo == 16) s.ao).toNat
  | 0x120 => s.ao
  | _ => s.rd f 0 i

def State.viewWarden (s : State) (f : Field) (i : Nat) : Nat :=
  match f.off, f.lo with
  | 0x110, 0 => s.fuses.svnFloor
  | 0x120, 2 => b2n s.warden.owner.isSome
  | 0x120, 16 => s.warden.owner.getD 0
  | _, _ => s.rd f 0 i

/-! ### Table windows -/

/-- SHAPE's window (Table 9-7). -/
def State.viewShapeTab (s : State) (f : Field) (t : Nat) : Nat :=
  match f.off with
  | 0x18 => unsgn 32 (Tab.get s.shape.ctok t 0)
  | 0x1C => unsgn 32 (Tab.get s.shape.ptok t 0)
  | 0x20 => Tab.get s.shape.tags t 0
  | 0x28 =>
    if f.lo = 0 then (s.reqs.filter (fun r => r.place == .queued && r.tid == t)).length
    else (s.reqs.filter (fun r => r.admitted && r.tid == t)).length
  | 0x10000 => s.outAgent t
  | _ => s.rd f 0 t

/-- TEN's window (Table 7-1): ENABLE of TID 0 reads 1 (R164). -/
def State.viewTenTab (s : State) (f : Field) (n : Nat) : Nat :=
  match f.off, f.lo with
  | 0x8, 0 => s.dirCount n
  | 0x20000, 0 => if n = 0 then 1 else s.rd f 0 n
  | 0x20000, 8 => (s.slotOf n).getD 0
  | 0x20004, 0 => Tab.get s.lastGen n 0
  | _, _ => s.rd f 0 n

/-- A word of a tracker's view (Table 5-10). -/
def State.trackerWord (s : State) (slot word : Nat) : Nat :=
  match s.trks.find? (fun t => t.slot == slot) with
  | none => 0
  | some t =>
    let aid := match s.req t.req with
      | some r => r.aid
      | none => 0
    bits (packBits [(0, 1, 1), (1, 3, t.view), (4, 37, t.la), (41, 12, aid), (56, 13, t.awaited.length)]) (32 * word) 32

/-- DIRC's window (Table 5-10). -/
def State.viewDircTab (s : State) (f : Field) (i : Nat) : Nat :=
  match f.off, f.lo with
  | 0x0, 0 => (s.agent i).inc
  | 0x0, 16 => (s.portOf i).getD 0
  | 0x0, 20 => b2n (s.cxlPort i).isSome
  | 0x0, 21 => (s.agent i).state
  | 0x100000, 0 => s.trackerWord (i / 4) (i % 4)
  | _, _ => s.rd f 0 i

/-! ### Any field -/

/-- What a field shows at an instance and place. Fields that only take writes read as zero (R14). -/
def State.view (s : State) (h : Hit) : Nat :=
  let f := h.f
  let n := h.inst
  let i := h.idx
  if f.acc == .wo || f.acc == .w1s && f.off != 0x2C then 0
  else if f.page = 0 && f.off < 0x30 then s.viewHeader f n
  else if f.page = 0 && 0xF00 ≤ f.off then s.viewWmk f n i
  else match f.page with
    | 0x00 => s.viewBdir f i
    | 0x01 => s.viewIdent f i
    | 0x02 => s.viewEpoch f i
    | 0x03 => s.viewEvlog f i
    | 0x04 => s.viewPwr f i
    | 0x05 => s.viewClk f i
    | 0x06 => s.viewWarden f i
    | 0x07 => s.viewMeter f i
    | 0x08 => s.viewTwin f i
    | 0x09 => s.viewHome f i
    | 0x0A => s.viewDirc f i
    | 0x0C => s.viewCrypt f i
    | 0x0D => s.viewXlat f i
    | 0x0E => s.viewMigr f i
    | 0x0F => s.viewShape f i
    | 0x10 => s.viewFport f n i
    | 0x20 => s.viewMch f n i
    | 0x50 => s.viewRce f n i
    | 0x80 => s.viewRdl f i
    | 0x81 => s.viewRas f i
    | 0x100 => s.viewShapeTab f i
    | 0x200 => s.viewTenTab f i
    | 0x800 => s.viewDircTab f i
    | _ => s.rd f n i

end Sys2Proof.Machine
end

