-- ==== Sys2Proof/Machine/Mmio.lean ====
section
/-! DEFINITION. The MMIO window: reads and writes of registers by their access codes (R10 to R15, R46 to R48), pairs (R13), reserved
encodings and related fields (R11, R48), the common header's commands, and the ways into the window from the ports (R88, R89,
R119). -/
namespace Sys2Proof.Machine

open Reg

/-! ### Reads -/

/-- A counter that a read clears: EXTREME is reloaded with NOW (R44), WAKES stands per block (Table 18-7). -/
def State.clearRc (s : State) (h : Hit) : State :=
  if h.f.page = 0 && h.f.off = 0xF08 then s.wr h.f (s.viewWmk WMK_NOW h.inst h.idx) h.inst h.idx
  else if h.f == PWR_WAKES then { s with pwr := { s.pwr with wakes := Tab.set s.pwr.wakes (s.rd PWR_RES_PAGE) 0 } }
  else s.wr h.f 0 h.inst h.idx

/-- The bits that one field gives a register, and the state after the read: a pair's lower register latches the upper half, and
its upper register shows what was latched (R13). -/
def State.readHit (s : State) (addr : Nat) (h : Hit) : Nat × State :=
  if h.hi then (Tab.get s.latches addr 0, s)
  else
    let v := s.view h
    let s1 : State := if h.f.width > 32 then { s with latches := Tab.set s.latches (addr + 4) (v / 2 ^ 32) } else s
    (v % 2 ^ (min h.f.width 32) * 2 ^ h.f.lo, if h.f.acc == .rc then s1.clearRc h else s1)

/-- An access to a block's registers beyond its header finds it in Run (R428). -/
def State.reach (s : State) (addr : Nat) : State :=
  let page := addr / 0x1000
  if s.present (ownerPage page) && (0x100 ≤ page || 0x100 ≤ addr % 0x1000) then
    if ownerPage page = pgXLAT then s.useXlat else s.use [ownerPage page]
  else s

/-- A read of the register at a window offset. -/
def State.readReg (s : State) (addr : Nat) : Nat × State :=
  (s.hits addr).foldl (fun (a : Nat × State) h =>
    let (v, s1) := a.2.readHit addr h
    (a.1 + v, s1)) (0, s.reach addr)

/-- A read whose value stands in the model's read-data field. A node without power answers nothing. -/
def State.readInto (s : State) (addr : Nat) : State :=
  if s.tmc.nodeRails then
    let (v, s1) := s.readReg addr
    { s1 with rdata := v }
  else s

/-- A read of a given width: one narrower than 32 bits returns zero and clears nothing (R12). -/
def State.readSized (s : State) (addr : Nat) (size : AccSize) : State :=
  if size = .word then s.readInto addr else if s.tmc.nodeRails then { s with rdata := 0 } else s

/-- PAIR_LOWER_READ. -/
def execPairLowerRead (addr : WinAddr) (s : State) : Host.Outcome State Fault Refusal := .next (s.readSized addr.off.toNat addr.size)
/-- RC_READ. -/
def execRcRead (addr : WinAddr) (s : State) : Host.Outcome State Fault Refusal := .next (s.readSized addr.off.toNat addr.size)
/-- WMK_CROSSED_READ. -/
def execWmkCrossedRead (page : BitVec 12) (group : Fin 16) (s : State) : Host.Outcome State Fault Refusal :=
  .next (s.readInto (page.toNat * 0x1000 + 0xF04 + 0x10 * group.val))
/-- WMK_EXTREME_READ. -/
def execWmkExtremeRead (page : BitVec 12) (group : Fin 16) (s : State) : Host.Outcome State Fault Refusal :=
  .next (s.readInto (page.toNat * 0x1000 + 0xF08 + 0x10 * group.val))

/-! ### Reserved encodings (R11) -/

/-- Whether a value is a reserved encoding of a field at an instance and place. A queue number above 95 names no queue and counts
as reserved (assumption 84). -/
def reservedValue (f : Field) (inst idx v : Nat) : Bool :=
  (f == FPORT_MODE && (v == 3 || (v == 1 && inst % 2 == 1))) || (f == FPORT_MMIO_ACCESS && v == 3) ||
  (f == HOME_RCL_MAX && v == 0) || (f == CRYPT_ROT_RATE && (v == 0 || decide (256 < v))) || (f == XLAT_WINDOW && v == 0) ||
  (f == MIGR_KIND && v == 3) || (f == MIGR_WINDOW && (v == 0 || decide (64 < v))) || (f == MIGR_CMD && (v == 0 || decide (4 < v))) ||
  (f == SHAPE_PANIC_ON && v == 0) || (f == SHAPE_AGENT_LIM_CEIL && (v == 0 || decide (2048 < v))) ||
  (f == SHAPE_AGENT_LIM_FLOOR && v == 0) || (f == SHAPE_STEER_PERIOD && v == 0) ||
  (f == SHAPE_BATCH_MAX && (v == 0 || decide (8 < v))) || (f == SHAPE_BATCH_DEPTH && (v == 0 || decide (16 < v))) ||
  (f == SHAPE_T_MODE && v == 3) || (f == SHAPE_T_WEIGHT && v == 0) || (f == SHAPE_T_QLIMIT && (v == 0 || decide (2048 < v))) ||
  (f == MCH_REFI_CEIL && (v == 0 || decide (4680 < v))) || (f == MCH_REFI_FLOOR && v == 0) || (f == MCH_RETRAIN_PERIOD && v == 0) ||
  (f == RAS_SCRUB_INT_CEIL && v == 0) || (f == RAS_SCRUB_INT_FLOOR && v == 0) || (f == RAS_PAGE_LIMIT && v == 0) ||
  (f == RAS_BANK_LIMIT && v == 0) || (f == RAS_SLICE_SEC && v == 0) || (f == RAS_RM_QUEUE && decide (95 < v)) ||
  (f == RDL_RS_QUEUE && decide (95 < v)) ||
  (f == TWIN_CMD && (v == 0 || decide (4 < v))) || (f == TWIN_TW_WINDOW && (v == 0 || decide (4096 < v))) ||
  (f == TWIN_RESYNC_RATE && (v == 0 || decide (3072 < v))) ||
  (f == PWR_TJ_SHUTDOWN && (decide (v < 360) || decide (460 < v))) || (f == H_PWR_POLICY && decide (7 < v)) ||
  (f == TMCB_COOL_CEIL && decide (100 < v)) || (f == TMCB_SHUT_BUDGET && (decide (v < 100) || decide (400 < v))) ||
  (f == TMCB_RECHARGE_V && (decide (v < 4700) || decide (5000 < v))) || (f == TMCB_ILIM && (decide (v < 100) || decide (320 < v))) ||
  (f == TMCB_HS_POLICY && v == 3) || (f == TEN_T_ENABLE && idx == 0 && v == 0)

/-- Whether any region entry has MIRROR 1, in the open epoch or in the staged set (R355). -/
def State.anyMirror (s : State) : Bool :=
  let isMir := fun (p : Nat × Nat) =>
    let b := keyOf TEN_R_MIRROR 0 0
    decide (b ≤ p.1) && decide (p.1 < b + 4096 * 0x20 * 64) && (p.1 - b) % (0x20 * 64) == 0 && p.2 == 1
  s.cfgOpen.any isMir || s.cfgStaged.any isMir

/-- A rule that relates fields (R48, R371): the fields, and the test over a reader of the values that will stand. -/
structure Rule where
  fields : List Field
  holds  : (Field → Nat) → Bool

/-- The rules that relate fields: SHAPE's panic and limit pairs and its two-rate tenants (R220, R228, R232), the refresh and
scrub pairs, the policies (R436), the cooling pair, and the Twin times (R371). -/
def rules : List Rule :=
  [{ fields := [SHAPE_PANIC_ON, SHAPE_PANIC_OFF], holds := fun r => decide (r SHAPE_PANIC_OFF < r SHAPE_PANIC_ON) },
   { fields := [SHAPE_AGENT_LIM_CEIL, SHAPE_AGENT_LIM_FLOOR], holds := fun r => decide (r SHAPE_AGENT_LIM_FLOOR ≤ r SHAPE_AGENT_LIM_CEIL) },
   { fields := [SHAPE_T_MODE, SHAPE_T_CIR, SHAPE_T_PIR], holds := fun r => r SHAPE_T_MODE != 2 || decide (r SHAPE_T_CIR ≤ r SHAPE_T_PIR) },
   { fields := [SHAPE_T_MODE, SHAPE_T_CBS, SHAPE_T_PBS], holds := fun r => r SHAPE_T_MODE != 2 || decide (r SHAPE_T_CBS ≤ r SHAPE_T_PBS) },
   { fields := [MCH_REFI_CEIL, MCH_REFI_FLOOR], holds := fun r => decide (r MCH_REFI_FLOOR ≤ r MCH_REFI_CEIL) },
   { fields := [RAS_SCRUB_INT_CEIL, RAS_SCRUB_INT_FLOOR], holds := fun r => decide (r RAS_SCRUB_INT_FLOOR ≤ r RAS_SCRUB_INT_CEIL) },
   { fields := [PWR_DOZE_AFTER, PWR_OFF_AFTER],
     holds := fun r => r PWR_DOZE_AFTER == 0 || r PWR_OFF_AFTER == 0 || decide (r PWR_DOZE_AFTER < r PWR_OFF_AFTER) },
   { fields := [TMCB_COOL_FLOOR, TMCB_COOL_CEIL], holds := fun r => decide (r TMCB_COOL_FLOOR ≤ r TMCB_COOL_CEIL) },
   { fields := [TWIN_LEASE_T, TWIN_RENEW_T, TWIN_FENCE_T],
     holds := fun r => decide (r TWIN_RENEW_T < r TWIN_FENCE_T) && decide (r TWIN_FENCE_T < r TWIN_LEASE_T) }]

/-- A field with the value that a write carries for it. -/
abbrev Put := Hit × Nat

/-- The value of a field as it will stand once the writes of a register have been taken (R48). -/
def State.standing (s : State) (puts : List Put) (inst idx : Nat) (f : Field) : Nat :=
  match puts.find? (fun p => p.1.f == f) with
  | some p => p.2
  | none => s.rdNext f inst idx

/-- Whether a write of PAIR_EN, or of NID, is discarded by its own rule (R355, Table 2-8). -/
def State.deniedPut (s : State) (puts : List Put) (p : Put) : Bool :=
  (p.1.f == TWIN_PAIR_EN && (if p.2 = 1 then s.standing puts 0 0 TWIN_PARTNER_NID == s.nid else s.anyMirror)) ||
  (p.1.f == IDENT_NID && s.shape.open_)

/-- The fields of a write without those whose rule it would break. -/
def State.keepRules (s : State) (puts : List Put) : List Put :=
  rules.foldl (fun (l : List Put) (r : Rule) =>
    match l.find? (fun p => r.fields.contains p.1.f) with
    | some p => if r.holds (s.standing l p.1.inst p.1.idx) then l else l.filter (fun x => !r.fields.contains x.1.f)
    | none => l) puts

/-! ### Writes -/

/-- The bits of a field that must be zero: they are reserved bits (R10). -/
def zeroBits (f : Field) : Nat :=
  if f == FPORT_CXL_PGA_BASE || f == MIGR_TPA then 16 else if f == XLAT_ROOT_BASE then 21 else 0

/-- The lower half of a pair for a write of its upper register: the held half, or the half that stands (R13). -/
def State.lowerHalf (s : State) (addr : Nat) (h : Hit) : Nat :=
  match Tab.get? s.halves (addr - 4) with
  | some v => v
  | none => (if h.f.staged then s.rdNext h.f h.inst h.idx else s.view h) % 2 ^ 32

/-- The values that a write of a register carries for its fields; a pair's is whole at its upper register. -/
def State.putsOf (s : State) (addr val : Nat) : List Put :=
  (s.hits addr).filterMap (fun h =>
    if h.hi then
      let v := (s.lowerHalf addr h + val * 2 ^ 32) % 2 ^ h.f.width
      some (h, v / 2 ^ zeroBits h.f * 2 ^ zeroBits h.f)
    else if h.f.width > 32 then none
    else some (h, bits val h.f.lo h.f.width))

/-- Whether a field is locked by its block's BLK_LOCK (R15, R36). -/
def State.locked (s : State) (page : Nat) (f : Field) : Bool := (f.acc == .rwl || f.acc == .rweL) && s.rd H_LOCK page == 1

/-- A cause set in INT_STAT by hand: all causes but the reserved bits [28:16] of Table 2-3 (R10, R40). A bit of [15:0] for which the
block's own table defines no cause is set like any other: Table 2-3 calls those bits block-specific and not reserved (DESIGN CHOICE,
assumption 132). -/
def State.intForce (s : State) (page v : Nat) : State :=
  s.edge (s.wr H_INT_STAT (s.rd H_INT_STAT page ||| (v &&& 0xE000FFFF)) page)

/-- INT_EN written: a cause already set raises the summary as a new one would (R40). -/
def State.intEn (s : State) (page v : Nat) : State := s.edge (s.wr H_INT_EN v page)

/-- INT_ROUTE written: while the node summary is 1, a destination newly enabled, or a new AGENT, receives one interrupt (R40). -/
def State.intRoute (s : State) (toWarden toAgent agent : Nat) : State :=
  let s1 := ((s.wr BDIR_TO_WARDEN toWarden).wr BDIR_TO_AGENT toAgent).wr BDIR_AGENT agent
  if s.nodeSummary then
    let s2 := if toWarden = 1 && s.rd BDIR_TO_WARDEN = 0 then s1.out .warden else s1
    if toAgent = 1 && (s.rd BDIR_TO_AGENT = 0 || s.rd BDIR_AGENT ≠ agent) then s2.intrAgent else s2
  else s1

/-- A field of the selected MID slot written (Table 8-14). -/
def State.migrField (s : State) (f : Field) (v : Nat) : State :=
  let n := s.rd MIGR_MOVE_SEL
  let m := s.move n
  if f == MIGR_KIND then s.setMove n { m with kind := v }
  else if f == MIGR_TID then s.setMove n { m with tid := v }
  else if f == MIGR_TPA then s.setMove n { m with tpa := BitVec.ofNat 64 v }
  else if f == MIGR_DEST_PGA then s.setMove n { m with destPga := BitVec.ofNat 64 v }
  else s.setMove n { m with destAid := v }

/-- A field that is stored at once (RW, RWS, RWL), with what its change does. TRIAL and BOOT_PREF are changed only by Warden, and
MBX_BUF only by the mailbox's owner (Table 20-10). -/
def State.store (s : State) (src : Src) (h : Hit) (v : Nat) : State :=
  let f := h.f
  if f == H_INT_EN then s.intEn h.inst v
  else if f == EVLOG_TAIL then s.tailWrite v
  else if f == XLAT_HPQ_TAIL then s.hpqTailWrite v
  else if f == METER_PROOF_TAIL then s.proofTailWrite v
  else if f == FPORT_ENABLE then s.enableWrite h.inst (v == 1)
  else if f == FPORT_MODE then s.modeWrite h.inst v
  else if f == FPORT_CMIS_OPTIONAL then
    (let s1 := s.wr f v h.inst
     if v = 1 && s1.rd FPORT_DOWN_REASON h.inst = drModuleId then s1.tryTrain h.inst true else s1)
  else if f == FPORT_ENC_REQUIRE then (s.wr f v h.inst).rejudge h.inst
  else if [TWIN_TW_PORT, TWIN_TW_PORT_ALT, TWIN_ALT_EN].contains f then (s.wr f v).twMoved s none
  else if f == TWIN_TW_WINDOW then twRefill 4096 (s.wr f v)
  else if [MIGR_KIND, MIGR_TID, MIGR_TPA, MIGR_DEST_PGA, MIGR_DEST_AID].contains f then s.migrField f v
  else if [RAS_RM_QUEUE, RAS_RM_BANK, RAS_RM_SUBARRAY, RAS_RM_SPARE].contains f then s.rmapPut f.lo v
  else if f == WARDEN_TRIAL || f == WARDEN_BOOT_PREF then (if src == .warden then s.wr f v else s)
  else if f == WARDEN_MBX_BUF then (if s.mbxOwns src then s.wr f v 0 h.idx else s.bump WARDEN_MBX_DENY)
  else s.wr f v h.inst h.idx

/-- A probe begun (Table 5-8). -/
def State.probeGo (s : State) : State :=
  let la := s.rd DIRC_PROBE_LA
  ((s.wr DIRC_PROBE_DONE 0).wr DIRC_PROBE_HIT 0).homeIntern .probe la ((s.regionOf s.openEpoch (la * 64)).getD 0)

/-- The commands of a CMD field: MIGR's and TWIN's (Tables 8-14 and 15-10). -/
def State.migrCmd (s : State) (v : Nat) : State :=
  match v with
  | 1 => s.migrGo
  | 2 => s.migrResume
  | 3 => s.migrAbandon
  | _ => s.migrRelease

def State.twinCmd (s : State) (v : Nat) : State :=
  match v with
  | 1 => s.turnClaim
  | 2 => s.joinSend
  | 3 => s.turnSolo
  | _ => s.turnLeave

/-- A write of 1 to a field that acts (W1S, WO), or of a value to a CMD field. -/
def State.act (s : State) (h : Hit) (v : Nat) : State :=
  let f := h.f
  if f == MIGR_CMD then s.migrCmd v
  else if f == TWIN_CMD then s.twinCmd v
  else if f == H_INT_FORCE then s.intForce h.inst v
  else if v = 0 then s
  else if f == H_LOCK then s.wr H_LOCK 1 h.inst
  else if f == EPOCH_COMMIT then s.commit
  else if f == EPOCH_DISCARD then s.discard
  else if f == FPORT_RETRAIN then s.retrain h.inst
  else if f == FPORT_KEY_SWITCH then s.keySwitchWrite h.inst
  else if f == DIRC_PROBE_GO then s.probeGo
  else if f == TEN_RECALL_GO then s.recallGo
  else if f == RDL_RESCAN_GO then s.rescanGo
  else if f == RAS_PT_CLEAR then s.ptClear
  else if f == RAS_BT_CLEAR then s.btClear
  else if f == RAS_ADD then s.rmapAdd
  else if f == RAS_STALE_FLUSH then s.staleFlush
  else s

/-- One field of a write taken by its access code (Table 0-7). -/
def State.takePut (s : State) (src : Src) (p : Put) : State :=
  let (h, v) := p
  match h.f.acc with
  | .ro | .rc => s
  | .w1c => s.wr h.f (s.rd h.f h.inst h.idx - (s.rd h.f h.inst h.idx &&& v)) h.inst h.idx
  | .rw | .rws | .rwl => s.store src h v
  | .rwe | .rweL => s.stage h.f v h.inst h.idx
  | .w1s | .wo => s.act h v

/-- Whether a field acts when written; such fields are taken after the others of their register. -/
def Put.acts (p : Put) : Bool := p.1.f.acc == .w1s || p.1.f.acc == .wo

/-- Whether a field is of the common header: INT_FORCE and LOCK act in a stopped block too, for which Table 2-3 makes no exception
(R33). -/
def Hit.inHeader (h : Hit) : Bool := h.f == H_INT_FORCE || h.f == H_LOCK

/-- A write of a register with no rule of its own: locked fields are ignored, with LOCK_VIOL where one would change; reserved
encodings and fields whose rule would break are discarded, with CFG_ERR; the others are taken (R11, R15, R48). -/
def State.writeFields (s : State) (src : Src) (addr : Nat) (puts : List Put) : State :=
  let page := addr / 0x1000
  let own := ownerPage page
  let wpage := if 0x100 ≤ page then page else 0
  let lk := puts.filter (fun p => s.locked own p.1.f)
  let free := puts.filter (fun p => !s.locked own p.1.f)
  let ok := free.filter (fun p => !reservedValue p.1.f p.1.inst p.1.idx p.2 && !s.deniedPut free p)
  let good := s.keepRules ok
  let s1 := if lk.any (fun p => p.2 != s.rdNext p.1.f p.1.inst p.1.idx) then s.lockViol own else s
  let s2 := if good.length < free.length then s1.cfgErr own wpage (addr % 0x1000) else s1
  let s3 := (good.filter (fun p => !p.acts)).foldl (fun (s : State) p => s.takePut src p) s2
  (good.filter (fun p => p.acts && (p.1.inHeader || !s3.stopped own))).foldl (fun (s : State) p => s.takePut src p) s3

/-- A write of 0x120 of WARDEN: a release, then a claim (R483). -/
def State.mbxWrite (s : State) (src : Src) (val : Nat) : State :=
  let s1 := if bit val 1 then s.mbxRelease src else s
  if bit val 0 then s1.mbxClaim src else s1

/-- A write of MBX_CMD: only the owner's starts a command (R483). -/
def State.mbxCmd (s : State) (src : Src) (val : Nat) : State :=
  if s.mbxOwns src then s.mbxStart (bits val 0 8) (bits val 16 10) else s.bump WARDEN_MBX_DENY

/-- The lower register of a writable pair at an address. -/
def State.lowerPair (s : State) (addr : Nat) : Bool :=
  (s.hits addr).any (fun h => decide (h.f.width > 32) && !h.hi && h.f.acc != .ro)

/-- A write of the register at a window offset. The registers whose fields act together have their own rules: the region and
agent tables (R151, R167), INT_ROUTE, EPOCH_CTL (R49), and the mailbox's. An odd port of a CXL pair ignores writes beyond its
header (R84). -/
def State.writeReg (s : State) (src : Src) (addr val : Nat) : State :=
  let s := s.reach addr
  let page := addr / 0x1000
  let off := addr % 0x1000
  if (s.hits addr).isEmpty then s
  else if 0x10 ≤ page && page < 0x20 && 0x30 ≤ off && s.paired (page - 0x10) then s
  else if s.lowerPair addr then { s with halves := Tab.set s.halves addr val }
  else if 0x200 ≤ page && page < 0x220 then
    (let n := (addr - 0x200000) / 0x20
     if addr % 0x20 = 0 then s.regionWord0 n val else if addr % 0x20 = 4 then s.regionWord1 n val else s)
  else if 0x800 ≤ page && page < 0x804 then s.agentWrite ((addr - 0x800000) / 4) (bits val 21 2) (bits val 0 16)
  else if addr = 0x150 then s.intRoute (bits val 0 1) (bits val 1 1) (bits val 16 12)
  else if addr = 0x2104 && bits val 0 2 = 3 then s.cfgErr pgEPOCH 0 0x104
  else if addr = 0x6120 then s.mbxWrite src val
  else if addr = 0x6124 then s.mbxCmd src val
  else
    let puts := s.putsOf addr val
    let s1 : State := if puts.any (fun p => p.1.hi) then { s with halves := Tab.erase s.halves (addr - 4) } else s
    s1.writeFields src addr puts

/-- A write to the window of a node that has power. -/
def State.write (s : State) (src : Src) (addr val : Nat) : State := if s.tmc.nodeRails then s.writeReg src addr val else s

/-- A write of a given width: one narrower than 32 bits is ignored (R12). -/
def State.writeSized (s : State) (src : Src) (addr : Nat) (size : AccSize) (val : Nat) : State :=
  if size = .word then s.write src addr val else s

/-- REGISTER_WRITE. -/
def execRegisterWrite (src : Src) (addr : WinAddr) (val : Word) (s : State) : Host.Outcome State Fault Refusal :=
  .next (s.writeSized src addr.off.toNat addr.size val.toNat)
/-- PAIR_LOWER_WRITE. -/
def execPairLowerWrite (addr : WinAddr) (val : Word) (s : State) : Host.Outcome State Fault Refusal :=
  .next (s.writeSized .warden addr.off.toNat addr.size val.toNat)
/-- PAIR_UPPER_WRITE. -/
def execPairUpperWrite (addr : WinAddr) (val : Word) (s : State) : Host.Outcome State Fault Refusal :=
  .next (s.writeSized .warden addr.off.toNat addr.size val.toNat)
/-- INT_FORCE. -/
def execIntForce (page : BitVec 12) (val : Word) (s : State) : Host.Outcome State Fault Refusal :=
  .next (s.write .warden (page.toNat * 0x1000 + 0x18) val.toNat)
/-- INT_EN_WRITE. -/
def execIntEnWrite (page : BitVec 12) (val : Word) (s : State) : Host.Outcome State Fault Refusal :=
  .next (s.write .warden (page.toNat * 0x1000 + 0x14) val.toNat)
/-- INT_ROUTE_WRITE. -/
def execIntRouteWrite (val : Word) (s : State) : Host.Outcome State Fault Refusal := .next (s.write .warden 0x150 val.toNat)
/-- BLK_LOCK_SET. -/
def execBlkLockSet (page : BitVec 12) (s : State) : Host.Outcome State Fault Refusal :=
  .next (s.write .warden (page.toNat * 0x1000 + 0x2C) 1)

/-! ### Ways into the window -/

/-- An access that a port's right does not allow is counted (R89). -/
def State.mmioDeny (s : State) (p status : Nat) : State := if status = stDenied then s.bump FPORT_MMIO_DENY p else s

/-- MMIO_RD: performed in arrival order and answered with the value (R119). -/
def execMmioRd (port : Fin 16) (m : Msg) (s : State) : Host.Outcome State Fault Refusal :=
  match s.portIn port.val clsSys 0x80 m with
  | none => .next s
  | some (s1, false) => .next s1
  | some (s1, true) =>
    let s2 := s1.count 0 0 0 1
    match s2.sysRight port.val m false with
    | some st => .next ((s2.mmioDeny port.val st).sysAnswer port.val m st 0)
    | none =>
      let (v, s3) := s2.readReg m.syOffset
      .next (s3.sysAnswer port.val m stOK v)

/-- MMIO_WR: performed or staged, then answered (R119). -/
def execMmioWr (port : Fin 16) (m : Msg) (s : State) : Host.Outcome State Fault Refusal :=
  match s.portIn port.val clsSys 0x81 m with
  | none => .next s
  | some (s1, false) => .next s1
  | some (s1, true) =>
    let s2 := s1.count 0 0 0 1
    match s2.sysRight port.val m true with
    | some st => .next ((s2.mmioDeny port.val st).sysAnswer port.val m st 0)
    | none => .next ((s2.writeReg (.agent (BitVec.ofNat 12 m.sySrc)) m.syOffset m.syWdata).sysAnswer port.val m stOK 0)

/-- One aligned 32-bit access of a CXL.io request with its byte enables: narrower than 32 bits, a read returns zero and a write is
ignored (R12). -/
def State.ioAccess (s : State) (p : Nat) (write : Bool) (addr : Nat) (dw : BitVec 4 × Word) : State :=
  if write then
    (if dw.1 = 15 then s.writeReg (.agent (BitVec.ofNat 12 (s.rd FPORT_CXL_AID p))) addr dw.2.toNat else s)
  else if dw.1 = 15 then
    let (v, s1) := s.readReg addr
    s1.out (.cxlIo p 0 (BitVec.ofNat 32 v))
  else s.out (.cxlIo p 0 0)

/-- Whether the device takes an HDM decoder's interleave: 1, 2, 4 or 8 ways at a granularity of 256 B to 16 KiB (Table 3-7). -/
def hdmTakes (ways gran : Nat) : Bool := [1, 2, 4, 8].contains ways && [256, 512, 1024, 2048, 4096, 8192, 16384].contains gran

/-- CXL_IO_ACCESS: an access to BAR0 at an offset, as 32-bit words with their byte enables (R88, R89); a wider one is decoded as
aligned 32-bit accesses, in rising order. A denied read completes with Completer Abort, a denied write is dropped. An HDM decoder is
committed with a number of ways and a granularity in bytes; with other values than Table 3-7 lists it shows error-not-committed. It
reads as its state and these two (assumption 14). -/
def execCxlIoAccess (port : Fin 16) (write : Bool) (addr : CxlIo) (dws : List (BitVec 4 × Word)) (s : State) : Host.Outcome State Fault Refusal :=
  let p := port.val
  let c := s.port p
  if !(c.isCxl && c.isUp && s.tmc.nodeRails) then .next s
  else match addr with
  | .bar0 off =>
    let r := s.rd FPORT_MMIO_ACCESS p
    if r = 0 || (write && r ≠ 2) then
      (let s1 := s.bump FPORT_MMIO_DENY p
       .next (if write then s1 else s1.out (.cxlIo p 4 0)))
    else .next ((dws.foldl (fun (a : State × Nat) dw => (a.1.ioAccess p write a.2 dw, (a.2 + 4) % 2 ^ 24)) (s, off.toNat)).1)
  | .hdm n =>
    if write then
      let word := fun (i : Nat) => ((dws[i]?).getD (0, 0)).2.toNat
      .next (s.setPort p { c with hdm := setNth c.hdm n.val (if hdmTakes (word 0) (word 1) then 1 else 2, word 0, word 1) })
    else
      let d := (c.hdm[n.val]?).getD (0, 0, 0)
      .next ([d.1, d.2.1, d.2.2].foldl (fun s v => s.out (.cxlIo p 0 (BitVec.ofNat 32 v))) s)

/-- INTERNAL_ERROR: a parity or state error inside a block, which may stop it (R35). -/
def execInternalError (page : BitVec 12) (stops : Bool) (s : State) : Host.Outcome State Fault Refusal :=
  if s.present page.toNat && s.tmc.nodeRails then .next (s.internalErr page.toNat stops) else .next s

end Sys2Proof.Machine
end

