-- ==== Sys2Proof/Machine/Zm3.lean ====
section
/-! DEFINITION. The ZM-3 as far as the manual describes what it does with the node's frames: jobs (R406, R407), the
certified apportionment (R410 to R414), Proofs, their chain and the journal (R415 to R419), and the verdict on a Proof (R421). -/
namespace Sys2Proof.Machine

open Reg

/-! ### Identity (Table 16-5) -/

/-- LR_VERSION: every firmware of this model's ZM-3 is an LR 1.3, whose reference energies the manual gives (R410; assumption 43). -/
def Zm3.version (z : Zm3) : Nat := 0x01030000 + bits (Config.zm3Image z.fw).toNat 0 16

/-- LR_CHECKSUM. -/
def Zm3.checksum (z : Zm3) : Nat := bits (Config.zm3Image z.fw).toNat 16 64

/-- CERT_ID. -/
def zm3Cert : Nat := bits Config.zm3Ident.toNat 64 32

/-- The body of IDENT. -/
def State.identBody (s : State) : List Nat :=
  let b := Config.zm3Ident.toNat
  body 8 (bits b 0 64) ++ body 4 s.zm3.version ++ body 8 s.zm3.checksum ++ body 4 zm3Cert ++ body 4 s.zm3.sealEvents ++
    body 4 (bits b 96 32) ++ toNats (edPublic Config.zm3Seed)

/-- What the front display shows while its button is pressed: LR_VERSION, LR_CHECKSUM, CERT_ID and SEAL_EVENTS (R403). -/
def Zm3.display (z : Zm3) : List Nat := [z.version, z.checksum, zm3Cert, z.sealEvents]

/-- A frame whose fields break the chapter: discarded, and recorded in the ZM-3's own log by its type (R384). -/
def State.zm3Discard (s : State) (ty : Nat) : State := { s with zm3 := { s.zm3 with log := s.zm3.log ++ [ty] } }

/-- An ALARM from the ZM-3: its code, channel and interval (Table 16-7). -/
def State.zm3Alarm (s : State) (code chan n : Nat) : State := s.out (.zm3 0x45 ([code, chan] ++ body 4 n))

/-- ZM3_HELLO: IDENT, then every Proof that no PROOF_ACK has covered (R393). -/
def execZm3Hello (nid : BitVec 16) (nodeSerial : BitVec 64) (s : State) : Host.Outcome State Fault Refusal :=
  if nid.toNat ≥ 512 then .next (s.zm3Discard fyHello)
  else
    let z := { s.zm3 with nid := nid.toNat, nodeSerial := nodeSerial.toNat, named := some [] }
    let s1 := ({ s with zm3 := z }).out (.zm3 0x41 s.identBody)
    .next ((z.journal.filter (fun p => !p.2.2)).foldl (fun (s : State) p => s.out (.zm3 0x44 (body 8 p.1 ++ toNats p.2.1))) s1)

/-! ### Jobs -/

/-- The 64-bit number of an interval from the low 32 bits that frames carry (Table 17-5). -/
def Zm3.wide (z : Zm3) (n : Nat) : Nat := ((z.count : Int) + sgn 32 (unsgn 32 ((n : Int) - z.count))).toNat

/-- ZM3_JOB_OPEN (R406). -/
def execZm3JobOpen (tid : BitVec 8) (job : BitVec 20) (interval : Word) (s : State) : Host.Outcome State Fault Refusal :=
  let z := s.zm3
  let k := (tid.toNat, job.toNat)
  let j : ZJob := { tid := k.1, job := k.2, first := z.wide interval.toNat, acc := List.replicate 6 0, odd := [] }
  let jobs := if z.jobs.any (fun x => x.tid == k.1 && x.job == k.2) then z.jobs else z.jobs ++ [j]
  if job = 0 then .next (s.zm3Discard fyJobOpen)
  else .next { s with zm3 := { z with jobs := jobs, named := z.named.map (fun l => l ++ [k]) } }

/-- At the first Tally after an IDENT, the jobs that no JOB_OPEN has named since are abandoned (R407). -/
def Zm3.abandon (z : Zm3) : Zm3 :=
  match z.named with
  | none => z
  | some l =>
    let gone := z.jobs.filter (fun j => !l.contains (j.tid, j.job))
    { z with named := none, jobs := z.jobs.filter (fun j => l.contains (j.tid, j.job)), abandoned := z.abandoned ++ gone.map (fun j => (j.tid, j.job)) }

/-! ### Apportionment (R411 to R414) -/

/-- The pools of Table 17-1. -/
inductive Pool where
  | f | c | d
deriving DecidableEq, Repr

/-- The reference energies of Table 17-2, in pJ. -/
def refEnergy (cls : Nat) : Pool → Nat
  | .f => if cls = 0 then 160 else 0
  | .c => [40, 20, 30, 30, 5, 5, 5, 10, 15, 25, 120][cls]?.getD 0
  | .d => [0, 1200, 2000, 2200, 400, 1500, 3600, 60000, 0, 0, 0][cls]?.getD 0

/-- The measured energy of a pool, in nJ. -/
def poolEnergy (e : List Nat) : Pool → Nat
  | .f => e[3]?.getD 0
  | .c => e[1]?.getD 0 + e[2]?.getD 0 + e[4]?.getD 0
  | .d => ((e.drop 5).take 6).sum

/-- The energy of pool B: TRAY_AUX and the conversion loss, which is 0 when channels 1 to 11 exceed channel 0. -/
def baseEnergy (e : List Nat) : Nat := e[11]?.getD 0 + (e[0]?.getD 0 - ((e.drop 1).take 11).sum)

/-- The energy class of a count class (Table 17-4). -/
def energyClass (cls : Nat) : Nat := [0, 1, 1, 1, 1, 2, 2, 1, 2, 3, 4][cls]?.getD 5

/-- The count of a class in a record. -/
def recCount (r : TallyRec) (cls : Nat) : Nat := (r.counts[cls]?.getD 0).toNat

/-- The energy that the records' counts promise in a pool, in pJ. -/
def poolRef (recs : List TallyRec) (p : Pool) : Nat :=
  (recs.map (fun r => ((List.range 11).map (fun c => recCount r c * refEnergy c p)).sum)).sum

/-- d[r][c][p] of R411, in pJ. -/
def dynShare (recs : List TallyRec) (e : List Nat) (r : TallyRec) (c : Nat) (p : Pool) : Nat :=
  let ref := poolRef recs p
  let m := 1000 * poolEnergy e p
  if ref ≤ m then recCount r c * refEnergy c p else recCount r c * refEnergy c p * m / ref

/-- dyn[r] of R411, in pJ. -/
def dynTotal (recs : List TallyRec) (e : List Nat) (r : TallyRec) : Nat :=
  ((List.range 11).map (fun c => dynShare recs e r c .f + dynShare recs e r c .c + dynShare recs e r c .d)).sum

/-- The base of an interval, in pJ. -/
def basePj (recs : List TallyRec) (e : List Nat) : Nat :=
  (1000 * poolEnergy e .f - poolRef recs .f) + (1000 * poolEnergy e .c - poolRef recs .c) +
    (1000 * poolEnergy e .d - poolRef recs .d) + 1000 * baseEnergy e

/-- What a record receives in each energy class, in nJ: every share truncated (R411). -/
def recordShare (recs : List TallyRec) (e : List Nat) (r : TallyRec) : List Nat :=
  let total := (recs.map (dynTotal recs e)).sum
  let dyn := (List.range 5).map (fun k =>
    ((List.range 11).map (fun c => if energyClass c = k
      then dynShare recs e r c .f / 1000 + dynShare recs e r c .c / 1000 + dynShare recs e r c .d / 1000 else 0)).sum)
  dyn ++ [if total > 0 then basePj recs e * dynTotal recs e r / total / 1000 else 0]

/-- One record's energy given to its job, or to the JOB 0 total of its tenant (R406). -/
def Zm3.give (z : Zm3) (r : TallyRec) (share : List Nat) : Zm3 :=
  let mine := fun (j : ZJob) => j.tid == r.tid.toNat && j.job == r.job.toNat
  if z.jobs.any mine then { z with jobs := updFirst mine (fun j => { j with acc := addCounts j.acc share }) z.jobs }
  else { z with totals := Tab.set z.totals r.tid.toNat (Tab.get z.totals r.tid.toNat 0 + share.sum) }

/-- ZM3_TALLY_END: the interval's condition decides what is apportioned (Table 17-3), and open jobs note it when it is not
metered. -/
def Zm3.tallyEnd (z0 : Zm3) (n : Nat) (recs0 : List TallyRec) (e : List Nat) (causes : Nat) (metered : Bool) : Zm3 :=
  let z := z0.abandon
  let at' := z.wide n
  let recs := if bit causes 3 then [] else recs0
  let z1 := if metered then
      let shares := recs.map (fun r => (r, recordShare recs e r))
      let given := (shares.map (fun p => p.2.sum)).sum
      let z' := shares.foldl (fun (z : Zm3) p => z.give p.1 p.2) z
      { z' with unassigned := z'.unassigned + ((e[0]?.getD 0 : Nat) : Int) - (given : Nat) }
    else z
  let odd := if !metered then [(at', true, 0)] else if causes ≠ 0 then [(at', false, causes)] else []
  { z1 with
    count := max z1.count at',
    jobs := z1.jobs.map (fun (j : ZJob) => if j.first ≤ at' then { j with odd := j.odd ++ odd } else j) }

/-- The implausible intervals of the second that ends with an interval (R402). -/
def Zm3.implausible (z : Zm3) (n causes : Nat) : List Nat := z.suspect.filter (fun i => decide (n < i + 1000)) ++ (if bit causes 1 then [n] else [])

/-- The full scale of each channel, in W (Table 16-1). -/
def fullScale (ch : Nat) : Nat := [1500, 400, 60, 100, 20, 80, 80, 80, 80, 80, 80, 200][ch]?.getD 0

/-- The channel that an OVERRANGE names: the first whose energy exceeds its full scale over the interval, 0xFF where none does (assumption
126). -/
def overChannel (e : List Nat) : Nat := ((List.range 12).find? (fun c => decide ((e)[c]?.getD 0 > 1000000 * fullScale c))).getD 0xFF

/-- The ALARMs that an interval calls for: OVERRANGE, OVERRANGE_LOW below 1 W on channel 0 with the cover closed, and TALLY_SUSPECT at more
than 100 implausible intervals within 1 s (R402, Table 16-7). -/
def State.intervalAlarms (s : State) (n : Nat) (e : List Nat) (causes before after : Nat) : State :=
  let s1 := if bit causes 4 then s.zm3Alarm 0x04 (overChannel e) n else s
  let s2 := if (e)[0]?.getD 0 < 1000000 && bit s.tmc.present.toNat 17 then s1.zm3Alarm 0x05 0 n else s1
  if before ≤ 100 && after > 100 then s2.zm3Alarm 0x06 0xFF n else s2

/-- ZM3_TALLY_END: the interval's measured channel energies apportioned over its records (R411). -/
def execZm3TallyEnd (interval : Word) (recs : List TallyRec) (energies : List (BitVec 64)) (causes : BitVec 5) (metered : Bool)
    (s : State) : Host.Outcome State Fault Refusal :=
  let z := s.zm3
  let e := energies.map (·.toNat)
  let sus := z.implausible (z.wide interval.toNat) causes.toNat
  let z1 := z.tallyEnd interval.toNat recs e causes.toNat metered
  .next (({ s with zm3 := { z1 with suspect := sus } }).intervalAlarms interval.toNat e causes.toNat z.suspect.length sus.length)

/-! ### Proofs -/

/-- What a Proof states beside its chain and signature (Table 17-5). -/
structure ProofBody where
  flags  : Nat
  tid    : Nat
  causes : Nat
  pseq   : Nat
  job    : Nat
  first  : Nat
  last   : Nat
  nDeg   : Nat
  nUnm   : Nat
  energy : List Nat
  unmet  : List Nat
deriving DecidableEq, Repr

/-- A job's Proof at its close: the intervals from the first to the last that were not metered, the accumulators in µJ and the
unmetered counts of JOB_CLOSE (R415, R422). `ends` are the three flags of JOB_CLOSE. -/
def proofBody (j : ZJob) (pseq last ends : Nat) (unmet : List Nat) : ProofBody :=
  let odd := j.odd.filter (fun o => j.first ≤ o.1 && o.1 ≤ last)
  let deg := odd.filter (fun o => !o.2.1)
  let unm := odd.filter (fun o => o.2.1)
  { flags := packBits [(0, 3, ends), (3, 1, b2n !deg.isEmpty), (4, 1, b2n (!unm.isEmpty || unmet.any (· != 0)))],
    tid := j.tid, causes := deg.foldl (fun a o => a ||| o.2.2) 0, pseq := pseq, job := j.job, first := j.first, last := last,
    nDeg := deg.length, nUnm := unm.length, energy := j.acc.map (· / 1000), unmet := unmet.map (fun x => min x 0xFFFFFFFF) }

/-- Bytes 0 to 191 of a Proof (Table 17-5). -/
def Zm3.signed (z : Zm3) (b : ProofBody) (prev : List Byte) : List Byte :=
  [0x51, 0x50, 0x52, 0x46, 0x01] ++ leBytes 1 b.flags ++ leBytes 1 b.tid ++ leBytes 1 b.causes ++ leBytes 8 b.pseq ++
    leBytes 8 (bits Config.zm3Ident.toNat 0 64) ++ leBytes 8 z.nodeSerial ++ leBytes 4 (packBits [(0, 20, b.job), (20, 9, z.nid)]) ++
    leBytes 4 z.version ++ leBytes 8 b.first ++ leBytes 8 b.last ++ leBytes 4 b.nDeg ++ leBytes 4 b.nUnm ++
    (List.range 6).flatMap (fun i => leBytes 8 (b.energy[i]?.getD 0)) ++ (List.range 11).flatMap (fun i => leBytes 4 (b.unmet[i]?.getD 0)) ++
    leBytes 4 0 ++ prev

/-- The digest of the Proof before (R418). -/
def Zm3.prev (z : Zm3) : List Byte :=
  match z.journal.find? (fun p => p.1 == z.pseq) with
  | some p => sha256 p.2.1
  | none => List.replicate 32 0

/-- Proofs that the journal keeps whether acknowledged or not (R419). -/
def journalKeep : Nat := 1048576

/-- A Proof issued: it takes the next PSEQ, is chained, signed, kept and sent (R416 to R419); the ALARM JOURNAL is raised at 90 % of
the journal. -/
def State.issueProof (s : State) (j : ZJob) (last ends : Nat) (unmet : List Nat) : State :=
  let z := s.zm3
  let n := z.pseq + 1
  let m := z.signed (proofBody j n last ends unmet) z.prev
  let rec256 := m ++ edSign Config.zm3Seed m
  let z' := { z with
    pseq := n, audit := z.audit + 1,
    journal := (z.journal.filter (fun p => !p.2.2 || decide (n < p.1 + journalKeep))) ++ [(n, rec256, false)],
    jobs := z.jobs.filter (fun x => !(x.tid == j.tid && x.job == j.job)) }
  let s1 := ({ s with zm3 := z' }).out (.zm3 0x44 (body 8 n ++ toNats rec256))
  if z'.audit = 943718 then s1.out (.zm3 0x45 ([0x08, 0xFF] ++ body 4 z'.count)) else s1

/-- ZM3_JOB_CLOSE: the Proof of an open job (R409). A close of a job that is not open is discarded. -/
def execZm3JobClose (tid : BitVec 8) (job : BitVec 20) (interval : Word) (flags : BitVec 3) (unmet : List (BitVec 64)) (s : State) :
    Host.Outcome State Fault Refusal :=
  match s.zm3.jobs.find? (fun j => j.tid == tid.toNat && j.job == job.toNat) with
  | some j => .next (s.issueProof j (s.zm3.wide interval.toNat) flags.toNat (unmet.map (·.toNat)))
  | none => .next (s.zm3Discard fyJobClose)

/-- ZM3_PROOF_ACK: the Proofs up to the named one are no longer resent (R419). One that names no Proof yet issued is discarded. -/
def execZm3ProofAck (seq : BitVec 64) (s : State) : Host.Outcome State Fault Refusal :=
  if seq.toNat > s.zm3.pseq then .next (s.zm3Discard fyProofAck)
  else .next { s with zm3 := { s.zm3 with journal := s.zm3.journal.map (fun p => if p.1 ≤ seq.toNat then (p.1, p.2.1, true) else p) } }

/-! ### Verification (R421) -/

/-- The verdicts of Table 17-6. -/
inductive Verdict where
  | valid | validDegraded | validPartial | badFormat | badKey | badSig | chainBreak | chainGap (missing : List Nat)
deriving DecidableEq, Repr

/-- Bytes of a record as a number. -/
def field (r : List Byte) (lo n : Nat) : Nat := leNat ((r.drop lo).take n)

/-- The PSEQ missing from a set of Proofs, from the lowest to the highest (R421). -/
def missing (r : List Byte) (set : List Nat) : List Nat :=
  let own := field r 8 8
  let lo := set.foldl min own
  let hi := set.foldl max own
  ((List.range (hi + 1 - lo)).map (lo + ·)).filter (fun n => !(set.contains n || n == own))

/-- The verdict on one Proof: the supplied key and the trusted fingerprint, the digests that the verifier holds of the Proof before and
of this one, and the sequence numbers of the set it belongs to. -/
def verdict (r pub trusted : List Byte) (before own : Option (List Byte)) (set : List Nat) : Verdict :=
  let first := field r 40 8
  let last := field r 48 8
  if r.length ≠ 256 || r.take 5 ≠ [0x51, 0x50, 0x52, 0x46, 0x01] || field r 5 1 ≥ 32 || field r 7 1 ≥ 32 || field r 32 4 ≥ 2 ^ 29 || field r 156 4 ≠ 0
  then .badFormat
  else if sha256 pub ≠ trusted then .badKey
  else if !edVerify pub (r.take 192) (r.drop 192) then .badSig
  else if first > last || field r 56 4 + field r 60 4 > last - first + 1 then .badFormat
  else if (before.map (fun d => d != (r.drop 160).take 32)).getD false || (own.map (fun d => d != sha256 r)).getD false then .chainBreak
  else if missing r set ≠ [] then .chainGap (missing r set)
  else if bit (field r 5 1) 2 || bit (field r 5 1) 4 then .validPartial
  else if bit (field r 5 1) 3 then .validDegraded
  else .valid

end Sys2Proof.Machine
end

