-- ==== Sys2Proof/Machine/Dispatch.lean ====
section
/-! DEFINITION. The meaning of each command: one arm for each constructor, each a direct call. -/
namespace Sys2Proof.Machine

/-- The effect of a command on everything but the queue. -/
def exec (i : Instr) (s : State) : Host.Outcome State Fault Refusal :=
  match i with
  | .registerWrite src addr val => Sys2Proof.Machine.execRegisterWrite src addr val s
  | .pairLowerRead addr => Sys2Proof.Machine.execPairLowerRead addr s
  | .pairLowerWrite addr val => Sys2Proof.Machine.execPairLowerWrite addr val s
  | .pairUpperWrite addr val => Sys2Proof.Machine.execPairUpperWrite addr val s
  | .rcRead addr => Sys2Proof.Machine.execRcRead addr s
  | .wmkCrossedRead page group => Sys2Proof.Machine.execWmkCrossedRead page group s
  | .wmkExtremeRead page group => Sys2Proof.Machine.execWmkExtremeRead page group s
  | .intForce page val => Sys2Proof.Machine.execIntForce page val s
  | .intEnWrite page val => Sys2Proof.Machine.execIntEnWrite page val s
  | .intRouteWrite val => Sys2Proof.Machine.execIntRouteWrite val s
  | .blkLockSet page => Sys2Proof.Machine.execBlkLockSet page s
  | .commit => Sys2Proof.Machine.execCommit s
  | .discard => Sys2Proof.Machine.execDiscard s
  | .commitDone => Sys2Proof.Machine.execCommitDone s
  | .drainSlow => Sys2Proof.Machine.execDrainSlow s
  | .flitReceive port flit => Sys2Proof.Machine.execFlitReceive port flit s
  | .nakRepeat port => Sys2Proof.Machine.execNakRepeat port s
  | .ackTimer port => Sys2Proof.Machine.execAckTimer port s
  | .creditReturnTimer port => Sys2Proof.Machine.execCreditReturnTimer port s
  | .tagGroupClose port => Sys2Proof.Machine.execTagGroupClose port s
  | .params port p => Sys2Proof.Machine.execParams port p s
  | .creditInit port c => Sys2Proof.Machine.execCreditInit port c s
  | .credit port c => Sys2Proof.Machine.execCredit port c s
  | .keySwitch port set => Sys2Proof.Machine.execKeySwitch port set s
  | .recover port => Sys2Proof.Machine.execRecover port s
  | .down port reason => Sys2Proof.Machine.execDown port reason s
  | .retrain port => Sys2Proof.Machine.execRetrain port s
  | .keySwitchWrite port => Sys2Proof.Machine.execKeySwitchWrite port s
  | .enableWrite port en => Sys2Proof.Machine.execEnableWrite port en s
  | .lossOfSignal port => Sys2Proof.Machine.execLossOfSignal port s
  | .trainingStepDone port lanes => Sys2Proof.Machine.execTrainingStepDone port lanes s
  | .trainAttemptTimeout port => Sys2Proof.Machine.execTrainAttemptTimeout port s
  | .linkTimeout port => Sys2Proof.Machine.execLinkTimeout port s
  | .moduleChange port m => Sys2Proof.Machine.execModuleChange port m s
  | .cxlMemRequest port r => Sys2Proof.Machine.execCxlMemRequest port r s
  | .cxlBirsp port la => Sys2Proof.Machine.execCxlBirsp port la s
  | .cxlLinkDown fall => Sys2Proof.Machine.execCxlLinkDown fall s
  | .cxlIoAccess port write addr dws => Sys2Proof.Machine.execCxlIoAccess port write addr dws s
  | .rdS port m => Sys2Proof.Machine.execRdS port m s
  | .rdOwn port m => Sys2Proof.Machine.execRdOwn port m s
  | .upg port m => Sys2Proof.Machine.execUpg port m s
  | .rdCur port m => Sys2Proof.Machine.execRdCur port m s
  | .wrFull port m => Sys2Proof.Machine.execWrFull port m s
  | .wrPtl port m => Sys2Proof.Machine.execWrPtl port m s
  | .wb port m => Sys2Proof.Machine.execWb port m s
  | .clnEvict port m => Sys2Proof.Machine.execClnEvict port m s
  | .jobOpen port m => Sys2Proof.Machine.execJobOpen port m s
  | .jobClose port m => Sys2Proof.Machine.execJobClose port m s
  | .jobCloseEffect tid job => Sys2Proof.Machine.execJobCloseEffect tid job s
  | .snpAck port m => Sys2Proof.Machine.execSnpAck port m s
  | .snpAckD port m => Sys2Proof.Machine.execSnpAckD port m s
  | .dataRelay port m => Sys2Proof.Machine.execDataRelay port m s
  | .sysRsp port m => Sys2Proof.Machine.execSysRsp port m s
  | .mmioRd port m => Sys2Proof.Machine.execMmioRd port m s
  | .mmioWr port m => Sys2Proof.Machine.execMmioWr port m s
  | .requestAdmit fcStart => Sys2Proof.Machine.execRequestAdmit fcStart s
  | .bucketRefill => Sys2Proof.Machine.execBucketRefill s
  | .loadUpdate => Sys2Proof.Machine.execLoadUpdate s
  | .agentLimitStep => Sys2Proof.Machine.execAgentLimitStep s
  | .resolve rid => Sys2Proof.Machine.execResolve rid s
  | .walkDone rid => Sys2Proof.Machine.execWalkDone rid s
  | .homeOrder la => Sys2Proof.Machine.execHomeOrder la s
  | .snpSlow la => Sys2Proof.Machine.execSnpSlow la s
  | .probeGo => Sys2Proof.Machine.execProbeGo s
  | .agentAdmit aid inc => Sys2Proof.Machine.execAgentAdmit aid inc s
  | .agentNotice aid inc => Sys2Proof.Machine.execAgentNotice aid inc s
  | .agentReadmit aid inc => Sys2Proof.Machine.execAgentReadmit aid inc s
  | .sweepStep => Sys2Proof.Machine.execSweepStep s
  | .sweepEnd => Sys2Proof.Machine.execSweepEnd s
  | .regionWord1Write n val => Sys2Proof.Machine.execRegionWord1Write n val s
  | .regionWord0Write n val => Sys2Proof.Machine.execRegionWord0Write n val s
  | .recallGo => Sys2Proof.Machine.execRecallGo s
  | .recallDone => Sys2Proof.Machine.execRecallDone s
  | .getTpk => Sys2Proof.Machine.execGetTpk s
  | .keyLoad => Sys2Proof.Machine.execKeyLoad s
  | .keyRotate => Sys2Proof.Machine.execKeyRotate s
  | .keyErase => Sys2Proof.Machine.execKeyErase s
  | .slotErased slot => Sys2Proof.Machine.execSlotErased slot s
  | .linkKeyLoad => Sys2Proof.Machine.execLinkKeyLoad s
  | .rekeyIssue => Sys2Proof.Machine.execRekeyIssue s
  | .queueAccept q => Sys2Proof.Machine.execQueueAccept q s
  | .mchCommandIssue q => Sys2Proof.Machine.execMchCommandIssue q s
  | .readDataReturn q b => Sys2Proof.Machine.execReadDataReturn q b s
  | .refreshPlacement ch => Sys2Proof.Machine.execRefreshPlacement ch s
  | .statusPlacement ch => Sys2Proof.Machine.execStatusPlacement ch s
  | .segClearDone ch => Sys2Proof.Machine.execSegClearDone ch s
  | .stackRailsGood => Sys2Proof.Machine.execStackRailsGood s
  | .trainingDone ch idPage failStep => Sys2Proof.Machine.execTrainingDone ch idPage failStep s
  | .retrainPlacement ch => Sys2Proof.Machine.execRetrainPlacement ch s
  | .parityAlert q count => Sys2Proof.Machine.execParityAlert q count s
  | .mchPowerEntry ch => Sys2Proof.Machine.execMchPowerEntry ch s
  | .patrolPlacement => Sys2Proof.Machine.execPatrolPlacement s
  | .scrubRateStep => Sys2Proof.Machine.execScrubRateStep s
  | .sliceBoundary => Sys2Proof.Machine.execSliceBoundary s
  | .ptClear => Sys2Proof.Machine.execPtClear s
  | .btClear => Sys2Proof.Machine.execBtClear s
  | .add form => Sys2Proof.Machine.execAdd form s
  | .rmapCopyPlace => Sys2Proof.Machine.execRmapCopyPlace s
  | .staleFlush => Sys2Proof.Machine.execStaleFlush s
  | .evlogTailWrite val => Sys2Proof.Machine.execEvlogTailWrite val s
  | .rescanGo => Sys2Proof.Machine.execRescanGo s
  | .rescanDone => Sys2Proof.Machine.execRescanDone s
  | .bakeSub port m => Sys2Proof.Machine.execBakeSub port m s
  | .bakeAbort port m => Sys2Proof.Machine.execBakeAbort port m s
  | .planLoad port m => Sys2Proof.Machine.execPlanLoad port m s
  | .planImageReadDone rid => Sys2Proof.Machine.execPlanImageReadDone rid s
  | .planUnload port m => Sys2Proof.Machine.execPlanUnload port m s
  | .planUnloadDone plan => Sys2Proof.Machine.execPlanUnloadDone plan s
  | .bakeOrder bid => Sys2Proof.Machine.execBakeOrder bid s
  | .bakeStart bid rce => Sys2Proof.Machine.execBakeStart bid rce s
  | .refillDone rce ctx => Sys2Proof.Machine.execRefillDone rce ctx s
  | .nop rce ctx => Sys2Proof.Machine.execNop rce ctx s
  | .br rce ctx => Sys2Proof.Machine.execBr rce ctx s
  | .bz rce ctx => Sys2Proof.Machine.execBz rce ctx s
  | .bnz rce ctx => Sys2Proof.Machine.execBnz rce ctx s
  | .bltu rce ctx => Sys2Proof.Machine.execBltu rce ctx s
  | .loop rce ctx => Sys2Proof.Machine.execLoop rce ctx s
  | .call rce ctx => Sys2Proof.Machine.execCall rce ctx s
  | .ret rce ctx => Sys2Proof.Machine.execRet rce ctx s
  | .endOp rce ctx => Sys2Proof.Machine.execEndOp rce ctx s
  | .lci rce ctx => Sys2Proof.Machine.execLci rce ctx s
  | .lcx rce ctx => Sys2Proof.Machine.execLcx rce ctx s
  | .csync rce ctx => Sys2Proof.Machine.execCsync rce ctx s
  | .csw rce ctx => Sys2Proof.Machine.execCsw rce ctx s
  | .cscp rce ctx => Sys2Proof.Machine.execCscp rce ctx s
  | .li rce ctx => Sys2Proof.Machine.execLi rce ctx s
  | .lih rce ctx => Sys2Proof.Machine.execLih rce ctx s
  | .addi rce ctx => Sys2Proof.Machine.execAddi rce ctx s
  | .sub rce ctx => Sys2Proof.Machine.execSub rce ctx s
  | .andOp rce ctx => Sys2Proof.Machine.execAndOp rce ctx s
  | .orOp rce ctx => Sys2Proof.Machine.execOrOp rce ctx s
  | .xorOp rce ctx => Sys2Proof.Machine.execXorOp rce ctx s
  | .shli rce ctx => Sys2Proof.Machine.execShli rce ctx s
  | .shri rce ctx => Sys2Proof.Machine.execShri rce ctx s
  | .movlc rce ctx => Sys2Proof.Machine.execMovlc rce ctx s
  | .grp rce ctx => Sys2Proof.Machine.execGrp rce ctx s
  | .sload rce ctx => Sys2Proof.Machine.execSload rce ctx s
  | .sneg rce ctx => Sys2Proof.Machine.execSneg rce ctx s
  | .stra rce ctx => Sys2Proof.Machine.execStra rce ctx s
  | .gend rce ctx => Sys2Proof.Machine.execGend rce ctx s
  | .gendRelease rce ctx => Sys2Proof.Machine.execGendRelease rce ctx s
  | .lane rce ctx => Sys2Proof.Machine.execLane rce ctx s
  | .laneRelease rce ctx => Sys2Proof.Machine.execLaneRelease rce ctx s
  | .waitl rce ctx => Sys2Proof.Machine.execWaitl rce ctx s
  | .waitg rce ctx => Sys2Proof.Machine.execWaitg rce ctx s
  | .waitRelease rce ctx => Sys2Proof.Machine.execWaitRelease rce ctx s
  | .recordWrite bid => Sys2Proof.Machine.execRecordWrite bid s
  | .statusWordWrite bid => Sys2Proof.Machine.execStatusWordWrite bid s
  | .xinv port m => Sys2Proof.Machine.execXinv port m s
  | .xsync port m => Sys2Proof.Machine.execXsync port m s
  | .xsyncDone => Sys2Proof.Machine.execXsyncDone s
  | .windowBoundary => Sys2Proof.Machine.execWindowBoundary s
  | .hpqTailWrite val => Sys2Proof.Machine.execHpqTailWrite val s
  | .go => Sys2Proof.Machine.execGo s
  | .resume => Sys2Proof.Machine.execResume s
  | .abandon => Sys2Proof.Machine.execAbandon s
  | .release => Sys2Proof.Machine.execRelease s
  | .migrLineTxn mid => Sys2Proof.Machine.execMigrLineTxn mid s
  | .migrStart port m => Sys2Proof.Machine.execMigrStart port m s
  | .migrLine port m => Sys2Proof.Machine.execMigrLine port m s
  | .migrAck port m => Sys2Proof.Machine.execMigrAck port m s
  | .migrDone port m => Sys2Proof.Machine.execMigrDone port m s
  | .migrAckTimer mid => Sys2Proof.Machine.execMigrAckTimer mid s
  | .moveTimeout mid => Sys2Proof.Machine.execMoveTimeout mid s
  | .twLine port m => Sys2Proof.Machine.execTwLine port m s
  | .twDelta port m => Sys2Proof.Machine.execTwDelta port m s
  | .twAck port m => Sys2Proof.Machine.execTwAck port m s
  | .twBake port m => Sys2Proof.Machine.execTwBake port m s
  | .twBakeEnd port m => Sys2Proof.Machine.execTwBakeEnd port m s
  | .twBakeRsp port m => Sys2Proof.Machine.execTwBakeRsp port m s
  | .twRenew port m => Sys2Proof.Machine.execTwRenew port m s
  | .twRenewAck port m => Sys2Proof.Machine.execTwRenewAck port m s
  | .twHandover port m => Sys2Proof.Machine.execTwHandover port m s
  | .twJoin port m => Sys2Proof.Machine.execTwJoin port m s
  | .twSynced port m => Sys2Proof.Machine.execTwSynced port m s
  | .twAckTimer => Sys2Proof.Machine.execTwAckTimer s
  | .renewTimer => Sys2Proof.Machine.execRenewTimer s
  | .fenceDeadline => Sys2Proof.Machine.execFenceDeadline s
  | .takeover => Sys2Proof.Machine.execTakeover s
  | .resyncLine => Sys2Proof.Machine.execResyncLine s
  | .autoJoinTimer => Sys2Proof.Machine.execAutoJoinTimer s
  | .claim => Sys2Proof.Machine.execClaim s
  | .join => Sys2Proof.Machine.execJoin s
  | .solo => Sys2Proof.Machine.execSolo s
  | .leave => Sys2Proof.Machine.execLeave s
  | .meterLinkSync => Sys2Proof.Machine.execMeterLinkSync s
  | .meterLinkLost => Sys2Proof.Machine.execMeterLinkLost s
  | .meterFrameResend => Sys2Proof.Machine.execMeterFrameResend s
  | .meterAckTimer => Sys2Proof.Machine.execMeterAckTimer s
  | .ident h b => Sys2Proof.Machine.execIdent h b s
  | .status h b => Sys2Proof.Machine.execStatus h b s
  | .proof h pseq rec => Sys2Proof.Machine.execProof h pseq rec s
  | .alarm h code chan interval => Sys2Proof.Machine.execAlarm h code chan interval s
  | .intervalMark => Sys2Proof.Machine.execIntervalMark s
  | .intervalLocalClose => Sys2Proof.Machine.execIntervalLocalClose s
  | .proofTailWrite val => Sys2Proof.Machine.execProofTailWrite val s
  | .zm3Presence present => Sys2Proof.Machine.execZm3Presence present s
  | .meterEnroll => Sys2Proof.Machine.execMeterEnroll s
  | .meterForget => Sys2Proof.Machine.execMeterForget s
  | .zm3JobOpen tid job interval => Sys2Proof.Machine.execZm3JobOpen tid job interval s
  | .zm3TallyEnd interval recs energies causes metered => Sys2Proof.Machine.execZm3TallyEnd interval recs energies causes metered s
  | .zm3JobClose tid job interval flags unmet => Sys2Proof.Machine.execZm3JobClose tid job interval flags unmet s
  | .referenceLoss => Sys2Proof.Machine.execReferenceLoss s
  | .pllPark mc => Sys2Proof.Machine.execPllPark mc s
  | .pllFastStartDone mc locked => Sys2Proof.Machine.execPllFastStartDone mc locked s
  | .pllLockLoss mc => Sys2Proof.Machine.execPllLockLoss mc s
  | .blockNapEntry page => Sys2Proof.Machine.execBlockNapEntry page s
  | .blockDozeEntry page => Sys2Proof.Machine.execBlockDozeEntry page s
  | .blockOffEntry page => Sys2Proof.Machine.execBlockOffEntry page s
  | .blockWakeDone page ticks => Sys2Proof.Machine.execBlockWakeDone page ticks s
  | .tjSample readings => Sys2Proof.Machine.execTjSample readings s
  | .tjReport => Sys2Proof.Machine.execTjReport s
  | .thermtrip => Sys2Proof.Machine.execThermtrip s
  | .tmcMirrorUpdate v => Sys2Proof.Machine.execTmcMirrorUpdate v s
  | .tmcLost => Sys2Proof.Machine.execTmcLost s
  | .hsEnable => Sys2Proof.Machine.execHsEnable s
  | .hsFastTrip => Sys2Proof.Machine.execHsFastTrip s
  | .hsTimerTrip => Sys2Proof.Machine.execHsTimerTrip s
  | .hsOvervoltage => Sys2Proof.Machine.execHsOvervoltage s
  | .hsRetry => Sys2Proof.Machine.execHsRetry s
  | .undervoltage => Sys2Proof.Machine.execUndervoltage s
  | .inputReturn => Sys2Proof.Machine.execInputReturn s
  | .shutdownCommit cause => Sys2Proof.Machine.execShutdownCommit cause s
  | .shutdownDrainLimit => Sys2Proof.Machine.execShutdownDrainLimit s
  | .railsOff => Sys2Proof.Machine.execRailsOff s
  | .bankOutputOpen => Sys2Proof.Machine.execBankOutputOpen s
  | .hardCut => Sys2Proof.Machine.execHardCut s
  | .trayRestart => Sys2Proof.Machine.execTrayRestart s
  | .leakDetect sensor => Sys2Proof.Machine.execLeakDetect sensor s
  | .leakDetectorReset sensor service dry => Sys2Proof.Machine.execLeakDetectorReset sensor service dry s
  | .coolingUpdate demand => Sys2Proof.Machine.execCoolingUpdate demand s
  | .pumpFail pumpB => Sys2Proof.Machine.execPumpFail pumpB s
  | .watchdogExpiry => Sys2Proof.Machine.execWatchdogExpiry s
  | .tmcBoot => Sys2Proof.Machine.execTmcBoot s
  | .pinFunctionSwitch pin fn => Sys2Proof.Machine.execPinFunctionSwitch pin fn s
  | .strapSample straps => Sys2Proof.Machine.execStrapSample straps s
  | .presenceDebounce input present => Sys2Proof.Machine.execPresenceDebounce input present s
  | .chassisResetOn pumps => Sys2Proof.Machine.execChassisResetOn pumps s
  | .gracefulShutdown => Sys2Proof.Machine.execGracefulShutdown s
  | .forceOff => Sys2Proof.Machine.execForceOff s
  | .powerCycle => Sys2Proof.Machine.execPowerCycle s
  | .bootSourceOverride copy => Sys2Proof.Machine.execBootSourceOverride copy s
  | .coldReset => Sys2Proof.Machine.execColdReset s
  | .warmResetAssert => Sys2Proof.Machine.execWarmResetAssert s
  | .refReturnReset => Sys2Proof.Machine.execRefReturnReset s
  | .hbStall => Sys2Proof.Machine.execHbStall s
  | .wardenHeartbeat core => Sys2Proof.Machine.execWardenHeartbeat core s
  | .coreLockup core pc sp => Sys2Proof.Machine.execCoreLockup core pc sp s
  | .trialTimeout => Sys2Proof.Machine.execTrialTimeout s
  | .mbxClaim src => Sys2Proof.Machine.execMbxClaim src s
  | .mbxRelease src => Sys2Proof.Machine.execMbxRelease src s
  | .ping => Sys2Proof.Machine.execPing s
  | .getInfo => Sys2Proof.Machine.execGetInfo s
  | .getIdcert => Sys2Proof.Machine.execGetIdcert s
  | .admitKeys => Sys2Proof.Machine.execAdmit s
  | .warmReset => Sys2Proof.Machine.execWarmReset s
  | .blockReset => Sys2Proof.Machine.execBlockReset s
  | .profileWrite => Sys2Proof.Machine.execProfileWrite s
  | .profileRead => Sys2Proof.Machine.execProfileRead s
  | .rmapForget => Sys2Proof.Machine.execRmapForget s
  | .imageWrite => Sys2Proof.Machine.execImageWrite s
  | .imageCheck => Sys2Proof.Machine.execImageCheck s
  | .imagePrefer => Sys2Proof.Machine.execImagePrefer s
  | .imageConfirm => Sys2Proof.Machine.execImageConfirm s
  | .svnAdvance => Sys2Proof.Machine.execSvnAdvance s
  | .standbySupplyLoss => Sys2Proof.Machine.execStandbySupplyLoss s
  | .meterLinkOutOfSync => Sys2Proof.Machine.execMeterLinkOutOfSync s
  | .null h => Sys2Proof.Machine.execNull h s
  | .zm3Hello nid nodeSerial => Sys2Proof.Machine.execZm3Hello nid nodeSerial s
  | .zm3ProofAck seq => Sys2Proof.Machine.execZm3ProofAck seq s
  | .configReady => Sys2Proof.Machine.execConfigReady s
  | .coldLockDone mc => Sys2Proof.Machine.execColdLockDone mc s
  | .bankCapacitanceTest milliFarad => Sys2Proof.Machine.execBankCapacitanceTest milliFarad s
  | .managerReset => Sys2Proof.Machine.execManagerReset s
  | .tmcFirmwareUpdate version => Sys2Proof.Machine.execTmcFirmwareUpdate version s
  | .cxlMailboxCommand port opcode => Sys2Proof.Machine.execCxlMailboxCommand port opcode s
  | .internalError page stops => Sys2Proof.Machine.execInternalError page stops s

end Sys2Proof.Machine
end

