-- ==== Sys2Proof/Machine/Tick.lean ====
section
/-! DEFINITION. One tick of the AO clock: what the passing of time alone does (R423), with nothing commanded. -/
namespace Sys2Proof.Machine

open Reg

/-- The number that stands for every region in the scan of a prepared warm reset (R467). -/
def allRegions : Nat := 4096

/-- The recall sweep of a prepared warm reset: it begins once the admitted requests have completed, and has ended when every set
is read and every recall is done (R467, R494). -/
def State.sweepTick (s : State) : State :=
  if s.warden.prep.isNone then s
  else match s.warden.sweep with
    | 0 =>
      if s.reqs.any (fun r => r.admitted && !r.intern) || s.scan.any (fun c => c.regionRc.isSome) then s
      else
        let c := s.scan.getD Scan.idle
        { s with scan := some { c with regionRc := some (allRegions, dirSets) }, warden := { s.warden with sweep := 1 } }
    | 1 =>
      match s.scan with
      | some c =>
        if c.regionRc = some (allRegions, 0) && !s.reqs.any (fun r => r.op == .recall) then
          { s with scan := { c with regionRc := none }.rest, warden := { s.warden with sweep := 2 } }
        else s
      | none => s
    | _ => s

/-- The drain of a pending commit measured (Table 2-9, R53). -/
def State.drainTick (s : State) : State :=
  if s.commitPending then (s.wr EPOCH_DRAIN_ELAPSED (s.rd EPOCH_DRAIN_ELAPSED + 1)).drainSlow else s

/-- AO ticks of one 1 ms window (Table 2-4's windows; 1.5625 MHz). -/
def windowTicks : Nat := 1563

/-- A switched pin takes its new function one tick after its safe level (R457): the mark of the change falls. -/
def State.pinTick (s : State) : State :=
  if s.tmc.pins.all (fun p => decide (p.2 < 2)) then s
  else { s with tmc := { s.tmc with pins := Tab.mapVal (fun v => v % 2) s.tmc.pins } }

/-- What a tick does in a node that has power: the present fc of SHAPE ends, the drain and the throttled time are measured, the 1 ms
windows close, the stacks' training goes on, TWIN goes on with a handover, and a prepared warm reset with its sweep. -/
def State.nodeTick (s : State) : State :=
  let s1 := { s.closeFc with ao := s.ao + 1 }.drainTick
  let s2 := if s1.shape.throttle then s1.bump SHAPE_THROTTLE_TICKS else s1
  let s3 := if s2.ao % windowTicks = 0 then s2.winClose else s2
  let s4 := if s3.twin.turn = tuHanding then s3.handoverStep else s3
  let s5 := if s4.twin.leased then s4.sample pgTWIN 1 (s4.ao - s4.twin.ackedSent : Nat) else s4
  (channels.foldl (fun (s : State) ch => s.trainTick ch) s5.paramsAgain).sweepTick

/-- A tick: the TMC's clock runs on through every reset of the node. -/
def State.tick (s : State) : State :=
  let s1 : State := { s with tmc := { s.tmc with now := s.tmc.now + 1 } }.pinTick
  if s1.tmc.nodeRails then s1.nodeTick else s1

end Sys2Proof.Machine
end

