-- ==== Sys2Proof/Safety.lean ====
section
/-! DEFINITION. What a safe run of the block is, in the terms that claims use: the invariants that every step keeps, when a block
acts, and the part of the state that reports leave alone. -/
namespace Sys2Proof.Machine

open Reg

/-- Whether a page's block acts: this part has it, the node has power, and the block has not stopped on a fault. -/
def State.acts (s : State) (p : Nat) : Bool := s.present p && !s.stopped p

/-- Everything but what a block reports and counts: stored register fields, what has left the block, the ports' transmitters and
counts, watermarks and their windows, the event log, power states and tallies. -/
def State.body (s : State) : State :=
  { s with
    regs := [], cfgOpen := [], outs := [], ports := [], wmk := [], wins := [], evlog := Evlog.fresh, waking := [], lastUse := [],
    pwr := Pwr.fresh, tally := [] }

/-- What only a few operations of the node may touch: the part's options, its fuses, the waiting commands, the
DRAM, the epochs and the number of the ZM-3's latest Proof. -/
structure Core where
  opts    : Options
  fuses   : Fuses
  pending : List Instr
  dram    : List Host.Cell
  opened  : Nat
  drained : Nat
  commits : Bool
  pseq    : Nat
deriving DecidableEq, Repr

def State.core (s : State) : Core :=
  { opts := s.opts, fuses := s.fuses, pending := s.pending, dram := s.dram, opened := s.openEpoch, drained := s.drainEpoch,
    commits := s.commitPending, pseq := s.zm3.pseq }

/-- Whether a message passes a port: the link is Up in CCF mode, no older message of the class waits (R115), the message is one that the
port may receive with that many data slots (R94), and an agent that it names as its source lies in the port's range (R77). -/
def State.passes (s : State) (p : Nat) (m : Msg) : Bool :=
  (s.port p).isUp && !(s.port p).isCxl && !(s.port p).older m && s.allowed p m m.data.length &&
    (match m.srcAid with
      | some a => s.inRange p a
      | none => true)

/-- Whether an engine is about to execute a word for a Bake in a context: the engine serves that context next, the word stands at
its front with good parity, meets no fault before it executes (R313, R314, R327, R331), and the Bake has not been stopped. -/
def State.executes (s : State) (rce ci w : Nat) (b : Bake) : Bool :=
  let c := s.ctx rce ci
  c.window.head? == some (w, false) && s.bake c.bid == some b && s.chosen rce == some ci && s.rd H_COND (pgRCE rce) != 2 &&
    (s.preFault c ci b (w, false)).isNone && !b.aborted

/-- A message taken from its port, with its slots counted. -/
def State.taken (s : State) (p : Nat) (m : Msg) : State := (s.takeMsg p m).count 0 0 0 (1 + m.data.length)

/-- A table whose keys rise. -/
def Tab.sorted {α : Type} : Tab α → Bool
  | [] => true
  | [_] => true
  | x :: y :: t => decide (x.1 < y.1) && Tab.sorted (y :: t)

/-- The energy that the ZM-3 holds for jobs and in the JOB 0 totals, in nJ. -/
def Zm3.held (z : Zm3) : Nat := (z.jobs.map (fun j => j.acc.sum)).sum + (z.totals.map (fun p => p.2)).sum

/-- A command answers a next state, of which something holds. -/
def Completes (c : Instr) (s : State) (P : State → Prop) : Prop := ∃ t, exec c s = .next t ∧ P t

/-- What a check that passes found, and the reason of one that fails. -/
def okOf {α : Type} : Except Nat α → Option α
  | .ok a => some a
  | .error _ => none
def errorOf {α : Type} : Except Nat α → Option Nat
  | .ok _ => none
  | .error e => some e

/-- The invariant of a run: the DRAM keeps its canonical form. -/
abbrev State.Inv (s : State) : Prop := Memory.wf s.dram = true

/-- The epochs paired (R50 to R52): the open one follows the draining one while a commit is pending and equals it otherwise. -/
def State.epochsPaired (s : State) : Bool :=
  decide (s.openEpoch < 256) && decide (s.drainEpoch < 256) &&
    (if s.commitPending then s.openEpoch == (s.drainEpoch + 1) % 256 else s.openEpoch == s.drainEpoch)

end Sys2Proof.Machine

/-- Whether a command may change the DRAM. -/
def Sys2Proof.Instr.stores : Sys2Proof.Instr → Bool
  | .queueAccept _ | .mchCommandIssue _ | .trainingDone _ _ _ | .configReady | .coldReset => true
  | _ => false
end

