-- ==== Sys2Proof/Certificates/Slice0/Obligations.lean ====
section
/-! DEFINITION. The statements for the provers, from the rules of the manual. A clause says that a command completes: in every
state that meets its premises the command answers a next state, of which the clause says what it holds. -/
open Sys2Proof Sys2Proof.Machine Sys2Proof.Machine.Reg

/-- A read of a counter that reads clear returns its value in its bits and leaves 0; a read of the lower register of a pair returns the
lower half and latches the upper; a read narrower than 32 bits of either returns 0 and changes nothing else; a read of CROSSED and
COUNT of a watermark group returns both and clears both; a read of EXTREME returns it and reloads it with NOW. Address and page
range over the whole window; the block that owns the register may be in any power state. (Block pages and epochs) -/
def Obligations.RegisterReads : Prop :=
  (∀ (s : State) (addr : BitVec 24) (f : Field) (i x : Nat), s.tmc.nodeRails = true → s.hits addr.toNat = [⟨f, i, x, false⟩] →
    f.acc = .rc → f.width ≤ 32 → f.page ≠ 0 → f ≠ PWR_WAKES → Completes (.rcRead ⟨addr, .word⟩) s fun t =>
    t.rdata = (s.reach addr.toNat).view ⟨f, i, x, false⟩ % 2 ^ f.width * 2 ^ f.lo ∧ t.rd f i x = 0) ∧
  (∀ (s : State) (addr : BitVec 24) (size : AccSize), s.tmc.nodeRails = true → size ≠ .word →
    Completes (.rcRead ⟨addr, size⟩) s fun t => t = { s with rdata := 0 }) ∧
  (∀ (s : State) (addr : BitVec 24) (f : Field) (i x : Nat), s.tmc.nodeRails = true → s.hits addr.toNat = [⟨f, i, x, false⟩] →
    f.acc = .ro → 32 < f.width → Completes (.pairLowerRead ⟨addr, .word⟩) s fun t =>
    t.rdata = (s.reach addr.toNat).view ⟨f, i, x, false⟩ % 2 ^ 32 * 2 ^ f.lo ∧
    Tab.get t.latches (addr.toNat + 4) 0 = (s.reach addr.toNat).view ⟨f, i, x, false⟩ / 2 ^ 32) ∧
  (∀ (s : State) (addr : BitVec 24) (size : AccSize), s.tmc.nodeRails = true → size ≠ .word →
    Completes (.pairLowerRead ⟨addr, size⟩) s fun t => t = { s with rdata := 0 }) ∧
  (∀ (s : State) (page : BitVec 12) (group : Fin 16), s.tmc.nodeRails = true → s.present page.toNat = true →
    group.val < (wmkGroups page.toNat).length → Completes (.wmkCrossedRead page group) s fun t =>
    t.rdata = s.rd WMK_CROSSED page.toNat group.val % 2 + s.rd WMK_COUNT_ page.toNat group.val % 2 ^ 16 * 2 ^ 16 ∧
    t.rd WMK_CROSSED page.toNat group.val = 0 ∧ t.rd WMK_COUNT_ page.toNat group.val = 0) ∧
  (∀ (s : State) (page : BitVec 12) (group : Fin 16), s.tmc.nodeRails = true → s.present page.toNat = true →
    group.val < (wmkGroups page.toNat).length → Completes (.wmkExtremeRead page group) s fun t =>
    t.rdata = s.rd WMK_EXTREME page.toNat group.val % 2 ^ 32 ∧
    t.rd WMK_EXTREME page.toNat group.val = s.viewWmk WMK_NOW page.toNat group.val % 2 ^ 32)

/-- A write of an epoch-staged field that no rule relates to another enters its value into the staged set and leaves the open
configuration as it is; a write that would change a locked field leaves it and sets LOCK_VIOL; a write of a reserved encoding of an
epoch-staged field leaves both configurations and sets CFG_ERR; a write of the lower register of a writable pair holds the lower
half and changes no configuration; a write of the upper register of a staged pair stages the held half and the upper half together,
with the bits that must be zero zero; a write narrower than 32 bits changes nothing. But for the last, the clauses leave out the
region and agent tables, whose fields act together by rules of their own, and the FPORT pages. (Block pages and epochs) -/
def Obligations.RegisterWrites : Prop :=
  (∀ (s : State) (src : Src) (addr : BitVec 24) (val : Word) (f : Field) (i x : Nat), s.tmc.nodeRails = true →
    ¬(0x200000 ≤ addr.toNat ∧ addr.toNat < 0x220000) → ¬(0x800000 ≤ addr.toNat ∧ addr.toNat < 0x804000) →
    ¬(0x10000 ≤ addr.toNat ∧ addr.toNat < 0x20000) → s.hits addr.toNat = [⟨f, i, x, false⟩] → f.acc = .rwe → f.width ≤ 32 →
    reservedValue f i x (bits val.toNat f.lo f.width) = false → rules.all (fun r => !r.fields.contains f) = true →
    f ≠ TWIN_PAIR_EN → Completes (.registerWrite src ⟨addr, .word⟩ val) s fun t => t.rdNext f i x = bits val.toNat f.lo f.width ∧
    t.cfgOpen = s.cfgOpen) ∧
  (∀ (s : State) (src : Src) (addr : BitVec 24) (val : Word) (f : Field) (i x : Nat), s.tmc.nodeRails = true →
    ¬(0x200000 ≤ addr.toNat ∧ addr.toNat < 0x220000) → ¬(0x800000 ≤ addr.toNat ∧ addr.toNat < 0x804000) →
    ¬(0x10000 ≤ addr.toNat ∧ addr.toNat < 0x20000) → s.hits addr.toNat = [⟨f, i, x, false⟩] → f.acc = .rwl → f.width ≤ 32 →
    s.rd H_LOCK (ownerPage (addr.toNat / 0x1000)) = 1 → bits val.toNat f.lo f.width ≠ s.rdNext f i x →
    Completes (.registerWrite src ⟨addr, .word⟩ val) s fun t => t.rd H_LOCK_VIOL (ownerPage (addr.toNat / 0x1000)) = 1 ∧
    t.rd f i x = s.rd f i x ∧ t.cfgStaged = s.cfgStaged) ∧
  (∀ (s : State) (src : Src) (addr : BitVec 24) (val : Word) (f : Field) (i x : Nat), s.tmc.nodeRails = true →
    ¬(0x200000 ≤ addr.toNat ∧ addr.toNat < 0x220000) → ¬(0x800000 ≤ addr.toNat ∧ addr.toNat < 0x804000) →
    ¬(0x10000 ≤ addr.toNat ∧ addr.toNat < 0x20000) → s.hits addr.toNat = [⟨f, i, x, false⟩] → f.acc = .rwe → f.width ≤ 32 →
    reservedValue f i x (bits val.toNat f.lo f.width) = true → Completes (.registerWrite src ⟨addr, .word⟩ val) s fun t =>
    t.rd H_CFG_ERR (ownerPage (addr.toNat / 0x1000)) = 1 ∧ t.cfgStaged = s.cfgStaged ∧ t.cfgOpen = s.cfgOpen) ∧
  (∀ (s : State) (addr : BitVec 24) (val : Word) (f : Field) (i x : Nat), s.tmc.nodeRails = true →
    ¬(0x200000 ≤ addr.toNat ∧ addr.toNat < 0x220000) → ¬(0x800000 ≤ addr.toNat ∧ addr.toNat < 0x804000) →
    ¬(0x10000 ≤ addr.toNat ∧ addr.toNat < 0x20000) → s.hits addr.toNat = [⟨f, i, x, false⟩] → f.acc ≠ .ro → 32 < f.width →
    Completes (.pairLowerWrite ⟨addr, .word⟩ val) s fun t => Tab.get? t.halves addr.toNat = some val.toNat ∧
    t.cfgStaged = s.cfgStaged ∧ t.cfgOpen = s.cfgOpen) ∧
  (∀ (s : State) (src : Src) (addr : BitVec 24) (size : AccSize) (val : Word), size ≠ .word →
    Completes (.registerWrite src ⟨addr, size⟩ val) s fun t => t = s) ∧
  (∀ (s : State) (addr : BitVec 24) (size : AccSize) (val : Word), size ≠ .word →
    Completes (.pairLowerWrite ⟨addr, size⟩ val) s fun t => t = s) ∧
  (∀ (s : State) (addr : BitVec 24) (size : AccSize) (val : Word), size ≠ .word →
    Completes (.pairUpperWrite ⟨addr, size⟩ val) s fun t => t = s) ∧
  (∀ (s : State) (addr : BitVec 24) (val low : Word) (f : Field) (i x : Nat), s.tmc.nodeRails = true →
    ¬(0x200000 ≤ addr.toNat ∧ addr.toNat < 0x220000) → ¬(0x800000 ≤ addr.toNat ∧ addr.toNat < 0x804000) →
    ¬(0x10000 ≤ addr.toNat ∧ addr.toNat < 0x20000) → s.hits addr.toNat = [⟨f, i, x, true⟩] → f.acc = .rwe → 32 < f.width →
    reservedValue f i x ((low.toNat + val.toNat * 2 ^ 32) % 2 ^ f.width / 2 ^ zeroBits f * 2 ^ zeroBits f) = false →
    rules.all (fun r => !r.fields.contains f) = true → f ≠ TWIN_PAIR_EN → Tab.get? s.halves (addr.toNat - 4) = some low.toNat →
    Completes (.pairUpperWrite ⟨addr, .word⟩ val) s fun t =>
    t.rdNext f i x = (low.toNat + val.toNat * 2 ^ 32) % 2 ^ f.width / 2 ^ zeroBits f * 2 ^ zeroBits f ∧ t.cfgOpen = s.cfgOpen ∧
    Tab.get? t.halves (addr.toNat - 4) = none)

/-- Writing INT_FORCE of a block that this part has sets the written bits in INT_STAT, its reserved bits 28 to 16 apart (that a bit of
15 to 0 without a cause is set too is the model's choice, assumption 132); writing INT_EN stores it; writing INT_ROUTE stores its
three fields; writing BLK_LOCK sets it, in a stopped block too; an internal error sets INTERNAL and the ERR cause, and one that
stops the block sets its condition to stopped. None of them changes anything but register fields, what the ports hold, counts and
reports. (Block pages and epochs) -/
def Obligations.InterruptRegisters : Prop :=
  (∀ (s : State) (page : BitVec 12) (val : Word), s.tmc.nodeRails = true → s.present page.toNat = true →
    Completes (.intForce page val) s fun t =>
    t.rd H_INT_STAT page.toNat = (s.rd H_INT_STAT page.toNat ||| (val.toNat &&& 0xE000FFFF)) % 2 ^ 32 ∧ t.body = s.body) ∧
  (∀ (s : State) (page : BitVec 12) (val : Word), s.tmc.nodeRails = true → s.present page.toNat = true →
    Completes (.intEnWrite page val) s fun t => t.rd H_INT_EN page.toNat = val.toNat ∧ t.body = s.body) ∧
  (∀ (s : State) (val : Word), s.tmc.nodeRails = true → Completes (.intRouteWrite val) s fun t =>
    t.rd BDIR_TO_WARDEN = bits val.toNat 0 1 ∧ t.rd BDIR_TO_AGENT = bits val.toNat 1 1 ∧ t.rd BDIR_AGENT = bits val.toNat 16 12 ∧
    t.body = s.body) ∧
  (∀ (s : State) (page : BitVec 12), s.tmc.nodeRails = true → s.present page.toNat = true → Completes (.blkLockSet page) s fun t =>
    t.rd H_LOCK page.toNat = 1 ∧ t.body = s.body) ∧
  (∀ (s : State) (page : BitVec 12) (stops : Bool), s.tmc.nodeRails = true → s.present page.toNat = true →
    Completes (.internalError page stops) s fun t => t.rd H_INTERNAL page.toNat = 1 ∧ bit (t.rd H_INT_STAT page.toNat) iERR = true ∧
    ((stops = true → t.rd H_COND page.toNat = 2)) ∧ t.body = s.body)

/-- COMMIT with no commit pending opens the next epoch (modulo 256) with the old one draining; with one pending it answers BUSY in
RESULT and raises COMMIT_BUSY. DISCARD with none pending empties the staged set; with one pending it leaves the set and answers
BUSY. The commit ends once no block holds anything of the draining epoch: the two epochs are then equal and COMMIT_DONE is
raised. DRAIN_SLOW is raised, once for a commit, when the drain has lasted longer than its limit. (Block pages and epochs) -/
def Obligations.EpochCommands : Prop :=
  (∀ (s : State), s.acts pgEPOCH = true → s.commitPending = false → Completes (.commit) s fun t =>
    t.openEpoch = (s.openEpoch + 1) % 256 ∧ t.drainEpoch = s.openEpoch ∧ t.commitPending = true) ∧
  (∀ (s : State), s.acts pgEPOCH = true → s.commitPending = true → Completes (.commit) s fun t => t.rd EPOCH_RESULT = 1 ∧
    bit (t.rd H_INT_STAT pgEPOCH) I_EPOCH_COMMIT_BUSY = true ∧ t.body = s.body) ∧
  (∀ (s : State), s.acts pgEPOCH = true → s.commitPending = false → Completes (.discard) s fun t => t.cfgStaged = [] ∧
    t.rd EPOCH_RESULT = 0 ∧ t.cfgOpen = s.cfgOpen ∧ t.core = s.core) ∧
  (∀ (s : State), s.acts pgEPOCH = true → s.commitPending = true → Completes (.discard) s fun t => t.rd EPOCH_RESULT = 1 ∧
    t.body = s.body) ∧
  (∀ (s : State), s.acts pgEPOCH = true → s.commitPending = true → s.draining = false → Completes (.commitDone) s fun t =>
    t.commitPending = false ∧ t.openEpoch = s.openEpoch ∧ t.drainEpoch = s.openEpoch ∧
    bit (t.rd H_INT_STAT pgEPOCH) I_EPOCH_COMMIT_DONE = true) ∧
  (∀ (s : State), s.acts pgEPOCH = true → s.commitPending = true → s.slowRaised = false →
    s.rd EPOCH_DRAIN_LIMIT < s.rd EPOCH_DRAIN_ELAPSED → Completes (.drainSlow) s fun t => t.slowRaised = true ∧
    bit (t.rd H_INT_STAT pgEPOCH) I_EPOCH_DRAIN_SLOW = true ∧ t.core = s.core)

/-- PARAMS in step 6 that pass the checks lead to step 7, and PARAMS that do not hold the link in step 6 with DOWN_REASON PARAMS;
CREDIT_INIT in step 7 sets the credits and leads to step 8; CREDIT on an Up link without waiting messages adds credit; a peer's
KEY_SWITCH makes a listening receiver use the set it names; a peer's RECOVER, RETRAIN and loss of signal take an Up link to
Recovery; RETRAIN and loss of signal take a training link back to step 2; KEY_SWITCH written on an encrypted Up link with room in
its replay buffer switches the transmitter to its other loaded set and sends one flit, and waits while the buffer is full or the
link is in Recovery; ENABLE written 1 begins training where a module lets it, and ENABLE written 0 takes the port Down with
DISABLED; a peer's DOWN takes a listening link Down and records the peer's reason; a Recovery as long as LINK_TIMEOUT ends Down with
TIMEOUT. (Fabric ports) -/
def Obligations.LinkControl : Prop :=
  (∀ (s : State) (port : Fin 16) (q : ParamsFlit), s.acts (pgFPORT port.val) = true → (s.port port.val).train = .step 6 →
    s.paramsOk port.val q = true → Completes (.params port q) s fun t => (t.port port.val).train = .step 7 ∧
    (t.port port.val).lastParams = some q ∧ (t.port port.val).refused = false ∧ t.rd FPORT_PEER_ROLE port.val = q.role.toNat) ∧
  (∀ (s : State) (port : Fin 16) (q : ParamsFlit), s.acts (pgFPORT port.val) = true → (s.port port.val).train = .step 6 →
    s.paramsOk port.val q = false → Completes (.params port q) s fun t => (t.port port.val).train = .step 6 ∧
    (t.port port.val).refused = true ∧ t.rd FPORT_DOWN_REASON port.val = drParams) ∧
  (∀ (s : State) (port : Fin 16) (c : Credits), s.acts (pgFPORT port.val) = true → (s.port port.val).train = .step 7 →
    Completes (.creditInit port c) s fun t => (t.port port.val).train = .step 8 ∧
    (t.port port.val).credits = [c.req.toNat, c.snp.toNat, c.rsp.toNat, c.sys.toNat] ∧ (t.port port.val).txSeq = 1 ∧
    t.regs = s.regs) ∧
  (∀ (s : State) (port : Fin 16) (c : Credits) (a b d e : Nat), s.acts (pgFPORT port.val) = true → (s.port port.val).isUp = true →
    (s.port port.val).txq = [] → (s.port port.val).keyDue = false → (s.port port.val).credits = [a, b, d, e] →
    Completes (.credit port c) s fun t =>
    (t.port port.val).credits = [a + c.req.toNat, b + c.snp.toNat, d + c.rsp.toNat, e + c.sys.toNat] ∧ t.body = s.body ∧
    t.regs = s.regs) ∧
  (∀ (s : State) (port : Fin 16) (set : Bool), s.acts (pgFPORT port.val) = true → (s.port port.val).listens = true →
    Completes (.keySwitch port set) s fun t => (t.port port.val).rxCrypt.active = true ∧ (t.port port.val).rxCrypt.sel = set ∧
    (t.port port.val).rxCrypt.group = [] ∧ (t.port port.val).train = (s.port port.val).train ∧ t.body = s.body ∧ t.regs = s.regs) ∧
  (∀ (s : State) (port : Fin 16), s.acts (pgFPORT port.val) = true → (s.port port.val).isUp = true →
    Completes (.recover port) s fun t => (t.port port.val).train = .recovery 4 ∧ (t.port port.val).recoverAt = s.ao) ∧
  (∀ (s : State) (port : Fin 16), s.acts (pgFPORT port.val) = true → (s.port port.val).isUp = true → s.paired port.val = false →
    Completes (.retrain port) s fun t => (t.port port.val).train = .recovery 4 ∧ (t.port port.val).recoverAt = s.ao) ∧
  (∀ (s : State) (port : Fin 16) (n : Nat), s.acts (pgFPORT port.val) = true → (s.port port.val).train = .step n →
    s.paired port.val = false → s.rd FPORT_MODE port.val = (s.port port.val).mode → (s.port port.val).mode ≠ 2 →
    Completes (.retrain port) s fun t => (t.port port.val).train = .step 2 ∧ (t.port port.val).attempts = 0 ∧
    t.regs = (s.wr FPORT_WIDTH 0 port.val).regs) ∧
  (∀ (s : State) (port : Fin 16), s.acts (pgFPORT port.val) = true → (s.port port.val).isUp = true →
    Completes (.lossOfSignal port) s fun t => (t.port port.val).train = .recovery 4 ∧ (t.port port.val).recoverAt = s.ao) ∧
  (∀ (s : State) (port : Fin 16) (n : Nat), s.acts (pgFPORT port.val) = true → (s.port port.val).train = .step n →
    s.rd FPORT_MODE port.val = (s.port port.val).mode → (s.port port.val).mode ≠ 2 → Completes (.lossOfSignal port) s fun t =>
    (t.port port.val).train = .step 2 ∧ (t.port port.val).attempts = (s.port port.val).attempts ∧ t.rd FPORT_WIDTH port.val = 0) ∧
  (∀ (s : State) (port : Fin 16), s.acts (pgFPORT port.val) = true → (s.port port.val).isUp = true →
    (s.port port.val).txCrypt.active = true → (s.port port.val).txCrypt.key.isSome = true →
    (s.port port.val).txCrypt.loaded (!(s.port port.val).txCrypt.sel) = true → (s.port port.val).replay.length < 512 →
    Completes (.keySwitchWrite port) s fun t => (t.port port.val).txCrypt.sel = !(s.port port.val).txCrypt.sel ∧
    (t.port port.val).txCrypt.active = true ∧ (t.port port.val).txCrypt.group = [] ∧
    (t.port port.val).txSeq = (s.port port.val).txSeq + 1 ∧ (t.port port.val).replay.length = (s.port port.val).replay.length + 1 ∧
    t.body = s.body ∧ t.regs = s.regs) ∧
  (∀ (s : State) (port : Fin 16), s.acts (pgFPORT port.val) = true → (s.port port.val).alive = true →
    (s.port port.val).txCrypt.active = true → (s.port port.val).txCrypt.loaded (!(s.port port.val).txCrypt.sel) = true →
    ((s.port port.val).isUp = false ∨ 512 ≤ (s.port port.val).replay.length) → Completes (.keySwitchWrite port) s fun t =>
    t.port port.val = { s.port port.val with keyDue := true } ∧ t.outs = s.outs ∧ t.body = s.body ∧ t.regs = s.regs) ∧
  (∀ (s : State) (port : Fin 16), s.acts (pgFPORT port.val) = true → (s.port port.val).train = .down →
    (s.port port.val).module = none → s.paired port.val = false → s.rd FPORT_ENABLE port.val = 0 →
    Completes (.enableWrite port true) s fun t => t.rd FPORT_ENABLE port.val = 1 ∧ (t.port port.val).train = .down ∧
    t.body = s.body) ∧
  (∀ (s : State) (port : Fin 16) (m : Module), s.acts (pgFPORT port.val) = true → (s.port port.val).train = .down →
    (s.port port.val).module = some m → s.moduleHold port.val m = none → s.paired port.val = false →
    s.rd FPORT_ENABLE port.val = 0 → s.rd FPORT_MODE port.val = (s.port port.val).mode → (s.port port.val).mode ≠ 2 →
    Completes (.enableWrite port true) s fun t => t.rd FPORT_ENABLE port.val = 1 ∧ (t.port port.val).train = .step 2 ∧
    t.body = s.body) ∧
  (∀ (s : State) (port : Fin 16), s.acts (pgFPORT port.val) = true → (s.port port.val).alive = false → s.paired port.val = false →
    s.rd FPORT_ENABLE port.val = 1 → Completes (.enableWrite port false) s fun t => t.rd FPORT_ENABLE port.val = 0 ∧
    t.rd FPORT_DOWN_REASON port.val = drDisabled ∧ (t.port port.val).train = .down ∧ t.body = s.body) ∧
  (∀ (s : State) (port : Fin 16) (reason : BitVec 4), s.acts (pgFPORT port.val) = true → (s.port port.val).listens = true →
    (s.port port.val).isCxl = false → s.rd FPORT_PEER_ROLE port.val = roleNode → (s.port port.val).module = none →
    Completes (.down port reason) s fun t => t.rd FPORT_PEER_DOWN_REASON port.val = reason.toNat ∧
    t.rd FPORT_DOWN_REASON port.val = drPeerDown ∧ (t.port port.val).train = .down) ∧
  (∀ (s : State) (port : Fin 16) (n : Nat), s.acts (pgFPORT port.val) = true → (s.port port.val).isCxl = false →
    (s.port port.val).train = .recovery n → (s.port port.val).recoverAt + s.rd FPORT_LINK_TIMEOUT port.val ≤ s.ao →
    s.rd FPORT_PEER_ROLE port.val = roleNode → (s.port port.val).module = none → Completes (.linkTimeout port) s fun t =>
    t.rd FPORT_DOWN_REASON port.val = drTimeout ∧ (t.port port.val).train = .down)

/-- A completed step leads to the next: signal and bit lock at steps 2 and 3, a usable width at step 4, which WIDTH then shows, FEC lock
at step 5 and, on a CXL link, straight to step 9; at step 8 a link that needs no encryption goes on, one that needs it and holds a key
set begins to encrypt, and one that holds none waits (the model's choice, assumption 120); step 9 ends Up. An attempt that times out
past step 2 begins again, and the third takes the port Down with TRAIN_FAIL. A change of the module is recorded and raised.
(Fabric ports) -/
def Obligations.Training : Prop :=
  (∀ (s : State) (port : Fin 16) (lanes : BitVec 2) (n : Nat), s.acts (pgFPORT port.val) = true →
    (s.port port.val).train = .step n → (n = 2 ∨ n = 3) → Completes (.trainingStepDone port lanes) s fun t =>
    (t.port port.val).train = .step (n + 1) ∧ t.body = s.body ∧ t.regs = s.regs) ∧
  (∀ (s : State) (port : Fin 16) (lanes : BitVec 2), s.acts (pgFPORT port.val) = true → (s.port port.val).train = .step 4 →
    s.widthOk port.val lanes.toNat = true → Completes (.trainingStepDone port lanes) s fun t => (t.port port.val).train = .step 5 ∧
    t.rd FPORT_WIDTH port.val = lanes.toNat ∧ t.body = s.body) ∧
  (∀ (s : State) (port : Fin 16) (lanes : BitVec 2), s.acts (pgFPORT port.val) = true → (s.port port.val).train = .step 5 →
    Completes (.trainingStepDone port lanes) s fun t =>
    (t.port port.val).train = .step (if (s.port port.val).mode = 1 then 9 else 6) ∧ t.body = s.body ∧ t.regs = s.regs) ∧
  (∀ (s : State) (port : Fin 16) (lanes : BitVec 2), s.acts (pgFPORT port.val) = true → (s.port port.val).train = .step 8 →
    s.wantEnc port.val = false → Completes (.trainingStepDone port lanes) s fun t => (t.port port.val).train = .step 9 ∧
    (t.port port.val).txCrypt = (s.port port.val).txCrypt ∧ t.body = s.body ∧ t.regs = s.regs) ∧
  (∀ (s : State) (port : Fin 16) (lanes : BitVec 2) (set : Bool), s.acts (pgFPORT port.val) = true →
    (s.port port.val).train = .step 8 → s.wantEnc port.val = true → (s.port port.val).txCrypt.loaded set = true →
    Completes (.trainingStepDone port lanes) s fun t => (t.port port.val).train = .step 9 ∧
    (t.port port.val).txCrypt.active = true ∧ (t.port port.val).txCrypt.key.isSome = true ∧ t.body = s.body ∧ t.regs = s.regs) ∧
  (∀ (s : State) (port : Fin 16) (lanes : BitVec 2), s.acts (pgFPORT port.val) = true → (s.port port.val).train = .step 8 →
    s.wantEnc port.val = true → (s.port port.val).txCrypt.loaded false = false → (s.port port.val).txCrypt.loaded true = false →
    Completes (.trainingStepDone port lanes) s fun t => t = s) ∧
  (∀ (s : State) (port : Fin 16) (lanes : BitVec 2), s.acts (pgFPORT port.val) = true → (s.port port.val).train = .step 9 →
    Completes (.trainingStepDone port lanes) s fun t => (t.port port.val).train = .up ∧ t.dram = s.dram) ∧
  (∀ (s : State) (port : Fin 16) (n : Nat), s.acts (pgFPORT port.val) = true → (s.port port.val).train = .step n → 2 < n →
    (s.port port.val).refused = false → (s.port port.val).attempts < 2 → s.rd FPORT_MODE port.val = (s.port port.val).mode →
    (s.port port.val).mode ≠ 2 → Completes (.trainAttemptTimeout port) s fun t => (t.port port.val).train = .step 2 ∧
    (t.port port.val).attempts = (s.port port.val).attempts + 1 ∧ t.body = s.body ∧ t.regs = (s.wr FPORT_WIDTH 0 port.val).regs) ∧
  (∀ (s : State) (port : Fin 16) (n : Nat), s.acts (pgFPORT port.val) = true → (s.port port.val).train = .step n → 2 < n →
    (s.port port.val).refused = false → 2 ≤ (s.port port.val).attempts → Completes (.trainAttemptTimeout port) s fun t =>
    (t.port port.val).train = .down ∧ t.rd FPORT_DOWN_REASON port.val = drTrainFail ∧ t.body = s.body) ∧
  (∀ (s : State) (port : Fin 16) (m : Option Module), s.acts (pgFPORT port.val) = true → Completes (.moduleChange port m) s fun t =>
    (t.port port.val).module = m ∧ bit (t.rd H_INT_STAT (pgFPORT port.val)) I_FPORT_MODULE_CHANGE = true ∧ t.dram = s.dram)

/-- With an accepted flit unacknowledged, the end of the acknowledgement timer sends one IDLE flit with that acknowledgement; credit to
return on an Up link goes out in one sequenced LCTL flit, whose body names it where the link does not encrypt; an open tag group is
closed by one sequenced MSG flit with TAG 1; while a port discards, a NAK is repeated in an IDLE flit, and the eighth starts Recovery;
a wire flit that FEC cannot correct is counted, and one whose CRC fails is counted with its corrections, and the receiver then
discards; and a MSG flit that follows in order without encryption is accepted, and delivers the message without data that it
holds, or none. (Fabric ports) -/
def Obligations.FlitTraffic : Prop :=
  (∀ (s : State) (port : Fin 16), s.acts (pgFPORT port.val) = true → (s.port port.val).listens = true →
    0 < (s.port port.val).unackedRx → Completes (.ackTimer port) s fun t => (t.port port.val).unackedRx = 0 ∧
    t.outs = s.outs ++ [.flit port.val { ftype := 1, seq := 0, ack := (s.port port.val).rxAck, nak := (s.port port.val).discarding && !(s.port port.val).nakSent, tag := false, crdClass := 0, crdCount := 0, ksel := (s.port port.val).txCrypt.active && (s.port port.val).txCrypt.sel, slots := List.replicate 16 0 }] ∧
    t.body = s.body ∧ t.regs = s.regs) ∧
  (∀ (s : State) (port : Fin 16), s.acts (pgFPORT port.val) = true → (s.port port.val).isUp = true →
    (s.port port.val).toReturn.any (· != 0) = true → (s.port port.val).replay.length < 512 →
    (s.port port.val).txCrypt.mute = false → Completes (.creditReturnTimer port) s fun t =>
    (t.port port.val).toReturn = [0, 0, 0, 0] ∧ (t.port port.val).txSeq = (s.port port.val).txSeq + 1 ∧
    (∃ f : Flit, t.outs = s.outs ++ [.flit port.val f] ∧ (t.port port.val).replay = (s.port port.val).replay ++ [f] ∧
      f.ftype = 2 ∧ f.seq = (s.port port.val).txSeq ∧ ((s.port port.val).txCrypt.active = false → f.slots.head? =
        some (lctlSlot lkCredit (creditFields ((s.port port.val).toReturn[0]?.getD 0) ((s.port port.val).toReturn[1]?.getD 0) ((s.port port.val).toReturn[2]?.getD 0) ((s.port port.val).toReturn[3]?.getD 0))))) ∧
    t.body = s.body ∧ t.regs = s.regs) ∧
  (∀ (s : State) (port : Fin 16), s.acts (pgFPORT port.val) = true → (s.port port.val).isUp = true →
    (s.port port.val).txCrypt.active = true → (s.port port.val).txCrypt.group ≠ [] → (s.port port.val).txCrypt.key.isSome = true →
    (s.port port.val).replay.length < 512 → Completes (.tagGroupClose port) s fun t => (t.port port.val).txCrypt.group = [] ∧
    (t.port port.val).txSeq = (s.port port.val).txSeq + 1 ∧
    (∃ f : Flit, t.outs = s.outs ++ [.flit port.val f] ∧ (t.port port.val).replay = (s.port port.val).replay ++ [f] ∧
      f.ftype = 0 ∧ f.seq = (s.port port.val).txSeq ∧ f.tag = true) ∧ t.body = s.body ∧ t.regs = s.regs) ∧
  (∀ (s : State) (port : Fin 16), s.acts (pgFPORT port.val) = true → (s.port port.val).listens = true →
    (s.port port.val).discarding = true → (s.port port.val).nakSent = true → (s.port port.val).nakCount < 7 →
    Completes (.nakRepeat port) s fun t => (t.port port.val).nakSent = true ∧
    (t.port port.val).nakCount = (s.port port.val).nakCount + 1 ∧
    t.outs = s.outs ++ [.flit port.val { ftype := 1, seq := 0, ack := (s.port port.val).rxAck, nak := true, tag := false, crdClass := 0, crdCount := 0, ksel := (s.port port.val).txCrypt.active && (s.port port.val).txCrypt.sel, slots := List.replicate 16 0 }] ∧
    t.body = s.body ∧ t.regs = s.regs) ∧
  (∀ (s : State) (port : Fin 16), s.acts (pgFPORT port.val) = true → (s.port port.val).isUp = true →
    (s.port port.val).discarding = true → (s.port port.val).nakSent = true → (s.port port.val).nakCount = 7 →
    Completes (.nakRepeat port) s fun t => (t.port port.val).train = .recovery 4 ∧ (t.port port.val).recoverAt = s.ao) ∧
  (∀ (s : State) (port : Fin 16) (flit : Bytes), s.acts (pgFPORT port.val) = true → (s.port port.val).listens = true →
    (s.port port.val).isCxl = false → flitOpen flit = .badFec → ((s.port port.val).recentUncorr s.ao).length < 15 →
    (s.port port.val).nakCount < 7 → Completes (.flitReceive port flit) s fun t => (t.port port.val).discarding = true ∧
    (t.port port.val).uncorr = (s.port port.val).recentUncorr s.ao ++ [s.ao] ∧
    t.rd FPORT_FEC_UNCORR port.val = min (2 ^ FPORT_FEC_UNCORR.width - 1) (s.rd FPORT_FEC_UNCORR port.val + 1) ∧
    (t.port port.val).rxBuf = (s.port port.val).rxBuf ∧ t.body = s.body) ∧
  (∀ (s : State) (port : Fin 16) (flit : Bytes) (n : Nat), s.acts (pgFPORT port.val) = true → (s.port port.val).listens = true →
    (s.port port.val).isCxl = false → flitOpen flit = .badCrc n → (s.port port.val).nakCount < 7 →
    Completes (.flitReceive port flit) s fun t => (t.port port.val).discarding = true ∧
    t.rd FPORT_CRC_ERR port.val = min (2 ^ FPORT_CRC_ERR.width - 1) (s.rd FPORT_CRC_ERR port.val + 1) ∧
    t.rd FPORT_FEC_CORR port.val = min (2 ^ FPORT_FEC_CORR.width - 1) (s.rd FPORT_FEC_CORR port.val + n) ∧
    (t.port port.val).rxBuf = (s.port port.val).rxBuf ∧ t.body = s.body) ∧
  (∀ (s : State) (port : Fin 16) (flit b : Bytes) (n : Nat), s.acts (pgFPORT port.val) = true →
    (s.port port.val).listens = true → (s.port port.val).isCxl = false → flitOpen flit = .good b n → (flitOf b).ftype = 0 →
    (flitOf b).nak = false → s.rxSealed port.val (flitOf b) = false → (s.port port.val).partialMsg = none →
    (flitOf b).slots.all (fun x => !slotValid x) = true → (flitOf b).seq = (s.port port.val).rxAck + 1 →
    Completes (.flitReceive port flit) s fun t => (t.port port.val).rxAck = (s.port port.val).rxAck + 1 ∧
    (t.port port.val).discarding = false ∧ (t.port port.val).rxBuf = (s.port port.val).rxBuf ∧ t.body = s.body) ∧
  (∀ (s : State) (port : Fin 16) (flit b : Bytes) (n : Nat) (x : Slot) (rest : List Slot), s.acts (pgFPORT port.val) = true →
    (s.port port.val).listens = true → (s.port port.val).isCxl = false → flitOpen flit = .good b n → (flitOf b).ftype = 0 →
    (flitOf b).nak = false → s.rxSealed port.val (flitOf b) = false → (s.port port.val).partialMsg = none →
    (flitOf b).slots = x :: rest → slotValid x = true → slotD x = 0 → s.allowed port.val (slotMsg x) 0 = true →
    rest.all (fun y => !slotValid y) = true → (flitOf b).seq = (s.port port.val).rxAck + 1 →
    Completes (.flitReceive port flit) s fun t => (t.port port.val).rxAck = (s.port port.val).rxAck + 1 ∧
    (t.port port.val).discarding = false ∧ (t.port port.val).rxBuf = (s.port port.val).rxBuf ++ [slotMsg x] ∧ t.body = s.body)

/-- What a receiver that takes CCF flits does with the other flits: an IDLE flit acknowledges, cumulatively, the held flits up to its
ACK; an IDLE flit with NAK has every held flit sent again; a flit of the reserved FTYPE, and a sequenced flit more than 512 numbers
ahead of the last accepted, is discarded with a NAK; a sequenced flit that was accepted before is dropped; an encrypted flit that
does not close its group is held back, and one whose key set the receiver does not hold takes the link Down with NO_KEY; and a tag
that does not verify takes it Down with AUTH. (Fabric ports) -/
def Obligations.FlitForms : Prop :=
  (∀ (s : State) (port : Fin 16) (flit b : Bytes) (n : Nat), s.acts (pgFPORT port.val) = true →
    (s.port port.val).listens = true → (s.port port.val).isCxl = false → flitOpen flit = .good b n → (flitOf b).ftype = 1 →
    (flitOf b).nak = false → (s.port port.val).txq = [] → (s.port port.val).keyDue = false →
    0 < ((flitOf b).ack - (s.port port.val).txAcked).toNat → ((flitOf b).ack - (s.port port.val).txAcked).toNat ≤ 512 →
    Completes (.flitReceive port flit) s fun t => (t.port port.val).txAcked = (flitOf b).ack ∧
    (t.port port.val).replay = (s.port port.val).replay.filter (fun h => decide (512 < ((flitOf b).ack - h.seq).toNat)) ∧
    (t.port port.val).rxAck = (s.port port.val).rxAck ∧ t.body = s.body) ∧
  (∀ (s : State) (port : Fin 16) (flit b : Bytes) (n : Nat), s.acts (pgFPORT port.val) = true →
    (s.port port.val).listens = true → (s.port port.val).isCxl = false → flitOpen flit = .good b n → (flitOf b).ftype = 1 →
    (flitOf b).nak = true → (s.port port.val).txq = [] → (s.port port.val).keyDue = false →
    (flitOf b).ack = (s.port port.val).txAcked → (s.port port.val).nakSeen < 7 → Completes (.flitReceive port flit) s fun t =>
    t.outs = s.outs ++ (s.port port.val).replay.map (fun f => .flit port.val f) ∧
    (t.port port.val).replay = (s.port port.val).replay ∧ (t.port port.val).nakSeen = (s.port port.val).nakSeen + 1 ∧
    t.body = s.body) ∧
  (∀ (s : State) (port : Fin 16) (flit b : Bytes) (n : Nat), s.acts (pgFPORT port.val) = true →
    (s.port port.val).listens = true → (s.port port.val).isCxl = false → flitOpen flit = .good b n → (flitOf b).ftype = 3 →
    (s.port port.val).nakCount < 7 → Completes (.flitReceive port flit) s fun t => (t.port port.val).discarding = true ∧
    (t.port port.val).rxAck = (s.port port.val).rxAck ∧ (t.port port.val).replay = (s.port port.val).replay ∧ t.body = s.body) ∧
  (∀ (s : State) (port : Fin 16) (flit b : Bytes) (n : Nat), s.acts (pgFPORT port.val) = true →
    (s.port port.val).listens = true → (s.port port.val).isCxl = false → flitOpen flit = .good b n →
    ((flitOf b).ftype = 0 ∨ (flitOf b).ftype = 2) → (flitOf b).nak = false → (s.port port.val).rxCrypt.active = false →
    512 < ((s.port port.val).rxAck + 1 - (flitOf b).seq).toNat → (s.port port.val).nakCount < 7 →
    Completes (.flitReceive port flit) s fun t => (t.port port.val).discarding = true ∧
    (t.port port.val).rxAck = (s.port port.val).rxAck ∧ (t.port port.val).rxBuf = (s.port port.val).rxBuf ∧ t.body = s.body) ∧
  (∀ (s : State) (port : Fin 16) (flit b : Bytes) (n : Nat), s.acts (pgFPORT port.val) = true →
    (s.port port.val).listens = true → (s.port port.val).isCxl = false → flitOpen flit = .good b n →
    ((flitOf b).ftype = 0 ∨ (flitOf b).ftype = 2) → (flitOf b).nak = false → (s.port port.val).rxCrypt.active = false →
    0 < ((s.port port.val).rxAck + 1 - (flitOf b).seq).toNat → ((s.port port.val).rxAck + 1 - (flitOf b).seq).toNat ≤ 512 →
    Completes (.flitReceive port flit) s fun t => (t.port port.val).discarding = (s.port port.val).discarding ∧
    (t.port port.val).rxAck = (s.port port.val).rxAck ∧ (t.port port.val).rxBuf = (s.port port.val).rxBuf ∧ t.outs = s.outs ∧
    t.body = s.body) ∧
  (∀ (s : State) (port : Fin 16) (flit b : Bytes) (n : Nat), s.acts (pgFPORT port.val) = true →
    (s.port port.val).listens = true → (s.port port.val).isCxl = false → flitOpen flit = .good b n →
    ((flitOf b).ftype = 0 ∨ (flitOf b).ftype = 2) → (flitOf b).nak = false → (s.port port.val).rxCrypt.active = true →
    (s.port port.val).rxCrypt.loaded (flitOf b).ksel = true → (flitOf b).tag = false → (s.port port.val).rxCrypt.group.length < 7 →
    (flitOf b).seq = (s.port port.val).rxAck + 1 + BitVec.ofNat 10 (s.port port.val).rxCrypt.group.length →
    Completes (.flitReceive port flit) s fun t =>
    (t.port port.val).rxCrypt.group = (s.port port.val).rxCrypt.group ++ [flitOf b] ∧
    (t.port port.val).rxAck = (s.port port.val).rxAck ∧ (t.port port.val).rxBuf = (s.port port.val).rxBuf ∧ t.body = s.body) ∧
  (∀ (s : State) (port : Fin 16) (flit b : Bytes) (n : Nat), s.acts (pgFPORT port.val) = true →
    (s.port port.val).listens = true → (s.port port.val).isCxl = false → flitOpen flit = .good b n →
    ((flitOf b).ftype = 0 ∨ (flitOf b).ftype = 2) → (flitOf b).nak = false → (s.port port.val).rxCrypt.active = true →
    (s.port port.val).rxCrypt.loaded (flitOf b).ksel = false → s.rd FPORT_PEER_ROLE port.val = roleNode →
    (s.port port.val).module = none →
    (flitOf b).seq = (s.port port.val).rxAck + 1 + BitVec.ofNat 10 (s.port port.val).rxCrypt.group.length →
    Completes (.flitReceive port flit) s fun t => (t.port port.val).train = .down ∧
    t.rd FPORT_DOWN_REASON port.val = drNoKey) ∧
  (∀ (s : State) (port : Fin 16) (flit b : Bytes) (n : Nat) (k : LinkKey), s.acts (pgFPORT port.val) = true →
    (s.port port.val).listens = true → (s.port port.val).isCxl = false → flitOpen flit = .good b n →
    ((flitOf b).ftype = 0 ∨ (flitOf b).ftype = 2) → (flitOf b).nak = false → (s.port port.val).rxCrypt.active = true →
    (flitOf b).ksel = (s.port port.val).rxCrypt.sel → (s.port port.val).rxCrypt.key = some k → (flitOf b).tag = true →
    groupTag k (s.port port.val).rxCrypt.count ((s.port port.val).rxCrypt.group ++ [flitOf b]) ≠ (flitOf b).slots.getLastD 0 →
    s.rd FPORT_PEER_ROLE port.val = roleNode → (s.port port.val).module = none →
    (flitOf b).seq = (s.port port.val).rxAck + 1 + BitVec.ofNat 10 (s.port port.val).rxCrypt.group.length →
    Completes (.flitReceive port flit) s fun t => (t.port port.val).train = .down ∧
    t.rd FPORT_DOWN_REASON port.val = drAuth ∧
    t.rd FPORT_AUTH_FAIL port.val = min (2 ^ FPORT_AUTH_FAIL.width - 1) (s.rd FPORT_AUTH_FAIL port.val + 1))

/-- An unsupported CXL.mem request is counted and dropped, and a CXL.cache message is reported in the RAS capability as well; a
speculative read is dropped; while admission is closed, a request of the subset waits in the port, and while it is open and no limit
is reached it waits at SHAPE; the answer to a back-invalidate ends it and counts as the agent's answer to its transaction, or is
counted stray where none awaits it; a CXL link that goes down is taken Down, with DOWN_REASON AUTH where an IDE
integrity failure ends it; an access to BAR0 that MMIO_ACCESS denies is counted, and a read then completes with Completer Abort; one
that it allows reads or writes the register; a commit of an HDM decoder stands, or shows error-not-committed, and a read shows
it; a mailbox command is answered, with Unsupported outside the subset, and signalled by vector 1. (Fabric ports; that a mailbox
command is named by its opcode of the CXL standard, and the words of a decoder, are the model's choice, assumption 14) -/
def Obligations.CxlLink : Prop :=
  (∀ (s : State) (port : Fin 16) (r : CxlReq), s.acts (pgFPORT port.val) = true → (s.port port.val).isUp = true →
    (s.port port.val).isCxl = true → r.op = .unsupported → Completes (.cxlMemRequest port r) s fun t =>
    t.rd FPORT_UNSUP port.val = min (2 ^ FPORT_UNSUP.width - 1) (s.rd FPORT_UNSUP port.val + 1) ∧ t.ports = s.ports ∧
    t.body = s.body) ∧
  (∀ (s : State) (port : Fin 16) (r : CxlReq), s.acts (pgFPORT port.val) = true → (s.port port.val).isUp = true →
    (s.port port.val).isCxl = true → r.op = .cacheMsg → Completes (.cxlMemRequest port r) s fun t =>
    t.rd FPORT_UNSUP port.val = min (2 ^ FPORT_UNSUP.width - 1) (s.rd FPORT_UNSUP port.val + 1) ∧
    t.port port.val = { s.port port.val with cxlRas := true } ∧ t.body = s.body) ∧
  (∀ (s : State) (port : Fin 16) (r : CxlReq), s.acts (pgFPORT port.val) = true → (s.port port.val).isUp = true →
    (s.port port.val).isCxl = true → r.op = .memSpecRd → Completes (.cxlMemRequest port r) s fun t => t = s) ∧
  (∀ (s : State) (port : Fin 16) (r : CxlReq), s.acts (pgFPORT port.val) = true → (s.port port.val).isUp = true →
    (s.port port.val).isCxl = true → r.op ≠ .unsupported → r.op ≠ .cacheMsg → r.op ≠ .memSpecRd →
    (s.port port.val).cxlBi = [] → s.shape.open_ = false → (s.port port.val).cxlHeld = [] →
    Completes (.cxlMemRequest port r) s fun t => (t.port port.val).cxlHeld = [r] ∧ t.body = s.body ∧ t.regs = s.regs) ∧
  (∀ (s : State) (port : Fin 16) (r : CxlReq) (o : Op), s.acts (pgFPORT port.val) = true → (s.port port.val).isUp = true →
    (s.port port.val).isCxl = true → (s.port port.val).cxlBi = [] → (s.port port.val).cxlHeld = [] →
    s.cxlOp port.val r = some o → o.bypasses = false → s.enabled (s.rd FPORT_CXL_TID port.val) = true →
    s.cxlHolds (s.cxlReq port.val r o) = false → Completes (.cxlMemRequest port r) s fun t => (t.port port.val).cxlHeld = [] ∧
    t.reqs = s.reqs ++ [{ s.cxlReq port.val r o with id := s.nextId, place := .queued, order := s.nextOrder }] ∧ t.core = s.core) ∧
  (∀ (s : State) (port : Fin 16) (la : BitVec 46) (k : Trk), s.acts (pgFPORT port.val) = true →
    (s.port port.val).isUp = true → (s.port port.val).isCxl = true → (s.port port.val).cxlBi = [(laOf la.toNat, none)] →
    s.live (s.rd FPORT_CXL_AID port.val) = true → s.trks = [k] → k.la = laOf la.toNat → k.kind = .inv →
    k.awaited.any (fun a => a.1 == s.rd FPORT_CXL_AID port.val) = true →
    k.awaited.any (fun a => a.1 != s.rd FPORT_CXL_AID port.val) = true → s.owed = [] → s.isOpen k.la = true →
    Completes (.cxlBirsp port la) s fun t => (t.port port.val).cxlBi = [] ∧
    t.trks = [{ k with awaited := k.awaited.filter (fun a => a.1 != s.rd FPORT_CXL_AID port.val), before := k.before.bind (fun e => e.leave (s.rd FPORT_CXL_AID port.val)) }] ∧
    t.reqs = s.reqs ∧ t.core = s.core) ∧
  (∀ (s : State) (port : Fin 16) (la : BitVec 46) (b : Nat × Option (BitVec 512 × Bool)), s.acts (pgFPORT port.val) = true →
    (s.port port.val).isUp = true → (s.port port.val).isCxl = true → (s.port port.val).cxlBi = [b] → b.1 = laOf la.toNat →
    s.live (s.rd FPORT_CXL_AID port.val) = true → s.trks = [] → s.owed = [] → s.isOpen (laOf la.toNat) = true →
    Completes (.cxlBirsp port la) s fun t => (t.port port.val).cxlBi = [] ∧
    t.rd HOME_STRAY_ACK = min (2 ^ HOME_STRAY_ACK.width - 1) (s.rd HOME_STRAY_ACK + 1) ∧ t.dir = s.dir ∧ t.core = s.core) ∧
  (∀ (s : State) (port : Fin 16) (ide : Bool), s.acts (pgFPORT port.val) = true → (s.port port.val).isCxl = true →
    (s.port port.val).alive = true → (s.port port.val).module = none → s.live (s.rd FPORT_CXL_AID port.val) = false →
    Completes (.cxlLinkDown ⟨port, ide⟩) s fun t => (t.port port.val).train = .down ∧
    t.rd FPORT_DOWN_REASON port.val = (if ide then drAuth else drTimeout) ∧ t.core = s.core) ∧
  (∀ (s : State) (port : Fin 16) (opcode : BitVec 16), s.acts (pgFPORT port.val) = true → (s.port port.val).isUp = true →
    (s.port port.val).isCxl = true → Completes (.cxlMailboxCommand port opcode) s fun t =>
    t.outs = s.outs ++ [.cxlMbx port.val opcode.toNat (if cxlMbxSupported.contains opcode.toNat then 0 else 3) ((s.port port.val).cxlMbxData opcode.toNat), .msix port.val 1] ∧
    t.body = s.body ∧ t.regs = s.regs) ∧
  (∀ (s : State) (port : Fin 16) (addr : BitVec 24) (dws : List (BitVec 4 × Word)), s.tmc.nodeRails = true →
    (s.port port.val).isUp = true → (s.port port.val).isCxl = true → s.rd FPORT_MMIO_ACCESS port.val = 0 →
    Completes (.cxlIoAccess port false (.bar0 addr) dws) s fun t =>
    t.rd FPORT_MMIO_DENY port.val = min (2 ^ FPORT_MMIO_DENY.width - 1) (s.rd FPORT_MMIO_DENY port.val + 1) ∧
    t.outs = s.outs ++ [.cxlIo port.val 4 0] ∧ t.body = s.body) ∧
  (∀ (s : State) (port : Fin 16) (addr : BitVec 24) (dws : List (BitVec 4 × Word)), s.tmc.nodeRails = true →
    (s.port port.val).isUp = true → (s.port port.val).isCxl = true → s.rd FPORT_MMIO_ACCESS port.val ≠ 2 →
    Completes (.cxlIoAccess port true (.bar0 addr) dws) s fun t =>
    t.rd FPORT_MMIO_DENY port.val = min (2 ^ FPORT_MMIO_DENY.width - 1) (s.rd FPORT_MMIO_DENY port.val + 1) ∧ t.outs = s.outs ∧
    t.body = s.body) ∧
  (∀ (s : State) (port : Fin 16) (addr : BitVec 24) (val : Word), s.tmc.nodeRails = true → (s.port port.val).isUp = true →
    (s.port port.val).isCxl = true → s.rd FPORT_MMIO_ACCESS port.val ≠ 0 →
    Completes (.cxlIoAccess port false (.bar0 addr) [(15, val)]) s fun t =>
    t = (s.readReg addr.toNat).2.out (.cxlIo port.val 0 (BitVec.ofNat 32 (s.readReg addr.toNat).1))) ∧
  (∀ (s : State) (port : Fin 16) (addr : BitVec 24) (val : Word), s.tmc.nodeRails = true → (s.port port.val).isUp = true →
    (s.port port.val).isCxl = true → s.rd FPORT_MMIO_ACCESS port.val = 2 →
    Completes (.cxlIoAccess port true (.bar0 addr) [(15, val)]) s fun t =>
    t = s.writeReg (.agent (BitVec.ofNat 12 (s.rd FPORT_CXL_AID port.val))) addr.toNat val.toNat) ∧
  (∀ (s : State) (port : Fin 16) (n : Fin 4) (ways gran : Word), s.tmc.nodeRails = true → (s.port port.val).isUp = true →
    (s.port port.val).isCxl = true → Completes (.cxlIoAccess port true (.hdm n) [(15, ways), (15, gran)]) s fun t =>
    (t.port port.val).hdm = setNth (s.port port.val).hdm n.val (if hdmTakes ways.toNat gran.toNat then 1 else 2, ways.toNat, gran.toNat) ∧
    t.body = s.body ∧ t.regs = s.regs) ∧
  (∀ (s : State) (port : Fin 16) (n : Fin 4) (dws : List (BitVec 4 × Word)) (d : Nat × Nat × Nat), s.tmc.nodeRails = true →
    (s.port port.val).isUp = true → (s.port port.val).isCxl = true → (s.port port.val).hdm[n.val]? = some d →
    Completes (.cxlIoAccess port false (.hdm n) dws) s fun t =>
    t = { s with outs := s.outs ++ [.cxlIo port.val 0 (BitVec.ofNat 32 d.1), .cxlIo port.val 0 (BitVec.ofNat 32 d.2.1),
      .cxlIo port.val 0 (BitVec.ofNat 32 d.2.2)] })

/-- A request message of each of the fourteen opcodes that the port passes, while admission is open to it, its tenant is enabled and no
limit at arrival is reached, waits at SHAPE with the next place in order of arrival: WB and CLN_EVICT apart from the queues and free
of the tenant and limit checks, JOB_CLOSE free of them too, and these three also while admission closes. No other request begins to
wait or ends; the DRAM, the options, the fuses, the epochs and the ZM-3's Proof number are unchanged. (Fabric ports; transactions;
admission shaping) -/
def Obligations.RequestsArrive : Prop :=
  (∀ (s : State) (port : Fin 16) (m : Msg), s.acts (pgFPORT port.val) = true → s.passes port.val m = true → m.cls.toNat = clsReq →
    m.opc = 1 → s.shape.open_ = true → s.shape.closing = false →
    s.shape.halted = false → s.enabled m.rqTid = true →
    s.busyAt (reqOf .rdS port.val m) = false → Completes (.rdS port m) s fun t => t.nextId = s.nextId + 1 ∧
    t.reqs = s.reqs ++ [{ reqOf .rdS port.val m with id := s.nextId, place := .queued, order := s.nextOrder }] ∧ t.core = s.core) ∧
  (∀ (s : State) (port : Fin 16) (m : Msg), s.acts (pgFPORT port.val) = true → s.passes port.val m = true → m.cls.toNat = clsReq →
    m.opc = 2 → s.shape.open_ = true → s.shape.closing = false →
    s.shape.halted = false → s.enabled m.rqTid = true →
    s.busyAt (reqOf .rdOwn port.val m) = false → Completes (.rdOwn port m) s fun t => t.nextId = s.nextId + 1 ∧
    t.reqs = s.reqs ++ [{ reqOf .rdOwn port.val m with id := s.nextId, place := .queued, order := s.nextOrder }] ∧ t.core = s.core) ∧
  (∀ (s : State) (port : Fin 16) (m : Msg), s.acts (pgFPORT port.val) = true → s.passes port.val m = true → m.cls.toNat = clsReq →
    m.opc = 3 → s.shape.open_ = true → s.shape.closing = false →
    s.shape.halted = false → s.enabled m.rqTid = true →
    s.busyAt (reqOf .upg port.val m) = false → Completes (.upg port m) s fun t => t.nextId = s.nextId + 1 ∧
    t.reqs = s.reqs ++ [{ reqOf .upg port.val m with id := s.nextId, place := .queued, order := s.nextOrder }] ∧ t.core = s.core) ∧
  (∀ (s : State) (port : Fin 16) (m : Msg), s.acts (pgFPORT port.val) = true → s.passes port.val m = true → m.cls.toNat = clsReq →
    m.opc = 4 → s.shape.open_ = true → s.shape.closing = false →
    s.shape.halted = false → s.enabled m.rqTid = true →
    s.busyAt (reqOf .rdCur port.val m) = false → Completes (.rdCur port m) s fun t => t.nextId = s.nextId + 1 ∧
    t.reqs = s.reqs ++ [{ reqOf .rdCur port.val m with id := s.nextId, place := .queued, order := s.nextOrder }] ∧ t.core = s.core) ∧
  (∀ (s : State) (port : Fin 16) (m : Msg), s.acts (pgFPORT port.val) = true → s.passes port.val m = true → m.cls.toNat = clsReq →
    m.opc = 5 → s.shape.open_ = true → s.shape.closing = false →
    s.shape.halted = false → s.enabled m.rqTid = true →
    s.busyAt (reqOf .wrFull port.val m) = false → Completes (.wrFull port m) s fun t => t.nextId = s.nextId + 1 ∧
    t.reqs = s.reqs ++ [{ reqOf .wrFull port.val m with id := s.nextId, place := .queued, order := s.nextOrder }] ∧ t.core = s.core) ∧
  (∀ (s : State) (port : Fin 16) (m : Msg), s.acts (pgFPORT port.val) = true → s.passes port.val m = true → m.cls.toNat = clsReq →
    m.opc = 6 → s.shape.open_ = true → s.shape.closing = false →
    s.shape.halted = false → s.enabled m.rqTid = true →
    s.busyAt (reqOf .wrPtl port.val m) = false → Completes (.wrPtl port m) s fun t => t.nextId = s.nextId + 1 ∧
    t.reqs = s.reqs ++ [{ reqOf .wrPtl port.val m with id := s.nextId, place := .queued, order := s.nextOrder }] ∧ t.core = s.core) ∧
  (∀ (s : State) (port : Fin 16) (m : Msg), s.acts (pgFPORT port.val) = true → s.passes port.val m = true → m.cls.toNat = clsReq →
    m.opc = 7 → s.shape.open_ = true → Completes (.wb port m) s fun t => t.nextId = s.nextId + 1 ∧
    t.reqs = s.reqs ++ [{ reqOf .wb port.val m with id := s.nextId, place := .bypass, order := s.nextOrder }] ∧ t.core = s.core) ∧
  (∀ (s : State) (port : Fin 16) (m : Msg), s.acts (pgFPORT port.val) = true → s.passes port.val m = true → m.cls.toNat = clsReq →
    m.opc = 8 → s.shape.open_ = true → Completes (.clnEvict port m) s fun t => t.nextId = s.nextId + 1 ∧
    t.reqs = s.reqs ++ [{ reqOf .clnEvict port.val m with id := s.nextId, place := .bypass, order := s.nextOrder }] ∧
    t.core = s.core) ∧
  (∀ (s : State) (port : Fin 16) (m : Msg), s.acts (pgFPORT port.val) = true → s.passes port.val m = true → m.cls.toNat = clsReq →
    m.opc = 16 → s.shape.open_ = true → s.shape.closing = false →
    s.shape.halted = false → s.enabled m.rqTid = true →
    s.busyAt (reqOf .bakeSub port.val m) = false → Completes (.bakeSub port m) s fun t => t.nextId = s.nextId + 1 ∧
    t.reqs = s.reqs ++ [{ reqOf .bakeSub port.val m with id := s.nextId, place := .queued, order := s.nextOrder }] ∧
    t.core = s.core) ∧
  (∀ (s : State) (port : Fin 16) (m : Msg), s.acts (pgFPORT port.val) = true → s.passes port.val m = true → m.cls.toNat = clsReq →
    m.opc = 17 → s.shape.open_ = true → s.shape.closing = false →
    s.shape.halted = false → s.enabled m.rqTid = true →
    s.busyAt (reqOf .bakeAbort port.val m) = false → Completes (.bakeAbort port m) s fun t => t.nextId = s.nextId + 1 ∧
    t.reqs = s.reqs ++ [{ reqOf .bakeAbort port.val m with id := s.nextId, place := .queued, order := s.nextOrder }] ∧
    t.core = s.core) ∧
  (∀ (s : State) (port : Fin 16) (m : Msg), s.acts (pgFPORT port.val) = true → s.passes port.val m = true → m.cls.toNat = clsReq →
    m.opc = 18 → s.shape.open_ = true → s.shape.closing = false →
    s.shape.halted = false → s.enabled m.rqTid = true →
    s.busyAt (reqOf .planLoad port.val m) = false → Completes (.planLoad port m) s fun t => t.nextId = s.nextId + 1 ∧
    t.reqs = s.reqs ++ [{ reqOf .planLoad port.val m with id := s.nextId, place := .queued, order := s.nextOrder }] ∧
    t.core = s.core) ∧
  (∀ (s : State) (port : Fin 16) (m : Msg), s.acts (pgFPORT port.val) = true → s.passes port.val m = true → m.cls.toNat = clsReq →
    m.opc = 19 → s.shape.open_ = true → s.shape.closing = false →
    s.shape.halted = false → s.enabled m.rqTid = true →
    s.busyAt (reqOf .planUnload port.val m) = false → Completes (.planUnload port m) s fun t => t.nextId = s.nextId + 1 ∧
    t.reqs = s.reqs ++ [{ reqOf .planUnload port.val m with id := s.nextId, place := .queued, order := s.nextOrder }] ∧
    t.core = s.core) ∧
  (∀ (s : State) (port : Fin 16) (m : Msg), s.acts (pgFPORT port.val) = true → s.passes port.val m = true → m.cls.toNat = clsReq →
    m.opc = 24 → s.shape.open_ = true → s.shape.closing = false →
    s.shape.halted = false → s.enabled m.rqTid = true →
    s.busyAt (reqOf .jobOpen port.val m) = false → Completes (.jobOpen port m) s fun t => t.nextId = s.nextId + 1 ∧
    t.reqs = s.reqs ++ [{ reqOf .jobOpen port.val m with id := s.nextId, place := .queued, order := s.nextOrder }] ∧
    t.core = s.core) ∧
  (∀ (s : State) (port : Fin 16) (m : Msg), s.acts (pgFPORT port.val) = true → s.passes port.val m = true → m.cls.toNat = clsReq →
    m.opc = 25 → s.shape.open_ = true → s.shape.halted = false → Completes (.jobClose port m) s fun t =>
    t.nextId = s.nextId + 1 ∧
    t.reqs = s.reqs ++ [{ reqOf .jobClose port.val m with id := s.nextId, place := .queued, order := s.nextOrder }] ∧
    t.core = s.core)

/-- A snoop answer of a Live agent that an invalidation awaits, besides others, removes that agent from the awaited and from the entry as
it will stand, and the data it brings is made ready to be written; one that nothing awaits is counted stray, with STRAY raised. DATA
or CMP for the agent of a CXL link here becomes the CXL response of the request that it completes, and one for any other agent is
dropped and counted. The OK of a destination starts a Node move copying from the line it names, and that of the holder begins a
join; a response of a node that nothing awaits is dropped and counted. An MMIO read or write that MMIO_ACCESS does not allow is
counted, and one that it allows from a Live agent is performed and answered OK, the read with the value of the register.
(Fabric ports; transactions; directory coherence; translation and page migration; Twin pairs) -/
def Obligations.AnswersAndSystem : Prop :=
  (∀ (s : State) (port : Fin 16) (m : Msg) (k : Trk), s.acts (pgFPORT port.val) = true → s.passes port.val m = true →
    m.cls.toNat = clsRsp → m.opc = 0x42 → s.trks = [k] → k.la = laOf m.rsAddr → k.kind = .inv →
    k.awaited.any (fun a => a.1 == m.rsRspr) = true → k.awaited.any (fun a => a.1 != m.rsRspr) = true → s.owed = [] →
    s.live m.rsRspr = true → s.isOpen k.la = true → Completes (.snpAck port m) s fun t =>
    t.trks = [{ k with awaited := k.awaited.filter (fun a => a.1 != m.rsRspr), before := k.before.bind (fun e => e.leave m.rsRspr) }] ∧
    t.reqs = s.reqs ∧ t.queues = s.queues) ∧
  (∀ (s : State) (port : Fin 16) (m : Msg), s.acts (pgFPORT port.val) = true → s.passes port.val m = true → m.cls.toNat = clsRsp →
    m.opc = 0x42 → s.trks = [] → s.owed = [] → Completes (.snpAck port m) s fun t =>
    t.rd HOME_STRAY_ACK = min (2 ^ HOME_STRAY_ACK.width - 1) (s.rd HOME_STRAY_ACK + 1) ∧
    bit (t.rd H_INT_STAT pgHOME) I_HOME_STRAY = true ∧ t.reqs = s.reqs) ∧
  (∀ (s : State) (port : Fin 16) (m : Msg) (k : Trk) (r : Req), s.acts (pgFPORT port.val) = true → s.passes port.val m = true →
    m.cls.toNat = clsRsp → m.opc = 0x43 → s.trks = [k] → k.la = laOf m.rsAddr → k.kind = .inv →
    k.awaited.any (fun a => a.1 == m.rsRspr) = true → k.awaited.any (fun a => a.1 != m.rsRspr) = true → s.owed = [] →
    s.live m.rsRspr = true → s.isOpen k.la = true → s.req k.req = some r → k.keeps r = true →
    s.attr r.epoch TEN_R_MIRROR r.region = false → s.attr r.epoch TEN_R_ISO r.region = false →
    Completes (.snpAckD port m) s fun t =>
    t.trks = [{ k with awaited := k.awaited.filter (fun a => a.1 != m.rsRspr), before := k.before.bind (fun e => e.leave m.rsRspr) }] ∧
    (∃ e : Entry, (t.queue (hashLine (r.off / 64)).1).waiting = (s.queue (hashLine (r.off / 64)).1).waiting ++ [e] ∧
      e.kind = .write ∧ e.off = r.off ∧ e.data = m.line ∧ e.poison = (m.rsStatus == stPoison)) ∧ t.reqs = s.reqs) ∧
  (∀ (s : State) (port : Fin 16) (m : Msg), s.acts (pgFPORT port.val) = true → s.passes port.val m = true → m.cls.toNat = clsRsp →
    m.opc = 0x43 → s.trks = [] → s.owed = [] → Completes (.snpAckD port m) s fun t =>
    t.rd HOME_STRAY_ACK = min (2 ^ HOME_STRAY_ACK.width - 1) (s.rd HOME_STRAY_ACK + 1) ∧
    bit (t.rd H_INT_STAT pgHOME) I_HOME_STRAY = true ∧ t.queues = s.queues) ∧
  (∀ (s : State) (port : Fin 16) (m : Msg) (q : Nat) (r : Req), s.acts (pgFPORT port.val) = true → s.passes port.val m = true →
    m.cls.toNat = clsRsp → m.opc = 0x40 → s.cxlPort m.rsDst = some q → (s.port q).alive = true → s.live m.rsDst = true →
    s.relayed m.rsDst m.rsTxid = some r → r.place = .tracked → m.rsStatus = stOK → Completes (.dataRelay port m) s fun t =>
    t.outs = s.outs ++ [.cxlRsp r.port r.txid 1 (if m.rsGrant = 1 then 1 else if m.rsGrant = 0 then 0 else 2) (devLoad m.rsLoad) false m.line]) ∧
  (∀ (s : State) (port : Fin 16) (m : Msg) (q : Nat) (r : Req), s.acts (pgFPORT port.val) = true → s.passes port.val m = true →
    m.cls.toNat = clsRsp → m.opc = 0x41 → s.cxlPort m.rsDst = some q → (s.port q).alive = true → s.live m.rsDst = true →
    s.relayed m.rsDst m.rsTxid = some r → r.place = .tracked → r.op.reads = false → m.rsStatus = stOK →
    Completes (.dataRelay port m) s fun t =>
    t.outs = s.outs ++ [.cxlRsp r.port r.txid 0 (if m.rsGrant = 1 then 1 else if m.rsGrant = 0 then 0 else 2) (devLoad m.rsLoad) false 0]) ∧
  (∀ (s : State) (port : Fin 16) (m : Msg), s.acts (pgFPORT port.val) = true → s.passes port.val m = true → m.cls.toNat = clsRsp →
    m.opc = 0x40 → s.cxlPort m.rsDst = none → Completes (.dataRelay port m) s fun t =>
    t.rd FPORT_RSP_DROP port.val = min (2 ^ FPORT_RSP_DROP.width - 1) (s.rd FPORT_RSP_DROP port.val + 1) ∧ t.body = s.body) ∧
  (∀ (s : State) (port : Fin 16) (m : Msg) (n : Fin 16), s.acts (pgFPORT port.val) = true → s.passes port.val m = true →
    m.cls.toNat = clsSys → m.opc = 0x82 → m.syTxid = 2 * n.val → (s.move n.val).state = .starting → (s.move n.val).walking = false →
    (s.move n.val).sourceOf m.srcNid = true → m.syStatus = stOK → Completes (.sysRsp port m) s fun t =>
    (t.move n.val).state = .copying ∧ (t.move n.val).doneL = m.syRdata % 2 ^ 17 ∧ (t.move n.val).issued = m.syRdata % 2 ^ 17 ∧
    (t.move n.val).progress = s.ao ∧ t.core = s.core) ∧
  (∀ (s : State) (port : Fin 16) (m : Msg), s.acts (pgFPORT port.val) = true → s.passes port.val m = true → m.cls.toNat = clsSys →
    m.opc = 0x82 → m.syTxid = joinTxid → s.opts.w = true → m.srcNid = s.rd TWIN_PARTNER_NID → m.syStatus = stOK →
    s.twin.turn = tuFenced → Completes (.sysRsp port m) s fun t => t.twin.turn = tuJoining ∧ t.twin.synced = false ∧
    t.twin.applied = 0 ∧ t.dir = s.dir.filter (fun e => !e.shadow) ∧ t.core = s.core) ∧
  (∀ (s : State) (port : Fin 16) (m : Msg), s.acts (pgFPORT port.val) = true → s.passes port.val m = true → m.cls.toNat = clsSys →
    m.opc = 0x82 → s.awaitsRsp m.srcNid m.syTxid = false → (s.opts.w = false ∨ m.srcNid ≠ s.rd TWIN_PARTNER_NID) →
    Completes (.sysRsp port m) s fun t =>
    t.rd FPORT_RSP_DROP port.val = min (2 ^ FPORT_RSP_DROP.width - 1) (s.rd FPORT_RSP_DROP port.val + 1) ∧ t.body = s.body) ∧
  (∀ (s : State) (port : Fin 16) (m : Msg), s.passes port.val m = true → m.cls.toNat = clsSys → m.opc = 0x80 →
    s.rd FPORT_MMIO_ACCESS port.val ≠ 0 → m.sySnode = false → s.live m.sySrc = true →
    Completes (.mmioRd port m) s fun t => t = (((s.takeMsg port.val m).count 0 0 0 1).readReg m.syOffset).2.sysAnswer port.val m stOK (((s.takeMsg port.val m).count 0 0 0 1).readReg m.syOffset).1 ∧
    t.core = s.core) ∧
  (∀ (s : State) (port : Fin 16) (m : Msg), s.passes port.val m = true → m.cls.toNat = clsSys → m.opc = 0x80 →
    s.rd FPORT_MMIO_ACCESS port.val = 0 → Completes (.mmioRd port m) s fun t =>
    t.rd FPORT_MMIO_DENY port.val = min (2 ^ FPORT_MMIO_DENY.width - 1) (s.rd FPORT_MMIO_DENY port.val + 1) ∧ t.body = s.body) ∧
  (∀ (s : State) (port : Fin 16) (m : Msg), s.passes port.val m = true → m.cls.toNat = clsSys → m.opc = 0x81 →
    s.rd FPORT_MMIO_ACCESS port.val = 2 → m.sySnode = false → s.live m.sySrc = true →
    Completes (.mmioWr port m) s fun t => t = (((s.takeMsg port.val m).count 0 0 0 1).writeReg (.agent (BitVec.ofNat 12 m.sySrc)) m.syOffset m.syWdata).sysAnswer port.val m stOK 0) ∧
  (∀ (s : State) (port : Fin 16) (m : Msg), s.passes port.val m = true → m.cls.toNat = clsSys → m.opc = 0x81 →
    s.rd FPORT_MMIO_ACCESS port.val ≠ 2 → Completes (.mmioWr port m) s fun t =>
    t.rd FPORT_MMIO_DENY port.val = min (2 ^ FPORT_MMIO_DENY.width - 1) (s.rd FPORT_MMIO_DENY port.val + 1) ∧ t.body = s.body)

/-- One slot of an fc admits the oldest WB or CLN_EVICT whose port has a slot, stamped with the open epoch, and, where only one request
waits and it may be admitted, that one; a refill adds the rate of a tenant with one bucket to it, up to its size; LOAD becomes the
largest of its three terms, at most 15; AGENT_LIM_NOW halves, not below its floor, when LOAD is at STEER_HI or above, grows by its
step, not above its ceiling, at STEER_LO or below, and stays otherwise. (Admission shaping) -/
def Obligations.Admission : Prop :=
  (∀ (s : State) (r : Req), s.acts pgSHAPE = true → (List.range 16).all (fun p => !(s.port p).isCxl) = true →
    s.shape.fcSlots < s.fcLimit → s.nextBypass = some r → s.req r.id = some r → r.intern = false →
    r.op.bypasses = true → Completes (.requestAdmit false) s fun t => (t.req r.id).map (fun x => (x.place, x.epoch)) = some (.resolving, s.openEpoch) ∧
    t.shape.fcSlots = s.shape.fcSlots + 1 ∧ t.core = s.core) ∧
  (∀ (s : State) (r : Req), s.acts pgSHAPE = true → (List.range 16).all (fun p => !(s.port p).isCxl) = true →
    s.shape.fcSlots < s.fcLimit → s.reqs = [r] → r.place = .queued → r.intern = false → r.port < 16 → s.shape.batch = [] →
    s.shape.panic = false → s.mayAdmit r = true → s.slotLeft r = true → Completes (.requestAdmit false) s fun t =>
    t.reqs.map (fun x => (x.id, x.place, x.epoch)) = [(r.id, .resolving, s.openEpoch)] ∧ t.shape.fcSlots = s.shape.fcSlots + 1 ∧
    t.core = s.core) ∧
  (∀ (s : State) (n : BitVec 8), s.acts pgSHAPE = true → s.mode n.toNat = 1 → Completes (.bucketRefill) s fun t =>
    t.cTok n.toNat = min (s.cTok n.toNat + s.rd SHAPE_T_CIR 0 n.toNat) (s.rd SHAPE_T_CBS 0 n.toNat) ∧ t.reqs = s.reqs ∧
    t.regs = s.regs ∧ t.core = s.core) ∧
  (∀ (s : State), s.acts pgSHAPE = true → Completes (.loadUpdate) s fun t =>
    t.shape.load = min 15 (max (16 * s.outNode / 32768) (max (16 * s.shape.tickUsed / (if s.shape.throttle then 16384 else 32768)) (if s.shape.throttle then 13 else 0))) ∧
    t.shape.tickUsed = 0 ∧ t.reqs = s.reqs ∧ t.core = s.core) ∧
  (∀ (s : State), s.acts pgSHAPE = true → s.rd SHAPE_STEER_HI ≤ s.shape.load → Completes (.agentLimitStep) s fun t =>
    t.shape.limNow = max (s.rd SHAPE_AGENT_LIM_FLOOR) (s.shape.limNow / 2) ∧ t.core = s.core) ∧
  (∀ (s : State), s.acts pgSHAPE = true → s.shape.load < s.rd SHAPE_STEER_HI → s.shape.load ≤ s.rd SHAPE_STEER_LO →
    Completes (.agentLimitStep) s fun t =>
    t.shape.limNow = min (s.rd SHAPE_AGENT_LIM_CEIL) (s.shape.limNow + s.rd SHAPE_AGENT_LIM_STEP) ∧ t.core = s.core) ∧
  (∀ (s : State), s.acts pgSHAPE = true → s.shape.load < s.rd SHAPE_STEER_HI → s.rd SHAPE_STEER_LO < s.shape.load →
    Completes (.agentLimitStep) s fun t => t = s)

/-- The three transitions that software may write: an Absent agent is admitted Live with its incarnation; notice of a Live agent with
its incarnation, while no transaction is open, declares it lost, so that it is scanned and joins the sweep; a Fenced agent is readmitted with the next
incarnation once 1 ms has passed. The sweep reads one set further in each step and an agent whose sets are all read, with no
action left, becomes Fenced. (Agent loss) -/
def Obligations.AgentTable : Prop :=
  (∀ (s : State) (aid : BitVec 12) (inc : BitVec 16), s.acts pgDIRC = true → (s.agent aid.toNat).state = agAbsent →
    Completes (.agentAdmit aid inc) s fun t => t.agent aid.toNat = { state := agLive, inc := inc.toNat, fencedAt := 0 } ∧
    t.regs = s.regs ∧ t.dir = s.dir ∧ t.core = s.core) ∧
  (∀ (s : State) (aid : BitVec 12) (inc : BitVec 16), s.acts pgDIRC = true → (s.agent aid.toNat).state = agLive →
    (s.agent aid.toNat).inc = inc.toNat → s.trks = [] → Completes (.agentNotice aid inc) s fun t =>
    (t.agent aid.toNat).state = agScanning ∧
    t.scan = some { (s.scan.getD Scan.idle) with agents := (s.scan.getD Scan.idle).agents ++ [(aid.toNat, dirSets, 0, 0)] } ∧
    t.core = s.core) ∧
  (∀ (s : State) (aid : BitVec 12) (inc : BitVec 16), s.acts pgDIRC = true → (s.agent aid.toNat).state = agFenced →
    inc.toNat = ((s.agent aid.toNat).inc + 1) % 65536 → (s.agent aid.toNat).fencedAt + 1563 ≤ s.ao →
    Completes (.agentReadmit aid inc) s fun t => t.agent aid.toNat = { state := agLive, inc := inc.toNat, fencedAt := 0 } ∧
    t.regs = s.regs ∧ t.dir = s.dir ∧ t.core = s.core) ∧
  (∀ (s : State) (c : Scan), s.acts pgHOME = true → s.scan = some c → c.agents.any (fun a => a.2.1 != 0) = true →
    Completes (.sweepStep) s fun t => t.scan = some c.advance ∧ t.dir = s.dir ∧ t.core = s.core) ∧
  (∀ (s : State) (c : Scan) (a : Nat × Nat × Nat × Nat), s.acts pgHOME = true → s.scan = some c → c.agents = [a] → a.2.1 = 0 →
    s.sweepBusy a.1 = false → c.regionRc = none → c.image = none → Completes (.sweepEnd) s fun t => t.scan = none ∧
    (t.agent a.1).state = agFenced ∧ (t.agent a.1).fencedAt = s.ao ∧ t.core = s.core)

/-- A request that waits alone at the home, at a line without transaction and fence, is ordered: an RD_CUR of a line of an Uncached region
is read from memory without a directory change; an RD_S of a line that the directory does not hold is read with grant E, and the
entry of its new owner stands in the lowest free way (assumption 121); an RD_S of a line that another Live agent owns opens a
tracker that awaits that owner and counts a forward. A tracker that has waited longer than SNP_SLOW_LIMIT is marked and SNP_SLOW
raised. A probe joins its line's queue with DONE and HIT cleared. (Directory coherence; tenants and regions) -/
def Obligations.HomeAndProbe : Prop :=
  (∀ (s : State) (la : BitVec 37) (r : Req), s.acts pgHOME = true → s.reqs = [r] → r.place = .home → r.la = la.toNat →
    r.op = .rdCur → r.intern = false → s.openTx = [] → s.fences = [] → s.fencedAt4 r = none →
    s.attr r.epoch TEN_R_COH r.region = true → s.attr r.epoch TEN_R_MIRROR r.region = false → Completes (.homeOrder la) s fun t =>
    (t.reqs.map (fun x => x.place)) = [.memRead] ∧ t.openTx = [(la.toNat, r.id)] ∧ t.dir = s.dir ∧ t.core = s.core) ∧
  (∀ (s : State) (la : BitVec 37) (r : Req), s.acts pgHOME = true → s.reqs = [r] → r.place = .home → r.la = la.toNat →
    r.op = .rdS → r.intern = false → r.wait = 0 → s.openTx = [] → s.fences = [] → s.fencedAt4 r = none →
    s.attr r.epoch TEN_R_COH r.region = false → s.attr r.epoch TEN_R_MIRROR r.region = false → s.cached (dirSet r.la) = true →
    s.broken = [] → s.dir = [] → Completes (.homeOrder la) s fun t =>
    t.dir = [entOf r.la r.region true r.aid (s.agent r.aid).inc] ∧
    (t.reqs.map (fun x => (x.place, x.grant))) = [(.memRead, grE)] ∧ t.openTx = [(la.toNat, r.id)] ∧ t.core = s.core) ∧
  (∀ (s : State) (la : BitVec 37) (r : Req) (e : DirEnt), s.acts pgHOME = true → s.reqs = [r] → r.place = .home →
    r.la = la.toNat → r.op = .rdS → r.intern = false → r.wait = 0 → s.openTx = [] → s.fences = [] → s.fencedAt4 r = none →
    s.attr r.epoch TEN_R_COH r.region = false → s.attr r.epoch TEN_R_MIRROR r.region = false → s.cached (dirSet r.la) = true →
    s.broken = [] → s.trks = [] → s.dir = [e] → e.la = r.la → e.shadow = false → e.coarse = false → e.modif = true →
    s.live e.owner = true → e.owner ≠ r.aid → Completes (.homeOrder la) s fun t =>
    t.trks.map (fun k => (k.la, k.kind, k.req, k.awaited)) = [(la.toNat, .fwdS, r.id, [(e.owner, false)])] ∧
    (t.reqs.map (fun x => x.place)) = [.tracked] ∧ t.openTx = [(la.toNat, r.id)] ∧
    t.rd HOME_FORWARDS = min (2 ^ HOME_FORWARDS.width - 1) (s.rd HOME_FORWARDS + 1) ∧ t.core = s.core) ∧
  (∀ (s : State) (la : BitVec 37) (k : Trk), s.acts pgHOME = true → s.trks = [k] → k.la = la.toNat → k.slow = false →
    k.since + s.rd HOME_SNP_SLOW_LIMIT ≤ s.ao → Completes (.snpSlow la) s fun t => t.trks = [{ k with slow := true }] ∧
    bit (t.rd H_INT_STAT pgHOME) I_HOME_SNP_SLOW = true ∧ t.reqs = s.reqs ∧ t.core = s.core) ∧
  (∀ (s : State), s.acts pgDIRC = true → Completes (.probeGo) s fun t => t.rd DIRC_PROBE_DONE = 0 ∧ t.rd DIRC_PROBE_HIT = 0 ∧
    t.reqs.length = s.reqs.length + 1 ∧
    (t.reqs.getLast?.map (fun r => (r.op, r.place, r.la, r.intern))) = some (.probe, .home, s.rd DIRC_PROBE_LA, true) ∧
    t.core = s.core)

/-- A write of word 1 of a region entry is held in the buffer alone; a write of word 0 that passes the checks of a region entry stages
VALID, TID, BASE and SIZE of the written word and the buffered one, and one that fails a check stages nothing and names the entry and the check; RECALL_GO on a
closed region, with no commit pending and no recall running, starts a recall of all sets of the directory; the recall is done,
with RECALL_DONE raised, once every set is read and no recall of the region is left. (Tenants and regions) -/
def Obligations.RegionTable : Prop :=
  (∀ (s : State) (n : BitVec 12) (val : Word), s.acts pgTEN = true → Completes (.regionWord1Write n val) s fun t =>
    t.holdBuf = some (n.toNat, val) ∧ t.cfgStaged = s.cfgStaged ∧ t.body = { s.body with holdBuf := some (n.toNat, val) } ∧
    t.regs = s.regs) ∧
  (∀ (s : State) (n : BitVec 12) (val w1 : Word), s.acts pgTEN = true → s.holdBuf = some (n.toNat, w1) →
    s.regionCheck n.toNat (regionOfWords val.toNat w1.toNat) = 0 → Completes (.regionWord0Write n val) s fun t => t.holdBuf = none ∧
    t.rdNext TEN_R_VALID 0 n.toNat = bits val.toNat 0 1 ∧ t.rdNext TEN_R_TID 0 n.toNat = bits val.toNat 16 8 ∧
    t.rdNext TEN_R_BASE 0 n.toNat = bits w1.toNat 0 15 ∧ t.rdNext TEN_R_SIZE 0 n.toNat = bits w1.toNat 16 15 ∧
    t.cfgOpen = s.cfgOpen ∧ t.core = s.core) ∧
  (∀ (s : State) (n : BitVec 12) (val w1 : Word), s.acts pgTEN = true → s.holdBuf = some (n.toNat, w1) →
    s.regionCheck n.toNat (regionOfWords val.toNat w1.toNat) ≠ 0 → Completes (.regionWord0Write n val) s fun t => t.holdBuf = none ∧
    t.cfgStaged = s.cfgStaged ∧ t.cfgOpen = s.cfgOpen ∧ t.rd TEN_REG_ERR_REGION = n.toNat ∧
    t.rd TEN_REG_ERR_REASON = s.regionCheck n.toNat (regionOfWords val.toNat w1.toNat) ∧
    bit (t.rd H_INT_STAT pgTEN) I_TEN_REG_REJECT = true ∧ t.rd H_CFG_ERR pgTEN = 1 ∧ t.core = s.core) ∧
  (∀ (s : State), s.acts pgTEN = true → s.rd TEN_R_CLOSED 0 (s.rd TEN_RECALL_REGION) = 1 → s.commitPending = false →
    s.rd TEN_RECALL_BUSY = 0 → s.scan = none → Completes (.recallGo) s fun t => t.rd TEN_RECALL_BUSY = 1 ∧
    t.scan = some { Scan.idle with regionRc := some (s.rd TEN_RECALL_REGION, dirSets) } ∧ t.core = s.core) ∧
  (∀ (s : State) (c : Scan) (n : Nat), s.acts pgTEN = true → s.scan = some c → c.regionRc = some (n, 0) → n ≠ 4096 →
    s.reqs.any (fun r => r.op == .recall && r.region == n) = false → Completes (.recallDone) s fun t => t.rd TEN_RECALL_BUSY = 0 ∧
    t.scan = { c with regionRc := none }.rest ∧ bit (t.rd H_INT_STAT pgTEN) I_TEN_RECALL_DONE = true ∧ t.core = s.core)

/-- A read that carries a PGA in no move's frame and passes the checks of its region goes to the home with that region and PGA; one that
fails a check leaves the node. A walk read whose entry is a page is in the translation cache; one whose entry is invalid ends the
request, and the cache stays. (Translation and page migration; tenants and regions) -/
def Obligations.Resolution : Prop :=
  (∀ (s : State) (r : Req) (n : Nat), s.acts pgTEN = true → s.req r.id = some r → r.place = .resolving → r.op = .rdS →
    r.as1 = false → r.intern = false → s.resolveWaits r = false → s.overrideOf r.addr = none →
    okOf ((s.use [pgTEN]).tenCheck r r.addr) = some n → s.trks = [] → Completes (.resolve r.id) s fun t =>
    (t.req r.id).map (fun x => (x.place, x.region, x.pga, x.off)) = some (.home, n, r.addr, pgaOff r.addr) ∧ t.core = s.core) ∧
  (∀ (s : State) (r : Req) (st : Nat), s.acts pgTEN = true → s.req r.id = some r → r.place = .resolving → r.op = .rdS →
    r.as1 = false → s.resolveWaits r = false → s.overrideOf r.addr = none → errorOf ((s.use [pgTEN]).tenCheck r r.addr) = some st →
    Completes (.resolve r.id) s fun t => t.req r.id = none ∧ t.dir = s.dir ∧ t.core = s.core) ∧
  (∀ (s : State) (r : Req) (pga : Nat) (nc : Bool), s.acts pgXLAT = true → s.req r.id = some r → r.place = .walking → 5 ≤ r.wait ∧
    r.wait ≤ 7 → r.val ≠ 2 ^ 64 → decodeTEnt (r.wait - 4) r.val = .page pga nc → s.cacheOn r.tid = true →
    Completes (.walkDone r.id) s fun t => t.tc.any (fun l => l.maps r.tid r.addr && l.pga == pga && !l.remote) = true ∧
    t.core = s.core) ∧
  (∀ (s : State) (r : Req), s.acts pgXLAT = true → s.req r.id = some r → r.place = .walking → 4 ≤ r.wait → r.val ≠ 2 ^ 64 →
    decodeTEnt (r.wait - 4) r.val = .invalid → s.pwr.windows = 0 → Completes (.walkDone r.id) s fun t => t.req r.id = none ∧ t.tc = s.tc ∧
    t.core = s.core)

/-- XINV of a sender with the window right removes the cached leaves of its scope and no other, and waits behind an earlier message of
its source that waits; XSYNC waits, and is answered once all that it waits for has left; a window boundary while XLAT runs counts
itself and turns the count of the one cached leaf into its score, one while XLAT naps or dozes is kept for its wake, and one while it
is Off counts itself alone; a write of HPQ_TAIL within the queue moves the tail and one beyond it is a configuration error.
(Translation and page migration) -/
def Obligations.TranslationUpkeep : Prop :=
  (∀ (s : State) (port : Fin 16) (m : Msg), s.acts (pgFPORT port.val) = true → s.passes port.val m = true → m.cls.toNat = clsSys →
    m.opc = 0x88 → s.rd FPORT_MMIO_ACCESS port.val = 2 → m.sySnode = false → s.live m.sySrc = true → s.invOf m.sySrc = none →
    s.pwr.windows = 0 → Completes (.xinv port m) s fun t =>
    t.tc = s.tc.filter (fun l => !(l.tid == m.f 45 8 && (m.f 85 2 == 3 || overlaps l.page (sizeBits l.size) (m.f 53 32 * 65536) (if m.f 85 2 = 0 then 16 else if m.f 85 2 = 1 then 21 else 30)))) ∧
    t.core = s.core) ∧
  (∀ (s : State) (port : Fin 16) (m : Msg), s.acts (pgFPORT port.val) = true → s.passes port.val m = true → m.cls.toNat = clsSys →
    m.opc = 0x88 → s.rd FPORT_MMIO_ACCESS port.val = 2 → m.sySnode = false → s.live m.sySrc = true →
    (s.invOf m.sySrc).isSome = true → Completes (.xinv port m) s fun t => t.xsyncs = s.xsyncs ++ [(port.val, m, [])] ∧ t.tc = s.tc ∧
    t.core = s.core) ∧
  (∀ (s : State) (port : Fin 16) (m : Msg), s.acts (pgFPORT port.val) = true → s.passes port.val m = true → m.cls.toNat = clsSys →
    m.opc = 0x89 → s.rd FPORT_MMIO_ACCESS port.val = 2 → m.sySnode = false → s.live m.sySrc = true →
    Completes (.xsync port m) s fun t => t.xsyncs.length = s.xsyncs.length + 1 ∧
    (t.xsyncs.getLast?.map (fun x => (x.1, x.2.1))) = some (port.val, m) ∧ t.tc = s.tc ∧ t.core = s.core) ∧
  (∀ (s : State) (x : Nat × Msg × List Nat) (rest : List (Nat × Msg × List Nat)), s.acts pgXLAT = true → s.xsyncs = x :: rest →
    x.2.1.opc = 0x89 → x.2.2.all s.hasLeft = true → rest.all (fun y => y.2.1.sySrc != x.2.1.sySrc) = true →
    Completes (.xsyncDone) s fun t => t = { s with xsyncs := rest }.sysAnswer x.1 x.2.1 stOK 0) ∧
  (∀ (s : State) (l : Leaf), s.acts pgXLAT = true → s.rd H_PWR_NOW pgXLAT = 0 → s.tc = [l] → l.remote = false → Completes (.windowBoundary) s fun t =>
    t.windowCount = s.windowCount + 1 ∧
    t.tc.map (fun x => (x.cnt, x.score, x.page, x.pga)) = [(0, min 0xFFFF (l.score / 2 + l.cnt), l.page, l.pga)] ∧ t.core = s.core) ∧
  (∀ (s : State), s.acts pgXLAT = true → (s.rd H_PWR_NOW pgXLAT = 1 ∨ s.rd H_PWR_NOW pgXLAT = 2) →
    Completes (.windowBoundary) s fun t => t = { s with pwr := { s.pwr with windows := s.pwr.windows + 1 } }) ∧
  (∀ (s : State), s.acts pgXLAT = true → s.rd H_PWR_NOW pgXLAT = 3 → Completes (.windowBoundary) s fun t =>
    t = { s with windowCount := s.windowCount + 1 }) ∧
  (∀ (s : State) (val : Word), s.acts pgXLAT = true →
    (bits val.toNat 0 10 + 1024 - s.hpqTail) % 1024 ≤ (s.hpqHead + 1024 - s.hpqTail) % 1024 →
    Completes (.hpqTailWrite val) s fun t => t.hpqTail = bits val.toNat 0 10 ∧ t.tc = s.tc ∧ t.core = s.core) ∧
  (∀ (s : State) (val : Word), s.acts pgXLAT = true →
    (s.hpqHead + 1024 - s.hpqTail) % 1024 < (bits val.toNat 0 10 + 1024 - s.hpqTail) % 1024 →
    Completes (.hpqTailWrite val) s fun t => t.hpqTail = s.hpqTail ∧ t.rd H_CFG_ERR pgXLAT = 1 ∧ t.core = s.core)

/-- GO on an idle slot begins the walk of its TPA, with a read of the tenant's first table waiting at the home, and is refused with reason
1 where the tenant has no tables; RESUME of a stuck move asks the destination; ABANDON drops a stuck move; RELEASE of a done move
begins the walk of its TPA; each line transaction issues the next line; an acknowledgement timer acknowledges what is stored; a move
without progress for MIGR_TIMEOUT sticks, and one whose start is not answered is refused with reason 0xB.
(Translation and page migration) -/
def Obligations.MoveCommands : Prop :=
  (∀ (s : State) (g : Nat), s.acts pgMIGR = true → (s.move (s.rd MIGR_MOVE_SEL)).state = .idle →
    (s.move (s.rd MIGR_MOVE_SEL)).tpa.toNat / 2 ^ 48 = 0 → s.rd XLAT_ROOT_XEN 0 (s.move (s.rd MIGR_MOVE_SEL)).tid ≠ 0 →
    s.tableRegion s.openEpoch (tentAddr 1 (s.rd XLAT_ROOT_BASE 0 (s.move (s.rd MIGR_MOVE_SEL)).tid) (s.move (s.rd MIGR_MOVE_SEL)).tpa.toNat) = some g →
    Completes (.go) s fun t => t.move (s.rd MIGR_MOVE_SEL) = { s.move (s.rd MIGR_MOVE_SEL) with state := .starting, walking := true } ∧
    t.nextId = s.nextId + 1 ∧ t.reqs.length = s.reqs.length + 1 ∧
    (t.reqs.getLast?.map (fun r => (r.id, r.op, r.place, r.gen, r.mid))) = some (s.nextId, .walk, .home, mwGo, s.rd MIGR_MOVE_SEL) ∧
    t.core = s.core) ∧
  (∀ (s : State), s.acts pgMIGR = true → (s.move (s.rd MIGR_MOVE_SEL)).state = .idle →
    s.rd XLAT_ROOT_XEN 0 (s.move (s.rd MIGR_MOVE_SEL)).tid = 0 → Completes (.go) s fun t =>
    (t.move (s.rd MIGR_MOVE_SEL)).state = .idle ∧ (t.move (s.rd MIGR_MOVE_SEL)).reason = 1 ∧ t.reqs = s.reqs ∧
    bit (t.rd H_INT_STAT pgMIGR) I_MIGR_MOVE_REFUSED = true ∧ t.core = s.core) ∧
  (∀ (s : State), s.acts pgMIGR = true → (s.move (s.rd MIGR_MOVE_SEL)).state = .stuck → Completes (.resume) s fun t =>
    (t.move (s.rd MIGR_MOVE_SEL)).resuming = true ∧ (t.move (s.rd MIGR_MOVE_SEL)).state = .stuck ∧
    (t.move (s.rd MIGR_MOVE_SEL)).progress = s.ao ∧ t.core = s.core) ∧
  (∀ (s : State), s.acts pgMIGR = true →
    ((s.move (s.rd MIGR_MOVE_SEL)).state = .stuck ∨ (s.move (s.rd MIGR_MOVE_SEL)).state = .stuckIn) →
    Completes (.abandon) s fun t => (t.move (s.rd MIGR_MOVE_SEL)).state = .idle ∧ t.core = s.core) ∧
  (∀ (s : State) (g : Nat), s.acts pgMIGR = true → (s.move (s.rd MIGR_MOVE_SEL)).state = .done →
    (s.move (s.rd MIGR_MOVE_SEL)).walking = false → (s.move (s.rd MIGR_MOVE_SEL)).tpa.toNat / 2 ^ 48 = 0 →
    s.rd XLAT_ROOT_XEN 0 (s.move (s.rd MIGR_MOVE_SEL)).tid ≠ 0 →
    s.tableRegion s.openEpoch (tentAddr 1 (s.rd XLAT_ROOT_BASE 0 (s.move (s.rd MIGR_MOVE_SEL)).tid) (s.move (s.rd MIGR_MOVE_SEL)).tpa.toNat) = some g →
    Completes (.release) s fun t => t.move (s.rd MIGR_MOVE_SEL) = { s.move (s.rd MIGR_MOVE_SEL) with walking := true } ∧
    t.nextId = s.nextId + 1 ∧
    (t.reqs.getLast?.map (fun r => (r.id, r.op, r.place, r.gen, r.mid))) = some (s.nextId, .walk, .home, mwRelease, s.rd MIGR_MOVE_SEL) ∧
    t.core = s.core) ∧
  (∀ (s : State) (mid : Fin 16), s.acts pgMIGR = true → (s.move mid.val).state = .copying →
    (s.move mid.val).issued < (s.move mid.val).lines → (s.move mid.val).issued - (s.move mid.val).doneL < s.rd MIGR_WINDOW →
    Completes (.migrLineTxn mid) s fun t => (t.move mid.val).issued = (s.move mid.val).issued + 1 ∧ t.nextId = s.nextId + 1 ∧
    t.reqs.length = s.reqs.length + 1 ∧ t.core = s.core) ∧
  (∀ (s : State) (mid : Fin 16), s.acts pgMIGR = true → (s.move mid.val).incoming = true →
    (s.move mid.val).acked < (s.move mid.val).doneL → Completes (.migrAckTimer mid) s fun t =>
    (t.move mid.val).acked = (s.move mid.val).doneL ∧ t.core = s.core) ∧
  (∀ (s : State) (mid : Fin 16), s.acts pgMIGR = true → (s.move mid.val).state = .incoming →
    (s.move mid.val).progress + s.rd MIGR_MIGR_TIMEOUT ≤ s.ao → Completes (.moveTimeout mid) s fun t =>
    (t.move mid.val).state = .stuckIn ∧ bit (t.rd H_INT_STAT pgMIGR) I_MIGR_MOVE_STUCK = true ∧ t.core = s.core) ∧
  (∀ (s : State) (mid : Fin 16), s.acts pgMIGR = true → (s.move mid.val).state = .starting → (s.move mid.val).walking = false →
    (s.move mid.val).progress + s.rd MIGR_MIGR_TIMEOUT ≤ s.ao → Completes (.moveTimeout mid) s fun t =>
    (t.move mid.val).state = .idle ∧ (t.move mid.val).reason = 0xB ∧ t.core = s.core)

/-- MIGR_START begins the walk of its TPA through this node's tables, with a read of the tenant's first table waiting at the home, and one
with RESUME of a move that is known makes it incoming again from the line that it has received; MIGR_LINE with the next expected line
is taken, and its store goes to the home; MIGR_ACK advances DONE of the source's move; MIGR_DONE frees the destination's slot.
(Translation and page migration) -/
def Obligations.MoveMessages : Prop :=
  (∀ (s : State) (port : Fin 16) (m : Msg) (g : Nat), s.acts (pgFPORT port.val) = true → s.passes port.val m = true →
    m.cls.toNat = clsSys → m.opc = 0xA0 → m.f 76 1 = 0 → bits m.payload 0 64 / 2 ^ 48 = 0 →
    s.rd XLAT_ROOT_XEN 0 (m.f 65 8) ≠ 0 →
    s.tableRegion s.openEpoch (tentAddr 1 (s.rd XLAT_ROOT_BASE 0 (m.f 65 8)) (bits m.payload 0 64)) = some g →
    Completes (.migrStart port m) s fun t => t.nextId = s.nextId + 1 ∧ t.moves = s.moves ∧
    (t.reqs.getLast?.map (fun r => (r.id, r.op, r.place, r.gen, r.mid))) = some (s.nextId, .walk, .home, mwStart, m.f 45 4) ∧
    (t.reqs.getLast?.map (fun r => (r.aid, r.passes, r.pga, r.txid))) = some (m.srcNid, m.f 73 2, bits m.payload 64 64, m.syTxid) ∧
    t.core = s.core) ∧
  (∀ (s : State) (port : Fin 16) (m : Msg) (n : Nat) (x : Move), s.acts (pgFPORT port.val) = true → s.passes port.val m = true →
    m.cls.toNat = clsSys → m.opc = 0xA0 → m.f 76 1 = 1 → s.incomingOf m.srcNid (m.f 45 4) = some (n, x) →
    Completes (.migrStart port m) s fun t => (t.move n).state = .incoming ∧ (t.move n).issued = x.doneL ∧
    (t.move n).doneL = x.doneL ∧ (t.move n).progress = s.ao ∧ t.core = s.core) ∧
  (∀ (s : State) (port : Fin 16) (m : Msg) (n : Nat) (x : Move), s.acts (pgFPORT port.val) = true → s.passes port.val m = true →
    m.cls.toNat = clsSys → m.opc = 0xA1 → s.incomingOf m.srcNid (m.f 45 4) = some (n, x) → x.state = .incoming →
    m.f 49 16 = x.issued → m.f 77 1 = 0 → Completes (.migrLine port m) s fun t => (t.move n).issued = x.issued + 1 ∧
    t.nextId = s.nextId + 1 ∧ (t.reqs.getLast?.map (fun r => (r.id, r.op, r.place, r.off, r.data))) =
      some (s.nextId, .migrStore, .home, pgaOff x.destPga.toNat + 64 * x.issued, m.line) ∧ t.core = s.core) ∧
  (∀ (s : State) (port : Fin 16) (m : Msg), s.acts (pgFPORT port.val) = true → s.passes port.val m = true → m.cls.toNat = clsSys →
    m.opc = 0xA2 → (s.move (m.f 45 4)).sourceOf m.srcNid = true → (s.move (m.f 45 4)).state = .copying →
    (s.move (m.f 45 4)).doneL < m.f 49 16 → m.f 49 16 ≤ (s.move (m.f 45 4)).issued → m.f 49 16 < (s.move (m.f 45 4)).lines →
    Completes (.migrAck port m) s fun t => (t.move (m.f 45 4)).doneL = m.f 49 16 ∧ (t.move (m.f 45 4)).state = .copying ∧
    t.core = s.core) ∧
  (∀ (s : State) (port : Fin 16) (m : Msg) (n : Nat) (x : Move), s.acts (pgFPORT port.val) = true → s.passes port.val m = true →
    m.cls.toNat = clsSys → m.opc = 0xA3 → s.incomingOf m.srcNid (m.f 45 4) = some (n, x) → Completes (.migrDone port m) s fun t =>
    (t.move n).state = .idle ∧ t.core = s.core)

/-- A queue with room takes the refresh or the write that waits for it next, and taking it changes no byte of DRAM; with no replay under
way, a WR issued by a write entry stores its word at its line's place in the row and every other byte reads as before, and an RD of a
refreshed segment issued by a rescan's entry stores nothing and keeps the 80 bytes sensed until they return; a status word that
returns sets the stack's temperature. (Memory channels) -/
def Obligations.QueuesAndCommands : Prop :=
  (∀ (s : State) (q : Fin 96) (e : Entry), s.acts (pgMCH (q.val / 2)) = true → (s.queue q.val).entries.length < 64 →
    (s.queue q.val).nextWaiting = some e → e.kind = .refresh → Completes (.queueAccept q) s fun t =>
    (t.queue q.val).entries = (s.queue q.val).entries ++ [(s.use [pgMCH (q.val / 2)]).settleEntry q.val e] ∧
    (t.queue q.val).waiting = dropFirst (fun x => x.ready == e.ready && x.kind == e.kind) (s.queue q.val).waiting ∧ t.core = s.core) ∧
  (∀ (s : State) (q : Fin 96) (e : Entry), s.acts (pgMCH (q.val / 2)) = true → (s.queue q.val).entries.length < 64 →
    (s.queue q.val).nextWaiting = some e → e.kind = .write → e.req = none → e.mirror = false → Completes (.queueAccept q) s fun t =>
    (t.queue q.val).entries.length = (s.queue q.val).entries.length + 1 ∧
    ((t.queue q.val).entries.getLast?.map (fun x => (x.kind, x.off))) = some (.write, e.off) ∧ t.core = s.core ∧ t.reqs = s.reqs) ∧
  (∀ (s : State) (q : Fin 96) (e : Entry) (rest : List Entry) (bank row col : Nat), s.acts (pgMCH (q.val / 2)) = true →
    s.mchRuns (q.val / 2) = true → (s.queue q.val).redo = [] → (s.queue q.val).entries = e :: rest → e.kind = .write →
    s.nextCmd q.val e = .cmd (.wr bank row col) → s.Inv → Completes (.mchCommandIssue q) s fun t =>
    t.dram = Memory.writeN s.dram (lineAddr q.val bank row col) (e.words[0]?.getD []) ∧
    ((∀ x : Nat, x < lineAddr q.val bank row col ∨ lineAddr q.val bank row col + (e.words[0]?.getD []).length ≤ x → Memory.read t.dram x = Memory.read s.dram x)) ∧
    t.opts = s.opts ∧ t.fuses = s.fuses) ∧
  (∀ (s : State) (q : Fin 96) (e : Entry) (rest : List Entry) (bank row col : Nat), s.acts (pgMCH (q.val / 2)) = true →
    s.mchRuns (q.val / 2) = true → (s.queue q.val).redo = [] → (s.queue q.val).entries = e :: rest → e.kind = .read .rescan →
    (s.queue q.val).rets = [] → s.refreshed (q.val / 2) (row / 512) = true → s.nextCmd q.val e = .cmd (.rd bank row col) → Completes (.mchCommandIssue q) s fun t => t.dram = s.dram ∧
    (t.queue q.val).rets.map (fun r => r.words) = [[Memory.readN s.dram (lineAddr q.val bank row col) 80]]) ∧
  (∀ (s : State) (q : Fin 96) (r : Ret) (rest : List Ret) (temp : BitVec 16), s.acts (pgMCH (q.val / 2)) = true →
    (s.queue q.val).rets = r :: rest → r.whole = true → r.ent.kind = .status →
    Completes (.readDataReturn q (.status temp true)) s fun t => t.rd MCH_TEMP_NOW (q.val / 2) = temp.toNat ∧
    t.rd MCH_TEMP_VALID (q.val / 2) = 1 ∧ (t.queue q.val).rets = rest ∧ t.core = s.core)

/-- Refresh and status entries are placed for a channel whose training has reached step 5 and that has not stopped, refresh not while the
stack is in self-refresh, and retrain entries for a trained one; good rails start the training of every stack that has not begun;
training that ends leaves a stack whose contents are not kept cleared and its channel ready, a step that fails for the first time
is begun again, and one that fails for the second time in a row stops the channel; a parity alert is counted and begins a replay
with VSTS, VCLR and PREab; an idle channel in Nap places its power entries. (Memory channels) -/
def Obligations.ChannelWork : Prop :=
  (∀ (s : State) (ch : Fin 48), s.acts (pgMCH ch.val) = true → s.mchRuns ch.val = true → s.selfRefresh ch.val = false →
    Completes (.refreshPlacement ch) s fun t => (t.queue (2 * ch.val)).waiting.length = (s.queue (2 * ch.val)).waiting.length + 1 ∧
    (t.queue (2 * ch.val + 1)).waiting.length = (s.queue (2 * ch.val + 1)).waiting.length + 1 ∧
    ((t.queue (2 * ch.val)).waiting.getLast?.map (fun e => e.kind)) = some .refresh ∧ t.regs = s.regs ∧ t.core = s.core) ∧
  (∀ (s : State) (ch : Fin 48), s.acts (pgMCH ch.val) = true → s.mchRuns ch.val = true → Completes (.statusPlacement ch) s fun t =>
    (t.queue (2 * ch.val)).waiting.length = (s.queue (2 * ch.val)).waiting.length + 1 ∧
    ((t.queue (2 * ch.val)).waiting.getLast?.map (fun e => e.kind)) = some .status ∧ t.regs = s.regs ∧ t.core = s.core) ∧
  (∀ (s : State) (ch : Fin 48), s.acts (pgMCH ch.val) = true → s.mchTrained ch.val = true → Completes (.retrainPlacement ch) s fun t =>
    ((t.queue (2 * ch.val)).waiting.getLast?.map (fun e => e.kind)) = some .retrain ∧
    ((t.queue (2 * ch.val + 1)).waiting.getLast?.map (fun e => e.kind)) = some .retrain ∧ t.regs = s.regs ∧ t.core = s.core) ∧
  (∀ (s : State) (ch : Fin 48), s.acts pgTMCB = true → Completes (.stackRailsGood) s fun t =>
    t.rd MCH_TRAIN_STATE ch.val = (if s.rd MCH_TRAIN_STATE ch.val = 0 then 1 else s.rd MCH_TRAIN_STATE ch.val) ∧ t.core = s.core) ∧
  (∀ (s : State) (ch : Fin 48) (idPage : Bytes), s.acts (pgMCH ch.val) = true → s.rd MCH_TRAIN_STATE ch.val ≠ 0 →
    s.rd MCH_TRAIN_STATE ch.val ≠ 0xF → s.rd WARDEN_MEM_KEPT = 0 → idPageOk idPage = true →
    Completes (.trainingDone ch idPage none) s fun t => t.rd MCH_TRAIN_STATE ch.val = 0xF ∧ t.rd H_COND (pgMCH ch.val) = 1 ∧
    t.dram = Memory.clear s.dram (2 * ch.val * (16 * 512 * 523 * rowBytes)) (2 * (16 * 512 * 523 * rowBytes)) ∧ t.opts = s.opts) ∧
  (∀ (s : State) (ch : Fin 48) (idPage : Bytes) (k : BitVec 4), s.acts (pgMCH ch.val) = true → s.rd MCH_TRAIN_STATE ch.val ≠ 0 →
    s.rd MCH_TRAIN_STATE ch.val ≠ 0xF → 1 ≤ k.toNat → k.toNat ≤ 11 → (s.mch ch.val).retried = false →
    Completes (.trainingDone ch idPage (some k)) s fun t => t.rd MCH_TRAIN_STATE ch.val = k.toNat ∧ (t.mch ch.val).retried = true ∧
    (t.mch ch.val).step = k.toNat ∧ t.core = s.core) ∧
  (∀ (s : State) (ch : Fin 48) (idPage : Bytes) (k : BitVec 4), s.acts (pgMCH ch.val) = true → s.rd MCH_TRAIN_STATE ch.val ≠ 0 →
    s.rd MCH_TRAIN_STATE ch.val ≠ 0xF → 1 ≤ k.toNat → k.toNat ≤ 11 → (s.mch ch.val).retried = true →
    (s.mch ch.val).step = k.toNat → Completes (.trainingDone ch idPage (some k)) s fun t => t.rd H_COND (pgMCH ch.val) = 2 ∧
    t.rd MCH_TRAIN_FAIL_STEP ch.val = k.toNat ∧ bit (t.rd H_INT_STAT (pgMCH ch.val)) I_MCH_TRAIN_FAIL = true ∧ t.core = s.core) ∧
  (∀ (s : State) (q : Fin 96) (count : BitVec 8), s.acts (pgMCH (q.val / 2)) = true → s.mchRuns (q.val / 2) = true →
    (s.queue q.val).issued ≠ 0 → Completes (.parityAlert q count) s fun t =>
    t.rd MCH_CA_ALERT (q.val / 2) = min (2 ^ MCH_CA_ALERT.width - 1) (s.rd MCH_CA_ALERT (q.val / 2) + 1) ∧
    bit (t.rd H_INT_STAT (pgMCH (q.val / 2))) I_MCH_ALERT = true ∧
    ((t.queue q.val).redo.head?.map (fun p => p.cmds)) = some [.vsts, .vclr, .preab] ∧ t.core = s.core) ∧
  (∀ (s : State) (ch : Fin 48), s.acts (pgMCH ch.val) = true → s.mchTrained ch.val = true → s.rd H_PWR_NOW (pgMCH ch.val) = 1 →
    s.queue (2 * ch.val) = Queue.fresh → s.queue (2 * ch.val + 1) = Queue.fresh → Completes (.mchPowerEntry ch) s fun t =>
    (t.queue (2 * ch.val)).entries.map (fun e => e.kind) = [.power false] ∧
    (t.queue (2 * ch.val + 1)).entries.map (fun e => e.kind) = [.power false] ∧ t.core = s.core)

/-- The end of a channel's segment clears is reported; a flush places a re-encode for the one stale row; a slice boundary counts itself
and keeps no page without an event that is not lasting; PT_CLEAR and BT_CLEAR end the lasting state of the selected page and bank;
patrol is placed in a queue at a line whose segment is refreshed, in no spare in use and in no stale row; the scrub interval halves
after a second with errors and doubles after one without, within its bounds, and never exceeds the limit; ADD of the selected
entry's fields begins its copy where they pass the checks, and is refused with the reason where they do not; each copy placement
advances the copy; a write of TAIL frees the places passed and one beyond HEAD is a configuration error. (ECC, error logging and
retirement; memory channels) -/
def Obligations.RetirementAndErrors : Prop :=
  (∀ (s : State) (ch : Fin 48), s.acts (pgMCH ch.val) = true → (s.mch ch.val).clears = true → (s.queue (2 * ch.val)).entries = [] →
    (s.queue (2 * ch.val)).waiting = [] → (s.queue (2 * ch.val + 1)).entries = [] → (s.queue (2 * ch.val + 1)).waiting = [] →
    Completes (.segClearDone ch) s fun t => (t.mch ch.val).clears = false ∧
    bit (t.rd H_INT_STAT (pgMCH ch.val)) I_MCH_SEG_CLEAR_DONE = true ∧ t.core = s.core) ∧
  (∀ (s : State) (q bank row : Nat) (mask : BitVec 128), s.acts pgRAS = true →
    s.mchs.flatMap (fun m => m.2.stale) = [(q, bank, row, mask)] → Completes (.staleFlush) s fun t =>
    ((t.queue q).waiting.getLast?.map (fun e => (e.kind, e.bank, e.srow))) = some (.reencode, bank, row) ∧ t.regs = s.regs ∧
    t.core = s.core) ∧
  (∀ (s : State), s.acts pgRAS = true → Completes (.sliceBoundary) s fun t =>
    t.rd RAS_SLICE_NOW = min (2 ^ RAS_SLICE_NOW.width - 1) (s.rd RAS_SLICE_NOW + 1) ∧
    t.ras.pages.all (fun p => p.2.lasting || p.2.count != 0) = true ∧ t.core = s.core) ∧
  (∀ (s : State) (e : PageEnt), s.acts pgRAS = true → Tab.get? s.ras.pages (s.rd RAS_PT_SEL) = some e → e.count ≠ 0 →
    Completes (.ptClear) s fun t => Tab.get? t.ras.pages (s.rd RAS_PT_SEL) = some { e with lasting := false } ∧ t.core = s.core) ∧
  (∀ (s : State) (e : PageEnt), s.acts pgRAS = true → Tab.get? s.ras.pages (s.rd RAS_PT_SEL) = some e → e.count = 0 →
    Completes (.ptClear) s fun t => t.ras.pages.all (fun p => p.1 != s.rd RAS_PT_SEL) = true ∧ t.core = s.core) ∧
  (∀ (s : State) (e : BankEnt), s.acts pgRAS = true → Tab.get? s.ras.banks (s.rd RAS_BT_SEL) = some e →
    Completes (.btClear) s fun t => Tab.get? t.ras.banks (s.rd RAS_BT_SEL) = some { e with lasting := false, wide := false } ∧
    t.regs = s.regs ∧ t.core = s.core) ∧
  (∀ (s : State) (q : Fin 96), s.acts pgRAS = true →
    s.patrols q.val (Tab.get s.ras.cursor q.val 0 / 128) = true →
    s.staleMask q.val (Tab.get s.ras.cursor q.val 0 % 2 ^ 29 / 128 % 16) (Tab.get s.ras.cursor q.val 0 % 2 ^ 29 / 128 / 16) = none →
    Completes (.patrolPlacement) s fun t =>
    ((t.queue q.val).waiting.getLast?.map (fun e => (e.kind, e.col))) = some (.scrub srcPatrol, Tab.get s.ras.cursor q.val 0 % 2 ^ 29 % 128) ∧
    Tab.get t.ras.cursor q.val 0 = Tab.get s.ras.cursor q.val 0 % 2 ^ 29 + 1 ∧ t.core = s.core) ∧
  (∀ (s : State), s.acts pgRAS = true → Completes (.scrubRateStep) s fun t =>
    t.rd RAS_SCRUB_INT_NOW = min (clamp (s.rd RAS_SCRUB_INT_FLOOR) (s.rd RAS_SCRUB_INT_CEIL) (if 0 < s.ras.errSec then s.rd RAS_SCRUB_INT_NOW / 2 else s.rd RAS_SCRUB_INT_NOW * 2)) scrubLimit ∧
    t.ras.errSec = 0 ∧ t.core = s.core) ∧
  (∀ (s : State) (i : Nat), s.acts pgRAS = true → s.rd RAS_RMAP_SEL = i →
    s.rmapCheck i (s.rmapField i 0) (s.rmapField i 7) (s.rmapField i 11) (s.rmapField i 20) = 0 →
    Completes (.add .retireMap) s fun t => t.ras.running = some i ∧
    (Tab.get? t.ras.rmap i).map (fun e => (e.q, e.bank, e.sa, e.spare, e.state)) = some (s.rmapField i 0, s.rmapField i 7, s.rmapField i 11, s.rmapField i 20, 1) ∧
    t.core = s.core) ∧
  (∀ (s : State) (i : Nat), s.acts pgRAS = true → s.rd RAS_RMAP_SEL = i →
    s.rmapCheck i (s.rmapField i 0) (s.rmapField i 7) (s.rmapField i 11) (s.rmapField i 20) ≠ 0 →
    Completes (.add .retireMap) s fun t =>
    t.rd RAS_RMAP_RESULT = s.rmapCheck i (s.rmapField i 0) (s.rmapField i 7) (s.rmapField i 11) (s.rmapField i 20) ∧
    bit (t.rd H_INT_STAT pgRAS) I_RAS_RMAP_REFUSED = true ∧ t.body = s.body) ∧
  (∀ (s : State) (i : Nat) (e : RmapEnt), s.acts pgRAS = true → s.ras.running = some i → Tab.get? s.ras.rmap i = some e →
    s.ras.clearing = false → e.placed < 512 → (e.placed ≠ 0 ∨ s.reserved (saKey e.q e.bank e.sa) = false) →
    Completes (.rmapCopyPlace) s fun t => Tab.get? t.ras.rmap i = some { e with placed := e.placed + 1 } ∧
    ((t.queue e.q).waiting.getLast?.map (fun x => (x.kind, x.srow))) = some (.copy i, e.sa * 512 + e.placed) ∧ t.regs = s.regs ∧
    t.core = s.core) ∧
  (∀ (s : State) (val : Word), s.acts pgEVLOG = true → (bits val.toNat 0 10 + evPlaces - s.evlog.tail) % evPlaces ≤ s.evlog.used →
    s.evlog.lost = 0 → Completes (.evlogTailWrite val) s fun t =>
    t.evlog.tail = (s.evlog.tail + (bits val.toNat 0 10 + evPlaces - s.evlog.tail) % evPlaces) % evPlaces ∧
    t.evlog.used = s.evlog.used - (bits val.toNat 0 10 + evPlaces - s.evlog.tail) % evPlaces ∧ t.body = s.body) ∧
  (∀ (s : State) (val : Word), s.acts pgEVLOG = true → s.evlog.used < (bits val.toNat 0 10 + evPlaces - s.evlog.tail) % evPlaces →
    Completes (.evlogTailWrite val) s fun t => t.evlog.tail = s.evlog.tail ∧ t.rd H_CFG_ERR pgEVLOG = 1 ∧ t.body = s.body)

/-- RESCAN_GO with none running begins a rescan of the selected bank subarray; one that runs is not disturbed and the write is a
configuration error; the rescan is done, with RESCAN_DONE raised, once every line has returned, and clears the overflow of its
bank subarray where every poisoned line found an entry. (Row compute) -/
def Obligations.PoisonRescan : Prop :=
  (∀ (s : State), s.acts pgRDL = true → s.rdl.rescan = none → Completes (.rescanGo) s fun t =>
    t.rdl.rescan = some { q := s.rd RDL_RS_QUEUE, bank := s.rd RDL_RS_BANK, sa := s.rd RDL_RS_SUBARRAY, left := 512 * 128, missed := false } ∧
    t.regs = s.regs ∧ t.core = s.core) ∧
  (∀ (s : State), s.acts pgRDL = true → s.rdl.rescan.isSome = true → Completes (.rescanGo) s fun t => t.rdl = s.rdl ∧
    t.rd H_CFG_ERR pgRDL = 1 ∧ t.body = s.body) ∧
  (∀ (s : State) (r : Rescan), s.acts pgRDL = true → s.rdl.rescan = some r → r.left = 0 → r.missed = false →
    Completes (.rescanDone) s fun t => t.rdl.rescan = none ∧ t.rdl.ovf.contains (saKey r.q r.bank r.sa) = false ∧
    t.rd RDL_RESCAN_OVF = 0 ∧ bit (t.rd H_INT_STAT pgRDL) I_RDL_RESCAN_DONE = true ∧ t.core = s.core)

/-- A micro-op of LI, LIH, ADDI, ADD, SUB, AND, OR, XOR, SHLI, SHRI or MOVLC that the engine serves writes its result, modulo 2^32, to
register A and to no other, moves the PC one word on modulo 2^14, and leaves loop counters, stack, open group, DRAM, options,
fuses and epochs unchanged. (Recipe Engines) -/
def Obligations.MicroOpRegisters : Prop :=
  (∀ (s : State) (rce : Fin 48) (ctx : Fin 8) (w : Nat) (b : Bake), s.acts (pgRCE rce.val) = true →
    s.executes rce.val ctx.val w b = true → uOpc w = 16 → Completes (.li rce ctx) s fun t =>
    (t.ctx rce.val ctx.val).x = setNth (s.ctx rce.val ctx.val).x (uA w) (BitVec.ofNat 32 (uImm w)) ∧
    (t.ctx rce.val ctx.val).pc = ((s.ctx rce.val ctx.val).pc + 1) % 0x4000 ∧
    (t.ctx rce.val ctx.val).lc = (s.ctx rce.val ctx.val).lc ∧ (t.ctx rce.val ctx.val).stack = (s.ctx rce.val ctx.val).stack ∧
    (t.ctx rce.val ctx.val).group = (s.ctx rce.val ctx.val).group ∧ t.core = s.core) ∧
  (∀ (s : State) (rce : Fin 48) (ctx : Fin 8) (w : Nat) (b : Bake), s.acts (pgRCE rce.val) = true →
    s.executes rce.val ctx.val w b = true → uOpc w = 17 → Completes (.lih rce ctx) s fun t =>
    (t.ctx rce.val ctx.val).x = setNth (s.ctx rce.val ctx.val).x (uA w) (BitVec.ofNat 32 (uImm w * 2 ^ 16 + ((s.ctx rce.val ctx.val).reg (uA w)) % 2 ^ 16)) ∧
    (t.ctx rce.val ctx.val).pc = ((s.ctx rce.val ctx.val).pc + 1) % 0x4000 ∧
    (t.ctx rce.val ctx.val).lc = (s.ctx rce.val ctx.val).lc ∧ (t.ctx rce.val ctx.val).stack = (s.ctx rce.val ctx.val).stack ∧
    (t.ctx rce.val ctx.val).group = (s.ctx rce.val ctx.val).group ∧ t.core = s.core) ∧
  (∀ (s : State) (rce : Fin 48) (ctx : Fin 8) (w : Nat) (b : Bake), s.acts (pgRCE rce.val) = true →
    s.executes rce.val ctx.val w b = true → uOpc w = 18 → Completes (.addi rce ctx) s fun t =>
    (t.ctx rce.val ctx.val).x = setNth (s.ctx rce.val ctx.val).x (uA w) (BitVec.ofNat 32 (unsgn 32 ((((s.ctx rce.val ctx.val).reg (uB w)) : Int) + sgn 16 (uImm w)))) ∧
    (t.ctx rce.val ctx.val).pc = ((s.ctx rce.val ctx.val).pc + 1) % 0x4000 ∧
    (t.ctx rce.val ctx.val).lc = (s.ctx rce.val ctx.val).lc ∧ (t.ctx rce.val ctx.val).stack = (s.ctx rce.val ctx.val).stack ∧
    (t.ctx rce.val ctx.val).group = (s.ctx rce.val ctx.val).group ∧ t.core = s.core) ∧
  (∀ (s : State) (rce : Fin 48) (ctx : Fin 8) (w : Nat) (b : Bake), s.acts (pgRCE rce.val) = true →
    s.executes rce.val ctx.val w b = true → uOpc w = 19 → Completes (.add (.microOp rce ctx)) s fun t =>
    (t.ctx rce.val ctx.val).x = setNth (s.ctx rce.val ctx.val).x (uA w) (BitVec.ofNat 32 (((s.ctx rce.val ctx.val).reg (uB w)) + ((s.ctx rce.val ctx.val).reg (uC w)))) ∧
    (t.ctx rce.val ctx.val).pc = ((s.ctx rce.val ctx.val).pc + 1) % 0x4000 ∧
    (t.ctx rce.val ctx.val).lc = (s.ctx rce.val ctx.val).lc ∧ (t.ctx rce.val ctx.val).stack = (s.ctx rce.val ctx.val).stack ∧
    (t.ctx rce.val ctx.val).group = (s.ctx rce.val ctx.val).group ∧ t.core = s.core) ∧
  (∀ (s : State) (rce : Fin 48) (ctx : Fin 8) (w : Nat) (b : Bake), s.acts (pgRCE rce.val) = true →
    s.executes rce.val ctx.val w b = true → uOpc w = 20 → Completes (.sub rce ctx) s fun t =>
    (t.ctx rce.val ctx.val).x = setNth (s.ctx rce.val ctx.val).x (uA w) (BitVec.ofNat 32 (unsgn 32 ((((s.ctx rce.val ctx.val).reg (uB w)) : Int) - ((s.ctx rce.val ctx.val).reg (uC w))))) ∧
    (t.ctx rce.val ctx.val).pc = ((s.ctx rce.val ctx.val).pc + 1) % 0x4000 ∧
    (t.ctx rce.val ctx.val).lc = (s.ctx rce.val ctx.val).lc ∧ (t.ctx rce.val ctx.val).stack = (s.ctx rce.val ctx.val).stack ∧
    (t.ctx rce.val ctx.val).group = (s.ctx rce.val ctx.val).group ∧ t.core = s.core) ∧
  (∀ (s : State) (rce : Fin 48) (ctx : Fin 8) (w : Nat) (b : Bake), s.acts (pgRCE rce.val) = true →
    s.executes rce.val ctx.val w b = true → uOpc w = 21 → Completes (.andOp rce ctx) s fun t =>
    (t.ctx rce.val ctx.val).x = setNth (s.ctx rce.val ctx.val).x (uA w) (BitVec.ofNat 32 (((s.ctx rce.val ctx.val).reg (uB w)) &&& ((s.ctx rce.val ctx.val).reg (uC w)))) ∧
    (t.ctx rce.val ctx.val).pc = ((s.ctx rce.val ctx.val).pc + 1) % 0x4000 ∧
    (t.ctx rce.val ctx.val).lc = (s.ctx rce.val ctx.val).lc ∧ (t.ctx rce.val ctx.val).stack = (s.ctx rce.val ctx.val).stack ∧
    (t.ctx rce.val ctx.val).group = (s.ctx rce.val ctx.val).group ∧ t.core = s.core) ∧
  (∀ (s : State) (rce : Fin 48) (ctx : Fin 8) (w : Nat) (b : Bake), s.acts (pgRCE rce.val) = true →
    s.executes rce.val ctx.val w b = true → uOpc w = 22 → Completes (.orOp rce ctx) s fun t =>
    (t.ctx rce.val ctx.val).x = setNth (s.ctx rce.val ctx.val).x (uA w) (BitVec.ofNat 32 (((s.ctx rce.val ctx.val).reg (uB w)) ||| ((s.ctx rce.val ctx.val).reg (uC w)))) ∧
    (t.ctx rce.val ctx.val).pc = ((s.ctx rce.val ctx.val).pc + 1) % 0x4000 ∧
    (t.ctx rce.val ctx.val).lc = (s.ctx rce.val ctx.val).lc ∧ (t.ctx rce.val ctx.val).stack = (s.ctx rce.val ctx.val).stack ∧
    (t.ctx rce.val ctx.val).group = (s.ctx rce.val ctx.val).group ∧ t.core = s.core) ∧
  (∀ (s : State) (rce : Fin 48) (ctx : Fin 8) (w : Nat) (b : Bake), s.acts (pgRCE rce.val) = true →
    s.executes rce.val ctx.val w b = true → uOpc w = 23 → Completes (.xorOp rce ctx) s fun t =>
    (t.ctx rce.val ctx.val).x = setNth (s.ctx rce.val ctx.val).x (uA w) (BitVec.ofNat 32 (((s.ctx rce.val ctx.val).reg (uB w)) ^^^ ((s.ctx rce.val ctx.val).reg (uC w)))) ∧
    (t.ctx rce.val ctx.val).pc = ((s.ctx rce.val ctx.val).pc + 1) % 0x4000 ∧
    (t.ctx rce.val ctx.val).lc = (s.ctx rce.val ctx.val).lc ∧ (t.ctx rce.val ctx.val).stack = (s.ctx rce.val ctx.val).stack ∧
    (t.ctx rce.val ctx.val).group = (s.ctx rce.val ctx.val).group ∧ t.core = s.core) ∧
  (∀ (s : State) (rce : Fin 48) (ctx : Fin 8) (w : Nat) (b : Bake), s.acts (pgRCE rce.val) = true →
    s.executes rce.val ctx.val w b = true → uOpc w = 24 → Completes (.shli rce ctx) s fun t =>
    (t.ctx rce.val ctx.val).x = setNth (s.ctx rce.val ctx.val).x (uA w) (BitVec.ofNat 32 (((s.ctx rce.val ctx.val).reg (uB w)) * 2 ^ bits w 0 5)) ∧
    (t.ctx rce.val ctx.val).pc = ((s.ctx rce.val ctx.val).pc + 1) % 0x4000 ∧
    (t.ctx rce.val ctx.val).lc = (s.ctx rce.val ctx.val).lc ∧ (t.ctx rce.val ctx.val).stack = (s.ctx rce.val ctx.val).stack ∧
    (t.ctx rce.val ctx.val).group = (s.ctx rce.val ctx.val).group ∧ t.core = s.core) ∧
  (∀ (s : State) (rce : Fin 48) (ctx : Fin 8) (w : Nat) (b : Bake), s.acts (pgRCE rce.val) = true →
    s.executes rce.val ctx.val w b = true → uOpc w = 25 → Completes (.shri rce ctx) s fun t =>
    (t.ctx rce.val ctx.val).x = setNth (s.ctx rce.val ctx.val).x (uA w) (BitVec.ofNat 32 (((s.ctx rce.val ctx.val).reg (uB w)) / 2 ^ bits w 0 5)) ∧
    (t.ctx rce.val ctx.val).pc = ((s.ctx rce.val ctx.val).pc + 1) % 0x4000 ∧
    (t.ctx rce.val ctx.val).lc = (s.ctx rce.val ctx.val).lc ∧ (t.ctx rce.val ctx.val).stack = (s.ctx rce.val ctx.val).stack ∧
    (t.ctx rce.val ctx.val).group = (s.ctx rce.val ctx.val).group ∧ t.core = s.core) ∧
  (∀ (s : State) (rce : Fin 48) (ctx : Fin 8) (w : Nat) (b : Bake), s.acts (pgRCE rce.val) = true →
    s.executes rce.val ctx.val w b = true → uOpc w = 26 → Completes (.movlc rce ctx) s fun t =>
    (t.ctx rce.val ctx.val).x = setNth (s.ctx rce.val ctx.val).x (uA w) (BitVec.ofNat 32 ((s.ctx rce.val ctx.val).counter (bits w 0 2))) ∧
    (t.ctx rce.val ctx.val).pc = ((s.ctx rce.val ctx.val).pc + 1) % 0x4000 ∧
    (t.ctx rce.val ctx.val).lc = (s.ctx rce.val ctx.val).lc ∧ (t.ctx rce.val ctx.val).stack = (s.ctx rce.val ctx.val).stack ∧
    (t.ctx rce.val ctx.val).group = (s.ctx rce.val ctx.val).group ∧ t.core = s.core)

/-- NOP moves on; BR jumps; BZ, BNZ and BLTU jump on their condition and move on otherwise; LOOP counts its counter down, stays at 0,
and jumps while the result is not 0; CALL pushes the next PC while fewer than four are held; RET takes the last; END ends the
context's run; LCI and LCX set a loop counter; CSYNC empties the window; a refill fetches the word at PC and the one after it.
Each is served where no fault goes before it and its Bake is not stopped, and changes no DRAM, option, fuse or epoch. (Recipe
Engines) -/
def Obligations.MicroOpControl : Prop :=
  (∀ (s : State) (rce : Fin 48) (ctx : Fin 8) (w : Nat) (b : Bake), s.acts (pgRCE rce.val) = true →
    s.executes rce.val ctx.val w b = true → uOpc w = 1 → Completes (.nop rce ctx) s fun t =>
    (t.ctx rce.val ctx.val).pc = ((s.ctx rce.val ctx.val).pc + 1) % 0x4000 ∧
    (t.ctx rce.val ctx.val).lc = (s.ctx rce.val ctx.val).lc ∧ (t.ctx rce.val ctx.val).stack = (s.ctx rce.val ctx.val).stack ∧
    (t.ctx rce.val ctx.val).group = (s.ctx rce.val ctx.val).group ∧ (t.ctx rce.val ctx.val).x = (s.ctx rce.val ctx.val).x ∧
    t.core = s.core) ∧
  (∀ (s : State) (rce : Fin 48) (ctx : Fin 8) (w : Nat) (b : Bake), s.acts (pgRCE rce.val) = true →
    s.executes rce.val ctx.val w b = true → uOpc w = 2 → Completes (.br rce ctx) s fun t =>
    (t.ctx rce.val ctx.val).pc = target ctx.val (uT w) ∧ (t.ctx rce.val ctx.val).window = [] ∧
    (t.ctx rce.val ctx.val).lc = (s.ctx rce.val ctx.val).lc ∧ (t.ctx rce.val ctx.val).stack = (s.ctx rce.val ctx.val).stack ∧
    (t.ctx rce.val ctx.val).x = (s.ctx rce.val ctx.val).x ∧ t.core = s.core) ∧
  (∀ (s : State) (rce : Fin 48) (ctx : Fin 8) (w : Nat) (b : Bake), s.acts (pgRCE rce.val) = true →
    s.executes rce.val ctx.val w b = true → uOpc w = 3 → Completes (.bz rce ctx) s fun t =>
    (t.ctx rce.val ctx.val).pc = (if ((s.ctx rce.val ctx.val).reg (uA w)) = 0 then target ctx.val (uT w) else ((s.ctx rce.val ctx.val).pc + 1) % 0x4000) ∧
    (t.ctx rce.val ctx.val).lc = (s.ctx rce.val ctx.val).lc ∧ (t.ctx rce.val ctx.val).stack = (s.ctx rce.val ctx.val).stack ∧
    (t.ctx rce.val ctx.val).x = (s.ctx rce.val ctx.val).x ∧ t.core = s.core) ∧
  (∀ (s : State) (rce : Fin 48) (ctx : Fin 8) (w : Nat) (b : Bake), s.acts (pgRCE rce.val) = true →
    s.executes rce.val ctx.val w b = true → uOpc w = 4 → Completes (.bnz rce ctx) s fun t =>
    (t.ctx rce.val ctx.val).pc = (if ((s.ctx rce.val ctx.val).reg (uA w)) ≠ 0 then target ctx.val (uT w) else ((s.ctx rce.val ctx.val).pc + 1) % 0x4000) ∧
    (t.ctx rce.val ctx.val).lc = (s.ctx rce.val ctx.val).lc ∧ (t.ctx rce.val ctx.val).stack = (s.ctx rce.val ctx.val).stack ∧
    (t.ctx rce.val ctx.val).x = (s.ctx rce.val ctx.val).x ∧ t.core = s.core) ∧
  (∀ (s : State) (rce : Fin 48) (ctx : Fin 8) (w : Nat) (b : Bake), s.acts (pgRCE rce.val) = true →
    s.executes rce.val ctx.val w b = true → uOpc w = 5 → Completes (.bltu rce ctx) s fun t =>
    (t.ctx rce.val ctx.val).pc = (if ((s.ctx rce.val ctx.val).reg (uA w)) < ((s.ctx rce.val ctx.val).reg (uB w)) then target ctx.val (uT w) else ((s.ctx rce.val ctx.val).pc + 1) % 0x4000) ∧
    (t.ctx rce.val ctx.val).lc = (s.ctx rce.val ctx.val).lc ∧ (t.ctx rce.val ctx.val).stack = (s.ctx rce.val ctx.val).stack ∧
    (t.ctx rce.val ctx.val).x = (s.ctx rce.val ctx.val).x ∧ t.core = s.core) ∧
  (∀ (s : State) (rce : Fin 48) (ctx : Fin 8) (w : Nat) (b : Bake), s.acts (pgRCE rce.val) = true →
    s.executes rce.val ctx.val w b = true → uOpc w = 6 → Completes (.loop rce ctx) s fun t =>
    (t.ctx rce.val ctx.val).lc = setNth (s.ctx rce.val ctx.val).lc (uN w) ((s.ctx rce.val ctx.val).counter (uN w) - 1) ∧
    (t.ctx rce.val ctx.val).pc = (if 1 < (s.ctx rce.val ctx.val).counter (uN w) then target ctx.val (uT w) else ((s.ctx rce.val ctx.val).pc + 1) % 0x4000) ∧
    (t.ctx rce.val ctx.val).stack = (s.ctx rce.val ctx.val).stack ∧ (t.ctx rce.val ctx.val).x = (s.ctx rce.val ctx.val).x ∧
    t.core = s.core) ∧
  (∀ (s : State) (rce : Fin 48) (ctx : Fin 8) (w : Nat) (b : Bake), s.acts (pgRCE rce.val) = true →
    s.executes rce.val ctx.val w b = true → uOpc w = 7 → (s.ctx rce.val ctx.val).stack.length < 4 →
    Completes (.call rce ctx) s fun t =>
    (t.ctx rce.val ctx.val).stack = ((s.ctx rce.val ctx.val).pc + 1) % 0x4000 :: (s.ctx rce.val ctx.val).stack ∧
    (t.ctx rce.val ctx.val).pc = target ctx.val (uT w) ∧ (t.ctx rce.val ctx.val).lc = (s.ctx rce.val ctx.val).lc ∧
    (t.ctx rce.val ctx.val).x = (s.ctx rce.val ctx.val).x ∧ t.core = s.core) ∧
  (∀ (s : State) (rce : Fin 48) (ctx : Fin 8) (w : Nat) (b : Bake) (p : Nat) (rest : List Nat), s.acts (pgRCE rce.val) = true →
    s.executes rce.val ctx.val w b = true → uOpc w = 8 → (s.ctx rce.val ctx.val).stack = p :: rest →
    Completes (.ret rce ctx) s fun t => (t.ctx rce.val ctx.val).stack = rest ∧ (t.ctx rce.val ctx.val).pc = p ∧
    (t.ctx rce.val ctx.val).lc = (s.ctx rce.val ctx.val).lc ∧ (t.ctx rce.val ctx.val).x = (s.ctx rce.val ctx.val).x ∧
    t.core = s.core) ∧
  (∀ (s : State) (rce : Fin 48) (ctx : Fin 8) (w : Nat) (b : Bake), s.acts (pgRCE rce.val) = true →
    s.executes rce.val ctx.val w b = true → uOpc w = 9 → (s.ctx rce.val ctx.val).group = none →
    Completes (.endOp rce ctx) s fun t => (t.ctx rce.val ctx.val).state ≠ 1 ∧ t.core = s.core) ∧
  (∀ (s : State) (rce : Fin 48) (ctx : Fin 8) (w : Nat) (b : Bake), s.acts (pgRCE rce.val) = true →
    s.executes rce.val ctx.val w b = true → uOpc w = 10 → Completes (.lci rce ctx) s fun t =>
    (t.ctx rce.val ctx.val).lc = setNth (s.ctx rce.val ctx.val).lc (uN w) (uImm w) ∧
    (t.ctx rce.val ctx.val).pc = ((s.ctx rce.val ctx.val).pc + 1) % 0x4000 ∧
    (t.ctx rce.val ctx.val).stack = (s.ctx rce.val ctx.val).stack ∧ (t.ctx rce.val ctx.val).x = (s.ctx rce.val ctx.val).x ∧
    t.core = s.core) ∧
  (∀ (s : State) (rce : Fin 48) (ctx : Fin 8) (w : Nat) (b : Bake), s.acts (pgRCE rce.val) = true →
    s.executes rce.val ctx.val w b = true → uOpc w = 11 → Completes (.lcx rce ctx) s fun t =>
    (t.ctx rce.val ctx.val).lc = setNth (s.ctx rce.val ctx.val).lc (uN w) (((s.ctx rce.val ctx.val).reg (uB w)) % 2 ^ 16) ∧
    (t.ctx rce.val ctx.val).pc = ((s.ctx rce.val ctx.val).pc + 1) % 0x4000 ∧
    (t.ctx rce.val ctx.val).stack = (s.ctx rce.val ctx.val).stack ∧ (t.ctx rce.val ctx.val).x = (s.ctx rce.val ctx.val).x ∧
    t.core = s.core) ∧
  (∀ (s : State) (rce : Fin 48) (ctx : Fin 8) (w : Nat) (b : Bake), s.acts (pgRCE rce.val) = true →
    s.executes rce.val ctx.val w b = true → uOpc w = 12 → Completes (.csync rce ctx) s fun t =>
    (t.ctx rce.val ctx.val).pc = ((s.ctx rce.val ctx.val).pc + 1) % 0x4000 ∧ (t.ctx rce.val ctx.val).window = [] ∧
    (t.ctx rce.val ctx.val).lc = (s.ctx rce.val ctx.val).lc ∧ (t.ctx rce.val ctx.val).x = (s.ctx rce.val ctx.val).x ∧
    t.core = s.core) ∧
  (∀ (s : State) (rce : Fin 48) (ctx : Fin 8), s.acts (pgRCE rce.val) = true → (s.ctx rce.val ctx.val).state = 1 →
    (s.ctx rce.val ctx.val).window = [] → Completes (.refillDone rce ctx) s fun t =>
    (t.ctx rce.val ctx.val).window.map (fun x => x.1) = [s.csRead rce.val ((s.ctx rce.val ctx.val).pc % 0x4000) % 2 ^ 32, s.csRead rce.val (((s.ctx rce.val ctx.val).pc + 1) % 0x4000) % 2 ^ 32] ∧
    (t.ctx rce.val ctx.val).pc = (s.ctx rce.val ctx.val).pc ∧ (t.ctx rce.val ctx.val).x = (s.ctx rce.val ctx.val).x ∧
    t.core = s.core)

/-- CSW from the plan writes one word of the context's page with its parity; CSCP copies CNT + 1 plan words there; GRP opens a group at
the bank subarray that register A names; SLOAD, SNEG and STRA append their commands to the open group where the Bake reserves the
scratch rows they name; GEND hands the group to its queue when it may, and a stalled one is handed over later; LANE places its
job on the channel's lane while fewer than four of the context's are open, and a stalled one is placed later; WAITL and WAITG go on
when nothing is awaited, WAITG stalls otherwise, and a stalled one goes on later. (Recipe Engines) -/
def Obligations.MicroOpGroups : Prop :=
  (∀ (s : State) (rce : Fin 48) (ctx : Fin 8) (w : Nat) (b : Bake), s.acts (pgRCE rce.val) = true →
    s.executes rce.val ctx.val w b = true → uOpc w = 13 → bit w 25 = false → s.inPlan b (s.ctx rce.val ctx.val).pc = true →
    Completes (.csw rce ctx) s fun t => Tab.get (t.ctx rce.val ctx.val).page (bits w 0 6) 0 = csWord ((s.ctx rce.val ctx.val).reg (uB w)) ∧
    (t.ctx rce.val ctx.val).pc = ((s.ctx rce.val ctx.val).pc + 1) % 0x4000 ∧ (t.ctx rce.val ctx.val).x = (s.ctx rce.val ctx.val).x ∧
    t.core = s.core) ∧
  (∀ (s : State) (rce : Fin 48) (ctx : Fin 8) (w : Nat) (b : Bake), s.acts (pgRCE rce.val) = true →
    s.executes rce.val ctx.val w b = true → uOpc w = 14 → s.inPlan b (s.ctx rce.val ctx.val).pc = true →
    s.inPlan b (((s.ctx rce.val ctx.val).reg (uA w)) % 2 ^ 14) = true →
    s.inPlan b (((s.ctx rce.val ctx.val).reg (uA w)) % 2 ^ 14 + bits w 6 6) = true →
    ((s.ctx rce.val ctx.val).reg (uA w)) % 2 ^ 14 + bits w 6 6 < 0x3E00 → bits w 0 6 + bits w 6 6 + 1 ≤ 64 →
    Completes (.cscp rce ctx) s fun t =>
    (List.range (bits w 6 6 + 1)).all (fun i => Tab.get (t.ctx rce.val ctx.val).page (bits w 0 6 + i) 0 == csWord (s.csRead rce.val (((s.ctx rce.val ctx.val).reg (uA w)) % 2 ^ 14 + i))) = true ∧
    (t.ctx rce.val ctx.val).pc = ((s.ctx rce.val ctx.val).pc + 1) % 0x4000 ∧ (t.ctx rce.val ctx.val).x = (s.ctx rce.val ctx.val).x ∧
    t.core = s.core) ∧
  (∀ (s : State) (rce : Fin 48) (ctx : Fin 8) (w : Nat) (b : Bake), s.acts (pgRCE rce.val) = true →
    s.executes rce.val ctx.val w b = true → uOpc w = 32 → (s.ctx rce.val ctx.val).group = none →
    ((s.ctx rce.val ctx.val).reg (uA w)) < 2 ^ 14 → Completes (.grp rce ctx) s fun t =>
    (t.ctx rce.val ctx.val).group = some { q := 2 * rce.val + bits ((s.ctx rce.val ctx.val).reg (uA w)) 0 1, bank := bits ((s.ctx rce.val ctx.val).reg (uA w)) 1 4, sa := bits ((s.ctx rce.val ctx.val).reg (uA w)) 5 9, cmds := [], tooBig := false, closed := false } ∧
    (t.ctx rce.val ctx.val).pc = ((s.ctx rce.val ctx.val).pc + 1) % 0x4000 ∧ (t.ctx rce.val ctx.val).x = (s.ctx rce.val ctx.val).x ∧
    t.core = s.core) ∧
  (∀ (s : State) (rce : Fin 48) (ctx : Fin 8) (w : Nat) (b : Bake) (g : Group), s.acts (pgRCE rce.val) = true →
    s.executes rce.val ctx.val w b = true → uOpc w = 33 → (s.ctx rce.val ctx.val).group = some g →
    b.mayUse (selXY (s.ctx rce.val ctx.val) w) = true → Completes (.sload rce ctx) s fun t =>
    (t.ctx rce.val ctx.val).group = some (g.add (loadStep g ((selXY (s.ctx rce.val ctx.val) w)[0]?.getD 0) ((selXY (s.ctx rce.val ctx.val) w)[1]?.getD 0))) ∧
    (t.ctx rce.val ctx.val).pc = ((s.ctx rce.val ctx.val).pc + 1) % 0x4000 ∧ (t.ctx rce.val ctx.val).x = (s.ctx rce.val ctx.val).x ∧
    t.core = s.core) ∧
  (∀ (s : State) (rce : Fin 48) (ctx : Fin 8) (w : Nat) (b : Bake) (g : Group), s.acts (pgRCE rce.val) = true →
    s.executes rce.val ctx.val w b = true → uOpc w = 34 → (s.ctx rce.val ctx.val).group = some g →
    b.mayUse (selXY (s.ctx rce.val ctx.val) w) = true → Completes (.sneg rce ctx) s fun t =>
    (t.ctx rce.val ctx.val).group = some (g.add (loadStep g ((selXY (s.ctx rce.val ctx.val) w)[0]?.getD 0) 0x20B ++ loadStep g 0x20A ((selXY (s.ctx rce.val ctx.val) w)[1]?.getD 0))) ∧
    (t.ctx rce.val ctx.val).pc = ((s.ctx rce.val ctx.val).pc + 1) % 0x4000 ∧ (t.ctx rce.val ctx.val).x = (s.ctx rce.val ctx.val).x ∧
    t.core = s.core) ∧
  (∀ (s : State) (rce : Fin 48) (ctx : Fin 8) (w : Nat) (b : Bake) (g : Group), s.acts (pgRCE rce.val) = true →
    s.executes rce.val ctx.val w b = true → uOpc w = 35 → (s.ctx rce.val ctx.val).group = some g →
    b.mayUse [0x200 + bits w 6 3, 0x200 + bits w 3 3, 0x200 + bits w 0 3] = true → Completes (.stra rce ctx) s fun t =>
    (t.ctx rce.val ctx.val).group = some (g.add [.vtra g.bank g.sa (bits w 6 3) (bits w 3 3) (bits w 0 3), .pre g.bank]) ∧
    (t.ctx rce.val ctx.val).pc = ((s.ctx rce.val ctx.val).pc + 1) % 0x4000 ∧ (t.ctx rce.val ctx.val).x = (s.ctx rce.val ctx.val).x ∧
    t.core = s.core) ∧
  (∀ (s : State) (rce : Fin 48) (ctx : Fin 8) (w : Nat) (b : Bake) (g : Group), s.acts (pgRCE rce.val) = true →
    s.executes rce.val ctx.val w b = true → uOpc w = 36 → (s.ctx rce.val ctx.val).group = some g →
    s.gendReady rce.val ctx.val b g = true → Completes (.gend rce ctx) s fun t => (t.ctx rce.val ctx.val).group = none ∧
    (t.queue g.q).waiting.length = (s.queue g.q).waiting.length + 1 ∧
    ((t.queue g.q).waiting.getLast?.map (fun e => (e.kind, e.bank))) = some (.group rce.val ctx.val g.cmds, g.bank) ∧
    (t.ctx rce.val ctx.val).pc = ((s.ctx rce.val ctx.val).pc + 1) % 0x4000 ∧ (t.ctx rce.val ctx.val).x = (s.ctx rce.val ctx.val).x ∧
    t.core = s.core) ∧
  (∀ (s : State) (rce : Fin 48) (ctx : Fin 8) (b : Bake) (g : Group), s.acts (pgRCE rce.val) = true →
    (s.ctx rce.val ctx.val).state = 2 → (s.ctx rce.val ctx.val).stall = 1 → (s.ctx rce.val ctx.val).group = some g →
    s.bake (s.ctx rce.val ctx.val).bid = some b → b.aborted = false → s.gendReady rce.val ctx.val b g = true →
    Completes (.gendRelease rce ctx) s fun t => (t.ctx rce.val ctx.val).group = none ∧
    (t.queue g.q).waiting.length = (s.queue g.q).waiting.length + 1 ∧
    (t.ctx rce.val ctx.val).pc = ((s.ctx rce.val ctx.val).pc + 1) % 0x4000 ∧ (t.ctx rce.val ctx.val).x = (s.ctx rce.val ctx.val).x ∧
    t.core = s.core) ∧
  (∀ (s : State) (rce : Fin 48) (ctx : Fin 8) (w : Nat) (b : Bake) (j : LaneJob), s.acts (pgRCE rce.val) = true →
    s.executes rce.val ctx.val w b = true → uOpc w = 40 → b.laneJob rce.val ctx.val (s.ctx rce.val ctx.val) w = some j →
    s.laneBusy rce.val ctx.val b.id < 4 → Completes (.lane rce ctx) s fun t =>
    t = ((s.advance rce.val ctx.val b).updCtx rce.val ctx.val (fun x => { x with since := 0 })).placeLane rce.val j ∧
    (t.ctx rce.val ctx.val).pc = ((s.ctx rce.val ctx.val).pc + 1) % 0x4000 ∧ (t.ctx rce.val ctx.val).x = (s.ctx rce.val ctx.val).x ∧
    t.core = s.core) ∧
  (∀ (s : State) (rce : Fin 48) (ctx : Fin 8) (b : Bake) (j : LaneJob), s.acts (pgRCE rce.val) = true →
    (s.ctx rce.val ctx.val).state = 2 → (s.ctx rce.val ctx.val).stall = 2 → s.bake (s.ctx rce.val ctx.val).bid = some b →
    b.laneJob rce.val ctx.val (s.ctx rce.val ctx.val) ((s.ctx rce.val ctx.val).window.headD (0, false)).1 = some j →
    s.laneBusy rce.val ctx.val b.id < 4 → Completes (.laneRelease rce ctx) s fun t =>
    t = ((s.advance rce.val ctx.val b).updCtx rce.val ctx.val (fun x => { x with since := 0 })).placeLane rce.val j ∧
    (t.ctx rce.val ctx.val).pc = ((s.ctx rce.val ctx.val).pc + 1) % 0x4000 ∧ (t.ctx rce.val ctx.val).x = (s.ctx rce.val ctx.val).x ∧
    t.core = s.core) ∧
  (∀ (s : State) (rce : Fin 48) (ctx : Fin 8) (w : Nat) (b : Bake), s.acts (pgRCE rce.val) = true →
    s.executes rce.val ctx.val w b = true → uOpc w = 41 → s.waitOver rce.val ctx.val 3 (s.ctx rce.val ctx.val).bid = true →
    Completes (.waitl rce ctx) s fun t => (t.ctx rce.val ctx.val).pc = ((s.ctx rce.val ctx.val).pc + 1) % 0x4000 ∧
    (t.ctx rce.val ctx.val).x = (s.ctx rce.val ctx.val).x ∧ t.core = s.core) ∧
  (∀ (s : State) (rce : Fin 48) (ctx : Fin 8) (w : Nat) (b : Bake), s.acts (pgRCE rce.val) = true →
    s.executes rce.val ctx.val w b = true → uOpc w = 42 → s.waitOver rce.val ctx.val 4 (s.ctx rce.val ctx.val).bid = true →
    Completes (.waitg rce ctx) s fun t => (t.ctx rce.val ctx.val).pc = ((s.ctx rce.val ctx.val).pc + 1) % 0x4000 ∧
    (t.ctx rce.val ctx.val).x = (s.ctx rce.val ctx.val).x ∧ t.core = s.core) ∧
  (∀ (s : State) (rce : Fin 48) (ctx : Fin 8) (w : Nat) (b : Bake), s.acts (pgRCE rce.val) = true →
    s.executes rce.val ctx.val w b = true → uOpc w = 42 → s.waitOver rce.val ctx.val 4 (s.ctx rce.val ctx.val).bid = false →
    Completes (.waitg rce ctx) s fun t => (t.ctx rce.val ctx.val).state = 2 ∧ (t.ctx rce.val ctx.val).stall = 4 ∧
    (t.ctx rce.val ctx.val).pc = (s.ctx rce.val ctx.val).pc ∧ (t.ctx rce.val ctx.val).x = (s.ctx rce.val ctx.val).x ∧
    t.core = s.core) ∧
  (∀ (s : State) (rce : Fin 48) (ctx : Fin 8) (b : Bake), s.acts (pgRCE rce.val) = true → (s.ctx rce.val ctx.val).state = 2 →
    ((s.ctx rce.val ctx.val).stall = 3 ∨ (s.ctx rce.val ctx.val).stall = 4) → s.bake (s.ctx rce.val ctx.val).bid = some b →
    s.waitOver rce.val ctx.val (s.ctx rce.val ctx.val).stall (s.ctx rce.val ctx.val).bid = true →
    Completes (.waitRelease rce ctx) s fun t => (t.ctx rce.val ctx.val).pc = ((s.ctx rce.val ctx.val).pc + 1) % 0x4000 ∧
    (t.ctx rce.val ctx.val).x = (s.ctx rce.val ctx.val).x ∧ t.core = s.core)

/-- An image that passes every check, of the one load under way, is loaded: its words stand with their parity in every engine's plan area
and its plan joins the table under the lowest free number; a malformed one loads nothing. A plan that is being unloaded is gone once
no Bake of it is left. The one Bake that waits for its fence is ordered, with its fence set. The next run of a Bake begins on an
engine, in the lowest free context, with the entry of its operator and its argument words. The record of a Bake whose lanes have ended
is written once, and a Bake that is over has its status word ordered. (Operator library; Recipe Engines) -/
def Obligations.PlansAndBakes : Prop :=
  (∀ (s : State) (rid : Nat) (l : Load) (r : Req) (h : Image), s.acts pgHOME = true → s.loads = [l] → l.rid = rid →
    s.req rid = some r → l.left = 0 → l.asked ≠ 0 → r.place = .bakeWait → r.wait = 0 → s.loadEarlier rid = false →
    h = imageHead (Tab.get l.lines 0 0).toNat →
    h.fmtOk = true → h.bytes ≤ s.imageRoom r → h.sealed_ = false → s.imageCheck r.tid h (l.bytes h.bytes) true l.bad = (0, 0xFFFF) →
    Completes (.planImageReadDone rid) s fun t =>
    t.plans = s.plans ++ [{ num := s.freePlan.getD 0, tid := r.tid, base := h.base, words := h.words, sealed_ := false, ops := (List.range h.nops).map (fun i => entryOf (imgEntry (l.bytes h.bytes) i)), closing := none }] ∧
    (∀ (rce i : Nat), rce < 48 → i < h.words → t.csRead rce (h.base + i) = csWord (imgWord h (l.bytes h.bytes) i)) ∧
    t.core = s.core) ∧
  (∀ (s : State) (rid : Nat) (l : Load) (r : Req), s.acts pgHOME = true → s.loads = [l] → l.rid = rid → s.req rid = some r →
    l.left = 0 → l.asked ≠ 0 → r.place = .bakeWait → r.wait = 0 → s.loadEarlier rid = false → (imageHead (Tab.get l.lines 0 0).toNat).fmtOk = false →
    Completes (.planImageReadDone rid) s fun t => t.plans = s.plans ∧ t.planArea = s.planArea ∧ t.core = s.core) ∧
  (∀ (s : State) (plan : BitVec 6) (p : Plan) (rid : Nat), s.acts pgHOME = true →
    s.plans.find? (fun p => p.num == plan.toNat) = some p → p.closing = some rid → s.bakes.any (fun b => b.plan == p.num) = false →
    Completes (.planUnloadDone plan) s fun t => t.plans = s.plans.filter (fun x => x.num != p.num) ∧ t.planArea = s.planArea ∧
    t.core = s.core) ∧
  (∀ (s : State) (bid : Nat) (b : Bake) (r : Req), s.acts pgHOME = true → s.bakes = [b] → b.id = bid → b.order = none →
    b.aborted = false → s.fences.length < 384 → s.req bid = some r → s.bakeMirrored b = false → s.live r.aid = true →
    (s.agent r.aid).inc % 8 = r.incLo → Completes (.bakeOrder bid) s fun t =>
    t.fences = s.fences ++ [{ bake := bid, rows := b.rows, order := s.nextOrder }] ∧
    t.bakes.map (fun x => (x.id, x.order, x.stage)) = [(bid, some s.nextOrder, 1)] ∧ t.core = s.core) ∧
  (∀ (s : State) (bid : Nat) (rce : Fin 48) (b : Bake) (k ci : Nat) (run : Nat × Nat), s.acts pgHOME = true → s.bake bid = some b →
    b.id = bid → b.order.isSome = true → b.aborted = false → s.preparing bid = false → (b.stage = 1 ∨ b.stage = 3) →
    (b.stage = 1 → s.scanRows b = []) → Tab.get b.runs rce.val (0, true) = (k, true) → (s.runs b)[k]? = some run →
    s.startBlocked b rce.val = false → s.ctxOf rce.val bid = none →
    (List.range 8).find? (fun c => (s.ctx rce.val c).state == 0) = some ci → Completes (.bakeStart bid rce) s fun t =>
    (t.ctx rce.val ci).state = 1 ∧ (t.ctx rce.val ci).bid = bid ∧ (t.ctx rce.val ci).pc = b.entry ∧
    (t.ctx rce.val ci).x = b.args run.1 run.2 ∧
    (t.bake bid).map (fun x => (x.stage, Tab.get x.runs rce.val (0, false))) = some (3, k + 1, false) ∧ t.core = s.core) ∧
  (∀ (s : State) (bid : Nat) (b : Bake), s.acts pgHOME = true → s.bake bid = some b → b.id = bid → b.stage = 4 →
    b.hasRecord = true → b.aborted = false → b.replay = false → s.bakeFenced b = false → s.bakeLanes bid = false → s.bakeEntries bid = false →
    s.req s.nextId = none → Completes (.recordWrite bid) s fun t => (t.bake bid).map (fun x => x.stage) = some 5 ∧
    (t.reqs.getLast?.map (fun r => (r.op, r.place, r.off, r.be))) = some (.wrPtl, .home, b.record.2 / 64 * 64, BitVec.ofNat 64 ((2 ^ 32 - 1) * 2 ^ (b.record.2 % 64))) ∧
    t.core = s.core) ∧
  (∀ (s : State) (bid : Nat) (b : Bake), s.acts pgHOME = true → s.bake bid = some b → b.id = bid → b.replay = false →
    s.bakeFenced b = false → s.bakeOver b = true → b.stage < 6 → s.twBakeReady b = true → s.req s.nextId = none →
    Completes (.statusWordWrite bid) s fun t => (t.bake bid).map (fun x => x.stage) = some 6 ∧
    (t.reqs.getLast?.map (fun r => (r.op, r.place, r.off, r.be))) = some (.wrPtl, .home, b.status.2 / 64 * 64, BitVec.ofNat 64 ((2 ^ 8 - 1) * 2 ^ (b.status.2 % 64))) ∧
    t.core = s.core)

/-- GET_TPK returns the 97 bytes of the transport public key with a signature; KEY_LOAD of a key that unwraps under the next generation
fills the lowest empty slot and is the tenant's newest generation, and of any other key fills nothing and answers the reason;
KEY_ROTATE keeps the old key beside the new one in Rotating; KEY_ERASE puts the tenant's slot in Erasing, and the slot is Empty,
with the command ended, once nothing uses it; LINK_KEY_LOAD fills the named key set of a port's direction and starts its group
counter at 0, or answers the reason and fills none; and the rekey of the line at the rotation pointer is issued once, under the
tenant. (Tenancy and keys; fabric ports) -/
def Obligations.KeyCommands : Prop :=
  (∀ (s : State) (len : Nat) (core : Bool) (d x y : Nat), s.acts pgWARDEN = true → s.warden.busy = some (0x40, len, core) →
    s.tpk = some (d, x, y) → Completes (.getTpk) s fun t => t.rd WARDEN_MBX_RESULT = 0 ∧ t.rd WARDEN_MBX_DONE = 1 ∧
    t.warden.busy = none ∧ t.rd WARDEN_MBX_OUT_LEN = 193 ∧ t.tpk = s.tpk ∧ t.slots = s.slots ∧ t.core = s.core) ∧
  (∀ (s : State) (len : Nat) (core : Bool), s.acts pgWARDEN = true → s.warden.busy = some (0x41, len, core) → s.opts.k = true →
    Completes (.keyLoad) s fun t => t.rd WARDEN_MBX_DONE = 1 ∧ t.warden.busy = none ∧
    t.lastGen = (match s.tenantKey (s.mbxIn len) true, s.emptySlot with | .ok _, some _ => Tab.set s.lastGen (leNat ((s.mbxIn len).take 1)) (leNat (((s.mbxIn len).drop 1).take 2)) | _, _ => s.lastGen) ∧
    t.rd WARDEN_MBX_RESULT = (match s.tenantKey (s.mbxIn len) true, s.emptySlot with | .ok _, some _ => 0 | .ok _, none => krNoSlot | .error r, _ => r) ∧
    t.slots = (match s.tenantKey (s.mbxIn len) true, s.emptySlot with | .ok k, some n => Tab.set s.slots n { state := ksLoaded, tid := leNat ((s.mbxIn len).take 1), gen := leNat (((s.mbxIn len).drop 1).take 2), cur := k, old := none } | _, _ => s.slots) ∧
    t.core = s.core) ∧
  (∀ (s : State) (len : Nat) (core : Bool) (n : Nat) (o : KeySlot), s.acts pgWARDEN = true →
    s.warden.busy = some (0x42, len, core) → s.opts.k = true → (s.slotOf (leNat ((s.mbxIn len).take 1))).getD 0 = n → s.slot n = o →
    s.rot.isSome = true → Completes (.keyRotate) s fun t => t.rd WARDEN_MBX_DONE = 1 ∧ t.warden.busy = none ∧
    t.rd WARDEN_MBX_RESULT = (match s.tenantKey (s.mbxIn len) false, s.slotOf (leNat ((s.mbxIn len).take 1)) with | .ok _, some _ => 0 | .ok _, none => krState | .error r, _ => r) ∧
    t.slots = (match s.tenantKey (s.mbxIn len) false, s.slotOf (leNat ((s.mbxIn len).take 1)) with | .ok k, some _ => Tab.set s.slots n { o with state := ksRotating, gen := leNat (((s.mbxIn len).drop 1).take 2), cur := k, old := some (o.cur, o.gen) } | _, _ => s.slots) ∧
    t.rot = s.rot ∧ t.core = s.core) ∧
  (∀ (s : State) (len : Nat) (core : Bool) (n : Nat), s.acts pgWARDEN = true → s.warden.busy = some (0x43, len, core) →
    s.opts.k = true → leNat (s.mbxIn 1) ≠ 0 → s.slotOf (leNat (s.mbxIn 1)) = some n → s.rot = none →
    Completes (.keyErase) s fun t => (t.slot n).state = ksErasing ∧ t.warden = s.warden ∧ t.regs = s.regs ∧ t.core = s.core) ∧
  (∀ (s : State) (len : Nat) (core : Bool) (slot : BitVec 8), s.acts pgCRYPT = true → s.warden.busy = some (0x43, len, core) →
    slot ≠ 0 → (s.slot slot.toNat).state = ksErasing → s.slotBusy slot.toNat = false → leNat (s.mbxIn 1) = (s.slot slot.toNat).tid →
    Completes (.slotErased slot) s fun t => t.rd WARDEN_MBX_RESULT = 0 ∧ t.rd WARDEN_MBX_DONE = 1 ∧ t.warden.busy = none ∧
    t.slot slot.toNat = KeySlot.empty ∧ t.core = s.core) ∧
  (∀ (s : State) (len : Nat) (core : Bool) (port : Fin 16), s.acts pgWARDEN = true → s.warden.busy = some (0x44, len, core) →
    leNat ((s.mbxIn len).take 1) = port.val → leNat (((s.mbxIn len).drop 1).take 1) = 0 →
    leNat (((s.mbxIn len).drop 2).take 1) = 1 → ((s.port port.val).txCrypt.active = false ∨ (s.port port.val).txCrypt.sel = false) →
    Completes (.linkKeyLoad) s fun t => t.rd WARDEN_MBX_DONE = 1 ∧ t.warden.busy = none ∧
    t.rd WARDEN_MBX_RESULT = (match p384Point (((s.mbxIn len).drop 3).take 97) with | none => krBadPoint | some qe => match s.unwrap qe (s.linkInfo (s.mbxIn len)) (((s.mbxIn len).drop 100).take 48) with | some _ => 0 | none => krUnwrap) ∧
    (t.port port.val).txCrypt = (match (p384Point (((s.mbxIn len).drop 3).take 97)).bind (fun qe => s.unwrap qe (s.linkInfo (s.mbxIn len)) (((s.mbxIn len).drop 100).take 48)) with | none => (s.port port.val).txCrypt | some k => { (s.port port.val).txCrypt with keys := setNth (s.port port.val).txCrypt.keys 1 (some { key := BitVec.ofNat 256 (leNat (k.take 32)), salt := BitVec.ofNat 32 (leNat ((k.drop 32).take 4)) }), counts := setNth (s.port port.val).txCrypt.counts 1 0 }) ∧
    (t.port port.val).rxCrypt = (s.port port.val).rxCrypt ∧ t.core = s.core) ∧
  (∀ (s : State) (r : Rot), s.acts pgCRYPT = true → s.rot = some r → r.issued = false → s.mayRekey r.region = true →
    s.reqs.any (fun x => x.id == s.nextId) = false → Completes (.rekeyIssue) s fun t => t.rot = some { r with issued := true } ∧
    (t.reqs.getLast?.map (fun x => (x.op, x.tid, x.off, x.place))) = some (.rekey, r.tid, r.la * 64, .queued) ∧
    t.nextId = s.nextId + 1 ∧ t.core = s.core)

/-- A sequenced message that is the next takes effect and is counted applied: a line goes to its queue as it is; a pending delta replaces
its line's record and leaves the directory; a Bake that is to be copied is answered at once, and its end is recorded with its
outcome; TW_HANDOVER makes a synced Standby the leased holder, and TW_SYNCED a joining node a synced Standby. The answer to a Bake
and the acknowledgement of messages act at the holder; a TW_ACK goes for what was applied since the last. (Twin pairs) -/
def Obligations.TwinStream : Prop :=
  (∀ (s : State) (port : Fin 16) (m : Msg), s.acts (pgFPORT port.val) = true → s.passes port.val m = true → m.cls.toNat = clsSys →
    m.opc = 0x90 → s.opts.w = true → s.rd TWIN_PAIR_EN = 1 → m.srcNid = s.rd TWIN_PARTNER_NID → s.twin.turn = tuStandby →
    m.f 45 24 = (s.twin.applied + 1) % 2 ^ 24 → s.twin.sinceAck < 7 → m.f 107 2 ≠ twRekey → s.twin.bakes = [] →
    Completes (.twLine port m) s fun t => t.twin.applied = m.f 45 24 ∧ t.twin.accepting = s.twin.accepting ++ [m.f 45 24] ∧
    (t.reqs.getLast?.map (fun r => (r.op, r.off, r.place))) = some (.resync, m.f 69 37 * 64, .memWrite) ∧ t.dir = s.dir ∧
    t.core = s.core) ∧
  (∀ (s : State) (port : Fin 16) (m : Msg), s.acts (pgFPORT port.val) = true → s.passes port.val m = true → m.cls.toNat = clsSys →
    m.opc = 0x91 → s.opts.w = true → s.rd TWIN_PAIR_EN = 1 → m.srcNid = s.rd TWIN_PARTNER_NID → s.twin.turn = tuStandby →
    m.f 45 24 = (s.twin.applied + 1) % 2 ^ 24 → s.twin.sinceAck < 7 → m.f 106 1 = 1 → Completes (.twDelta port m) s fun t =>
    t.twin.applied = m.f 45 24 ∧
    t.twin.pendRecs = s.twin.pendRecs.filter (fun x => x.la != m.f 69 37) ++ (entryOfBits (m.f 69 37) m.payload).toList ∧
    t.dir = s.dir ∧ t.reqs = s.reqs ∧ t.core = s.core) ∧
  (∀ (s : State) (port : Fin 16) (m : Msg) (u : Nat × Msg × Nat × Nat), s.acts (pgFPORT port.val) = true →
    s.passes port.val m = true → m.cls.toNat = clsSys → m.opc = 0x92 → s.opts.w = true → s.rd TWIN_PAIR_EN = 1 →
    m.srcNid = s.rd TWIN_PARTNER_NID → s.twin.turn = tuHolder → s.twin.unacked = [u] → s.twin.waiting = [] → s.twin.gates = [] →
    s.twin.writes = [] → m.f 45 24 = u.1 → Completes (.twAck port m) s fun t => t.twin.unacked = [] ∧ t.twin.seqAcked = u.1 ∧
    t.twin.turn = tuHolder ∧ t.core = s.core) ∧
  (∀ (s : State) (port : Fin 16) (m : Msg), s.acts (pgFPORT port.val) = true → s.passes port.val m = true → m.cls.toNat = clsSys →
    m.opc = 0x93 → s.opts.w = true → s.rd TWIN_PAIR_EN = 1 → m.srcNid = s.rd TWIN_PARTNER_NID → s.twin.turn = tuStandby →
    m.f 45 24 = (s.twin.applied + 1) % 2 ^ 24 → s.twin.sinceAck < 7 → s.twin.bakes = [] → m.f 107 1 = 1 →
    Completes (.twBake port m) s fun t => t.twin.applied = m.f 45 24 ∧
    t.twin.bakes.map (fun x => (x.tid, x.btag, x.holder, x.bid, x.answer)) = [(m.f 69 8, m.f 77 16, false, none, some false)] ∧
    t.bakes = s.bakes ∧ t.core = s.core) ∧
  (∀ (s : State) (port : Fin 16) (m : Msg) (x : TwBake), s.acts (pgFPORT port.val) = true → s.passes port.val m = true →
    m.cls.toNat = clsSys → m.opc = 0x94 → s.opts.w = true → s.rd TWIN_PAIR_EN = 1 → m.srcNid = s.rd TWIN_PARTNER_NID →
    s.twin.turn = tuStandby → m.f 45 24 = (s.twin.applied + 1) % 2 ^ 24 → s.twin.sinceAck < 7 → s.twin.bakes = [x] →
    x.holder = false → x.bid = none → x.tid = m.f 69 8 → x.btag = m.f 77 16 → Completes (.twBakeEnd port m) s fun t =>
    t.twin.applied = m.f 45 24 ∧ t.twin.bakes = [{ x with ended := true, copies := decide (m.f 93 1 = 1) }] ∧ t.bakes = s.bakes ∧
    t.core = s.core) ∧
  (∀ (s : State) (port : Fin 16) (m : Msg) (x : TwBake), s.acts (pgFPORT port.val) = true → s.passes port.val m = true →
    m.cls.toNat = clsSys → m.opc = 0x95 → s.opts.w = true → s.rd TWIN_PAIR_EN = 1 → m.srcNid = s.rd TWIN_PARTNER_NID →
    s.twin.turn = tuHolder → s.twin.bakes = [x] → x.holder = true → x.answer = none → x.tid = m.f 69 8 → x.btag = m.f 77 16 →
    m.f 93 1 = 0 → Completes (.twBakeRsp port m) s fun t => t.twin.bakes = [{ x with answer := some true }] ∧ t.core = s.core) ∧
  (∀ (s : State) (port : Fin 16) (m : Msg), s.acts (pgFPORT port.val) = true → s.passes port.val m = true → m.cls.toNat = clsSys →
    m.opc = 0x9A → s.opts.w = true → s.rd TWIN_PAIR_EN = 1 → m.srcNid = s.rd TWIN_PARTNER_NID → s.twin.turn = tuStandby →
    m.f 45 24 = (s.twin.applied + 1) % 2 ^ 24 → s.twin.sinceAck < 7 → s.twin.synced = true →
    Completes (.twHandover port m) s fun t => t.twin.turn = tuHolder ∧ t.twin.leased = true ∧
    t.twin.turnCount = (s.twin.turnCount + 1) % 2 ^ 32 ∧ t.core = s.core) ∧
  (∀ (s : State) (port : Fin 16) (m : Msg), s.acts (pgFPORT port.val) = true → s.passes port.val m = true → m.cls.toNat = clsSys →
    m.opc = 0x9C → s.opts.w = true → s.rd TWIN_PAIR_EN = 1 → m.srcNid = s.rd TWIN_PARTNER_NID → s.twin.turn = tuJoining →
    m.f 45 24 = (s.twin.applied + 1) % 2 ^ 24 → s.twin.sinceAck < 7 → Completes (.twSynced port m) s fun t =>
    t.twin.applied = m.f 45 24 ∧ t.twin.turn = tuStandby ∧ t.twin.synced = true ∧ t.twin.heard = some s.ao ∧ t.core = s.core) ∧
  (∀ (s : State), s.acts pgTWIN = true → s.twin.turn = tuStandby → s.twin.accepting = [] → s.twin.applied ≠ s.twin.ackSent →
    Completes (.twAckTimer) s fun t => t.twin = { s.twin with ackSent := s.twin.applied, sinceAck := 0 } ∧ t.dir = s.dir ∧
    t.reqs = s.reqs ∧ t.core = s.core)

/-- A Standby that hears a renewal moves its takeover deadline; a Holder that hears one, with no request or Bake in the node, fences
itself with TWO_HOLDERS. A renewal's answer moves the holder's deadline. TW_JOIN of the partner is taken by a Holder, whose
directory image then goes to the partner, and changes nothing of the Turn at any other node. The holder renews with the next
number; a leased holder past its deadline is Fenced; a synced Standby past its deadline is Holder, with one more move of the Turn;
the next mirrored line of a resynchronization is read. CLAIM makes an Idle or Fenced node Holder, SOLO ends a lease, LEAVE fences a
Standby, JOIN and its timer send TW_JOIN. (Twin pairs) -/
def Obligations.Turn : Prop :=
  (∀ (s : State) (port : Fin 16) (m : Msg), s.acts (pgFPORT port.val) = true → s.passes port.val m = true → m.cls.toNat = clsSys →
    m.opc = 0x98 → s.opts.w = true → s.rd TWIN_PAIR_EN = 1 → m.srcNid = s.rd TWIN_PARTNER_NID → s.twin.turn = tuStandby →
    m.f 61 1 = 0 → Completes (.twRenew port m) s fun t => t.twin.turn = tuStandby ∧ t.twin.heard = some s.ao ∧ t.twin.heardLseq = m.f 45 16 ∧
    t.twin.synced = s.twin.synced ∧ t.core = s.core) ∧
  (∀ (s : State) (port : Fin 16) (m : Msg), s.acts (pgFPORT port.val) = true → s.passes port.val m = true → m.cls.toNat = clsSys →
    m.opc = 0x98 → s.opts.w = true → s.rd TWIN_PAIR_EN = 1 → m.srcNid = s.rd TWIN_PARTNER_NID → s.twin.turn = tuHolder →
    s.reqs = [] → s.bakes = [] → s.twin.gates = [] → Completes (.twRenew port m) s fun t => t.twin.turn = tuFenced ∧
    t.twin.leased = false ∧ bit (t.rd H_INT_STAT pgTWIN) I_TWIN_TWO_HOLDERS = true ∧
    bit (t.rd H_INT_STAT pgTWIN) I_TWIN_SELF_FENCED = true ∧ t.core = s.core) ∧
  (∀ (s : State) (port : Fin 16) (m : Msg) (x : Nat × Nat), s.acts (pgFPORT port.val) = true → s.passes port.val m = true →
    m.cls.toNat = clsSys → m.opc = 0x99 → s.opts.w = true → s.rd TWIN_PAIR_EN = 1 → m.srcNid = s.rd TWIN_PARTNER_NID →
    s.twin.turn = tuHolder → s.twin.leased = false → s.twin.renewals.find? (fun r => r.1 == m.f 45 16) = some x →
    Completes (.twRenewAck port m) s fun t => t.twin.ackedSent = max s.twin.ackedSent x.2 ∧ t.twin.ackedLseq = m.f 45 16 ∧
    t.twin.renewals = s.twin.renewals.filter (fun r => decide (x.2 < r.2)) ∧ t.twin.turn = tuHolder ∧ t.core = s.core) ∧
  (∀ (s : State) (port : Fin 16) (m : Msg), s.acts (pgFPORT port.val) = true → s.passes port.val m = true → m.cls.toNat = clsSys →
    m.opc = 0x9B → s.opts.w = true → s.rd TWIN_PAIR_EN = 1 → m.srcNid = s.rd TWIN_PARTNER_NID → s.twin.turn = tuHolder →
    s.openTx = [] → Completes (.twJoin port m) s fun t => t.twin.resync = some 0 ∧ t.twin.synced = false ∧ t.twin.turn = tuHolder ∧
    t.scan.map (fun c => c.image) = some (some dirSets) ∧ t.core = s.core) ∧
  (∀ (s : State) (port : Fin 16) (m : Msg), s.acts (pgFPORT port.val) = true → s.passes port.val m = true → m.cls.toNat = clsSys →
    m.opc = 0x9B → s.opts.w = true → s.rd TWIN_PAIR_EN = 1 → m.srcNid = s.rd TWIN_PARTNER_NID → s.twin.turn ≠ tuHolder →
    Completes (.twJoin port m) s fun t => t.twin = s.twin ∧ t.reqs = s.reqs ∧ t.core = s.core) ∧
  (∀ (s : State), s.acts pgTWIN = true → s.twin.turn = tuHolder → Completes (.renewTimer) s fun t =>
    t.twin.lseq = (s.twin.lseq + 1) % 2 ^ 16 ∧ t.twin.renewals.getLast? = some ((s.twin.lseq + 1) % 2 ^ 16, s.ao) ∧
    t.twin.turn = tuHolder ∧ t.core = s.core) ∧
  (∀ (s : State), s.acts pgTWIN = true → s.twin.turn = tuHolder → s.twin.leased = true →
    s.twin.ackedSent + s.rd TWIN_FENCE_T ≤ s.ao → s.reqs = [] → s.bakes = [] → s.twin.gates = [] →
    Completes (.fenceDeadline) s fun t => t.twin.turn = tuFenced ∧ t.twin.leased = false ∧ t.twin.turnCount = s.twin.turnCount ∧
    bit (t.rd H_INT_STAT pgTWIN) I_TWIN_SELF_FENCED = true ∧ t.core = s.core) ∧
  (∀ (s : State) (n : Nat), s.acts pgTWIN = true → s.twin.turn = tuStandby → s.twin.synced = true → s.twin.heard = some n →
    n + s.rd TWIN_LEASE_T + s.rd TWIN_GUARD_T ≤ s.ao → s.twin.pendRecs = [] → s.twin.bakes = [] → Completes (.takeover) s fun t =>
    t.twin.turn = tuHolder ∧ t.twin.leased = false ∧ t.twin.turnCount = (s.twin.turnCount + 1) % 2 ^ 32 ∧
    t.dir = s.dir.map (fun e => { e with shadow := false }) ∧ bit (t.rd H_INT_STAT pgTWIN) I_TWIN_TAKEOVER = true ∧ t.core = s.core) ∧
  (∀ (s : State) (ptr n la : Nat), s.acts pgTWIN = true → s.twin.turn = tuHolder → s.twin.resync = some ptr → s.reqs = [] →
    s.nextMirror ptr = some (n, la) → Completes (.resyncLine) s fun t =>
    t.reqs.map (fun r => (r.op, r.off, r.region, r.place)) = [(.resync, la * 64, n, .queued)] ∧ t.twin = s.twin ∧ t.core = s.core) ∧
  (∀ (s : State) (p : Nat), s.acts pgTWIN = true → s.twPort = some p → (s.port p).isUp = true → s.shape.closing = false →
    s.twin.turn = tuFenced → s.rd TWIN_AUTO_JOIN = 1 →
    Completes (.autoJoinTimer) s fun t => t = (s.use [pgTWIN]).send p (mkNodeMsg 0x9B s.nid (s.rd TWIN_PARTNER_NID) joinTxid []) 0 0 ∧
    t.core = s.core) ∧
  (∀ (s : State) (p : Nat), s.acts pgTWIN = true → s.twPort = some p → (s.port p).isUp = true → s.shape.closing = false →
    (s.twin.turn = tuFenced ∨ s.twin.turn = tuIdle) →
    Completes (.join) s fun t => t = (s.use [pgTWIN]).send p (mkNodeMsg 0x9B s.nid (s.rd TWIN_PARTNER_NID) joinTxid []) 0 0 ∧
    t.core = s.core) ∧
  (∀ (s : State), s.acts pgTWIN = true → s.shape.closing = false → (s.twin.turn = tuFenced ∨ s.twin.turn = tuIdle) →
    Completes (.claim) s fun t => t.twin.turn = tuHolder ∧ t.twin.leased = false ∧
    t.twin.turnCount = (s.twin.turnCount + 1) % 2 ^ 32 ∧ t.core = s.core) ∧
  (∀ (s : State), s.acts pgTWIN = true → s.twin.turn = tuHolder → s.twin.leased = true → s.twin.gates = [] → s.twin.writes = [] →
    Completes (.solo) s fun t => t.twin.turn = tuHolder ∧ t.twin.leased = false ∧ t.twin.synced = false ∧ t.twin.desync = true ∧
    t.core = s.core) ∧
  (∀ (s : State), s.acts pgTWIN = true → s.twin.turn = tuStandby → s.twin.bakes = [] → Completes (.leave) s fun t =>
    t.twin.turn = tuFenced ∧ t.twin.synced = false ∧ t.twin.heard = none ∧ t.core = s.core)

/-- Sync begins both directions again and sends HELLO alone; loss of the link drops what waits for it and is reported; a link out of
sync is no longer in sync; unacknowledged frames are sent again in order; an acknowledgement goes in NULL when its timer ends;
the end of an interval closes the running one, tallied only when METER is VERIFIED and identified; Proofs that PROOF_TAIL passes
are gone from the ring; a module seated or gone shows in its presence bit; a job whose close waits for nothing more has its
JOB_CLOSE sent when METER is VERIFIED and the link has nothing else to send, and ends without a Proof when it is not VERIFIED.
(Meter module) -/
def Obligations.MeterLink : Prop :=
  (∀ (s : State), s.acts pgMETER = true → Completes (.meterLinkSync) s fun t => t.meter.sync = true ∧ t.meter.ident = false ∧
    t.meter.rxSeq = 0 ∧ t.meter.txSeq = 1 ∧ t.meter.unacked.map (fun f => (f.1, f.2.1)) = [(1, fyHello)] ∧ t.core = s.core) ∧
  (∀ (s : State), s.acts pgMETER = true → s.meter.sync = true → Completes (.meterLinkLost) s fun t => t.meter.sync = false ∧
    t.meter.ident = false ∧ t.meter.backlog = [] ∧ t.meter.unacked = [] ∧ t.meter.waiting = [] ∧
    bit (t.rd H_INT_STAT pgMETER) I_METER_LINK_LOST = true ∧ t.core = s.core) ∧
  (∀ (s : State), s.acts pgMETER = true → s.meter.sync = true → Completes (.meterLinkOutOfSync) s fun t =>
    t.meter = { s.meter with sync := false } ∧ t.tally = s.tally ∧ t.jobs = s.jobs ∧ t.core = s.core) ∧
  (∀ (s : State), s.acts pgMETER = true → s.meter.sync = true → s.meter.unacked ≠ [] → Completes (.meterFrameResend) s fun t =>
    t.outs = s.outs ++ s.meter.unacked.map (fun f => .frame f.2.1 f.1 s.meter.rxSeq s.meter.nak f.2.2) ∧
    t.meter = { s.meter with nak := false, ackDue := false } ∧
    t.rd METER_RESENDS = min (2 ^ METER_RESENDS.width - 1) (s.rd METER_RESENDS + 1) ∧ t.core = s.core) ∧
  (∀ (s : State), s.acts pgMETER = true → s.meter.sync = true → s.meter.ackDue = true → Completes (.meterAckTimer) s fun t =>
    t.outs = s.outs ++ [.frame fyNull 0 s.meter.rxSeq s.meter.nak []] ∧ t.meter = { s.meter with ackDue := false, nak := false } ∧
    t.regs = s.regs ∧ t.core = s.core) ∧
  (∀ (s : State), s.acts pgMETER = true → s.meter.sync = true → s.meterEnds = false → s.verified = false → s.meter.after = [] →
    Completes (.intervalMark) s fun t => t.tally = [] ∧ t.meter.num = (s.meter.num + 1) % 2 ^ 32 ∧ t.meter.tallied = false ∧
    t.rd METER_UNTALLIED = min (2 ^ METER_UNTALLIED.width - 1) (s.rd METER_UNTALLIED + 1) ∧ t.core = s.core) ∧
  (∀ (s : State), s.acts pgMETER = true → s.meter.sync = true → s.meterEnds = false → s.verified = true → s.meter.ident = true →
    Completes (.intervalMark) s fun t => t.tally = [] ∧ t.meter.num = (s.meter.num + 1) % 2 ^ 32 ∧ t.meter.tallied = true ∧
    t.rd METER_UNTALLIED = s.rd METER_UNTALLIED ∧ t.core = s.core) ∧
  (∀ (s : State), s.acts pgMETER = true → s.meterEnds = false → s.verified = false → s.meter.after = [] →
    Completes (.intervalLocalClose) s fun t => t.tally = [] ∧ t.meter.num = s.meter.num ∧ t.meter.tallied = false ∧
    t.rd METER_UNTALLIED = min (2 ^ METER_UNTALLIED.width - 1) (s.rd METER_UNTALLIED + 1) ∧ t.core = s.core) ∧
  (∀ (s : State) (val : Word), s.acts pgMETER = true → (bits val.toNat 0 6 + 64 - s.meter.tail) % 64 ≤ s.meter.proofs.length →
    Completes (.proofTailWrite val) s fun t =>
    t.meter.proofs = s.meter.proofs.drop ((bits val.toNat 0 6 + 64 - s.meter.tail) % 64) ∧ t.meter.head = s.meter.head ∧
    t.core = s.core) ∧
  (∀ (s : State) (val : Word), s.acts pgMETER = true → s.meter.proofs.length < (bits val.toNat 0 6 + 64 - s.meter.tail) % 64 →
    Completes (.proofTailWrite val) s fun t => t.meter = s.meter ∧ t.rd H_CFG_ERR pgMETER = 1 ∧ t.body = s.body) ∧
  (∀ (s : State) (present : Bool), present ≠ s.meter.present → Completes (.zm3Presence present) s fun t =>
    t.meter.present = present ∧ t.rd TMCB_ZM3_PRESENT = b2n present ∧ t.zm3.sealEvents = s.zm3.sealEvents + b2n present ∧
    t.jobs = s.jobs ∧ t.core = s.core) ∧
  (∀ (s : State) (tid : BitVec 8) (job : BitVec 20) (j : JobRec), s.acts pgMETER = true → s.jobRec tid.toNat job.toNat = some j →
    j.tid = tid.toNat → j.job = job.toNat → j.state = 1 → j.waits = [] → j.closer = none → s.verified = false →
    Completes (.jobCloseEffect tid job) s fun t => t.jobs = s.jobs.filter (fun x => !(x.tid == tid.toNat && x.job == job.toNat)) ∧
    t.reqs = s.reqs ∧ t.core = s.core) ∧
  (∀ (s : State) (tid : BitVec 8) (job : BitVec 20) (j : JobRec), s.acts pgMETER = true → s.jobRec tid.toNat job.toNat = some j →
    j.tid = tid.toNat → j.job = job.toNat → j.state = 1 → j.waits = [] → j.closer = none → s.verified = true →
    Tab.get? s.tally (jobKey tid.toNat job.toNat) = none → s.meter.backlog = [] → s.meter.waiting = [] → s.meter.quitting = false →
    s.meterReady fyJobClose = true → Completes (.jobCloseEffect tid job) s fun t =>
    (t.jobRec tid.toNat job.toNat).map (fun x => x.state) = some 2 ∧ t.meter.txSeq = (s.meter.txSeq + 1) % 65536 ∧
    t.meter.unacked = s.meter.unacked ++ [((s.meter.txSeq + 1) % 65536, fyJobClose, j.closeBody)] ∧ t.reqs = s.reqs ∧ t.core = s.core)

/-- A good frame that is the next in order is accepted and will be acknowledged. NULL acknowledges frames up to its ACK. IDENT sets the
identity registers; STATUS sets the registers of the interval that it names, and the number of the next; a Proof joins the ring
with PROOF_NEW; an ALARM sets its code and is raised, and leaves the model's ZM-3 as it is unless it reports a tamper (assumption
126). None of them changes DRAM, options, fuses or epochs. (Meter module) -/
def Obligations.MeterFrames : Prop :=
  (∀ (s : State) (h : FrameHdr) (u : Nat × Nat × List Nat), s.acts pgMETER = true → s.meter.sync = true → h.good = true →
    h.nak = false → s.meter.unacked = [u] → h.ack.toNat = u.1 → s.meter.waiting = [] → s.meter.backlog = [] →
    s.meter.quitting = false → Completes (.null h) s fun t => t.meter = { s.meter with unacked := [] } ∧ t.regs = s.regs ∧
    t.core = s.core) ∧
  (∀ (s : State) (h : FrameHdr) (b : IdentBody), s.acts pgMETER = true → s.meter.sync = true → h.good = true → h.nak = false →
    s.meter.unacked = [] → s.meter.waiting = [] → s.meter.backlog = [] → s.meter.quitting = false →
    h.seq.toNat = (s.meter.rxSeq + 1) % 65536 → s.jobs = [] → Completes (.ident h b) s fun t => t.meter.rxSeq = h.seq.toNat ∧
    t.meter.ackDue = true ∧ t.meter.ident = true ∧ t.rd METER_ZM3_SERIAL = b.serial.toNat ∧ t.rd METER_CERT_ID = b.certId.toNat ∧
    t.rd METER_SEAL_EVENTS = b.sealEvents.toNat ∧ t.rd METER_LR_VERSION = b.lrVersion.toNat ∧ t.core = s.core) ∧
  (∀ (s : State) (h : FrameHdr) (b : StatusBody), s.acts pgMETER = true → s.meter.sync = true → h.good = true → h.nak = false →
    s.meter.unacked = [] → s.meter.waiting = [] → s.meter.backlog = [] → s.meter.quitting = false →
    h.seq.toNat = (s.meter.rxSeq + 1) % 65536 → s.meter.ident = true → Completes (.status h b) s fun t =>
    t.meter.rxSeq = h.seq.toNat ∧ t.meter.ackDue = true ∧ t.rd METER_INTERVAL = b.interval.toNat ∧ t.rd METER_COND = b.cond.toNat ∧
    t.rd METER_SEALED = b2n b.sealed ∧ t.meter.num = (b.interval.toNat + 1) % 2 ^ 32 ∧
    t.meter.bits = some (packBits [(0, 1, b2n b.bayClosed), (1, 1, b2n b.sealed), (2, 1, b2n b.selfTest)]) ∧ t.tally = s.tally ∧
    t.core = s.core) ∧
  (∀ (s : State) (h : FrameHdr) (pseq : BitVec 64) (p : Bytes), s.acts pgMETER = true → s.meter.sync = true → h.good = true →
    h.nak = false → s.meter.unacked = [] → s.meter.waiting = [] → s.meter.backlog = [] → s.meter.quitting = false →
    h.seq.toNat = (s.meter.rxSeq + 1) % 65536 → s.meter.ident = true → s.meter.proofs.length < 64 →
    Completes (.proof h pseq p) s fun t => t.meter.rxSeq = h.seq.toNat ∧ t.meter.ackDue = true ∧
    t.meter.proofs = s.meter.proofs ++ [(pseq.toNat, p)] ∧ t.meter.head = (s.meter.head + 1) % 64 ∧
    bit (t.rd H_INT_STAT pgMETER) I_METER_PROOF_NEW = true ∧ t.core = s.core) ∧
  (∀ (s : State) (h : FrameHdr) (code chan : Byte) (interval : Word), s.acts pgMETER = true → s.meter.sync = true → h.good = true →
    h.nak = false → s.meter.unacked = [] → s.meter.waiting = [] → s.meter.backlog = [] → s.meter.quitting = false →
    h.seq.toNat = (s.meter.rxSeq + 1) % 65536 → s.meter.ident = true → Completes (.alarm h code chan interval) s fun t =>
    t.meter.rxSeq = h.seq.toNat ∧ t.meter.ackDue = true ∧ t.rd METER_ALARM_CODE = code.toNat ∧
    bit (t.rd H_INT_STAT pgMETER) I_METER_ALARM = true ∧
    t.body = { s.body with meter := t.meter, zm3 := t.zm3 } ∧ (code ≠ 1 → t.zm3 = s.zm3) ∧ t.core = s.core)

/-- HELLO names the node, forgets which jobs were named, and is answered by IDENT and every Proof not acknowledged; JOB_OPEN of a job that
is not open opens it with empty accumulators; an interval that is not metered gives no energy to any job; JOB_CLOSE of an open job
issues a Proof with the next PSEQ, which joins the journal unacknowledged, and the job is closed; PROOF_ACK of a Proof that was
issued acknowledges every Proof up to its number and no other. No register or DRAM of the node changes. (Jobs, apportionment and Proofs; meter
module) -/
def Obligations.ZmThree : Prop :=
  (∀ (s : State) (nid : BitVec 16) (serial : BitVec 64), nid.toNat < 512 → Completes (.zm3Hello nid serial) s fun t =>
    t.zm3 = { s.zm3 with nid := nid.toNat, nodeSerial := serial.toNat, named := some [] } ∧
    t.outs = s.outs ++ .zm3 0x41 s.identBody :: (s.zm3.journal.filter (fun p => !p.2.2)).map (fun p => .zm3 0x44 (body 8 p.1 ++ toNats p.2.1)) ∧
    t.regs = s.regs ∧ t.core = s.core) ∧
  (∀ (s : State) (tid : BitVec 8) (job : BitVec 20) (interval : Word), job ≠ 0 →
    s.zm3.jobs.any (fun x => x.tid == tid.toNat && x.job == job.toNat) = false → Completes (.zm3JobOpen tid job interval) s fun t =>
    t.zm3.jobs = s.zm3.jobs ++ [{ tid := tid.toNat, job := job.toNat, first := s.zm3.wide interval.toNat, acc := [0, 0, 0, 0, 0, 0], odd := [] }] ∧
    t = { s with zm3 := t.zm3 }) ∧
  (∀ (s : State) (interval : Word) (recs : List TallyRec) (energies : List (BitVec 64)) (causes : BitVec 5), s.zm3.named = none →
    Completes (.zm3TallyEnd interval recs energies causes false) s fun t =>
    t.zm3.count = max s.zm3.count (s.zm3.wide interval.toNat) ∧
    t.zm3.jobs.map (fun j => (j.tid, j.job, j.acc)) = s.zm3.jobs.map (fun j => (j.tid, j.job, j.acc)) ∧
    t.zm3.totals = s.zm3.totals ∧ t.zm3.unassigned = s.zm3.unassigned ∧
    t = { s with zm3 := t.zm3, outs := t.outs }) ∧
  (∀ (s : State) (tid : BitVec 8) (job : BitVec 20) (interval : Word) (flags : BitVec 3) (unmet : List (BitVec 64)) (j : ZJob),
    s.zm3.jobs.find? (fun x => x.tid == tid.toNat && x.job == job.toNat) = some j → j.tid = tid.toNat → j.job = job.toNat →
    Completes (.zm3JobClose tid job interval flags unmet) s fun t => t.zm3.pseq = s.zm3.pseq + 1 ∧
    t.zm3.jobs = s.zm3.jobs.filter (fun x => !(x.tid == tid.toNat && x.job == job.toNat)) ∧
    (t.zm3.journal.getLast?.map (fun p => (p.1, p.2.2))) = some (s.zm3.pseq + 1, false) ∧ t.zm3.totals = s.zm3.totals ∧
    t.regs = s.regs ∧ t.dram = s.dram) ∧
  (∀ (s : State) (seq : BitVec 64), seq.toNat ≤ s.zm3.pseq → Completes (.zm3ProofAck seq) s fun t =>
    t.zm3.journal.all (fun p => p.2.2 || decide (seq.toNat < p.1)) = true ∧
    t.zm3.journal.map (fun p => (p.1, p.2.1)) = s.zm3.journal.map (fun p => (p.1, p.2.1)) ∧ t = { s with zm3 := t.zm3 })

/-- At the end of a metered Tally, the energy that reaches job accumulators and JOB 0 totals together with the change of the unassigned
energy equals the energy of channel 0, for any number of records, any counts and any energies. The accumulators of every open job
are six. (Jobs, apportionment and Proofs) -/
def Obligations.EnergyIsConserved : Prop :=
  ∀ (s : State) (interval : Word) (recs : List TallyRec) (energies : List (BitVec 64)) (causes : BitVec 5),
    s.zm3.named = none → (∀ j ∈ s.zm3.jobs, j.acc.length = 6) → Tab.sorted s.zm3.totals = true →
    Completes (.zm3TallyEnd interval recs energies causes true) s fun t =>
      (t.zm3.held : Int) + t.zm3.unassigned = s.zm3.held + s.zm3.unassigned + ((energies.map (fun e => e.toNat))[0]?.getD 0 : Nat)

/-- A lost reference puts the node on its backup with both PLLs to be locked again (assumption 71) and every block that runs on them
stopped; a Running PLL that loses lock stops its domain; a domain whose blocks are all deep enough parks where PARK says so; a fast
start that locks runs, and one that does not falls back to a cold lock, which ends running where no block of the domain has stopped
on it. The first two hold of a node that is no Holder of a pair. (Power and clocks) -/
def Obligations.Clocks : Prop :=
  (∀ (s : State) (p : Nat), s.acts pgCLK = true → (s.opts.w = false ∨ (s.twin.turn ≠ tuHolder ∧ s.twin.turn ≠ tuHanding)) →
    s.rd CLK_ON_BACKUP = 0 → p < 0x83 → s.present p = true → (inDomain false p || inDomain true p) = true →
    Completes (.referenceLoss) s fun t => t.rd CLK_ON_BACKUP = 1 ∧ t.rd CLK_REF_OK = 0 ∧ t.rd CLK_FC_STATE = pllCold ∧
    t.rd CLK_MC_STATE = pllCold ∧ t.rd H_COND p = 2 ∧ bit (t.rd H_INT_STAT pgCLK) I_CLK_REF_LOSS = true ∧ t.core = s.core) ∧
  (∀ (s : State) (mc : Bool), s.acts pgCLK = true → s.mayPark mc = true → Completes (.pllPark mc) s fun t =>
    t.rd (pllField mc) = pllParked ∧ t.rd (pllField (!mc)) = s.rd (pllField (!mc)) ∧ t.body = s.body) ∧
  (∀ (s : State) (mc : Bool), s.acts pgCLK = true → s.rd (pllField mc) = pllStarting →
    Completes (.pllFastStartDone mc true) s fun t => t.rd (pllField mc) = pllRunning ∧
    t.rd CLK_FAST_STARTS = min (2 ^ CLK_FAST_STARTS.width - 1) (s.rd CLK_FAST_STARTS + 1) ∧ t.body = s.body) ∧
  (∀ (s : State) (mc : Bool), s.acts pgCLK = true → s.rd (pllField mc) = pllStarting →
    Completes (.pllFastStartDone mc false) s fun t => t.rd (pllField mc) = pllCold ∧
    t.rd CLK_COLD_LOCKS = min (2 ^ CLK_COLD_LOCKS.width - 1) (s.rd CLK_COLD_LOCKS + 1) ∧
    bit (t.rd H_INT_STAT pgCLK) I_CLK_COLD_LOCK = true ∧ t.body = s.body) ∧
  (∀ (s : State) (mc : Bool), s.acts pgCLK = true → s.rd (pllField mc) = pllCold →
    allPages.any (fun p => s.present p && inDomain mc p && s.rd H_COND p == 2) = false → Completes (.coldLockDone mc) s fun t =>
    t.rd (pllField mc) = pllRunning ∧ t.body = s.body) ∧
  (∀ (s : State) (mc : Bool) (p : Nat), s.acts pgCLK = true →
    (s.opts.w = false ∨ (s.twin.turn ≠ tuHolder ∧ s.twin.turn ≠ tuHanding)) → s.rd (pllField mc) = pllRunning → p < 0x83 →
    s.present p = true → inDomain mc p = true → Completes (.pllLockLoss mc) s fun t => t.rd (pllField mc) = pllCold ∧
    t.rd H_COND p = 2 ∧ bit (t.rd H_INT_STAT pgCLK) I_CLK_LOCK_LOSS = true ∧ t.core = s.core)

/-- A block that has been idle long enough enters Nap, Doze or Off where its policy and its deepest state allow it; a block that was woken
is in Run, and a wake that lasts too long is reported; a sample sets TJ_NOW to the highest valid reading, or to 115 °C with fewer
than twelve, and asks for throttling from 100 °C on; the TMC receives TJ_NOW; THERMTRIP takes the node's power. (Power and clocks) -/
def Obligations.PowerStates : Prop :=
  (∀ (s : State) (page : BitVec 12), s.acts pgPWR = true → s.mayEnter page.toNat 1 PWR_NAP_AFTER (cyclesPerTick page.toNat) = true →
    Completes (.blockNapEntry page) s fun t => t.rd H_PWR_NOW page.toNat = 1 ∧ t.body = s.body) ∧
  (∀ (s : State) (page : BitVec 12), s.acts pgPWR = true → s.mayEnter page.toNat 2 PWR_DOZE_AFTER = true →
    Completes (.blockDozeEntry page) s fun t => t.rd H_PWR_NOW page.toNat = 2 ∧ t.body = s.body) ∧
  (∀ (s : State) (page : BitVec 12), s.acts pgPWR = true → s.mayEnter page.toNat 3 PWR_OFF_AFTER = true →
    Completes (.blockOffEntry page) s fun t => t.rd H_PWR_NOW page.toNat = 3 ∧ t.reqs = s.reqs ∧ t.core = s.core) ∧
  (∀ (s : State) (page : BitVec 12) (ticks : Nat), s.acts pgPWR = true → s.waking.contains page.toNat = true →
    ticks ≤ s.wakeBound page.toNat + 16 → page.toNat < 0x83 → Completes (.blockWakeDone page ticks) s fun t =>
    t.rd H_PWR_NOW page.toNat = 0 ∧ t.waking.contains page.toNat = false ∧ (page.toNat ≠ pgXLAT → t.body = s.body) ∧
    t.reqs = s.reqs ∧ t.core = s.core) ∧
  (∀ (s : State) (page : BitVec 12) (ticks : Nat), s.acts pgPWR = true → s.waking.contains page.toNat = true →
    s.wakeBound page.toNat + 16 < ticks → page.toNat < 0x83 → Completes (.blockWakeDone page ticks) s fun t =>
    t.rd H_PWR_NOW page.toNat = 0 ∧ t.waking.contains page.toNat = false ∧ bit (t.rd H_INT_STAT pgPWR) I_PWR_WAKE_SLOW = true ∧
    (page.toNat ≠ pgXLAT → t.body = s.body) ∧ t.reqs = s.reqs ∧ t.core = s.core) ∧
  (∀ (s : State) (l : List (BitVec 16 × Bool)), s.acts pgPWR = true → l.length = 16 → Completes (.tjSample l) s fun t =>
    t.rd PWR_TJ_NOW = unsgn 16 (tjOf (l.map (fun x => (x.1.toNat, x.2)))) ∧ t.rd PWR_TJ_VALID = (l.filter (fun x => x.2)).length ∧
    t.rd PWR_THROTTLE_REQ = b2n (decide (400 ≤ tjOf (l.map (fun x => (x.1.toNat, x.2))))) ∧ t.core = s.core) ∧
  (∀ (s : State), s.acts pgPWR = true → Completes (.tjReport) s fun t =>
    t.tmc = { s.tmc with tj := sgn 16 (s.rd PWR_TJ_NOW), stack := s.hotStack, reported := s.tmc.now } ∧ t.regs = s.regs ∧
    t.core = s.core) ∧
  (∀ (s : State), s.tmc.nodeRails = true → Completes (.thermtrip) s fun t =>
    t.tmc = { s.tmc with trip := some s.tmc.now, stackRail := false, nodeRails := false, offAt := some s.tmc.now, start := false } ∧
    t.core = s.core)

/-- The input's ramp ends at power good; each trip latches the hot-swap off with its kind; a policy that retries opens the latch; an
undervoltage opens the ride-through window, which the input's return within 2 ms closes; a leak takes every output off until
every sensor that tripped is reset; the watchdog puts the fans and pumps at full duty and resets the TMC, and no latch; the loss
of the standby supply takes everything off. (Tray management) -/
def Obligations.TraySafety : Prop :=
  (∀ (s : State), s.tmc.standby = true → s.tmc.input = true → s.tmc.hsEn = true → s.tmc.latched = false →
    Completes (.hsEnable) s fun t => t = { s with tmc := { s.tmc with powerGood := true } }) ∧
  (∀ (s : State), s.acts pgTMCB = true → s.tmc.standby = true → s.tmc.input = true → s.tmc.hsEn = true → s.tmc.latched = false →
    Completes (.hsFastTrip) s fun t => t.tmc = { s.tmc with latched := true, kind := 1, powerGood := false } ∧
    t.rd TMCB_HS_TRIPS = min (2 ^ TMCB_HS_TRIPS.width - 1) (s.rd TMCB_HS_TRIPS + 1) ∧
    bit (t.rd H_INT_STAT pgTMCB) I_TMCB_HS_TRIP = true ∧ t.core = s.core) ∧
  (∀ (s : State), s.acts pgTMCB = true → s.tmc.standby = true → s.tmc.input = true → s.tmc.hsEn = true → s.tmc.latched = false →
    Completes (.hsTimerTrip) s fun t => t.tmc = { s.tmc with latched := true, kind := 2, powerGood := false } ∧
    t.rd TMCB_HS_TRIPS = min (2 ^ TMCB_HS_TRIPS.width - 1) (s.rd TMCB_HS_TRIPS + 1) ∧
    bit (t.rd H_INT_STAT pgTMCB) I_TMCB_HS_TRIP = true ∧ t.core = s.core) ∧
  (∀ (s : State), s.acts pgTMCB = true → s.tmc.standby = true → s.tmc.input = true → s.tmc.hsEn = true → s.tmc.latched = false →
    Completes (.hsOvervoltage) s fun t => t.tmc = { s.tmc with latched := true, kind := 3, powerGood := false } ∧
    t.rd TMCB_HS_TRIPS = min (2 ^ TMCB_HS_TRIPS.width - 1) (s.rd TMCB_HS_TRIPS + 1) ∧
    bit (t.rd H_INT_STAT pgTMCB) I_TMCB_HS_TRIP = true ∧ t.core = s.core) ∧
  (∀ (s : State), s.mayRetry = true →
    Completes (.hsRetry) s fun t => t = { s with tmc := { s.tmc with latched := false, retries := s.tmc.retries + 1 } }) ∧
  (∀ (s : State), s.acts pgTMCB = true → s.tmc.standby = true → s.tmc.shut = none → s.tmc.uv = none →
    Completes (.undervoltage) s fun t => t.tmc = { s.tmc with powerGood := false, input := s.tmc.latched, uv := some s.tmc.now } ∧
    t.rd TMCB_HOLDUP_PENDING = 1 ∧ bit (t.rd H_INT_STAT pgTMCB) I_TMCB_HOLDUP = true ∧ t.core = s.core) ∧
  (∀ (s : State) (n : Nat), s.acts pgTMCB = true → s.tmc.uv = some n → s.tmc.latched = false → s.tmc.hsEn = true →
    s.tmc.shut = none → s.tmc.now < n + 3125 → Completes (.inputReturn) s fun t =>
    t.tmc = { s.tmc with input := true, powerGood := true, uv := none } ∧ t.rd TMCB_HOLDUP_PENDING = 0 ∧
    t.rd TMCB_RIDE_THROUGHS = min (2 ^ TMCB_RIDE_THROUGHS.width - 1) (s.rd TMCB_RIDE_THROUGHS + 1) ∧ t.core = s.core) ∧
  (∀ (s : State) (sensor : Fin 4), s.tmc.standby = true → Completes (.leakDetect sensor) s fun t => t.tmc.leakLatch = true ∧
    t.tmc.wet = setNth s.tmc.wet sensor.val true ∧ t.tmc.hsEn = false ∧ t.tmc.bankOut = false ∧ t.tmc.powerGood = false ∧
    t.tmc.nodeRails = false ∧ t.tmc.stackRail = false ∧ t.tmc.start = false ∧ t.tmc.duties = List.replicate 6 0 ∧ t.core = s.core) ∧
  (∀ (s : State) (sensor : Fin 4), s.tmc.standby = true →
    Completes (.leakDetectorReset sensor true true) s fun t => t = { s with tmc := { s.tmc with wet := setNth s.tmc.wet sensor.val false, leakLatch := s.tmc.leakLatch && (setNth s.tmc.wet sensor.val false).any id } }) ∧
  (∀ (s : State), s.tmc.standby = true →
    Completes (.watchdogExpiry) s fun t => t = { s with tmc := { s.tmc with duties := if s.tmc.leakLatch then s.tmc.duties else List.replicate 6 100, running := false, wdt := s.tmc.wdt + 1, wdtBoot := true } }) ∧
  (∀ (s : State), Completes (.standbySupplyLoss) s fun t => t.tmc.standby = false ∧ t.tmc.running = false ∧
    t.tmc.leakLatch = s.tmc.leakLatch ∧ t.tmc.hsEn = false ∧ t.tmc.bankOut = false ∧ t.tmc.powerGood = false ∧
    t.tmc.nodeRails = false ∧ t.core = s.core)

/-- A commit fixes the cause, shows SHUT_COMMITTED and closes admission; at the drain limit nothing that was open is left; the rails
open once METER has ended its jobs, with the Crumbs copied; the bank's output opens last; the hard cut takes the rails whatever
step was reached; a tray that shut down on hold-up restarts once it has rested and its bank is charged. The commit is stated of a
node that is not paired and holds no request or Bake. (Tray management) -/
def Obligations.OrderlyShutdown : Prop :=
  (∀ (s : State) (cause : BitVec 3), s.acts pgTMCB = true → s.tmc.live = true → s.tmc.shut = none → s.shutCause cause.toNat = true →
    s.shape.open_ = false → s.rd H_COND pgSHAPE ≠ 2 → s.reqs = [] → s.bakes = [] → s.twin.turn = tuUnpaired →
    Completes (.shutdownCommit cause) s fun t =>
    t.tmc.shut.map (fun x => (x.cause, x.rails, x.ended)) = some (cause.toNat, false, false) ∧ t.rd TMCB_SHUT_COMMITTED = 1 ∧
    t.rd TMCB_SHUT_CAUSE = cause.toNat ∧ t.shape.closing = true ∧ t.tpk = none ∧
    bit (t.rd H_INT_STAT pgTMCB) I_TMCB_SHUT_COMMIT = true ∧ t.core = s.core) ∧
  (∀ (s : State), s.acts pgTMCB = true → s.tmc.live = true → s.tmc.shut = none → s.shape.open_ = false → s.rd H_COND pgSHAPE ≠ 2 →
    s.reqs = [] → s.bakes = [] → s.twin.turn = tuUnpaired → Completes (.gracefulShutdown) s fun t =>
    t.tmc.shut.map (fun x => (x.cause, x.rails, x.ended)) = some (4, false, false) ∧ t.shape.closing = true ∧ t.tpk = none ∧
    t.core = s.core) ∧
  (∀ (s : State), s.tmc.shut.isSome = true → s.acts pgSHAPE = true → s.twin.turn ≠ tuHolder → s.twin.turn ≠ tuHanding →
    Completes (.shutdownDrainLimit) s fun t => t.reqs = s.reqs.filter (fun r => r.place == .queued || r.place == .bypass) ∧
    t.trks = [] ∧ t.bakes = [] ∧ t.loads = [] ∧ t.fences = [] ∧ t.rot = none ∧ t.dir = s.dir ∧ t.tmc = s.tmc ∧ t.core = s.core) ∧
  (∀ (s : State) (sh : Shut), s.tmc.shut = some sh → sh.rails = false → s.meter.ended = true → s.tmc.nodeRails = true →
    Completes (.railsOff) s fun t => t.tmc.nodeRails = false ∧ t.tmc.stackRail = false ∧
    t.tmc.shut = some { sh with metered := true, flushed := true, rails := true } ∧
    t.tmc.crumbs = (s.tmc.crumbs ++ s.evlog.inOrder).drop ((s.tmc.crumbs ++ s.evlog.inOrder).length - 4096) ∧ t.core = s.core) ∧
  (∀ (s : State) (sh : Shut), s.tmc.shut = some sh → sh.rails = true → sh.ended = false → Completes (.bankOutputOpen) s fun t =>
    t.tmc = { s.tmc with bankOut := false, shut := some { sh with ended := true } } ∧ t.regs = s.regs ∧ t.core = s.core) ∧
  (∀ (s : State) (sh : Shut), s.tmc.nodeRails = true → s.tmc.shut = some sh → Completes (.hardCut) s fun t =>
    t.tmc.nodeRails = false ∧ t.tmc.forced = true ∧ t.tmc.log = s.tmc.log ++ [(lgForced, s.tmc.now)] ∧
    t.tmc.shut = some { sh with rails := true } ∧ t.core = s.core) ∧
  (∀ (s : State) (n : Nat) (v : Sensors) (sh : Shut), s.tmc.live = true → s.tmc.offAt = some n → n + 156250 ≤ s.tmc.now →
    s.tmc.readings = some v → s.rd TMCB_RECHARGE_V ≤ v.bankV.toNat → s.tmc.input = true → s.tmc.latched = false →
    s.tmc.shut = some sh → sh.cause = 1 → sh.ended = true → Completes (.trayRestart) s fun t => t.tmc.shut = none ∧
    t.tmc.offAt = none ∧ t.tmc.start = true ∧ t.tmc.hsEn = true ∧ t.tmc.bankOut = true ∧ t.tmc.powerGood = true ∧ t.regs = s.regs ∧
    t.core = s.core)

/-- A mirror update shows the TMC's readings and latches in the node; a TMC whose mirror stops is reported lost; the cooling demand is
held within floor and ceiling unless the tray is hot; a failed pump gives the other the full flow; a boot of the TMC adopts every
latch; pins change at a safe level; straps, presence and capacitance show in the node, and the bay cover opened or a ZM-3 inserted
counts in its SEAL_EVENTS; On opens the latches, Force Off and Power Cycle take the outputs, the latter to give them again. (Tray
management; meter module) -/
def Obligations.TrayControl : Prop :=
  (∀ (s : State) (v : Sensors), s.acts pgTMCB = true → s.tmc.live = true → Completes (.tmcMirrorUpdate v) s fun t =>
    t.rd TMCB_TMC_ALIVE = 1 ∧ t.rd TMCB_BANK_V = v.bankV.toNat ∧ t.rd TMCB_INPUT_V = v.inputV.toNat ∧
    t.rd TMCB_COOLANT_OUT = v.coolantOut.toNat ∧ t.rd TMCB_LEAK_LATCH = b2n s.tmc.leakLatch ∧
    t.rd TMCB_HS_LATCHED = b2n s.tmc.latched ∧ t.tmc = { s.tmc with readings := some v, wdt := 0, mirrored := s.ao } ∧
    t.core = s.core) ∧
  (∀ (s : State), s.acts pgTMCB = true → s.rd TMCB_TMC_ALIVE = 1 → Completes (.tmcLost) s fun t => t.rd TMCB_TMC_ALIVE = 0 ∧
    bit (t.rd H_INT_STAT pgTMCB) I_TMCB_TMC_LOST = true ∧ t.body = s.body) ∧
  (∀ (s : State) (demand : BitVec 7), s.tmc.live = true → s.tmc.leakLatch = false → s.tmc.hot = false → s.tmc.above = false →
    s.tmc.pumpsBad = [false, false] → Completes (.coolingUpdate demand) s fun t =>
    t.tmc = { s.tmc with duties := List.replicate 6 (max (s.rd TMCB_COOL_FLOOR) (min (s.rd TMCB_COOL_CEIL) demand.toNat)) } ∧
    t.regs = s.regs ∧ t.core = s.core) ∧
  (∀ (s : State) (demand : BitVec 7), s.tmc.live = true → s.tmc.leakLatch = false → s.tmc.hot = true →
    s.tmc.pumpsBad = [false, false] → Completes (.coolingUpdate demand) s fun t => t.tmc.duties = List.replicate 6 100 ∧
    t.core = s.core) ∧
  (∀ (s : State) (pumpB : Bool), s.acts pgTMCB = true → s.tmc.live = true → s.tmc.leakLatch = false → s.tmc.pumpsBad = [false, false] →
    Completes (.pumpFail pumpB) s fun t =>
    t.tmc = { s.tmc with pumpsBad := setNth [false, false] (b2n pumpB) true, duties := setNth s.tmc.duties (4 + b2n (!pumpB)) 100 } ∧
    bit (t.rd H_INT_STAT pgTMCB) I_TMCB_PUMP_FAIL = true ∧ t.core = s.core) ∧
  (∀ (s : State), s.acts pgTMCB = true → s.tmc.standby = true → s.tmc.running = false → s.tmc.uv = none →
    Completes (.tmcBoot) s fun t => t.tmc = { s.tmc with running := true, wdtBoot := false, wdt := 0 } ∧
    t.rd TMCB_WDT_EXPIRIES = min (2 ^ TMCB_WDT_EXPIRIES.width - 1) (s.rd TMCB_WDT_EXPIRIES + s.tmc.wdt) ∧ t.core = s.core) ∧
  (∀ (s : State) (version : BitVec 16), s.tmc.live = true →
    Completes (.tmcFirmwareUpdate version) s fun t => t = { s with tmc := { s.tmc with running := false, wdtBoot := false, version := version.toNat } }) ∧
  (∀ (s : State),
    Completes (.managerReset) s fun t => t = { s with tmc := { s.tmc with running := false, wdtBoot := s.tmc.wdtBoot && !s.tmc.running } }) ∧
  (∀ (s : State) (pin : Fin 34) (fn : Fin 2), s.tmc.live = true → Tab.get s.tmc.pins pin.val 0 ≠ fn.val →
    Completes (.pinFunctionSwitch pin fn) s fun t => t = { s with tmc := { s.tmc with pins := Tab.set s.tmc.pins pin.val (fn.val + 2) } }) ∧
  (∀ (s : State) (straps : BitVec 9), s.acts pgTMCB = true → Completes (.strapSample straps) s fun t => t.tmc.straps = straps ∧
    t.tmc.standby = true ∧ t.rd TMCB_STRAPS = straps.toNat ∧ t.core = s.core) ∧
  (∀ (s : State) (input : Fin 19) (present : Bool), s.acts pgTMCB = true → s.tmc.live = true → input.val ≠ 16 →
    bit s.tmc.present.toNat input.val ≠ present → Completes (.presenceDebounce input present) s fun t =>
    t.tmc = { s.tmc with present := BitVec.ofNat 19 (setBits s.tmc.present.toNat input.val 1 (b2n present)) } ∧
    t.rd TMCB_MOD_PRESENT = bits (setBits s.tmc.present.toNat input.val 1 (b2n present)) 0 16 ∧
    t.rd TMCB_BAY_CLOSED = bits (setBits s.tmc.present.toNat input.val 1 (b2n present)) 17 1 ∧
    t.rd TMCB_BANK_PRESENT = bits (setBits s.tmc.present.toNat input.val 1 (b2n present)) 18 1 ∧
    t.zm3.sealEvents = s.zm3.sealEvents + b2n (decide (input.val = 17) && !present) ∧
    bit (t.rd H_INT_STAT pgTMCB) I_TMCB_PRESENCE = true ∧ t.core = s.core) ∧
  (∀ (s : State) (input : Fin 19) (present : Bool), s.acts pgTMCB = true → s.tmc.live = true → input.val = 16 →
    bit s.tmc.present.toNat 16 ≠ present → s.meter.present ≠ present → Completes (.presenceDebounce input present) s fun t =>
    t.meter.present = present ∧ t.rd TMCB_ZM3_PRESENT = b2n present ∧ bit t.tmc.present.toNat 16 = present ∧
    t.zm3.sealEvents = s.zm3.sealEvents + b2n present ∧ bit (t.rd H_INT_STAT pgTMCB) I_TMCB_PRESENCE = true ∧ t.core = s.core) ∧
  (∀ (s : State) (c : BitVec 16), s.acts pgTMCB = true → s.tmc.live = true → Completes (.bankCapacitanceTest c) s fun t =>
    t.tmc = { s.tmc with capacity := c.toNat } ∧ t.rd TMCB_BANK_WEAK = b2n (decide (c.toNat < 800)) ∧
    t.body = { s.body with tmc := t.tmc }) ∧
  (∀ (s : State) (pumps : BitVec 2), s.onAllowed pumps = true → s.tmc.nodeRails = false →
    Completes (.chassisResetOn pumps) s fun t => t.tmc.latched = false ∧ t.tmc.trip = none ∧ t.tmc.shut = none ∧
    t.tmc.start = true ∧ t.tmc.hsEn = true ∧ t.tmc.pumpsBad = [!bit pumps.toNat 0, !bit pumps.toNat 1] ∧ t.regs = s.regs ∧
    t.core = s.core) ∧
  (∀ (s : State), s.tmc.live = true → Completes (.forceOff) s fun t => t.tmc.hsEn = false ∧ t.tmc.bankOut = false ∧
    t.tmc.powerGood = false ∧ t.tmc.nodeRails = false ∧ t.tmc.stackRail = false ∧ t.tmc.start = false ∧
    t.tmc.duties = s.tmc.duties ∧ t.core = s.core) ∧
  (∀ (s : State), s.tmc.live = true → s.tmc.leakLatch = false → s.tmc.trip = none → s.tmc.latched = false →
    Completes (.powerCycle) s fun t => t.tmc.nodeRails = false ∧ t.tmc.hsEn = true ∧ t.tmc.bankOut = true ∧ t.tmc.start = true ∧
    t.tmc.powerGood = s.tmc.input ∧ t.core = s.core) ∧
  (∀ (s : State) (copy : BitVec 2), s.tmc.live = true →
    Completes (.bootSourceOverride copy) s fun t => t = { s with tmc := { s.tmc with override := some copy.toNat } })

/-- A claim of a free mailbox gives it to its agent, a release by its owner frees it and one by another is counted. Each command ends
with its RESULT, DONE set and the mailbox idle: PING does nothing else, GET_INFO gives eight bytes that begin with the versions and
GET_IDCERT the length of the certificate, ADMIT opens admission where it may and ends in STATE where not, BLOCK_RESET resets a
block that may be and ends in STATE for another and in NOUNIT for an absent engine, WARM_RESET is accepted and its preparation
begins, the profile is stored as it is and read back, a retire-map entry is forgotten by the TMC, and the fingerprint of the fitted
module is enrolled or forgotten. (Boot, reset and bring-up; meter module) -/
def Obligations.Mailbox : Prop :=
  (∀ (s : State) (aid : BitVec 12), s.acts pgWARDEN = true → s.warden.owner = none →
    Completes (.mbxClaim (.agent aid)) s fun t => t = { s with warden := { s.warden with owner := some aid.toNat } }) ∧
  (∀ (s : State) (aid : BitVec 12), s.acts pgWARDEN = true → s.warden.owner = some aid.toNat →
    Completes (.mbxRelease (.agent aid)) s fun t => t = { s with warden := { s.warden with owner := none } }) ∧
  (∀ (s : State) (aid : BitVec 12), s.acts pgWARDEN = true → s.warden.owner ≠ some aid.toNat →
    Completes (.mbxRelease (.agent aid)) s fun t =>
    t.rd WARDEN_MBX_DENY = min (2 ^ WARDEN_MBX_DENY.width - 1) (s.rd WARDEN_MBX_DENY + 1) ∧ t.body = s.body) ∧
  (∀ (s : State) (len : Nat) (core : Bool), s.acts pgWARDEN = true → s.warden.busy = some (0x01, len, core) →
    Completes (.ping) s fun t => t.rd WARDEN_MBX_RESULT = 0 ∧ t.rd WARDEN_MBX_DONE = 1 ∧ t.warden.busy = none ∧
    t.rd WARDEN_MBX_OUT_LEN = 0 ∧ bit (t.rd H_INT_STAT pgWARDEN) I_WARDEN_MBX_DONE = true ∧
    t.warden = { s.warden with busy := none } ∧ t.core = s.core) ∧
  (∀ (s : State) (len : Nat) (core : Bool), s.acts pgWARDEN = true → s.warden.busy = some (0x02, len, core) →
    Completes (.getInfo) s fun t => t.rd WARDEN_MBX_RESULT = 0 ∧ t.rd WARDEN_MBX_DONE = 1 ∧ t.warden.busy = none ∧
    t.rd WARDEN_MBX_OUT_LEN = 8 ∧
    t.rd WARDEN_MBX_BUF 0 0 = s.rd IDENT_WARDEN_VER + s.rd WARDEN_RUN_SVN % 64 * 2 ^ 16 + s.fuses.svnFloor % 64 * 2 ^ 24 ∧
    t.warden = { s.warden with busy := none } ∧ t.core = s.core) ∧
  (∀ (s : State) (len : Nat) (core : Bool), s.acts pgWARDEN = true → s.warden.busy = some (0x03, len, core) →
    Completes (.getIdcert) s fun t => t.rd WARDEN_MBX_RESULT = 0 ∧ t.rd WARDEN_MBX_DONE = 1 ∧ t.warden.busy = none ∧
    t.rd WARDEN_MBX_OUT_LEN = (Config.idCert.take 512).length ∧ t.warden = { s.warden with busy := none } ∧ t.core = s.core) ∧
  (∀ (s : State) (len : Nat) (core : Bool), s.acts pgWARDEN = true → s.warden.busy = some (0x10, len, core) → s.mayOpen = true →
    Completes (.admitKeys) s fun t => t.rd WARDEN_MBX_RESULT = 0 ∧ t.rd WARDEN_MBX_DONE = 1 ∧ t.warden.busy = none ∧
    t.shape = { s.shape with open_ := true } ∧ t.rd WARDEN_BOOT_PHASE = 4 ∧ t.warden = { s.warden with busy := none } ∧
    t.core = s.core) ∧
  (∀ (s : State) (len : Nat) (core : Bool), s.acts pgWARDEN = true → s.warden.busy = some (0x10, len, core) → s.mayOpen = false →
    Completes (.admitKeys) s fun t => t.rd WARDEN_MBX_RESULT = mrState ∧ t.rd WARDEN_MBX_DONE = 1 ∧ t.warden.busy = none ∧
    t.shape = s.shape ∧ t.warden = { s.warden with busy := none } ∧ t.core = s.core) ∧
  (∀ (s : State) (len : Nat) (core : Bool), s.acts pgWARDEN = true → s.warden.busy = some (0x11, len, core) → s.warden.prep = none →
    s.tmc.shut = none → s.reqs = [] → s.bakes = [] → s.twin.turn = tuUnpaired → Completes (.warmReset) s fun t =>
    t.rd WARDEN_MBX_RESULT = 0 ∧ t.rd WARDEN_MBX_DONE = 1 ∧ t.warden.busy = none ∧ t.warden.prep = some 3 ∧ t.shape.closing = true ∧
    t.core = s.core) ∧
  (∀ (s : State) (len : Nat) (core : Bool), s.acts pgWARDEN = true → s.warden.busy = some (0x12, len, core) →
    s.mayReset (leNat (s.mbxIn 2)) = true → s.present (leNat (s.mbxIn 2)) = true → Completes (.blockReset) s fun t =>
    t.rd WARDEN_MBX_RESULT = 0 ∧ t.rd WARDEN_MBX_DONE = 1 ∧ t.warden.busy = none ∧ t.rd H_COND (leNat (s.mbxIn 2)) = 1 ∧
    t.cfgOpen = s.cfgOpen ∧ t.core = s.core) ∧
  (∀ (s : State) (len : Nat) (core : Bool), s.acts pgWARDEN = true → s.warden.busy = some (0x12, len, core) →
    s.mayReset (leNat (s.mbxIn 2)) = false → (0x50 ≤ leNat (s.mbxIn 2) → leNat (s.mbxIn 2) < 0x80 → s.present (leNat (s.mbxIn 2)) = true) →
    Completes (.blockReset) s fun t => t.rd WARDEN_MBX_RESULT = mrState ∧
    t.rd WARDEN_MBX_DONE = 1 ∧ t.warden.busy = none ∧ t.warden = { s.warden with busy := none } ∧ t.core = s.core) ∧
  (∀ (s : State) (len : Nat) (core : Bool), s.acts pgWARDEN = true → s.warden.busy = some (0x12, len, core) →
    0x50 ≤ leNat (s.mbxIn 2) → leNat (s.mbxIn 2) < 0x80 → s.opts.c = false → Completes (.blockReset) s fun t =>
    t.rd WARDEN_MBX_RESULT = mrNounit ∧ t.rd WARDEN_MBX_DONE = 1 ∧ t.warden = { s.warden with busy := none } ∧ t.core = s.core) ∧
  (∀ (s : State) (len : Nat) (core : Bool), s.acts pgWARDEN = true → s.warden.busy = some (0x13, len, core) → s.tmc.live = true →
    Completes (.profileWrite) s fun t => t.rd WARDEN_MBX_RESULT = 0 ∧ t.rd WARDEN_MBX_DONE = 1 ∧ t.warden.busy = none ∧
    t.tmc = { s.tmc with profile := some (s.mbxIn 256) } ∧ t.warden = { s.warden with busy := none } ∧ t.core = s.core) ∧
  (∀ (s : State) (len : Nat) (core : Bool) (b : Bytes), s.acts pgWARDEN = true → s.warden.busy = some (0x14, len, core) →
    s.tmc.live = true → s.tmc.profile = some b → b.length = 256 → Completes (.profileRead) s fun t => t.rd WARDEN_MBX_RESULT = 0 ∧
    t.rd WARDEN_MBX_DONE = 1 ∧ t.warden.busy = none ∧ t.rd WARDEN_MBX_OUT_LEN = 256 ∧ t.tmc = s.tmc ∧
    t.warden = { s.warden with busy := none } ∧ t.core = s.core) ∧
  (∀ (s : State) (len : Nat) (core : Bool), s.acts pgWARDEN = true → s.warden.busy = some (0x15, len, core) → s.tmc.live = true →
    (Tab.get? s.tmc.rmap (leNat (s.mbxIn 1))).isSome = true → Completes (.rmapForget) s fun t => t.rd WARDEN_MBX_RESULT = 0 ∧
    t.rd WARDEN_MBX_DONE = 1 ∧ t.warden.busy = none ∧ t.tmc = { s.tmc with rmap := Tab.erase s.tmc.rmap (leNat (s.mbxIn 1)) } ∧
    t.ras = s.ras ∧ t.core = s.core) ∧
  (∀ (s : State) (len : Nat) (core : Bool), s.acts pgWARDEN = true → s.warden.busy = some (0x48, len, core) →
    Completes (.meterEnroll) s fun t => t.rd WARDEN_MBX_RESULT = 0 ∧ t.rd WARDEN_MBX_DONE = 1 ∧ t.warden.busy = none ∧
    t.tmc.enroll = (List.range 8).map (fun i => s.rd METER_KEY_FP 0 i) ∧
    (List.range 8).all (fun i => t.rd METER_ENROLL_FP 0 i == s.rd METER_KEY_FP 0 i) = true ∧ t.core = s.core) ∧
  (∀ (s : State) (len : Nat) (core : Bool), s.acts pgWARDEN = true → s.warden.busy = some (0x49, len, core) →
    Completes (.meterForget) s fun t => t.rd WARDEN_MBX_RESULT = 0 ∧ t.rd WARDEN_MBX_DONE = 1 ∧ t.warden.busy = none ∧
    t.tmc.enroll = List.replicate 8 0 ∧ (List.range 8).all (fun i => t.rd METER_ENROLL_FP 0 i == 0) = true ∧ t.core = s.core)

/-- IMAGE_WRITE writes the copy that does not run; IMAGE_CHECK reports whether that copy is signed, formed and new enough; IMAGE_PREFER
makes a good one the preferred copy on trial; IMAGE_CONFIRM ends a trial that runs and makes its copy the confirmed preference;
SVN_ADVANCE raises the floor to the running version and never lowers it; a trial that is not confirmed in time is reverted and a
warm reset prepared. Stated with copy A running, and the revert of a node that is not paired and holds no request or Bake. (Boot,
reset and bring-up) -/
def Obligations.Images : Prop :=
  (∀ (s : State) (len : Nat) (core : Bool), s.acts pgWARDEN = true → s.warden.busy = some (0x20, len, core) →
    s.rd WARDEN_BOOT_COPY = 0 → Completes (.imageWrite) s fun t => t.rd WARDEN_MBX_RESULT = 0 ∧ t.rd WARDEN_MBX_DONE = 1 ∧
    t.warden.busy = none ∧ t.warden.flashB = fwWrite s.warden.flashB (leNat ((s.mbxIn len).take 4)) ((s.mbxIn len).drop 4) ∧
    t.warden.flashA = s.warden.flashA ∧ t.core = s.core) ∧
  (∀ (s : State) (len : Nat) (core : Bool), s.acts pgWARDEN = true → s.warden.busy = some (0x21, len, core) →
    s.rd WARDEN_BOOT_COPY = 0 → Completes (.imageCheck) s fun t => t.rd WARDEN_MBX_RESULT = s.fwCheck s.warden.flashB ∧
    t.rd WARDEN_MBX_DONE = 1 ∧ t.warden.busy = none ∧ t.warden = { s.warden with busy := none } ∧ t.core = s.core) ∧
  (∀ (s : State) (len : Nat) (core : Bool), s.acts pgWARDEN = true → s.warden.busy = some (0x22, len, core) →
    s.rd WARDEN_BOOT_COPY = 0 → Completes (.imagePrefer) s fun t => t.rd WARDEN_MBX_RESULT = s.fwCheck s.warden.flashB ∧
    t.rd WARDEN_MBX_DONE = 1 ∧ t.warden.busy = none ∧
    t.rd WARDEN_TRIAL = (if s.fwCheck s.warden.flashB = mrOK then 1 else s.rd WARDEN_TRIAL) ∧
    t.rd WARDEN_BOOT_PREF = (if s.fwCheck s.warden.flashB = mrOK then 1 else s.rd WARDEN_BOOT_PREF) ∧
    t.warden.former = (if s.fwCheck s.warden.flashB = mrOK ∧ ¬(s.rd WARDEN_TRIAL = 1 ∧ s.rd WARDEN_BOOT_PREF = 1) then s.rd WARDEN_BOOT_PREF else s.warden.former) ∧
    t.core = s.core) ∧
  (∀ (s : State) (len : Nat) (core : Bool), s.acts pgWARDEN = true → s.warden.busy = some (0x23, len, core) → s.trialRuns = true →
    Completes (.imageConfirm) s fun t => t.rd WARDEN_MBX_RESULT = 0 ∧ t.rd WARDEN_MBX_DONE = 1 ∧ t.warden.busy = none ∧
    t.rd WARDEN_TRIAL = 0 ∧ t.tmc = { s.tmc with confirmed := some (s.rd WARDEN_BOOT_PREF) } ∧ t.warden.trial = false ∧
    t.core = s.core) ∧
  (∀ (s : State) (len : Nat) (core : Bool), s.acts pgWARDEN = true → s.warden.busy = some (0x24, len, core) →
    s.rd WARDEN_TRIAL = 0 → Completes (.svnAdvance) s fun t => t.rd WARDEN_MBX_RESULT = 0 ∧ t.rd WARDEN_MBX_DONE = 1 ∧
    t.warden.busy = none ∧ t.fuses = { s.fuses with svnFloor := max s.fuses.svnFloor (s.rd WARDEN_RUN_SVN) } ∧ t.opts = s.opts ∧
    t.dram = s.dram) ∧
  (∀ (s : State), s.acts pgWARDEN = true → s.rd WARDEN_TRIAL = 1 → s.warden.trial = true → s.warden.prep = none →
    s.tmc.shut = none → s.reqs = [] → s.bakes = [] → s.twin.turn = tuUnpaired → Completes (.trialTimeout) s fun t =>
    t.rd WARDEN_TRIAL = 0 ∧ t.rd WARDEN_BOOT_PREF = s.warden.former % 4 ∧ t.warden.prep = some 4 ∧ t.shape.closing = true ∧
    t.core = s.core)

/-- A cold reset that finds no copy it may run stops in BOOT_FAIL with no request and no DRAM byte kept; each warm reset records its cause,
keeps the AO time and holds no request or Bake; CONFIG_READY follows once every channel has trained or stopped, with the
directory empty and its store written (assumption 100). Options, fuses and waiting commands outlive every reset. A heartbeat of a
core counts and shows it running; a core in lockup is reported and restarted by the other where that runs, and keeps its PC and
stack pointer asserted where not. (Boot, reset and bring-up) -/
def Obligations.ResetsAndCores : Prop :=
  (∀ (s : State), s.tmc.mayStart = true → (bootOrder s.coldChoice).all (fun c => s.fwCheck (s.copy c) != mrOK) = true →
    Completes (.coldReset) s fun t => t.rd WARDEN_BOOT_PHASE = 5 ∧ t.rd WARDEN_RESET_CAUSE = 1 ∧ t.ao = 0 ∧ t.dram = [] ∧
    t.reqs = [] ∧ t.tmc.nodeRails = true ∧ t.tmc.start = false ∧ t.opts = s.opts ∧ t.fuses = s.fuses ∧ t.pending = s.pending) ∧
  (∀ (s : State) (c : Nat), s.acts pgWARDEN = true → s.warden.prep = some c → s.prepared = true → s.tmc.shut = none → c < 16 →
    Completes (.warmResetAssert) s fun t => t.rd WARDEN_RESET_CAUSE = c ∧ t.rd WARDEN_COH_LOST = 0 ∧ t.ao = s.ao ∧ t.reqs = [] ∧
    t.bakes = [] ∧ t.warden.prep = none ∧ t.opts = s.opts ∧ t.fuses = s.fuses ∧ t.pending = s.pending) ∧
  (∀ (s : State), s.tmc.live = true → s.tmc.nodeRails = true → s.rd CLK_ON_BACKUP = 1 → Completes (.refReturnReset) s fun t =>
    t.rd WARDEN_RESET_CAUSE = 7 ∧ t.rd WARDEN_COH_LOST = 1 ∧ t.ao = s.ao ∧ t.reqs = [] ∧ t.bakes = [] ∧ t.opts = s.opts ∧
    t.fuses = s.fuses ∧ t.pending = s.pending) ∧
  (∀ (s : State), s.tmc.live = true → s.tmc.nodeRails = true → s.rd WARDEN_W0_STATE ≠ 0 → s.rd WARDEN_W1_STATE ≠ 0 →
    Completes (.hbStall) s fun t => t.rd WARDEN_RESET_CAUSE = 6 ∧ t.ao = s.ao ∧ t.reqs = [] ∧ t.bakes = [] ∧ t.opts = s.opts ∧
    t.fuses = s.fuses ∧ t.pending = s.pending) ∧
  (∀ (s : State), s.rd WARDEN_BOOT_PHASE = 2 → channels.all (fun n => s.rd H_COND (pgMCH n) != 0) = true →
    Completes (.configReady) s fun t => t.rd WARDEN_BOOT_PHASE = 3 ∧ t.rd H_COND pgHOME = 1 ∧ t.rd H_COND pgDIRC = 1 ∧ t.dir = [] ∧
    bit (t.rd H_INT_STAT pgWARDEN) I_WARDEN_CONFIG_READY = true ∧
    t.core = { s.core with dram := s.dram.filter (fun c => !storeCell c.1) }) ∧
  (∀ (s : State) (core : Bool), s.acts pgWARDEN = true → s.rd (coreState core) ≠ csLock →
    (s.rd (coreState core) = csRun ∨ s.warden.lockup = none) → Completes (.wardenHeartbeat core) s fun t => t.rd (coreState core) = csRun ∧
    t.rd WARDEN_WARDEN_HB = (s.rd WARDEN_WARDEN_HB + 1) % 2 ^ 32 ∧ t.body = s.body) ∧
  (∀ (s : State) (core : Bool) (pc sp : Word), s.acts pgWARDEN = true → s.rd (coreState core) = csRun →
    s.rd (coreState (!core)) = csRun → s.warden.busy = none → s.warden.prep = none → s.warden.restarts = [[], []] →
    Completes (.coreLockup core pc sp) s fun t => t.rd (coreState core) = csStart ∧ t.rd (coreState (!core)) = csRun ∧
    t.rd (coreRestarts core) = min (2 ^ (coreRestarts core).width - 1) (s.rd (coreRestarts core) + 1) ∧
    bit (t.rd H_INT_STAT pgWARDEN) I_WARDEN_CORE_LOCKUP = true ∧ t.core = s.core) ∧
  (∀ (s : State) (core : Bool) (pc sp : Word), s.acts pgWARDEN = true → s.rd (coreState core) = csRun →
    s.rd (coreState (!core)) ≠ csRun → Completes (.coreLockup core pc sp) s fun t => t.rd (coreState core) = csLock ∧
    t.body = { s.body with warden := { s.warden with lockup := some (pc.toNat, sp.toNat) } })

/-- For every command, every rest of the queue and every state, a step of the state with that command in front is what the command does
to the state with the rest of the queue. The queue itself is the model's form (assumption 4). (Scope and conventions) -/
def Obligations.FrontCommandRuns : Prop :=
  ∀ (c : Instr) (rest : List Instr) (s : State), step { s with pending := c :: rest } = exec c { s with pending := rest }

/-- With no command waiting a step answers a next state in which the clock of the TMC has advanced by one, and the AO time of the node
as well while the node has power; the DRAM, options, fuses, epochs and the queue are unchanged. That such a step is a tick is the
model's choice (assumption 4). (Power and clocks) -/
def Obligations.EmptyQueueTicks : Prop :=
  ∀ (s : State), s.pending = [] →
    ∃ t, step s = .next t ∧ t.tmc.now = s.tmc.now + 1 ∧ (s.tmc.nodeRails = true → t.ao = s.ao + 1) ∧ (s.tmc.nodeRails = false → t.ao = s.ao) ∧
      t.core = s.core

/-- No command stops the block: in every state, with every operand, each of the commands answers a next state. A command whose event
cannot occur leaves the state as it is (assumption 2). (Scope and conventions) -/
def Obligations.EveryCommandAnswers : Prop :=
  ∀ (c : Instr) (s : State), ∃ t, exec c s = .next t

/-- Whatever a command does, the commands that wait are the same after it: also after every reset (assumption 4). (Scope and conventions) -/
def Obligations.QueueIsLeftAlone : Prop :=
  ∀ (c : Instr) (s t : State), exec c s = .next t → t.pending = s.pending

/-- After reset the DRAM is in canonical form, the epochs are paired with no commit pending, nothing waits, the ZM-3 has issued no
Proof, and every field has the value that its table gives for reset, or that the model names where the spec gives none. (Block pages and epochs; boot, reset and
bring-up) -/
def Obligations.ResetMeetsInvariants : Prop :=
  State.reset.Inv ∧ State.reset.epochsPaired = true ∧ State.reset.pending = [] ∧ State.reset.zm3.pseq = 0 ∧
    ∀ (f : Field) (i x : Nat), State.reset.rd f i x = resetVal f i x

/-- For every state whose DRAM lists its bytes in rising addresses, none of them with the value of an unlisted byte, every step that
answers a next state answers one whose DRAM does too. The canonical form is the model's (assumption 5). (Memory channels) -/
def Obligations.MemoryStaysCanonical : Prop :=
  ∀ (s t : State), s.Inv → step s = .next t → t.Inv

/-- For every state in which the open epoch follows the draining one modulo 256 while a commit is pending, and equals it otherwise,
every step that answers a next state answers such a state: at most one epoch drains at any time. (Block pages and epochs) -/
def Obligations.EpochsStayPaired : Prop :=
  ∀ (s t : State), s.epochsPaired = true → step s = .next t → t.epochsPaired = true

/-- Every step that answers a next state, resets among them, leaves the presence of the option units as it was. (R4) -/
def Obligations.OptionsNeverChange : Prop :=
  ∀ (s t : State), step s = .next t → t.opts = s.opts

/-- SVN_ADVANCE outside a trial raises the floor to the running image's SVN where that is higher; during a trial it ends in STATE and
the floor stays; and no step of any state lowers the floor. (R477) -/
def Obligations.SecurityVersionFloor : Prop :=
  (∀ (s : State) (len : Nat) (core : Bool), s.acts pgWARDEN = true → s.warden.busy = some (0x24, len, core) → s.rd WARDEN_TRIAL = 0 →
    Completes .svnAdvance s fun t => t.fuses = { s.fuses with svnFloor := max s.fuses.svnFloor (s.rd WARDEN_RUN_SVN) } ∧ t.rd WARDEN_MBX_RESULT = mrOK) ∧
  (∀ (s : State) (len : Nat) (core : Bool), s.acts pgWARDEN = true → s.warden.busy = some (0x24, len, core) → s.rd WARDEN_TRIAL = 1 →
    Completes .svnAdvance s fun t => t.fuses = s.fuses ∧ t.rd WARDEN_MBX_RESULT = mrState) ∧
  (∀ (s t : State), step s = .next t → s.fuses.svnFloor ≤ t.fuses.svnFloor)

/-- No Proof has been issued at reset. The close of a job that is open in the ZM-3 issues one, with the next PSEQ, in whose journal
entry the last 64 bytes are the signature of the bytes before them under the module's one key. Every other step, resets of the
node among them, leaves PSEQ as it was. (R416) -/
def Obligations.ProofNumbers : Prop :=
  State.reset.zm3.pseq = 0 ∧
  (∀ (s : State) (tid : BitVec 8) (job : BitVec 20) (interval : Word) (flags : BitVec 3) (unmet : List (BitVec 64)),
    s.zm3.jobs.any (fun j => j.tid == tid.toNat && j.job == job.toNat) = true →
    Completes (.zm3JobClose tid job interval flags unmet) s fun t => t.zm3.pseq = s.zm3.pseq + 1 ∧
      ∃ m, t.zm3.journal.getLast? = some (s.zm3.pseq + 1, m ++ edSign Config.zm3Seed m, false)) ∧
  (∀ (c : Instr) (s t : State), exec c s = .next t → t.zm3.pseq ≠ s.zm3.pseq →
    t.zm3.pseq = s.zm3.pseq + 1 ∧ ∃ tid job interval flags unmet, c = .zm3JobClose tid job interval flags unmet) ∧
  (∀ (s : State), s.tick.zm3.pseq = s.zm3.pseq)

/-- A command that changes any byte of the DRAM is an acceptance or an issue at a sub-channel queue, the end of a training, CONFIG_READY, or
a cold reset; no other command and no tick does. (Memory channels; boot, reset and bring-up) -/
def Obligations.OnlyTheseCommandsStore : Prop :=
  (∀ (c : Instr) (s t : State), exec c s = .next t → c.stores = false → t.dram = s.dram) ∧ ∀ (s : State), s.tick.dram = s.dram

/-- The hash takes every line of the node to a queue below 96, a bank below 16, a row below 2^18 and a column below 128, and the line
of that place is the line again; every such place of that place is the line again; every such place is the place of its line, which is a line of the node. (Memory channels) -/
def Obligations.EveryLineHasItsPlace : Prop :=
  (∀ la : Nat, la < 96 * 16 * 2 ^ 18 * 128 →
    (hashLine la).1 < 96 ∧ (hashLine la).2.1 < 16 ∧ (hashLine la).2.2.1 < 2 ^ 18 ∧ (hashLine la).2.2.2 < 128 ∧
      unhashLine (hashLine la).1 (hashLine la).2.1 (hashLine la).2.2.1 (hashLine la).2.2.2 = la) ∧
  (∀ q bank row col : Nat, q < 96 → bank < 16 → row < 2 ^ 18 → col < 128 →
    hashLine (unhashLine q bank row col) = (q, bank, row, col) ∧ unhashLine q bank row col < 96 * 16 * 2 ^ 18 * 128)

/-- The segment of the line at node offset A is A divided by 0x1_8000_0000; the offsets of segment k begin at k times that and end
before the next; the region unit of 256 MiB that holds A lies in segment k exactly when its number is from 24k to 24k + 23; and
the directory store begins with the last 2 GiB of segment 510 and ends with segment 511. (R238) -/
def Obligations.SegmentOfALine : Prop :=
  (∀ la : Nat, segOf la = la * 64 / 0x180000000 ∧ segOf la = (la / groupLines) / 2 ^ 13) ∧
  (∀ k la : Nat, segOf la = k ↔ k * 0x180000000 ≤ la * 64 ∧ la * 64 ≤ k * 0x180000000 + 0x17FFFFFFF) ∧
  (∀ k la : Nat, segOf la = k ↔ 24 * k ≤ la * 64 / 0x10000000 ∧ la * 64 / 0x10000000 ≤ 24 * k + 23) ∧
  storeBase = 511 * 0x180000000 - 0x80000000 ∧
  (∀ la : Nat, storeBase ≤ la * 64 → la * 64 < 512 * 0x180000000 → segOf la = 510 ∨ segOf la = 511)

/-- A COMMIT while a commit is pending sets RESULT to BUSY and raises COMMIT_BUSY, and has no other effect: the staged, open and
draining configurations, the epochs and everything else but reports stay. Only one draining epoch is held. (R51) -/
def Obligations.CommitWhilePending : Prop :=
  ∀ (s : State), s.acts pgEPOCH = true → s.commitPending = true →
    Completes .commit s fun t => t.rd EPOCH_RESULT = 1 ∧ bit (t.rd H_INT_STAT pgEPOCH) I_EPOCH_COMMIT_BUSY = true ∧ t.cfgStaged = s.cfgStaged ∧
      t.cfgOpen = s.cfgOpen ∧ t.cfgDrain = s.cfgDrain ∧ t.openEpoch = s.openEpoch ∧ t.drainEpoch = s.drainEpoch ∧ t.body = s.body

/-- A Proof is found Valid exactly when: it has 256 bytes with the magic and the format number of a Proof and zeros in its reserved
bits; the supplied key has the trusted fingerprint; the signature of its first 192 bytes verifies under that key; its first
interval is not after its last and its counted intervals fit between them; the digests that the verifier holds of the Proof
before it and of this one are those it carries and has; no sequence number within its set is missing; and neither the DEGRADED
nor a partial flag is set. (Jobs, apportionment and Proofs) -/
def Obligations.ValidProof : Prop :=
  ∀ (r pub trusted : Bytes) (before own : Option Bytes) (set : List Nat), verdict r pub trusted before own set = .valid ↔
    r.length = 256 ∧ r.take 5 = [0x51, 0x50, 0x52, 0x46, 0x01] ∧ field r 5 1 < 32 ∧ field r 7 1 < 32 ∧ field r 32 4 < 2 ^ 29 ∧
      field r 156 4 = 0 ∧ sha256 pub = trusted ∧ edVerify pub (r.take 192) (r.drop 192) = true ∧ field r 40 8 ≤ field r 48 8 ∧
      field r 56 4 + field r 60 4 ≤ field r 48 8 - field r 40 8 + 1 ∧ (∀ d, before = some d → d = (r.drop 160).take 32) ∧
      (∀ d, own = some d → d = sha256 r) ∧
      (∀ n, set.foldl min (field r 8 8) ≤ n → n ≤ set.foldl max (field r 8 8) → n ∈ set ∨ n = field r 8 8) ∧
      bit (field r 5 1) 2 = false ∧ bit (field r 5 1) 3 = false ∧ bit (field r 5 1) 4 = false
end

