-- ==== Sys2Proof/Laws/Frame.lean ====
section
/-! SUPPORT. What the shared operations leave alone: each lemma says that an operation changes nothing of `State.body`, or nothing
of `State.core`. -/
namespace Sys2Proof.Machine

open Reg

theorem State.onBlk_acts {s : State} {p : Nat} (k : Host.Outcome State Fault Refusal) (h : s.acts p = true) : s.onBlk p k = k := by
  simp only [State.acts, Bool.and_eq_true, Bool.not_eq_true'] at h
  simp [State.onBlk, h.1, h.2]

theorem State.body_wr (s : State) (f : Field) (v i x : Nat) : (s.wr f v i x).body = s.body := by
  unfold State.wr; split <;> rfl

theorem State.body_bumpBy (s : State) (f : Field) (n i x : Nat) : (s.bumpBy f n i x).body = s.body := State.body_wr ..

theorem State.body_bump (s : State) (f : Field) (i x : Nat) : (s.bump f i x).body = s.body := State.body_wr ..

theorem State.body_out (s : State) (o : Out) : (s.out o).body = s.body := rfl

theorem State.body_count (s : State) (a b c d : Nat) : (s.count a b c d).body = s.body := rfl

theorem State.body_setPort (s : State) (p : Nat) (v : Port) : (s.setPort p v).body = s.body := rfl

theorem State.body_emitFlit (s : State) (p ty : Nat) (l : List Slot) (c : Bool) : (s.emitFlit p ty l c).body = s.body := by
  unfold State.emitFlit; dsimp only
  split <;> rfl

theorem foldl_keeps {α β γ : Type} (g : α → γ) (f : α → β → α) (h : ∀ a b, g (f a b) = g a) (l : List β) (a : α) :
    g (l.foldl f a) = g a := by
  induction l generalizing a with
  | nil => rfl
  | cons b t ih => rw [List.foldl_cons, ih, h]

theorem State.body_sendKeySwitch (s : State) (p : Nat) (b : Bool) : (s.sendKeySwitch p b).body = s.body := State.body_emitFlit ..

theorem State.body_dueKeySwitch (s : State) (p : Nat) : (s.dueKeySwitch p).body = s.body := by
  unfold State.dueKeySwitch; dsimp only
  split
  · exact State.body_sendKeySwitch ..
  · rfl

theorem State.body_pump (s : State) (p : Nat) : (s.pump p).body = s.body := by
  unfold State.pump
  rw [← State.body_dueKeySwitch s p]
  refine foldl_keeps State.body _ (fun a b => ?_) _ _
  dsimp only
  split
  · rw [State.body_emitFlit]; rfl
  · rfl

theorem State.body_send (s : State) (p : Nat) (m : Msg) (t j : Nat) : (s.send p m t j).body = s.body := by
  unfold State.send; dsimp only
  split
  · rw [State.body_pump]; rfl
  · split
    · exact State.body_bump ..
    · rfl

theorem State.body_sendAgent (s : State) (a : Nat) (m : Msg) (t j : Nat) : (s.sendAgent a m t j).body = s.body := by
  unfold State.sendAgent
  split
  · rfl
  · split
    · exact State.body_send ..
    · split
      · exact State.body_bump ..
      · rfl

theorem State.body_sysAnswer (s : State) (p : Nat) (m : Msg) (x y : Nat) : (s.sysAnswer p m x y).body = s.body := State.body_send ..

theorem State.body_deliver (s : State) : s.deliver.body = s.body := by
  unfold State.deliver State.intrAgent; dsimp only
  repeat' split
  all_goals first | rfl | (rw [State.body_sendAgent]; rfl) | rw [State.body_sendAgent]

theorem State.body_edge (a b : State) : (State.edge a b).body = b.body := by
  unfold State.edge; split
  · exact State.body_deliver _
  · rfl

theorem State.body_raise (s : State) (p c : Nat) : (s.raise p c).body = s.body := by
  rw [State.raise, State.body_edge, State.body_wr]

theorem State.body_sample (s : State) (p g : Nat) (v : Int) : (s.sample p g v).body = s.body := by
  unfold State.sample; dsimp only
  repeat' split
  all_goals simp only [State.body_raise, State.body_bump, State.body_wr] <;> rfl

theorem State.body_winAdd (s : State) (p g n : Nat) : (s.winAdd p g n).body = s.body := rfl

theorem State.body_unpark (s : State) (p : Nat) : (s.unpark p).body = s.body := by
  unfold State.unpark; dsimp only
  repeat' split
  all_goals simp only [State.body_wr]

theorem State.body_setPwr (s : State) (p st : Nat) : (s.setPwr p st).body = s.body := by
  unfold State.setPwr; dsimp only
  split
  · rw [State.body_unpark, State.body_wr]; rfl
  · rw [State.body_wr]; rfl

theorem State.body_use (s : State) (l : List Nat) : (s.use l).body = s.body := by
  unfold State.use; dsimp only
  refine Eq.trans (b := (l.foldl (fun (s : State) p => if s.rd H_PWR_NOW p = 0 then s else s.setPwr p 0) s).body) rfl ?_
  refine foldl_keeps State.body _ (fun a b => ?_) _ _
  split
  · rfl
  · exact State.body_setPwr ..

theorem State.body_hint (s : State) (l : List Nat) : (s.hint l).body = s.body := rfl

theorem State.body_crumbStore (s : State) (p c v : Nat) (l : List Nat) : (s.crumbStore p c v l).body = s.body := by
  unfold State.crumbStore; dsimp only
  split <;> simp only [State.body_raise, State.body_sample] <;> rfl

theorem State.body_crumb (s : State) (p c v : Nat) (l : List Nat) : (s.crumb p c v l).body = s.body := by
  unfold State.crumb; dsimp only
  split
  · rw [State.body_raise, State.body_bump]; rfl
  · exact State.body_crumbStore ..

theorem State.body_policyOvr (s : State) (p f : Nat) (b : Bool) (x y : Nat) : (s.policyOvr p f b x y).body = s.body := by
  unfold State.policyOvr; simp only [State.body_crumb, State.body_raise, State.body_wr]

theorem State.body_cfgErr (s : State) (p w o : Nat) : (s.cfgErr p w o).body = s.body := by
  unfold State.cfgErr; dsimp only
  split <;> simp only [State.body_raise, State.body_wr]

theorem State.body_lockViol (s : State) (p : Nat) : (s.lockViol p).body = s.body := by
  unfold State.lockViol; simp only [State.body_raise, State.body_wr]

theorem State.body_internalErr (s : State) (p : Nat) (b : Bool) : (s.internalErr p b).body = s.body := by
  unfold State.internalErr; dsimp only
  split <;> simp only [State.body_raise, State.body_wr]

theorem State.body_evlogFree (s : State) (n : Nat) : (s.evlogFree n).body = s.body := by
  unfold State.evlogFree; dsimp only
  split
  · rw [State.body_crumbStore]
    exact Eq.trans rfl (State.body_sample ({ s with evlog := _ }) pgEVLOG 0 _)
  · exact State.body_sample ..

end Sys2Proof.Machine
end

