-- ==== Sys2Proof/Laws/Core.lean ====
section
/-! SUPPORT. What the operations leave of `State.core`: options, fuses, the waiting commands, the DRAM, the epochs and the number of
the latest Proof. An operation that is missing here changes one of them. -/
namespace Sys2Proof.Machine

open Reg

set_option linter.unusedVariables false

@[simp] theorem State.core_mk {x_opts x_fuses x_pending x_freeCtr x_ao x_rdata x_outs x_regs x_cfgOpen x_cfgDrain x_cfgStaged x_latches x_halves x_holdBuf x_wmk x_wins x_waking x_lastUse x_openEpoch x_drainEpoch x_commitPending x_slowRaised x_rootChanged x_dram x_ports x_reqs x_nextId x_nextOrder x_shape x_agents x_dir x_frames x_trks x_openTx x_owed x_fences x_broken x_scan x_tc x_wc x_xsyncs x_hpqHead x_hpqTail x_windowCount x_moves x_slots x_rot x_lastGen x_tpk x_queues x_mchs x_ras x_rdl x_planArea x_ctxs x_served x_bakes x_plans x_loads x_lanes x_evlog x_twin x_jobs x_tally x_meter x_zm3 x_pwr x_tmc x_warden} : State.core (State.mk x_opts x_fuses x_pending x_freeCtr x_ao x_rdata x_outs x_regs x_cfgOpen x_cfgDrain x_cfgStaged x_latches x_halves x_holdBuf x_wmk x_wins x_waking x_lastUse x_openEpoch x_drainEpoch x_commitPending x_slowRaised x_rootChanged x_dram x_ports x_reqs x_nextId x_nextOrder x_shape x_agents x_dir x_frames x_trks x_openTx x_owed x_fences x_broken x_scan x_tc x_wc x_xsyncs x_hpqHead x_hpqTail x_windowCount x_moves x_slots x_rot x_lastGen x_tpk x_queues x_mchs x_ras x_rdl x_planArea x_ctxs x_served x_bakes x_plans x_loads x_lanes x_evlog x_twin x_jobs x_tally x_meter x_zm3 x_pwr x_tmc x_warden) = Core.mk x_opts x_fuses x_pending x_dram x_openEpoch x_drainEpoch x_commitPending x_zm3.pseq := rfl
@[simp] theorem State.core_eta (t : State) : Core.mk t.opts t.fuses t.pending t.dram t.openEpoch t.drainEpoch t.commitPending t.zm3.pseq = t.core := rfl

@[simp] theorem State.core_if {c : Prop} [Decidable c] (a b : State) : (if c then a else b).core = if c then a.core else b.core := by
  split <;> rfl

@[simp] theorem State.core_foldl {β : Type} (f : State → β → State) (h : ∀ a b, (f a b).core = a.core) (l : List β) (s : State) :
    (l.foldl f s).core = s.core := foldl_keeps State.core f h l s

theorem State.core_setTwin (s : State) (t : Twin) : ({ s with twin := t } : State).core = s.core := rfl
theorem State.core_setTmc (s : State) (t : Tmc) : ({ s with tmc := t } : State).core = s.core := rfl
theorem State.core_ite {c : Prop} [Decidable c] {a b s : State} (h1 : a.core = s.core) (h2 : b.core = s.core) :
    (if c then a else b).core = s.core := by split <;> assumption

@[simp] theorem State.core_wr (s : State) (f : Field) (v : Nat) (inst : Nat) (idx : Nat) : (State.wr s f v inst idx).core = s.core := by
  unfold State.wr; simp

@[simp] theorem State.core_stage (s : State) (f : Field) (v : Nat) (inst : Nat) (idx : Nat) : (State.stage s f v inst idx).core = s.core := by
  unfold State.stage; simp

@[simp] theorem State.core_bumpBy (s : State) (f : Field) (n : Nat) (inst : Nat) (idx : Nat) : (State.bumpBy s f n inst idx).core = s.core := by
  unfold State.bumpBy; simp

@[simp] theorem State.core_bump (s : State) (f : Field) (inst : Nat) (idx : Nat) : (State.bump s f inst idx).core = s.core := by
  unfold State.bump; simp

@[simp] theorem State.core_free (s : State) : (State.free s).2.core = s.core := by
  unfold State.free; simp

@[simp] theorem State.core_out (s : State) (o : Out) : (State.out s o).core = s.core := by
  unfold State.out; simp

@[simp] theorem State.core_count (s : State) (cls tid job n : Nat) : (State.count s cls tid job n).core = s.core := by
  unfold State.count; simp

@[simp] theorem State.core_setPort (s : State) (p : Nat) (v : Port) : (State.setPort s p v).core = s.core := by
  unfold State.setPort; simp

@[simp] theorem State.core_emitFlit (s : State) (p ty : Nat) (slots : List Slot) (close : Bool) : (State.emitFlit s p ty slots close).core = s.core := by
  unfold State.emitFlit; simp

@[simp] theorem State.core_sendKeySwitch (s : State) (p : Nat) (toSet : Bool) : (State.sendKeySwitch s p toSet).core = s.core := by
  unfold State.sendKeySwitch; simp

@[simp] theorem State.core_dueKeySwitch (s : State) (p : Nat) : (State.dueKeySwitch s p).core = s.core := by
  unfold State.dueKeySwitch; simp

@[simp] theorem State.core_pump (s : State) (p : Nat) : (State.pump s p).core = s.core := by
  unfold State.pump; simp

@[simp] theorem State.core_send (s : State) (p : Nat) (m : Msg) (tid job : Nat) (tag : Option RspTag) : (State.send s p m tid job tag).core = s.core := by
  unfold State.send; simp

@[simp] theorem State.core_sendAgent (s : State) (aid : Nat) (m : Msg) (tid job : Nat) : (State.sendAgent s aid m tid job).core = s.core := by
  unfold State.sendAgent
  repeat' (first | with_reducible rfl | simp [*] | dsimp only | split)

@[simp] theorem State.core_sysAnswer (s : State) (p : Nat) (m : Msg) (status rdata : Nat) : (State.sysAnswer s p m status rdata).core = s.core := by
  unfold State.sysAnswer; simp

@[simp] theorem State.core_intrAgent (s : State) : (State.intrAgent s).core = s.core := by
  unfold State.intrAgent
  repeat' (first | with_reducible rfl | (simp [*]; done) | dsimp only | split)

@[simp] theorem State.core_deliver (s : State) : (State.deliver s).core = s.core := by
  unfold State.deliver; simp

@[simp] theorem State.core_edge (before after : State) : (State.edge before after).core = after.core := by
  unfold State.edge; simp

@[simp] theorem State.core_raise (s : State) (page cause : Nat) : (State.raise s page cause).core = s.core := by
  unfold State.raise; simp

@[simp] theorem State.core_cfgErr (s : State) (page wpage off : Nat) : (State.cfgErr s page wpage off).core = s.core := by
  unfold State.cfgErr; simp

@[simp] theorem State.core_lockViol (s : State) (page : Nat) : (State.lockViol s page).core = s.core := by
  unfold State.lockViol; simp

@[simp] theorem State.core_internalErr (s : State) (page : Nat) (stops : Bool) : (State.internalErr s page stops).core = s.core := by
  unfold State.internalErr; simp

@[simp] theorem State.core_sample (s : State) (page g : Nat) (v : Int) : (State.sample s page g v).core = s.core := by
  unfold State.sample
  repeat' (first | with_reducible rfl | (simp [*]; done) | dsimp only | split)

@[simp] theorem State.core_winAdd (s : State) (page g n : Nat) : (State.winAdd s page g n).core = s.core := by
  unfold State.winAdd; simp

@[simp] theorem State.core_winClose (s : State) : (State.winClose s).core = s.core := by
  unfold State.winClose; simp

@[simp] theorem State.core_resample (s : State) : (State.resample s).core = s.core := by
  unfold State.resample; simp

@[simp] theorem State.core_hint (s : State) (pages : List Nat) : (State.hint s pages).core = s.core := by
  unfold State.hint; simp

@[simp] theorem State.core_unpark (s : State) (p : Nat) : (State.unpark s p).core = s.core := by
  unfold State.unpark; simp

@[simp] theorem State.core_setPwr (s : State) (p st : Nat) : (State.setPwr s p st).core = s.core := by
  unfold State.setPwr; simp

@[simp] theorem State.core_use (s : State) (pages : List Nat) : (State.use s pages).core = s.core := by
  unfold State.use; simp

@[simp] theorem State.core_crumbStore (s : State) (page code sev : Nat) (payload : List Nat) : (State.crumbStore s page code sev payload).core = s.core := by
  unfold State.crumbStore; simp

@[simp] theorem State.core_crumb (s : State) (page code sev : Nat) (payload : List Nat) : (State.crumb s page code sev payload).core = s.core := by
  unfold State.crumb; simp

@[simp] theorem State.core_evlogFree (s : State) (n : Nat) : (State.evlogFree s n).core = s.core := by
  unfold State.evlogFree; simp

@[simp] theorem State.core_policyOvr (s : State) (page floor : Nat) (start : Bool) (policy enforced : Nat) : (State.policyOvr s page floor start policy enforced).core = s.core := by
  unfold State.policyOvr; simp

@[simp] theorem State.core_updReq (s : State) (rid : Nat) (f : Req → Req) : (State.updReq s rid f).core = s.core := by
  unfold State.updReq; simp

@[simp] theorem State.core_dropReq (s : State) (rid : Nat) : (State.dropReq s rid).core = s.core := by
  unfold State.dropReq; simp

@[simp] theorem State.core_nextOrd (s : State) : (State.nextOrd s).2.core = s.core := by
  unfold State.nextOrd; simp

@[simp] theorem State.core_beginClose (s : State) (tid job rid adm : Nat) : (State.beginClose s tid job rid adm).core = s.core := by
  unfold State.beginClose; simp

@[simp] theorem State.core_sampleOut (s : State) (r : Req) : (State.sampleOut s r).core = s.core := by
  unfold State.sampleOut; simp

@[simp] theorem State.core_cxlAnswer (s : State) (r : Req) (status grant : Nat) (data : Option (BitVec 512)) (load : Nat) : (State.cxlAnswer s r status grant data load).core = s.core := by
  unfold State.cxlAnswer
  repeat' (first | with_reducible rfl | (simp [*]; done) | dsimp only | split)

@[simp] theorem State.core_respond (s : State) (r : Req) (status grant : Nat) (data : Option (BitVec 512)) (next : Nat) (load : Option Nat) : (State.respond s r status grant data next load).core = s.core := by
  unfold State.respond
  repeat' (first | with_reducible rfl | (simp [*]; done) | dsimp only | split)

@[simp] theorem State.core_finish (s : State) (rid status grant : Nat) (data : Option (BitVec 512)) (next : Nat) (load : Option Nat) : (State.finish s rid status grant data next load).core = s.core := by
  unfold State.finish
  repeat' (first | with_reducible rfl | simp [*] | dsimp only | split)

@[simp] theorem State.core_twSend (s : State) (m : Msg) (tid job : Nat) : (State.twSend s m tid job).core = s.core := by
  unfold State.twSend
  repeat' (first | with_reducible rfl | simp [*] | dsimp only | split)

@[simp] theorem State.core_twMoved (s was : State) (back : Option Nat) : (State.twMoved s was back).core = s.core := by
  unfold State.twMoved
  repeat' (first | with_reducible rfl | (simp [*]; done) | dsimp only | split)

@[simp] theorem State.core_twSeq (s : State) (opc : Nat) (fields : List (Nat × Nat × Nat)) (data : List Slot) (tid job : Nat) : (State.twSeq s opc fields data tid job).2.core = s.core := by
  unfold State.twSeq
  repeat' (first | with_reducible rfl | (simp [*]; done) | dsimp only | split)

@[simp] theorem State.core_twDelta (s : State) (la region : Nat) (e : Option DirEnt) (pend : Bool) (tid job : Nat) : (State.twDelta s la region e pend tid job).2.core = s.core := by
  unfold State.twDelta
  repeat' (first | with_reducible rfl | (simp [*]; done) | dsimp only | split)

@[simp] theorem State.core_finishGated (s : State) (gate : Option Nat) (rid status grant : Nat) (data : Option (BitVec 512)) : (State.finishGated s gate rid status grant data).core = s.core := by
  unfold State.finishGated
  repeat' (first | with_reducible rfl | (simp [*]; done) | dsimp only | split)

@[simp] theorem State.core_snpGated (s : State) (gate : Option Nat) (aid : Nat) (m : Msg) (tid job : Nat) : (State.snpGated s gate aid m tid job).core = s.core := by
  unfold State.snpGated
  repeat' (first | with_reducible rfl | (simp [*]; done) | dsimp only | split)

@[simp] theorem State.core_backInv (s : State) (p kind la addr : Nat) : (State.backInv s p kind la addr).core = s.core := by
  unfold State.backInv; simp

@[simp] theorem State.core_biGated (s : State) (gate : Option Nat) (p kind la addr : Nat) : (State.biGated s gate p kind la addr).core = s.core := by
  unfold State.biGated
  repeat' (first | with_reducible rfl | (simp [*]; done) | dsimp only | split)

@[simp] theorem State.core_setMove (s : State) (n : Nat) (v : Move) : (State.setMove s n v).core = s.core := by
  unfold State.setMove; simp

@[simp] theorem State.core_setQueue (s : State) (q : Nat) (v : Queue) : (State.setQueue s q v).core = s.core := by
  unfold State.setQueue; simp

@[simp] theorem State.core_enqueue (s : State) (q : Nat) (e : Entry) : (State.enqueue s q e).core = s.core := by
  unfold State.enqueue; simp

@[simp] theorem State.core_readLine (s : State) (r : Req) (why : ReadFor) (key : Option (BitVec 512)) : (State.readLine s r why key).core = s.core := by
  unfold State.readLine; simp

@[simp] theorem State.core_sealedData (s : State) (ep region : Nat) (key : Option (BitVec 512)) (data : BitVec 512) : (State.sealedData s ep region key data).2.core = s.core := by
  unfold State.sealedData
  repeat' (first | with_reducible rfl | (simp [*]; done) | dsimp only | split)

@[simp] theorem State.core_writeLine (s : State) (off region tid job ep : Nat) (req : Option Nat) (data : BitVec 512) (poison : Bool) (key : Option (BitVec 512)) : (State.writeLine s off region tid job ep req data poison key).core = s.core := by
  unfold State.writeLine; simp

@[simp] theorem State.core_sampleDir (s : State) : (State.sampleDir s).core = s.core := by
  unfold State.sampleDir; simp

@[simp] theorem State.core_putEnt (s : State) (la : Nat) (new : Option DirEnt) : (State.putEnt s la new).core = s.core := by
  unfold State.putEnt; simp

@[simp] theorem State.core_touch (s : State) (la : Nat) : (State.touch s la).core = s.core := by
  unfold State.touch; simp

@[simp] theorem State.core_writeSet (s : State) (set : Nat) : (State.writeSet s set).core = s.core := by
  unfold State.writeSet; simp

@[simp] theorem State.core_fillFrame (s : State) (set : Nat) : (State.fillFrame s set).core = s.core := by
  unfold State.fillFrame
  repeat' (first | with_reducible rfl | (simp [*]; done) | dsimp only | split)

@[simp] theorem State.core_readSet (s : State) (set tid job ep : Nat) (rid : Option Nat) : (State.readSet s set tid job ep rid).core = s.core := by
  unfold State.readSet; simp

@[simp] theorem State.core_setEnt (s : State) (la : Nat) (new : Option DirEnt) : (State.setEnt s la new).core = s.core := by
  unfold State.setEnt; simp

@[simp] theorem State.core_openLine (s : State) (la rid : Nat) : (State.openLine s la rid).core = s.core := by
  unfold State.openLine; simp

@[simp] theorem State.core_closeLine (s : State) (la : Nat) : (State.closeLine s la).core = s.core := by
  unfold State.closeLine; simp

@[simp] theorem State.core_serveMem (s : State) (r : Req) (grant : Nat) (change : Bool) (new : Option DirEnt) : (State.serveMem s r grant change new).core = s.core := by
  unfold State.serveMem
  repeat' (first | with_reducible rfl | (simp [*]; done) | dsimp only | split)

@[simp] theorem State.core_serveWrite (s : State) (r : Req) : (State.serveWrite s r).core = s.core := by
  unfold State.serveWrite; simp

@[simp] theorem State.core_serveMerge (s : State) (r : Req) : (State.serveMerge s r).core = s.core := by
  unfold State.serveMerge; simp

@[simp] theorem State.core_dropHolder (s : State) (r : Req) (new : Option DirEnt) : (State.dropHolder s r new).core = s.core := by
  unfold State.dropHolder; simp

@[simp] theorem State.core_snoop (s : State) (gate : Option Nat) (opc aid : Nat) (r : Req) (grant : Nat) (fault : Bool) : (State.snoop s gate opc aid r grant fault).core = s.core := by
  unfold State.snoop
  repeat' (first | with_reducible rfl | (simp [*]; done) | dsimp only | split)

@[simp] theorem State.core_waitTrk (s : State) (r : Req) : (State.waitTrk s r).core = s.core := by
  unfold State.waitTrk; simp

@[simp] theorem State.core_storeAnswer (s : State) (t : Trk) (d : BitVec 512) (poison : Bool) : (State.storeAnswer s t d poison).core = s.core := by
  unfold State.storeAnswer
  repeat' (first | with_reducible rfl | (simp [*]; done) | dsimp only | split)

@[simp] theorem State.core_serveFwd (s : State) (t : Trk) : (State.serveFwd s t).core = s.core := by
  unfold State.serveFwd
  repeat' (first | with_reducible rfl | (simp [*]; done) | dsimp only | split)

@[simp] theorem State.core_holderGone (s : State) (t : Trk) (aid : Nat) : (State.holderGone s t aid).core = s.core := by
  unfold State.holderGone
  repeat' (first | with_reducible rfl | (simp [*]; done) | dsimp only | split)

@[simp] theorem State.core_absorb (s : State) (t : Trk) (r : Req) : (State.absorb s t r).core = s.core := by
  unfold State.absorb; simp

@[simp] theorem State.core_absorbWaiting (s : State) (la slot : Nat) : (State.absorbWaiting s la slot).core = s.core := by
  unfold State.absorbWaiting
  refine State.core_foldl _ (fun a b => ?_) _ _
  split
  · split <;> simp
  · rfl

@[simp] theorem State.core_openTrk (s : State) (slot : Nat) (r : Req) (kind : TrkKind) (e : DirEnt) (awaited : List (Nat × Bool)) (exact : Bool) : (State.openTrk s slot r kind e awaited exact).core = s.core := by
  unfold State.openTrk
  repeat' (first | with_reducible rfl | (simp [*]; done) | dsimp only | split)

@[simp] theorem State.core_freeBroken (s : State) (set : Nat) : (State.freeBroken s set).core = s.core := by
  unfold State.freeBroken
  repeat' (first | with_reducible rfl | (simp [*]; done) | dsimp only | split)

@[simp] theorem State.core_markSettled (s : State) (la : Nat) : (State.markSettled s la).core = s.core := by
  unfold State.markSettled; simp

@[simp] theorem State.core_wakeSet (s : State) (set : Nat) : (State.wakeSet s set).core = s.core := by
  unfold State.wakeSet
  repeat' (first | with_reducible rfl | (simp [*]; done) | dsimp only | split)

@[simp] theorem State.core_endReq (s : State) (rid : Nat) : (State.endReq s rid).core = s.core := by
  unfold State.endReq
  repeat' (first | with_reducible rfl | simp [*] | dsimp only | split)

@[simp] theorem State.core_readOwn (s : State) (r : Req) : (State.readOwn s r).core = s.core := by
  unfold State.readOwn; simp

@[simp] theorem State.core_migrSend (s : State) (nid : Nat) (m : Msg) : (State.migrSend s nid m).core = s.core := by
  unfold State.migrSend
  repeat' (first | with_reducible rfl | simp [*] | dsimp only | split)

@[simp] theorem State.core_migrComplete (s : State) (n : Nat) : (State.migrComplete s n).core = s.core := by
  unfold State.migrComplete; simp

@[simp] theorem State.core_migrRead (s : State) (r : Req) : (State.migrRead s r).core = s.core := by
  unfold State.migrRead; simp

@[simp] theorem State.core_forwarded (s : State) (r : Req) : (State.forwarded s r).core = s.core := by
  unfold State.forwarded; simp

@[simp] theorem State.core_bracket (s : State) (t : Trk) (r : Req) : (State.bracket s t r).core = s.core := by
  unfold State.bracket
  repeat' (first | with_reducible rfl | (simp [*]; done) | dsimp only | split)

@[simp] theorem State.core_endTrk (s : State) (t : Trk) : (State.endTrk s t).core = s.core := by
  unfold State.endTrk
  repeat' (first | with_reducible rfl | (simp [*]; done) | dsimp only | split)

@[simp] theorem State.core_answered (s : State) (t : Trk) : (State.answered s t).core = s.core := by
  unfold State.answered; simp

@[simp] theorem State.core_takeAnswer (s : State) (t : Trk) (aid : Nat) (d : Option (BitVec 512 × Bool)) : (State.takeAnswer s t aid d).core = s.core := by
  unfold State.takeAnswer
  repeat' (first | with_reducible rfl | (simp [*]; done) | dsimp only | split)

@[simp] theorem State.core_homeAnswer (s : State) (aid la : Nat) (d : Option (BitVec 512 × Bool)) (tid job slots : Nat) : (State.homeAnswer s aid la d tid job slots).core = s.core := by
  unfold State.homeAnswer
  repeat' (first | with_reducible rfl | (simp [*]; done) | dsimp only | split)

@[simp] theorem State.core_homeArrive (s : State) (rid : Nat) : (State.homeArrive s rid).core = s.core := by
  unfold State.homeArrive
  repeat' (first | with_reducible rfl | (simp [*]; done) | dsimp only | split)

@[simp] theorem State.core_sweepCount (s : State) (aid poisoned dropped : Nat) : (State.sweepCount s aid poisoned dropped).core = s.core := by
  unfold State.sweepCount
  repeat' (first | with_reducible rfl | (simp [*]; done) | dsimp only | split)

@[simp] theorem State.core_poisonLine (s : State) (off region tid job : Nat) : (State.poisonLine s off region tid job).core = s.core := by
  unfold State.poisonLine; simp

@[simp] theorem State.core_applySweep (s : State) (la : Nat) : (State.applySweep s la).core = s.core := by
  unfold State.applySweep
  repeat' (first | with_reducible rfl | (simp [*]; done) | dsimp only | split)

@[simp] theorem State.core_endTx (s : State) (la : Nat) : (State.endTx s la).core = s.core := by
  unfold State.endTx; simp

@[simp] theorem State.core_settleEnd (s : State) (la : Nat) : (State.settleEnd s la).core = s.core := by
  unfold State.settleEnd; simp

@[simp] theorem State.core_lossForward (s : State) (t : Trk) : (State.lossForward s t).core = s.core := by
  unfold State.lossForward
  repeat' (first | with_reducible rfl | (simp [*]; done) | dsimp only | split)

@[simp] theorem State.core_passTrk (s : State) (aid slot : Nat) : (State.passTrk s aid slot).core = s.core := by
  unfold State.passTrk
  repeat' (first | with_reducible rfl | (simp [*]; done) | dsimp only | split)

@[simp] theorem State.core_trackerPass (s : State) (aid : Nat) : (State.trackerPass s aid).core = s.core := by
  unfold State.trackerPass; simp

@[simp] theorem State.core_purgeTx (s : State) (aid : Nat) : (State.purgeTx s aid).core = s.core := by
  unfold State.purgeTx; simp

@[simp] theorem State.core_setAgent (s : State) (aid : Nat) (a : Agent) : (State.setAgent s aid a).core = s.core := by
  unfold State.setAgent; simp

@[simp] theorem State.core_joinSweep (s : State) (aid : Nat) : (State.joinSweep s aid).core = s.core := by
  unfold State.joinSweep; simp

@[simp] theorem State.core_declare (s : State) (aid cause : Nat) : (State.declare s aid cause).core = s.core := by
  unfold State.declare; simp

@[simp] theorem State.core_agentWrite (s : State) (aid state inc : Nat) : (State.agentWrite s aid state inc).core = s.core := by
  unfold State.agentWrite; simp

@[simp] theorem State.core_homeIntern (s : State) (op : Op) (la region : Nat) : (State.homeIntern s op la region).core = s.core := by
  unfold State.homeIntern; simp

@[simp] theorem State.core_queueIntern (s : State) (op : Op) (tid job la region : Nat) : (State.queueIntern s op tid job la region).core = s.core := by
  unfold State.queueIntern; simp

@[simp] theorem State.core_sweepSet (s : State) (set : Nat) (ags : List Nat) : (State.sweepSet s set ags).core = s.core := by
  unfold State.sweepSet; simp

@[simp] theorem State.core_recallSet (s : State) (set : Nat) (rg : Option Nat) : (State.recallSet s set rg).core = s.core := by
  unfold State.recallSet
  repeat' (first | with_reducible rfl | simp [*] | dsimp only | split)

@[simp] theorem State.core_imageSet (s : State) (set : Nat) (on : Bool) : (State.imageSet s set on).core = s.core := by
  unfold State.imageSet; simp

@[simp] theorem State.core_breakSet (s : State) (set : Nat) : (State.breakSet s set).core = s.core := by
  unfold State.breakSet; simp

@[simp] theorem State.core_emitTraining (s : State) (p : Nat) (slot : Slot) : (State.emitTraining s p slot).core = s.core := by
  unfold State.emitTraining; simp

@[simp] theorem State.core_sendParams (s : State) (p : Nat) : (State.sendParams s p).core = s.core := by
  unfold State.sendParams; simp

@[simp] theorem State.core_copyCmis (s : State) (p : Nat) (m : Option Module) : (State.copyCmis s p m).core = s.core := by
  unfold State.copyCmis; simp

@[simp] theorem State.core_setState (s : State) (p : Nat) (t : Train) : (State.setState s p t).core = s.core := by
  unfold State.setState; simp

@[simp] theorem State.core_clearLink (s : State) (p : Nat) : (State.clearLink s p).core = s.core := by
  unfold State.clearLink; simp

@[simp] theorem State.core_goDown (s : State) (p reason : Nat) (dn : Bool) : (State.goDown s p reason dn).core = s.core := by
  unfold State.goDown; simp

@[simp] theorem State.core_attemptOne (s : State) (p : Nat) : (State.attemptOne s p).core = s.core := by
  unfold State.attemptOne
  repeat' (first | with_reducible rfl | simp [*] | dsimp only | split)

theorem State.core_trainBy (s : State) (p : Nat) (fresh : Bool) (go : State → State) (h : ∀ s, (go s).core = s.core) :
    (State.trainBy s p fresh go).core = s.core := by
  unfold State.trainBy
  repeat' (first | with_reducible rfl | (simp [h]; done) | dsimp only | split)

@[simp] theorem State.core_attempt (s : State) (p : Nat) : (State.attempt s p).core = s.core := by
  unfold State.attempt
  dsimp only
  split
  · simp
  · split
    · rw [State.core_attemptOne]; split <;> simp
    · split
      · rw [State.core_trainBy _ _ _ _ (fun s => State.core_attemptOne s _)]; simp
      · simp

@[simp] theorem State.core_tryTrain (s : State) (p : Nat) (fresh : Bool) : (State.tryTrain s p fresh).core = s.core :=
  State.core_trainBy s p fresh _ (fun s => State.core_attempt s p)

@[simp] theorem State.core_fall (s : State) (p reason : Nat) (dn : Bool) : (State.fall s p reason dn).core = s.core := by
  unfold State.fall; simp

@[simp] theorem State.core_recover (s : State) (p : Nat) : (State.recover s p).core = s.core := by
  unfold State.recover; simp

@[simp] theorem State.core_replayAll (s : State) (p : Nat) : (State.replayAll s p).core = s.core := by
  unfold State.replayAll; simp

@[simp] theorem State.core_bootAgents (s : State) (p : Nat) : (State.bootAgents s p).core = s.core := by
  unfold State.bootAgents; simp

@[simp] theorem State.core_linkUp (s : State) (p : Nat) : (State.linkUp s p).core = s.core := by
  unfold State.linkUp; simp

@[simp] theorem State.core_judgeParams (s : State) (p : Nat) (q : ParamsFlit) : (State.judgeParams s p q).core = s.core := by
  unfold State.judgeParams; simp

@[simp] theorem State.core_rejudge (s : State) (p : Nat) : (State.rejudge s p).core = s.core := by
  unfold State.rejudge
  repeat' (first | with_reducible rfl | (simp [*]; done) | dsimp only | split)

@[simp] theorem State.core_paramsAgain (s : State) : (State.paramsAgain s).core = s.core := by
  unfold State.paramsAgain; simp

@[simp] theorem State.core_trainStep (s : State) (p lanes : Nat) : (State.trainStep s p lanes).core = s.core := by
  unfold State.trainStep
  repeat' (first | with_reducible rfl | (simp [*]; done) | dsimp only | split)

@[simp] theorem State.core_peerDown (s : State) (p reason : Nat) : (State.peerDown s p reason).core = s.core := by
  unfold State.peerDown; simp

@[simp] theorem State.core_retrain (s : State) (p : Nat) : (State.retrain s p).core = s.core := by
  unfold State.retrain
  repeat' (first | with_reducible rfl | (simp [*]; done) | dsimp only | split)

@[simp] theorem State.core_enableWrite (s : State) (p : Nat) (en : Bool) : (State.enableWrite s p en).core = s.core := by
  unfold State.enableWrite; simp

@[simp] theorem State.core_modeWrite (s : State) (p v : Nat) : (State.modeWrite s p v).core = s.core := by
  unfold State.modeWrite; simp

@[simp] theorem State.core_keySwitchWrite (s : State) (p : Nat) : (State.keySwitchWrite s p).core = s.core := by
  unfold State.keySwitchWrite; simp

@[simp] theorem State.core_rxKeySwitch (s : State) (p : Nat) (set : Bool) : (State.rxKeySwitch s p set).core = s.core := by
  unfold State.rxKeySwitch; simp

@[simp] theorem State.core_addCredits (s : State) (p : Nat) (l : List Nat) : (State.addCredits s p l).core = s.core := by
  unfold State.addCredits; simp

@[simp] theorem State.core_sendNak (s : State) (p : Nat) : (State.sendNak s p).core = s.core := by
  unfold State.sendNak; simp

@[simp] theorem State.core_protocolError (s : State) (p cls opc : Nat) : (State.protocolError s p cls opc).core = s.core := by
  unfold State.protocolError; simp

@[simp] theorem State.core_takeSlot (s : State) (p : Nat) (x : Slot) : (State.takeSlot s p x).core = s.core := by
  unfold State.takeSlot
  repeat' (first | with_reducible rfl | (simp [*]; done) | dsimp only | split)

@[simp] theorem State.core_takeLctl (s : State) (p : Nat) (x : Slot) : (State.takeLctl s p x).core = s.core := by
  unfold State.takeLctl; simp

@[simp] theorem State.core_deliverFlit (s : State) (p : Nat) (f : Flit) : (State.deliverFlit s p f).core = s.core := by
  unfold State.deliverFlit; simp

@[simp] theorem State.core_closeGroup (s : State) (p : Nat) (g : List Flit) : (State.closeGroup s p g).core = s.core := by
  unfold State.closeGroup
  repeat' (first | with_reducible rfl | (simp [*]; done) | dsimp only | split)

@[simp] theorem State.core_acceptFlit (s : State) (p : Nat) (f : Flit) : (State.acceptFlit s p f).core = s.core := by
  unfold State.acceptFlit; simp

@[simp] theorem State.core_takeAck (s : State) (p : Nat) (f : Flit) : (State.takeAck s p f).core = s.core := by
  unfold State.takeAck; simp

@[simp] theorem State.core_refuseFlit (s : State) (p : Nat) : (State.refuseFlit s p).core = s.core := by
  unfold State.refuseFlit; simp

@[simp] theorem State.core_takeFlit (s : State) (p : Nat) (f : Flit) : (State.takeFlit s p f).core = s.core := by
  unfold State.takeFlit; simp

@[simp] theorem State.core_refill (s : State) : (State.refill s).core = s.core := by
  unfold State.refill; simp

@[simp] theorem State.core_charge (s : State) (t len : Nat) : (State.charge s t len).core = s.core := by
  unfold State.charge; simp

@[simp] theorem State.core_clampToks (s : State) : (State.clampToks s).core = s.core := by
  unfold State.clampToks
  repeat' (first | with_reducible rfl | (simp [*]; done) | dsimp only | (refine foldl_keeps State.core _ (fun _ _ => ?_) _ _))

@[simp] theorem State.core_setTag (s : State) (t v : Nat) : (State.setTag s t v).core = s.core := by
  unfold State.setTag; simp

@[simp] theorem State.core_advanceTag (s : State) (t len : Nat) : (State.advanceTag s t len).core = s.core := by
  unfold State.advanceTag; simp

@[simp] theorem State.core_reEval (s : State) : (State.reEval s).core = s.core := by
  unfold State.reEval; simp

@[simp] theorem State.core_closeFc (s : State) : (State.closeFc s).core = s.core := by
  unfold State.closeFc; simp

@[simp] theorem State.core_judgePanic (s : State) : (State.judgePanic s).core = s.core := by
  unfold State.judgePanic; simp

@[simp] theorem State.core_countSlots (s : State) (r : Req) (job : Nat) : (State.countSlots s r job).core = s.core := by
  unfold State.countSlots; simp

@[simp] theorem State.core_refuse (s : State) (r : Req) (status : Nat) : (State.refuse s r status).core = s.core := by
  unfold State.refuse; simp

@[simp] theorem State.core_enterQueue (s : State) (r : Req) (place : Place) : (State.enterQueue s r place).core = s.core := by
  unfold State.enterQueue; simp

@[simp] theorem State.core_arrive (s : State) (r : Req) : (State.arrive s r).core = s.core := by
  unfold State.arrive; simp

@[simp] theorem State.core_takeMsg (s : State) (p : Nat) (m : Msg) : (State.takeMsg s p m).core = s.core := by
  unfold State.takeMsg; simp

theorem State.core_portIn (s t : State) (p cls opc : Nat) (m : Msg) (b : Bool) (h : s.portIn p cls opc m = some (t, b)) : t.core = s.core := by
  unfold State.portIn at h
  dsimp only at h
  repeat' split at h
  all_goals (try cases h)
  all_goals simp

@[simp] theorem State.core_reqIn (s : State) (p opc : Nat) (op : Op) (m : Msg) : (State.reqIn s p opc op m).core = s.core := by
  unfold State.reqIn
  split
  · rfl
  · exact State.core_portIn _ _ _ _ _ _ _ ‹_›
  · have := State.core_portIn _ _ _ _ _ _ _ ‹_›
    simp [this]

@[simp] theorem State.core_formBatch (s : State) (r : Req) : (State.formBatch s r).core = s.core := by
  unfold State.formBatch
  repeat' (first | with_reducible rfl | (simp [*]; done) | dsimp only | split)

@[simp] theorem State.core_admitReq (s : State) (r : Req) (member : Bool) : (State.admitReq s r member).core = s.core := by
  unfold State.admitReq; simp

@[simp] theorem State.core_admitHead (s : State) (r : Req) : (State.admitHead s r).core = s.core := by
  unfold State.admitHead; simp

@[simp] theorem State.core_launch (s : State) (r : Req) : (State.launch s r).core = s.core := by
  unfold State.launch
  repeat' (first | with_reducible rfl | (simp [*]; done) | dsimp only | split)

@[simp] theorem State.core_fillSlot (s : State) : (State.fillSlot s).core = s.core := by
  unfold State.fillSlot
  repeat' (first | with_reducible rfl | (simp [*]; done) | dsimp only | split)

@[simp] theorem State.core_cxlPump (s : State) (p : Nat) : (State.cxlPump s p).core = s.core := by
  unfold State.cxlPump
  repeat' (first | with_reducible rfl | (simp [*]; done) | dsimp only | (refine foldl_keeps State.core _ (fun _ _ => ?_) _ _) | (refine (foldl_keeps State.core _ (fun _ _ => ?_) _ _).trans ?_) | split)

@[simp] theorem State.core_setLim (s : State) (v : Nat) : (State.setLim s v).core = s.core := by
  unfold State.setLim; simp

@[simp] theorem State.core_shapeCommit (s : State) (rtChanged : Bool) : (State.shapeCommit s rtChanged).core = s.core := by
  unfold State.shapeCommit; simp

@[simp] theorem State.core_judgeThrottle (s : State) : (State.judgeThrottle s).core = s.core := by
  unfold State.judgeThrottle; simp

@[simp] theorem State.core_stageRegion (s : State) (n : Nat) (e : RegionEnt) : (State.stageRegion s n e).core = s.core := by
  unfold State.stageRegion; simp

@[simp] theorem State.core_regionWord1 (s : State) (n val : Nat) : (State.regionWord1 s n val).core = s.core := by
  unfold State.regionWord1; simp

@[simp] theorem State.core_regionWord0 (s : State) (n val : Nat) : (State.regionWord0 s n val).core = s.core := by
  unfold State.regionWord0
  repeat' (first | with_reducible rfl | (simp [*]; done) | dsimp only | split)

@[simp] theorem State.core_recallGo (s : State) : (State.recallGo s).core = s.core := by
  unfold State.recallGo; simp

@[simp] theorem State.core_endAt3 (s : State) (rid status next : Nat) : (State.endAt3 s rid status next).core = s.core := by
  unfold State.endAt3; simp

@[simp] theorem State.core_resolved (s : State) (r : Req) (pga : Nat) : (State.resolved s r pga).core = s.core := by
  unfold State.resolved
  repeat' (first | with_reducible rfl | (simp [*]; done) | dsimp only | split)

@[simp] theorem State.core_tcTouch (s : State) (l : Leaf) : (State.tcTouch s l).core = s.core := by
  unfold State.tcTouch; simp

@[simp] theorem State.core_tcAdd (s : State) (l : Leaf) : (State.tcAdd s l).core = s.core := by
  unfold State.tcAdd
  repeat' (first | with_reducible rfl | (simp [*]; done) | dsimp only | split)

@[simp] theorem State.core_tcFill (s : State) (l : Leaf) : (State.tcFill s l).core = s.core := by
  unfold State.tcFill
  repeat' (first | with_reducible rfl | (simp [*]; done) | dsimp only | split)

@[simp] theorem State.core_wcFill (s : State) (w : WalkEnt) : (State.wcFill s w).core = s.core := by
  unfold State.wcFill; simp

@[simp] theorem State.core_walkTouch (s : State) (tid tpa : Nat) : (State.walkTouch s tid tpa).core = s.core := by
  unfold State.walkTouch
  repeat' (first | with_reducible rfl | (simp [*]; done) | dsimp only | split)

@[simp] theorem State.core_tcUse (s : State) (r : Req) (l : Leaf) : (State.tcUse s r l).core = s.core := by
  unfold State.tcUse; simp

@[simp] theorem State.core_withPga (s : State) (r : Req) (pga : Nat) : (State.withPga s r pga).core = s.core := by
  unfold State.withPga
  repeat' (first | with_reducible rfl | simp [*] | dsimp only | split)

@[simp] theorem State.core_releaseHeld (s : State) (n : Nat) : (State.releaseHeld s n).core = s.core := by
  unfold State.releaseHeld; simp

@[simp] theorem State.core_hpqPush (s : State) (l : Leaf) : (State.hpqPush s l).core = s.core := by
  unfold State.hpqPush; simp

@[simp] theorem State.core_windowVisit (s : State) (l : Leaf) : (State.windowVisit s l).core = s.core := by
  unfold State.windowVisit; simp

@[simp] theorem State.core_window (s : State) : (State.window s).core = s.core := by
  unfold State.window; simp

@[simp] theorem State.core_windowsPassed (s : State) : (State.windowsPassed s).core = s.core := by
  unfold State.windowsPassed; simp

@[simp] theorem State.core_useXlat (s : State) : (State.useXlat s).core = s.core := by
  unfold State.useXlat; simp

@[simp] theorem State.core_xlatNomap (s : State) (r : Req) (next : Nat) : (State.xlatNomap s r next).core = s.core := by
  unfold State.xlatNomap; simp

@[simp] theorem State.core_walkError (s : State) (r : Req) (level : Nat) : (State.walkError s r level).core = s.core := by
  unfold State.walkError; simp

@[simp] theorem State.core_walkRead (s : State) (r : Req) (level base : Nat) : (State.walkRead s r level base).core = s.core := by
  unfold State.walkRead
  repeat' (first | with_reducible rfl | (simp [*]; done) | dsimp only | split)

@[simp] theorem State.core_throughLeaf (s : State) (r : Req) (l : Leaf) : (State.throughLeaf s r l).core = s.core := by
  unfold State.throughLeaf; simp

@[simp] theorem State.core_translate (s : State) (r : Req) : (State.translate s r).core = s.core := by
  unfold State.translate
  repeat' (first | with_reducible rfl | (simp [*]; done) | dsimp only | split)

@[simp] theorem State.core_walkData (s : State) (parent off : Nat) (d : BitVec 512) (bad : Bool) : (State.walkData s parent off d bad).core = s.core := by
  unfold State.walkData
  repeat' (first | with_reducible rfl | (simp [*]; done) | dsimp only | split)

@[simp] theorem State.core_xinvDo (s : State) (tid tpa scope : Nat) : (State.xinvDo s tid tpa scope).core = s.core := by
  unfold State.xinvDo; simp

@[simp] theorem State.core_xinvRun (s : State) (port : Nat) (m : Msg) : (State.xinvRun s port m).core = s.core := by
  unfold State.xinvRun; simp

@[simp] theorem State.core_invNext (src n : Nat) (s : State) : (State.invNext src n s).core = s.core := by
  induction n generalizing s with
  | zero => rfl
  | succ n ih =>
    unfold State.invNext
    repeat' (first | with_reducible rfl | (simp [*]; done) | dsimp only | split)

@[simp] theorem State.core_hpqTailWrite (s : State) (v : Nat) : (State.hpqTailWrite s v).core = s.core := by
  unfold State.hpqTailWrite; simp

@[simp] theorem State.core_xlatDrained (s : State) : (State.xlatDrained s).core = s.core := by
  unfold State.xlatDrained; simp

@[simp] theorem State.core_setMch (s : State) (n : Nat) (v : Mch) : (State.setMch s n v).core = s.core := by
  unfold State.setMch; simp

@[simp] theorem State.core_clearSegment (s : State) (ch k : Nat) : (State.clearSegment s ch k).core = s.core := by
  unfold State.clearSegment; simp

@[simp] theorem State.core_raiseMask (s : State) (ch : Nat) (also : List Nat) : (State.raiseMask s ch also).core = s.core := by
  unfold State.raiseMask; simp

@[simp] theorem State.core_fallMask (s : State) (ch : Nat) : (State.fallMask s ch).core = s.core := by
  unfold State.fallMask; simp

@[simp] theorem State.core_sampleStale (s : State) : (State.sampleStale s).core = s.core := by
  unfold State.sampleStale; simp

@[simp] theorem State.core_addStale (s : State) (q bank row : Nat) (mask : BitVec 128) : (State.addStale s q bank row mask).core = s.core := by
  unfold State.addStale; simp

@[simp] theorem State.core_dropStale (s : State) (q bank row : Nat) : (State.dropStale s q bank row).core = s.core := by
  unfold State.dropStale; simp

@[simp] theorem State.core_staleWrite (s : State) (q bank row col : Nat) (poison : Bool) : (State.staleWrite s q bank row col poison).core = s.core := by
  unfold State.staleWrite
  repeat' (first | with_reducible rfl | (simp [*]; done) | dsimp only | split)

@[simp] theorem State.core_placeReencode (s : State) (q bank row : Nat) : (State.placeReencode s q bank row).core = s.core := by
  unfold State.placeReencode; simp

@[simp] theorem State.core_staleFlush (s : State) : (State.staleFlush s).core = s.core := by
  unfold State.staleFlush; simp

@[simp] theorem State.core_setPage (s : State) (i : Nat) (e : PageEnt) : (State.setPage s i e).core = s.core := by
  unfold State.setPage; simp

@[simp] theorem State.core_judgePage (s : State) (i : Nat) (at_ : ErrAt) (hard : Bool) (nsym first source : Nat) : (State.judgePage s i at_ hard nsym first source).core = s.core := by
  unfold State.judgePage
  repeat' (first | with_reducible rfl | (simp [*]; done) | dsimp only | split)

@[simp] theorem State.core_pageEvent (s : State) (a : ErrAt) (hard : Bool) (nsym first source : Nat) : (State.pageEvent s a hard nsym first source).core = s.core := by
  unfold State.pageEvent
  repeat' (first | with_reducible rfl | (simp [*]; done) | dsimp only | split)

@[simp] theorem State.core_setBank (s : State) (i : Nat) (e : BankEnt) : (State.setBank s i e).core = s.core := by
  unfold State.setBank; simp

@[simp] theorem State.core_judgeBank (s : State) (i : Nat) (a : ErrAt) (nsym first source : Nat) : (State.judgeBank s i a nsym first source).core = s.core := by
  unfold State.judgeBank; simp

@[simp] theorem State.core_errEvent (s : State) (a : ErrAt) (hard : Bool) (nsym first source : Nat) : (State.errEvent s a hard nsym first source).core = s.core := by
  unfold State.errEvent; simp

@[simp] theorem State.core_corrected (s : State) (a : ErrAt) (syms : List Nat) (source : Nat) : (State.corrected s a syms source).core = s.core := by
  unfold State.corrected; simp

@[simp] theorem State.core_uncorrectable (s : State) (a : ErrAt) (isMeta : Bool) (source : Nat) : (State.uncorrectable s a isMeta source).core = s.core := by
  unfold State.uncorrectable; simp

@[simp] theorem State.core_judgePages (s : State) : (State.judgePages s).core = s.core := by
  unfold State.judgePages; simp

@[simp] theorem State.core_judgeBanks (s : State) : (State.judgeBanks s).core = s.core := by
  unfold State.judgeBanks; simp

@[simp] theorem State.core_judgeLasting (s : State) (page bank : Nat) : (State.judgeLasting s page bank).core = s.core := by
  unfold State.judgeLasting; simp

@[simp] theorem State.core_ptClear (s : State) : (State.ptClear s).core = s.core := by
  unfold State.ptClear
  repeat' (first | with_reducible rfl | (simp [*]; done) | dsimp only | split)

@[simp] theorem State.core_btClear (s : State) : (State.btClear s).core = s.core := by
  unfold State.btClear
  repeat' (first | with_reducible rfl | (simp [*]; done) | dsimp only | split)

@[simp] theorem State.core_patrol (s : State) (q : Nat) : (State.patrol s q).core = s.core := by
  unfold State.patrol
  repeat' (first | with_reducible rfl | (simp [*]; done) | dsimp only | split)

@[simp] theorem State.core_setScrub (s : State) (v : Nat) : (State.setScrub s v).core = s.core := by
  unfold State.setScrub; simp

@[simp] theorem State.core_scrubClamp (s : State) : (State.scrubClamp s).core = s.core := by
  unfold State.scrubClamp; simp

@[simp] theorem State.core_rmapStart (s : State) (i q bank sa spare : Nat) : (State.rmapStart s i q bank sa spare).core = s.core := by
  unfold State.rmapStart; simp

@[simp] theorem State.core_rmapPut (s : State) (lo v : Nat) : (State.rmapPut s lo v).core = s.core := by
  unfold State.rmapPut; simp

@[simp] theorem State.core_rmapAdd (s : State) : (State.rmapAdd s).core = s.core := by
  unfold State.rmapAdd
  repeat' (first | with_reducible rfl | (simp [*]; done) | dsimp only | split)

@[simp] theorem State.core_copyIssued (s : State) (i : Nat) : (State.copyIssued s i).core = s.core := by
  unfold State.copyIssued
  repeat' (first | with_reducible rfl | (simp [*]; done) | dsimp only | split)

@[simp] theorem State.core_tailWrite (s : State) (v : Nat) : (State.tailWrite s v).core = s.core := by
  unfold State.tailWrite; simp

@[simp] theorem State.core_setPrl (s : State) (k : Nat) (m : BitVec 128) : (State.setPrl s k m).core = s.core := by
  unfold State.setPrl
  repeat' (first | with_reducible rfl | (simp [*]; done) | dsimp only | split)

@[simp] theorem State.core_prlLine (s : State) (q bank row col : Nat) (poison : Bool) : (State.prlLine s q bank row col poison).core = s.core := by
  unfold State.prlLine; simp

@[simp] theorem State.core_prlClear (s : State) (q seg : Nat) : (State.prlClear s q seg).core = s.core := by
  unfold State.prlClear; simp

@[simp] theorem State.core_rescanRow (s : State) (r : Rescan) : (State.rescanRow s r).core = s.core := by
  unfold State.rescanRow; simp

@[simp] theorem State.core_rescanGo (s : State) : (State.rescanGo s).core = s.core := by
  unfold State.rescanGo; simp

@[simp] theorem State.core_rescanLine (s : State) (q bank row col : Nat) (poison : Bool) : (State.rescanLine s q bank row col poison).core = s.core := by
  unfold State.rescanLine
  repeat' (first | with_reducible rfl | (simp [*]; done) | dsimp only | split)

@[simp] theorem State.core_updBake (s : State) (bid : Nat) (f : Bake → Bake) : (State.updBake s bid f).core = s.core := by
  unfold State.updBake; simp

@[simp] theorem State.core_regrant (s : State) : (State.regrant s).core = s.core := by
  unfold State.regrant; simp

@[simp] theorem State.core_setLane (s : State) (ch : Nat) (l : List LaneJob) : (State.setLane s ch l).core = s.core := by
  unfold State.setLane; simp

@[simp] theorem State.core_laneReads (s : State) (ch : Nat) (j : LaneJob) (b : Bake) (i : Nat) : (State.laneReads s ch j b i).core = s.core := by
  unfold State.laneReads; simp

@[simp] theorem core_lanePumpOver (ch : Nat) (l : List LaneJob) (s : State) : (lanePumpOver ch l s).core = s.core := by
  induction l generalizing s with
  | nil => simp [lanePumpOver]
  | cons j t ih =>
    unfold lanePumpOver
    dsimp only
    repeat' split
    all_goals simp [ih]

@[simp] theorem State.core_lanePump (s : State) (ch : Nat) : (State.lanePump s ch).core = s.core := by
  unfold State.lanePump; simp

@[simp] theorem State.core_placeLane (s : State) (ch : Nat) (j : LaneJob) : (State.placeLane s ch j).core = s.core := by
  unfold State.placeLane; simp

@[simp] theorem State.core_laneLine (s : State) (ch : Nat) (j : LaneJob) (b : Bake) : (State.laneLine s ch j b).core = s.core := by
  unfold State.laneLine; simp

@[simp] theorem State.core_laneData (s : State) (ch operand : Nat) (d : BitVec 512) (poison : Bool) : (State.laneData s ch operand d poison).core = s.core := by
  unfold State.laneData
  repeat' (first | with_reducible rfl | (simp [*]; done) | dsimp only | split)

@[simp] theorem State.core_setCtx (s : State) (rce c : Nat) (v : Ctx) : (State.setCtx s rce c v).core = s.core := by
  unfold State.setCtx; simp

@[simp] theorem State.core_loseRce (s : State) (rce : Nat) : (State.loseRce s rce).core = s.core := by
  unfold State.loseRce; simp

@[simp] theorem State.core_sampleCtx (s : State) (rce : Nat) : (State.sampleCtx s rce).core = s.core := by
  unfold State.sampleCtx; simp

@[simp] theorem State.core_freeCtxs (s : State) : (State.freeCtxs s).core = s.core := by
  unfold State.freeCtxs; simp

@[simp] theorem State.core_stallCount (s : State) (rce : Nat) : (State.stallCount s rce).core = s.core := by
  unfold State.stallCount; simp

@[simp] theorem State.core_stopStalled (s : State) (bid cls : Nat) : (State.stopStalled s bid cls).core = s.core := by
  unfold State.stopStalled
  dsimp only
  rw [State.core_freeCtxs]
  exact foldl_keeps State.core _ (fun a c => State.core_stallCount a _) _ _

@[simp] theorem State.core_bakeEnds (s : State) (bid : Nat) : (State.bakeEnds s bid).core = s.core := by
  unfold State.bakeEnds
  repeat' (first | with_reducible rfl | (simp [*]; done) | dsimp only | split)

@[simp] theorem State.core_dropLanes (s : State) (bid : Nat) : (State.dropLanes s bid).core = s.core := by
  unfold State.dropLanes; simp

@[simp] theorem State.core_conclude (s : State) (bid cause fault ch : Nat) : (State.conclude s bid cause fault ch).core = s.core := by
  unfold State.conclude
  repeat' (first | with_reducible rfl | (simp [*]; done) | dsimp only | split)

@[simp] theorem State.core_placeLanePart (s : State) (b : Bake) : (State.placeLanePart s b).core = s.core := by
  unfold State.placeLanePart; simp

@[simp] theorem State.core_afterEnd (s : State) (bid : Nat) : (State.afterEnd s bid).core = s.core := by
  unfold State.afterEnd
  repeat' (first | with_reducible rfl | (simp [*]; done) | dsimp only | split)

@[simp] theorem State.core_csFetch (s : State) (rce a : Nat) : (State.csFetch s rce a).2.core = s.core := by
  unfold State.csFetch
  repeat' (first | with_reducible rfl | (simp [*]; done) | dsimp only | split)

@[simp] theorem State.core_rceFault (s : State) (rce c cls : Nat) : (State.rceFault s rce c cls).core = s.core := by
  unfold State.rceFault
  repeat' (first | with_reducible rfl | (simp [*]; done) | dsimp only | split)

@[simp] theorem State.core_ctxStop (s : State) (rce c : Nat) (b : Bake) : (State.ctxStop s rce c b).core = s.core := by
  unfold State.ctxStop; simp

@[simp] theorem State.core_advance (s : State) (rce c : Nat) (b : Bake) : (State.advance s rce c b).core = s.core := by
  unfold State.advance; simp

@[simp] theorem State.core_updCtx (s : State) (rce c : Nat) (f : Ctx → Ctx) : (State.updCtx s rce c f).core = s.core := by
  unfold State.updCtx; simp

@[simp] theorem State.core_jump (s : State) (rce c t : Nat) (b : Bake) : (State.jump s rce c t b).core = s.core := by
  unfold State.jump; simp

@[simp] theorem State.core_pageWrite (s : State) (rce ci i v : Nat) : (State.pageWrite s rce ci i v).core = s.core := by
  unfold State.pageWrite; simp

@[simp] theorem State.core_placeGroup (s : State) (rce ci : Nat) (b : Bake) (g : Group) : (State.placeGroup s rce ci b g).core = s.core := by
  unfold State.placeGroup; simp

theorem State.core_release (s : State) (rce ci : Nat) (b : Bake) (f : State → State) (hf : ∀ t, (f t).core = t.core) :
    (State.release s rce ci b f).core = s.core := by
  unfold State.release; rw [hf]; simp

@[simp] theorem State.core_laneFor (s : State) (rce ci : Nat) (j : LaneJob) : (State.laneFor s rce ci j).core = s.core := by
  unfold State.laneFor; simp

@[simp] theorem State.core_nodeWrite (s : State) (kind mid tid job ep region off n val status : Nat) : (State.nodeWrite s kind mid tid job ep region off n val status).core = s.core := by
  unfold State.nodeWrite; simp

@[simp] theorem State.core_planReads (s : State) (r : Req) (off region i n : Nat) : (State.planReads s r off region i n).core = s.core := by
  unfold State.planReads; simp

@[simp] theorem State.core_updLoad (s : State) (rid : Nat) (f : Load → Load) : (State.updLoad s rid f).core = s.core := by
  unfold State.updLoad; simp

@[simp] theorem State.core_startLoad (s : State) : (State.startLoad s).core = s.core := by
  unfold State.startLoad
  repeat' (first | with_reducible rfl | (simp [*]; done) | dsimp only | split)

@[simp] theorem State.core_planData (s : State) (rid i : Nat) (d : BitVec 512) (bad : Bool) : (State.planData s rid i d bad).core = s.core := by
  unfold State.planData
  repeat' (first | with_reducible rfl | (simp [*]; done) | dsimp only | split)

@[simp] theorem State.core_loadDone (s : State) (rid status : Nat) : (State.loadDone s rid status).core = s.core := by
  unfold State.loadDone; simp

@[simp] theorem State.core_planLoad (s : State) (r : Req) : (State.planLoad s r).core = s.core := by
  unfold State.planLoad; simp

@[simp] theorem State.core_planUnload (s : State) (r : Req) : (State.planUnload s r).core = s.core := by
  unfold State.planUnload
  repeat' (first | with_reducible rfl | (simp [*]; done) | dsimp only | split)

@[simp] theorem State.core_bakeSub (s : State) (r : Req) : (State.bakeSub s r).core = s.core := by
  unfold State.bakeSub
  repeat' (first | with_reducible rfl | (simp [*]; done) | dsimp only | split)

@[simp] theorem State.core_bakeAbort (s : State) (r : Req) : (State.bakeAbort s r).core = s.core := by
  unfold State.bakeAbort
  repeat' (first | with_reducible rfl | (simp [*]; done) | dsimp only | split)

@[simp] theorem State.core_prepare (s : State) (b : Bake) (rows : List (Nat × Bool)) : (State.prepare s b rows).core = s.core := by
  unfold State.prepare; simp

@[simp] theorem State.core_twBakeSend (s : State) (b : Bake) : (State.twBakeSend s b).2.core = s.core := by
  unfold State.twBakeSend
  repeat' (first | with_reducible rfl | (simp [*]; done) | dsimp only | split)

@[simp] theorem State.core_bakeOrdered (s : State) (b : Bake) : (State.bakeOrdered s b).core = s.core := by
  unfold State.bakeOrdered
  repeat' (first | with_reducible rfl | (simp [*]; done) | dsimp only | split)

@[simp] theorem State.core_scanRow (s : State) (b : Bake) : (State.scanRow s b).core = s.core := by
  unfold State.scanRow
  repeat' (first | with_reducible rfl | (simp [*]; done) | dsimp only | split)

@[simp] theorem State.core_scanLine (s : State) (bid col : Nat) (poison : Bool) : (State.scanLine s bid col poison).core = s.core := by
  unfold State.scanLine
  repeat' (first | with_reducible rfl | (simp [*]; done) | dsimp only | split)

@[simp] theorem State.core_startRun (s : State) (b : Bake) (rce ci : Nat) (run : Nat × Nat) (k : Nat) : (State.startRun s b rce ci run k).core = s.core := by
  unfold State.startRun; simp

@[simp] theorem State.core_bakeDone (s : State) (bid : Nat) : (State.bakeDone s bid).core = s.core := by
  unfold State.bakeDone
  repeat' (first | with_reducible rfl | (simp [*]; done) | dsimp only | split)

@[simp] theorem State.core_resultRow (s : State) (b : Bake) (q bank row : Nat) (c : Carry) : (State.resultRow s b q bank row c).1.core = s.core := by
  unfold State.resultRow
  repeat' (first | with_reducible rfl | (simp [*]; done) | dsimp only | split)

@[simp] theorem State.core_layoutFault (s : State) (b : Bake) (rce ci : Nat) : (State.layoutFault s b rce ci).core = s.core := by
  unfold State.layoutFault; simp

@[simp] theorem State.core_rotFinish (s : State) (slot : Nat) : (State.rotFinish s slot).core = s.core := by
  unfold State.rotFinish; simp

@[simp] theorem State.core_rotNextOver (n : Nat) (s : State) : (State.rotNextOver n s).core = s.core := by
  induction n generalizing s with
  | zero => rfl
  | succ k ih =>
    unfold State.rotNextOver
    repeat' split
    · rfl
    · rfl
    · rw [ih]; simp

@[simp] theorem State.core_rotNext (s : State) : (State.rotNext s).core = s.core := by
  unfold State.rotNext
  repeat' (first | with_reducible rfl | simp [*] | dsimp only | split)

@[simp] theorem State.core_rotPut (s : State) (r : Rot) (p : Option (Nat × Nat)) : (State.rotPut s r p).core = s.core := by
  unfold State.rotPut
  repeat' (first | with_reducible rfl | (simp [*]; done) | dsimp only | split)

@[simp] theorem State.core_rotAdvance (s : State) : (State.rotAdvance s).core = s.core := by
  unfold State.rotAdvance
  repeat' (first | with_reducible rfl | (simp [*]; done) | dsimp only | split)

@[simp] theorem State.core_rotStream (s : State) (region la : Nat) : (State.rotStream s region la).core = s.core := by
  unfold State.rotStream
  repeat' (first | with_reducible rfl | (simp [*]; done) | dsimp only | split)

@[simp] theorem State.core_rekeyData (s : State) (r : Req) (d : BitVec 512) (poison : Bool) : (State.rekeyData s r d poison).core = s.core := by
  unfold State.rekeyData; simp

@[simp] theorem State.core_rekeyDone (s : State) (r : Req) : (State.rekeyDone s r).core = s.core := by
  unfold State.rekeyDone
  repeat' (first | with_reducible rfl | (simp [*]; done) | dsimp only | split)

@[simp] theorem State.core_migrRefuse (s : State) (n code : Nat) (state : MState) : (State.migrRefuse s n code state).core = s.core := by
  unfold State.migrRefuse; simp

@[simp] theorem State.core_migrStartSend (s : State) (n : Nat) (m : Move) (resume : Bool) : (State.migrStartSend s n m resume).core = s.core := by
  unfold State.migrStartSend; simp

@[simp] theorem State.core_goWalked (s : State) (n : Nat) (leaf : Option (Nat × Nat)) : (State.goWalked s n leaf).core = s.core := by
  unfold State.goWalked
  repeat' (first | with_reducible rfl | (simp [*]; done) | dsimp only | split)

@[simp] theorem State.core_releaseWalked (s : State) (n : Nat) (leaf : Option (Nat × Nat)) : (State.releaseWalked s n leaf).core = s.core := by
  unfold State.releaseWalked; simp

@[simp] theorem State.core_startAnswer (s : State) (w : Req) (status v : Nat) : (State.startAnswer s w status v).core = s.core := by
  unfold State.startAnswer; simp

@[simp] theorem State.core_startWalked (s : State) (w : Req) (leaf : Option (Nat × Nat)) : (State.startWalked s w leaf).core = s.core := by
  unfold State.startWalked
  repeat' (first | with_reducible rfl | (simp [*]; done) | dsimp only | split)

@[simp] theorem State.core_migrWalked (s : State) (w : Req) (leaf : Option (Nat × Nat)) : (State.migrWalked s w leaf).core = s.core := by
  unfold State.migrWalked; simp

@[simp] theorem State.core_migrTable (s : State) (w : Req) (level base : Nat) : (State.migrTable s w level base).core = s.core := by
  unfold State.migrTable
  repeat' (first | with_reducible rfl | (simp [*]; done) | dsimp only | split)

@[simp] theorem State.core_migrWalkGo (s : State) (w : Req) : (State.migrWalkGo s w).core = s.core := by
  unfold State.migrWalkGo; simp

@[simp] theorem State.core_migrWalkData (s : State) (w : Req) (d : BitVec 512) (bad : Bool) : (State.migrWalkData s w d bad).core = s.core := by
  unfold State.migrWalkData
  repeat' (first | with_reducible rfl | (simp [*]; done) | dsimp only | split)

@[simp] theorem State.core_migrGo (s : State) : (State.migrGo s).core = s.core := by
  unfold State.migrGo
  repeat' (first | with_reducible rfl | (simp [*]; done) | dsimp only | split)

@[simp] theorem State.core_migrResume (s : State) : (State.migrResume s).core = s.core := by
  unfold State.migrResume; simp

@[simp] theorem State.core_migrAbandon (s : State) : (State.migrAbandon s).core = s.core := by
  unfold State.migrAbandon
  repeat' (first | with_reducible rfl | (simp [*]; done) | dsimp only | split)

@[simp] theorem State.core_migrRelease (s : State) : (State.migrRelease s).core = s.core := by
  unfold State.migrRelease; simp

@[simp] theorem State.core_migrStore (s : State) (n i off : Nat) (d : BitVec 512) (poison : Bool) : (State.migrStore s n i off d poison).core = s.core := by
  unfold State.migrStore; simp

@[simp] theorem core_migrFlush (n fuel : Nat) (s : State) : (migrFlush n fuel s).core = s.core := by
  induction fuel generalizing s with
  | zero => rfl
  | succ k ih =>
    unfold migrFlush
    dsimp only
    split
    · rfl
    · simp [ih]

@[simp] theorem State.core_migrData (s : State) (r : Req) (d : BitVec 512) (poison : Bool) : (State.migrData s r d poison).core = s.core := by
  unfold State.migrData; simp

@[simp] theorem State.core_migrAckSend (s : State) (n : Nat) : (State.migrAckSend s n).core = s.core := by
  unfold State.migrAckSend; simp

@[simp] theorem State.core_migrStored (s : State) (r : Req) : (State.migrStored s r).core = s.core := by
  unfold State.migrStored; simp

@[simp] theorem State.core_migrStartIn (s : State) (p : Nat) (m : Msg) : (State.migrStartIn s p m).core = s.core := by
  unfold State.migrStartIn
  repeat' (first | with_reducible rfl | (simp [*]; done) | dsimp only | split)

@[simp] theorem State.core_migrLineIn (s : State) (m : Msg) : (State.migrLineIn s m).core = s.core := by
  unfold State.migrLineIn
  repeat' (first | with_reducible rfl | (simp [*]; done) | dsimp only | split)

@[simp] theorem State.core_migrAdvance (s : State) (n d : Nat) : (State.migrAdvance s n d).core = s.core := by
  unfold State.migrAdvance; simp

@[simp] theorem State.core_migrTurned (s : State) (n code : Nat) : (State.migrTurned s n code).core = s.core := by
  unfold State.migrTurned; simp

@[simp] theorem State.core_migrRsp (s : State) (nid txid status rdata : Nat) : (State.migrRsp s nid txid status rdata).core = s.core := by
  unfold State.migrRsp
  repeat' (first | with_reducible rfl | (simp [*]; done) | dsimp only | split)

@[simp] theorem State.core_migrStuck (s : State) (n : Nat) (state : MState) : (State.migrStuck s n state).core = s.core := by
  unfold State.migrStuck; simp

@[simp] theorem State.core_rowCopyDone (s : State) (bid : Nat) : (State.rowCopyDone s bid).core = s.core := by
  unfold State.rowCopyDone
  repeat' (first | with_reducible rfl | (simp [*]; done) | dsimp only | split)

@[simp] theorem State.core_twAckSend (s : State) : (State.twAckSend s).core = s.core :=
  State.core_ite rfl ((State.core_twSend ..).trans (State.core_setTwin s _))

@[simp] theorem State.core_twStored (s : State) (tseq : Nat) : (State.twStored s tseq).core = s.core := by
  unfold State.twStored; simp

@[simp] theorem State.core_answerStored (s : State) (slot la : Nat) : (State.answerStored s slot la).core = s.core := by
  unfold State.answerStored
  repeat' (first | with_reducible rfl | (simp [*]; done) | dsimp only | split)

@[simp] theorem State.core_nodeWritten (s : State) (r : Req) : (State.nodeWritten s r).core = s.core := by
  unfold State.nodeWritten; simp

@[simp] theorem State.core_writeDone (s : State) (rid : Nat) : (State.writeDone s rid).core = s.core := by
  unfold State.writeDone
  repeat' (first | with_reducible rfl | simp [*] | dsimp only | split)

@[simp] theorem State.core_twLineSend (s : State) (off : Nat) (stored : BitVec 512) (poison : Bool) (kind tid job : Nat) (rid : Option Nat) : (State.twLineSend s off stored poison kind tid job rid).core = s.core := by
  unfold State.twLineSend
  repeat' (first | with_reducible rfl | (simp [*]; done) | dsimp only | split)

@[simp] theorem State.core_cryptCount (s : State) (key : Option (BitVec 512)) (tid job : Nat) : (State.cryptCount s key tid job).core = s.core := by
  unfold State.cryptCount; simp

@[simp] theorem State.core_pushEntries (s : State) (q : Nat) (es : List Entry) : (State.pushEntries s q es).core = s.core := by
  unfold State.pushEntries; simp

@[simp] theorem State.core_acceptWrite (s : State) (q : Nat) (e : Entry) : (State.acceptWrite s q e).core = s.core := by
  unfold State.acceptWrite
  repeat' (first | with_reducible rfl | (simp [*]; done) | dsimp only | split)

@[simp] theorem State.core_willPoison (s : State) (q : Nat) (e : Entry) : (State.willPoison s q e).core = s.core := by
  unfold State.willPoison; simp

@[simp] theorem State.core_acceptMerge (s : State) (q : Nat) (e : Entry) (rid : Nat) : (State.acceptMerge s q e rid).core = s.core := by
  unfold State.acceptMerge
  repeat' (first | with_reducible rfl | (simp [*]; done) | dsimp only | split)

@[simp] theorem State.core_acceptRead (s : State) (q : Nat) (e : Entry) (why : ReadFor) : (State.acceptRead s q e why).core = s.core := by
  unfold State.acceptRead
  repeat' (first | with_reducible rfl | (simp [*]; done) | dsimp only | split)

@[simp] theorem State.core_acceptCopy (s : State) (q i : Nat) (e : Entry) : (State.acceptCopy s q i e).core = s.core := by
  unfold State.acceptCopy
  repeat' (first | with_reducible rfl | (simp [*]; done) | dsimp only | split)

@[simp] theorem State.core_senseWord (s : State) (q bank row col : Nat) : (State.senseWord s q bank row col).2.core = s.core := by
  unfold State.senseWord
  repeat' (first | with_reducible rfl | (simp [*]; done) | dsimp only | split)

@[simp] theorem State.core_bumpCmd (s : State) (ch cls n : Nat) : (State.bumpCmd s ch cls n).core = s.core := by
  unfold State.bumpCmd; simp

@[simp] theorem State.core_countCmd (s : State) (q : Nat) (e : Entry) (x : Cmd) : (State.countCmd s q e x).core = s.core := by
  unfold State.countCmd
  repeat' (first | with_reducible rfl | (simp [*]; done) | dsimp only | split)

@[simp] theorem State.core_entryEnd (s : State) (q : Nat) (e : Entry) : (State.entryEnd s q e).core = s.core := by
  unfold State.entryEnd
  repeat' (first | with_reducible rfl | (simp [*]; done) | dsimp only | split)

@[simp] theorem State.core_popDone (s : State) (q : Nat) : (State.popDone s q).core = s.core := by
  unfold State.popDone
  repeat' (first | with_reducible rfl | (simp [*]; done) | dsimp only | split)

@[simp] theorem State.core_useFor (s : State) (q : Nat) (e : Entry) : (State.useFor s q e).core = s.core := by
  unfold State.useFor
  repeat' (first | with_reducible rfl | simp [*] | dsimp only | split)

@[simp] theorem State.core_redoIssue (s : State) (q : Nat) : (State.redoIssue s q).core = s.core := by
  unfold State.redoIssue
  repeat' (first | with_reducible rfl | (simp [*]; done) | dsimp only | split)

@[simp] theorem State.core_demandScrub (s : State) (q : Nat) (e : Entry) : (State.demandScrub s q e).core = s.core := by
  unfold State.demandScrub; simp

@[simp] theorem State.core_scrubUe (s : State) (a : ErrAt) (isMeta : Bool) : (State.scrubUe s a isMeta).core = s.core := by
  unfold State.scrubUe; simp

@[simp] theorem State.core_countReading (s : State) (a : ErrAt) (r : Reading) (source : Nat) : (State.countReading s a r source).core = s.core := by
  unfold State.countReading; simp

@[simp] theorem State.core_demandRas (s : State) (q : Nat) (e : Entry) (r : Reading) (store : Bool) : (State.demandRas s q e r store).core = s.core := by
  unfold State.demandRas; simp

@[simp] theorem State.core_entryWords (s : State) (q : Nat) (ws : Option (List (List Byte))) : (State.entryWords s q ws).core = s.core := by
  unfold State.entryWords
  repeat' (first | with_reducible rfl | (simp [*]; done) | dsimp only | split)

@[simp] theorem State.core_recordLine (s : State) (q : Nat) (e : Entry) (col : Nat) (poison : Bool) : (State.recordLine s q e col poison).core = s.core := by
  unfold State.recordLine; simp

@[simp] theorem State.core_writeBack (s : State) (q : Nat) (e : Entry) (stored : BitVec 512) (poison : Bool) : (State.writeBack s q e stored poison).core = s.core := by
  unfold State.writeBack; simp

@[simp] theorem State.core_withdraw (s : State) (r : Req) : (State.withdraw s r).core = s.core := by
  unfold State.withdraw
  repeat' (first | with_reducible rfl | (simp [*]; done) | dsimp only | split)

@[simp] theorem State.core_answerRead (s : State) (r : Req) (d : BitVec 512) (poisoned : Bool) : (State.answerRead s r d poisoned).core = s.core := by
  unfold State.answerRead; simp

@[simp] theorem State.core_rowCopy (s : State) (b : Bake) (i : Nat) : (State.rowCopy s b i).core = s.core := by
  unfold State.rowCopy; simp

@[simp] theorem State.core_resyncData (s : State) (r : Req) (d : BitVec 512) (poison : Bool) : (State.resyncData s r d poison).core = s.core := by
  unfold State.resyncData
  repeat' (first | with_reducible rfl | (simp [*]; done) | dsimp only | split)

@[simp] theorem State.core_reqData (s : State) (rid : Nat) (e : Entry) (d : BitVec 512) (rd : Reading) : (State.reqData s rid e d rd).core = s.core := by
  unfold State.reqData
  repeat' (first | with_reducible rfl | simp [*] | dsimp only | split)

@[simp] theorem State.core_setData (s : State) (set : Nat) (rid : Option Nat) (bad : Bool) : (State.setData s set rid bad).core = s.core := by
  unfold State.setData
  repeat' (first | with_reducible rfl | (simp [*]; done) | dsimp only | split)

@[simp] theorem State.core_readData (s : State) (q : Nat) (e : Entry) (why : ReadFor) (rd : Reading) : (State.readData s q e why rd).core = s.core := by
  unfold State.readData
  repeat' (first | with_reducible rfl | (simp [*]; done) | dsimp only | split)

@[simp] theorem State.core_mergeData (s : State) (q : Nat) (e : Entry) (rid : Nat) (rd : Reading) : (State.mergeData s q e rid rd).core = s.core := by
  unfold State.mergeData
  repeat' (first | with_reducible rfl | (simp [*]; done) | dsimp only | split)

@[simp] theorem State.core_scrubData (s : State) (q : Nat) (e : Entry) (src : Nat) (rd : Reading) : (State.scrubData s q e src rd).core = s.core := by
  unfold State.scrubData; simp

@[simp] theorem State.core_poisonData (s : State) (q : Nat) (e : Entry) (rd : Reading) : (State.poisonData s q e rd).core = s.core := by
  unfold State.poisonData; simp

@[simp] theorem State.core_rowData (s : State) (q : Nat) (e : Entry) (source : Nat) (rds : List Reading) : (State.rowData s q e source rds).core = s.core := by
  unfold State.rowData; simp

@[simp] theorem State.core_setRefi (s : State) (ch : Nat) : (State.setRefi s ch).core = s.core := by
  unfold State.setRefi; simp

@[simp] theorem State.core_stackTemp (s : State) (ch : Nat) (t : Nat) (valid : Bool) : (State.stackTemp s ch t valid).core = s.core := by
  unfold State.stackTemp; simp

@[simp] theorem State.core_stopMch (s : State) (ch step : Nat) : (State.stopMch s ch step).core = s.core := by
  unfold State.stopMch; simp

@[simp] theorem State.core_returned (s : State) (q : Nat) (r : Ret) (errs : List (List (Nat × Byte))) : (State.returned s q r errs).core = s.core := by
  unfold State.returned
  repeat' (first | with_reducible rfl | (simp [*]; done) | dsimp only | split)

@[simp] theorem State.core_placeBoth (s : State) (ch : Nat) (k : EKind) (src : ESrc) : (State.placeBoth s ch k src).core = s.core := by
  unfold State.placeBoth; simp

@[simp] theorem State.core_trainCmd (s : State) (q : Nat) (x : Cmd) : (State.trainCmd s q x).core = s.core := by
  unfold State.trainCmd; simp

@[simp] theorem State.core_trainEnter (s : State) (ch step : Nat) : (State.trainEnter s ch step).core = s.core := by
  unfold State.trainEnter; simp

@[simp] theorem State.core_trainTick (s : State) (ch : Nat) : (State.trainTick s ch).core = s.core := by
  unfold State.trainTick; simp

@[simp] theorem State.core_trainFrom (s : State) (ch step : Nat) : (State.trainFrom s ch step).core = s.core := by
  unfold State.trainFrom; simp

@[simp] theorem State.core_copyIdPage (s : State) (ch : Nat) (b : List Byte) : (State.copyIdPage s ch b).core = s.core := by
  unfold State.copyIdPage; simp

@[simp] theorem State.core_trainFail (s : State) (ch step : Nat) : (State.trainFail s ch step).core = s.core := by
  unfold State.trainFail; simp

@[simp] theorem State.core_wantWay (s : State) (r : Req) : (State.wantWay s r).core = s.core := by
  unfold State.wantWay
  repeat' (first | with_reducible rfl | (simp [*]; done) | dsimp only | split)

@[simp] theorem State.core_withInv (s : State) (r : Req) (e : DirEnt) (exact : Bool) : (State.withInv s r e exact).core = s.core := by
  unfold State.withInv
  repeat' (first | with_reducible rfl | (simp [*]; done) | dsimp only | split)

@[simp] theorem State.core_forward (s : State) (r : Req) (e : DirEnt) (kind : TrkKind) : (State.forward s r e kind).core = s.core := by
  unfold State.forward
  repeat' (first | with_reducible rfl | simp [*] | dsimp only | split)

@[simp] theorem State.core_evictDone (s : State) (r : Req) : (State.evictDone s r).core = s.core := by
  unfold State.evictDone; simp

@[simp] theorem State.core_orderWb (s : State) (r : Req) : (State.orderWb s r).core = s.core := by
  unfold State.orderWb
  repeat' (first | with_reducible rfl | (simp [*]; done) | dsimp only | split)

@[simp] theorem State.core_orderEvict (s : State) (r : Req) : (State.orderEvict s r).core = s.core := by
  unfold State.orderEvict
  repeat' (first | with_reducible rfl | simp [*] | dsimp only | split)

@[simp] theorem State.core_orderNew (s : State) (r : Req) : (State.orderNew s r).core = s.core := by
  unfold State.orderNew; simp

@[simp] theorem State.core_probeDone (s : State) (r : Req) : (State.probeDone s r).core = s.core := by
  unfold State.probeDone; simp

@[simp] theorem State.core_twinRead (s : State) (r : Req) : (State.twinRead s r).core = s.core := by
  unfold State.twinRead; simp

@[simp] theorem State.core_settlePending (s : State) (r : Req) : (State.settlePending s r).core = s.core := by
  unfold State.settlePending
  repeat' (first | with_reducible rfl | (simp [*]; done) | dsimp only | split)

@[simp] theorem State.core_orderUncached (s : State) (r : Req) : (State.orderUncached s r).core = s.core := by
  unfold State.orderUncached
  repeat' (first | with_reducible rfl | simp [*] | dsimp only | split)

@[simp] theorem State.core_orderCoherent (s : State) (r : Req) : (State.orderCoherent s r).core = s.core := by
  unfold State.orderCoherent
  repeat' (first | with_reducible rfl | (simp [*]; done) | dsimp only | split)

@[simp] theorem State.core_settleLine (s : State) (r : Req) : (State.settleLine s r).core = s.core := by
  unfold State.settleLine
  repeat' (first | with_reducible rfl | (simp [*]; done) | dsimp only | split)

theorem State.core_lookup (s t : State) (r : Req) (h : s.lookup r = some t) : t.core = s.core := by
  unfold State.lookup at h
  repeat' split at h
  all_goals cases h
  all_goals simp

@[simp] theorem State.core_missSet (s : State) (r : Req) : (State.missSet s r).core = s.core := by
  unfold State.missSet; simp

@[simp] theorem State.core_sweepFor (s : State) (r : Req) : (State.sweepFor s r).core = s.core := by
  unfold State.sweepFor
  repeat' (first | with_reducible rfl | (simp [*]; done) | dsimp only | split)

@[simp] theorem State.core_orderReq (s : State) (r : Req) : (State.orderReq s r).core = s.core := by
  unfold State.orderReq
  split
  · repeat' split
    all_goals simp
  split
  · simp
  split
  · simp
  rename_i s1 h
  have h1 := State.core_lookup s s1 r h
  dsimp only
  repeat' split
  all_goals simp [h1]

@[simp] theorem State.core_goOn (s : State) (r : Req) : (State.goOn s r).core = s.core := by
  unfold State.goOn; simp

@[simp] theorem State.core_setTurn (s : State) (t : Nat) : (State.setTurn s t).core = s.core := by
  unfold State.setTurn; simp

@[simp] theorem State.core_ownShadows (s : State) : (State.ownShadows s).core = s.core := by
  unfold State.ownShadows; simp

@[simp] theorem State.core_makeShadows (s : State) : (State.makeShadows s).core = s.core := by
  unfold State.makeShadows; simp

@[simp] theorem State.core_twGo (s : State) (ns : List Nat) : (State.twGo s ns).core = s.core := by
  unfold State.twGo
  repeat' (first | with_reducible rfl | (simp [*]; done) | dsimp only | (refine foldl_keeps State.core _ (fun _ _ => ?_) _ _) | (refine (foldl_keeps State.core _ (fun _ _ => ?_) _ _).trans ?_) | split)

@[simp] theorem State.core_mergeAccepted (s : State) (rid : Nat) : (State.mergeAccepted s rid).core = s.core := by
  unfold State.mergeAccepted
  repeat' (first | with_reducible rfl | (simp [*]; done) | dsimp only | split)

@[simp] theorem State.core_unmirror (s : State) : (State.unmirror s).core = s.core := by
  unfold State.unmirror; simp

@[simp] theorem State.core_twQuit (s : State) : (State.twQuit s).core = s.core := by
  unfold State.twQuit; simp

@[simp] theorem State.core_soloHolder (s : State) : (State.soloHolder s).core = s.core := by
  unfold State.soloHolder; simp

@[simp] theorem State.core_fenceReqs (s : State) : (State.fenceReqs s).core = s.core := by
  unfold State.fenceReqs; simp

@[simp] theorem State.core_fenceBakes (s : State) : (State.fenceBakes s).core = s.core := by
  unfold State.fenceBakes; simp

@[simp] theorem State.core_selfFence (s : State) : (State.selfFence s).core = s.core := by
  unfold State.selfFence; simp

@[simp] theorem State.core_settleRecord (s : State) (e : DirEnt) : (State.settleRecord s e).core = s.core := by
  unfold State.settleRecord; simp

@[simp] theorem State.core_turnBake (s : State) (t : TwBake) : (State.turnBake s t).core = s.core := by
  unfold State.turnBake
  repeat' (first | with_reducible rfl | (simp [*]; done) | dsimp only | split)

@[simp] theorem State.core_takeover (s : State) : (State.takeover s).core = s.core := by
  unfold State.takeover; simp

@[simp] theorem State.core_twFirst (s : State) (m : Msg) : (State.twFirst s m).core = s.core := by
  unfold State.twFirst
  repeat' (first | with_reducible rfl | (simp [*]; done) | dsimp only | split)

@[simp] theorem State.core_renew (s : State) : (State.renew s).core = s.core := by
  unfold State.renew; simp

@[simp] theorem State.core_toFenced (s : State) : (State.toFenced s).core = s.core := by
  unfold State.toFenced; simp

@[simp] theorem State.core_renewAck (s : State) (n : Nat) : (State.renewAck s n).core = s.core := by
  unfold State.renewAck; simp

@[simp] theorem State.core_leaveNow (s : State) : (State.leaveNow s).core = s.core := by
  unfold State.leaveNow; simp

@[simp] theorem State.core_handoverStep (s : State) : (State.handoverStep s).core = s.core := by
  unfold State.handoverStep
  repeat' (first | with_reducible rfl | (simp [*]; done) | dsimp only | split)

@[simp] theorem State.core_handoverBegin (s : State) : (State.handoverBegin s).core = s.core := by
  unfold State.handoverBegin; simp

theorem State.core_twIn (s t : State) (p opc : Nat) (m : Msg) (b : Bool) (h : s.twIn p opc m = some (t, b)) : t.core = s.core := by
  unfold State.twIn at h
  rw [Option.map_eq_some_iff] at h
  obtain ⟨⟨u, v⟩, h1, h2⟩ := h
  have h3 := State.core_portIn _ _ _ _ _ _ _ h1
  dsimp only at h2
  repeat' split at h2
  all_goals cases h2
  all_goals simp [h3]

@[simp] theorem State.core_twStray (s : State) : (State.twStray s).core = s.core := by
  unfold State.twStray; simp

@[simp] theorem State.core_twNext (s : State) (m : Msg) : (State.twNext s m).1.core = s.core := by
  unfold State.twNext
  repeat' (first | with_reducible rfl | (simp [*]; done) | dsimp only | split)

@[simp] theorem State.core_ackEighth (s : State) : (State.ackEighth s).core = s.core := by
  unfold State.ackEighth; simp

theorem State.core_twSeqIn (s : State) (p opc : Nat) (m : Msg) (f : State → State) (hf : ∀ t, (f t).core = t.core) :
    (State.twSeqIn s p opc m f).core = s.core := by
  unfold State.twSeqIn
  split
  · rfl
  · exact State.core_twIn _ _ _ _ _ _ ‹_›
  · have h1 := State.core_twIn _ _ _ _ _ _ ‹_›
    split
    all_goals
      rename_i s1 _ _ s2 h2
      have h3 := State.core_twNext s1 m
      rw [h2] at h3
      simp_all

theorem State.core_twPlainIn (s : State) (p opc : Nat) (m : Msg) (f : State → State) (hf : ∀ t, (f t).core = t.core) :
    (State.twPlainIn s p opc m f).core = s.core := by
  unfold State.twPlainIn
  split
  · rfl
  · exact State.core_twIn _ _ _ _ _ _ ‹_›
  · rw [hf]; exact State.core_twIn _ _ _ _ _ _ ‹_›

@[simp] theorem State.core_closeRecord (s : State) (la : Nat) : (State.closeRecord s la).core = s.core := by
  unfold State.closeRecord
  repeat' (first | with_reducible rfl | (simp [*]; done) | dsimp only | split)

@[simp] theorem State.core_twLineIn (s : State) (m : Msg) : (State.twLineIn s m).core = s.core := by
  unfold State.twLineIn; simp

@[simp] theorem State.core_twDeltaIn (s : State) (m : Msg) : (State.twDeltaIn s m).core = s.core := by
  unfold State.twDeltaIn
  repeat' (first | with_reducible rfl | (simp [*]; done) | dsimp only | split)

@[simp] theorem core_twRefill (n : Nat) (s : State) : (twRefill n s).core = s.core := by
  induction n generalizing s with
  | zero => rfl
  | succ k ih =>
    unfold twRefill
    repeat' split
    · rfl
    · simp [ih, State.core_mk, State.core_eta]
    · rfl

@[simp] theorem State.core_twAckIn (s : State) (n : Nat) : (State.twAckIn s n).core = s.core := by
  unfold State.twAckIn; simp

@[simp] theorem State.core_twBakeAnswer (s : State) (t : TwBake) (replayed : Bool) : (State.twBakeAnswer s t replayed).core = s.core := by
  unfold State.twBakeAnswer; simp

@[simp] theorem State.core_twBakeIn (s : State) (m : Msg) : (State.twBakeIn s m).core = s.core := by
  unfold State.twBakeIn; simp

@[simp] theorem State.core_replayEnd (s : State) (bid : Nat) : (State.replayEnd s bid).core = s.core := by
  unfold State.replayEnd
  repeat' (first | with_reducible rfl | (simp [*]; done) | dsimp only | split)

@[simp] theorem State.core_twBakeEndIn (s : State) (m : Msg) : (State.twBakeEndIn s m).core = s.core := by
  unfold State.twBakeEndIn
  repeat' (first | with_reducible rfl | (simp [*]; done) | dsimp only | split)

@[simp] theorem State.core_copyBegin (s : State) (bid : Nat) : (State.copyBegin s bid).core = s.core := by
  unfold State.copyBegin
  repeat' (first | with_reducible rfl | (simp [*]; done) | dsimp only | split)

@[simp] theorem State.core_twBakeRspIn (s : State) (m : Msg) : (State.twBakeRspIn s m).core = s.core := by
  unfold State.twBakeRspIn
  repeat' (first | with_reducible rfl | (simp [*]; done) | dsimp only | split)

@[simp] theorem State.core_twRenewIn (s : State) (m : Msg) : (State.twRenewIn s m).core = s.core := by
  unfold State.twRenewIn; simp

@[simp] theorem State.core_twRenewAckIn (s : State) (m : Msg) : (State.twRenewAckIn s m).core = s.core := by
  unfold State.twRenewAckIn
  repeat' (first | with_reducible rfl | (simp [*]; done) | dsimp only | split)

@[simp] theorem State.core_twHandoverIn (s : State) : (State.twHandoverIn s).core = s.core := by
  unfold State.twHandoverIn; simp

@[simp] theorem State.core_turnClaim (s : State) : (State.turnClaim s).core = s.core := by
  unfold State.turnClaim; simp

@[simp] theorem State.core_turnSolo (s : State) : (State.turnSolo s).core = s.core := by
  unfold State.turnSolo; simp

@[simp] theorem State.core_turnLeave (s : State) : (State.turnLeave s).core = s.core := by
  unfold State.turnLeave; simp

@[simp] theorem State.core_joinSend (s : State) : (State.joinSend s).core = s.core := by
  unfold State.joinSend
  repeat' (first | with_reducible rfl | (simp [*]; done) | dsimp only | split)

@[simp] theorem State.core_joinRsp (s : State) (status : Nat) : (State.joinRsp s status).core = s.core := by
  unfold State.joinRsp; simp

@[simp] theorem State.core_imageOpen (s : State) : (State.imageOpen s).core = s.core := by
  unfold State.imageOpen
  repeat' (first | with_reducible rfl | (simp [*]; done) | dsimp only | (refine foldl_keeps State.core _ (fun _ _ => ?_) _ _) | (refine (foldl_keeps State.core _ (fun _ _ => ?_) _ _).trans ?_) | split)

@[simp] theorem State.core_resyncStart (s : State) : (State.resyncStart s).core = s.core := by
  unfold State.resyncStart; simp

@[simp] theorem State.core_twSyncedIn (s : State) : (State.twSyncedIn s).core = s.core := by
  unfold State.twSyncedIn; simp

@[simp] theorem State.core_pairCommit (s : State) : (State.pairCommit s).core = s.core := by
  unfold State.pairCommit; simp

@[simp] theorem State.core_meterSend (s : State) (ty : Nat) (b : List Nat) : (State.meterSend s ty b).core = s.core := by
  unfold State.meterSend; simp

@[simp] theorem State.core_sampleBacklog (s : State) : (State.sampleBacklog s).core = s.core := by
  unfold State.sampleBacklog; simp

@[simp] theorem State.core_sampleJobs (s : State) : (State.sampleJobs s).core = s.core := by
  unfold State.sampleJobs; simp

@[simp] theorem State.core_updJob (s : State) (tid job : Nat) (f : JobRec → JobRec) : (State.updJob s tid job f).core = s.core := by
  unfold State.updJob; simp

@[simp] theorem State.core_dropJob (s : State) (tid job : Nat) : (State.dropJob s tid job).core = s.core := by
  unfold State.dropJob; simp

@[simp] theorem State.core_shutdownFrame (s : State) : (State.shutdownFrame s).core = s.core := by
  unfold State.shutdownFrame; simp

@[simp] theorem State.core_noteSent (s : State) (recs : Tab (List Nat)) : (State.noteSent s recs).core = s.core := by
  unfold State.noteSent; simp

@[simp] theorem State.core_meterStep (s : State) : (State.meterStep s).core = s.core := by
  unfold State.meterStep
  repeat' (first | with_reducible rfl | (simp [*]; done) | dsimp only | split)

@[simp] theorem State.core_meterPump (s : State) : (State.meterPump s).core = s.core := by
  unfold State.meterPump; simp

@[simp] theorem State.core_meterQueue (s : State) (ty : Nat) (b : List Nat) : (State.meterQueue s ty b).core = s.core := by
  unfold State.meterQueue; simp

@[simp] theorem State.core_meterResend (s : State) : (State.meterResend s).core = s.core := by
  unfold State.meterResend; simp

@[simp] theorem State.core_unproven (s : State) (tid job : Nat) : (State.unproven s tid job).core = s.core := by
  unfold State.unproven; simp

@[simp] theorem State.core_scheduleClose (s : State) (j : JobRec) : (State.scheduleClose s j).core = s.core := by
  unfold State.scheduleClose; simp

@[simp] theorem State.core_closeJob (s : State) (j : JobRec) : (State.closeJob s j).core = s.core := by
  unfold State.closeJob
  repeat' (first | with_reducible rfl | (simp [*]; done) | dsimp only | split)

@[simp] theorem State.core_jobOpen (s : State) (r : Req) : (State.jobOpen s r).core = s.core := by
  unfold State.jobOpen
  repeat' (first | with_reducible rfl | (simp [*]; done) | dsimp only | split)

@[simp] theorem State.core_jobClose (s : State) (r : Req) : (State.jobClose s r).core = s.core := by
  unfold State.jobClose
  repeat' (first | with_reducible rfl | (simp [*]; done) | dsimp only | split)

@[simp] theorem State.core_disableJobs (s : State) (tid : Nat) : (State.disableJobs s tid).core = s.core := by
  unfold State.disableJobs; simp

@[simp] theorem State.core_addUnmet (s : State) (recs : Tab (List Nat)) (num : Nat) : (State.addUnmet s recs num).core = s.core := by
  unfold State.addUnmet; simp

@[simp] theorem State.core_loseCloses (s : State) (ks : List Nat) : (State.loseCloses s ks).core = s.core := by
  unfold State.loseCloses; simp

@[simp] theorem State.core_fold (s : State) : (State.fold s).core = s.core := by
  unfold State.fold
  repeat' (first | with_reducible rfl | (simp [*]; done) | dsimp only | split)

@[simp] theorem State.core_closeInterval (s : State) (tallied : Bool) : (State.closeInterval s tallied).core = s.core := by
  unfold State.closeInterval; simp

@[simp] theorem State.core_meterJudge (s : State) (boundary mark : Bool) : (State.meterJudge s boundary mark).core = s.core := by
  unfold State.meterJudge; simp

@[simp] theorem State.core_linkGone (s : State) : (State.linkGone s).core = s.core := by
  unfold State.linkGone; simp

@[simp] theorem State.core_meterAcked (s : State) (h : FrameHdr) : (State.meterAcked s h).core = s.core := by
  unfold State.meterAcked; simp

@[simp] theorem State.core_meterFrame (s : State) (h : FrameHdr) (isIdent take : Bool) : (State.meterFrame s h isIdent take).1.core = s.core := by
  unfold State.meterFrame
  repeat' (first | with_reducible rfl | (simp [*]; done) | dsimp only | split)

@[simp] theorem State.core_reopenJobs (s : State) (fresh : Bool) : (State.reopenJobs s fresh).core = s.core := by
  unfold State.reopenJobs
  repeat' (first | with_reducible rfl | (simp [*]; done) | dsimp only | split)

@[simp] theorem State.core_zm3Tamper (s : State) : (State.zm3Tamper s).core = s.core := by
  unfold State.zm3Tamper; simp

@[simp] theorem State.core_meterShutdown (s : State) : (State.meterShutdown s).core = s.core := by
  unfold State.meterShutdown
  repeat' (first | with_reducible rfl | (simp [*]; done) | dsimp only | (refine foldl_keeps State.core _ (fun _ _ => ?_) _ _) | (refine (foldl_keeps State.core _ (fun _ _ => ?_) _ _).trans ?_) | split)

@[simp] theorem State.core_boundary (s : State) (tallied : Bool) : (State.boundary s tallied).core = s.core := by
  unfold State.boundary; simp

@[simp] theorem State.core_proofDone (s : State) (rec : List Byte) : (State.proofDone s rec).core = s.core := by
  unfold State.proofDone
  repeat' (first | with_reducible rfl | (simp [*]; done) | dsimp only | split)

@[simp] theorem State.core_proofTailWrite (s : State) (v : Nat) : (State.proofTailWrite s v).core = s.core := by
  unfold State.proofTailWrite; simp

@[simp] theorem State.core_bayOpened (s : State) : (State.bayOpened s).core = s.core := by
  unfold State.bayOpened; simp

@[simp] theorem State.core_zm3Seat (s : State) (present : Bool) : (State.zm3Seat s present).core = s.core := by
  unfold State.zm3Seat; simp

@[simp] theorem State.core_resolve (s : State) (r : Req) : (State.resolve s r).core = s.core := by
  unfold State.resolve
  repeat' (first | with_reducible rfl | simp [*] | dsimp only | split)

@[simp] theorem State.core_relayEnd (s : State) (r : Req) : (State.relayEnd s r).core = s.core := by
  unfold State.relayEnd; simp

@[simp] theorem State.core_relay (s : State) (p : Nat) (m : Msg) : (State.relay s p m).core = s.core := by
  unfold State.relay
  repeat' (first | with_reducible rfl | (simp [*]; done) | dsimp only | split)

@[simp] theorem State.core_stopDomain (s : State) (mc : Bool) : (State.stopDomain s mc).core = s.core := by
  unfold State.stopDomain; simp

@[simp] theorem State.core_clockFence (s : State) : (State.clockFence s).core = s.core := by
  unfold State.clockFence; simp

@[simp] theorem State.core_offLoss (s : State) (p : Nat) : (State.offLoss s p).core = s.core := by
  unfold State.offLoss
  repeat' (first | with_reducible rfl | (simp [*]; done) | dsimp only | (refine foldl_keeps State.core _ (fun _ _ => ?_) _ _) | (refine (foldl_keeps State.core _ (fun _ _ => ?_) _ _).trans ?_) | split)

@[simp] theorem State.core_windowsAwake (s : State) : (State.windowsAwake s).core = s.core := by
  unfold State.windowsAwake; simp

@[simp] theorem State.core_wakeDeep (s : State) : (State.wakeDeep s).core = s.core := by
  unfold State.wakeDeep; simp

@[simp] theorem State.core_turnAway (s : State) (r : Req) (status : Nat) : (State.turnAway s r status).core = s.core := by
  unfold State.turnAway; simp

@[simp] theorem State.core_closeAdmission (s : State) : (State.closeAdmission s).core = s.core := by
  unfold State.closeAdmission; simp

@[simp] theorem State.core_stopBakes (s : State) : (State.stopBakes s).core = s.core := by
  unfold State.stopBakes; simp

@[simp] theorem State.core_twinClose (s : State) : (State.twinClose s).core = s.core := by
  unfold State.twinClose; simp

@[simp] theorem State.core_closeNode (s : State) : (State.closeNode s).core = s.core := by
  unfold State.closeNode; simp

@[simp] theorem State.core_slotErasing (s : State) (n : Nat) : (State.slotErasing s n).core = s.core := by
  unfold State.slotErasing; simp

@[simp] theorem State.core_eraseSlot (s : State) (n : Nat) : (State.eraseSlot s n).core = s.core := by
  unfold State.eraseSlot
  repeat' (first | with_reducible rfl | (simp [*]; done) | dsimp only | split)

@[simp] theorem State.core_clearSlot (s : State) (n : Nat) : (State.clearSlot s n).core = s.core := by
  unfold State.clearSlot; simp

@[simp] theorem State.core_eraseKeys (s : State) : (State.eraseKeys s).core = s.core := by
  unfold State.eraseKeys
  repeat' (first | with_reducible rfl | (simp [*]; done) | dsimp only | (refine foldl_keeps State.core _ (fun _ _ => ?_) _ _))

@[simp] theorem State.core_dropOpen (s : State) : (State.dropOpen s).core = s.core := by
  unfold State.dropOpen; simp

@[simp] theorem State.core_tenantOff (s : State) (t : Nat) : (State.tenantOff s t).core = s.core := by
  unfold State.tenantOff; simp

@[simp] theorem State.core_channelsCommit (s : State) : (State.channelsCommit s).core = s.core := by
  unfold State.channelsCommit; simp

@[simp] theorem State.core_discard (s : State) : (State.discard s).core = s.core := by
  unfold State.discard; simp

@[simp] theorem State.core_drainSlow (s : State) : (State.drainSlow s).core = s.core := by
  unfold State.drainSlow; simp

@[simp] theorem State.core_tmcLog (s : State) (code v : Nat) : (State.tmcLog s code v).core = s.core := by
  unfold State.tmcLog; simp

theorem State.core_atNode (s : State) (f : State → State) (hf : ∀ t, (f t).core = t.core) : (State.atNode s f).core = s.core := by
  unfold State.atNode; split
  · rfl
  · exact hf s

@[simp] theorem State.core_railsOpen (s : State) : (State.railsOpen s).core = s.core := by
  unfold State.railsOpen; simp

@[simp] theorem State.core_allOff (s : State) : (State.allOff s).core = s.core := by
  unfold State.allOff; simp

@[simp] theorem State.core_mirror (s : State) (v : Sensors) : (State.mirror s v).core = s.core := by
  unfold State.mirror; simp

@[simp] theorem State.core_hsTrip (s : State) (kind : Nat) : (State.hsTrip s kind).core = s.core := by
  unfold State.hsTrip
  dsimp only
  split
  · rw [State.core_atNode _ _ (fun t => by simp)]; rfl
  · rfl

@[simp] theorem State.core_shutBegin (s : State) (cause : Nat) : (State.shutBegin s cause).core = s.core := by
  unfold State.shutBegin
  dsimp only
  split
  · rw [State.core_atNode _ _ (fun t => by simp)]; rfl
  · rw [State.core_eraseKeys, State.core_closeNode, State.core_atNode _ _ (fun t => by simp)]; rfl

@[simp] theorem State.core_shutCommit (s : State) (cause : Nat) : (State.shutCommit s cause).core = s.core := by
  unfold State.shutCommit; simp

@[simp] theorem State.core_flushCrumbs (s : State) : (State.flushCrumbs s).core = s.core := by
  unfold State.flushCrumbs
  exact State.core_setTmc s _

@[simp] theorem State.core_powerUp (s : State) : (State.powerUp s).core = s.core := by
  unfold State.powerUp; simp

@[simp] theorem State.core_newKeys (s : State) : (State.newKeys s).core = s.core := by
  unfold State.newKeys; simp

@[simp] theorem State.core_profilePort (s : State) (b : List Byte) (p : Nat) : (State.profilePort s b p).core = s.core := by
  unfold State.profilePort; simp

@[simp] theorem State.core_ready (s : State) : (State.ready s).core = s.core := by
  unfold State.ready; simp

@[simp] theorem State.core_trialBoot (s : State) : (State.trialBoot s).core = s.core := by
  unfold State.trialBoot; simp

@[simp] theorem State.core_prepare467 (s : State) (cause : Nat) (core : Bool) : (State.prepare467 s cause core).core = s.core := by
  unfold State.prepare467; simp

@[simp] theorem State.core_ideFailure (s : State) (p : Nat) : (State.ideFailure s p).core = s.core := by
  unfold State.ideFailure; simp

@[simp] theorem State.core_mbxClaim (s : State) (src : Src) : (State.mbxClaim s src).core = s.core := by
  unfold State.mbxClaim
  repeat' (first | with_reducible rfl | (simp [*]; done) | dsimp only | split)

@[simp] theorem State.core_mbxRelease (s : State) (src : Src) : (State.mbxRelease s src).core = s.core := by
  unfold State.mbxRelease; simp

@[simp] theorem State.core_mbxOut (s : State) (b : List Byte) : (State.mbxOut s b).core = s.core := by
  unfold State.mbxOut; simp

@[simp] theorem State.core_mbxEnd (s : State) (result : Nat) (out : List Byte) : (State.mbxEnd s result out).core = s.core := by
  unfold State.mbxEnd; simp

@[simp] theorem State.core_mbxStart (s : State) (code len : Nat) : (State.mbxStart s code len).core = s.core := by
  unfold State.mbxStart
  repeat' (first | with_reducible rfl | (simp [*]; done) | dsimp only | split)

@[simp] theorem State.core_clearPage (s : State) (p : Nat) : (State.clearPage s p).core = s.core := by
  unfold State.clearPage; simp

@[simp] theorem State.core_loseBlock (s : State) (p : Nat) : (State.loseBlock s p).core = s.core := by
  unfold State.loseBlock; simp

@[simp] theorem State.core_free256 (s : State) : (State.free256 s).2.core = s.core := by
  unfold State.free256
  repeat' (first | with_reducible rfl | (simp [*]; done) | dsimp only | (refine foldl_keeps State.core _ (fun _ _ => ?_) _ _) | (refine (foldl_keeps State.core _ (fun _ _ => ?_) _ _).trans ?_) | split | (intro _) | rfl)

@[simp] theorem State.core_enroll (s : State) (fp : List Nat) : (State.enroll s fp).core = s.core := by
  unfold State.enroll; simp

@[simp] theorem State.core_keyEnd (s : State) (reason : Nat) (out : List Byte) : (State.keyEnd s reason out).core = s.core := by
  unfold State.keyEnd; simp

@[simp] theorem State.core_keyLoad (s : State) (len : Nat) : (State.keyLoad s len).core = s.core := by
  unfold State.keyLoad
  repeat' (first | with_reducible rfl | (simp [*]; done) | dsimp only | split)

@[simp] theorem State.core_keyRotate (s : State) (len : Nat) : (State.keyRotate s len).core = s.core := by
  unfold State.keyRotate
  repeat' (first | with_reducible rfl | (simp [*]; done) | dsimp only | split)

@[simp] theorem State.core_keyErase (s : State) : (State.keyErase s).core = s.core := by
  unfold State.keyErase
  repeat' (first | with_reducible rfl | (simp [*]; done) | dsimp only | split)

@[simp] theorem State.core_linkKeyLoad (s : State) (len : Nat) : (State.linkKeyLoad s len).core = s.core := by
  unfold State.linkKeyLoad
  repeat' (first | with_reducible rfl | (simp [*]; done) | dsimp only | split)

@[simp] theorem State.core_ownReset (s : State) (cause : Nat) (core : Bool) : (State.ownReset s cause core).core = s.core := by
  unfold State.ownReset; simp

@[simp] theorem State.core_restartCore (s : State) (core : Bool) : (State.restartCore s core).core = s.core := by
  unfold State.restartCore; simp

@[simp] theorem State.core_answerLockup (s : State) (core : Bool) (pc sp : Nat) : (State.answerLockup s core pc sp).core = s.core := by
  unfold State.answerLockup; simp

@[simp] theorem State.core_findLockup (s : State) (core : Bool) : (State.findLockup s core).core = s.core := by
  unfold State.findLockup
  repeat' (first | with_reducible rfl | (simp [*]; done) | dsimp only | split)

@[simp] theorem State.core_clearRc (s : State) (h : Hit) : (State.clearRc s h).core = s.core := by
  unfold State.clearRc; simp

@[simp] theorem State.core_readHit (s : State) (addr : Nat) (h : Hit) : (State.readHit s addr h).2.core = s.core := by
  unfold State.readHit
  repeat' (first | with_reducible rfl | (simp [*]; done) | dsimp only | split)

@[simp] theorem State.core_reach (s : State) (addr : Nat) : (State.reach s addr).core = s.core := by
  unfold State.reach; simp

@[simp] theorem State.core_readReg (s : State) (addr : Nat) : (State.readReg s addr).2.core = s.core := by
  unfold State.readReg
  refine (foldl_keeps (fun a : Nat × State => a.2.core) _ (fun a h => ?_) _ _).trans ?_
  · simp
  · simp

@[simp] theorem State.core_readInto (s : State) (addr : Nat) : (State.readInto s addr).core = s.core := by
  unfold State.readInto; simp

@[simp] theorem State.core_readSized (s : State) (addr : Nat) (size : AccSize) : (State.readSized s addr size).core = s.core := by
  unfold State.readSized; simp

@[simp] theorem State.core_intForce (s : State) (page v : Nat) : (State.intForce s page v).core = s.core := by
  unfold State.intForce; simp

@[simp] theorem State.core_intEn (s : State) (page v : Nat) : (State.intEn s page v).core = s.core := by
  unfold State.intEn; simp

@[simp] theorem State.core_intRoute (s : State) (toWarden toAgent agent : Nat) : (State.intRoute s toWarden toAgent agent).core = s.core := by
  unfold State.intRoute; simp

@[simp] theorem State.core_migrField (s : State) (f : Field) (v : Nat) : (State.migrField s f v).core = s.core := by
  unfold State.migrField; simp

@[simp] theorem State.core_store (s : State) (src : Src) (h : Hit) (v : Nat) : (State.store s src h v).core = s.core := by
  unfold State.store; simp

@[simp] theorem State.core_probeGo (s : State) : (State.probeGo s).core = s.core := by
  unfold State.probeGo; simp

@[simp] theorem State.core_migrCmd (s : State) (v : Nat) : (State.migrCmd s v).core = s.core := by
  unfold State.migrCmd
  repeat' (first | with_reducible rfl | simp [*] | dsimp only | split)

@[simp] theorem State.core_twinCmd (s : State) (v : Nat) : (State.twinCmd s v).core = s.core := by
  unfold State.twinCmd
  repeat' (first | with_reducible rfl | simp [*] | dsimp only | split)

@[simp] theorem State.core_mbxWrite (s : State) (src : Src) (val : Nat) : (State.mbxWrite s src val).core = s.core := by
  unfold State.mbxWrite; simp

@[simp] theorem State.core_mbxCmd (s : State) (src : Src) (val : Nat) : (State.mbxCmd s src val).core = s.core := by
  unfold State.mbxCmd; simp

@[simp] theorem State.core_mmioDeny (s : State) (p status : Nat) : (State.mmioDeny s p status).core = s.core := by
  unfold State.mmioDeny; simp

@[simp] theorem State.core_zm3Discard (s : State) (ty : Nat) : (State.zm3Discard s ty).core = s.core := by
  unfold State.zm3Discard; simp

@[simp] theorem State.core_zm3Alarm (s : State) (code chan n : Nat) : (State.zm3Alarm s code chan n).core = s.core := by
  unfold State.zm3Alarm; simp

@[simp] theorem State.core_intervalAlarms (s : State) (n : Nat) (e : List Nat) (causes before after : Nat) : (State.intervalAlarms s n e causes before after).core = s.core := by
  unfold State.intervalAlarms; simp

@[simp] theorem State.core_sweepTick (s : State) : (State.sweepTick s).core = s.core := by
  unfold State.sweepTick
  repeat' (first | with_reducible rfl | (simp [*]; done) | dsimp only | split)

@[simp] theorem State.core_drainTick (s : State) : (State.drainTick s).core = s.core := by
  unfold State.drainTick; simp

@[simp] theorem State.core_pinTick (s : State) : (State.pinTick s).core = s.core := by
  unfold State.pinTick; simp

@[simp] theorem State.core_nodeTick (s : State) : (State.nodeTick s).core = s.core := by
  unfold State.nodeTick; simp

@[simp] theorem State.core_tick (s : State) : (State.tick s).core = s.core := by
  unfold State.tick; simp

/-! ### The shared wrappers: what they run keeps the core if they are to -/

theorem State.core_onBlk {s t u : State} {p : Nat} {k : Host.Outcome State Fault Refusal} (hk : ∀ t, k = .next t → t.core = u.core)
    (h : s.core = u.core) (ht : s.onBlk p k = .next t) : t.core = u.core := by
  unfold State.onBlk at ht
  split at ht
  · cases ht; exact h
  · exact hk _ ht
theorem State.core_mbxRun {s : State} {c : Nat} {f : State → Nat → State} (h : ∀ n, (f s n).core = s.core) : (s.mbxRun c f).core = s.core := by
  unfold State.mbxRun; repeat' split
  all_goals first | exact h _ | rfl
theorem State.core_uop {s : State} {r c o sf act} (h : ∀ s c b w f, act s c b w = .go f → ∀ u, (f u).core = u.core) : (s.uop r c o sf act).core = s.core := by
  unfold State.uop
  repeat' (first | with_reducible rfl | (simp; done) | (rw [h _ _ _ _ _ ‹_›]; simp; done) | dsimp only | split)
theorem setXA_core {r c w v f} (h : setXA r c w v = .go f) : ∀ u, (f u).core = u.core := by
  unfold setXA at h; cases h; intro u; simp

end Sys2Proof.Machine
end

