-- ==== Sys2Proof/Laws/Memory.lean ====
section
/-! SUPPORT. The DRAM: every operation on it keeps its canonical form, a byte written reads back, and every other byte reads as
before. -/
namespace Sys2Proof.Machine

/-- Every listed address is above a bound. -/
def Memory.above (lo : Nat) (m : Memory) : Bool := m.all (fun c => decide (lo < c.1))

theorem Memory.wf_cons (a : Nat) (b : Byte) (m : Memory) :
    Memory.wf ((a, b) :: m) = true ↔ b ≠ Memory.default ∧ Memory.above a m = true ∧ Memory.wf m = true := by
  induction m generalizing a b with
  | nil => simp [Memory.wf, Memory.above]
  | cons c t ih =>
    obtain ⟨x, y⟩ := c
    simp only [Memory.wf, Memory.above, List.all_cons, Bool.and_eq_true, bne_iff_ne, decide_eq_true_eq]
    constructor
    · rintro ⟨⟨h1, h2⟩, h3⟩
      refine ⟨h1, ⟨h2, ?_⟩, h3⟩
      have := ((ih x y).1 h3).2.1
      simp only [Memory.above, List.all_eq_true, decide_eq_true_eq] at this ⊢
      exact fun c hc => Nat.lt_trans h2 (this c hc)
    · rintro ⟨h1, ⟨h2, -⟩, h3⟩
      exact ⟨⟨h1, h2⟩, h3⟩

theorem Memory.above_write (lo a : Nat) (b : Byte) (m : Memory) (h : Memory.above lo m = true) (ha : lo < a) :
    Memory.above lo (Memory.write m a b) = true := by
  induction m with
  | nil => unfold Memory.write; split <;> simp_all [Memory.above]
  | cons c t ih =>
    obtain ⟨x, y⟩ := c
    simp only [Memory.above, List.all_cons, Bool.and_eq_true, decide_eq_true_eq] at h ih ⊢
    have h2 := ih h.2
    unfold Memory.write
    repeat' split
    all_goals try simp only [List.all_cons, Bool.and_eq_true, decide_eq_true_eq]
    · exact h
    · exact ⟨ha, h⟩
    · exact h.2
    · exact ⟨ha, h.2⟩
    · exact ⟨h.1, h2⟩

theorem Memory.above_mono {a b : Nat} {m : Memory} (h : Memory.above b m = true) (hab : a ≤ b) : Memory.above a m = true := by
  simp only [Memory.above, List.all_eq_true, decide_eq_true_eq] at h ⊢
  exact fun c hc => Nat.lt_of_le_of_lt hab (h c hc)

theorem Memory.wf_write (m : Memory) (a : Nat) (b : Byte) (h : Memory.wf m = true) : Memory.wf (Memory.write m a b) = true := by
  induction m with
  | nil => unfold Memory.write; split <;> simp_all [Memory.wf]
  | cons c t ih =>
    obtain ⟨x, y⟩ := c
    have ⟨hy, ht, hw⟩ := (Memory.wf_cons x y t).1 h
    unfold Memory.write
    split
    · split
      · exact h
      · rw [Memory.wf_cons]
        refine ⟨‹_›, ?_, h⟩
        simp only [Memory.above, List.all_cons, Bool.and_eq_true, decide_eq_true_eq]
        exact ⟨‹_›, by simpa [Memory.above] using Memory.above_mono ht (Nat.le_of_lt ‹_›)⟩
    · split
      · split
        · exact hw
        · rw [Memory.wf_cons]
          exact ⟨‹_›, by rename_i e _; rw [e]; exact ht, hw⟩
      · rw [Memory.wf_cons]
        exact ⟨hy, Memory.above_write x a b t ht (by omega), ih hw⟩

theorem Memory.wf_writeN (l : List Byte) (m : Memory) (a : Nat) (h : Memory.wf m = true) : Memory.wf (Memory.writeN m a l) = true := by
  induction l generalizing m a with
  | nil => exact h
  | cons b t ih => exact ih _ _ (Memory.wf_write m a b h)

theorem Memory.wf_filter (p : Host.Cell → Bool) (m : Memory) (h : Memory.wf m = true) : Memory.wf (m.filter p) = true := by
  induction m with
  | nil => rfl
  | cons c t ih =>
    obtain ⟨x, y⟩ := c
    have ⟨hy, ht, hw⟩ := (Memory.wf_cons x y t).1 h
    rw [List.filter_cons]
    split
    · rw [Memory.wf_cons]
      refine ⟨hy, ?_, ih hw⟩
      simp only [Memory.above, List.all_eq_true, decide_eq_true_eq] at ht ⊢
      exact fun c hc => ht c (List.mem_filter.1 hc).1
    · exact ih hw

theorem Memory.wf_clear (m : Memory) (a n : Nat) (h : Memory.wf m = true) : Memory.wf (Memory.clear m a n) = true :=
  Memory.wf_filter _ m h

theorem Memory.wf_foldl_write {α : Type} (f : α → Nat) (g : α → Byte) (l : List α) (m : Memory) (h : Memory.wf m = true) :
    Memory.wf (l.foldl (fun a c => a.write (f c) (g c)) m) = true := by
  induction l generalizing m with
  | nil => exact h
  | cons c t ih => exact ih _ (Memory.wf_write m _ _ h)

theorem wf_rowPut (m : Memory) (q bank sa vr : Nat) (r : Memory) (h : Memory.wf m = true) : Memory.wf (rowPut m q bank sa vr r) = true := by
  unfold rowPut
  split
  · exact h
  · exact Memory.wf_foldl_write _ _ r _ (Memory.wf_clear m _ _ h)

theorem wf_vaaPut (m : Memory) (q bank o sa vr : Nat) (h : Memory.wf m = true) : Memory.wf (vaaPut m q bank o sa vr) = true := by
  unfold vaaPut
  dsimp only
  repeat' split
  · exact wf_rowPut m q bank sa _ _ h
  · exact wf_rowPut m q bank sa _ _ h
  · exact h

theorem wf_vtraPut (m : Memory) (q bank sa a b c : Nat) (h : Memory.wf m = true) : Memory.wf (vtraPut m q bank sa a b c) = true :=
  wf_rowPut _ _ _ _ _ _ (wf_rowPut _ _ _ _ _ _ (wf_rowPut _ _ _ _ _ _ h))

/-- An address below every listed one reads as the default. -/
theorem Memory.read_above (m : Memory) (a x : Nat) (h : Memory.above a m = true) (hx : x ≤ a) : Memory.read m x = Memory.default := by
  cases m with
  | nil => rfl
  | cons c t =>
    simp only [Memory.above, List.all_cons, Bool.and_eq_true, decide_eq_true_eq] at h
    unfold Memory.read
    rw [if_neg (by omega), if_pos (by omega)]

/-- A byte written reads back, and every other byte reads as before. -/
theorem Memory.read_write (m : Memory) (a x : Nat) (b : Byte) (h : Memory.wf m = true) :
    Memory.read (Memory.write m a b) x = if x = a then b else Memory.read m x := by
  induction m with
  | nil =>
    unfold Memory.write
    split <;> simp_all [Memory.read]
  | cons c t ih =>
    obtain ⟨y, z⟩ := c
    have ⟨hz, ht, hw⟩ := (Memory.wf_cons y z t).1 h
    unfold Memory.write
    split
    · split
      · subst ‹b = Memory.default›
        split
        · subst ‹x = a›
          unfold Memory.read
          rw [if_neg (by omega), if_pos (by omega)]
        · rfl
      · split
        · simp [Memory.read, *]
        · rename_i hlt _ hne
          rw [show Memory.read ((a, b) :: (y, z) :: t) x = if x = a then b else if x < a then Memory.default else Memory.read ((y, z) :: t) x from rfl,
            if_neg hne]
          split
          · unfold Memory.read
            rw [if_neg (by omega), if_pos (by omega)]
          · rfl
    · split
      · subst ‹a = y›
        split
        · subst ‹b = Memory.default›
          split
          · subst ‹x = a›
            exact Memory.read_above t x x ht (Nat.le_refl _)
          · rename_i hne
            conv => rhs; unfold Memory.read
            rw [if_neg hne]
            split
            · exact Memory.read_above t a x ht (by omega)
            · rfl
        · unfold Memory.read
          split <;> rfl
      · rename_i hn hy
        conv => lhs; unfold Memory.read
        conv => rhs; rhs; unfold Memory.read
        by_cases hx : x = y
        · subst hx
          rw [if_pos rfl, if_neg (by omega), if_pos rfl]
        · rw [if_neg hx, if_neg hx]
          by_cases hl : x < y
          · rw [if_pos hl, if_neg (by omega), if_pos hl]
          · rw [if_neg hl, if_neg hl, ih hw]

/-- Bytes outside a stored range read as before. -/
theorem Memory.read_writeN (l : List Byte) (m : Memory) (a x : Nat) (h : Memory.wf m = true) (hx : x < a ∨ a + l.length ≤ x) :
    Memory.read (Memory.writeN m a l) x = Memory.read m x := by
  induction l generalizing m a with
  | nil => rfl
  | cons b t ih =>
    simp only [List.length_cons] at hx
    rw [Memory.writeN, ih _ _ (Memory.wf_write m a b h) (by omega), Memory.read_write m a x b h, if_neg (by omega)]

end Sys2Proof.Machine
end

