-- ==== Sys2Proof/Laws/Regs.lean ====
section
/-! SUPPORT. Reading registers back: what a table holds after a write, and what each shared operation does to a register field. -/
namespace Sys2Proof.Machine

open Reg

theorem Tab.get?_set_same {α : Type} (t : Tab α) (x : Nat) (v : α) : Tab.get? (Tab.set t x v) x = some v := by
  induction t with
  | nil => simp [Tab.set, Tab.get?]
  | cons p t ih =>
    obtain ⟨k, w⟩ := p
    simp only [Tab.set]
    split
    · simp [Tab.get?]
    · split
      · simp [Tab.get?]
      · rename_i h1 h2
        simp [Tab.get?, h1, h2, ih]

theorem Tab.get?_set_ne {α : Type} (t : Tab α) {x y : Nat} (v : α) (h : y ≠ x) : Tab.get? (Tab.set t x v) y = Tab.get? t y := by
  induction t with
  | nil => simp [Tab.set, Tab.get?, h]
  | cons p t ih =>
    obtain ⟨k, w⟩ := p
    simp only [Tab.set]
    split
    · rename_i h1
      by_cases h2 : y < x
      · have h3 : y ≠ k := by omega
        have h4 : y < k := by omega
        simp [Tab.get?, h, h2, h3, h4]
      · simp [Tab.get?, h, h2]
    · split
      · rename_i h1 h2
        subst h2
        by_cases h3 : y < x
        · simp [Tab.get?, h, h3]
        · simp [Tab.get?, h, h3]
      · simp [Tab.get?, ih]

theorem Tab.get_set_same {α : Type} (t : Tab α) (x : Nat) (v d : α) : Tab.get (Tab.set t x v) x d = v := by
  simp [Tab.get, Tab.get?_set_same]

theorem Tab.get_set_ne {α : Type} (t : Tab α) {x y : Nat} (v d : α) (h : y ≠ x) : Tab.get (Tab.set t x v) y d = Tab.get t y d := by
  simp [Tab.get, Tab.get?_set_ne t v h]

/-- A field reads the value written, cut to its width. -/
theorem State.rd_wr_same (s : State) (f : Field) (v i x : Nat) : (s.wr f v i x).rd f i x = v % 2 ^ f.width := by
  unfold State.wr State.rd
  by_cases h : f.staged <;> simp [h, Tab.get_set_same]

/-- Another field keeps its value. -/
theorem State.rd_wr_ne (s : State) {f g : Field} (v : Nat) {i x j y : Nat} (h : keyOf g j y ≠ keyOf f i x) :
    (s.wr f v i x).rd g j y = s.rd g j y := by
  unfold State.wr State.rd
  by_cases hf : f.staged <;> by_cases hg : g.staged <;> simp [hf, hg, Tab.get_set_ne _ _ _ h]

theorem State.rd_of_regs {s t : State} (f : Field) (i x : Nat) (h1 : t.regs = s.regs) (h2 : t.cfgOpen = s.cfgOpen) :
    t.rd f i x = s.rd f i x := by
  unfold State.rd; rw [h1, h2]

/-- The two register tables. -/
def State.tables (s : State) : Tab Nat × Tab Nat := (s.regs, s.cfgOpen)

theorem State.rd_of_tables {s t : State} (h : t.tables = s.tables) (f : Field) (i x : Nat) : t.rd f i x = s.rd f i x :=
  State.rd_of_regs f i x (congrArg Prod.fst h) (congrArg Prod.snd h)

theorem State.tables_emitFlit (s : State) (p ty : Nat) (l : List Slot) (c : Bool) : (s.emitFlit p ty l c).tables = s.tables := by
  unfold State.emitFlit; dsimp only
  split <;> rfl

theorem State.tables_dueKeySwitch (s : State) (p : Nat) : (s.dueKeySwitch p).tables = s.tables := by
  unfold State.dueKeySwitch State.sendKeySwitch; dsimp only
  split
  · exact State.tables_emitFlit ..
  · rfl

theorem State.tables_pump (s : State) (p : Nat) : (s.pump p).tables = s.tables := by
  unfold State.pump
  rw [← State.tables_dueKeySwitch s p]
  refine foldl_keeps State.tables _ (fun a b => ?_) _ _
  dsimp only
  split
  · rw [State.tables_emitFlit]; rfl
  · rfl

/-- A message that is no response changes no register, whether or not it can be sent. -/
theorem State.tables_send (s : State) (p : Nat) (m : Msg) (t j : Nat) (h : m.cls.toNat ≠ clsRsp) :
    (s.send p m t j).tables = s.tables := by
  unfold State.send; dsimp only
  split
  · rw [State.tables_pump]; rfl
  · simp

theorem State.tables_sendAgent (s : State) (a : Nat) (m : Msg) (t j : Nat) (h : m.cls.toNat ≠ clsRsp) :
    (s.sendAgent a m t j).tables = s.tables := by
  unfold State.sendAgent
  split
  · rfl
  · split
    · exact State.tables_send _ _ _ _ _ h
    · simp

theorem State.tables_deliver (s : State) : s.deliver.tables = s.tables := by
  unfold State.deliver State.intrAgent; dsimp only
  have h : ∀ a b, (mkIntr a b).cls.toNat ≠ clsRsp := fun a b => by simp [mkIntr, mkMsg, clsSys, clsRsp]
  repeat' split
  all_goals first | rfl | (rw [State.tables_sendAgent _ _ _ _ _ (h _ _)]; rfl) | rw [State.tables_sendAgent _ _ _ _ _ (h _ _)]

theorem State.tables_edge (a b : State) : (State.edge a b).tables = b.tables := by
  unfold State.edge; split
  · exact State.tables_deliver _
  · rfl

/-- Raising a cause sets its bit of INT_STAT. -/
theorem State.rd_raise_same (s : State) (p c : Nat) :
    (s.raise p c).rd H_INT_STAT p = (s.rd H_INT_STAT p ||| 2 ^ c) % 2 ^ 32 := by
  rw [State.raise, State.rd_of_tables (State.tables_edge _ _), State.rd_wr_same]; rfl

/-- Raising a cause changes no other field. -/
theorem State.rd_raise_ne (s : State) (p c : Nat) {f : Field} {i x : Nat} (h : keyOf f i x ≠ keyOf H_INT_STAT p 0) :
    (s.raise p c).rd f i x = s.rd f i x := by
  rw [State.raise, State.rd_of_tables (State.tables_edge _ _), State.rd_wr_ne _ _ h]

/-- A counter holds one more, up to the largest value of its field. -/
theorem State.rd_bump_same (s : State) (f : Field) (i x : Nat) :
    (s.bump f i x).rd f i x = min (2 ^ f.width - 1) (s.rd f i x + 1) := by
  rw [State.bump, State.bumpBy, State.rd_wr_same]
  apply Nat.mod_eq_of_lt
  have : 0 < 2 ^ f.width := Nat.pos_of_ne_zero (by simp)
  omega

theorem State.rd_bump_ne (s : State) {f g : Field} {i x j y : Nat} (h : keyOf g j y ≠ keyOf f i x) :
    (s.bump f i x).rd g j y = s.rd g j y := State.rd_wr_ne _ _ h

/-- The page of a field's key. -/
theorem page_of_key {f : Field} {i x : Nat} (h : f.off + x * f.stride < 0x1000) (hl : f.lo < 64) :
    keyOf f i x / 0x40000 = f.page + i := by
  unfold keyOf; omega

/-- A sample changes fields of its own page only. -/
theorem State.rd_sample_ne (s : State) (p g : Nat) (v : Int) (hg : g < 16) {f : Field} {i x : Nat} (h : keyOf f i x / 0x40000 ≠ p) :
    (s.sample p g v).rd f i x = s.rd f i x := by
  have k : ∀ F : Field, F.page = 0 → F.off + g * F.stride < 0x1000 → F.lo < 64 → keyOf f i x ≠ keyOf F p g := fun F h0 h1 h2 e => by
    apply h; rw [e, page_of_key h1 h2, h0, Nat.zero_add]
  have k1 := k WMK_EXTREME rfl (by simp [WMK_EXTREME]; omega) (by decide)
  have k2 := k WMK_CROSSED rfl (by simp [WMK_CROSSED]; omega) (by decide)
  have k3 := k WMK_COUNT_ rfl (by simp [WMK_COUNT_]; omega) (by decide)
  have k4 : keyOf f i x ≠ keyOf H_INT_STAT p 0 := fun e => by
    apply h; rw [e, page_of_key (by decide) (by decide)]; simp [H_INT_STAT]
  have e0 : ∀ w : Tab Wmk, ({ s with wmk := w } : State).rd f i x = s.rd f i x := fun w => rfl
  unfold State.sample; dsimp only
  repeat' split
  all_goals simp only [State.rd_raise_ne _ _ _ k4, State.rd_bump_ne _ k3, State.rd_wr_ne _ _ k2, State.rd_wr_ne _ _ k1, e0]

/-- A Crumb changes fields of EVLOG's page only. -/
theorem State.rd_crumbStore_ne (s : State) (p c v : Nat) (l : List Nat) {f : Field} {i x : Nat} (h : keyOf f i x / 0x40000 ≠ pgEVLOG) :
    (s.crumbStore p c v l).rd f i x = s.rd f i x := by
  have k4 : keyOf f i x ≠ keyOf H_INT_STAT pgEVLOG 0 := fun e => by
    apply h; rw [e, page_of_key (by decide) (by decide)]; rfl
  unfold State.crumbStore; dsimp only
  split
  · rw [State.rd_raise_ne _ _ _ k4, State.rd_sample_ne _ _ _ _ (by decide) h]; rfl
  · rw [State.rd_sample_ne _ _ _ _ (by decide) h]; rfl

theorem State.rd_crumb_ne (s : State) (p c v : Nat) (l : List Nat) {f : Field} {i x : Nat} (h : keyOf f i x / 0x40000 ≠ pgEVLOG) :
    (s.crumb p c v l).rd f i x = s.rd f i x := by
  have k4 : keyOf f i x ≠ keyOf H_INT_STAT pgEVLOG 0 := fun e => by
    apply h; rw [e, page_of_key (by decide) (by decide)]; rfl
  have k5 : keyOf f i x ≠ keyOf EVLOG_LOST 0 0 := fun e => by
    apply h; rw [e, page_of_key (by decide) (by decide)]; rfl
  unfold State.crumb; dsimp only
  split
  · rw [State.rd_raise_ne _ _ _ k4, State.rd_bump_ne _ k5]; rfl
  · exact State.rd_crumbStore_ne _ _ _ _ _ h

end Sys2Proof.Machine
end

