-- ==== Sys2Proof/Laws/State.lean ====
section
/-! SUPPORT. One lemma for each field and each update of the state that leaves it as it is, and what an update leaves in the field
that it changes. -/
namespace Sys2Proof.Machine

open Reg

variable (s : State)

/-! `State.setPort` -/

@[simp] theorem State.setPort_opts (p : Nat) (v : Port) : (s.setPort p v).opts = s.opts := rfl
@[simp] theorem State.setPort_fuses (p : Nat) (v : Port) : (s.setPort p v).fuses = s.fuses := rfl
@[simp] theorem State.setPort_pending (p : Nat) (v : Port) : (s.setPort p v).pending = s.pending := rfl
@[simp] theorem State.setPort_freeCtr (p : Nat) (v : Port) : (s.setPort p v).freeCtr = s.freeCtr := rfl
@[simp] theorem State.setPort_ao (p : Nat) (v : Port) : (s.setPort p v).ao = s.ao := rfl
@[simp] theorem State.setPort_rdata (p : Nat) (v : Port) : (s.setPort p v).rdata = s.rdata := rfl
@[simp] theorem State.setPort_outs (p : Nat) (v : Port) : (s.setPort p v).outs = s.outs := rfl
@[simp] theorem State.setPort_regs (p : Nat) (v : Port) : (s.setPort p v).regs = s.regs := rfl
@[simp] theorem State.setPort_cfgOpen (p : Nat) (v : Port) : (s.setPort p v).cfgOpen = s.cfgOpen := rfl
@[simp] theorem State.setPort_cfgDrain (p : Nat) (v : Port) : (s.setPort p v).cfgDrain = s.cfgDrain := rfl
@[simp] theorem State.setPort_cfgStaged (p : Nat) (v : Port) : (s.setPort p v).cfgStaged = s.cfgStaged := rfl
@[simp] theorem State.setPort_latches (p : Nat) (v : Port) : (s.setPort p v).latches = s.latches := rfl
@[simp] theorem State.setPort_halves (p : Nat) (v : Port) : (s.setPort p v).halves = s.halves := rfl
@[simp] theorem State.setPort_holdBuf (p : Nat) (v : Port) : (s.setPort p v).holdBuf = s.holdBuf := rfl
@[simp] theorem State.setPort_wmk (p : Nat) (v : Port) : (s.setPort p v).wmk = s.wmk := rfl
@[simp] theorem State.setPort_wins (p : Nat) (v : Port) : (s.setPort p v).wins = s.wins := rfl
@[simp] theorem State.setPort_waking (p : Nat) (v : Port) : (s.setPort p v).waking = s.waking := rfl
@[simp] theorem State.setPort_lastUse (p : Nat) (v : Port) : (s.setPort p v).lastUse = s.lastUse := rfl
@[simp] theorem State.setPort_openEpoch (p : Nat) (v : Port) : (s.setPort p v).openEpoch = s.openEpoch := rfl
@[simp] theorem State.setPort_drainEpoch (p : Nat) (v : Port) : (s.setPort p v).drainEpoch = s.drainEpoch := rfl
@[simp] theorem State.setPort_commitPending (p : Nat) (v : Port) : (s.setPort p v).commitPending = s.commitPending := rfl
@[simp] theorem State.setPort_slowRaised (p : Nat) (v : Port) : (s.setPort p v).slowRaised = s.slowRaised := rfl
@[simp] theorem State.setPort_rootChanged (p : Nat) (v : Port) : (s.setPort p v).rootChanged = s.rootChanged := rfl
@[simp] theorem State.setPort_dram (p : Nat) (v : Port) : (s.setPort p v).dram = s.dram := rfl
@[simp] theorem State.setPort_reqs (p : Nat) (v : Port) : (s.setPort p v).reqs = s.reqs := rfl
@[simp] theorem State.setPort_nextId (p : Nat) (v : Port) : (s.setPort p v).nextId = s.nextId := rfl
@[simp] theorem State.setPort_nextOrder (p : Nat) (v : Port) : (s.setPort p v).nextOrder = s.nextOrder := rfl
@[simp] theorem State.setPort_shape (p : Nat) (v : Port) : (s.setPort p v).shape = s.shape := rfl
@[simp] theorem State.setPort_agents (p : Nat) (v : Port) : (s.setPort p v).agents = s.agents := rfl
@[simp] theorem State.setPort_dir (p : Nat) (v : Port) : (s.setPort p v).dir = s.dir := rfl
@[simp] theorem State.setPort_frames (p : Nat) (v : Port) : (s.setPort p v).frames = s.frames := rfl
@[simp] theorem State.setPort_trks (p : Nat) (v : Port) : (s.setPort p v).trks = s.trks := rfl
@[simp] theorem State.setPort_openTx (p : Nat) (v : Port) : (s.setPort p v).openTx = s.openTx := rfl
@[simp] theorem State.setPort_owed (p : Nat) (v : Port) : (s.setPort p v).owed = s.owed := rfl
@[simp] theorem State.setPort_fences (p : Nat) (v : Port) : (s.setPort p v).fences = s.fences := rfl
@[simp] theorem State.setPort_broken (p : Nat) (v : Port) : (s.setPort p v).broken = s.broken := rfl
@[simp] theorem State.setPort_scan (p : Nat) (v : Port) : (s.setPort p v).scan = s.scan := rfl
@[simp] theorem State.setPort_tc (p : Nat) (v : Port) : (s.setPort p v).tc = s.tc := rfl
@[simp] theorem State.setPort_wc (p : Nat) (v : Port) : (s.setPort p v).wc = s.wc := rfl
@[simp] theorem State.setPort_xsyncs (p : Nat) (v : Port) : (s.setPort p v).xsyncs = s.xsyncs := rfl
@[simp] theorem State.setPort_hpqHead (p : Nat) (v : Port) : (s.setPort p v).hpqHead = s.hpqHead := rfl
@[simp] theorem State.setPort_hpqTail (p : Nat) (v : Port) : (s.setPort p v).hpqTail = s.hpqTail := rfl
@[simp] theorem State.setPort_windowCount (p : Nat) (v : Port) : (s.setPort p v).windowCount = s.windowCount := rfl
@[simp] theorem State.setPort_moves (p : Nat) (v : Port) : (s.setPort p v).moves = s.moves := rfl
@[simp] theorem State.setPort_slots (p : Nat) (v : Port) : (s.setPort p v).slots = s.slots := rfl
@[simp] theorem State.setPort_rot (p : Nat) (v : Port) : (s.setPort p v).rot = s.rot := rfl
@[simp] theorem State.setPort_lastGen (p : Nat) (v : Port) : (s.setPort p v).lastGen = s.lastGen := rfl
@[simp] theorem State.setPort_tpk (p : Nat) (v : Port) : (s.setPort p v).tpk = s.tpk := rfl
@[simp] theorem State.setPort_queues (p : Nat) (v : Port) : (s.setPort p v).queues = s.queues := rfl
@[simp] theorem State.setPort_mchs (p : Nat) (v : Port) : (s.setPort p v).mchs = s.mchs := rfl
@[simp] theorem State.setPort_ras (p : Nat) (v : Port) : (s.setPort p v).ras = s.ras := rfl
@[simp] theorem State.setPort_rdl (p : Nat) (v : Port) : (s.setPort p v).rdl = s.rdl := rfl
@[simp] theorem State.setPort_planArea (p : Nat) (v : Port) : (s.setPort p v).planArea = s.planArea := rfl
@[simp] theorem State.setPort_ctxs (p : Nat) (v : Port) : (s.setPort p v).ctxs = s.ctxs := rfl
@[simp] theorem State.setPort_served (p : Nat) (v : Port) : (s.setPort p v).served = s.served := rfl
@[simp] theorem State.setPort_bakes (p : Nat) (v : Port) : (s.setPort p v).bakes = s.bakes := rfl
@[simp] theorem State.setPort_plans (p : Nat) (v : Port) : (s.setPort p v).plans = s.plans := rfl
@[simp] theorem State.setPort_loads (p : Nat) (v : Port) : (s.setPort p v).loads = s.loads := rfl
@[simp] theorem State.setPort_lanes (p : Nat) (v : Port) : (s.setPort p v).lanes = s.lanes := rfl
@[simp] theorem State.setPort_evlog (p : Nat) (v : Port) : (s.setPort p v).evlog = s.evlog := rfl
@[simp] theorem State.setPort_twin (p : Nat) (v : Port) : (s.setPort p v).twin = s.twin := rfl
@[simp] theorem State.setPort_jobs (p : Nat) (v : Port) : (s.setPort p v).jobs = s.jobs := rfl
@[simp] theorem State.setPort_tally (p : Nat) (v : Port) : (s.setPort p v).tally = s.tally := rfl
@[simp] theorem State.setPort_meter (p : Nat) (v : Port) : (s.setPort p v).meter = s.meter := rfl
@[simp] theorem State.setPort_zm3 (p : Nat) (v : Port) : (s.setPort p v).zm3 = s.zm3 := rfl
@[simp] theorem State.setPort_pwr (p : Nat) (v : Port) : (s.setPort p v).pwr = s.pwr := rfl
@[simp] theorem State.setPort_tmc (p : Nat) (v : Port) : (s.setPort p v).tmc = s.tmc := rfl
@[simp] theorem State.setPort_warden (p : Nat) (v : Port) : (s.setPort p v).warden = s.warden := rfl

/-! `State.out` -/

@[simp] theorem State.out_opts (o : Out) : (s.out o).opts = s.opts := rfl
@[simp] theorem State.out_fuses (o : Out) : (s.out o).fuses = s.fuses := rfl
@[simp] theorem State.out_pending (o : Out) : (s.out o).pending = s.pending := rfl
@[simp] theorem State.out_freeCtr (o : Out) : (s.out o).freeCtr = s.freeCtr := rfl
@[simp] theorem State.out_ao (o : Out) : (s.out o).ao = s.ao := rfl
@[simp] theorem State.out_rdata (o : Out) : (s.out o).rdata = s.rdata := rfl
@[simp] theorem State.out_regs (o : Out) : (s.out o).regs = s.regs := rfl
@[simp] theorem State.out_cfgOpen (o : Out) : (s.out o).cfgOpen = s.cfgOpen := rfl
@[simp] theorem State.out_cfgDrain (o : Out) : (s.out o).cfgDrain = s.cfgDrain := rfl
@[simp] theorem State.out_cfgStaged (o : Out) : (s.out o).cfgStaged = s.cfgStaged := rfl
@[simp] theorem State.out_latches (o : Out) : (s.out o).latches = s.latches := rfl
@[simp] theorem State.out_halves (o : Out) : (s.out o).halves = s.halves := rfl
@[simp] theorem State.out_holdBuf (o : Out) : (s.out o).holdBuf = s.holdBuf := rfl
@[simp] theorem State.out_wmk (o : Out) : (s.out o).wmk = s.wmk := rfl
@[simp] theorem State.out_wins (o : Out) : (s.out o).wins = s.wins := rfl
@[simp] theorem State.out_waking (o : Out) : (s.out o).waking = s.waking := rfl
@[simp] theorem State.out_lastUse (o : Out) : (s.out o).lastUse = s.lastUse := rfl
@[simp] theorem State.out_openEpoch (o : Out) : (s.out o).openEpoch = s.openEpoch := rfl
@[simp] theorem State.out_drainEpoch (o : Out) : (s.out o).drainEpoch = s.drainEpoch := rfl
@[simp] theorem State.out_commitPending (o : Out) : (s.out o).commitPending = s.commitPending := rfl
@[simp] theorem State.out_slowRaised (o : Out) : (s.out o).slowRaised = s.slowRaised := rfl
@[simp] theorem State.out_rootChanged (o : Out) : (s.out o).rootChanged = s.rootChanged := rfl
@[simp] theorem State.out_dram (o : Out) : (s.out o).dram = s.dram := rfl
@[simp] theorem State.out_ports (o : Out) : (s.out o).ports = s.ports := rfl
@[simp] theorem State.out_reqs (o : Out) : (s.out o).reqs = s.reqs := rfl
@[simp] theorem State.out_nextId (o : Out) : (s.out o).nextId = s.nextId := rfl
@[simp] theorem State.out_nextOrder (o : Out) : (s.out o).nextOrder = s.nextOrder := rfl
@[simp] theorem State.out_shape (o : Out) : (s.out o).shape = s.shape := rfl
@[simp] theorem State.out_agents (o : Out) : (s.out o).agents = s.agents := rfl
@[simp] theorem State.out_dir (o : Out) : (s.out o).dir = s.dir := rfl
@[simp] theorem State.out_frames (o : Out) : (s.out o).frames = s.frames := rfl
@[simp] theorem State.out_trks (o : Out) : (s.out o).trks = s.trks := rfl
@[simp] theorem State.out_openTx (o : Out) : (s.out o).openTx = s.openTx := rfl
@[simp] theorem State.out_owed (o : Out) : (s.out o).owed = s.owed := rfl
@[simp] theorem State.out_fences (o : Out) : (s.out o).fences = s.fences := rfl
@[simp] theorem State.out_broken (o : Out) : (s.out o).broken = s.broken := rfl
@[simp] theorem State.out_scan (o : Out) : (s.out o).scan = s.scan := rfl
@[simp] theorem State.out_tc (o : Out) : (s.out o).tc = s.tc := rfl
@[simp] theorem State.out_wc (o : Out) : (s.out o).wc = s.wc := rfl
@[simp] theorem State.out_xsyncs (o : Out) : (s.out o).xsyncs = s.xsyncs := rfl
@[simp] theorem State.out_hpqHead (o : Out) : (s.out o).hpqHead = s.hpqHead := rfl
@[simp] theorem State.out_hpqTail (o : Out) : (s.out o).hpqTail = s.hpqTail := rfl
@[simp] theorem State.out_windowCount (o : Out) : (s.out o).windowCount = s.windowCount := rfl
@[simp] theorem State.out_moves (o : Out) : (s.out o).moves = s.moves := rfl
@[simp] theorem State.out_slots (o : Out) : (s.out o).slots = s.slots := rfl
@[simp] theorem State.out_rot (o : Out) : (s.out o).rot = s.rot := rfl
@[simp] theorem State.out_lastGen (o : Out) : (s.out o).lastGen = s.lastGen := rfl
@[simp] theorem State.out_tpk (o : Out) : (s.out o).tpk = s.tpk := rfl
@[simp] theorem State.out_queues (o : Out) : (s.out o).queues = s.queues := rfl
@[simp] theorem State.out_mchs (o : Out) : (s.out o).mchs = s.mchs := rfl
@[simp] theorem State.out_ras (o : Out) : (s.out o).ras = s.ras := rfl
@[simp] theorem State.out_rdl (o : Out) : (s.out o).rdl = s.rdl := rfl
@[simp] theorem State.out_planArea (o : Out) : (s.out o).planArea = s.planArea := rfl
@[simp] theorem State.out_ctxs (o : Out) : (s.out o).ctxs = s.ctxs := rfl
@[simp] theorem State.out_served (o : Out) : (s.out o).served = s.served := rfl
@[simp] theorem State.out_bakes (o : Out) : (s.out o).bakes = s.bakes := rfl
@[simp] theorem State.out_plans (o : Out) : (s.out o).plans = s.plans := rfl
@[simp] theorem State.out_loads (o : Out) : (s.out o).loads = s.loads := rfl
@[simp] theorem State.out_lanes (o : Out) : (s.out o).lanes = s.lanes := rfl
@[simp] theorem State.out_evlog (o : Out) : (s.out o).evlog = s.evlog := rfl
@[simp] theorem State.out_twin (o : Out) : (s.out o).twin = s.twin := rfl
@[simp] theorem State.out_jobs (o : Out) : (s.out o).jobs = s.jobs := rfl
@[simp] theorem State.out_tally (o : Out) : (s.out o).tally = s.tally := rfl
@[simp] theorem State.out_meter (o : Out) : (s.out o).meter = s.meter := rfl
@[simp] theorem State.out_zm3 (o : Out) : (s.out o).zm3 = s.zm3 := rfl
@[simp] theorem State.out_pwr (o : Out) : (s.out o).pwr = s.pwr := rfl
@[simp] theorem State.out_tmc (o : Out) : (s.out o).tmc = s.tmc := rfl
@[simp] theorem State.out_warden (o : Out) : (s.out o).warden = s.warden := rfl

/-! `State.stage` -/

@[simp] theorem State.stage_opts (f : Field) (v i x : Nat) : (s.stage f v i x).opts = s.opts := rfl
@[simp] theorem State.stage_fuses (f : Field) (v i x : Nat) : (s.stage f v i x).fuses = s.fuses := rfl
@[simp] theorem State.stage_pending (f : Field) (v i x : Nat) : (s.stage f v i x).pending = s.pending := rfl
@[simp] theorem State.stage_freeCtr (f : Field) (v i x : Nat) : (s.stage f v i x).freeCtr = s.freeCtr := rfl
@[simp] theorem State.stage_ao (f : Field) (v i x : Nat) : (s.stage f v i x).ao = s.ao := rfl
@[simp] theorem State.stage_rdata (f : Field) (v i x : Nat) : (s.stage f v i x).rdata = s.rdata := rfl
@[simp] theorem State.stage_outs (f : Field) (v i x : Nat) : (s.stage f v i x).outs = s.outs := rfl
@[simp] theorem State.stage_regs (f : Field) (v i x : Nat) : (s.stage f v i x).regs = s.regs := rfl
@[simp] theorem State.stage_cfgOpen (f : Field) (v i x : Nat) : (s.stage f v i x).cfgOpen = s.cfgOpen := rfl
@[simp] theorem State.stage_cfgDrain (f : Field) (v i x : Nat) : (s.stage f v i x).cfgDrain = s.cfgDrain := rfl
@[simp] theorem State.stage_latches (f : Field) (v i x : Nat) : (s.stage f v i x).latches = s.latches := rfl
@[simp] theorem State.stage_halves (f : Field) (v i x : Nat) : (s.stage f v i x).halves = s.halves := rfl
@[simp] theorem State.stage_holdBuf (f : Field) (v i x : Nat) : (s.stage f v i x).holdBuf = s.holdBuf := rfl
@[simp] theorem State.stage_wmk (f : Field) (v i x : Nat) : (s.stage f v i x).wmk = s.wmk := rfl
@[simp] theorem State.stage_wins (f : Field) (v i x : Nat) : (s.stage f v i x).wins = s.wins := rfl
@[simp] theorem State.stage_waking (f : Field) (v i x : Nat) : (s.stage f v i x).waking = s.waking := rfl
@[simp] theorem State.stage_lastUse (f : Field) (v i x : Nat) : (s.stage f v i x).lastUse = s.lastUse := rfl
@[simp] theorem State.stage_openEpoch (f : Field) (v i x : Nat) : (s.stage f v i x).openEpoch = s.openEpoch := rfl
@[simp] theorem State.stage_drainEpoch (f : Field) (v i x : Nat) : (s.stage f v i x).drainEpoch = s.drainEpoch := rfl
@[simp] theorem State.stage_commitPending (f : Field) (v i x : Nat) : (s.stage f v i x).commitPending = s.commitPending := rfl
@[simp] theorem State.stage_slowRaised (f : Field) (v i x : Nat) : (s.stage f v i x).slowRaised = s.slowRaised := rfl
@[simp] theorem State.stage_rootChanged (f : Field) (v i x : Nat) : (s.stage f v i x).rootChanged = s.rootChanged := rfl
@[simp] theorem State.stage_dram (f : Field) (v i x : Nat) : (s.stage f v i x).dram = s.dram := rfl
@[simp] theorem State.stage_ports (f : Field) (v i x : Nat) : (s.stage f v i x).ports = s.ports := rfl
@[simp] theorem State.stage_reqs (f : Field) (v i x : Nat) : (s.stage f v i x).reqs = s.reqs := rfl
@[simp] theorem State.stage_nextId (f : Field) (v i x : Nat) : (s.stage f v i x).nextId = s.nextId := rfl
@[simp] theorem State.stage_nextOrder (f : Field) (v i x : Nat) : (s.stage f v i x).nextOrder = s.nextOrder := rfl
@[simp] theorem State.stage_shape (f : Field) (v i x : Nat) : (s.stage f v i x).shape = s.shape := rfl
@[simp] theorem State.stage_agents (f : Field) (v i x : Nat) : (s.stage f v i x).agents = s.agents := rfl
@[simp] theorem State.stage_dir (f : Field) (v i x : Nat) : (s.stage f v i x).dir = s.dir := rfl
@[simp] theorem State.stage_frames (f : Field) (v i x : Nat) : (s.stage f v i x).frames = s.frames := rfl
@[simp] theorem State.stage_trks (f : Field) (v i x : Nat) : (s.stage f v i x).trks = s.trks := rfl
@[simp] theorem State.stage_openTx (f : Field) (v i x : Nat) : (s.stage f v i x).openTx = s.openTx := rfl
@[simp] theorem State.stage_owed (f : Field) (v i x : Nat) : (s.stage f v i x).owed = s.owed := rfl
@[simp] theorem State.stage_fences (f : Field) (v i x : Nat) : (s.stage f v i x).fences = s.fences := rfl
@[simp] theorem State.stage_broken (f : Field) (v i x : Nat) : (s.stage f v i x).broken = s.broken := rfl
@[simp] theorem State.stage_scan (f : Field) (v i x : Nat) : (s.stage f v i x).scan = s.scan := rfl
@[simp] theorem State.stage_tc (f : Field) (v i x : Nat) : (s.stage f v i x).tc = s.tc := rfl
@[simp] theorem State.stage_wc (f : Field) (v i x : Nat) : (s.stage f v i x).wc = s.wc := rfl
@[simp] theorem State.stage_xsyncs (f : Field) (v i x : Nat) : (s.stage f v i x).xsyncs = s.xsyncs := rfl
@[simp] theorem State.stage_hpqHead (f : Field) (v i x : Nat) : (s.stage f v i x).hpqHead = s.hpqHead := rfl
@[simp] theorem State.stage_hpqTail (f : Field) (v i x : Nat) : (s.stage f v i x).hpqTail = s.hpqTail := rfl
@[simp] theorem State.stage_windowCount (f : Field) (v i x : Nat) : (s.stage f v i x).windowCount = s.windowCount := rfl
@[simp] theorem State.stage_moves (f : Field) (v i x : Nat) : (s.stage f v i x).moves = s.moves := rfl
@[simp] theorem State.stage_slots (f : Field) (v i x : Nat) : (s.stage f v i x).slots = s.slots := rfl
@[simp] theorem State.stage_rot (f : Field) (v i x : Nat) : (s.stage f v i x).rot = s.rot := rfl
@[simp] theorem State.stage_lastGen (f : Field) (v i x : Nat) : (s.stage f v i x).lastGen = s.lastGen := rfl
@[simp] theorem State.stage_tpk (f : Field) (v i x : Nat) : (s.stage f v i x).tpk = s.tpk := rfl
@[simp] theorem State.stage_queues (f : Field) (v i x : Nat) : (s.stage f v i x).queues = s.queues := rfl
@[simp] theorem State.stage_mchs (f : Field) (v i x : Nat) : (s.stage f v i x).mchs = s.mchs := rfl
@[simp] theorem State.stage_ras (f : Field) (v i x : Nat) : (s.stage f v i x).ras = s.ras := rfl
@[simp] theorem State.stage_rdl (f : Field) (v i x : Nat) : (s.stage f v i x).rdl = s.rdl := rfl
@[simp] theorem State.stage_planArea (f : Field) (v i x : Nat) : (s.stage f v i x).planArea = s.planArea := rfl
@[simp] theorem State.stage_ctxs (f : Field) (v i x : Nat) : (s.stage f v i x).ctxs = s.ctxs := rfl
@[simp] theorem State.stage_served (f : Field) (v i x : Nat) : (s.stage f v i x).served = s.served := rfl
@[simp] theorem State.stage_bakes (f : Field) (v i x : Nat) : (s.stage f v i x).bakes = s.bakes := rfl
@[simp] theorem State.stage_plans (f : Field) (v i x : Nat) : (s.stage f v i x).plans = s.plans := rfl
@[simp] theorem State.stage_loads (f : Field) (v i x : Nat) : (s.stage f v i x).loads = s.loads := rfl
@[simp] theorem State.stage_lanes (f : Field) (v i x : Nat) : (s.stage f v i x).lanes = s.lanes := rfl
@[simp] theorem State.stage_evlog (f : Field) (v i x : Nat) : (s.stage f v i x).evlog = s.evlog := rfl
@[simp] theorem State.stage_twin (f : Field) (v i x : Nat) : (s.stage f v i x).twin = s.twin := rfl
@[simp] theorem State.stage_jobs (f : Field) (v i x : Nat) : (s.stage f v i x).jobs = s.jobs := rfl
@[simp] theorem State.stage_tally (f : Field) (v i x : Nat) : (s.stage f v i x).tally = s.tally := rfl
@[simp] theorem State.stage_meter (f : Field) (v i x : Nat) : (s.stage f v i x).meter = s.meter := rfl
@[simp] theorem State.stage_zm3 (f : Field) (v i x : Nat) : (s.stage f v i x).zm3 = s.zm3 := rfl
@[simp] theorem State.stage_pwr (f : Field) (v i x : Nat) : (s.stage f v i x).pwr = s.pwr := rfl
@[simp] theorem State.stage_tmc (f : Field) (v i x : Nat) : (s.stage f v i x).tmc = s.tmc := rfl
@[simp] theorem State.stage_warden (f : Field) (v i x : Nat) : (s.stage f v i x).warden = s.warden := rfl

/-! `State.updReq` -/

@[simp] theorem State.updReq_opts (rid : Nat) (f : Req → Req) : (s.updReq rid f).opts = s.opts := rfl
@[simp] theorem State.updReq_fuses (rid : Nat) (f : Req → Req) : (s.updReq rid f).fuses = s.fuses := rfl
@[simp] theorem State.updReq_pending (rid : Nat) (f : Req → Req) : (s.updReq rid f).pending = s.pending := rfl
@[simp] theorem State.updReq_freeCtr (rid : Nat) (f : Req → Req) : (s.updReq rid f).freeCtr = s.freeCtr := rfl
@[simp] theorem State.updReq_ao (rid : Nat) (f : Req → Req) : (s.updReq rid f).ao = s.ao := rfl
@[simp] theorem State.updReq_rdata (rid : Nat) (f : Req → Req) : (s.updReq rid f).rdata = s.rdata := rfl
@[simp] theorem State.updReq_outs (rid : Nat) (f : Req → Req) : (s.updReq rid f).outs = s.outs := rfl
@[simp] theorem State.updReq_regs (rid : Nat) (f : Req → Req) : (s.updReq rid f).regs = s.regs := rfl
@[simp] theorem State.updReq_cfgOpen (rid : Nat) (f : Req → Req) : (s.updReq rid f).cfgOpen = s.cfgOpen := rfl
@[simp] theorem State.updReq_cfgDrain (rid : Nat) (f : Req → Req) : (s.updReq rid f).cfgDrain = s.cfgDrain := rfl
@[simp] theorem State.updReq_cfgStaged (rid : Nat) (f : Req → Req) : (s.updReq rid f).cfgStaged = s.cfgStaged := rfl
@[simp] theorem State.updReq_latches (rid : Nat) (f : Req → Req) : (s.updReq rid f).latches = s.latches := rfl
@[simp] theorem State.updReq_halves (rid : Nat) (f : Req → Req) : (s.updReq rid f).halves = s.halves := rfl
@[simp] theorem State.updReq_holdBuf (rid : Nat) (f : Req → Req) : (s.updReq rid f).holdBuf = s.holdBuf := rfl
@[simp] theorem State.updReq_wmk (rid : Nat) (f : Req → Req) : (s.updReq rid f).wmk = s.wmk := rfl
@[simp] theorem State.updReq_wins (rid : Nat) (f : Req → Req) : (s.updReq rid f).wins = s.wins := rfl
@[simp] theorem State.updReq_waking (rid : Nat) (f : Req → Req) : (s.updReq rid f).waking = s.waking := rfl
@[simp] theorem State.updReq_lastUse (rid : Nat) (f : Req → Req) : (s.updReq rid f).lastUse = s.lastUse := rfl
@[simp] theorem State.updReq_openEpoch (rid : Nat) (f : Req → Req) : (s.updReq rid f).openEpoch = s.openEpoch := rfl
@[simp] theorem State.updReq_drainEpoch (rid : Nat) (f : Req → Req) : (s.updReq rid f).drainEpoch = s.drainEpoch := rfl
@[simp] theorem State.updReq_commitPending (rid : Nat) (f : Req → Req) : (s.updReq rid f).commitPending = s.commitPending := rfl
@[simp] theorem State.updReq_slowRaised (rid : Nat) (f : Req → Req) : (s.updReq rid f).slowRaised = s.slowRaised := rfl
@[simp] theorem State.updReq_rootChanged (rid : Nat) (f : Req → Req) : (s.updReq rid f).rootChanged = s.rootChanged := rfl
@[simp] theorem State.updReq_dram (rid : Nat) (f : Req → Req) : (s.updReq rid f).dram = s.dram := rfl
@[simp] theorem State.updReq_ports (rid : Nat) (f : Req → Req) : (s.updReq rid f).ports = s.ports := rfl
@[simp] theorem State.updReq_nextId (rid : Nat) (f : Req → Req) : (s.updReq rid f).nextId = s.nextId := rfl
@[simp] theorem State.updReq_nextOrder (rid : Nat) (f : Req → Req) : (s.updReq rid f).nextOrder = s.nextOrder := rfl
@[simp] theorem State.updReq_shape (rid : Nat) (f : Req → Req) : (s.updReq rid f).shape = s.shape := rfl
@[simp] theorem State.updReq_agents (rid : Nat) (f : Req → Req) : (s.updReq rid f).agents = s.agents := rfl
@[simp] theorem State.updReq_dir (rid : Nat) (f : Req → Req) : (s.updReq rid f).dir = s.dir := rfl
@[simp] theorem State.updReq_frames (rid : Nat) (f : Req → Req) : (s.updReq rid f).frames = s.frames := rfl
@[simp] theorem State.updReq_trks (rid : Nat) (f : Req → Req) : (s.updReq rid f).trks = s.trks := rfl
@[simp] theorem State.updReq_openTx (rid : Nat) (f : Req → Req) : (s.updReq rid f).openTx = s.openTx := rfl
@[simp] theorem State.updReq_owed (rid : Nat) (f : Req → Req) : (s.updReq rid f).owed = s.owed := rfl
@[simp] theorem State.updReq_fences (rid : Nat) (f : Req → Req) : (s.updReq rid f).fences = s.fences := rfl
@[simp] theorem State.updReq_broken (rid : Nat) (f : Req → Req) : (s.updReq rid f).broken = s.broken := rfl
@[simp] theorem State.updReq_scan (rid : Nat) (f : Req → Req) : (s.updReq rid f).scan = s.scan := rfl
@[simp] theorem State.updReq_tc (rid : Nat) (f : Req → Req) : (s.updReq rid f).tc = s.tc := rfl
@[simp] theorem State.updReq_wc (rid : Nat) (f : Req → Req) : (s.updReq rid f).wc = s.wc := rfl
@[simp] theorem State.updReq_xsyncs (rid : Nat) (f : Req → Req) : (s.updReq rid f).xsyncs = s.xsyncs := rfl
@[simp] theorem State.updReq_hpqHead (rid : Nat) (f : Req → Req) : (s.updReq rid f).hpqHead = s.hpqHead := rfl
@[simp] theorem State.updReq_hpqTail (rid : Nat) (f : Req → Req) : (s.updReq rid f).hpqTail = s.hpqTail := rfl
@[simp] theorem State.updReq_windowCount (rid : Nat) (f : Req → Req) : (s.updReq rid f).windowCount = s.windowCount := rfl
@[simp] theorem State.updReq_moves (rid : Nat) (f : Req → Req) : (s.updReq rid f).moves = s.moves := rfl
@[simp] theorem State.updReq_slots (rid : Nat) (f : Req → Req) : (s.updReq rid f).slots = s.slots := rfl
@[simp] theorem State.updReq_rot (rid : Nat) (f : Req → Req) : (s.updReq rid f).rot = s.rot := rfl
@[simp] theorem State.updReq_lastGen (rid : Nat) (f : Req → Req) : (s.updReq rid f).lastGen = s.lastGen := rfl
@[simp] theorem State.updReq_tpk (rid : Nat) (f : Req → Req) : (s.updReq rid f).tpk = s.tpk := rfl
@[simp] theorem State.updReq_queues (rid : Nat) (f : Req → Req) : (s.updReq rid f).queues = s.queues := rfl
@[simp] theorem State.updReq_mchs (rid : Nat) (f : Req → Req) : (s.updReq rid f).mchs = s.mchs := rfl
@[simp] theorem State.updReq_ras (rid : Nat) (f : Req → Req) : (s.updReq rid f).ras = s.ras := rfl
@[simp] theorem State.updReq_rdl (rid : Nat) (f : Req → Req) : (s.updReq rid f).rdl = s.rdl := rfl
@[simp] theorem State.updReq_planArea (rid : Nat) (f : Req → Req) : (s.updReq rid f).planArea = s.planArea := rfl
@[simp] theorem State.updReq_ctxs (rid : Nat) (f : Req → Req) : (s.updReq rid f).ctxs = s.ctxs := rfl
@[simp] theorem State.updReq_served (rid : Nat) (f : Req → Req) : (s.updReq rid f).served = s.served := rfl
@[simp] theorem State.updReq_bakes (rid : Nat) (f : Req → Req) : (s.updReq rid f).bakes = s.bakes := rfl
@[simp] theorem State.updReq_plans (rid : Nat) (f : Req → Req) : (s.updReq rid f).plans = s.plans := rfl
@[simp] theorem State.updReq_loads (rid : Nat) (f : Req → Req) : (s.updReq rid f).loads = s.loads := rfl
@[simp] theorem State.updReq_lanes (rid : Nat) (f : Req → Req) : (s.updReq rid f).lanes = s.lanes := rfl
@[simp] theorem State.updReq_evlog (rid : Nat) (f : Req → Req) : (s.updReq rid f).evlog = s.evlog := rfl
@[simp] theorem State.updReq_twin (rid : Nat) (f : Req → Req) : (s.updReq rid f).twin = s.twin := rfl
@[simp] theorem State.updReq_jobs (rid : Nat) (f : Req → Req) : (s.updReq rid f).jobs = s.jobs := rfl
@[simp] theorem State.updReq_tally (rid : Nat) (f : Req → Req) : (s.updReq rid f).tally = s.tally := rfl
@[simp] theorem State.updReq_meter (rid : Nat) (f : Req → Req) : (s.updReq rid f).meter = s.meter := rfl
@[simp] theorem State.updReq_zm3 (rid : Nat) (f : Req → Req) : (s.updReq rid f).zm3 = s.zm3 := rfl
@[simp] theorem State.updReq_pwr (rid : Nat) (f : Req → Req) : (s.updReq rid f).pwr = s.pwr := rfl
@[simp] theorem State.updReq_tmc (rid : Nat) (f : Req → Req) : (s.updReq rid f).tmc = s.tmc := rfl
@[simp] theorem State.updReq_warden (rid : Nat) (f : Req → Req) : (s.updReq rid f).warden = s.warden := rfl

/-! `State.dropReq` -/

@[simp] theorem State.dropReq_opts (rid : Nat) : (s.dropReq rid).opts = s.opts := rfl
@[simp] theorem State.dropReq_fuses (rid : Nat) : (s.dropReq rid).fuses = s.fuses := rfl
@[simp] theorem State.dropReq_pending (rid : Nat) : (s.dropReq rid).pending = s.pending := rfl
@[simp] theorem State.dropReq_freeCtr (rid : Nat) : (s.dropReq rid).freeCtr = s.freeCtr := rfl
@[simp] theorem State.dropReq_ao (rid : Nat) : (s.dropReq rid).ao = s.ao := rfl
@[simp] theorem State.dropReq_rdata (rid : Nat) : (s.dropReq rid).rdata = s.rdata := rfl
@[simp] theorem State.dropReq_outs (rid : Nat) : (s.dropReq rid).outs = s.outs := rfl
@[simp] theorem State.dropReq_regs (rid : Nat) : (s.dropReq rid).regs = s.regs := rfl
@[simp] theorem State.dropReq_cfgOpen (rid : Nat) : (s.dropReq rid).cfgOpen = s.cfgOpen := rfl
@[simp] theorem State.dropReq_cfgDrain (rid : Nat) : (s.dropReq rid).cfgDrain = s.cfgDrain := rfl
@[simp] theorem State.dropReq_cfgStaged (rid : Nat) : (s.dropReq rid).cfgStaged = s.cfgStaged := rfl
@[simp] theorem State.dropReq_latches (rid : Nat) : (s.dropReq rid).latches = s.latches := rfl
@[simp] theorem State.dropReq_halves (rid : Nat) : (s.dropReq rid).halves = s.halves := rfl
@[simp] theorem State.dropReq_holdBuf (rid : Nat) : (s.dropReq rid).holdBuf = s.holdBuf := rfl
@[simp] theorem State.dropReq_wmk (rid : Nat) : (s.dropReq rid).wmk = s.wmk := rfl
@[simp] theorem State.dropReq_wins (rid : Nat) : (s.dropReq rid).wins = s.wins := rfl
@[simp] theorem State.dropReq_waking (rid : Nat) : (s.dropReq rid).waking = s.waking := rfl
@[simp] theorem State.dropReq_lastUse (rid : Nat) : (s.dropReq rid).lastUse = s.lastUse := rfl
@[simp] theorem State.dropReq_openEpoch (rid : Nat) : (s.dropReq rid).openEpoch = s.openEpoch := rfl
@[simp] theorem State.dropReq_drainEpoch (rid : Nat) : (s.dropReq rid).drainEpoch = s.drainEpoch := rfl
@[simp] theorem State.dropReq_commitPending (rid : Nat) : (s.dropReq rid).commitPending = s.commitPending := rfl
@[simp] theorem State.dropReq_slowRaised (rid : Nat) : (s.dropReq rid).slowRaised = s.slowRaised := rfl
@[simp] theorem State.dropReq_rootChanged (rid : Nat) : (s.dropReq rid).rootChanged = s.rootChanged := rfl
@[simp] theorem State.dropReq_dram (rid : Nat) : (s.dropReq rid).dram = s.dram := rfl
@[simp] theorem State.dropReq_ports (rid : Nat) : (s.dropReq rid).ports = s.ports := rfl
@[simp] theorem State.dropReq_nextId (rid : Nat) : (s.dropReq rid).nextId = s.nextId := rfl
@[simp] theorem State.dropReq_nextOrder (rid : Nat) : (s.dropReq rid).nextOrder = s.nextOrder := rfl
@[simp] theorem State.dropReq_shape (rid : Nat) : (s.dropReq rid).shape = s.shape := rfl
@[simp] theorem State.dropReq_agents (rid : Nat) : (s.dropReq rid).agents = s.agents := rfl
@[simp] theorem State.dropReq_dir (rid : Nat) : (s.dropReq rid).dir = s.dir := rfl
@[simp] theorem State.dropReq_frames (rid : Nat) : (s.dropReq rid).frames = s.frames := rfl
@[simp] theorem State.dropReq_trks (rid : Nat) : (s.dropReq rid).trks = s.trks := rfl
@[simp] theorem State.dropReq_openTx (rid : Nat) : (s.dropReq rid).openTx = s.openTx := rfl
@[simp] theorem State.dropReq_owed (rid : Nat) : (s.dropReq rid).owed = s.owed := rfl
@[simp] theorem State.dropReq_fences (rid : Nat) : (s.dropReq rid).fences = s.fences := rfl
@[simp] theorem State.dropReq_broken (rid : Nat) : (s.dropReq rid).broken = s.broken := rfl
@[simp] theorem State.dropReq_scan (rid : Nat) : (s.dropReq rid).scan = s.scan := rfl
@[simp] theorem State.dropReq_tc (rid : Nat) : (s.dropReq rid).tc = s.tc := rfl
@[simp] theorem State.dropReq_wc (rid : Nat) : (s.dropReq rid).wc = s.wc := rfl
@[simp] theorem State.dropReq_xsyncs (rid : Nat) : (s.dropReq rid).xsyncs = s.xsyncs := rfl
@[simp] theorem State.dropReq_hpqHead (rid : Nat) : (s.dropReq rid).hpqHead = s.hpqHead := rfl
@[simp] theorem State.dropReq_hpqTail (rid : Nat) : (s.dropReq rid).hpqTail = s.hpqTail := rfl
@[simp] theorem State.dropReq_windowCount (rid : Nat) : (s.dropReq rid).windowCount = s.windowCount := rfl
@[simp] theorem State.dropReq_moves (rid : Nat) : (s.dropReq rid).moves = s.moves := rfl
@[simp] theorem State.dropReq_slots (rid : Nat) : (s.dropReq rid).slots = s.slots := rfl
@[simp] theorem State.dropReq_rot (rid : Nat) : (s.dropReq rid).rot = s.rot := rfl
@[simp] theorem State.dropReq_lastGen (rid : Nat) : (s.dropReq rid).lastGen = s.lastGen := rfl
@[simp] theorem State.dropReq_tpk (rid : Nat) : (s.dropReq rid).tpk = s.tpk := rfl
@[simp] theorem State.dropReq_queues (rid : Nat) : (s.dropReq rid).queues = s.queues := rfl
@[simp] theorem State.dropReq_mchs (rid : Nat) : (s.dropReq rid).mchs = s.mchs := rfl
@[simp] theorem State.dropReq_ras (rid : Nat) : (s.dropReq rid).ras = s.ras := rfl
@[simp] theorem State.dropReq_rdl (rid : Nat) : (s.dropReq rid).rdl = s.rdl := rfl
@[simp] theorem State.dropReq_planArea (rid : Nat) : (s.dropReq rid).planArea = s.planArea := rfl
@[simp] theorem State.dropReq_ctxs (rid : Nat) : (s.dropReq rid).ctxs = s.ctxs := rfl
@[simp] theorem State.dropReq_served (rid : Nat) : (s.dropReq rid).served = s.served := rfl
@[simp] theorem State.dropReq_bakes (rid : Nat) : (s.dropReq rid).bakes = s.bakes := rfl
@[simp] theorem State.dropReq_plans (rid : Nat) : (s.dropReq rid).plans = s.plans := rfl
@[simp] theorem State.dropReq_loads (rid : Nat) : (s.dropReq rid).loads = s.loads := rfl
@[simp] theorem State.dropReq_lanes (rid : Nat) : (s.dropReq rid).lanes = s.lanes := rfl
@[simp] theorem State.dropReq_evlog (rid : Nat) : (s.dropReq rid).evlog = s.evlog := rfl
@[simp] theorem State.dropReq_twin (rid : Nat) : (s.dropReq rid).twin = s.twin := rfl
@[simp] theorem State.dropReq_jobs (rid : Nat) : (s.dropReq rid).jobs = s.jobs := rfl
@[simp] theorem State.dropReq_tally (rid : Nat) : (s.dropReq rid).tally = s.tally := rfl
@[simp] theorem State.dropReq_meter (rid : Nat) : (s.dropReq rid).meter = s.meter := rfl
@[simp] theorem State.dropReq_zm3 (rid : Nat) : (s.dropReq rid).zm3 = s.zm3 := rfl
@[simp] theorem State.dropReq_pwr (rid : Nat) : (s.dropReq rid).pwr = s.pwr := rfl
@[simp] theorem State.dropReq_tmc (rid : Nat) : (s.dropReq rid).tmc = s.tmc := rfl
@[simp] theorem State.dropReq_warden (rid : Nat) : (s.dropReq rid).warden = s.warden := rfl

/-! `State.setMove` -/

@[simp] theorem State.setMove_opts (n : Nat) (v : Move) : (s.setMove n v).opts = s.opts := rfl
@[simp] theorem State.setMove_fuses (n : Nat) (v : Move) : (s.setMove n v).fuses = s.fuses := rfl
@[simp] theorem State.setMove_pending (n : Nat) (v : Move) : (s.setMove n v).pending = s.pending := rfl
@[simp] theorem State.setMove_freeCtr (n : Nat) (v : Move) : (s.setMove n v).freeCtr = s.freeCtr := rfl
@[simp] theorem State.setMove_ao (n : Nat) (v : Move) : (s.setMove n v).ao = s.ao := rfl
@[simp] theorem State.setMove_rdata (n : Nat) (v : Move) : (s.setMove n v).rdata = s.rdata := rfl
@[simp] theorem State.setMove_outs (n : Nat) (v : Move) : (s.setMove n v).outs = s.outs := rfl
@[simp] theorem State.setMove_regs (n : Nat) (v : Move) : (s.setMove n v).regs = s.regs := rfl
@[simp] theorem State.setMove_cfgOpen (n : Nat) (v : Move) : (s.setMove n v).cfgOpen = s.cfgOpen := rfl
@[simp] theorem State.setMove_cfgDrain (n : Nat) (v : Move) : (s.setMove n v).cfgDrain = s.cfgDrain := rfl
@[simp] theorem State.setMove_cfgStaged (n : Nat) (v : Move) : (s.setMove n v).cfgStaged = s.cfgStaged := rfl
@[simp] theorem State.setMove_latches (n : Nat) (v : Move) : (s.setMove n v).latches = s.latches := rfl
@[simp] theorem State.setMove_halves (n : Nat) (v : Move) : (s.setMove n v).halves = s.halves := rfl
@[simp] theorem State.setMove_holdBuf (n : Nat) (v : Move) : (s.setMove n v).holdBuf = s.holdBuf := rfl
@[simp] theorem State.setMove_wmk (n : Nat) (v : Move) : (s.setMove n v).wmk = s.wmk := rfl
@[simp] theorem State.setMove_wins (n : Nat) (v : Move) : (s.setMove n v).wins = s.wins := rfl
@[simp] theorem State.setMove_waking (n : Nat) (v : Move) : (s.setMove n v).waking = s.waking := rfl
@[simp] theorem State.setMove_lastUse (n : Nat) (v : Move) : (s.setMove n v).lastUse = s.lastUse := rfl
@[simp] theorem State.setMove_openEpoch (n : Nat) (v : Move) : (s.setMove n v).openEpoch = s.openEpoch := rfl
@[simp] theorem State.setMove_drainEpoch (n : Nat) (v : Move) : (s.setMove n v).drainEpoch = s.drainEpoch := rfl
@[simp] theorem State.setMove_commitPending (n : Nat) (v : Move) : (s.setMove n v).commitPending = s.commitPending := rfl
@[simp] theorem State.setMove_slowRaised (n : Nat) (v : Move) : (s.setMove n v).slowRaised = s.slowRaised := rfl
@[simp] theorem State.setMove_rootChanged (n : Nat) (v : Move) : (s.setMove n v).rootChanged = s.rootChanged := rfl
@[simp] theorem State.setMove_dram (n : Nat) (v : Move) : (s.setMove n v).dram = s.dram := rfl
@[simp] theorem State.setMove_ports (n : Nat) (v : Move) : (s.setMove n v).ports = s.ports := rfl
@[simp] theorem State.setMove_reqs (n : Nat) (v : Move) : (s.setMove n v).reqs = s.reqs := rfl
@[simp] theorem State.setMove_nextId (n : Nat) (v : Move) : (s.setMove n v).nextId = s.nextId := rfl
@[simp] theorem State.setMove_nextOrder (n : Nat) (v : Move) : (s.setMove n v).nextOrder = s.nextOrder := rfl
@[simp] theorem State.setMove_shape (n : Nat) (v : Move) : (s.setMove n v).shape = s.shape := rfl
@[simp] theorem State.setMove_agents (n : Nat) (v : Move) : (s.setMove n v).agents = s.agents := rfl
@[simp] theorem State.setMove_dir (n : Nat) (v : Move) : (s.setMove n v).dir = s.dir := rfl
@[simp] theorem State.setMove_frames (n : Nat) (v : Move) : (s.setMove n v).frames = s.frames := rfl
@[simp] theorem State.setMove_trks (n : Nat) (v : Move) : (s.setMove n v).trks = s.trks := rfl
@[simp] theorem State.setMove_openTx (n : Nat) (v : Move) : (s.setMove n v).openTx = s.openTx := rfl
@[simp] theorem State.setMove_owed (n : Nat) (v : Move) : (s.setMove n v).owed = s.owed := rfl
@[simp] theorem State.setMove_fences (n : Nat) (v : Move) : (s.setMove n v).fences = s.fences := rfl
@[simp] theorem State.setMove_broken (n : Nat) (v : Move) : (s.setMove n v).broken = s.broken := rfl
@[simp] theorem State.setMove_scan (n : Nat) (v : Move) : (s.setMove n v).scan = s.scan := rfl
@[simp] theorem State.setMove_tc (n : Nat) (v : Move) : (s.setMove n v).tc = s.tc := rfl
@[simp] theorem State.setMove_wc (n : Nat) (v : Move) : (s.setMove n v).wc = s.wc := rfl
@[simp] theorem State.setMove_xsyncs (n : Nat) (v : Move) : (s.setMove n v).xsyncs = s.xsyncs := rfl
@[simp] theorem State.setMove_hpqHead (n : Nat) (v : Move) : (s.setMove n v).hpqHead = s.hpqHead := rfl
@[simp] theorem State.setMove_hpqTail (n : Nat) (v : Move) : (s.setMove n v).hpqTail = s.hpqTail := rfl
@[simp] theorem State.setMove_windowCount (n : Nat) (v : Move) : (s.setMove n v).windowCount = s.windowCount := rfl
@[simp] theorem State.setMove_slots (n : Nat) (v : Move) : (s.setMove n v).slots = s.slots := rfl
@[simp] theorem State.setMove_rot (n : Nat) (v : Move) : (s.setMove n v).rot = s.rot := rfl
@[simp] theorem State.setMove_lastGen (n : Nat) (v : Move) : (s.setMove n v).lastGen = s.lastGen := rfl
@[simp] theorem State.setMove_tpk (n : Nat) (v : Move) : (s.setMove n v).tpk = s.tpk := rfl
@[simp] theorem State.setMove_queues (n : Nat) (v : Move) : (s.setMove n v).queues = s.queues := rfl
@[simp] theorem State.setMove_mchs (n : Nat) (v : Move) : (s.setMove n v).mchs = s.mchs := rfl
@[simp] theorem State.setMove_ras (n : Nat) (v : Move) : (s.setMove n v).ras = s.ras := rfl
@[simp] theorem State.setMove_rdl (n : Nat) (v : Move) : (s.setMove n v).rdl = s.rdl := rfl
@[simp] theorem State.setMove_planArea (n : Nat) (v : Move) : (s.setMove n v).planArea = s.planArea := rfl
@[simp] theorem State.setMove_ctxs (n : Nat) (v : Move) : (s.setMove n v).ctxs = s.ctxs := rfl
@[simp] theorem State.setMove_served (n : Nat) (v : Move) : (s.setMove n v).served = s.served := rfl
@[simp] theorem State.setMove_bakes (n : Nat) (v : Move) : (s.setMove n v).bakes = s.bakes := rfl
@[simp] theorem State.setMove_plans (n : Nat) (v : Move) : (s.setMove n v).plans = s.plans := rfl
@[simp] theorem State.setMove_loads (n : Nat) (v : Move) : (s.setMove n v).loads = s.loads := rfl
@[simp] theorem State.setMove_lanes (n : Nat) (v : Move) : (s.setMove n v).lanes = s.lanes := rfl
@[simp] theorem State.setMove_evlog (n : Nat) (v : Move) : (s.setMove n v).evlog = s.evlog := rfl
@[simp] theorem State.setMove_twin (n : Nat) (v : Move) : (s.setMove n v).twin = s.twin := rfl
@[simp] theorem State.setMove_jobs (n : Nat) (v : Move) : (s.setMove n v).jobs = s.jobs := rfl
@[simp] theorem State.setMove_tally (n : Nat) (v : Move) : (s.setMove n v).tally = s.tally := rfl
@[simp] theorem State.setMove_meter (n : Nat) (v : Move) : (s.setMove n v).meter = s.meter := rfl
@[simp] theorem State.setMove_zm3 (n : Nat) (v : Move) : (s.setMove n v).zm3 = s.zm3 := rfl
@[simp] theorem State.setMove_pwr (n : Nat) (v : Move) : (s.setMove n v).pwr = s.pwr := rfl
@[simp] theorem State.setMove_tmc (n : Nat) (v : Move) : (s.setMove n v).tmc = s.tmc := rfl
@[simp] theorem State.setMove_warden (n : Nat) (v : Move) : (s.setMove n v).warden = s.warden := rfl

/-! `State.setQueue` -/

@[simp] theorem State.setQueue_opts (q : Nat) (v : Queue) : (s.setQueue q v).opts = s.opts := rfl
@[simp] theorem State.setQueue_fuses (q : Nat) (v : Queue) : (s.setQueue q v).fuses = s.fuses := rfl
@[simp] theorem State.setQueue_pending (q : Nat) (v : Queue) : (s.setQueue q v).pending = s.pending := rfl
@[simp] theorem State.setQueue_freeCtr (q : Nat) (v : Queue) : (s.setQueue q v).freeCtr = s.freeCtr := rfl
@[simp] theorem State.setQueue_ao (q : Nat) (v : Queue) : (s.setQueue q v).ao = s.ao := rfl
@[simp] theorem State.setQueue_rdata (q : Nat) (v : Queue) : (s.setQueue q v).rdata = s.rdata := rfl
@[simp] theorem State.setQueue_outs (q : Nat) (v : Queue) : (s.setQueue q v).outs = s.outs := rfl
@[simp] theorem State.setQueue_regs (q : Nat) (v : Queue) : (s.setQueue q v).regs = s.regs := rfl
@[simp] theorem State.setQueue_cfgOpen (q : Nat) (v : Queue) : (s.setQueue q v).cfgOpen = s.cfgOpen := rfl
@[simp] theorem State.setQueue_cfgDrain (q : Nat) (v : Queue) : (s.setQueue q v).cfgDrain = s.cfgDrain := rfl
@[simp] theorem State.setQueue_cfgStaged (q : Nat) (v : Queue) : (s.setQueue q v).cfgStaged = s.cfgStaged := rfl
@[simp] theorem State.setQueue_latches (q : Nat) (v : Queue) : (s.setQueue q v).latches = s.latches := rfl
@[simp] theorem State.setQueue_halves (q : Nat) (v : Queue) : (s.setQueue q v).halves = s.halves := rfl
@[simp] theorem State.setQueue_holdBuf (q : Nat) (v : Queue) : (s.setQueue q v).holdBuf = s.holdBuf := rfl
@[simp] theorem State.setQueue_wmk (q : Nat) (v : Queue) : (s.setQueue q v).wmk = s.wmk := rfl
@[simp] theorem State.setQueue_wins (q : Nat) (v : Queue) : (s.setQueue q v).wins = s.wins := rfl
@[simp] theorem State.setQueue_waking (q : Nat) (v : Queue) : (s.setQueue q v).waking = s.waking := rfl
@[simp] theorem State.setQueue_lastUse (q : Nat) (v : Queue) : (s.setQueue q v).lastUse = s.lastUse := rfl
@[simp] theorem State.setQueue_openEpoch (q : Nat) (v : Queue) : (s.setQueue q v).openEpoch = s.openEpoch := rfl
@[simp] theorem State.setQueue_drainEpoch (q : Nat) (v : Queue) : (s.setQueue q v).drainEpoch = s.drainEpoch := rfl
@[simp] theorem State.setQueue_commitPending (q : Nat) (v : Queue) : (s.setQueue q v).commitPending = s.commitPending := rfl
@[simp] theorem State.setQueue_slowRaised (q : Nat) (v : Queue) : (s.setQueue q v).slowRaised = s.slowRaised := rfl
@[simp] theorem State.setQueue_rootChanged (q : Nat) (v : Queue) : (s.setQueue q v).rootChanged = s.rootChanged := rfl
@[simp] theorem State.setQueue_dram (q : Nat) (v : Queue) : (s.setQueue q v).dram = s.dram := rfl
@[simp] theorem State.setQueue_ports (q : Nat) (v : Queue) : (s.setQueue q v).ports = s.ports := rfl
@[simp] theorem State.setQueue_reqs (q : Nat) (v : Queue) : (s.setQueue q v).reqs = s.reqs := rfl
@[simp] theorem State.setQueue_nextId (q : Nat) (v : Queue) : (s.setQueue q v).nextId = s.nextId := rfl
@[simp] theorem State.setQueue_nextOrder (q : Nat) (v : Queue) : (s.setQueue q v).nextOrder = s.nextOrder := rfl
@[simp] theorem State.setQueue_shape (q : Nat) (v : Queue) : (s.setQueue q v).shape = s.shape := rfl
@[simp] theorem State.setQueue_agents (q : Nat) (v : Queue) : (s.setQueue q v).agents = s.agents := rfl
@[simp] theorem State.setQueue_dir (q : Nat) (v : Queue) : (s.setQueue q v).dir = s.dir := rfl
@[simp] theorem State.setQueue_frames (q : Nat) (v : Queue) : (s.setQueue q v).frames = s.frames := rfl
@[simp] theorem State.setQueue_trks (q : Nat) (v : Queue) : (s.setQueue q v).trks = s.trks := rfl
@[simp] theorem State.setQueue_openTx (q : Nat) (v : Queue) : (s.setQueue q v).openTx = s.openTx := rfl
@[simp] theorem State.setQueue_owed (q : Nat) (v : Queue) : (s.setQueue q v).owed = s.owed := rfl
@[simp] theorem State.setQueue_fences (q : Nat) (v : Queue) : (s.setQueue q v).fences = s.fences := rfl
@[simp] theorem State.setQueue_broken (q : Nat) (v : Queue) : (s.setQueue q v).broken = s.broken := rfl
@[simp] theorem State.setQueue_scan (q : Nat) (v : Queue) : (s.setQueue q v).scan = s.scan := rfl
@[simp] theorem State.setQueue_tc (q : Nat) (v : Queue) : (s.setQueue q v).tc = s.tc := rfl
@[simp] theorem State.setQueue_wc (q : Nat) (v : Queue) : (s.setQueue q v).wc = s.wc := rfl
@[simp] theorem State.setQueue_xsyncs (q : Nat) (v : Queue) : (s.setQueue q v).xsyncs = s.xsyncs := rfl
@[simp] theorem State.setQueue_hpqHead (q : Nat) (v : Queue) : (s.setQueue q v).hpqHead = s.hpqHead := rfl
@[simp] theorem State.setQueue_hpqTail (q : Nat) (v : Queue) : (s.setQueue q v).hpqTail = s.hpqTail := rfl
@[simp] theorem State.setQueue_windowCount (q : Nat) (v : Queue) : (s.setQueue q v).windowCount = s.windowCount := rfl
@[simp] theorem State.setQueue_moves (q : Nat) (v : Queue) : (s.setQueue q v).moves = s.moves := rfl
@[simp] theorem State.setQueue_slots (q : Nat) (v : Queue) : (s.setQueue q v).slots = s.slots := rfl
@[simp] theorem State.setQueue_rot (q : Nat) (v : Queue) : (s.setQueue q v).rot = s.rot := rfl
@[simp] theorem State.setQueue_lastGen (q : Nat) (v : Queue) : (s.setQueue q v).lastGen = s.lastGen := rfl
@[simp] theorem State.setQueue_tpk (q : Nat) (v : Queue) : (s.setQueue q v).tpk = s.tpk := rfl
@[simp] theorem State.setQueue_mchs (q : Nat) (v : Queue) : (s.setQueue q v).mchs = s.mchs := rfl
@[simp] theorem State.setQueue_ras (q : Nat) (v : Queue) : (s.setQueue q v).ras = s.ras := rfl
@[simp] theorem State.setQueue_rdl (q : Nat) (v : Queue) : (s.setQueue q v).rdl = s.rdl := rfl
@[simp] theorem State.setQueue_planArea (q : Nat) (v : Queue) : (s.setQueue q v).planArea = s.planArea := rfl
@[simp] theorem State.setQueue_ctxs (q : Nat) (v : Queue) : (s.setQueue q v).ctxs = s.ctxs := rfl
@[simp] theorem State.setQueue_served (q : Nat) (v : Queue) : (s.setQueue q v).served = s.served := rfl
@[simp] theorem State.setQueue_bakes (q : Nat) (v : Queue) : (s.setQueue q v).bakes = s.bakes := rfl
@[simp] theorem State.setQueue_plans (q : Nat) (v : Queue) : (s.setQueue q v).plans = s.plans := rfl
@[simp] theorem State.setQueue_loads (q : Nat) (v : Queue) : (s.setQueue q v).loads = s.loads := rfl
@[simp] theorem State.setQueue_lanes (q : Nat) (v : Queue) : (s.setQueue q v).lanes = s.lanes := rfl
@[simp] theorem State.setQueue_evlog (q : Nat) (v : Queue) : (s.setQueue q v).evlog = s.evlog := rfl
@[simp] theorem State.setQueue_twin (q : Nat) (v : Queue) : (s.setQueue q v).twin = s.twin := rfl
@[simp] theorem State.setQueue_jobs (q : Nat) (v : Queue) : (s.setQueue q v).jobs = s.jobs := rfl
@[simp] theorem State.setQueue_tally (q : Nat) (v : Queue) : (s.setQueue q v).tally = s.tally := rfl
@[simp] theorem State.setQueue_meter (q : Nat) (v : Queue) : (s.setQueue q v).meter = s.meter := rfl
@[simp] theorem State.setQueue_zm3 (q : Nat) (v : Queue) : (s.setQueue q v).zm3 = s.zm3 := rfl
@[simp] theorem State.setQueue_pwr (q : Nat) (v : Queue) : (s.setQueue q v).pwr = s.pwr := rfl
@[simp] theorem State.setQueue_tmc (q : Nat) (v : Queue) : (s.setQueue q v).tmc = s.tmc := rfl
@[simp] theorem State.setQueue_warden (q : Nat) (v : Queue) : (s.setQueue q v).warden = s.warden := rfl

/-! `State.setMch` -/

@[simp] theorem State.setMch_opts (n : Nat) (v : Mch) : (s.setMch n v).opts = s.opts := rfl
@[simp] theorem State.setMch_fuses (n : Nat) (v : Mch) : (s.setMch n v).fuses = s.fuses := rfl
@[simp] theorem State.setMch_pending (n : Nat) (v : Mch) : (s.setMch n v).pending = s.pending := rfl
@[simp] theorem State.setMch_freeCtr (n : Nat) (v : Mch) : (s.setMch n v).freeCtr = s.freeCtr := rfl
@[simp] theorem State.setMch_ao (n : Nat) (v : Mch) : (s.setMch n v).ao = s.ao := rfl
@[simp] theorem State.setMch_rdata (n : Nat) (v : Mch) : (s.setMch n v).rdata = s.rdata := rfl
@[simp] theorem State.setMch_outs (n : Nat) (v : Mch) : (s.setMch n v).outs = s.outs := rfl
@[simp] theorem State.setMch_regs (n : Nat) (v : Mch) : (s.setMch n v).regs = s.regs := rfl
@[simp] theorem State.setMch_cfgOpen (n : Nat) (v : Mch) : (s.setMch n v).cfgOpen = s.cfgOpen := rfl
@[simp] theorem State.setMch_cfgDrain (n : Nat) (v : Mch) : (s.setMch n v).cfgDrain = s.cfgDrain := rfl
@[simp] theorem State.setMch_cfgStaged (n : Nat) (v : Mch) : (s.setMch n v).cfgStaged = s.cfgStaged := rfl
@[simp] theorem State.setMch_latches (n : Nat) (v : Mch) : (s.setMch n v).latches = s.latches := rfl
@[simp] theorem State.setMch_halves (n : Nat) (v : Mch) : (s.setMch n v).halves = s.halves := rfl
@[simp] theorem State.setMch_holdBuf (n : Nat) (v : Mch) : (s.setMch n v).holdBuf = s.holdBuf := rfl
@[simp] theorem State.setMch_wmk (n : Nat) (v : Mch) : (s.setMch n v).wmk = s.wmk := rfl
@[simp] theorem State.setMch_wins (n : Nat) (v : Mch) : (s.setMch n v).wins = s.wins := rfl
@[simp] theorem State.setMch_waking (n : Nat) (v : Mch) : (s.setMch n v).waking = s.waking := rfl
@[simp] theorem State.setMch_lastUse (n : Nat) (v : Mch) : (s.setMch n v).lastUse = s.lastUse := rfl
@[simp] theorem State.setMch_openEpoch (n : Nat) (v : Mch) : (s.setMch n v).openEpoch = s.openEpoch := rfl
@[simp] theorem State.setMch_drainEpoch (n : Nat) (v : Mch) : (s.setMch n v).drainEpoch = s.drainEpoch := rfl
@[simp] theorem State.setMch_commitPending (n : Nat) (v : Mch) : (s.setMch n v).commitPending = s.commitPending := rfl
@[simp] theorem State.setMch_slowRaised (n : Nat) (v : Mch) : (s.setMch n v).slowRaised = s.slowRaised := rfl
@[simp] theorem State.setMch_rootChanged (n : Nat) (v : Mch) : (s.setMch n v).rootChanged = s.rootChanged := rfl
@[simp] theorem State.setMch_dram (n : Nat) (v : Mch) : (s.setMch n v).dram = s.dram := rfl
@[simp] theorem State.setMch_ports (n : Nat) (v : Mch) : (s.setMch n v).ports = s.ports := rfl
@[simp] theorem State.setMch_reqs (n : Nat) (v : Mch) : (s.setMch n v).reqs = s.reqs := rfl
@[simp] theorem State.setMch_nextId (n : Nat) (v : Mch) : (s.setMch n v).nextId = s.nextId := rfl
@[simp] theorem State.setMch_nextOrder (n : Nat) (v : Mch) : (s.setMch n v).nextOrder = s.nextOrder := rfl
@[simp] theorem State.setMch_shape (n : Nat) (v : Mch) : (s.setMch n v).shape = s.shape := rfl
@[simp] theorem State.setMch_agents (n : Nat) (v : Mch) : (s.setMch n v).agents = s.agents := rfl
@[simp] theorem State.setMch_dir (n : Nat) (v : Mch) : (s.setMch n v).dir = s.dir := rfl
@[simp] theorem State.setMch_frames (n : Nat) (v : Mch) : (s.setMch n v).frames = s.frames := rfl
@[simp] theorem State.setMch_trks (n : Nat) (v : Mch) : (s.setMch n v).trks = s.trks := rfl
@[simp] theorem State.setMch_openTx (n : Nat) (v : Mch) : (s.setMch n v).openTx = s.openTx := rfl
@[simp] theorem State.setMch_owed (n : Nat) (v : Mch) : (s.setMch n v).owed = s.owed := rfl
@[simp] theorem State.setMch_fences (n : Nat) (v : Mch) : (s.setMch n v).fences = s.fences := rfl
@[simp] theorem State.setMch_broken (n : Nat) (v : Mch) : (s.setMch n v).broken = s.broken := rfl
@[simp] theorem State.setMch_scan (n : Nat) (v : Mch) : (s.setMch n v).scan = s.scan := rfl
@[simp] theorem State.setMch_tc (n : Nat) (v : Mch) : (s.setMch n v).tc = s.tc := rfl
@[simp] theorem State.setMch_wc (n : Nat) (v : Mch) : (s.setMch n v).wc = s.wc := rfl
@[simp] theorem State.setMch_xsyncs (n : Nat) (v : Mch) : (s.setMch n v).xsyncs = s.xsyncs := rfl
@[simp] theorem State.setMch_hpqHead (n : Nat) (v : Mch) : (s.setMch n v).hpqHead = s.hpqHead := rfl
@[simp] theorem State.setMch_hpqTail (n : Nat) (v : Mch) : (s.setMch n v).hpqTail = s.hpqTail := rfl
@[simp] theorem State.setMch_windowCount (n : Nat) (v : Mch) : (s.setMch n v).windowCount = s.windowCount := rfl
@[simp] theorem State.setMch_moves (n : Nat) (v : Mch) : (s.setMch n v).moves = s.moves := rfl
@[simp] theorem State.setMch_slots (n : Nat) (v : Mch) : (s.setMch n v).slots = s.slots := rfl
@[simp] theorem State.setMch_rot (n : Nat) (v : Mch) : (s.setMch n v).rot = s.rot := rfl
@[simp] theorem State.setMch_lastGen (n : Nat) (v : Mch) : (s.setMch n v).lastGen = s.lastGen := rfl
@[simp] theorem State.setMch_tpk (n : Nat) (v : Mch) : (s.setMch n v).tpk = s.tpk := rfl
@[simp] theorem State.setMch_queues (n : Nat) (v : Mch) : (s.setMch n v).queues = s.queues := rfl
@[simp] theorem State.setMch_ras (n : Nat) (v : Mch) : (s.setMch n v).ras = s.ras := rfl
@[simp] theorem State.setMch_rdl (n : Nat) (v : Mch) : (s.setMch n v).rdl = s.rdl := rfl
@[simp] theorem State.setMch_planArea (n : Nat) (v : Mch) : (s.setMch n v).planArea = s.planArea := rfl
@[simp] theorem State.setMch_ctxs (n : Nat) (v : Mch) : (s.setMch n v).ctxs = s.ctxs := rfl
@[simp] theorem State.setMch_served (n : Nat) (v : Mch) : (s.setMch n v).served = s.served := rfl
@[simp] theorem State.setMch_bakes (n : Nat) (v : Mch) : (s.setMch n v).bakes = s.bakes := rfl
@[simp] theorem State.setMch_plans (n : Nat) (v : Mch) : (s.setMch n v).plans = s.plans := rfl
@[simp] theorem State.setMch_loads (n : Nat) (v : Mch) : (s.setMch n v).loads = s.loads := rfl
@[simp] theorem State.setMch_lanes (n : Nat) (v : Mch) : (s.setMch n v).lanes = s.lanes := rfl
@[simp] theorem State.setMch_evlog (n : Nat) (v : Mch) : (s.setMch n v).evlog = s.evlog := rfl
@[simp] theorem State.setMch_twin (n : Nat) (v : Mch) : (s.setMch n v).twin = s.twin := rfl
@[simp] theorem State.setMch_jobs (n : Nat) (v : Mch) : (s.setMch n v).jobs = s.jobs := rfl
@[simp] theorem State.setMch_tally (n : Nat) (v : Mch) : (s.setMch n v).tally = s.tally := rfl
@[simp] theorem State.setMch_meter (n : Nat) (v : Mch) : (s.setMch n v).meter = s.meter := rfl
@[simp] theorem State.setMch_zm3 (n : Nat) (v : Mch) : (s.setMch n v).zm3 = s.zm3 := rfl
@[simp] theorem State.setMch_pwr (n : Nat) (v : Mch) : (s.setMch n v).pwr = s.pwr := rfl
@[simp] theorem State.setMch_tmc (n : Nat) (v : Mch) : (s.setMch n v).tmc = s.tmc := rfl
@[simp] theorem State.setMch_warden (n : Nat) (v : Mch) : (s.setMch n v).warden = s.warden := rfl

/-! `State.setCtx` -/

@[simp] theorem State.setCtx_opts (r c : Nat) (v : Ctx) : (s.setCtx r c v).opts = s.opts := rfl
@[simp] theorem State.setCtx_fuses (r c : Nat) (v : Ctx) : (s.setCtx r c v).fuses = s.fuses := rfl
@[simp] theorem State.setCtx_pending (r c : Nat) (v : Ctx) : (s.setCtx r c v).pending = s.pending := rfl
@[simp] theorem State.setCtx_freeCtr (r c : Nat) (v : Ctx) : (s.setCtx r c v).freeCtr = s.freeCtr := rfl
@[simp] theorem State.setCtx_ao (r c : Nat) (v : Ctx) : (s.setCtx r c v).ao = s.ao := rfl
@[simp] theorem State.setCtx_rdata (r c : Nat) (v : Ctx) : (s.setCtx r c v).rdata = s.rdata := rfl
@[simp] theorem State.setCtx_outs (r c : Nat) (v : Ctx) : (s.setCtx r c v).outs = s.outs := rfl
@[simp] theorem State.setCtx_regs (r c : Nat) (v : Ctx) : (s.setCtx r c v).regs = s.regs := rfl
@[simp] theorem State.setCtx_cfgOpen (r c : Nat) (v : Ctx) : (s.setCtx r c v).cfgOpen = s.cfgOpen := rfl
@[simp] theorem State.setCtx_cfgDrain (r c : Nat) (v : Ctx) : (s.setCtx r c v).cfgDrain = s.cfgDrain := rfl
@[simp] theorem State.setCtx_cfgStaged (r c : Nat) (v : Ctx) : (s.setCtx r c v).cfgStaged = s.cfgStaged := rfl
@[simp] theorem State.setCtx_latches (r c : Nat) (v : Ctx) : (s.setCtx r c v).latches = s.latches := rfl
@[simp] theorem State.setCtx_halves (r c : Nat) (v : Ctx) : (s.setCtx r c v).halves = s.halves := rfl
@[simp] theorem State.setCtx_holdBuf (r c : Nat) (v : Ctx) : (s.setCtx r c v).holdBuf = s.holdBuf := rfl
@[simp] theorem State.setCtx_wmk (r c : Nat) (v : Ctx) : (s.setCtx r c v).wmk = s.wmk := rfl
@[simp] theorem State.setCtx_wins (r c : Nat) (v : Ctx) : (s.setCtx r c v).wins = s.wins := rfl
@[simp] theorem State.setCtx_waking (r c : Nat) (v : Ctx) : (s.setCtx r c v).waking = s.waking := rfl
@[simp] theorem State.setCtx_lastUse (r c : Nat) (v : Ctx) : (s.setCtx r c v).lastUse = s.lastUse := rfl
@[simp] theorem State.setCtx_openEpoch (r c : Nat) (v : Ctx) : (s.setCtx r c v).openEpoch = s.openEpoch := rfl
@[simp] theorem State.setCtx_drainEpoch (r c : Nat) (v : Ctx) : (s.setCtx r c v).drainEpoch = s.drainEpoch := rfl
@[simp] theorem State.setCtx_commitPending (r c : Nat) (v : Ctx) : (s.setCtx r c v).commitPending = s.commitPending := rfl
@[simp] theorem State.setCtx_slowRaised (r c : Nat) (v : Ctx) : (s.setCtx r c v).slowRaised = s.slowRaised := rfl
@[simp] theorem State.setCtx_rootChanged (r c : Nat) (v : Ctx) : (s.setCtx r c v).rootChanged = s.rootChanged := rfl
@[simp] theorem State.setCtx_dram (r c : Nat) (v : Ctx) : (s.setCtx r c v).dram = s.dram := rfl
@[simp] theorem State.setCtx_ports (r c : Nat) (v : Ctx) : (s.setCtx r c v).ports = s.ports := rfl
@[simp] theorem State.setCtx_reqs (r c : Nat) (v : Ctx) : (s.setCtx r c v).reqs = s.reqs := rfl
@[simp] theorem State.setCtx_nextId (r c : Nat) (v : Ctx) : (s.setCtx r c v).nextId = s.nextId := rfl
@[simp] theorem State.setCtx_nextOrder (r c : Nat) (v : Ctx) : (s.setCtx r c v).nextOrder = s.nextOrder := rfl
@[simp] theorem State.setCtx_shape (r c : Nat) (v : Ctx) : (s.setCtx r c v).shape = s.shape := rfl
@[simp] theorem State.setCtx_agents (r c : Nat) (v : Ctx) : (s.setCtx r c v).agents = s.agents := rfl
@[simp] theorem State.setCtx_dir (r c : Nat) (v : Ctx) : (s.setCtx r c v).dir = s.dir := rfl
@[simp] theorem State.setCtx_frames (r c : Nat) (v : Ctx) : (s.setCtx r c v).frames = s.frames := rfl
@[simp] theorem State.setCtx_trks (r c : Nat) (v : Ctx) : (s.setCtx r c v).trks = s.trks := rfl
@[simp] theorem State.setCtx_openTx (r c : Nat) (v : Ctx) : (s.setCtx r c v).openTx = s.openTx := rfl
@[simp] theorem State.setCtx_owed (r c : Nat) (v : Ctx) : (s.setCtx r c v).owed = s.owed := rfl
@[simp] theorem State.setCtx_fences (r c : Nat) (v : Ctx) : (s.setCtx r c v).fences = s.fences := rfl
@[simp] theorem State.setCtx_broken (r c : Nat) (v : Ctx) : (s.setCtx r c v).broken = s.broken := rfl
@[simp] theorem State.setCtx_scan (r c : Nat) (v : Ctx) : (s.setCtx r c v).scan = s.scan := rfl
@[simp] theorem State.setCtx_tc (r c : Nat) (v : Ctx) : (s.setCtx r c v).tc = s.tc := rfl
@[simp] theorem State.setCtx_wc (r c : Nat) (v : Ctx) : (s.setCtx r c v).wc = s.wc := rfl
@[simp] theorem State.setCtx_xsyncs (r c : Nat) (v : Ctx) : (s.setCtx r c v).xsyncs = s.xsyncs := rfl
@[simp] theorem State.setCtx_hpqHead (r c : Nat) (v : Ctx) : (s.setCtx r c v).hpqHead = s.hpqHead := rfl
@[simp] theorem State.setCtx_hpqTail (r c : Nat) (v : Ctx) : (s.setCtx r c v).hpqTail = s.hpqTail := rfl
@[simp] theorem State.setCtx_windowCount (r c : Nat) (v : Ctx) : (s.setCtx r c v).windowCount = s.windowCount := rfl
@[simp] theorem State.setCtx_moves (r c : Nat) (v : Ctx) : (s.setCtx r c v).moves = s.moves := rfl
@[simp] theorem State.setCtx_slots (r c : Nat) (v : Ctx) : (s.setCtx r c v).slots = s.slots := rfl
@[simp] theorem State.setCtx_rot (r c : Nat) (v : Ctx) : (s.setCtx r c v).rot = s.rot := rfl
@[simp] theorem State.setCtx_lastGen (r c : Nat) (v : Ctx) : (s.setCtx r c v).lastGen = s.lastGen := rfl
@[simp] theorem State.setCtx_tpk (r c : Nat) (v : Ctx) : (s.setCtx r c v).tpk = s.tpk := rfl
@[simp] theorem State.setCtx_queues (r c : Nat) (v : Ctx) : (s.setCtx r c v).queues = s.queues := rfl
@[simp] theorem State.setCtx_mchs (r c : Nat) (v : Ctx) : (s.setCtx r c v).mchs = s.mchs := rfl
@[simp] theorem State.setCtx_ras (r c : Nat) (v : Ctx) : (s.setCtx r c v).ras = s.ras := rfl
@[simp] theorem State.setCtx_rdl (r c : Nat) (v : Ctx) : (s.setCtx r c v).rdl = s.rdl := rfl
@[simp] theorem State.setCtx_planArea (r c : Nat) (v : Ctx) : (s.setCtx r c v).planArea = s.planArea := rfl
@[simp] theorem State.setCtx_served (r c : Nat) (v : Ctx) : (s.setCtx r c v).served = s.served := rfl
@[simp] theorem State.setCtx_bakes (r c : Nat) (v : Ctx) : (s.setCtx r c v).bakes = s.bakes := rfl
@[simp] theorem State.setCtx_plans (r c : Nat) (v : Ctx) : (s.setCtx r c v).plans = s.plans := rfl
@[simp] theorem State.setCtx_loads (r c : Nat) (v : Ctx) : (s.setCtx r c v).loads = s.loads := rfl
@[simp] theorem State.setCtx_lanes (r c : Nat) (v : Ctx) : (s.setCtx r c v).lanes = s.lanes := rfl
@[simp] theorem State.setCtx_evlog (r c : Nat) (v : Ctx) : (s.setCtx r c v).evlog = s.evlog := rfl
@[simp] theorem State.setCtx_twin (r c : Nat) (v : Ctx) : (s.setCtx r c v).twin = s.twin := rfl
@[simp] theorem State.setCtx_jobs (r c : Nat) (v : Ctx) : (s.setCtx r c v).jobs = s.jobs := rfl
@[simp] theorem State.setCtx_tally (r c : Nat) (v : Ctx) : (s.setCtx r c v).tally = s.tally := rfl
@[simp] theorem State.setCtx_meter (r c : Nat) (v : Ctx) : (s.setCtx r c v).meter = s.meter := rfl
@[simp] theorem State.setCtx_zm3 (r c : Nat) (v : Ctx) : (s.setCtx r c v).zm3 = s.zm3 := rfl
@[simp] theorem State.setCtx_pwr (r c : Nat) (v : Ctx) : (s.setCtx r c v).pwr = s.pwr := rfl
@[simp] theorem State.setCtx_tmc (r c : Nat) (v : Ctx) : (s.setCtx r c v).tmc = s.tmc := rfl
@[simp] theorem State.setCtx_warden (r c : Nat) (v : Ctx) : (s.setCtx r c v).warden = s.warden := rfl

/-! `State.updBake` -/

@[simp] theorem State.updBake_opts (b : Nat) (f : Bake → Bake) : (s.updBake b f).opts = s.opts := rfl
@[simp] theorem State.updBake_fuses (b : Nat) (f : Bake → Bake) : (s.updBake b f).fuses = s.fuses := rfl
@[simp] theorem State.updBake_pending (b : Nat) (f : Bake → Bake) : (s.updBake b f).pending = s.pending := rfl
@[simp] theorem State.updBake_freeCtr (b : Nat) (f : Bake → Bake) : (s.updBake b f).freeCtr = s.freeCtr := rfl
@[simp] theorem State.updBake_ao (b : Nat) (f : Bake → Bake) : (s.updBake b f).ao = s.ao := rfl
@[simp] theorem State.updBake_rdata (b : Nat) (f : Bake → Bake) : (s.updBake b f).rdata = s.rdata := rfl
@[simp] theorem State.updBake_outs (b : Nat) (f : Bake → Bake) : (s.updBake b f).outs = s.outs := rfl
@[simp] theorem State.updBake_regs (b : Nat) (f : Bake → Bake) : (s.updBake b f).regs = s.regs := rfl
@[simp] theorem State.updBake_cfgOpen (b : Nat) (f : Bake → Bake) : (s.updBake b f).cfgOpen = s.cfgOpen := rfl
@[simp] theorem State.updBake_cfgDrain (b : Nat) (f : Bake → Bake) : (s.updBake b f).cfgDrain = s.cfgDrain := rfl
@[simp] theorem State.updBake_cfgStaged (b : Nat) (f : Bake → Bake) : (s.updBake b f).cfgStaged = s.cfgStaged := rfl
@[simp] theorem State.updBake_latches (b : Nat) (f : Bake → Bake) : (s.updBake b f).latches = s.latches := rfl
@[simp] theorem State.updBake_halves (b : Nat) (f : Bake → Bake) : (s.updBake b f).halves = s.halves := rfl
@[simp] theorem State.updBake_holdBuf (b : Nat) (f : Bake → Bake) : (s.updBake b f).holdBuf = s.holdBuf := rfl
@[simp] theorem State.updBake_wmk (b : Nat) (f : Bake → Bake) : (s.updBake b f).wmk = s.wmk := rfl
@[simp] theorem State.updBake_wins (b : Nat) (f : Bake → Bake) : (s.updBake b f).wins = s.wins := rfl
@[simp] theorem State.updBake_waking (b : Nat) (f : Bake → Bake) : (s.updBake b f).waking = s.waking := rfl
@[simp] theorem State.updBake_lastUse (b : Nat) (f : Bake → Bake) : (s.updBake b f).lastUse = s.lastUse := rfl
@[simp] theorem State.updBake_openEpoch (b : Nat) (f : Bake → Bake) : (s.updBake b f).openEpoch = s.openEpoch := rfl
@[simp] theorem State.updBake_drainEpoch (b : Nat) (f : Bake → Bake) : (s.updBake b f).drainEpoch = s.drainEpoch := rfl
@[simp] theorem State.updBake_commitPending (b : Nat) (f : Bake → Bake) : (s.updBake b f).commitPending = s.commitPending := rfl
@[simp] theorem State.updBake_slowRaised (b : Nat) (f : Bake → Bake) : (s.updBake b f).slowRaised = s.slowRaised := rfl
@[simp] theorem State.updBake_rootChanged (b : Nat) (f : Bake → Bake) : (s.updBake b f).rootChanged = s.rootChanged := rfl
@[simp] theorem State.updBake_dram (b : Nat) (f : Bake → Bake) : (s.updBake b f).dram = s.dram := rfl
@[simp] theorem State.updBake_ports (b : Nat) (f : Bake → Bake) : (s.updBake b f).ports = s.ports := rfl
@[simp] theorem State.updBake_reqs (b : Nat) (f : Bake → Bake) : (s.updBake b f).reqs = s.reqs := rfl
@[simp] theorem State.updBake_nextId (b : Nat) (f : Bake → Bake) : (s.updBake b f).nextId = s.nextId := rfl
@[simp] theorem State.updBake_nextOrder (b : Nat) (f : Bake → Bake) : (s.updBake b f).nextOrder = s.nextOrder := rfl
@[simp] theorem State.updBake_shape (b : Nat) (f : Bake → Bake) : (s.updBake b f).shape = s.shape := rfl
@[simp] theorem State.updBake_agents (b : Nat) (f : Bake → Bake) : (s.updBake b f).agents = s.agents := rfl
@[simp] theorem State.updBake_dir (b : Nat) (f : Bake → Bake) : (s.updBake b f).dir = s.dir := rfl
@[simp] theorem State.updBake_frames (b : Nat) (f : Bake → Bake) : (s.updBake b f).frames = s.frames := rfl
@[simp] theorem State.updBake_trks (b : Nat) (f : Bake → Bake) : (s.updBake b f).trks = s.trks := rfl
@[simp] theorem State.updBake_openTx (b : Nat) (f : Bake → Bake) : (s.updBake b f).openTx = s.openTx := rfl
@[simp] theorem State.updBake_owed (b : Nat) (f : Bake → Bake) : (s.updBake b f).owed = s.owed := rfl
@[simp] theorem State.updBake_fences (b : Nat) (f : Bake → Bake) : (s.updBake b f).fences = s.fences := rfl
@[simp] theorem State.updBake_broken (b : Nat) (f : Bake → Bake) : (s.updBake b f).broken = s.broken := rfl
@[simp] theorem State.updBake_scan (b : Nat) (f : Bake → Bake) : (s.updBake b f).scan = s.scan := rfl
@[simp] theorem State.updBake_tc (b : Nat) (f : Bake → Bake) : (s.updBake b f).tc = s.tc := rfl
@[simp] theorem State.updBake_wc (b : Nat) (f : Bake → Bake) : (s.updBake b f).wc = s.wc := rfl
@[simp] theorem State.updBake_xsyncs (b : Nat) (f : Bake → Bake) : (s.updBake b f).xsyncs = s.xsyncs := rfl
@[simp] theorem State.updBake_hpqHead (b : Nat) (f : Bake → Bake) : (s.updBake b f).hpqHead = s.hpqHead := rfl
@[simp] theorem State.updBake_hpqTail (b : Nat) (f : Bake → Bake) : (s.updBake b f).hpqTail = s.hpqTail := rfl
@[simp] theorem State.updBake_windowCount (b : Nat) (f : Bake → Bake) : (s.updBake b f).windowCount = s.windowCount := rfl
@[simp] theorem State.updBake_moves (b : Nat) (f : Bake → Bake) : (s.updBake b f).moves = s.moves := rfl
@[simp] theorem State.updBake_slots (b : Nat) (f : Bake → Bake) : (s.updBake b f).slots = s.slots := rfl
@[simp] theorem State.updBake_rot (b : Nat) (f : Bake → Bake) : (s.updBake b f).rot = s.rot := rfl
@[simp] theorem State.updBake_lastGen (b : Nat) (f : Bake → Bake) : (s.updBake b f).lastGen = s.lastGen := rfl
@[simp] theorem State.updBake_tpk (b : Nat) (f : Bake → Bake) : (s.updBake b f).tpk = s.tpk := rfl
@[simp] theorem State.updBake_queues (b : Nat) (f : Bake → Bake) : (s.updBake b f).queues = s.queues := rfl
@[simp] theorem State.updBake_mchs (b : Nat) (f : Bake → Bake) : (s.updBake b f).mchs = s.mchs := rfl
@[simp] theorem State.updBake_ras (b : Nat) (f : Bake → Bake) : (s.updBake b f).ras = s.ras := rfl
@[simp] theorem State.updBake_rdl (b : Nat) (f : Bake → Bake) : (s.updBake b f).rdl = s.rdl := rfl
@[simp] theorem State.updBake_planArea (b : Nat) (f : Bake → Bake) : (s.updBake b f).planArea = s.planArea := rfl
@[simp] theorem State.updBake_ctxs (b : Nat) (f : Bake → Bake) : (s.updBake b f).ctxs = s.ctxs := rfl
@[simp] theorem State.updBake_served (b : Nat) (f : Bake → Bake) : (s.updBake b f).served = s.served := rfl
@[simp] theorem State.updBake_plans (b : Nat) (f : Bake → Bake) : (s.updBake b f).plans = s.plans := rfl
@[simp] theorem State.updBake_loads (b : Nat) (f : Bake → Bake) : (s.updBake b f).loads = s.loads := rfl
@[simp] theorem State.updBake_lanes (b : Nat) (f : Bake → Bake) : (s.updBake b f).lanes = s.lanes := rfl
@[simp] theorem State.updBake_evlog (b : Nat) (f : Bake → Bake) : (s.updBake b f).evlog = s.evlog := rfl
@[simp] theorem State.updBake_twin (b : Nat) (f : Bake → Bake) : (s.updBake b f).twin = s.twin := rfl
@[simp] theorem State.updBake_jobs (b : Nat) (f : Bake → Bake) : (s.updBake b f).jobs = s.jobs := rfl
@[simp] theorem State.updBake_tally (b : Nat) (f : Bake → Bake) : (s.updBake b f).tally = s.tally := rfl
@[simp] theorem State.updBake_meter (b : Nat) (f : Bake → Bake) : (s.updBake b f).meter = s.meter := rfl
@[simp] theorem State.updBake_zm3 (b : Nat) (f : Bake → Bake) : (s.updBake b f).zm3 = s.zm3 := rfl
@[simp] theorem State.updBake_pwr (b : Nat) (f : Bake → Bake) : (s.updBake b f).pwr = s.pwr := rfl
@[simp] theorem State.updBake_tmc (b : Nat) (f : Bake → Bake) : (s.updBake b f).tmc = s.tmc := rfl
@[simp] theorem State.updBake_warden (b : Nat) (f : Bake → Bake) : (s.updBake b f).warden = s.warden := rfl

/-! `State.setLane` -/

@[simp] theorem State.setLane_opts (n : Nat) (l : List LaneJob) : (s.setLane n l).opts = s.opts := rfl
@[simp] theorem State.setLane_fuses (n : Nat) (l : List LaneJob) : (s.setLane n l).fuses = s.fuses := rfl
@[simp] theorem State.setLane_pending (n : Nat) (l : List LaneJob) : (s.setLane n l).pending = s.pending := rfl
@[simp] theorem State.setLane_freeCtr (n : Nat) (l : List LaneJob) : (s.setLane n l).freeCtr = s.freeCtr := rfl
@[simp] theorem State.setLane_ao (n : Nat) (l : List LaneJob) : (s.setLane n l).ao = s.ao := rfl
@[simp] theorem State.setLane_rdata (n : Nat) (l : List LaneJob) : (s.setLane n l).rdata = s.rdata := rfl
@[simp] theorem State.setLane_outs (n : Nat) (l : List LaneJob) : (s.setLane n l).outs = s.outs := rfl
@[simp] theorem State.setLane_regs (n : Nat) (l : List LaneJob) : (s.setLane n l).regs = s.regs := rfl
@[simp] theorem State.setLane_cfgOpen (n : Nat) (l : List LaneJob) : (s.setLane n l).cfgOpen = s.cfgOpen := rfl
@[simp] theorem State.setLane_cfgDrain (n : Nat) (l : List LaneJob) : (s.setLane n l).cfgDrain = s.cfgDrain := rfl
@[simp] theorem State.setLane_cfgStaged (n : Nat) (l : List LaneJob) : (s.setLane n l).cfgStaged = s.cfgStaged := rfl
@[simp] theorem State.setLane_latches (n : Nat) (l : List LaneJob) : (s.setLane n l).latches = s.latches := rfl
@[simp] theorem State.setLane_halves (n : Nat) (l : List LaneJob) : (s.setLane n l).halves = s.halves := rfl
@[simp] theorem State.setLane_holdBuf (n : Nat) (l : List LaneJob) : (s.setLane n l).holdBuf = s.holdBuf := rfl
@[simp] theorem State.setLane_wmk (n : Nat) (l : List LaneJob) : (s.setLane n l).wmk = s.wmk := rfl
@[simp] theorem State.setLane_wins (n : Nat) (l : List LaneJob) : (s.setLane n l).wins = s.wins := rfl
@[simp] theorem State.setLane_waking (n : Nat) (l : List LaneJob) : (s.setLane n l).waking = s.waking := rfl
@[simp] theorem State.setLane_lastUse (n : Nat) (l : List LaneJob) : (s.setLane n l).lastUse = s.lastUse := rfl
@[simp] theorem State.setLane_openEpoch (n : Nat) (l : List LaneJob) : (s.setLane n l).openEpoch = s.openEpoch := rfl
@[simp] theorem State.setLane_drainEpoch (n : Nat) (l : List LaneJob) : (s.setLane n l).drainEpoch = s.drainEpoch := rfl
@[simp] theorem State.setLane_commitPending (n : Nat) (l : List LaneJob) : (s.setLane n l).commitPending = s.commitPending := rfl
@[simp] theorem State.setLane_slowRaised (n : Nat) (l : List LaneJob) : (s.setLane n l).slowRaised = s.slowRaised := rfl
@[simp] theorem State.setLane_rootChanged (n : Nat) (l : List LaneJob) : (s.setLane n l).rootChanged = s.rootChanged := rfl
@[simp] theorem State.setLane_dram (n : Nat) (l : List LaneJob) : (s.setLane n l).dram = s.dram := rfl
@[simp] theorem State.setLane_ports (n : Nat) (l : List LaneJob) : (s.setLane n l).ports = s.ports := rfl
@[simp] theorem State.setLane_reqs (n : Nat) (l : List LaneJob) : (s.setLane n l).reqs = s.reqs := rfl
@[simp] theorem State.setLane_nextId (n : Nat) (l : List LaneJob) : (s.setLane n l).nextId = s.nextId := rfl
@[simp] theorem State.setLane_nextOrder (n : Nat) (l : List LaneJob) : (s.setLane n l).nextOrder = s.nextOrder := rfl
@[simp] theorem State.setLane_shape (n : Nat) (l : List LaneJob) : (s.setLane n l).shape = s.shape := rfl
@[simp] theorem State.setLane_agents (n : Nat) (l : List LaneJob) : (s.setLane n l).agents = s.agents := rfl
@[simp] theorem State.setLane_dir (n : Nat) (l : List LaneJob) : (s.setLane n l).dir = s.dir := rfl
@[simp] theorem State.setLane_frames (n : Nat) (l : List LaneJob) : (s.setLane n l).frames = s.frames := rfl
@[simp] theorem State.setLane_trks (n : Nat) (l : List LaneJob) : (s.setLane n l).trks = s.trks := rfl
@[simp] theorem State.setLane_openTx (n : Nat) (l : List LaneJob) : (s.setLane n l).openTx = s.openTx := rfl
@[simp] theorem State.setLane_owed (n : Nat) (l : List LaneJob) : (s.setLane n l).owed = s.owed := rfl
@[simp] theorem State.setLane_fences (n : Nat) (l : List LaneJob) : (s.setLane n l).fences = s.fences := rfl
@[simp] theorem State.setLane_broken (n : Nat) (l : List LaneJob) : (s.setLane n l).broken = s.broken := rfl
@[simp] theorem State.setLane_scan (n : Nat) (l : List LaneJob) : (s.setLane n l).scan = s.scan := rfl
@[simp] theorem State.setLane_tc (n : Nat) (l : List LaneJob) : (s.setLane n l).tc = s.tc := rfl
@[simp] theorem State.setLane_wc (n : Nat) (l : List LaneJob) : (s.setLane n l).wc = s.wc := rfl
@[simp] theorem State.setLane_xsyncs (n : Nat) (l : List LaneJob) : (s.setLane n l).xsyncs = s.xsyncs := rfl
@[simp] theorem State.setLane_hpqHead (n : Nat) (l : List LaneJob) : (s.setLane n l).hpqHead = s.hpqHead := rfl
@[simp] theorem State.setLane_hpqTail (n : Nat) (l : List LaneJob) : (s.setLane n l).hpqTail = s.hpqTail := rfl
@[simp] theorem State.setLane_windowCount (n : Nat) (l : List LaneJob) : (s.setLane n l).windowCount = s.windowCount := rfl
@[simp] theorem State.setLane_moves (n : Nat) (l : List LaneJob) : (s.setLane n l).moves = s.moves := rfl
@[simp] theorem State.setLane_slots (n : Nat) (l : List LaneJob) : (s.setLane n l).slots = s.slots := rfl
@[simp] theorem State.setLane_rot (n : Nat) (l : List LaneJob) : (s.setLane n l).rot = s.rot := rfl
@[simp] theorem State.setLane_lastGen (n : Nat) (l : List LaneJob) : (s.setLane n l).lastGen = s.lastGen := rfl
@[simp] theorem State.setLane_tpk (n : Nat) (l : List LaneJob) : (s.setLane n l).tpk = s.tpk := rfl
@[simp] theorem State.setLane_queues (n : Nat) (l : List LaneJob) : (s.setLane n l).queues = s.queues := rfl
@[simp] theorem State.setLane_mchs (n : Nat) (l : List LaneJob) : (s.setLane n l).mchs = s.mchs := rfl
@[simp] theorem State.setLane_ras (n : Nat) (l : List LaneJob) : (s.setLane n l).ras = s.ras := rfl
@[simp] theorem State.setLane_rdl (n : Nat) (l : List LaneJob) : (s.setLane n l).rdl = s.rdl := rfl
@[simp] theorem State.setLane_planArea (n : Nat) (l : List LaneJob) : (s.setLane n l).planArea = s.planArea := rfl
@[simp] theorem State.setLane_ctxs (n : Nat) (l : List LaneJob) : (s.setLane n l).ctxs = s.ctxs := rfl
@[simp] theorem State.setLane_served (n : Nat) (l : List LaneJob) : (s.setLane n l).served = s.served := rfl
@[simp] theorem State.setLane_bakes (n : Nat) (l : List LaneJob) : (s.setLane n l).bakes = s.bakes := rfl
@[simp] theorem State.setLane_plans (n : Nat) (l : List LaneJob) : (s.setLane n l).plans = s.plans := rfl
@[simp] theorem State.setLane_loads (n : Nat) (l : List LaneJob) : (s.setLane n l).loads = s.loads := rfl
@[simp] theorem State.setLane_evlog (n : Nat) (l : List LaneJob) : (s.setLane n l).evlog = s.evlog := rfl
@[simp] theorem State.setLane_twin (n : Nat) (l : List LaneJob) : (s.setLane n l).twin = s.twin := rfl
@[simp] theorem State.setLane_jobs (n : Nat) (l : List LaneJob) : (s.setLane n l).jobs = s.jobs := rfl
@[simp] theorem State.setLane_tally (n : Nat) (l : List LaneJob) : (s.setLane n l).tally = s.tally := rfl
@[simp] theorem State.setLane_meter (n : Nat) (l : List LaneJob) : (s.setLane n l).meter = s.meter := rfl
@[simp] theorem State.setLane_zm3 (n : Nat) (l : List LaneJob) : (s.setLane n l).zm3 = s.zm3 := rfl
@[simp] theorem State.setLane_pwr (n : Nat) (l : List LaneJob) : (s.setLane n l).pwr = s.pwr := rfl
@[simp] theorem State.setLane_tmc (n : Nat) (l : List LaneJob) : (s.setLane n l).tmc = s.tmc := rfl
@[simp] theorem State.setLane_warden (n : Nat) (l : List LaneJob) : (s.setLane n l).warden = s.warden := rfl

/-! `State.setAgent` -/

@[simp] theorem State.setAgent_opts (a : Nat) (v : Agent) : (s.setAgent a v).opts = s.opts := rfl
@[simp] theorem State.setAgent_fuses (a : Nat) (v : Agent) : (s.setAgent a v).fuses = s.fuses := rfl
@[simp] theorem State.setAgent_pending (a : Nat) (v : Agent) : (s.setAgent a v).pending = s.pending := rfl
@[simp] theorem State.setAgent_freeCtr (a : Nat) (v : Agent) : (s.setAgent a v).freeCtr = s.freeCtr := rfl
@[simp] theorem State.setAgent_ao (a : Nat) (v : Agent) : (s.setAgent a v).ao = s.ao := rfl
@[simp] theorem State.setAgent_rdata (a : Nat) (v : Agent) : (s.setAgent a v).rdata = s.rdata := rfl
@[simp] theorem State.setAgent_outs (a : Nat) (v : Agent) : (s.setAgent a v).outs = s.outs := rfl
@[simp] theorem State.setAgent_regs (a : Nat) (v : Agent) : (s.setAgent a v).regs = s.regs := rfl
@[simp] theorem State.setAgent_cfgOpen (a : Nat) (v : Agent) : (s.setAgent a v).cfgOpen = s.cfgOpen := rfl
@[simp] theorem State.setAgent_cfgDrain (a : Nat) (v : Agent) : (s.setAgent a v).cfgDrain = s.cfgDrain := rfl
@[simp] theorem State.setAgent_cfgStaged (a : Nat) (v : Agent) : (s.setAgent a v).cfgStaged = s.cfgStaged := rfl
@[simp] theorem State.setAgent_latches (a : Nat) (v : Agent) : (s.setAgent a v).latches = s.latches := rfl
@[simp] theorem State.setAgent_halves (a : Nat) (v : Agent) : (s.setAgent a v).halves = s.halves := rfl
@[simp] theorem State.setAgent_holdBuf (a : Nat) (v : Agent) : (s.setAgent a v).holdBuf = s.holdBuf := rfl
@[simp] theorem State.setAgent_wmk (a : Nat) (v : Agent) : (s.setAgent a v).wmk = s.wmk := rfl
@[simp] theorem State.setAgent_wins (a : Nat) (v : Agent) : (s.setAgent a v).wins = s.wins := rfl
@[simp] theorem State.setAgent_waking (a : Nat) (v : Agent) : (s.setAgent a v).waking = s.waking := rfl
@[simp] theorem State.setAgent_lastUse (a : Nat) (v : Agent) : (s.setAgent a v).lastUse = s.lastUse := rfl
@[simp] theorem State.setAgent_openEpoch (a : Nat) (v : Agent) : (s.setAgent a v).openEpoch = s.openEpoch := rfl
@[simp] theorem State.setAgent_drainEpoch (a : Nat) (v : Agent) : (s.setAgent a v).drainEpoch = s.drainEpoch := rfl
@[simp] theorem State.setAgent_commitPending (a : Nat) (v : Agent) : (s.setAgent a v).commitPending = s.commitPending := rfl
@[simp] theorem State.setAgent_slowRaised (a : Nat) (v : Agent) : (s.setAgent a v).slowRaised = s.slowRaised := rfl
@[simp] theorem State.setAgent_rootChanged (a : Nat) (v : Agent) : (s.setAgent a v).rootChanged = s.rootChanged := rfl
@[simp] theorem State.setAgent_dram (a : Nat) (v : Agent) : (s.setAgent a v).dram = s.dram := rfl
@[simp] theorem State.setAgent_ports (a : Nat) (v : Agent) : (s.setAgent a v).ports = s.ports := rfl
@[simp] theorem State.setAgent_reqs (a : Nat) (v : Agent) : (s.setAgent a v).reqs = s.reqs := rfl
@[simp] theorem State.setAgent_nextId (a : Nat) (v : Agent) : (s.setAgent a v).nextId = s.nextId := rfl
@[simp] theorem State.setAgent_nextOrder (a : Nat) (v : Agent) : (s.setAgent a v).nextOrder = s.nextOrder := rfl
@[simp] theorem State.setAgent_shape (a : Nat) (v : Agent) : (s.setAgent a v).shape = s.shape := rfl
@[simp] theorem State.setAgent_dir (a : Nat) (v : Agent) : (s.setAgent a v).dir = s.dir := rfl
@[simp] theorem State.setAgent_frames (a : Nat) (v : Agent) : (s.setAgent a v).frames = s.frames := rfl
@[simp] theorem State.setAgent_trks (a : Nat) (v : Agent) : (s.setAgent a v).trks = s.trks := rfl
@[simp] theorem State.setAgent_openTx (a : Nat) (v : Agent) : (s.setAgent a v).openTx = s.openTx := rfl
@[simp] theorem State.setAgent_owed (a : Nat) (v : Agent) : (s.setAgent a v).owed = s.owed := rfl
@[simp] theorem State.setAgent_fences (a : Nat) (v : Agent) : (s.setAgent a v).fences = s.fences := rfl
@[simp] theorem State.setAgent_broken (a : Nat) (v : Agent) : (s.setAgent a v).broken = s.broken := rfl
@[simp] theorem State.setAgent_scan (a : Nat) (v : Agent) : (s.setAgent a v).scan = s.scan := rfl
@[simp] theorem State.setAgent_tc (a : Nat) (v : Agent) : (s.setAgent a v).tc = s.tc := rfl
@[simp] theorem State.setAgent_wc (a : Nat) (v : Agent) : (s.setAgent a v).wc = s.wc := rfl
@[simp] theorem State.setAgent_xsyncs (a : Nat) (v : Agent) : (s.setAgent a v).xsyncs = s.xsyncs := rfl
@[simp] theorem State.setAgent_hpqHead (a : Nat) (v : Agent) : (s.setAgent a v).hpqHead = s.hpqHead := rfl
@[simp] theorem State.setAgent_hpqTail (a : Nat) (v : Agent) : (s.setAgent a v).hpqTail = s.hpqTail := rfl
@[simp] theorem State.setAgent_windowCount (a : Nat) (v : Agent) : (s.setAgent a v).windowCount = s.windowCount := rfl
@[simp] theorem State.setAgent_moves (a : Nat) (v : Agent) : (s.setAgent a v).moves = s.moves := rfl
@[simp] theorem State.setAgent_slots (a : Nat) (v : Agent) : (s.setAgent a v).slots = s.slots := rfl
@[simp] theorem State.setAgent_rot (a : Nat) (v : Agent) : (s.setAgent a v).rot = s.rot := rfl
@[simp] theorem State.setAgent_lastGen (a : Nat) (v : Agent) : (s.setAgent a v).lastGen = s.lastGen := rfl
@[simp] theorem State.setAgent_tpk (a : Nat) (v : Agent) : (s.setAgent a v).tpk = s.tpk := rfl
@[simp] theorem State.setAgent_queues (a : Nat) (v : Agent) : (s.setAgent a v).queues = s.queues := rfl
@[simp] theorem State.setAgent_mchs (a : Nat) (v : Agent) : (s.setAgent a v).mchs = s.mchs := rfl
@[simp] theorem State.setAgent_ras (a : Nat) (v : Agent) : (s.setAgent a v).ras = s.ras := rfl
@[simp] theorem State.setAgent_rdl (a : Nat) (v : Agent) : (s.setAgent a v).rdl = s.rdl := rfl
@[simp] theorem State.setAgent_planArea (a : Nat) (v : Agent) : (s.setAgent a v).planArea = s.planArea := rfl
@[simp] theorem State.setAgent_ctxs (a : Nat) (v : Agent) : (s.setAgent a v).ctxs = s.ctxs := rfl
@[simp] theorem State.setAgent_served (a : Nat) (v : Agent) : (s.setAgent a v).served = s.served := rfl
@[simp] theorem State.setAgent_bakes (a : Nat) (v : Agent) : (s.setAgent a v).bakes = s.bakes := rfl
@[simp] theorem State.setAgent_plans (a : Nat) (v : Agent) : (s.setAgent a v).plans = s.plans := rfl
@[simp] theorem State.setAgent_loads (a : Nat) (v : Agent) : (s.setAgent a v).loads = s.loads := rfl
@[simp] theorem State.setAgent_lanes (a : Nat) (v : Agent) : (s.setAgent a v).lanes = s.lanes := rfl
@[simp] theorem State.setAgent_evlog (a : Nat) (v : Agent) : (s.setAgent a v).evlog = s.evlog := rfl
@[simp] theorem State.setAgent_twin (a : Nat) (v : Agent) : (s.setAgent a v).twin = s.twin := rfl
@[simp] theorem State.setAgent_jobs (a : Nat) (v : Agent) : (s.setAgent a v).jobs = s.jobs := rfl
@[simp] theorem State.setAgent_tally (a : Nat) (v : Agent) : (s.setAgent a v).tally = s.tally := rfl
@[simp] theorem State.setAgent_meter (a : Nat) (v : Agent) : (s.setAgent a v).meter = s.meter := rfl
@[simp] theorem State.setAgent_zm3 (a : Nat) (v : Agent) : (s.setAgent a v).zm3 = s.zm3 := rfl
@[simp] theorem State.setAgent_pwr (a : Nat) (v : Agent) : (s.setAgent a v).pwr = s.pwr := rfl
@[simp] theorem State.setAgent_tmc (a : Nat) (v : Agent) : (s.setAgent a v).tmc = s.tmc := rfl
@[simp] theorem State.setAgent_warden (a : Nat) (v : Agent) : (s.setAgent a v).warden = s.warden := rfl

/-! `State.openLine` -/

@[simp] theorem State.openLine_opts (l r : Nat) : (s.openLine l r).opts = s.opts := rfl
@[simp] theorem State.openLine_fuses (l r : Nat) : (s.openLine l r).fuses = s.fuses := rfl
@[simp] theorem State.openLine_pending (l r : Nat) : (s.openLine l r).pending = s.pending := rfl
@[simp] theorem State.openLine_freeCtr (l r : Nat) : (s.openLine l r).freeCtr = s.freeCtr := rfl
@[simp] theorem State.openLine_ao (l r : Nat) : (s.openLine l r).ao = s.ao := rfl
@[simp] theorem State.openLine_rdata (l r : Nat) : (s.openLine l r).rdata = s.rdata := rfl
@[simp] theorem State.openLine_outs (l r : Nat) : (s.openLine l r).outs = s.outs := rfl
@[simp] theorem State.openLine_regs (l r : Nat) : (s.openLine l r).regs = s.regs := rfl
@[simp] theorem State.openLine_cfgOpen (l r : Nat) : (s.openLine l r).cfgOpen = s.cfgOpen := rfl
@[simp] theorem State.openLine_cfgDrain (l r : Nat) : (s.openLine l r).cfgDrain = s.cfgDrain := rfl
@[simp] theorem State.openLine_cfgStaged (l r : Nat) : (s.openLine l r).cfgStaged = s.cfgStaged := rfl
@[simp] theorem State.openLine_latches (l r : Nat) : (s.openLine l r).latches = s.latches := rfl
@[simp] theorem State.openLine_halves (l r : Nat) : (s.openLine l r).halves = s.halves := rfl
@[simp] theorem State.openLine_holdBuf (l r : Nat) : (s.openLine l r).holdBuf = s.holdBuf := rfl
@[simp] theorem State.openLine_wmk (l r : Nat) : (s.openLine l r).wmk = s.wmk := rfl
@[simp] theorem State.openLine_wins (l r : Nat) : (s.openLine l r).wins = s.wins := rfl
@[simp] theorem State.openLine_waking (l r : Nat) : (s.openLine l r).waking = s.waking := rfl
@[simp] theorem State.openLine_lastUse (l r : Nat) : (s.openLine l r).lastUse = s.lastUse := rfl
@[simp] theorem State.openLine_openEpoch (l r : Nat) : (s.openLine l r).openEpoch = s.openEpoch := rfl
@[simp] theorem State.openLine_drainEpoch (l r : Nat) : (s.openLine l r).drainEpoch = s.drainEpoch := rfl
@[simp] theorem State.openLine_commitPending (l r : Nat) : (s.openLine l r).commitPending = s.commitPending := rfl
@[simp] theorem State.openLine_slowRaised (l r : Nat) : (s.openLine l r).slowRaised = s.slowRaised := rfl
@[simp] theorem State.openLine_rootChanged (l r : Nat) : (s.openLine l r).rootChanged = s.rootChanged := rfl
@[simp] theorem State.openLine_dram (l r : Nat) : (s.openLine l r).dram = s.dram := rfl
@[simp] theorem State.openLine_ports (l r : Nat) : (s.openLine l r).ports = s.ports := rfl
@[simp] theorem State.openLine_reqs (l r : Nat) : (s.openLine l r).reqs = s.reqs := rfl
@[simp] theorem State.openLine_nextId (l r : Nat) : (s.openLine l r).nextId = s.nextId := rfl
@[simp] theorem State.openLine_nextOrder (l r : Nat) : (s.openLine l r).nextOrder = s.nextOrder := rfl
@[simp] theorem State.openLine_shape (l r : Nat) : (s.openLine l r).shape = s.shape := rfl
@[simp] theorem State.openLine_agents (l r : Nat) : (s.openLine l r).agents = s.agents := rfl
@[simp] theorem State.openLine_dir (l r : Nat) : (s.openLine l r).dir = s.dir := rfl
@[simp] theorem State.openLine_frames (l r : Nat) : (s.openLine l r).frames = s.frames := rfl
@[simp] theorem State.openLine_trks (l r : Nat) : (s.openLine l r).trks = s.trks := rfl
@[simp] theorem State.openLine_owed (l r : Nat) : (s.openLine l r).owed = s.owed := rfl
@[simp] theorem State.openLine_fences (l r : Nat) : (s.openLine l r).fences = s.fences := rfl
@[simp] theorem State.openLine_broken (l r : Nat) : (s.openLine l r).broken = s.broken := rfl
@[simp] theorem State.openLine_scan (l r : Nat) : (s.openLine l r).scan = s.scan := rfl
@[simp] theorem State.openLine_tc (l r : Nat) : (s.openLine l r).tc = s.tc := rfl
@[simp] theorem State.openLine_wc (l r : Nat) : (s.openLine l r).wc = s.wc := rfl
@[simp] theorem State.openLine_xsyncs (l r : Nat) : (s.openLine l r).xsyncs = s.xsyncs := rfl
@[simp] theorem State.openLine_hpqHead (l r : Nat) : (s.openLine l r).hpqHead = s.hpqHead := rfl
@[simp] theorem State.openLine_hpqTail (l r : Nat) : (s.openLine l r).hpqTail = s.hpqTail := rfl
@[simp] theorem State.openLine_windowCount (l r : Nat) : (s.openLine l r).windowCount = s.windowCount := rfl
@[simp] theorem State.openLine_moves (l r : Nat) : (s.openLine l r).moves = s.moves := rfl
@[simp] theorem State.openLine_slots (l r : Nat) : (s.openLine l r).slots = s.slots := rfl
@[simp] theorem State.openLine_rot (l r : Nat) : (s.openLine l r).rot = s.rot := rfl
@[simp] theorem State.openLine_lastGen (l r : Nat) : (s.openLine l r).lastGen = s.lastGen := rfl
@[simp] theorem State.openLine_tpk (l r : Nat) : (s.openLine l r).tpk = s.tpk := rfl
@[simp] theorem State.openLine_queues (l r : Nat) : (s.openLine l r).queues = s.queues := rfl
@[simp] theorem State.openLine_mchs (l r : Nat) : (s.openLine l r).mchs = s.mchs := rfl
@[simp] theorem State.openLine_ras (l r : Nat) : (s.openLine l r).ras = s.ras := rfl
@[simp] theorem State.openLine_rdl (l r : Nat) : (s.openLine l r).rdl = s.rdl := rfl
@[simp] theorem State.openLine_planArea (l r : Nat) : (s.openLine l r).planArea = s.planArea := rfl
@[simp] theorem State.openLine_ctxs (l r : Nat) : (s.openLine l r).ctxs = s.ctxs := rfl
@[simp] theorem State.openLine_served (l r : Nat) : (s.openLine l r).served = s.served := rfl
@[simp] theorem State.openLine_bakes (l r : Nat) : (s.openLine l r).bakes = s.bakes := rfl
@[simp] theorem State.openLine_plans (l r : Nat) : (s.openLine l r).plans = s.plans := rfl
@[simp] theorem State.openLine_loads (l r : Nat) : (s.openLine l r).loads = s.loads := rfl
@[simp] theorem State.openLine_lanes (l r : Nat) : (s.openLine l r).lanes = s.lanes := rfl
@[simp] theorem State.openLine_evlog (l r : Nat) : (s.openLine l r).evlog = s.evlog := rfl
@[simp] theorem State.openLine_twin (l r : Nat) : (s.openLine l r).twin = s.twin := rfl
@[simp] theorem State.openLine_jobs (l r : Nat) : (s.openLine l r).jobs = s.jobs := rfl
@[simp] theorem State.openLine_tally (l r : Nat) : (s.openLine l r).tally = s.tally := rfl
@[simp] theorem State.openLine_meter (l r : Nat) : (s.openLine l r).meter = s.meter := rfl
@[simp] theorem State.openLine_zm3 (l r : Nat) : (s.openLine l r).zm3 = s.zm3 := rfl
@[simp] theorem State.openLine_pwr (l r : Nat) : (s.openLine l r).pwr = s.pwr := rfl
@[simp] theorem State.openLine_tmc (l r : Nat) : (s.openLine l r).tmc = s.tmc := rfl
@[simp] theorem State.openLine_warden (l r : Nat) : (s.openLine l r).warden = s.warden := rfl

/-! `State.closeLine` -/

@[simp] theorem State.closeLine_opts (l : Nat) : (s.closeLine l).opts = s.opts := rfl
@[simp] theorem State.closeLine_fuses (l : Nat) : (s.closeLine l).fuses = s.fuses := rfl
@[simp] theorem State.closeLine_pending (l : Nat) : (s.closeLine l).pending = s.pending := rfl
@[simp] theorem State.closeLine_freeCtr (l : Nat) : (s.closeLine l).freeCtr = s.freeCtr := rfl
@[simp] theorem State.closeLine_ao (l : Nat) : (s.closeLine l).ao = s.ao := rfl
@[simp] theorem State.closeLine_rdata (l : Nat) : (s.closeLine l).rdata = s.rdata := rfl
@[simp] theorem State.closeLine_outs (l : Nat) : (s.closeLine l).outs = s.outs := rfl
@[simp] theorem State.closeLine_regs (l : Nat) : (s.closeLine l).regs = s.regs := rfl
@[simp] theorem State.closeLine_cfgOpen (l : Nat) : (s.closeLine l).cfgOpen = s.cfgOpen := rfl
@[simp] theorem State.closeLine_cfgDrain (l : Nat) : (s.closeLine l).cfgDrain = s.cfgDrain := rfl
@[simp] theorem State.closeLine_cfgStaged (l : Nat) : (s.closeLine l).cfgStaged = s.cfgStaged := rfl
@[simp] theorem State.closeLine_latches (l : Nat) : (s.closeLine l).latches = s.latches := rfl
@[simp] theorem State.closeLine_halves (l : Nat) : (s.closeLine l).halves = s.halves := rfl
@[simp] theorem State.closeLine_holdBuf (l : Nat) : (s.closeLine l).holdBuf = s.holdBuf := rfl
@[simp] theorem State.closeLine_wmk (l : Nat) : (s.closeLine l).wmk = s.wmk := rfl
@[simp] theorem State.closeLine_wins (l : Nat) : (s.closeLine l).wins = s.wins := rfl
@[simp] theorem State.closeLine_waking (l : Nat) : (s.closeLine l).waking = s.waking := rfl
@[simp] theorem State.closeLine_lastUse (l : Nat) : (s.closeLine l).lastUse = s.lastUse := rfl
@[simp] theorem State.closeLine_openEpoch (l : Nat) : (s.closeLine l).openEpoch = s.openEpoch := rfl
@[simp] theorem State.closeLine_drainEpoch (l : Nat) : (s.closeLine l).drainEpoch = s.drainEpoch := rfl
@[simp] theorem State.closeLine_commitPending (l : Nat) : (s.closeLine l).commitPending = s.commitPending := rfl
@[simp] theorem State.closeLine_slowRaised (l : Nat) : (s.closeLine l).slowRaised = s.slowRaised := rfl
@[simp] theorem State.closeLine_rootChanged (l : Nat) : (s.closeLine l).rootChanged = s.rootChanged := rfl
@[simp] theorem State.closeLine_dram (l : Nat) : (s.closeLine l).dram = s.dram := rfl
@[simp] theorem State.closeLine_ports (l : Nat) : (s.closeLine l).ports = s.ports := rfl
@[simp] theorem State.closeLine_reqs (l : Nat) : (s.closeLine l).reqs = s.reqs := rfl
@[simp] theorem State.closeLine_nextId (l : Nat) : (s.closeLine l).nextId = s.nextId := rfl
@[simp] theorem State.closeLine_nextOrder (l : Nat) : (s.closeLine l).nextOrder = s.nextOrder := rfl
@[simp] theorem State.closeLine_shape (l : Nat) : (s.closeLine l).shape = s.shape := rfl
@[simp] theorem State.closeLine_agents (l : Nat) : (s.closeLine l).agents = s.agents := rfl
@[simp] theorem State.closeLine_dir (l : Nat) : (s.closeLine l).dir = s.dir := rfl
@[simp] theorem State.closeLine_frames (l : Nat) : (s.closeLine l).frames = s.frames := rfl
@[simp] theorem State.closeLine_trks (l : Nat) : (s.closeLine l).trks = s.trks := rfl
@[simp] theorem State.closeLine_owed (l : Nat) : (s.closeLine l).owed = s.owed := rfl
@[simp] theorem State.closeLine_fences (l : Nat) : (s.closeLine l).fences = s.fences := rfl
@[simp] theorem State.closeLine_broken (l : Nat) : (s.closeLine l).broken = s.broken := rfl
@[simp] theorem State.closeLine_scan (l : Nat) : (s.closeLine l).scan = s.scan := rfl
@[simp] theorem State.closeLine_tc (l : Nat) : (s.closeLine l).tc = s.tc := rfl
@[simp] theorem State.closeLine_wc (l : Nat) : (s.closeLine l).wc = s.wc := rfl
@[simp] theorem State.closeLine_xsyncs (l : Nat) : (s.closeLine l).xsyncs = s.xsyncs := rfl
@[simp] theorem State.closeLine_hpqHead (l : Nat) : (s.closeLine l).hpqHead = s.hpqHead := rfl
@[simp] theorem State.closeLine_hpqTail (l : Nat) : (s.closeLine l).hpqTail = s.hpqTail := rfl
@[simp] theorem State.closeLine_windowCount (l : Nat) : (s.closeLine l).windowCount = s.windowCount := rfl
@[simp] theorem State.closeLine_moves (l : Nat) : (s.closeLine l).moves = s.moves := rfl
@[simp] theorem State.closeLine_slots (l : Nat) : (s.closeLine l).slots = s.slots := rfl
@[simp] theorem State.closeLine_rot (l : Nat) : (s.closeLine l).rot = s.rot := rfl
@[simp] theorem State.closeLine_lastGen (l : Nat) : (s.closeLine l).lastGen = s.lastGen := rfl
@[simp] theorem State.closeLine_tpk (l : Nat) : (s.closeLine l).tpk = s.tpk := rfl
@[simp] theorem State.closeLine_queues (l : Nat) : (s.closeLine l).queues = s.queues := rfl
@[simp] theorem State.closeLine_mchs (l : Nat) : (s.closeLine l).mchs = s.mchs := rfl
@[simp] theorem State.closeLine_ras (l : Nat) : (s.closeLine l).ras = s.ras := rfl
@[simp] theorem State.closeLine_rdl (l : Nat) : (s.closeLine l).rdl = s.rdl := rfl
@[simp] theorem State.closeLine_planArea (l : Nat) : (s.closeLine l).planArea = s.planArea := rfl
@[simp] theorem State.closeLine_ctxs (l : Nat) : (s.closeLine l).ctxs = s.ctxs := rfl
@[simp] theorem State.closeLine_served (l : Nat) : (s.closeLine l).served = s.served := rfl
@[simp] theorem State.closeLine_bakes (l : Nat) : (s.closeLine l).bakes = s.bakes := rfl
@[simp] theorem State.closeLine_plans (l : Nat) : (s.closeLine l).plans = s.plans := rfl
@[simp] theorem State.closeLine_loads (l : Nat) : (s.closeLine l).loads = s.loads := rfl
@[simp] theorem State.closeLine_lanes (l : Nat) : (s.closeLine l).lanes = s.lanes := rfl
@[simp] theorem State.closeLine_evlog (l : Nat) : (s.closeLine l).evlog = s.evlog := rfl
@[simp] theorem State.closeLine_twin (l : Nat) : (s.closeLine l).twin = s.twin := rfl
@[simp] theorem State.closeLine_jobs (l : Nat) : (s.closeLine l).jobs = s.jobs := rfl
@[simp] theorem State.closeLine_tally (l : Nat) : (s.closeLine l).tally = s.tally := rfl
@[simp] theorem State.closeLine_meter (l : Nat) : (s.closeLine l).meter = s.meter := rfl
@[simp] theorem State.closeLine_zm3 (l : Nat) : (s.closeLine l).zm3 = s.zm3 := rfl
@[simp] theorem State.closeLine_pwr (l : Nat) : (s.closeLine l).pwr = s.pwr := rfl
@[simp] theorem State.closeLine_tmc (l : Nat) : (s.closeLine l).tmc = s.tmc := rfl
@[simp] theorem State.closeLine_warden (l : Nat) : (s.closeLine l).warden = s.warden := rfl

/-! `State.setTag` -/

@[simp] theorem State.setTag_opts (t v : Nat) : (s.setTag t v).opts = s.opts := rfl
@[simp] theorem State.setTag_fuses (t v : Nat) : (s.setTag t v).fuses = s.fuses := rfl
@[simp] theorem State.setTag_pending (t v : Nat) : (s.setTag t v).pending = s.pending := rfl
@[simp] theorem State.setTag_freeCtr (t v : Nat) : (s.setTag t v).freeCtr = s.freeCtr := rfl
@[simp] theorem State.setTag_ao (t v : Nat) : (s.setTag t v).ao = s.ao := rfl
@[simp] theorem State.setTag_rdata (t v : Nat) : (s.setTag t v).rdata = s.rdata := rfl
@[simp] theorem State.setTag_outs (t v : Nat) : (s.setTag t v).outs = s.outs := rfl
@[simp] theorem State.setTag_regs (t v : Nat) : (s.setTag t v).regs = s.regs := rfl
@[simp] theorem State.setTag_cfgOpen (t v : Nat) : (s.setTag t v).cfgOpen = s.cfgOpen := rfl
@[simp] theorem State.setTag_cfgDrain (t v : Nat) : (s.setTag t v).cfgDrain = s.cfgDrain := rfl
@[simp] theorem State.setTag_cfgStaged (t v : Nat) : (s.setTag t v).cfgStaged = s.cfgStaged := rfl
@[simp] theorem State.setTag_latches (t v : Nat) : (s.setTag t v).latches = s.latches := rfl
@[simp] theorem State.setTag_halves (t v : Nat) : (s.setTag t v).halves = s.halves := rfl
@[simp] theorem State.setTag_holdBuf (t v : Nat) : (s.setTag t v).holdBuf = s.holdBuf := rfl
@[simp] theorem State.setTag_wmk (t v : Nat) : (s.setTag t v).wmk = s.wmk := rfl
@[simp] theorem State.setTag_wins (t v : Nat) : (s.setTag t v).wins = s.wins := rfl
@[simp] theorem State.setTag_waking (t v : Nat) : (s.setTag t v).waking = s.waking := rfl
@[simp] theorem State.setTag_lastUse (t v : Nat) : (s.setTag t v).lastUse = s.lastUse := rfl
@[simp] theorem State.setTag_openEpoch (t v : Nat) : (s.setTag t v).openEpoch = s.openEpoch := rfl
@[simp] theorem State.setTag_drainEpoch (t v : Nat) : (s.setTag t v).drainEpoch = s.drainEpoch := rfl
@[simp] theorem State.setTag_commitPending (t v : Nat) : (s.setTag t v).commitPending = s.commitPending := rfl
@[simp] theorem State.setTag_slowRaised (t v : Nat) : (s.setTag t v).slowRaised = s.slowRaised := rfl
@[simp] theorem State.setTag_rootChanged (t v : Nat) : (s.setTag t v).rootChanged = s.rootChanged := rfl
@[simp] theorem State.setTag_dram (t v : Nat) : (s.setTag t v).dram = s.dram := rfl
@[simp] theorem State.setTag_ports (t v : Nat) : (s.setTag t v).ports = s.ports := rfl
@[simp] theorem State.setTag_reqs (t v : Nat) : (s.setTag t v).reqs = s.reqs := rfl
@[simp] theorem State.setTag_nextId (t v : Nat) : (s.setTag t v).nextId = s.nextId := rfl
@[simp] theorem State.setTag_nextOrder (t v : Nat) : (s.setTag t v).nextOrder = s.nextOrder := rfl
@[simp] theorem State.setTag_agents (t v : Nat) : (s.setTag t v).agents = s.agents := rfl
@[simp] theorem State.setTag_dir (t v : Nat) : (s.setTag t v).dir = s.dir := rfl
@[simp] theorem State.setTag_frames (t v : Nat) : (s.setTag t v).frames = s.frames := rfl
@[simp] theorem State.setTag_trks (t v : Nat) : (s.setTag t v).trks = s.trks := rfl
@[simp] theorem State.setTag_openTx (t v : Nat) : (s.setTag t v).openTx = s.openTx := rfl
@[simp] theorem State.setTag_owed (t v : Nat) : (s.setTag t v).owed = s.owed := rfl
@[simp] theorem State.setTag_fences (t v : Nat) : (s.setTag t v).fences = s.fences := rfl
@[simp] theorem State.setTag_broken (t v : Nat) : (s.setTag t v).broken = s.broken := rfl
@[simp] theorem State.setTag_scan (t v : Nat) : (s.setTag t v).scan = s.scan := rfl
@[simp] theorem State.setTag_tc (t v : Nat) : (s.setTag t v).tc = s.tc := rfl
@[simp] theorem State.setTag_wc (t v : Nat) : (s.setTag t v).wc = s.wc := rfl
@[simp] theorem State.setTag_xsyncs (t v : Nat) : (s.setTag t v).xsyncs = s.xsyncs := rfl
@[simp] theorem State.setTag_hpqHead (t v : Nat) : (s.setTag t v).hpqHead = s.hpqHead := rfl
@[simp] theorem State.setTag_hpqTail (t v : Nat) : (s.setTag t v).hpqTail = s.hpqTail := rfl
@[simp] theorem State.setTag_windowCount (t v : Nat) : (s.setTag t v).windowCount = s.windowCount := rfl
@[simp] theorem State.setTag_moves (t v : Nat) : (s.setTag t v).moves = s.moves := rfl
@[simp] theorem State.setTag_slots (t v : Nat) : (s.setTag t v).slots = s.slots := rfl
@[simp] theorem State.setTag_rot (t v : Nat) : (s.setTag t v).rot = s.rot := rfl
@[simp] theorem State.setTag_lastGen (t v : Nat) : (s.setTag t v).lastGen = s.lastGen := rfl
@[simp] theorem State.setTag_tpk (t v : Nat) : (s.setTag t v).tpk = s.tpk := rfl
@[simp] theorem State.setTag_queues (t v : Nat) : (s.setTag t v).queues = s.queues := rfl
@[simp] theorem State.setTag_mchs (t v : Nat) : (s.setTag t v).mchs = s.mchs := rfl
@[simp] theorem State.setTag_ras (t v : Nat) : (s.setTag t v).ras = s.ras := rfl
@[simp] theorem State.setTag_rdl (t v : Nat) : (s.setTag t v).rdl = s.rdl := rfl
@[simp] theorem State.setTag_planArea (t v : Nat) : (s.setTag t v).planArea = s.planArea := rfl
@[simp] theorem State.setTag_ctxs (t v : Nat) : (s.setTag t v).ctxs = s.ctxs := rfl
@[simp] theorem State.setTag_served (t v : Nat) : (s.setTag t v).served = s.served := rfl
@[simp] theorem State.setTag_bakes (t v : Nat) : (s.setTag t v).bakes = s.bakes := rfl
@[simp] theorem State.setTag_plans (t v : Nat) : (s.setTag t v).plans = s.plans := rfl
@[simp] theorem State.setTag_loads (t v : Nat) : (s.setTag t v).loads = s.loads := rfl
@[simp] theorem State.setTag_lanes (t v : Nat) : (s.setTag t v).lanes = s.lanes := rfl
@[simp] theorem State.setTag_evlog (t v : Nat) : (s.setTag t v).evlog = s.evlog := rfl
@[simp] theorem State.setTag_twin (t v : Nat) : (s.setTag t v).twin = s.twin := rfl
@[simp] theorem State.setTag_jobs (t v : Nat) : (s.setTag t v).jobs = s.jobs := rfl
@[simp] theorem State.setTag_tally (t v : Nat) : (s.setTag t v).tally = s.tally := rfl
@[simp] theorem State.setTag_meter (t v : Nat) : (s.setTag t v).meter = s.meter := rfl
@[simp] theorem State.setTag_zm3 (t v : Nat) : (s.setTag t v).zm3 = s.zm3 := rfl
@[simp] theorem State.setTag_pwr (t v : Nat) : (s.setTag t v).pwr = s.pwr := rfl
@[simp] theorem State.setTag_tmc (t v : Nat) : (s.setTag t v).tmc = s.tmc := rfl
@[simp] theorem State.setTag_warden (t v : Nat) : (s.setTag t v).warden = s.warden := rfl

/-! `State.wr` -/

@[simp] theorem State.wr_opts (f : Field) (v i x : Nat) : (s.wr f v i x).opts = s.opts := by unfold State.wr; split <;> rfl
@[simp] theorem State.wr_fuses (f : Field) (v i x : Nat) : (s.wr f v i x).fuses = s.fuses := by unfold State.wr; split <;> rfl
@[simp] theorem State.wr_pending (f : Field) (v i x : Nat) : (s.wr f v i x).pending = s.pending := by unfold State.wr; split <;> rfl
@[simp] theorem State.wr_freeCtr (f : Field) (v i x : Nat) : (s.wr f v i x).freeCtr = s.freeCtr := by unfold State.wr; split <;> rfl
@[simp] theorem State.wr_ao (f : Field) (v i x : Nat) : (s.wr f v i x).ao = s.ao := by unfold State.wr; split <;> rfl
@[simp] theorem State.wr_rdata (f : Field) (v i x : Nat) : (s.wr f v i x).rdata = s.rdata := by unfold State.wr; split <;> rfl
@[simp] theorem State.wr_outs (f : Field) (v i x : Nat) : (s.wr f v i x).outs = s.outs := by unfold State.wr; split <;> rfl
@[simp] theorem State.wr_cfgDrain (f : Field) (v i x : Nat) : (s.wr f v i x).cfgDrain = s.cfgDrain := by unfold State.wr; split <;> rfl
@[simp] theorem State.wr_cfgStaged (f : Field) (v i x : Nat) : (s.wr f v i x).cfgStaged = s.cfgStaged := by unfold State.wr; split <;> rfl
@[simp] theorem State.wr_latches (f : Field) (v i x : Nat) : (s.wr f v i x).latches = s.latches := by unfold State.wr; split <;> rfl
@[simp] theorem State.wr_halves (f : Field) (v i x : Nat) : (s.wr f v i x).halves = s.halves := by unfold State.wr; split <;> rfl
@[simp] theorem State.wr_holdBuf (f : Field) (v i x : Nat) : (s.wr f v i x).holdBuf = s.holdBuf := by unfold State.wr; split <;> rfl
@[simp] theorem State.wr_wmk (f : Field) (v i x : Nat) : (s.wr f v i x).wmk = s.wmk := by unfold State.wr; split <;> rfl
@[simp] theorem State.wr_wins (f : Field) (v i x : Nat) : (s.wr f v i x).wins = s.wins := by unfold State.wr; split <;> rfl
@[simp] theorem State.wr_waking (f : Field) (v i x : Nat) : (s.wr f v i x).waking = s.waking := by unfold State.wr; split <;> rfl
@[simp] theorem State.wr_lastUse (f : Field) (v i x : Nat) : (s.wr f v i x).lastUse = s.lastUse := by unfold State.wr; split <;> rfl
@[simp] theorem State.wr_openEpoch (f : Field) (v i x : Nat) : (s.wr f v i x).openEpoch = s.openEpoch := by unfold State.wr; split <;> rfl
@[simp] theorem State.wr_drainEpoch (f : Field) (v i x : Nat) : (s.wr f v i x).drainEpoch = s.drainEpoch := by unfold State.wr; split <;> rfl
@[simp] theorem State.wr_commitPending (f : Field) (v i x : Nat) : (s.wr f v i x).commitPending = s.commitPending := by unfold State.wr; split <;> rfl
@[simp] theorem State.wr_slowRaised (f : Field) (v i x : Nat) : (s.wr f v i x).slowRaised = s.slowRaised := by unfold State.wr; split <;> rfl
@[simp] theorem State.wr_rootChanged (f : Field) (v i x : Nat) : (s.wr f v i x).rootChanged = s.rootChanged := by unfold State.wr; split <;> rfl
@[simp] theorem State.wr_dram (f : Field) (v i x : Nat) : (s.wr f v i x).dram = s.dram := by unfold State.wr; split <;> rfl
@[simp] theorem State.wr_ports (f : Field) (v i x : Nat) : (s.wr f v i x).ports = s.ports := by unfold State.wr; split <;> rfl
@[simp] theorem State.wr_reqs (f : Field) (v i x : Nat) : (s.wr f v i x).reqs = s.reqs := by unfold State.wr; split <;> rfl
@[simp] theorem State.wr_nextId (f : Field) (v i x : Nat) : (s.wr f v i x).nextId = s.nextId := by unfold State.wr; split <;> rfl
@[simp] theorem State.wr_nextOrder (f : Field) (v i x : Nat) : (s.wr f v i x).nextOrder = s.nextOrder := by unfold State.wr; split <;> rfl
@[simp] theorem State.wr_shape (f : Field) (v i x : Nat) : (s.wr f v i x).shape = s.shape := by unfold State.wr; split <;> rfl
@[simp] theorem State.wr_agents (f : Field) (v i x : Nat) : (s.wr f v i x).agents = s.agents := by unfold State.wr; split <;> rfl
@[simp] theorem State.wr_dir (f : Field) (v i x : Nat) : (s.wr f v i x).dir = s.dir := by unfold State.wr; split <;> rfl
@[simp] theorem State.wr_frames (f : Field) (v i x : Nat) : (s.wr f v i x).frames = s.frames := by unfold State.wr; split <;> rfl
@[simp] theorem State.wr_trks (f : Field) (v i x : Nat) : (s.wr f v i x).trks = s.trks := by unfold State.wr; split <;> rfl
@[simp] theorem State.wr_openTx (f : Field) (v i x : Nat) : (s.wr f v i x).openTx = s.openTx := by unfold State.wr; split <;> rfl
@[simp] theorem State.wr_owed (f : Field) (v i x : Nat) : (s.wr f v i x).owed = s.owed := by unfold State.wr; split <;> rfl
@[simp] theorem State.wr_fences (f : Field) (v i x : Nat) : (s.wr f v i x).fences = s.fences := by unfold State.wr; split <;> rfl
@[simp] theorem State.wr_broken (f : Field) (v i x : Nat) : (s.wr f v i x).broken = s.broken := by unfold State.wr; split <;> rfl
@[simp] theorem State.wr_scan (f : Field) (v i x : Nat) : (s.wr f v i x).scan = s.scan := by unfold State.wr; split <;> rfl
@[simp] theorem State.wr_tc (f : Field) (v i x : Nat) : (s.wr f v i x).tc = s.tc := by unfold State.wr; split <;> rfl
@[simp] theorem State.wr_wc (f : Field) (v i x : Nat) : (s.wr f v i x).wc = s.wc := by unfold State.wr; split <;> rfl
@[simp] theorem State.wr_xsyncs (f : Field) (v i x : Nat) : (s.wr f v i x).xsyncs = s.xsyncs := by unfold State.wr; split <;> rfl
@[simp] theorem State.wr_hpqHead (f : Field) (v i x : Nat) : (s.wr f v i x).hpqHead = s.hpqHead := by unfold State.wr; split <;> rfl
@[simp] theorem State.wr_hpqTail (f : Field) (v i x : Nat) : (s.wr f v i x).hpqTail = s.hpqTail := by unfold State.wr; split <;> rfl
@[simp] theorem State.wr_windowCount (f : Field) (v i x : Nat) : (s.wr f v i x).windowCount = s.windowCount := by unfold State.wr; split <;> rfl
@[simp] theorem State.wr_moves (f : Field) (v i x : Nat) : (s.wr f v i x).moves = s.moves := by unfold State.wr; split <;> rfl
@[simp] theorem State.wr_slots (f : Field) (v i x : Nat) : (s.wr f v i x).slots = s.slots := by unfold State.wr; split <;> rfl
@[simp] theorem State.wr_rot (f : Field) (v i x : Nat) : (s.wr f v i x).rot = s.rot := by unfold State.wr; split <;> rfl
@[simp] theorem State.wr_lastGen (f : Field) (v i x : Nat) : (s.wr f v i x).lastGen = s.lastGen := by unfold State.wr; split <;> rfl
@[simp] theorem State.wr_tpk (f : Field) (v i x : Nat) : (s.wr f v i x).tpk = s.tpk := by unfold State.wr; split <;> rfl
@[simp] theorem State.wr_queues (f : Field) (v i x : Nat) : (s.wr f v i x).queues = s.queues := by unfold State.wr; split <;> rfl
@[simp] theorem State.wr_mchs (f : Field) (v i x : Nat) : (s.wr f v i x).mchs = s.mchs := by unfold State.wr; split <;> rfl
@[simp] theorem State.wr_ras (f : Field) (v i x : Nat) : (s.wr f v i x).ras = s.ras := by unfold State.wr; split <;> rfl
@[simp] theorem State.wr_rdl (f : Field) (v i x : Nat) : (s.wr f v i x).rdl = s.rdl := by unfold State.wr; split <;> rfl
@[simp] theorem State.wr_planArea (f : Field) (v i x : Nat) : (s.wr f v i x).planArea = s.planArea := by unfold State.wr; split <;> rfl
@[simp] theorem State.wr_ctxs (f : Field) (v i x : Nat) : (s.wr f v i x).ctxs = s.ctxs := by unfold State.wr; split <;> rfl
@[simp] theorem State.wr_served (f : Field) (v i x : Nat) : (s.wr f v i x).served = s.served := by unfold State.wr; split <;> rfl
@[simp] theorem State.wr_bakes (f : Field) (v i x : Nat) : (s.wr f v i x).bakes = s.bakes := by unfold State.wr; split <;> rfl
@[simp] theorem State.wr_plans (f : Field) (v i x : Nat) : (s.wr f v i x).plans = s.plans := by unfold State.wr; split <;> rfl
@[simp] theorem State.wr_loads (f : Field) (v i x : Nat) : (s.wr f v i x).loads = s.loads := by unfold State.wr; split <;> rfl
@[simp] theorem State.wr_lanes (f : Field) (v i x : Nat) : (s.wr f v i x).lanes = s.lanes := by unfold State.wr; split <;> rfl
@[simp] theorem State.wr_evlog (f : Field) (v i x : Nat) : (s.wr f v i x).evlog = s.evlog := by unfold State.wr; split <;> rfl
@[simp] theorem State.wr_twin (f : Field) (v i x : Nat) : (s.wr f v i x).twin = s.twin := by unfold State.wr; split <;> rfl
@[simp] theorem State.wr_jobs (f : Field) (v i x : Nat) : (s.wr f v i x).jobs = s.jobs := by unfold State.wr; split <;> rfl
@[simp] theorem State.wr_tally (f : Field) (v i x : Nat) : (s.wr f v i x).tally = s.tally := by unfold State.wr; split <;> rfl
@[simp] theorem State.wr_meter (f : Field) (v i x : Nat) : (s.wr f v i x).meter = s.meter := by unfold State.wr; split <;> rfl
@[simp] theorem State.wr_zm3 (f : Field) (v i x : Nat) : (s.wr f v i x).zm3 = s.zm3 := by unfold State.wr; split <;> rfl
@[simp] theorem State.wr_pwr (f : Field) (v i x : Nat) : (s.wr f v i x).pwr = s.pwr := by unfold State.wr; split <;> rfl
@[simp] theorem State.wr_tmc (f : Field) (v i x : Nat) : (s.wr f v i x).tmc = s.tmc := by unfold State.wr; split <;> rfl
@[simp] theorem State.wr_warden (f : Field) (v i x : Nat) : (s.wr f v i x).warden = s.warden := by unfold State.wr; split <;> rfl

@[simp] theorem State.bumpBy_opts (f : Field) (n i x : Nat) : (s.bumpBy f n i x).opts = s.opts := State.wr_opts ..
@[simp] theorem State.bumpBy_fuses (f : Field) (n i x : Nat) : (s.bumpBy f n i x).fuses = s.fuses := State.wr_fuses ..
@[simp] theorem State.bumpBy_pending (f : Field) (n i x : Nat) : (s.bumpBy f n i x).pending = s.pending := State.wr_pending ..
@[simp] theorem State.bumpBy_freeCtr (f : Field) (n i x : Nat) : (s.bumpBy f n i x).freeCtr = s.freeCtr := State.wr_freeCtr ..
@[simp] theorem State.bumpBy_ao (f : Field) (n i x : Nat) : (s.bumpBy f n i x).ao = s.ao := State.wr_ao ..
@[simp] theorem State.bumpBy_rdata (f : Field) (n i x : Nat) : (s.bumpBy f n i x).rdata = s.rdata := State.wr_rdata ..
@[simp] theorem State.bumpBy_outs (f : Field) (n i x : Nat) : (s.bumpBy f n i x).outs = s.outs := State.wr_outs ..
@[simp] theorem State.bumpBy_cfgDrain (f : Field) (n i x : Nat) : (s.bumpBy f n i x).cfgDrain = s.cfgDrain := State.wr_cfgDrain ..
@[simp] theorem State.bumpBy_cfgStaged (f : Field) (n i x : Nat) : (s.bumpBy f n i x).cfgStaged = s.cfgStaged := State.wr_cfgStaged ..
@[simp] theorem State.bumpBy_latches (f : Field) (n i x : Nat) : (s.bumpBy f n i x).latches = s.latches := State.wr_latches ..
@[simp] theorem State.bumpBy_halves (f : Field) (n i x : Nat) : (s.bumpBy f n i x).halves = s.halves := State.wr_halves ..
@[simp] theorem State.bumpBy_holdBuf (f : Field) (n i x : Nat) : (s.bumpBy f n i x).holdBuf = s.holdBuf := State.wr_holdBuf ..
@[simp] theorem State.bumpBy_wmk (f : Field) (n i x : Nat) : (s.bumpBy f n i x).wmk = s.wmk := State.wr_wmk ..
@[simp] theorem State.bumpBy_wins (f : Field) (n i x : Nat) : (s.bumpBy f n i x).wins = s.wins := State.wr_wins ..
@[simp] theorem State.bumpBy_waking (f : Field) (n i x : Nat) : (s.bumpBy f n i x).waking = s.waking := State.wr_waking ..
@[simp] theorem State.bumpBy_lastUse (f : Field) (n i x : Nat) : (s.bumpBy f n i x).lastUse = s.lastUse := State.wr_lastUse ..
@[simp] theorem State.bumpBy_openEpoch (f : Field) (n i x : Nat) : (s.bumpBy f n i x).openEpoch = s.openEpoch := State.wr_openEpoch ..
@[simp] theorem State.bumpBy_drainEpoch (f : Field) (n i x : Nat) : (s.bumpBy f n i x).drainEpoch = s.drainEpoch := State.wr_drainEpoch ..
@[simp] theorem State.bumpBy_commitPending (f : Field) (n i x : Nat) : (s.bumpBy f n i x).commitPending = s.commitPending := State.wr_commitPending ..
@[simp] theorem State.bumpBy_slowRaised (f : Field) (n i x : Nat) : (s.bumpBy f n i x).slowRaised = s.slowRaised := State.wr_slowRaised ..
@[simp] theorem State.bumpBy_rootChanged (f : Field) (n i x : Nat) : (s.bumpBy f n i x).rootChanged = s.rootChanged := State.wr_rootChanged ..
@[simp] theorem State.bumpBy_dram (f : Field) (n i x : Nat) : (s.bumpBy f n i x).dram = s.dram := State.wr_dram ..
@[simp] theorem State.bumpBy_ports (f : Field) (n i x : Nat) : (s.bumpBy f n i x).ports = s.ports := State.wr_ports ..
@[simp] theorem State.bumpBy_reqs (f : Field) (n i x : Nat) : (s.bumpBy f n i x).reqs = s.reqs := State.wr_reqs ..
@[simp] theorem State.bumpBy_nextId (f : Field) (n i x : Nat) : (s.bumpBy f n i x).nextId = s.nextId := State.wr_nextId ..
@[simp] theorem State.bumpBy_nextOrder (f : Field) (n i x : Nat) : (s.bumpBy f n i x).nextOrder = s.nextOrder := State.wr_nextOrder ..
@[simp] theorem State.bumpBy_shape (f : Field) (n i x : Nat) : (s.bumpBy f n i x).shape = s.shape := State.wr_shape ..
@[simp] theorem State.bumpBy_agents (f : Field) (n i x : Nat) : (s.bumpBy f n i x).agents = s.agents := State.wr_agents ..
@[simp] theorem State.bumpBy_dir (f : Field) (n i x : Nat) : (s.bumpBy f n i x).dir = s.dir := State.wr_dir ..
@[simp] theorem State.bumpBy_frames (f : Field) (n i x : Nat) : (s.bumpBy f n i x).frames = s.frames := State.wr_frames ..
@[simp] theorem State.bumpBy_trks (f : Field) (n i x : Nat) : (s.bumpBy f n i x).trks = s.trks := State.wr_trks ..
@[simp] theorem State.bumpBy_openTx (f : Field) (n i x : Nat) : (s.bumpBy f n i x).openTx = s.openTx := State.wr_openTx ..
@[simp] theorem State.bumpBy_owed (f : Field) (n i x : Nat) : (s.bumpBy f n i x).owed = s.owed := State.wr_owed ..
@[simp] theorem State.bumpBy_fences (f : Field) (n i x : Nat) : (s.bumpBy f n i x).fences = s.fences := State.wr_fences ..
@[simp] theorem State.bumpBy_broken (f : Field) (n i x : Nat) : (s.bumpBy f n i x).broken = s.broken := State.wr_broken ..
@[simp] theorem State.bumpBy_scan (f : Field) (n i x : Nat) : (s.bumpBy f n i x).scan = s.scan := State.wr_scan ..
@[simp] theorem State.bumpBy_tc (f : Field) (n i x : Nat) : (s.bumpBy f n i x).tc = s.tc := State.wr_tc ..
@[simp] theorem State.bumpBy_wc (f : Field) (n i x : Nat) : (s.bumpBy f n i x).wc = s.wc := State.wr_wc ..
@[simp] theorem State.bumpBy_xsyncs (f : Field) (n i x : Nat) : (s.bumpBy f n i x).xsyncs = s.xsyncs := State.wr_xsyncs ..
@[simp] theorem State.bumpBy_hpqHead (f : Field) (n i x : Nat) : (s.bumpBy f n i x).hpqHead = s.hpqHead := State.wr_hpqHead ..
@[simp] theorem State.bumpBy_hpqTail (f : Field) (n i x : Nat) : (s.bumpBy f n i x).hpqTail = s.hpqTail := State.wr_hpqTail ..
@[simp] theorem State.bumpBy_windowCount (f : Field) (n i x : Nat) : (s.bumpBy f n i x).windowCount = s.windowCount := State.wr_windowCount ..
@[simp] theorem State.bumpBy_moves (f : Field) (n i x : Nat) : (s.bumpBy f n i x).moves = s.moves := State.wr_moves ..
@[simp] theorem State.bumpBy_slots (f : Field) (n i x : Nat) : (s.bumpBy f n i x).slots = s.slots := State.wr_slots ..
@[simp] theorem State.bumpBy_rot (f : Field) (n i x : Nat) : (s.bumpBy f n i x).rot = s.rot := State.wr_rot ..
@[simp] theorem State.bumpBy_lastGen (f : Field) (n i x : Nat) : (s.bumpBy f n i x).lastGen = s.lastGen := State.wr_lastGen ..
@[simp] theorem State.bumpBy_tpk (f : Field) (n i x : Nat) : (s.bumpBy f n i x).tpk = s.tpk := State.wr_tpk ..
@[simp] theorem State.bumpBy_queues (f : Field) (n i x : Nat) : (s.bumpBy f n i x).queues = s.queues := State.wr_queues ..
@[simp] theorem State.bumpBy_mchs (f : Field) (n i x : Nat) : (s.bumpBy f n i x).mchs = s.mchs := State.wr_mchs ..
@[simp] theorem State.bumpBy_ras (f : Field) (n i x : Nat) : (s.bumpBy f n i x).ras = s.ras := State.wr_ras ..
@[simp] theorem State.bumpBy_rdl (f : Field) (n i x : Nat) : (s.bumpBy f n i x).rdl = s.rdl := State.wr_rdl ..
@[simp] theorem State.bumpBy_planArea (f : Field) (n i x : Nat) : (s.bumpBy f n i x).planArea = s.planArea := State.wr_planArea ..
@[simp] theorem State.bumpBy_ctxs (f : Field) (n i x : Nat) : (s.bumpBy f n i x).ctxs = s.ctxs := State.wr_ctxs ..
@[simp] theorem State.bumpBy_served (f : Field) (n i x : Nat) : (s.bumpBy f n i x).served = s.served := State.wr_served ..
@[simp] theorem State.bumpBy_bakes (f : Field) (n i x : Nat) : (s.bumpBy f n i x).bakes = s.bakes := State.wr_bakes ..
@[simp] theorem State.bumpBy_plans (f : Field) (n i x : Nat) : (s.bumpBy f n i x).plans = s.plans := State.wr_plans ..
@[simp] theorem State.bumpBy_loads (f : Field) (n i x : Nat) : (s.bumpBy f n i x).loads = s.loads := State.wr_loads ..
@[simp] theorem State.bumpBy_lanes (f : Field) (n i x : Nat) : (s.bumpBy f n i x).lanes = s.lanes := State.wr_lanes ..
@[simp] theorem State.bumpBy_evlog (f : Field) (n i x : Nat) : (s.bumpBy f n i x).evlog = s.evlog := State.wr_evlog ..
@[simp] theorem State.bumpBy_twin (f : Field) (n i x : Nat) : (s.bumpBy f n i x).twin = s.twin := State.wr_twin ..
@[simp] theorem State.bumpBy_jobs (f : Field) (n i x : Nat) : (s.bumpBy f n i x).jobs = s.jobs := State.wr_jobs ..
@[simp] theorem State.bumpBy_tally (f : Field) (n i x : Nat) : (s.bumpBy f n i x).tally = s.tally := State.wr_tally ..
@[simp] theorem State.bumpBy_meter (f : Field) (n i x : Nat) : (s.bumpBy f n i x).meter = s.meter := State.wr_meter ..
@[simp] theorem State.bumpBy_zm3 (f : Field) (n i x : Nat) : (s.bumpBy f n i x).zm3 = s.zm3 := State.wr_zm3 ..
@[simp] theorem State.bumpBy_pwr (f : Field) (n i x : Nat) : (s.bumpBy f n i x).pwr = s.pwr := State.wr_pwr ..
@[simp] theorem State.bumpBy_tmc (f : Field) (n i x : Nat) : (s.bumpBy f n i x).tmc = s.tmc := State.wr_tmc ..
@[simp] theorem State.bumpBy_warden (f : Field) (n i x : Nat) : (s.bumpBy f n i x).warden = s.warden := State.wr_warden ..

@[simp] theorem State.bump_opts (f : Field) (i x : Nat) : (s.bump f i x).opts = s.opts := State.wr_opts ..
@[simp] theorem State.bump_fuses (f : Field) (i x : Nat) : (s.bump f i x).fuses = s.fuses := State.wr_fuses ..
@[simp] theorem State.bump_pending (f : Field) (i x : Nat) : (s.bump f i x).pending = s.pending := State.wr_pending ..
@[simp] theorem State.bump_freeCtr (f : Field) (i x : Nat) : (s.bump f i x).freeCtr = s.freeCtr := State.wr_freeCtr ..
@[simp] theorem State.bump_ao (f : Field) (i x : Nat) : (s.bump f i x).ao = s.ao := State.wr_ao ..
@[simp] theorem State.bump_rdata (f : Field) (i x : Nat) : (s.bump f i x).rdata = s.rdata := State.wr_rdata ..
@[simp] theorem State.bump_outs (f : Field) (i x : Nat) : (s.bump f i x).outs = s.outs := State.wr_outs ..
@[simp] theorem State.bump_cfgDrain (f : Field) (i x : Nat) : (s.bump f i x).cfgDrain = s.cfgDrain := State.wr_cfgDrain ..
@[simp] theorem State.bump_cfgStaged (f : Field) (i x : Nat) : (s.bump f i x).cfgStaged = s.cfgStaged := State.wr_cfgStaged ..
@[simp] theorem State.bump_latches (f : Field) (i x : Nat) : (s.bump f i x).latches = s.latches := State.wr_latches ..
@[simp] theorem State.bump_halves (f : Field) (i x : Nat) : (s.bump f i x).halves = s.halves := State.wr_halves ..
@[simp] theorem State.bump_holdBuf (f : Field) (i x : Nat) : (s.bump f i x).holdBuf = s.holdBuf := State.wr_holdBuf ..
@[simp] theorem State.bump_wmk (f : Field) (i x : Nat) : (s.bump f i x).wmk = s.wmk := State.wr_wmk ..
@[simp] theorem State.bump_wins (f : Field) (i x : Nat) : (s.bump f i x).wins = s.wins := State.wr_wins ..
@[simp] theorem State.bump_waking (f : Field) (i x : Nat) : (s.bump f i x).waking = s.waking := State.wr_waking ..
@[simp] theorem State.bump_lastUse (f : Field) (i x : Nat) : (s.bump f i x).lastUse = s.lastUse := State.wr_lastUse ..
@[simp] theorem State.bump_openEpoch (f : Field) (i x : Nat) : (s.bump f i x).openEpoch = s.openEpoch := State.wr_openEpoch ..
@[simp] theorem State.bump_drainEpoch (f : Field) (i x : Nat) : (s.bump f i x).drainEpoch = s.drainEpoch := State.wr_drainEpoch ..
@[simp] theorem State.bump_commitPending (f : Field) (i x : Nat) : (s.bump f i x).commitPending = s.commitPending := State.wr_commitPending ..
@[simp] theorem State.bump_slowRaised (f : Field) (i x : Nat) : (s.bump f i x).slowRaised = s.slowRaised := State.wr_slowRaised ..
@[simp] theorem State.bump_rootChanged (f : Field) (i x : Nat) : (s.bump f i x).rootChanged = s.rootChanged := State.wr_rootChanged ..
@[simp] theorem State.bump_dram (f : Field) (i x : Nat) : (s.bump f i x).dram = s.dram := State.wr_dram ..
@[simp] theorem State.bump_ports (f : Field) (i x : Nat) : (s.bump f i x).ports = s.ports := State.wr_ports ..
@[simp] theorem State.bump_reqs (f : Field) (i x : Nat) : (s.bump f i x).reqs = s.reqs := State.wr_reqs ..
@[simp] theorem State.bump_nextId (f : Field) (i x : Nat) : (s.bump f i x).nextId = s.nextId := State.wr_nextId ..
@[simp] theorem State.bump_nextOrder (f : Field) (i x : Nat) : (s.bump f i x).nextOrder = s.nextOrder := State.wr_nextOrder ..
@[simp] theorem State.bump_shape (f : Field) (i x : Nat) : (s.bump f i x).shape = s.shape := State.wr_shape ..
@[simp] theorem State.bump_agents (f : Field) (i x : Nat) : (s.bump f i x).agents = s.agents := State.wr_agents ..
@[simp] theorem State.bump_dir (f : Field) (i x : Nat) : (s.bump f i x).dir = s.dir := State.wr_dir ..
@[simp] theorem State.bump_frames (f : Field) (i x : Nat) : (s.bump f i x).frames = s.frames := State.wr_frames ..
@[simp] theorem State.bump_trks (f : Field) (i x : Nat) : (s.bump f i x).trks = s.trks := State.wr_trks ..
@[simp] theorem State.bump_openTx (f : Field) (i x : Nat) : (s.bump f i x).openTx = s.openTx := State.wr_openTx ..
@[simp] theorem State.bump_owed (f : Field) (i x : Nat) : (s.bump f i x).owed = s.owed := State.wr_owed ..
@[simp] theorem State.bump_fences (f : Field) (i x : Nat) : (s.bump f i x).fences = s.fences := State.wr_fences ..
@[simp] theorem State.bump_broken (f : Field) (i x : Nat) : (s.bump f i x).broken = s.broken := State.wr_broken ..
@[simp] theorem State.bump_scan (f : Field) (i x : Nat) : (s.bump f i x).scan = s.scan := State.wr_scan ..
@[simp] theorem State.bump_tc (f : Field) (i x : Nat) : (s.bump f i x).tc = s.tc := State.wr_tc ..
@[simp] theorem State.bump_wc (f : Field) (i x : Nat) : (s.bump f i x).wc = s.wc := State.wr_wc ..
@[simp] theorem State.bump_xsyncs (f : Field) (i x : Nat) : (s.bump f i x).xsyncs = s.xsyncs := State.wr_xsyncs ..
@[simp] theorem State.bump_hpqHead (f : Field) (i x : Nat) : (s.bump f i x).hpqHead = s.hpqHead := State.wr_hpqHead ..
@[simp] theorem State.bump_hpqTail (f : Field) (i x : Nat) : (s.bump f i x).hpqTail = s.hpqTail := State.wr_hpqTail ..
@[simp] theorem State.bump_windowCount (f : Field) (i x : Nat) : (s.bump f i x).windowCount = s.windowCount := State.wr_windowCount ..
@[simp] theorem State.bump_moves (f : Field) (i x : Nat) : (s.bump f i x).moves = s.moves := State.wr_moves ..
@[simp] theorem State.bump_slots (f : Field) (i x : Nat) : (s.bump f i x).slots = s.slots := State.wr_slots ..
@[simp] theorem State.bump_rot (f : Field) (i x : Nat) : (s.bump f i x).rot = s.rot := State.wr_rot ..
@[simp] theorem State.bump_lastGen (f : Field) (i x : Nat) : (s.bump f i x).lastGen = s.lastGen := State.wr_lastGen ..
@[simp] theorem State.bump_tpk (f : Field) (i x : Nat) : (s.bump f i x).tpk = s.tpk := State.wr_tpk ..
@[simp] theorem State.bump_queues (f : Field) (i x : Nat) : (s.bump f i x).queues = s.queues := State.wr_queues ..
@[simp] theorem State.bump_mchs (f : Field) (i x : Nat) : (s.bump f i x).mchs = s.mchs := State.wr_mchs ..
@[simp] theorem State.bump_ras (f : Field) (i x : Nat) : (s.bump f i x).ras = s.ras := State.wr_ras ..
@[simp] theorem State.bump_rdl (f : Field) (i x : Nat) : (s.bump f i x).rdl = s.rdl := State.wr_rdl ..
@[simp] theorem State.bump_planArea (f : Field) (i x : Nat) : (s.bump f i x).planArea = s.planArea := State.wr_planArea ..
@[simp] theorem State.bump_ctxs (f : Field) (i x : Nat) : (s.bump f i x).ctxs = s.ctxs := State.wr_ctxs ..
@[simp] theorem State.bump_served (f : Field) (i x : Nat) : (s.bump f i x).served = s.served := State.wr_served ..
@[simp] theorem State.bump_bakes (f : Field) (i x : Nat) : (s.bump f i x).bakes = s.bakes := State.wr_bakes ..
@[simp] theorem State.bump_plans (f : Field) (i x : Nat) : (s.bump f i x).plans = s.plans := State.wr_plans ..
@[simp] theorem State.bump_loads (f : Field) (i x : Nat) : (s.bump f i x).loads = s.loads := State.wr_loads ..
@[simp] theorem State.bump_lanes (f : Field) (i x : Nat) : (s.bump f i x).lanes = s.lanes := State.wr_lanes ..
@[simp] theorem State.bump_evlog (f : Field) (i x : Nat) : (s.bump f i x).evlog = s.evlog := State.wr_evlog ..
@[simp] theorem State.bump_twin (f : Field) (i x : Nat) : (s.bump f i x).twin = s.twin := State.wr_twin ..
@[simp] theorem State.bump_jobs (f : Field) (i x : Nat) : (s.bump f i x).jobs = s.jobs := State.wr_jobs ..
@[simp] theorem State.bump_tally (f : Field) (i x : Nat) : (s.bump f i x).tally = s.tally := State.wr_tally ..
@[simp] theorem State.bump_meter (f : Field) (i x : Nat) : (s.bump f i x).meter = s.meter := State.wr_meter ..
@[simp] theorem State.bump_zm3 (f : Field) (i x : Nat) : (s.bump f i x).zm3 = s.zm3 := State.wr_zm3 ..
@[simp] theorem State.bump_pwr (f : Field) (i x : Nat) : (s.bump f i x).pwr = s.pwr := State.wr_pwr ..
@[simp] theorem State.bump_tmc (f : Field) (i x : Nat) : (s.bump f i x).tmc = s.tmc := State.wr_tmc ..
@[simp] theorem State.bump_warden (f : Field) (i x : Nat) : (s.bump f i x).warden = s.warden := State.wr_warden ..

/-! What an update leaves in its field -/

@[simp] theorem State.setPort_ports (p : Nat) (v : Port) : (s.setPort p v).ports = Tab.set s.ports p v := rfl
@[simp] theorem State.out_outs (o : Out) : (s.out o).outs = s.outs ++ [o] := rfl
@[simp] theorem State.setMove_moves (n : Nat) (v : Move) : (s.setMove n v).moves = Tab.set s.moves n v := rfl
@[simp] theorem State.setQueue_queues (q : Nat) (v : Queue) : (s.setQueue q v).queues = Tab.set s.queues q v := rfl
@[simp] theorem State.setMch_mchs (n : Nat) (v : Mch) : (s.setMch n v).mchs = Tab.set s.mchs n v := rfl
@[simp] theorem State.setCtx_ctxs (r c : Nat) (v : Ctx) : (s.setCtx r c v).ctxs = Tab.set s.ctxs (r * 8 + c) v := rfl
@[simp] theorem State.setAgent_agents (a : Nat) (v : Agent) : (s.setAgent a v).agents = Tab.set s.agents a v := rfl
@[simp] theorem State.setLane_lanes (n : Nat) (l : List LaneJob) : (s.setLane n l).lanes = Tab.set s.lanes n l := rfl
@[simp] theorem State.dropReq_reqs (rid : Nat) : (s.dropReq rid).reqs = s.reqs.filter (fun r => r.id != rid) := rfl
@[simp] theorem State.updReq_reqs (rid : Nat) (f : Req → Req) : (s.updReq rid f).reqs = updFirst (fun r => r.id == rid) f s.reqs := rfl
@[simp] theorem State.updBake_bakes (b : Nat) (f : Bake → Bake) : (s.updBake b f).bakes = updFirst (fun x => x.id == b) f s.bakes := rfl
@[simp] theorem State.stage_cfgStaged (f : Field) (v i x : Nat) : (s.stage f v i x).cfgStaged = Tab.set s.cfgStaged (keyOf f i x) (v % 2 ^ f.width) := rfl

end Sys2Proof.Machine
end

