-- ==== Sys2Proof/Machine/Redfish.lean ====
section
/-! DEFINITION. What the TMC's Redfish service reports (R460, R461, Table 19-11): every property is read from the state. Sessions, roles and
the HTTPS transport are outside the block; the actions are commands of their own. -/
namespace Sys2Proof.Machine

open Reg

/-- Chassis/Tray and its Assembly (R460): whether a health warning stands, with what the FRU memory holds. -/
structure RfTray where
  serial   : Nat
  part     : List Byte
  date     : List Byte
  location : Nat
  on       : Bool
  warning  : Bool
  order    : Nat
  options  : Nat
  cause    : Nat
  override : Option Nat
deriving DecidableEq, Repr

/-- Chassis/Tray/PowerSubsystem: the capacity in W, and the hold-up bank's voltage in 10 mV, capacitance in mF and health. -/
structure RfPower where
  capacity : Nat
  bankV    : Option Nat
  bankMf   : Nat
  weak     : Bool
deriving DecidableEq, Repr

/-- Chassis/Tray/ThermalSubsystem: four fans' and two pumps' duties, the failed pumps and the leak detectors. -/
structure RfThermal where
  fans   : List Nat
  pumps  : List Nat
  failed : List Bool
  leaks  : List Bool
deriving DecidableEq, Repr

/-- Chassis/Tray/Sensors: input and coolant readings, temperatures, and the ZM-3's channel energies with whether they are metered. -/
structure RfSensors where
  readings : Option Sensors
  tj       : Int
  stack    : Int
  energies : List Nat
  metered  : Bool
deriving DecidableEq, Repr

/-- Chassis/ZM3 (R403): copies for convenience of what METER holds. -/
structure RfZm3 where
  serial      : Nat
  version     : Nat
  checksum    : Nat
  certId      : Nat
  sealEvents  : Nat
  calDate     : Nat
  fingerprint : List Nat
  enrolled    : Bool
  state       : Nat
deriving DecidableEq, Repr

/-- The resources of Table 19-11, with the TMC's version and its two logs. -/
structure Redfish where
  tray    : RfTray
  power   : RfPower
  thermal : RfThermal
  sensors : RfSensors
  zm3     : RfZm3
  version : Nat
  crumbs  : List (List Nat)
  events  : List (Nat × Nat)
deriving DecidableEq, Repr

/-- BDIR.OPTIONS as a number. -/
def State.optionBits (s : State) : Nat := packBits [(0, 1, b2n s.opts.c), (1, 1, b2n s.opts.k), (2, 1, b2n s.opts.w)]

/-- Health Warning of the tray: a weak bank, or an order code that disagrees with BDIR (Table 19-5, R460). -/
def State.trayWarning (s : State) : Bool := decide (s.tmc.capacity < 800) || s.optionBits != s.tmc.order.toNat

/-- The service's answer to a reader. -/
def State.redfish (s : State) : Redfish :=
  let t := s.tmc
  { tray := {
      serial := t.traySerial.toNat, part := Config.fruPart, date := Config.fruDate, location := bits t.straps.toNat 3 5, on := t.nodeRails,
      warning := s.trayWarning, order := t.order.toNat, options := s.optionBits, cause := (t.shut.map (·.cause)).getD 0,
      override := t.override },
    power := { capacity := 1250, bankV := t.readings.map (fun r => r.bankV.toNat), bankMf := t.capacity, weak := decide (t.capacity < 800) },
    thermal := { fans := t.duties.take 4, pumps := t.duties.drop 4, failed := t.pumpsBad, leaks := t.wet },
    sensors := {
      readings := t.readings, tj := t.tj, stack := t.stack, energies := (List.range 12).map (fun i => s.rd METER_CH_ENERGY 0 i),
      metered := s.rd METER_CH_METERED == 1 },
    zm3 := {
      serial := s.rd METER_ZM3_SERIAL, version := s.rd METER_LR_VERSION, checksum := s.rd METER_LR_CHECKSUM, certId := s.rd METER_CERT_ID,
      sealEvents := s.rd METER_SEAL_EVENTS, calDate := s.rd METER_CAL_DATE,
      fingerprint := (List.range 8).map (fun i => s.rd METER_KEY_FP 0 i), enrolled := s.enrollMatch, state := s.rd METER_MSTATE },
    version := t.version, crumbs := t.crumbs, events := t.log }

end Sys2Proof.Machine
end

