-- ==== Sys2Proof/Tests/Worlds.lean ====
section
/-! SUPPORT. Small states and operands for the tests and for the witnesses of the statements' premises. -/
namespace Sys2Proof.Tests

open Machine Reg

namespace W

/-- The state after reset. -/
def base : State := State.reset

/-- The state with a tray. -/
def tm (t : Tmc) : State := { base with tmc := t }

/-! ### Ports and messages -/

def upPort : Port := { Port.fresh with train := .up }
def withPort (p : Port) : State := base.setPort 0 p
def port (t : Train) : State := withPort { Port.fresh with train := t }
def tries (n : Nat) : State := withPort { Port.fresh with train := .step 5, attempts := n }

/-- Admission open and agent 7 Live behind port 0, which is Up. -/
def open_ : State :=
  { ((port .up).wr FPORT_AID_LAST 0xFFF 0 0) with
    agents := [(7, { state := agLive, inc := 3, fencedAt := 0 })], shape := { Shape.fresh with open_ := true } }

/-- The same with a node as the port's peer, which is the partner and may access registers. -/
def nodePeer : State := ((open_.wr FPORT_PEER_ROLE 3 0).wr TWIN_PARTNER_NID 9).wr FPORT_MMIO_ACCESS 2 0

def slots (n : Nat) : List Slot := List.replicate n 0
def req (opc n : Nat) : Msg := mkMsg clsReq [(0, 8, opc), (8, 12, 7), (28, 11, 5), (59, 46, 1), (117, 3, 3)] (slots n)
def rsp (opc n : Nat) : Msg := mkMsg clsRsp [(0, 8, opc), (8, 12, 7), (40, 12, 7)] (slots n)
def sys (opc off : Nat) : Msg := mkMsg clsSys [(0, 8, opc), (8, 12, 7), (33, 1, 1), (45, 24, off)]
def node (opc : Nat) (l : List (Nat × Nat × Nat)) (n : Nat) : Msg := mkNodeMsg opc 9 0 0 l (slots n)

/-- A CMIS module of low power. -/
def module : Module :=
  { cmis := true, idByte := 0x1E, rev := 0x50, state := 6, maxPwr := 40, length := 0, vendor := 0, partNum := 0, serial := 0 }
/-- A snoop's answer of agent 7 for a line. -/
def answer (opc la n : Nat) : Msg := mkMsg clsRsp [(0, 8, opc), (20, 1, 1), (40, 12, 7), (55, 46, la)] (slots n)
/-- A SYS_RSP of node 9 for a TXID. -/
def nodeRsp (txid : Nat) : Msg := mkNodeMsg 0x82 9 0 txid []

def parOk : ParamsFlit :=
  { version := 1, role := 1, encCap := false, encReq := false, nid := 0, aidFirst := 0, aidCount := 0, replay := 512 }
def parBad : ParamsFlit := { parOk with encReq := true }
def linkKey_ : LinkKey := { key := 0, salt := 0 }
def crypt (g : List Flit) : LinkCrypt := { active := true, keys := [some linkKey_, some linkKey_], sel := false, counts := [0, 0], group := g }
def keyed : State := withPort { upPort with txCrypt := crypt [], rxCrypt := crypt [] }
def flit : Flit :=
  { ftype := 0, seq := 0, ack := 0, nak := false, tag := false, crdClass := 0, crdCount := 0, ksel := false, slots := [] }
def grouped : State := withPort { upPort with txCrypt := crypt [flit] }
def unacked : State := withPort { upPort with unackedRx := 2, rxAck := 5, toReturn := [1, 0, 0, 2] }
def discards : State := withPort { upPort with discarding := true, nakSent := true }
def zeroBody : Bytes := List.replicate 260 0
def zeroFlit : Bytes := flitSeal zeroBody
def badFlit : Bytes := [1, 2, 4, 0, 5, 0, 0, 0, 3] ++ zeroFlit.drop 9
def expects : State := withPort { upPort with rxAck := 1023 }
/-- The checked bytes of a flit. -/
def flitBody (f : Flit) : Bytes := f.hdrBytes ++ f.slotBytes
/-- A plain flit of a type and SEQ with slots. -/
def plain (ty : Nat) (seq : BitVec 10) (l : List Slot) : Flit := { flit with ftype := BitVec.ofNat 2 ty, seq := seq, slots := fillSlots l }
/-- A flit whose FEC finds nothing and whose CRC fails. -/
def crcFlit : Bytes :=
  let body := List.replicate 263 0 ++ [1]
  let (e, o) := deal body
  (body ++ fecParity e ++ fecParity o).map (BitVec.ofNat 8)
def msgFlit : Flit := plain 0 1 ((req 1 0).slots)
def ackFlit : Flit := { flit with ftype := 1, ack := 3, slots := fillSlots [] }
def nakFlit : Flit := { flit with ftype := 1, nak := true, ack := 0, slots := fillSlots [] }
def tagFlit : Flit := { plain 0 1 [] with tag := true }
def sealed_ : State := withPort { upPort with rxCrypt := crypt [] }
def noKeys : State := (withPort { upPort with rxCrypt := { crypt [] with keys := [none, none] } }).wr FPORT_PEER_ROLE 3
def mustSeal (keys : List (Option LinkKey)) : State :=
  (withPort { Port.fresh with
      train := .step 8, lastParams := some { parOk with encCap := true }, txCrypt := { LinkCrypt.off with keys := keys } }).wr FPORT_ENC_REQUIRE 1

def cxl : State := withPort { upPort with mode := 1 }
def cxlReq (op : CxlOp) : CxlReq := { op := op, tag := 3, dpa := 64, data := 0, be := 0, poison := false }
def cxlOpen : State :=
  (({ cxl with shape := { Shape.fresh with open_ := true } } : State).wr FPORT_CXL_DIRECT 1).wr SHAPE_T_QLIMIT 8 0 0
/-- A CXL host, agent 7, behind port 1, whose request waits for an owner's answer. -/
def relays (op : Op) : State :=
  let s : State := { nodePeer with reqs := [{ Req.blank with op := op, place := .tracked, id := 4, port := 1, cxl := true, aid := 7 }] }
  (s.setPort 1 { upPort with mode := 1 }).wr FPORT_CXL_AID 7 1
def cxlTrk : Trk :=
  { slot := 0, la := 3, kind := .inv, view := 0, req := 1, awaited := [(0, false), (7, false)], since := 0, slow := false,
    exact := false, serve := false, fault := false, before := none }
def cxlAsked : State :=
  { withPort { upPort with mode := 1, cxlBi := [(3, none)] } with
    agents := [(0, { state := agLive, inc := 0, fencedAt := 0 })], openTx := [(3, 1)] }

/-! ### Epochs, admission, regions -/

def pend : State := { base with commitPending := true, openEpoch := 1, slowRaised := false }
def blank : Req := Req.blank
def evict : Req := { blank with op := .clnEvict, place := .bypass, id := 4, aid := 7 }
def bypassing : State := { open_ with reqs := [evict] }
def queuedReq : Req := { blank with op := .jobClose, place := .queued, id := 4, aid := 7 }
def queuedOne : State := { open_ with reqs := [queuedReq] }
def fenced : State := { base with agents := [(7, { state := agFenced, inc := 0xFFFF, fencedAt := 0 })], ao := 1563 }
def scan : Scan := { Scan.idle with agents := [(7, dirSets, 0, 0)] }
def scanning : State := { base with scan := some scan }
def sweptScan : Scan := { Scan.idle with agents := [(7, 0, 1, 2)] }
def swept : State := { base with scan := some sweptScan, ao := 99 }
def region (s : State) : State :=
  ((((s.wr TEN_R_VALID 1 0 5).wr TEN_R_COH 1 0 5).wr TEN_R_BASE 24 0 5).wr TEN_R_SIZE 24 0 5).wr TEN_R_TID 0 0 5
def homeReq : Req := { blank with op := .rdCur, place := .home, id := 4, aid := 7, incLo := 3, off := 16 * 64, region := 5 }
def homeWait : State := region { open_ with reqs := [homeReq] }
def slowTrk : Trk :=
  { slot := 0, la := 16, kind := .inv, view := 0, req := 1, awaited := [(7, false)], since := 0, slow := false, exact := false,
    serve := false, fault := false, before := none }
def slow : State := { base with trks := [slowTrk], ao := 0xFFFFFFFF }
/-- A snoop of line 16 for the uncached request that waits on two agents. -/
def snoopTrk : Trk :=
  { slot := 0, la := 16, kind := .inv, view := 0, req := 4, awaited := [(7, false), (8, false)], since := 0, slow := false,
    exact := false, serve := false, fault := false, before := none }
def snooping : State :=
  let s : State := { open_ with reqs := [{ homeReq with place := .tracked }], trks := [snoopTrk], openTx := [(16, 4)] }
  region s
/-- A coherent read of line 16 that waits at HOME, the line's set in the on-die cache. -/
def homeRead : Req := { blank with op := .rdS, place := .home, id := 4, aid := 7, incLo := 3, off := 16 * 64, region := 5 }
def readWaits (d : List DirEnt) : State :=
  ({ open_ with reqs := [homeRead], dir := d, frames := [(dirSet 16, false)],
                agents := open_.agents ++ [(8, { state := agLive, inc := 1, fencedAt := 0 })] } : State)
def ownedEnt : DirEnt :=
  { la := 16, way := 0, modif := true, coarse := false, region := 5, age := 0, ptrs := [(8, 1)], gvec := 0, shadow := false }
def held : State := { base with holdBuf := some (5, 0x00180018) }
def recalled : State := { base with scan := some { Scan.idle with regionRc := some (5, 0) } }

/-! ### Translation and moves -/

def rdReq : Req := { blank with op := .rdS, place := .resolving, id := 4, aid := 7, addr := 24 * 0x10000000 }
def readable (s : State) : State := ((region s).wr TEN_R_PERM_RD 1 0 5).wr TEN_R_SIZE 24 0 5
def resolving : State := readable { open_ with reqs := [rdReq] }
def resolvingBad : State := { open_ with reqs := [rdReq] }
def walkPga : Nat := 5 * 65536
def walkReq : Req := { rdReq with place := .walking, as1 := true, wait := 7, val := 2 + walkPga, addr := 64 }
def walked : State := { open_ with reqs := [walkReq] }
def walkReqInvalid : Req := { walkReq with val := 0 }
def walkedInvalid : State := { open_ with reqs := [walkReqInvalid] }
def leaf : Leaf :=
  { tid := 3, size := 0, page := 0, remote := false, nid := 0, pga := 65536, nocount := false, cnt := 7, score := 4, queued := false,
    lastAid := 7 }
def cached : State := { (open_.wr FPORT_MMIO_ACCESS 2 0) with tc := [leaf] }
def xinvMsg : Msg := mkMsg clsSys [(0, 8, 0x88), (8, 12, 7), (33, 1, 1), (45, 8, 3), (85, 2, 3)]
def syncing : State := { base with xsyncs := [(0, sys 0x89 0, [3])] }
def move (st : MState) : Move := { Move.fresh with state := st, region := 5, doneL := 2, issued := 3, size := 0, tid := 3 }
def mv (st : MState) : State := { base with moves := [(0, move st)] }
def mvAck : State := { base with moves := [(0, { move .incoming with doneL := 4, acked := 1 })] }
def relReady : State := { base with moves := [(0, { move .done with kind := 1 })] }
/-- A write that waits at a queue for a line. -/
def lineEntry (bank row col : Nat) (d : Nat) : Entry :=
  { plainEntry .write .home 0 with bank := bank, srow := row, row := row, col := col, data := BitVec.ofNat 512 d }
/-- Tables of TID 0 in region 5, whose first 2 MB page is mapped to a frame of the same region. -/
def tables (s : State) : State :=
  let s1 : State := ((region s).wr XLAT_ROOT_XEN 1 0 0).wr XLAT_ROOT_BASE 0x180000000 0 0
  (s1.setQueue 32 { Queue.fresh with waiting := [lineEntry 0 512 0 0x180001001] }).setQueue 0
    { Queue.fresh with waiting := [lineEntry 0 512 0 0x180200002] }
def goPga : Nat := 0x180200000
def goReady : State := tables { base with moves := [(0, { Move.fresh with destPga := 0x180400000 })] }
/-- A finished local move whose release walks the tables. -/
def relGo : State := tables { base with moves := [(0, { move .done with kind := 1, tid := 0 })] }
def resumeMsg : Msg := mkNodeMsg 0xA0 9 0 0 [(45, 4, 1), (76, 1, 1)] [0]
def destStuck (s : State) : State := { s with moves := [(2, { move .stuckIn with issued := 3, remoteMid := 1, peer := 9, region := 5 })] }
def startMsg : Msg :=
  mkNodeMsg 0xA0 9 0 0 [(45, 4, 2), (73, 2, 1)] [BitVec.ofNat 128 (0x180200000 * 2 ^ 64)]
def destReady : State := tables nodePeer
def destMove : Move := { move .incoming with issued := 3, remoteMid := 1, peer := 9, region := 5 }
def destGoing : State := { nodePeer with moves := [(2, destMove)] }
def lineMsg : Msg := node 0xA1 [(45, 4, 1), (49, 16, 3)] 4
def ackMsg : Msg := node 0xA2 [(45, 4, 1), (49, 16, 3)] 0
def doneMsg : Msg := node 0xA3 [(45, 4, 1)] 0
def srcGoing : State := { nodePeer with moves := [(1, { move .copying with kind := 1, peer := 9 })] }

/-! ### Channels and retirement -/

def mchUp : State := (base.wr H_COND 1 0x20).wr MCH_TRAIN_STATE 0xF 0
def entry (k : EKind) : Entry := plainEntry k .home 0
def withQueue (s : State) (q : Nat) (c : Queue) : State := s.setQueue q c
def waits (k : EKind) : State := withQueue mchUp 1 { Queue.fresh with waiting := [entry k] }
def wrEntry : Entry := { entry .write with bank := 3, srow := 7, row := 7, col := 5, words := [List.replicate 80 9], phase := 0 }
def rdEntry : Entry := { entry (.read .rescan) with bank := 3, srow := 7, row := 7, col := 5 }
def openBank : BankTime := { opened := some 7, fresh := true, lastAct := 0, lastPre := 0, lastRd := 0, lastWr := 0, lastVaa := 0, lastTra := 0 }
def holding (e : Entry) : State := withQueue mchUp 1 { Queue.fresh with entries := [e], banks := [(3, openBank)], hist := [⟨0, true, []⟩] }
def writing : State := holding wrEntry
def reading : State := holding rdEntry
def statusRet : Ret := { ent := entry .status, words := [], whole := true }
def statusBack : State := withQueue mchUp 0 { Queue.fresh with rets := [statusRet] }
def pageHead : Bytes :=
  ascii "XD96" ++ [0, 0, 0, 0] ++ [2, 16, 0, 2, 0, 2, 13, 8] ++ List.replicate 236 0
def goodPage : Bytes := pageHead ++ leBytes 4 (crc32c pageHead)
def retried : State := { (base.wr MCH_TRAIN_STATE 1 0) with mchs := [(0, { Mch.fresh with retried := true, step := 1 })] }
def issued : State := withQueue mchUp 0 { Queue.fresh with issued := 5 }
def clearing : State := { base with mchs := [(0, { Mch.fresh with clears := true })] }
def stale : State := { base with mchs := [(0, { Mch.fresh with stale := [(1, 2, 3, 0)] })] }
def pageEnt : PageEnt := { page := 9, counts := [1], lasting := true, born := 0 }
def withPage (e : PageEnt) : State := { base with ras := { Ras.fresh with pages := [(0, e)] } }
def pages : State := withPage pageEnt
def pageZero : PageEnt := { page := 9, counts := [], lasting := true, born := 0 }
def pagesZero : State := withPage pageZero
def banks : State := { base with ras := { Ras.fresh with banks := [(0, { BankEnt.fresh with lasting := true })] } }
def patrols : State := base
def rmapEnt : RmapEnt := { q := 1, bank := 2, sa := 3, spare := 509, state := 1, placed := 0, copied := 0, issued := 0 }
def copies : State := { base with ras := { Ras.fresh with rmap := [(4, rmapEnt)], running := some 4 } }
def logged : State := { base with evlog := { Evlog.fresh with ring := [(0, []), (1, []), (2, [])], head := 3, used := 3 } }
def withRescan (r : Rescan) : State := { base with rdl := { base.rdl with rescan := some r } }
def rescanning : State := withRescan { q := 0, bank := 1, sa := 2, left := 5, missed := false }
def rescanRec : Rescan := { q := 0, bank := 1, sa := 2, left := 0, missed := false }
def rescanned : State := withRescan rescanRec

/-! ### Bakes -/

/-- A logic Bake of one row group of region 5, with plan 2 and nothing begun. -/
def bake : Bake :=
  { State.bakeOf base Req.blank 0 none with
    id := 1, tid := 0, plan := 2, base := 0x10, entry := 0x10, kind := kCOPY, stage := 3, order := some 0, scratch := 0xFF }
def plan : Plan := { num := 2, tid := 0, base := 0x10, words := 0x3000, sealed_ := false, ops := [(0x10, kCOPY, 0xFF, true)], closing := none }
def ctx (w : Nat) : Ctx :=
  { Ctx.fresh with state := 1, bid := 1, pc := 0x10, window := [(w, false), (0x04000000, false)], x := [1, 0xFFFFFFFF, 0, 3, 4, 5, 6, 0x20],
                   lc := [0, 2, 5, 0xFFFF] }
def withCtx (b : Bake) (c : Ctx) : State := { base with bakes := [b], plans := [plan], ctxs := [(0, c)] }
def uop (w : Nat) : State := withCtx bake (ctx w)
def uopRet (w : Nat) : State := withCtx bake { ctx w with stack := [9] }
def emptyWindow : State := withCtx bake { ctx 0 with window := [] }
def group : Group := { q := 1, bank := 2, sa := 3, cmds := [], tooBig := false, closed := false }
def uopGrp (w : Nat) : State := withCtx bake { ctx w with group := some group }
def stalledGend : State := withCtx bake { ctx 0x90000000 with group := some group, state := 2, stall := 1 }
def groupEntry : Entry := { plainEntry (.group 0 0 []) .rce 0 with bake := some 1 }
def uopBusy (w : Nat) : State := (uop w).setQueue 0 { Queue.fresh with entries := [groupEntry] }
def stalledWait : State := withCtx bake { ctx 0xA4000000 with state := 2, stall := 3 }
def laneBake : Bake := { bake with kind := kREDUCE, laneOk := true, len := 8, elem := 0, rop := 1, order := none, stage := 0 }
def laneJob : LaneJob := { bid := 1, ctx := 0, kind := 0, rank := 0, last := 1, got := [], busy := false }
def uopLane (w : Nat) : State := withCtx laneBake (ctx w)
def stalledLane (w : Nat) : State := withCtx laneBake { ctx w with state := 2, stall := 2 }

def closingPlan : Plan := { plan with num := 63, closing := some 0 }
def unloading : State := { base with plans := [closingPlan] }
def bakeReq : Req := { blank with op := .bakeSub, place := .bakeWait, id := 1, aid := 7, incLo := 3 }
def bakeWaits : State := { open_ with reqs := [bakeReq], bakes := [laneBake] }
def runBake : Bake := { bake with stage := 1, len := 12288, spanA := (5, 0x180000000), spanD := (5, 0x180000000), kind := kCOPY }
def bakeReady : State := (region { base with bakes := [runBake], plans := [plan] }).wr TEN_R_LAYOUT 1 0 5
def reduceBake (n : Nat) : Bake := { laneBake with stage := n, order := some 0, decided := n == 5, record := (5, 0x180000020), status := (5, 0x180000038) }
def recordDue : State := { base with bakes := [reduceBake 4] }
def statusDue : State := { base with bakes := [reduceBake 5] }

/-- A plan image of one COPY operator, whose one word is END. -/
def imageBody : Bytes := leBytes 8 (0x20 + 1 * 2 ^ 16) ++ leBytes 4 0x24000000
def imageBytes : Bytes := leBytes 4 0x4C504251 ++ leBytes 4 0x00000101 ++ leBytes 4 (0x20 + 1 * 2 ^ 16) ++ leBytes 4 (crc32c imageBody) ++ imageBody
def imageReq : Req := { blank with op := .planLoad, place := .bakeWait, id := 0 }
def imageLoad : Load := { rid := 0, asked := 1, lines := [(0, BitVec.ofNat 512 (leNat imageBytes))], left := 0, bad := false }
def imageHead : Image := Machine.imageHead (leNat imageBytes)
def image : State := ((region { base with reqs := [imageReq], loads := [imageLoad] }).wr TEN_R_SIZE 24 0 0)
def imageBadLoad : Load := { imageLoad with lines := [(0, 0)] }
def imageBad : State := { base with reqs := [imageReq], loads := [imageBadLoad] }

/-! ### The pair -/

def turn (n : Nat) : State :=
  { ((nodePeer.wr TWIN_PAIR_EN 1).wr TWIN_TW_WINDOW 8) with twin := { Twin.fresh with turn := n } }
def standby : State := turn tuStandby
def withTwin (f : Twin → Twin) (n : Nat) : State := let s := turn n; { s with twin := f s.twin }
def standbySynced : State := withTwin (fun t => { t with synced := true, heard := some 3 }) tuStandby
def holder : State := turn tuHolder
def leased : State := withTwin (fun t => { t with synced := true, leased := true }) tuHolder
def joining : State := turn tuJoining
def tw (opc n : Nat) : Msg := node opc [(45, 24, 1)] n
def twPend : Msg := mkNodeMsg 0x91 9 0 0 [(45, 24, 1), (69, 37, 16), (106, 1, 1)] [1, 0]
def twBakeMsg : Msg := node 0x93 [(45, 24, 1), (69, 8, 3), (77, 16, 5), (107, 1, 1)] 4
def holderUnacked : State := withTwin (fun t => { t with seqSent := 1, unacked := [(1, tw 0x90 4, 0, 0)] }) tuHolder
def twRec (h : Bool) : TwBake :=
  { tid := 0, btag := 0, holder := h, seq := 1, bid := none, job := 0, desc := 0, answer := none, copies := false, ended := false }
def shares : State := withTwin (fun t => { t with bakes := [twRec false] }) tuStandby
def sharesHolder : State := withTwin (fun t => { t with bakes := [twRec true] }) tuHolder
def renewed : State := { withTwin (fun t => { t with renewals := [(1, 7)] }) tuHolder with ao := 9 }
def resyncing : State := (region (withTwin (fun t => { t with resync := some 0 }) tuHolder)).wr TEN_R_MIRROR 1 0 5

/-! ### METER and the ZM-3 -/

def withMeter (m : Meter) : State := { base with meter := m }
def meter : Meter := { Meter.fresh with present := true, sync := true, ident := true }
def metered : State := { withMeter meter with tally := [(7, noCounts)] }
def meterUnacked : State := withMeter { meter with unacked := [(3, fyNull, [])] }
def meterDue : State := withMeter { meter with ackDue := true, rxSeq := 9 }
def proofs : State := withMeter { meter with proofs := [(1, []), (2, [])], head := 2 }
def closingJob : JobRec :=
  { tid := 3, job := 4, state := 1, closer := none, waits := [], disabled := false, shutdown := false, folded := false, first := 0, last := 0,
    unmet := noCounts }
def closes : State := { base with jobs := [closingJob] }
def hdr (seq ack : Nat) : FrameHdr := { seq := BitVec.ofNat 16 seq, ack := BitVec.ofNat 16 ack, nak := false, good := true }
def identB : IdentBody :=
  { serial := 5, lrVersion := 0x01030000, lrChecksum := 7, certId := 8, sealEvents := 9, calDate := 10, pubKey := List.replicate 32 0 }
def statusB : StatusBody :=
  { interval := 0xFFFFFFFF, sealEvents := 9, cond := 1, degCause := 4, bayClosed := true, sealed := true, selfTest := true,
    energies := List.replicate 12 1 }
def zjobRec : ZJob := { tid := 3, job := 4, first := 0, acc := [0, 0, 0, 0, 0, 0], odd := [] }
def zjob : State := { base with zm3 := { Zm3.fresh with jobs := [zjobRec] } }

/-! ### Power, the tray and Warden -/

def parks : State :=
  allPages.foldl (fun (s : State) p => s.wr H_PWR_NOW 2 p) ((base.wr CLK_MC_STATE pllRunning).wr CLK_PARK_MC 1)
def naps : State :=
  let s := List.range 131
  s.foldl (fun (s : State) p => s.wr H_PWR_POLICY 3 p) base
def retries : State := (tm { Tmc.fresh with latched := true, kind := 2 }).wr TMCB_HS_POLICY 2
def shut (rails : Bool) : Shut := { cause := 1, metered := true, flushed := true, rails := rails, ended := false }
def shutEnded : Shut := { shut true with ended := true }
def ending : State := { tm { Tmc.fresh with shut := some (shut false) } with meter := { Meter.fresh with ended := true } }
def sens : Sensors := { inputV := 0xFFFF, inputI := 1, bankV := 0xFFFF, coolantIn := 80, coolantOut := 0xFFFF }
def rested : State :=
  tm { Tmc.fresh with now := 156250, offAt := some 0, readings := some sens, shut := some shutEnded, nodeRails := false }

def busy (code len : Nat) (s : State) : State := { s with warden := { s.warden with busy := some (code, len, false) } }
def owned : State := { base with warden := { Warden.fresh with owner := some 7 } }
def configured : State :=
  (((channels.foldl (fun (s : State) n => s.wr H_COND 1 (pgMCH n)) base).wr H_COND 1 pgHOME).wr H_COND 1 pgDIRC).wr WARDEN_BOOT_PHASE 3
/-- Memory channels that run, before the home units do. -/
def channelsUp : State := (channels.foldl (fun (s : State) n => s.wr H_COND 1 (pgMCH n)) base).wr WARDEN_BOOT_PHASE 2
def trial : State :=
  { ((base.wr WARDEN_TRIAL 1).wr WARDEN_BOOT_PREF 0) with warden := { Warden.fresh with trial := true, former := 1 } }
def prepared : State := { base with warden := { Warden.fresh with prep := some 3, sweep := 2 }, meter := { Meter.fresh with ended := true } }

/-! ### Keys -/

def tpk : State := busy 0x40 0 { base with tpk := some (1, p384Gx, p384Gy) }
def heldSlot : KeySlot := { state := ksLoaded, tid := 3, gen := 1, cur := 9, old := none }
def erases : State := (busy 0x43 1 { base with slots := [(2, heldSlot)] }).wr WARDEN_MBX_BUF 3 0 0
def erasing : State := (busy 0x43 1 { base with slots := [(2, { heldSlot with state := ksErasing })] }).wr WARDEN_MBX_BUF 3 0 0
def rot : Rot := { slot := 2, tid := 3, region := 5, la := 0x6000000, issued := false }
/-- A key command that executes, its buffer with tenant 3, generation 1 and no valid point. -/
def keyCmd (code : Nat) : State := (busy code 172 base).wr WARDEN_MBX_BUF 0x103 0 0
/-- LINK_KEY_LOAD for transmission of port 15 into set 1, with no valid point. -/
def linkCmd : State := (busy 0x44 148 base).wr WARDEN_MBX_BUF 0x1000F 0 0
def rotates : State := { base with rot := some rot }

/-! ### Steps -/

def queued (c : Instr) (s : State) : State := { s with pending := [c] }
/-- The state after a command. -/
def ran (c : Instr) (s : State) : State :=
  match exec c s with
  | .next t => t
  | _ => s
/-- The state after one step. -/
def next (s : State) : State :=
  match step s with
  | .next t => t
  | _ => s

end W

end Sys2Proof.Tests
end

