-- ==== Sys2Proof/WellFormed.lean ====
section
/-! DEFINITION. Which terms of the commands stand for something that the outside can send: the class and opcode that a message's
row names, and the lengths that the manual gives the lists. The meanings are total and do not ask for it. -/
namespace Sys2Proof

/-- A message of a class and opcode (Table 4-5), with the slots that DSLOTS can name (R66). A message with a DSLOTS that its opcode
does not take is well formed: the port answers it as R94 says. -/
def Msg.wf (m : Msg) (cls opc : Nat) : Bool :=
  m.cls.toNat == cls && m.hdr.toNat % 256 == opc && decide (m.data.length ≤ 7)

/-- An error mask of a line names symbols of its 80 (R261). -/
def errsWf (e : List (Nat × Byte)) : Bool := e.all (fun x => decide (x.1 < 80))

/-- What a queue's oldest read delivers. -/
def ReadBurst.wf : ReadBurst → Bool
  | .lines l => l.all errsWf
  | .status _ _ => true
  | .lineError => true
  | .tracked _ => true

/-- A block page of Table 2-1. -/
def pageWf (p : BitVec 12) : Bool := decide (p.toNat ≤ 0x82)

/-- A record of a Tally has eleven counts (Table 16-4). -/
def TallyRec.wf (r : TallyRec) : Bool := r.counts.length == 11

/-- The checks of each command's operands. -/
def Instr.wf : Instr → Bool
  | .registerWrite _ _ _ | .pairLowerRead _ | .pairLowerWrite _ _ | .pairUpperWrite _ _ | .rcRead _ => true
  | .wmkCrossedRead p _ | .wmkExtremeRead p _ | .intForce p _ | .intEnWrite p _ | .blkLockSet p => pageWf p
  | .intRouteWrite _ | .commit | .discard | .commitDone | .drainSlow => true
  | .flitReceive _ f => f.length == 272
  | .nakRepeat _ | .ackTimer _ | .creditReturnTimer _ | .tagGroupClose _ | .params _ _ | .creditInit _ _ | .credit _ _ => true
  | .keySwitch _ _ | .recover _ | .down _ _ | .retrain _ | .keySwitchWrite _ | .enableWrite _ _ | .lossOfSignal _ => true
  | .trainingStepDone _ _ | .trainAttemptTimeout _ | .linkTimeout _ | .moduleChange _ _ | .cxlMemRequest _ _ => true
  | .cxlBirsp _ _ | .cxlLinkDown _ => true
  | .cxlIoAccess _ _ (.bar0 a) dws => a.toNat % 4 == 0 && decide (1 ≤ dws.length) && decide (dws.length ≤ 1024)
  | .cxlIoAccess _ write (.hdm _) dws => dws.length == if write then 2 else 3
  | .rdS _ m => m.wf 0 0x01
  | .rdOwn _ m => m.wf 0 0x02
  | .upg _ m => m.wf 0 0x03
  | .rdCur _ m => m.wf 0 0x04
  | .wrFull _ m => m.wf 0 0x05
  | .wrPtl _ m => m.wf 0 0x06
  | .wb _ m => m.wf 0 0x07
  | .clnEvict _ m => m.wf 0 0x08
  | .jobOpen _ m => m.wf 0 0x18
  | .jobClose _ m => m.wf 0 0x19
  | .jobCloseEffect _ _ => true
  | .snpAck _ m => m.wf 2 0x42
  | .snpAckD _ m => m.wf 2 0x43
  | .dataRelay _ m => m.wf 2 0x40 || m.wf 2 0x41
  | .sysRsp _ m => m.wf 3 0x82
  | .mmioRd _ m => m.wf 3 0x80
  | .mmioWr _ m => m.wf 3 0x81
  | .requestAdmit _ | .bucketRefill | .loadUpdate | .agentLimitStep | .resolve _ | .walkDone _ | .homeOrder _ | .snpSlow _ => true
  | .probeGo | .agentAdmit _ _ | .agentNotice _ _ | .agentReadmit _ _ | .sweepStep | .sweepEnd => true
  | .regionWord1Write _ _ | .regionWord0Write _ _ | .recallGo | .recallDone => true
  | .getTpk | .keyLoad | .keyRotate | .keyErase | .slotErased _ | .linkKeyLoad | .rekeyIssue => true
  | .queueAccept _ | .mchCommandIssue _ | .refreshPlacement _ | .statusPlacement _ | .segClearDone _ | .stackRailsGood => true
  | .readDataReturn _ b => b.wf
  | .trainingDone _ page fails => fails.isSome || page.length == 256
  | .retrainPlacement _ | .parityAlert _ _ | .mchPowerEntry _ => true
  | .patrolPlacement | .scrubRateStep | .sliceBoundary | .ptClear | .btClear | .add _ | .rmapCopyPlace | .staleFlush => true
  | .evlogTailWrite _ | .rescanGo | .rescanDone => true
  | .bakeSub _ m => m.wf 0 0x10
  | .bakeAbort _ m => m.wf 0 0x11
  | .planLoad _ m => m.wf 0 0x12
  | .planUnload _ m => m.wf 0 0x13
  | .planImageReadDone _ | .planUnloadDone _ | .bakeOrder _ | .bakeStart _ _ | .refillDone _ _ => true
  | .nop _ _ | .br _ _ | .bz _ _ | .bnz _ _ | .bltu _ _ | .loop _ _ | .call _ _ | .ret _ _ | .endOp _ _ => true
  | .lci _ _ | .lcx _ _ | .csync _ _ | .csw _ _ | .cscp _ _ | .li _ _ | .lih _ _ | .addi _ _ | .sub _ _ => true
  | .andOp _ _ | .orOp _ _ | .xorOp _ _ | .shli _ _ | .shri _ _ | .movlc _ _ => true
  | .grp _ _ | .sload _ _ | .sneg _ _ | .stra _ _ | .gend _ _ | .gendRelease _ _ | .lane _ _ | .laneRelease _ _ => true
  | .waitl _ _ | .waitg _ _ | .waitRelease _ _ | .recordWrite _ | .statusWordWrite _ => true
  | .xinv _ m => m.wf 3 0x88
  | .xsync _ m => m.wf 3 0x89
  | .xsyncDone | .windowBoundary | .hpqTailWrite _ | .go | .resume | .abandon | .release | .migrLineTxn _ => true
  | .migrStart _ m => m.wf 3 0xA0
  | .migrLine _ m => m.wf 3 0xA1
  | .migrAck _ m => m.wf 3 0xA2
  | .migrDone _ m => m.wf 3 0xA3
  | .migrAckTimer _ | .moveTimeout _ => true
  | .twLine _ m => m.wf 3 0x90
  | .twDelta _ m => m.wf 3 0x91
  | .twAck _ m => m.wf 3 0x92
  | .twBake _ m => m.wf 3 0x93
  | .twBakeEnd _ m => m.wf 3 0x94
  | .twBakeRsp _ m => m.wf 3 0x95
  | .twRenew _ m => m.wf 3 0x98
  | .twRenewAck _ m => m.wf 3 0x99
  | .twHandover _ m => m.wf 3 0x9A
  | .twJoin _ m => m.wf 3 0x9B
  | .twSynced _ m => m.wf 3 0x9C
  | .twAckTimer | .renewTimer | .fenceDeadline | .takeover | .resyncLine | .autoJoinTimer | .claim | .join | .solo | .leave => true
  | .meterLinkSync | .meterLinkLost | .meterFrameResend | .meterAckTimer => true
  | .ident _ b => b.pubKey.length == 32
  | .status _ b => b.energies.length == 12
  | .proof _ _ p => p.length == 256
  | .alarm _ _ _ _ | .intervalMark | .intervalLocalClose | .proofTailWrite _ | .zm3Presence _ | .meterEnroll | .meterForget => true
  | .zm3JobOpen _ _ _ => true
  | .zm3TallyEnd _ recs energies _ _ => recs.all TallyRec.wf && energies.length == 12
  | .zm3JobClose _ _ _ _ unmet => unmet.length == 11
  | .referenceLoss | .pllPark _ | .pllFastStartDone _ _ | .pllLockLoss _ => true
  | .blockNapEntry p | .blockDozeEntry p | .blockOffEntry p | .blockWakeDone p _ => pageWf p
  | .tjSample r => r.length == 16
  | .tjReport | .thermtrip | .tmcMirrorUpdate _ | .tmcLost | .hsEnable | .hsFastTrip | .hsTimerTrip | .hsOvervoltage | .hsRetry => true
  | .undervoltage | .inputReturn | .shutdownCommit _ | .shutdownDrainLimit | .railsOff | .bankOutputOpen | .hardCut => true
  | .trayRestart | .leakDetect _ | .leakDetectorReset _ _ _ | .coolingUpdate _ | .pumpFail _ | .watchdogExpiry | .tmcBoot => true
  | .pinFunctionSwitch _ _ | .strapSample _ | .presenceDebounce _ _ | .chassisResetOn _ | .gracefulShutdown | .forceOff => true
  | .powerCycle | .bootSourceOverride _ | .coldReset | .warmResetAssert | .refReturnReset | .hbStall | .wardenHeartbeat _ => true
  | .coreLockup _ _ _ | .trialTimeout | .mbxClaim _ | .mbxRelease _ | .ping | .getInfo | .getIdcert | .admitKeys => true
  | .warmReset | .blockReset | .profileWrite | .profileRead | .rmapForget | .imageWrite | .imageCheck | .imagePrefer => true
  | .imageConfirm | .svnAdvance | .standbySupplyLoss | .meterLinkOutOfSync | .null _ | .zm3Hello _ _ | .zm3ProofAck _ => true
  | .configReady | .coldLockDone _ | .bankCapacitanceTest _ | .managerReset | .tmcFirmwareUpdate _ | .cxlMailboxCommand _ _ => true
  | .internalError p _ => pageWf p

end Sys2Proof
end

