-- ==== Sys2Proof/Tests/Slice0.lean ====
section
/-! SUPPORT. Tests: terms that each check of WellFormed refuses, the worked cases of the manual, and for each obligation states and
operands that meet its premises. -/
namespace Sys2Proof.Tests

open Machine Reg

set_option maxRecDepth 100000
set_option Elab.async false

/-! ### WellFormed -/

def badOpcode : Msg := W.req 0x02 0
def badClass : Msg := { W.req 0x01 0 with cls := 2 }
def longMsg : Msg := W.req 0x01 8

theorem test_wf_refuses_messages : [Instr.rdS 0 badOpcode, .rdS 0 badClass, .rdS 0 longMsg, .dataRelay 0 badOpcode, .twLine 0 badOpcode].all
    (fun c => !c.wf) = true := by decide
theorem test_wf_refuses_pages : [Instr.intForce 0x83 0, .wmkCrossedRead 0xFFF 0, .blockNapEntry 0x100, .internalError 0x83 true].all
    (fun c => !c.wf) = true := by decide
theorem test_wf_refuses_lengths :
    [Instr.flitReceive 0 [1, 2], .trainingDone 0 [] none, .ident (W.hdr 1 0) { W.identB with pubKey := [] },
     .status (W.hdr 1 0) { W.statusB with energies := [] }, .proof (W.hdr 1 0) 1 [0], .zm3TallyEnd 0 [⟨1, 2, []⟩] (List.replicate 12 0) 0 true,
     .zm3TallyEnd 0 [] [] 0 true, .zm3JobClose 1 2 3 0 [], .tjSample [], .readDataReturn 0 (.lines [[(80, 1)]])].all
    (fun c => !c.wf) = true := by decide +kernel
theorem test_wf_accepts :
    [Instr.rdS 0 (W.req 0x01 0), .rdS 0 (W.req 0x01 4), .dataRelay 3 (W.rsp 0x41 0), .intForce 0x82 0, .flitReceive 0 W.zeroFlit,
     .trainingDone 0 W.goodPage none, .trainingDone 0 [] (some 6), .readDataReturn 0 (.lines [[(79, 255)]])].all Instr.wf = true := by decide +kernel

/-! ### Worked cases of the manual -/

/-- The header slot of the worked case of "The CCF Transaction Set". -/
def headerBytes : List Byte := [0x80, 0x02, 0xA7, 0xA0, 0x52, 0x9C, 0x0B, 0x02, 0x08, 0xCF, 0x02, 0x00, 0xE8, 0x0F, 0x0A, 0x24]
def headerMsg : Msg := slotMsg (BitVec.ofNat 128 (leNat headerBytes))

theorem test_header_fields :
    (headerMsg.opc, headerMsg.rqSrc, headerMsg.rqTid, headerMsg.rqTxid, headerMsg.rqJob) = (0x02, 0x0A7, 0x2A, 0x1C5, 0x417) ∧
    (headerMsg.rqDnid, headerMsg.rqAs, headerMsg.rqAddr, headerMsg.rqInc, headerMsg.rqPsn) = (5, true, 0x1FD000059E1, 1, false) := by decide

/-- The set, tag and entry of the worked case of "Directory Coherence". -/
theorem test_directory_place :
    (dirTag 0x48D159E1, dirSet 0x48D159E1, setOff (dirSet 0x48D159E1)) = (0x024, 0x00D159C5, 0x2FED159C500) ∧
    (dirTag 0x62D159F4, dirSet 0x62D159F4) = (0x031, 0x00D159C5) := by decide
def oldEntry : DirEnt :=
  { la := 0x48D159E1, way := 3, modif := true, coarse := false, region := 0x1C3, age := 0x10, ptrs := [(0xA7, 9)], gvec := 0, shadow := false }
theorem test_directory_entry : entryBits (some oldEntry) false = 0x90A7 * 2 ^ 64 + 0x000010001C302415 := by decide +kernel

/-- The region words of the worked cases of "Tenants, Regions and Tenant Keys" and "Mode Combinations". -/
theorem test_region_words :
    (regionOfWords 0x004C038D 0x00200400).tid = 0x4C ∧ (regionOfWords 0x004C038D 0x00200400).base = 0x400 ∧
    (regionOfWords 0x004C038D 0x00200400).size = 32 ∧ (regionOfWords 0x004C038D 0x00200400).iso = 1 ∧
    (regionOfWords 0x005E07BD 0x001801F8).mirror = 1 ∧ (regionOfWords 0x005E07BD 0x001801F8).coh = 0 ∧
    (regionOfWords 0x005E07BD 0x001801F8).pbake = 1 := by decide

/-- The table entries and the hot-page record of the worked case of "Translation and Page Migration". -/
theorem test_table_entries :
    decodeTEnt 2 0x0000281234400002 = .page 0x281234400000 false ∧ pgaNid 0x281234400000 = 5 ∧
    pgaOff 0x281234567840 = 0x1234567840 ∧ decodeTEnt 2 0x0000000000090003 = .remote 9 := by decide
def hotLeaf : Leaf :=
  { W.leaf with tid := 0x2A, size := 1, page := 0x7F4000000000 / 2 ^ 21, pga := 0x281234400000, score := 4500, lastAid := 0xA7 }
theorem test_hot_page_record : hpqRecord hotLeaf 2 = [0x1194012A, 0x7F400000, 0x28123440, 0x00A70200] := by decide

/-- The bucket and the tag of the worked case of "Admission Shaping". -/
def inDebt : State :=
  let s : State := { W.base with shape := { Shape.fresh with ctok := [(0x31, -800)] } }
  ((((s.wr SHAPE_T_MODE 1 0 0x31).wr SHAPE_T_CIR 800 0 0x31).wr SHAPE_T_CBS 4096 0 0x31).wr SHAPE_T_OVH 32 0 0x31).wr SHAPE_T_WEIGHT 16 0 0x31
theorem test_refill : inDebt.refill.cTok 0x31 = 0 := by decide +kernel
theorem test_charge : (inDebt.refill.charge 0x31 96).cTok 0x31 = -96 := by decide +kernel
theorem test_tag : ((inDebt.setTag 0x31 0x146000).advanceTag 0x31 96).tag 0x31 = 0x14C000 := by decide +kernel

/-- The place of the line of the worked case of "In-Order Memory Channels". -/
theorem test_hash : hashLine 0x48D159E1 = (34, 12, 6213, 69) ∧ segOf 0x48D159E1 = 12 := by decide
theorem test_hash_span : hashLine 0x48D15806 = (34, 12, 6213, 64) := by decide

/-- The payload of the Crumb of the worked case of "Line ECC, Scrub and Retirement". -/
theorem test_error_payload : ({ q := 34, bank := 12, row := 6213, col := 69 } : ErrAt).payload 1 7 0 9 =
    [0x34567840, 0x00000012, 0x04506622, 0x09000701] := by decide

/-- Words of the recipe of the worked case of "Recipe Engines and Their Microcode". -/
theorem test_micro_op_word : uOpc 0x86000600 = 0x21 ∧ uopLegal 0x86000600 = true ∧ uImm 0x4800FFFF = 0xFFFF ∧ uT 0x1C00040A = 0x40A ∧
    uopLegal 0x1C01040A = false := by decide

/-- Status words of the worked cases of "The Operator Library", "Twin Pairs" and "Mode Combinations". -/
theorem test_status_words :
    ({ W.bake with decided := true, poison := true } : Bake).word = 0x30 ∧
    ({ W.bake with decided := true, cause := causeAbort, poison := true } : Bake).word = 0x80038 ∧
    ({ W.bake with decided := true, cause := causeFault, fault := fcTurn } : Bake).word = 0x40A18 ∧
    ({ W.bake with decided := true, lanes := 12288 } : Bake).word = 0x300000000010 := by decide

/-- The record of the worked case of "Metering and the ZM-3". -/
theorem test_tally_record : recBytes (0x2A * 2 ^ 20 + 0x417) [3, 1, 8, 0, 1, 0, 0, 0, 0, 0, 0] =
    [0x2A, 0x17, 0x04, 0, 0x17, 0, 0, 0, 3, 0, 0, 0, 1, 0, 0, 0, 8, 0, 0, 0, 1, 0, 0, 0] := by decide +kernel

/-- The interval of the worked case of "Energy Proofs". -/
def counts (l : List Nat) : List (BitVec 32) := l.map (BitVec.ofNat 32)
def recA : TallyRec := ⟨0x2A, 0x417, counts [10000000, 500000, 8000000, 0, 500000, 0, 0, 0, 0, 0, 0]⟩
def recB : TallyRec := ⟨0x5E, 0x2210, counts [1000000, 100000, 0, 2000000, 100000, 1000000, 250000, 0, 2000000, 0, 0]⟩
def recZ : TallyRec := ⟨0, 0, counts [0, 50000, 1000000, 50000, 50000, 0, 0, 25000, 0, 0, 0]⟩
def energies : List Nat :=
  [515429250, 250000000, 40000000, 40000000, 10000000, 3660000, 3660000, 3660000, 3660000, 3660000, 3660000, 100000000]
theorem test_shares : [recA, recB, recZ].map (recordShare [recA, recB, recZ] energies) =
    [[2000000, 13692500, 0, 0, 0, 313850000], [200000, 3710500, 1956250, 0, 0, 117335000], [0, 2985000, 0, 0, 0, 59700000]] := by decide +kernel

/-! ### Steps -/

theorem test_core_reset_is_idle : Sys2Proof.core.reset.pending = [] := rfl
theorem test_commit_opens_the_next_epoch : (W.next (W.queued .commit { W.base with openEpoch := 255 })).openEpoch = 0 := by decide +kernel

/-! ### The premises of the obligations -/

/-- States and operands that meet the premises of RegisterReads. -/
theorem witness_RegisterReads :
    (∃ (s : State) (addr : BitVec 24) (f : Field) (i x : Nat), s.tmc.nodeRails = true ∧ s.hits addr.toNat = [⟨f, i, x, false⟩] ∧
      f.acc = .rc ∧ f.width ≤ 32 ∧ f.page ≠ 0 ∧ f ≠ PWR_WAKES) ∧
    (∃ (s : State) (_addr : BitVec 24) (size : AccSize), s.tmc.nodeRails = true ∧ size ≠ .word) ∧
    (∃ (s : State) (addr : BitVec 24) (f : Field) (i x : Nat), s.tmc.nodeRails = true ∧ s.hits addr.toNat = [⟨f, i, x, false⟩] ∧
      f.acc = .ro ∧ 32 < f.width) ∧
    (∃ (s : State) (_addr : BitVec 24) (size : AccSize), s.tmc.nodeRails = true ∧ size ≠ .word) ∧
    (∃ (s : State) (page : BitVec 12) (group : Fin 16), s.tmc.nodeRails = true ∧ s.present page.toNat = true ∧ group.val <
      (wmkGroups page.toNat).length) ∧
    (∃ (s : State) (page : BitVec 12) (group : Fin 16), s.tmc.nodeRails = true ∧ s.present page.toNat = true ∧ group.val <
      (wmkGroups page.toNat).length) :=
  ⟨⟨(W.base.wr HOME_RECALLS 5), 0x009148#24, HOME_RECALLS, 0, 0, by decide +kernel⟩,
   ⟨W.base, 0x009148#24, .byte, by decide +kernel⟩,
   ⟨({ W.base with ao := 0x123456789 } : State), 0x005120#24, CLK_AO_TIME, 0, 0, by decide +kernel⟩,
   ⟨W.base, 0x005120#24, .half, by decide +kernel⟩,
   ⟨((W.base.wr WMK_CROSSED 1 9 0).wr WMK_COUNT_ 7 9 0), 9#12, 0, by decide +kernel⟩,
   ⟨((W.base.sample 9 1 12).sample 9 1 4), 9#12, 1, by decide +kernel⟩⟩

/-- States and operands that meet the premises of RegisterWrites. -/
theorem witness_RegisterWrites :
    (∃ (s : State) (_src : Src) (addr : BitVec 24) (val : Word) (f : Field) (i x : Nat), s.tmc.nodeRails = true ∧ ¬(0x200000 ≤
      addr.toNat ∧ addr.toNat < 0x220000) ∧ ¬(0x800000 ≤ addr.toNat ∧ addr.toNat < 0x804000) ∧ ¬(0x10000 ≤ addr.toNat ∧ addr.toNat <
      0x20000) ∧ s.hits addr.toNat = [⟨f, i, x, false⟩] ∧ f.acc = .rwe ∧ f.width ≤ 32 ∧ reservedValue f i x (bits val.toNat f.lo
      f.width) = false ∧ rules.all (fun r => !r.fields.contains f) = true ∧ f ≠ TWIN_PAIR_EN) ∧
    (∃ (s : State) (_src : Src) (addr : BitVec 24) (val : Word) (f : Field) (i x : Nat), s.tmc.nodeRails = true ∧ ¬(0x200000 ≤
      addr.toNat ∧ addr.toNat < 0x220000) ∧ ¬(0x800000 ≤ addr.toNat ∧ addr.toNat < 0x804000) ∧ ¬(0x10000 ≤ addr.toNat ∧ addr.toNat <
      0x20000) ∧ s.hits addr.toNat = [⟨f, i, x, false⟩] ∧ f.acc = .rwl ∧ f.width ≤ 32 ∧ s.rd H_LOCK (ownerPage (addr.toNat /
      0x1000)) = 1 ∧ bits val.toNat f.lo f.width ≠ s.rdNext f i x) ∧
    (∃ (s : State) (_src : Src) (addr : BitVec 24) (val : Word) (f : Field) (i x : Nat), s.tmc.nodeRails = true ∧ ¬(0x200000 ≤
      addr.toNat ∧ addr.toNat < 0x220000) ∧ ¬(0x800000 ≤ addr.toNat ∧ addr.toNat < 0x804000) ∧ ¬(0x10000 ≤ addr.toNat ∧ addr.toNat <
      0x20000) ∧ s.hits addr.toNat = [⟨f, i, x, false⟩] ∧ f.acc = .rwe ∧ f.width ≤ 32 ∧ reservedValue f i x (bits val.toNat f.lo
      f.width) = true) ∧
    (∃ (s : State) (addr : BitVec 24) (_val : Word) (f : Field) (i x : Nat), s.tmc.nodeRails = true ∧ ¬(0x200000 ≤ addr.toNat ∧
      addr.toNat < 0x220000) ∧ ¬(0x800000 ≤ addr.toNat ∧ addr.toNat < 0x804000) ∧ ¬(0x10000 ≤ addr.toNat ∧ addr.toNat < 0x20000) ∧
      s.hits addr.toNat = [⟨f, i, x, false⟩] ∧ f.acc ≠ .ro ∧ 32 < f.width) ∧
    (∃ (_s : State) (_src : Src) (_addr : BitVec 24) (size : AccSize) (_val : Word), size ≠ .word) ∧
    (∃ (_s : State) (_addr : BitVec 24) (size : AccSize) (_val : Word), size ≠ .word) ∧
    (∃ (_s : State) (_addr : BitVec 24) (size : AccSize) (_val : Word), size ≠ .word) ∧
    (∃ (s : State) (addr : BitVec 24) (val low : Word) (f : Field) (i x : Nat), s.tmc.nodeRails = true ∧ ¬(0x200000 ≤ addr.toNat ∧
      addr.toNat < 0x220000) ∧ ¬(0x800000 ≤ addr.toNat ∧ addr.toNat < 0x804000) ∧ ¬(0x10000 ≤ addr.toNat ∧ addr.toNat < 0x20000) ∧
      s.hits addr.toNat = [⟨f, i, x, true⟩] ∧ f.acc = .rwe ∧ 32 < f.width ∧ reservedValue f i x ((low.toNat + val.toNat * 2 ^ 32) %
      2 ^ f.width / 2 ^ zeroBits f * 2 ^ zeroBits f) = false ∧ rules.all (fun r => !r.fields.contains f) = true ∧ f ≠ TWIN_PAIR_EN ∧
      Tab.get? s.halves (addr.toNat - 4) = some low.toNat) :=
  ⟨⟨W.base, .warden, 0x00D100#24, 3, XLAT_WINDOW, 0, 0, by decide +kernel⟩,
   ⟨(W.base.wr H_LOCK 1 1), .warden, 0x001118#24, 3, IDENT_NID, 0, 0, by decide +kernel⟩,
   ⟨W.base, .agent 7, 0x00D100#24, 0, XLAT_WINDOW, 0, 0, by decide +kernel⟩,
   ⟨W.base, 0x400004#24, 0x200000, XLAT_ROOT_BASE, 0, 0, by decide +kernel⟩,
   ⟨W.base, .warden, 0x001118#24, .byte, 3, by decide +kernel⟩,
   ⟨W.base, 0x400004#24, .half, 3, by decide +kernel⟩,
   ⟨W.base, 0x400008#24, .byte, 3, by decide +kernel⟩,
   ⟨{ W.base with halves := [(0x400004, 0xFFFFFFFF)] }, 0x400008#24, 0xFFFFFFFF, 0xFFFFFFFF, XLAT_ROOT_BASE, 0, 0, by decide +kernel⟩⟩

/-- States and operands that meet the premises of InterruptRegisters. -/
theorem witness_InterruptRegisters :
    (∃ (s : State) (page : BitVec 12) (_val : Word), s.tmc.nodeRails = true ∧ s.present page.toNat = true) ∧
    (∃ (s : State) (page : BitVec 12) (_val : Word), s.tmc.nodeRails = true ∧ s.present page.toNat = true) ∧
    (∃ (s : State) (_val : Word), s.tmc.nodeRails = true) ∧
    (∃ (s : State) (page : BitVec 12), s.tmc.nodeRails = true ∧ s.present page.toNat = true) ∧
    (∃ (s : State) (page : BitVec 12) (_stops : Bool), s.tmc.nodeRails = true ∧ s.present page.toNat = true) :=
  ⟨⟨W.base, 0x0#12, 0xE0000001, by decide +kernel⟩,
   ⟨W.base, 0x0#12, 0xE0000001, by decide +kernel⟩,
   ⟨W.base, 0x00070002, by decide +kernel⟩,
   ⟨W.base, 0x6#12, by decide +kernel⟩,
   ⟨W.base, 0x20#12, true, by decide +kernel⟩⟩

/-- States and operands that meet the premises of EpochCommands. -/
theorem witness_EpochCommands :
    (∃ (s : State), s.acts pgEPOCH = true ∧ s.commitPending = false) ∧
    (∃ (s : State), s.acts pgEPOCH = true ∧ s.commitPending = true) ∧
    (∃ (s : State), s.acts pgEPOCH = true ∧ s.commitPending = false) ∧
    (∃ (s : State), s.acts pgEPOCH = true ∧ s.commitPending = true) ∧
    (∃ (s : State), s.acts pgEPOCH = true ∧ s.commitPending = true ∧ s.draining = false) ∧
    (∃ (s : State), s.acts pgEPOCH = true ∧ s.commitPending = true ∧ s.slowRaised = false ∧ s.rd EPOCH_DRAIN_LIMIT < s.rd
      EPOCH_DRAIN_ELAPSED) :=
  ⟨⟨({ W.base with openEpoch := 255 } : State), by decide +kernel⟩,
   ⟨W.pend, by decide +kernel⟩,
   ⟨(W.base.stage XLAT_WINDOW 5), by decide +kernel⟩,
   ⟨(W.pend.stage XLAT_WINDOW 5), by decide +kernel⟩,
   ⟨W.pend, by decide +kernel⟩,
   ⟨((W.pend.wr EPOCH_DRAIN_LIMIT 3).wr EPOCH_DRAIN_ELAPSED 4), by decide +kernel⟩⟩

/-- States and operands that meet the premises of LinkControl. -/
theorem witness_LinkControl :
    (∃ (s : State) (port : Fin 16) (q : ParamsFlit), s.acts (pgFPORT port.val) = true ∧ (s.port port.val).train = .step 6 ∧
      s.paramsOk port.val q = true) ∧
    (∃ (s : State) (port : Fin 16) (q : ParamsFlit), s.acts (pgFPORT port.val) = true ∧ (s.port port.val).train = .step 6 ∧
      s.paramsOk port.val q = false) ∧
    (∃ (s : State) (port : Fin 16) (_c : Credits), s.acts (pgFPORT port.val) = true ∧ (s.port port.val).train = .step 7) ∧
    (∃ (s : State) (port : Fin 16) (_c : Credits) (a b d e : Nat), s.acts (pgFPORT port.val) = true ∧ (s.port port.val).isUp = true
      ∧ (s.port port.val).txq = [] ∧ (s.port port.val).keyDue = false ∧ (s.port port.val).credits = [a, b, d, e]) ∧
    (∃ (s : State) (port : Fin 16) (_set : Bool), s.acts (pgFPORT port.val) = true ∧ (s.port port.val).listens = true) ∧
    (∃ (s : State) (port : Fin 16), s.acts (pgFPORT port.val) = true ∧ (s.port port.val).isUp = true) ∧
    (∃ (s : State) (port : Fin 16), s.acts (pgFPORT port.val) = true ∧ (s.port port.val).isUp = true ∧ s.paired port.val = false) ∧
    (∃ (s : State) (port : Fin 16) (n : Nat), s.acts (pgFPORT port.val) = true ∧ (s.port port.val).train = .step n ∧ s.paired
      port.val = false ∧ s.rd FPORT_MODE port.val = (s.port port.val).mode ∧ (s.port port.val).mode ≠ 2) ∧
    (∃ (s : State) (port : Fin 16), s.acts (pgFPORT port.val) = true ∧ (s.port port.val).isUp = true) ∧
    (∃ (s : State) (port : Fin 16) (n : Nat), s.acts (pgFPORT port.val) = true ∧ (s.port port.val).train = .step n ∧ s.rd FPORT_MODE
      port.val = (s.port port.val).mode ∧ (s.port port.val).mode ≠ 2) ∧
    (∃ (s : State) (port : Fin 16), s.acts (pgFPORT port.val) = true ∧ (s.port port.val).isUp = true ∧ (s.port
      port.val).txCrypt.active = true ∧ (s.port port.val).txCrypt.key.isSome = true ∧ (s.port port.val).txCrypt.loaded (!(s.port
      port.val).txCrypt.sel) = true ∧ (s.port port.val).replay.length < 512) ∧
    (∃ (s : State) (port : Fin 16), s.acts (pgFPORT port.val) = true ∧ (s.port port.val).alive = true ∧ (s.port
      port.val).txCrypt.active = true ∧ (s.port port.val).txCrypt.loaded (!(s.port port.val).txCrypt.sel) = true ∧ ((s.port
      port.val).isUp = false ∨ 512 ≤ (s.port port.val).replay.length)) ∧
    (∃ (s : State) (port : Fin 16), s.acts (pgFPORT port.val) = true ∧ (s.port port.val).train = .down ∧ (s.port port.val).module =
      none ∧ s.paired port.val = false ∧ s.rd FPORT_ENABLE port.val = 0) ∧
    (∃ (s : State) (port : Fin 16) (m : Module), s.acts (pgFPORT port.val) = true ∧ (s.port port.val).train = .down ∧ (s.port
      port.val).module = some m ∧ s.moduleHold port.val m = none ∧ s.paired port.val = false ∧ s.rd FPORT_ENABLE port.val = 0 ∧ s.rd
      FPORT_MODE port.val = (s.port port.val).mode ∧ (s.port port.val).mode ≠ 2) ∧
    (∃ (s : State) (port : Fin 16), s.acts (pgFPORT port.val) = true ∧ (s.port port.val).alive = false ∧ s.paired port.val = false ∧
      s.rd FPORT_ENABLE port.val = 1) ∧
    (∃ (s : State) (port : Fin 16) (_reason : BitVec 4), s.acts (pgFPORT port.val) = true ∧ (s.port port.val).listens = true ∧
      (s.port port.val).isCxl = false ∧ s.rd FPORT_PEER_ROLE port.val = roleNode ∧ (s.port port.val).module = none) ∧
    (∃ (s : State) (port : Fin 16) (n : Nat), s.acts (pgFPORT port.val) = true ∧ (s.port port.val).isCxl = false ∧ (s.port
      port.val).train = .recovery n ∧ (s.port port.val).recoverAt + s.rd FPORT_LINK_TIMEOUT port.val ≤ s.ao ∧ s.rd FPORT_PEER_ROLE
      port.val = roleNode ∧ (s.port port.val).module = none) :=
  ⟨⟨(W.port (.step 6)), 0, W.parOk, by decide +kernel⟩,
   ⟨(W.port (.step 6)), 0, W.parBad, by decide +kernel⟩,
   ⟨(W.port (.step 7)), 0, ⟨1, 2, 3, 4⟩, by decide +kernel⟩,
   ⟨(W.port .up), 0, ⟨1, 2, 3, 4⟩, 0, 0, 0, 0, by decide +kernel⟩,
   ⟨W.keyed, 0, true, by decide +kernel⟩,
   ⟨(W.port .up), 0, by decide +kernel⟩,
   ⟨(W.port .up), 0, by decide +kernel⟩,
   ⟨(W.port (.step 9)), 0, 9, by decide +kernel⟩,
   ⟨(W.port .up), 0, by decide +kernel⟩,
   ⟨(W.port (.step 7)), 0, 7, by decide +kernel⟩,
   ⟨W.keyed, 0, by decide +kernel⟩,
   ⟨W.withPort { W.upPort with train := .recovery 3, txCrypt := W.crypt [] }, 0, by decide +kernel⟩,
   ⟨((W.port .down).wr FPORT_ENABLE 0), 0, by decide +kernel⟩,
   ⟨((W.withPort { Port.fresh with train := .down, module := some W.module }).wr FPORT_ENABLE 0), 0, W.module, by decide +kernel⟩,
   ⟨((W.port (.step 3)).wr FPORT_ENABLE 1), 0, by decide +kernel⟩,
   ⟨((W.port (.step 8)).wr FPORT_PEER_ROLE 3), 0, 5, by decide +kernel⟩,
   ⟨({ ((W.port (.recovery 4)).wr FPORT_PEER_ROLE 3) with ao := 1000000 } : State), 0, 4, by decide +kernel⟩⟩

/-- States and operands that meet the premises of Training. -/
theorem witness_Training :
    (∃ (s : State) (port : Fin 16) (_lanes : BitVec 2) (n : Nat), s.acts (pgFPORT port.val) = true ∧ (s.port port.val).train = .step
      n ∧ (n = 2 ∨ n = 3)) ∧
    (∃ (s : State) (port : Fin 16) (lanes : BitVec 2), s.acts (pgFPORT port.val) = true ∧ (s.port port.val).train = .step 4 ∧
      s.widthOk port.val lanes.toNat = true) ∧
    (∃ (s : State) (port : Fin 16) (_lanes : BitVec 2), s.acts (pgFPORT port.val) = true ∧ (s.port port.val).train = .step 5) ∧
    (∃ (s : State) (port : Fin 16) (_lanes : BitVec 2), s.acts (pgFPORT port.val) = true ∧ (s.port port.val).train = .step 8 ∧
      s.wantEnc port.val = false) ∧
    (∃ (s : State) (port : Fin 16) (_lanes : BitVec 2) (set : Bool), s.acts (pgFPORT port.val) = true ∧ (s.port port.val).train =
      .step 8 ∧ s.wantEnc port.val = true ∧ (s.port port.val).txCrypt.loaded set = true) ∧
    (∃ (s : State) (port : Fin 16) (_lanes : BitVec 2), s.acts (pgFPORT port.val) = true ∧ (s.port port.val).train = .step 8 ∧
      s.wantEnc port.val = true ∧ (s.port port.val).txCrypt.loaded false = false ∧ (s.port port.val).txCrypt.loaded true = false) ∧
    (∃ (s : State) (port : Fin 16) (_lanes : BitVec 2), s.acts (pgFPORT port.val) = true ∧ (s.port port.val).train = .step 9) ∧
    (∃ (s : State) (port : Fin 16) (n : Nat), s.acts (pgFPORT port.val) = true ∧ (s.port port.val).train = .step n ∧ 2 < n ∧ (s.port
      port.val).refused = false ∧ (s.port port.val).attempts < 2 ∧ s.rd FPORT_MODE port.val = (s.port port.val).mode ∧ (s.port
      port.val).mode ≠ 2) ∧
    (∃ (s : State) (port : Fin 16) (n : Nat), s.acts (pgFPORT port.val) = true ∧ (s.port port.val).train = .step n ∧ 2 < n ∧ (s.port
      port.val).refused = false ∧ 2 ≤ (s.port port.val).attempts) ∧
    (∃ (s : State) (port : Fin 16) (_m : Option Module), s.acts (pgFPORT port.val) = true) :=
  ⟨⟨(W.port (.step 3)), 0, 0, 3, by decide +kernel⟩,
   ⟨(W.port (.step 4)), 0, 3, by decide +kernel⟩,
   ⟨(W.port (.step 5)), 0, 3, by decide +kernel⟩,
   ⟨(W.port (.step 8)), 0, 3, by decide +kernel⟩,
   ⟨W.mustSeal [none, some W.linkKey_], 0, 3, true, by decide +kernel⟩,
   ⟨W.mustSeal [none, none], 0, 3, by decide +kernel⟩,
   ⟨(W.port (.step 9)), 0, 3, by decide +kernel⟩,
   ⟨(W.port (.step 5)), 0, 5, by decide +kernel⟩,
   ⟨(W.tries 2), 0, 5, by decide +kernel⟩,
   ⟨(W.port .up), 0, none, by decide +kernel⟩⟩

/-- States and operands that meet the premises of FlitTraffic. -/
theorem witness_FlitTraffic :
    (∃ (s : State) (port : Fin 16), s.acts (pgFPORT port.val) = true ∧ (s.port port.val).listens = true ∧ 0 < (s.port
      port.val).unackedRx) ∧
    (∃ (s : State) (port : Fin 16), s.acts (pgFPORT port.val) = true ∧ (s.port port.val).isUp = true ∧ (s.port
      port.val).toReturn.any (· != 0) = true ∧ (s.port port.val).replay.length < 512 ∧ (s.port port.val).txCrypt.mute = false) ∧
    (∃ (s : State) (port : Fin 16), s.acts (pgFPORT port.val) = true ∧ (s.port port.val).isUp = true ∧ (s.port
      port.val).txCrypt.active = true ∧ (s.port port.val).txCrypt.group ≠ [] ∧ (s.port port.val).txCrypt.key.isSome = true ∧ (s.port
      port.val).replay.length < 512) ∧
    (∃ (s : State) (port : Fin 16), s.acts (pgFPORT port.val) = true ∧ (s.port port.val).listens = true ∧ (s.port
      port.val).discarding = true ∧ (s.port port.val).nakSent = true ∧ (s.port port.val).nakCount < 7) ∧
    (∃ (s : State) (port : Fin 16), s.acts (pgFPORT port.val) = true ∧ (s.port port.val).isUp = true ∧ (s.port port.val).discarding
      = true ∧ (s.port port.val).nakSent = true ∧ (s.port port.val).nakCount = 7) ∧
    (∃ (s : State) (port : Fin 16) (flit : Bytes), s.acts (pgFPORT port.val) = true ∧ (s.port port.val).listens = true ∧ (s.port
      port.val).isCxl = false ∧ flitOpen flit = .badFec ∧ ((s.port port.val).recentUncorr s.ao).length < 15 ∧ (s.port
      port.val).nakCount < 7) ∧
    (∃ (s : State) (port : Fin 16) (flit : Bytes) (n : Nat), s.acts (pgFPORT port.val) = true ∧ (s.port port.val).listens = true ∧
      (s.port port.val).isCxl = false ∧ flitOpen flit = .badCrc n ∧ (s.port port.val).nakCount < 7) ∧
    (∃ (s : State) (port : Fin 16) (flit b : Bytes) (n : Nat), s.acts (pgFPORT port.val) = true ∧ (s.port port.val).listens = true ∧
      (s.port port.val).isCxl = false ∧ flitOpen flit = .good b n ∧ (flitOf b).ftype = 0 ∧ (flitOf b).nak = false ∧ s.rxSealed
      port.val (flitOf b) = false ∧ (s.port port.val).partialMsg = none ∧ (flitOf b).slots.all (fun x => !slotValid x) = true ∧
      (flitOf b).seq = (s.port port.val).rxAck + 1) ∧
    (∃ (s : State) (port : Fin 16) (flit b : Bytes) (n : Nat) (x : Slot) (rest : List Slot), s.acts (pgFPORT port.val) = true ∧
      (s.port port.val).listens = true ∧ (s.port port.val).isCxl = false ∧ flitOpen flit = .good b n ∧ (flitOf b).ftype = 0 ∧
      (flitOf b).nak = false ∧ s.rxSealed port.val (flitOf b) = false ∧ (s.port port.val).partialMsg = none ∧ (flitOf b).slots = x
      :: rest ∧ slotValid x = true ∧ slotD x = 0 ∧ s.allowed port.val (slotMsg x) 0 = true ∧ rest.all (fun y => !slotValid y) = true
      ∧ (flitOf b).seq = (s.port port.val).rxAck + 1) :=
  ⟨⟨W.unacked, 0, by decide +kernel⟩,
   ⟨W.unacked, 0, by decide +kernel⟩,
   ⟨W.grouped, 0, by decide +kernel⟩,
   ⟨W.discards, 0, by decide +kernel⟩,
   ⟨W.withPort { W.upPort with discarding := true, nakSent := true, nakCount := 7 }, 0, by decide +kernel⟩,
   ⟨(W.port .up), 0, W.badFlit, by decide +kernel⟩,
   ⟨(W.port .up), 0, W.crcFlit, 0, by decide +kernel⟩,
   ⟨W.expects, 0, W.zeroFlit, W.zeroBody, 0, by decide +kernel⟩,
   ⟨W.open_, 0, W.msgFlit.wire, W.flitBody W.msgFlit, 0, (W.req 1 0).slots.headD 0, List.replicate 15 0, by decide +kernel⟩⟩

/-- States and operands that meet the premises of FlitForms. -/
theorem witness_FlitForms :
    (∃ (s : State) (port : Fin 16) (flit b : Bytes) (n : Nat), s.acts (pgFPORT port.val) = true ∧ (s.port port.val).listens = true ∧
      (s.port port.val).isCxl = false ∧ flitOpen flit = .good b n ∧ (flitOf b).ftype = 1 ∧ (flitOf b).nak = false ∧ (s.port
      port.val).txq = [] ∧ (s.port port.val).keyDue = false ∧ 0 < ((flitOf b).ack - (s.port port.val).txAcked).toNat ∧ ((flitOf
      b).ack - (s.port port.val).txAcked).toNat ≤ 512) ∧
    (∃ (s : State) (port : Fin 16) (flit b : Bytes) (n : Nat), s.acts (pgFPORT port.val) = true ∧ (s.port port.val).listens = true ∧
      (s.port port.val).isCxl = false ∧ flitOpen flit = .good b n ∧ (flitOf b).ftype = 1 ∧ (flitOf b).nak = true ∧ (s.port
      port.val).txq = [] ∧ (s.port port.val).keyDue = false ∧ (flitOf b).ack = (s.port port.val).txAcked ∧ (s.port port.val).nakSeen
      < 7) ∧
    (∃ (s : State) (port : Fin 16) (flit b : Bytes) (n : Nat), s.acts (pgFPORT port.val) = true ∧ (s.port port.val).listens = true ∧
      (s.port port.val).isCxl = false ∧ flitOpen flit = .good b n ∧ (flitOf b).ftype = 3 ∧ (s.port port.val).nakCount < 7) ∧
    (∃ (s : State) (port : Fin 16) (flit b : Bytes) (n : Nat), s.acts (pgFPORT port.val) = true ∧ (s.port port.val).listens = true ∧
      (s.port port.val).isCxl = false ∧ flitOpen flit = .good b n ∧ ((flitOf b).ftype = 0 ∨ (flitOf b).ftype = 2) ∧ (flitOf b).nak =
      false ∧ (s.port port.val).rxCrypt.active = false ∧ 512 < ((s.port port.val).rxAck + 1 - (flitOf b).seq).toNat ∧ (s.port
      port.val).nakCount < 7) ∧
    (∃ (s : State) (port : Fin 16) (flit b : Bytes) (n : Nat), s.acts (pgFPORT port.val) = true ∧ (s.port port.val).listens = true ∧
      (s.port port.val).isCxl = false ∧ flitOpen flit = .good b n ∧ ((flitOf b).ftype = 0 ∨ (flitOf b).ftype = 2) ∧ (flitOf b).nak =
      false ∧ (s.port port.val).rxCrypt.active = false ∧ 0 < ((s.port port.val).rxAck + 1 - (flitOf b).seq).toNat ∧ ((s.port
      port.val).rxAck + 1 - (flitOf b).seq).toNat ≤ 512) ∧
    (∃ (s : State) (port : Fin 16) (flit b : Bytes) (n : Nat), s.acts (pgFPORT port.val) = true ∧ (s.port port.val).listens = true ∧
      (s.port port.val).isCxl = false ∧ flitOpen flit = .good b n ∧ ((flitOf b).ftype = 0 ∨ (flitOf b).ftype = 2) ∧ (flitOf b).nak =
      false ∧ (s.port port.val).rxCrypt.active = true ∧ (s.port port.val).rxCrypt.loaded (flitOf b).ksel = true ∧ (flitOf b).tag =
      false ∧ (s.port port.val).rxCrypt.group.length < 7 ∧ (flitOf b).seq = (s.port port.val).rxAck + 1 + BitVec.ofNat 10 (s.port
      port.val).rxCrypt.group.length) ∧
    (∃ (s : State) (port : Fin 16) (flit b : Bytes) (n : Nat), s.acts (pgFPORT port.val) = true ∧ (s.port port.val).listens = true ∧
      (s.port port.val).isCxl = false ∧ flitOpen flit = .good b n ∧ ((flitOf b).ftype = 0 ∨ (flitOf b).ftype = 2) ∧ (flitOf b).nak =
      false ∧ (s.port port.val).rxCrypt.active = true ∧ (s.port port.val).rxCrypt.loaded (flitOf b).ksel = false ∧ s.rd
      FPORT_PEER_ROLE port.val = roleNode ∧ (s.port port.val).module = none ∧ (flitOf b).seq = (s.port port.val).rxAck + 1 +
      BitVec.ofNat 10 (s.port port.val).rxCrypt.group.length) ∧
    (∃ (s : State) (port : Fin 16) (flit b : Bytes) (n : Nat) (k : LinkKey), s.acts (pgFPORT port.val) = true ∧ (s.port
      port.val).listens = true ∧ (s.port port.val).isCxl = false ∧ flitOpen flit = .good b n ∧ ((flitOf b).ftype = 0 ∨ (flitOf
      b).ftype = 2) ∧ (flitOf b).nak = false ∧ (s.port port.val).rxCrypt.active = true ∧ (flitOf b).ksel = (s.port
      port.val).rxCrypt.sel ∧ (s.port port.val).rxCrypt.key = some k ∧ (flitOf b).tag = true ∧ groupTag k (s.port
      port.val).rxCrypt.count ((s.port port.val).rxCrypt.group ++ [flitOf b]) ≠ (flitOf b).slots.getLastD 0 ∧ s.rd FPORT_PEER_ROLE
      port.val = roleNode ∧ (s.port port.val).module = none ∧ (flitOf b).seq = (s.port port.val).rxAck + 1 + BitVec.ofNat 10 (s.port
      port.val).rxCrypt.group.length) :=
  ⟨⟨W.withPort { W.upPort with replay := [W.flit, { W.flit with seq := 1 }] }, 0, W.ackFlit.wire, W.flitBody W.ackFlit, 0, by decide +kernel⟩,
   ⟨W.withPort { W.upPort with replay := [{ W.flit with seq := 1 }], txSeq := 1 }, 0, W.nakFlit.wire, W.flitBody W.nakFlit, 0, by decide +kernel⟩,
   ⟨(W.port .up), 0, (W.plain 3 1 []).wire, W.flitBody (W.plain 3 1 []), 0, by decide +kernel⟩,
   ⟨(W.port .up), 0, (W.plain 0 9 []).wire, W.flitBody (W.plain 0 9 []), 0, by decide +kernel⟩,
   ⟨(W.port .up), 0, (W.plain 2 0 []).wire, W.flitBody (W.plain 2 0 []), 0, by decide +kernel⟩,
   ⟨W.sealed_, 0, (W.plain 0 1 []).wire, W.flitBody (W.plain 0 1 []), 0, by decide +kernel⟩,
   ⟨W.noKeys, 0, (W.plain 0 1 []).wire, W.flitBody (W.plain 0 1 []), 0, by decide +kernel⟩,
   ⟨W.sealed_.wr FPORT_PEER_ROLE 3, 0, W.tagFlit.wire, W.flitBody W.tagFlit, 0, W.linkKey_, by decide +kernel⟩⟩

/-- States and operands that meet the premises of CxlLink. -/
theorem witness_CxlLink :
    (∃ (s : State) (port : Fin 16) (r : CxlReq), s.acts (pgFPORT port.val) = true ∧ (s.port port.val).isUp = true ∧ (s.port
      port.val).isCxl = true ∧ r.op = .unsupported) ∧
    (∃ (s : State) (port : Fin 16) (r : CxlReq), s.acts (pgFPORT port.val) = true ∧ (s.port port.val).isUp = true ∧ (s.port
      port.val).isCxl = true ∧ r.op = .cacheMsg) ∧
    (∃ (s : State) (port : Fin 16) (r : CxlReq), s.acts (pgFPORT port.val) = true ∧ (s.port port.val).isUp = true ∧ (s.port
      port.val).isCxl = true ∧ r.op = .memSpecRd) ∧
    (∃ (s : State) (port : Fin 16) (r : CxlReq), s.acts (pgFPORT port.val) = true ∧ (s.port port.val).isUp = true ∧ (s.port
      port.val).isCxl = true ∧ r.op ≠ .unsupported ∧ r.op ≠ .cacheMsg ∧ r.op ≠ .memSpecRd ∧ (s.port port.val).cxlBi = [] ∧
      s.shape.open_ = false ∧ (s.port port.val).cxlHeld = []) ∧
    (∃ (s : State) (port : Fin 16) (r : CxlReq) (o : Op), s.acts (pgFPORT port.val) = true ∧ (s.port port.val).isUp = true ∧ (s.port
      port.val).isCxl = true ∧ (s.port port.val).cxlBi = [] ∧ (s.port port.val).cxlHeld = [] ∧ s.cxlOp port.val r = some o ∧
      o.bypasses = false ∧ s.enabled (s.rd FPORT_CXL_TID port.val) = true ∧ s.cxlHolds (s.cxlReq port.val r o) = false) ∧
    (∃ (s : State) (port : Fin 16) (la : BitVec 46) (k : Trk), s.acts (pgFPORT port.val) = true ∧ (s.port port.val).isUp = true ∧
      (s.port port.val).isCxl = true ∧ (s.port port.val).cxlBi = [(laOf la.toNat, none)] ∧ s.live (s.rd FPORT_CXL_AID port.val) =
      true ∧ s.trks = [k] ∧ k.la = laOf la.toNat ∧ k.kind = .inv ∧ k.awaited.any (fun a => a.1 == s.rd FPORT_CXL_AID port.val) =
      true ∧ k.awaited.any (fun a => a.1 != s.rd FPORT_CXL_AID port.val) = true ∧ s.owed = [] ∧ s.isOpen k.la = true) ∧
    (∃ (s : State) (port : Fin 16) (la : BitVec 46) (b : Nat × Option (BitVec 512 × Bool)), s.acts (pgFPORT port.val) = true ∧
      (s.port port.val).isUp = true ∧ (s.port port.val).isCxl = true ∧ (s.port port.val).cxlBi = [b] ∧ b.1 = laOf la.toNat ∧ s.live
      (s.rd FPORT_CXL_AID port.val) = true ∧ s.trks = [] ∧ s.owed = [] ∧ s.isOpen (laOf la.toNat) = true) ∧
    (∃ (s : State) (port : Fin 16) (_ide : Bool), s.acts (pgFPORT port.val) = true ∧ (s.port port.val).isCxl = true ∧ (s.port
      port.val).alive = true ∧ (s.port port.val).module = none ∧ s.live (s.rd FPORT_CXL_AID port.val) = false) ∧
    (∃ (s : State) (port : Fin 16) (_opcode : BitVec 16), s.acts (pgFPORT port.val) = true ∧ (s.port port.val).isUp = true ∧ (s.port
      port.val).isCxl = true) ∧
    (∃ (s : State) (port : Fin 16) (_addr : BitVec 24) (_dws : List (BitVec 4 × Word)), s.tmc.nodeRails = true ∧ (s.port
      port.val).isUp = true ∧ (s.port port.val).isCxl = true ∧ s.rd FPORT_MMIO_ACCESS port.val = 0) ∧
    (∃ (s : State) (port : Fin 16) (_addr : BitVec 24) (_dws : List (BitVec 4 × Word)), s.tmc.nodeRails = true ∧ (s.port
      port.val).isUp = true ∧ (s.port port.val).isCxl = true ∧ s.rd FPORT_MMIO_ACCESS port.val ≠ 2) ∧
    (∃ (s : State) (port : Fin 16) (_addr : BitVec 24) (_val : Word), s.tmc.nodeRails = true ∧ (s.port port.val).isUp = true ∧
      (s.port port.val).isCxl = true ∧ s.rd FPORT_MMIO_ACCESS port.val ≠ 0) ∧
    (∃ (s : State) (port : Fin 16) (_addr : BitVec 24) (_val : Word), s.tmc.nodeRails = true ∧ (s.port port.val).isUp = true ∧
      (s.port port.val).isCxl = true ∧ s.rd FPORT_MMIO_ACCESS port.val = 2) ∧
    (∃ (s : State) (port : Fin 16) (_n : Fin 4) (_ways _gran : Word), s.tmc.nodeRails = true ∧ (s.port port.val).isUp = true ∧
      (s.port port.val).isCxl = true) ∧
    (∃ (s : State) (port : Fin 16) (n : Fin 4) (_dws : List (BitVec 4 × Word)) (d : Nat × Nat × Nat), s.tmc.nodeRails = true ∧
      (s.port port.val).isUp = true ∧ (s.port port.val).isCxl = true ∧ (s.port port.val).hdm[n.val]? = some d) :=
  ⟨⟨W.cxl, 0, W.cxlReq .unsupported, by decide +kernel⟩,
   ⟨W.cxl, 0, W.cxlReq .cacheMsg, by decide +kernel⟩,
   ⟨W.cxl, 0, W.cxlReq .memSpecRd, by decide +kernel⟩,
   ⟨W.cxl, 0, W.cxlReq .memRdData, by decide +kernel⟩,
   ⟨W.cxlOpen, 0, W.cxlReq .memRdInvalid, .rdCur, by decide +kernel⟩,
   ⟨({ W.cxlAsked with trks := [W.cxlTrk] } : State), 0, 3, W.cxlTrk, by decide +kernel⟩,
   ⟨W.cxlAsked, 0, 3, (3, none), by decide +kernel⟩,
   ⟨W.cxl, 0, true, by decide +kernel⟩,
   ⟨W.cxl, 0, 0x0200, by decide +kernel⟩,
   ⟨(W.cxl.wr FPORT_MMIO_ACCESS 0), 0, 0x001118, [(15, 3), (0, 4)], by decide +kernel⟩,
   ⟨(W.cxl.wr FPORT_MMIO_ACCESS 1), 0, 0x001118, [(3, 3)], by decide +kernel⟩,
   ⟨(W.cxl.wr FPORT_MMIO_ACCESS 1), 0, 0x001100, 0, by decide +kernel⟩,
   ⟨(W.cxl.wr FPORT_MMIO_ACCESS 2), 0, 0x001118, 3, by decide +kernel⟩,
   ⟨W.cxl, 0, 3, 8, 6, by decide +kernel⟩,
   ⟨W.cxl, 0, 3, [], (0, 0, 0), by decide +kernel⟩⟩

/-- States and operands that meet the premises of RequestsArrive. -/
theorem witness_RequestsArrive :
    (∃ (s : State) (port : Fin 16) (m : Msg), s.acts (pgFPORT port.val) = true ∧ s.passes port.val m = true ∧ m.cls.toNat = clsReq ∧
      m.opc = 1 ∧ s.shape.open_ = true ∧ s.shape.closing = false ∧ s.shape.halted = false ∧ s.enabled m.rqTid = true ∧ s.busyAt
      (reqOf .rdS port.val m) = false) ∧
    (∃ (s : State) (port : Fin 16) (m : Msg), s.acts (pgFPORT port.val) = true ∧ s.passes port.val m = true ∧ m.cls.toNat = clsReq ∧
      m.opc = 2 ∧ s.shape.open_ = true ∧ s.shape.closing = false ∧ s.shape.halted = false ∧ s.enabled m.rqTid = true ∧ s.busyAt
      (reqOf .rdOwn port.val m) = false) ∧
    (∃ (s : State) (port : Fin 16) (m : Msg), s.acts (pgFPORT port.val) = true ∧ s.passes port.val m = true ∧ m.cls.toNat = clsReq ∧
      m.opc = 3 ∧ s.shape.open_ = true ∧ s.shape.closing = false ∧ s.shape.halted = false ∧ s.enabled m.rqTid = true ∧ s.busyAt
      (reqOf .upg port.val m) = false) ∧
    (∃ (s : State) (port : Fin 16) (m : Msg), s.acts (pgFPORT port.val) = true ∧ s.passes port.val m = true ∧ m.cls.toNat = clsReq ∧
      m.opc = 4 ∧ s.shape.open_ = true ∧ s.shape.closing = false ∧ s.shape.halted = false ∧ s.enabled m.rqTid = true ∧ s.busyAt
      (reqOf .rdCur port.val m) = false) ∧
    (∃ (s : State) (port : Fin 16) (m : Msg), s.acts (pgFPORT port.val) = true ∧ s.passes port.val m = true ∧ m.cls.toNat = clsReq ∧
      m.opc = 5 ∧ s.shape.open_ = true ∧ s.shape.closing = false ∧ s.shape.halted = false ∧ s.enabled m.rqTid = true ∧ s.busyAt
      (reqOf .wrFull port.val m) = false) ∧
    (∃ (s : State) (port : Fin 16) (m : Msg), s.acts (pgFPORT port.val) = true ∧ s.passes port.val m = true ∧ m.cls.toNat = clsReq ∧
      m.opc = 6 ∧ s.shape.open_ = true ∧ s.shape.closing = false ∧ s.shape.halted = false ∧ s.enabled m.rqTid = true ∧ s.busyAt
      (reqOf .wrPtl port.val m) = false) ∧
    (∃ (s : State) (port : Fin 16) (m : Msg), s.acts (pgFPORT port.val) = true ∧ s.passes port.val m = true ∧ m.cls.toNat = clsReq ∧
      m.opc = 7 ∧ s.shape.open_ = true) ∧
    (∃ (s : State) (port : Fin 16) (m : Msg), s.acts (pgFPORT port.val) = true ∧ s.passes port.val m = true ∧ m.cls.toNat = clsReq ∧
      m.opc = 8 ∧ s.shape.open_ = true) ∧
    (∃ (s : State) (port : Fin 16) (m : Msg), s.acts (pgFPORT port.val) = true ∧ s.passes port.val m = true ∧ m.cls.toNat = clsReq ∧
      m.opc = 16 ∧ s.shape.open_ = true ∧ s.shape.closing = false ∧ s.shape.halted = false ∧ s.enabled m.rqTid = true ∧ s.busyAt
      (reqOf .bakeSub port.val m) = false) ∧
    (∃ (s : State) (port : Fin 16) (m : Msg), s.acts (pgFPORT port.val) = true ∧ s.passes port.val m = true ∧ m.cls.toNat = clsReq ∧
      m.opc = 17 ∧ s.shape.open_ = true ∧ s.shape.closing = false ∧ s.shape.halted = false ∧ s.enabled m.rqTid = true ∧ s.busyAt
      (reqOf .bakeAbort port.val m) = false) ∧
    (∃ (s : State) (port : Fin 16) (m : Msg), s.acts (pgFPORT port.val) = true ∧ s.passes port.val m = true ∧ m.cls.toNat = clsReq ∧
      m.opc = 18 ∧ s.shape.open_ = true ∧ s.shape.closing = false ∧ s.shape.halted = false ∧ s.enabled m.rqTid = true ∧ s.busyAt
      (reqOf .planLoad port.val m) = false) ∧
    (∃ (s : State) (port : Fin 16) (m : Msg), s.acts (pgFPORT port.val) = true ∧ s.passes port.val m = true ∧ m.cls.toNat = clsReq ∧
      m.opc = 19 ∧ s.shape.open_ = true ∧ s.shape.closing = false ∧ s.shape.halted = false ∧ s.enabled m.rqTid = true ∧ s.busyAt
      (reqOf .planUnload port.val m) = false) ∧
    (∃ (s : State) (port : Fin 16) (m : Msg), s.acts (pgFPORT port.val) = true ∧ s.passes port.val m = true ∧ m.cls.toNat = clsReq ∧
      m.opc = 24 ∧ s.shape.open_ = true ∧ s.shape.closing = false ∧ s.shape.halted = false ∧ s.enabled m.rqTid = true ∧ s.busyAt
      (reqOf .jobOpen port.val m) = false) ∧
    (∃ (s : State) (port : Fin 16) (m : Msg), s.acts (pgFPORT port.val) = true ∧ s.passes port.val m = true ∧ m.cls.toNat = clsReq ∧
      m.opc = 25 ∧ s.shape.open_ = true ∧ s.shape.halted = false) :=
  ⟨⟨W.open_, 0, W.req 1 0, by decide +kernel⟩,
   ⟨W.open_, 0, W.req 2 0, by decide +kernel⟩,
   ⟨W.open_, 0, W.req 3 0, by decide +kernel⟩,
   ⟨W.open_, 0, W.req 4 0, by decide +kernel⟩,
   ⟨W.open_, 0, W.req 5 4, by decide +kernel⟩,
   ⟨W.open_, 0, W.req 6 3, by decide +kernel⟩,
   ⟨W.open_, 0, W.req 7 4, by decide +kernel⟩,
   ⟨W.open_, 0, W.req 8 0, by decide +kernel⟩,
   ⟨W.open_, 0, W.req 16 1, by decide +kernel⟩,
   ⟨W.open_, 0, W.req 17 1, by decide +kernel⟩,
   ⟨W.open_, 0, W.req 18 1, by decide +kernel⟩,
   ⟨W.open_, 0, W.req 19 1, by decide +kernel⟩,
   ⟨W.open_, 0, W.req 24 0, by decide +kernel⟩,
   ⟨W.open_, 0, W.req 25 0, by decide +kernel⟩⟩

/-- States and operands that meet the premises of AnswersAndSystem. -/
theorem witness_AnswersAndSystem :
    (∃ (s : State) (port : Fin 16) (m : Msg) (k : Trk), s.acts (pgFPORT port.val) = true ∧ s.passes port.val m = true ∧ m.cls.toNat
      = clsRsp ∧ m.opc = 0x42 ∧ s.trks = [k] ∧ k.la = laOf m.rsAddr ∧ k.kind = .inv ∧ k.awaited.any (fun a => a.1 == m.rsRspr) =
      true ∧ k.awaited.any (fun a => a.1 != m.rsRspr) = true ∧ s.owed = [] ∧ s.live m.rsRspr = true ∧ s.isOpen k.la = true) ∧
    (∃ (s : State) (port : Fin 16) (m : Msg), s.acts (pgFPORT port.val) = true ∧ s.passes port.val m = true ∧ m.cls.toNat = clsRsp ∧
      m.opc = 0x42 ∧ s.trks = [] ∧ s.owed = []) ∧
    (∃ (s : State) (port : Fin 16) (m : Msg) (k : Trk) (r : Req), s.acts (pgFPORT port.val) = true ∧ s.passes port.val m = true ∧
      m.cls.toNat = clsRsp ∧ m.opc = 0x43 ∧ s.trks = [k] ∧ k.la = laOf m.rsAddr ∧ k.kind = .inv ∧ k.awaited.any (fun a => a.1 ==
      m.rsRspr) = true ∧ k.awaited.any (fun a => a.1 != m.rsRspr) = true ∧ s.owed = [] ∧ s.live m.rsRspr = true ∧ s.isOpen k.la =
      true ∧ s.req k.req = some r ∧ k.keeps r = true ∧ s.attr r.epoch TEN_R_MIRROR r.region = false ∧ s.attr r.epoch TEN_R_ISO
      r.region = false) ∧
    (∃ (s : State) (port : Fin 16) (m : Msg), s.acts (pgFPORT port.val) = true ∧ s.passes port.val m = true ∧ m.cls.toNat = clsRsp ∧
      m.opc = 0x43 ∧ s.trks = [] ∧ s.owed = []) ∧
    (∃ (s : State) (port : Fin 16) (m : Msg) (q : Nat) (r : Req), s.acts (pgFPORT port.val) = true ∧ s.passes port.val m = true ∧
      m.cls.toNat = clsRsp ∧ m.opc = 0x40 ∧ s.cxlPort m.rsDst = some q ∧ (s.port q).alive = true ∧ s.live m.rsDst = true ∧ s.relayed
      m.rsDst m.rsTxid = some r ∧ r.place = .tracked ∧ m.rsStatus = stOK) ∧
    (∃ (s : State) (port : Fin 16) (m : Msg) (q : Nat) (r : Req), s.acts (pgFPORT port.val) = true ∧ s.passes port.val m = true ∧
      m.cls.toNat = clsRsp ∧ m.opc = 0x41 ∧ s.cxlPort m.rsDst = some q ∧ (s.port q).alive = true ∧ s.live m.rsDst = true ∧ s.relayed
      m.rsDst m.rsTxid = some r ∧ r.place = .tracked ∧ r.op.reads = false ∧ m.rsStatus = stOK) ∧
    (∃ (s : State) (port : Fin 16) (m : Msg), s.acts (pgFPORT port.val) = true ∧ s.passes port.val m = true ∧ m.cls.toNat = clsRsp ∧
      m.opc = 0x40 ∧ s.cxlPort m.rsDst = none) ∧
    (∃ (s : State) (port : Fin 16) (m : Msg) (n : Fin 16), s.acts (pgFPORT port.val) = true ∧ s.passes port.val m = true ∧
      m.cls.toNat = clsSys ∧ m.opc = 0x82 ∧ m.syTxid = 2 * n.val ∧ (s.move n.val).state = .starting ∧ (s.move n.val).walking = false
      ∧ (s.move n.val).sourceOf m.srcNid = true ∧ m.syStatus = stOK) ∧
    (∃ (s : State) (port : Fin 16) (m : Msg), s.acts (pgFPORT port.val) = true ∧ s.passes port.val m = true ∧ m.cls.toNat = clsSys ∧
      m.opc = 0x82 ∧ m.syTxid = joinTxid ∧ s.opts.w = true ∧ m.srcNid = s.rd TWIN_PARTNER_NID ∧ m.syStatus = stOK ∧ s.twin.turn =
      tuFenced) ∧
    (∃ (s : State) (port : Fin 16) (m : Msg), s.acts (pgFPORT port.val) = true ∧ s.passes port.val m = true ∧ m.cls.toNat = clsSys ∧
      m.opc = 0x82 ∧ s.awaitsRsp m.srcNid m.syTxid = false ∧ (s.opts.w = false ∨ m.srcNid ≠ s.rd TWIN_PARTNER_NID)) ∧
    (∃ (s : State) (port : Fin 16) (m : Msg), s.passes port.val m = true ∧ m.cls.toNat = clsSys ∧ m.opc = 0x80 ∧ s.rd
      FPORT_MMIO_ACCESS port.val ≠ 0 ∧ m.sySnode = false ∧ s.live m.sySrc = true) ∧
    (∃ (s : State) (port : Fin 16) (m : Msg), s.passes port.val m = true ∧ m.cls.toNat = clsSys ∧ m.opc = 0x80 ∧ s.rd
      FPORT_MMIO_ACCESS port.val = 0) ∧
    (∃ (s : State) (port : Fin 16) (m : Msg), s.passes port.val m = true ∧ m.cls.toNat = clsSys ∧ m.opc = 0x81 ∧ s.rd
      FPORT_MMIO_ACCESS port.val = 2 ∧ m.sySnode = false ∧ s.live m.sySrc = true) ∧
    (∃ (s : State) (port : Fin 16) (m : Msg), s.passes port.val m = true ∧ m.cls.toNat = clsSys ∧ m.opc = 0x81 ∧ s.rd
      FPORT_MMIO_ACCESS port.val ≠ 2) :=
  ⟨⟨W.snooping, 0, W.answer 0x42 16 0, W.snoopTrk, by decide +kernel⟩,
   ⟨W.open_, 0, W.answer 0x42 16 0, by decide +kernel⟩,
   ⟨W.snooping, 0, W.answer 0x43 16 4, W.snoopTrk, { W.homeReq with place := .tracked }, by decide +kernel⟩,
   ⟨W.open_, 0, W.answer 0x43 16 4, by decide +kernel⟩,
   ⟨W.relays .rdS, 0, W.rsp 0x40 4, 1, { Req.blank with op := .rdS, place := .tracked, id := 4, port := 1, cxl := true, aid := 7 }, by decide +kernel⟩,
   ⟨W.relays .clnEvict, 0, W.rsp 0x41 0, 1, { Req.blank with op := .clnEvict, place := .tracked, id := 4, port := 1, cxl := true, aid := 7 }, by decide +kernel⟩,
   ⟨W.nodePeer, 0, W.rsp 0x40 4, by decide +kernel⟩,
   ⟨({ W.nodePeer with moves := [(3, { W.move .starting with kind := 1, peer := 9 })] } : State), 0, W.nodeRsp 6, 3, by decide +kernel⟩,
   ⟨({ W.nodePeer with opts := { W.base.opts with w := true }, twin := { Twin.fresh with turn := tuFenced } } : State), 0, W.nodeRsp 32, by decide +kernel⟩,
   ⟨W.nodePeer, 0, mkNodeMsg 0x82 8 0 3 [], by decide +kernel⟩,
   ⟨(W.open_.wr FPORT_MMIO_ACCESS 1), 0, W.sys 0x80 0x1100, by decide +kernel⟩,
   ⟨(W.open_.wr FPORT_MMIO_ACCESS 0), 0, W.sys 0x80 0x1100, by decide +kernel⟩,
   ⟨(W.open_.wr FPORT_MMIO_ACCESS 2), 0, W.sys 0x81 0xD108, by decide +kernel⟩,
   ⟨(W.open_.wr FPORT_MMIO_ACCESS 1), 0, W.sys 0x81 0xD108, by decide +kernel⟩⟩

/-- States and operands that meet the premises of Admission. -/
theorem witness_Admission :
    (∃ (s : State) (r : Req), s.acts pgSHAPE = true ∧ (List.range 16).all (fun p => !(s.port p).isCxl) = true ∧ s.shape.fcSlots <
      s.fcLimit ∧ s.nextBypass = some r ∧ s.req r.id = some r ∧ r.intern = false ∧ r.op.bypasses = true) ∧
    (∃ (s : State) (r : Req), s.acts pgSHAPE = true ∧ (List.range 16).all (fun p => !(s.port p).isCxl) = true ∧ s.shape.fcSlots <
      s.fcLimit ∧ s.reqs = [r] ∧ r.place = .queued ∧ r.intern = false ∧ r.port < 16 ∧ s.shape.batch = [] ∧ s.shape.panic = false ∧
      s.mayAdmit r = true ∧ s.slotLeft r = true) ∧
    (∃ (s : State) (n : BitVec 8), s.acts pgSHAPE = true ∧ s.mode n.toNat = 1) ∧
    (∃ (s : State), s.acts pgSHAPE = true) ∧
    (∃ (s : State), s.acts pgSHAPE = true ∧ s.rd SHAPE_STEER_HI ≤ s.shape.load) ∧
    (∃ (s : State), s.acts pgSHAPE = true ∧ s.shape.load < s.rd SHAPE_STEER_HI ∧ s.shape.load ≤ s.rd SHAPE_STEER_LO) ∧
    (∃ (s : State), s.acts pgSHAPE = true ∧ s.shape.load < s.rd SHAPE_STEER_HI ∧ s.rd SHAPE_STEER_LO < s.shape.load) :=
  ⟨⟨W.bypassing, W.evict, by decide +kernel⟩,
   ⟨W.queuedOne, W.queuedReq, by decide +kernel⟩,
   ⟨(((W.base.wr SHAPE_T_MODE 1 0 3).wr SHAPE_T_CIR 9 0 3).wr SHAPE_T_CBS 5 0 3), 3#8, by decide +kernel⟩,
   ⟨W.base, by decide +kernel⟩,
   ⟨({ W.base with shape := { Shape.fresh with load := 15 } } : State), by decide +kernel⟩,
   ⟨W.base, by decide +kernel⟩,
   ⟨(({ W.base with shape := { Shape.fresh with load := 5 } } : State).wr SHAPE_STEER_LO 4 |>.wr SHAPE_STEER_HI 6), by decide +kernel⟩⟩

/-- States and operands that meet the premises of AgentTable. -/
theorem witness_AgentTable :
    (∃ (s : State) (aid : BitVec 12) (_inc : BitVec 16), s.acts pgDIRC = true ∧ (s.agent aid.toNat).state = agAbsent) ∧
    (∃ (s : State) (aid : BitVec 12) (inc : BitVec 16), s.acts pgDIRC = true ∧ (s.agent aid.toNat).state = agLive ∧ (s.agent
      aid.toNat).inc = inc.toNat ∧ s.trks = []) ∧
    (∃ (s : State) (aid : BitVec 12) (inc : BitVec 16), s.acts pgDIRC = true ∧ (s.agent aid.toNat).state = agFenced ∧ inc.toNat =
      ((s.agent aid.toNat).inc + 1) % 65536 ∧ (s.agent aid.toNat).fencedAt + 1563 ≤ s.ao) ∧
    (∃ (s : State) (c : Scan), s.acts pgHOME = true ∧ s.scan = some c ∧ c.agents.any (fun a => a.2.1 != 0) = true) ∧
    (∃ (s : State) (c : Scan) (a : Nat × Nat × Nat × Nat), s.acts pgHOME = true ∧ s.scan = some c ∧ c.agents = [a] ∧ a.2.1 = 0 ∧
      s.sweepBusy a.1 = false ∧ c.regionRc = none ∧ c.image = none) :=
  ⟨⟨W.base, 0xFFF#12, 0xFFFF#16, by decide +kernel⟩,
   ⟨W.open_, 7#12, 3#16, by decide +kernel⟩,
   ⟨W.fenced, 7#12, 0#16, by decide +kernel⟩,
   ⟨W.scanning, W.scan, by decide +kernel⟩,
   ⟨W.swept, W.sweptScan, (7, 0, 1, 2), by decide +kernel⟩⟩

/-- States and operands that meet the premises of HomeAndProbe. -/
theorem witness_HomeAndProbe :
    (∃ (s : State) (la : BitVec 37) (r : Req), s.acts pgHOME = true ∧ s.reqs = [r] ∧ r.place = .home ∧ r.la = la.toNat ∧ r.op =
      .rdCur ∧ r.intern = false ∧ s.openTx = [] ∧ s.fences = [] ∧ s.fencedAt4 r = none ∧ s.attr r.epoch TEN_R_COH r.region = true ∧
      s.attr r.epoch TEN_R_MIRROR r.region = false) ∧
    (∃ (s : State) (la : BitVec 37) (r : Req), s.acts pgHOME = true ∧ s.reqs = [r] ∧ r.place = .home ∧ r.la = la.toNat ∧ r.op = .rdS
      ∧ r.intern = false ∧ r.wait = 0 ∧ s.openTx = [] ∧ s.fences = [] ∧ s.fencedAt4 r = none ∧ s.attr r.epoch TEN_R_COH r.region =
      false ∧ s.attr r.epoch TEN_R_MIRROR r.region = false ∧ s.cached (dirSet r.la) = true ∧ s.broken = [] ∧ s.dir = []) ∧
    (∃ (s : State) (la : BitVec 37) (r : Req) (e : DirEnt), s.acts pgHOME = true ∧ s.reqs = [r] ∧ r.place = .home ∧ r.la = la.toNat
      ∧ r.op = .rdS ∧ r.intern = false ∧ r.wait = 0 ∧ s.openTx = [] ∧ s.fences = [] ∧ s.fencedAt4 r = none ∧ s.attr r.epoch
      TEN_R_COH r.region = false ∧ s.attr r.epoch TEN_R_MIRROR r.region = false ∧ s.cached (dirSet r.la) = true ∧ s.broken = [] ∧
      s.trks = [] ∧ s.dir = [e] ∧ e.la = r.la ∧ e.shadow = false ∧ e.coarse = false ∧ e.modif = true ∧ s.live e.owner = true ∧
      e.owner ≠ r.aid) ∧
    (∃ (s : State) (la : BitVec 37) (k : Trk), s.acts pgHOME = true ∧ s.trks = [k] ∧ k.la = la.toNat ∧ k.slow = false ∧ k.since +
      s.rd HOME_SNP_SLOW_LIMIT ≤ s.ao) ∧
    (∃ (s : State), s.acts pgDIRC = true) :=
  ⟨⟨W.homeWait, 16#37, W.homeReq, by decide +kernel⟩,
   ⟨W.readWaits [], 16#37, W.homeRead, by decide +kernel⟩,
   ⟨W.readWaits [W.ownedEnt], 16#37, W.homeRead, W.ownedEnt, by decide +kernel⟩,
   ⟨W.slow, 16#37, W.slowTrk, by decide +kernel⟩,
   ⟨(W.base.wr DIRC_PROBE_LA 0x1FFFFFFFFF), by decide +kernel⟩⟩

/-- States and operands that meet the premises of RegionTable. -/
theorem witness_RegionTable :
    (∃ (s : State) (_n : BitVec 12) (_val : Word), s.acts pgTEN = true) ∧
    (∃ (s : State) (n : BitVec 12) (val w1 : Word), s.acts pgTEN = true ∧ s.holdBuf = some (n.toNat, w1) ∧ s.regionCheck n.toNat
      (regionOfWords val.toNat w1.toNat) = 0) ∧
    (∃ (s : State) (n : BitVec 12) (val w1 : Word), s.acts pgTEN = true ∧ s.holdBuf = some (n.toNat, w1) ∧ s.regionCheck n.toNat
      (regionOfWords val.toNat w1.toNat) ≠ 0) ∧
    (∃ (s : State), s.acts pgTEN = true ∧ s.rd TEN_R_CLOSED 0 (s.rd TEN_RECALL_REGION) = 1 ∧ s.commitPending = false ∧ s.rd
      TEN_RECALL_BUSY = 0 ∧ s.scan = none) ∧
    (∃ (s : State) (c : Scan) (n : Nat), s.acts pgTEN = true ∧ s.scan = some c ∧ c.regionRc = some (n, 0) ∧ n ≠ 4096 ∧ s.reqs.any
      (fun r => r.op == .recall && r.region == n) = false) :=
  ⟨⟨W.base, 0xFFF#12, 0x00180018, by decide +kernel⟩,
   ⟨W.held, 5#12, 0x00070301, 0x00180018, by decide +kernel⟩,
   ⟨W.held, 5#12, 0x00000305, 0x00180018, by decide +kernel⟩,
   ⟨(W.base.wr TEN_R_CLOSED 1 0 0), by decide +kernel⟩,
   ⟨W.recalled, { Scan.idle with regionRc := some (5, 0) }, 5, by decide +kernel⟩⟩

/-- States and operands that meet the premises of Resolution. -/
theorem witness_Resolution :
    (∃ (s : State) (r : Req) (n : Nat), s.acts pgTEN = true ∧ s.req r.id = some r ∧ r.place = .resolving ∧ r.op = .rdS ∧ r.as1 =
      false ∧ r.intern = false ∧ s.resolveWaits r = false ∧ s.overrideOf r.addr = none ∧ okOf ((s.use [pgTEN]).tenCheck r r.addr) =
      some n ∧ s.trks = []) ∧
    (∃ (s : State) (r : Req) (st : Nat), s.acts pgTEN = true ∧ s.req r.id = some r ∧ r.place = .resolving ∧ r.op = .rdS ∧ r.as1 =
      false ∧ s.resolveWaits r = false ∧ s.overrideOf r.addr = none ∧ errorOf ((s.use [pgTEN]).tenCheck r r.addr) = some st) ∧
    (∃ (s : State) (r : Req) (pga : Nat) (nc : Bool), s.acts pgXLAT = true ∧ s.req r.id = some r ∧ r.place = .walking ∧ 5 ≤ r.wait ∧
      r.wait ≤ 7 ∧ r.val ≠ 2 ^ 64 ∧ decodeTEnt (r.wait - 4) r.val = .page pga nc ∧ s.cacheOn r.tid = true) ∧
    (∃ (s : State) (r : Req), s.acts pgXLAT = true ∧ s.req r.id = some r ∧ r.place = .walking ∧ 4 ≤ r.wait ∧ r.val ≠ 2 ^ 64 ∧
      decodeTEnt (r.wait - 4) r.val = .invalid ∧ s.pwr.windows = 0) :=
  ⟨⟨W.resolving, W.rdReq, 5, by decide +kernel⟩,
   ⟨W.resolvingBad, W.rdReq, stNomap, by decide +kernel⟩,
   ⟨W.walked, W.walkReq, W.walkPga, false, by decide +kernel⟩,
   ⟨W.walkedInvalid, W.walkReqInvalid, by decide +kernel⟩⟩

/-- States and operands that meet the premises of TranslationUpkeep. -/
theorem witness_TranslationUpkeep :
    (∃ (s : State) (port : Fin 16) (m : Msg), s.acts (pgFPORT port.val) = true ∧ s.passes port.val m = true ∧ m.cls.toNat = clsSys ∧
      m.opc = 0x88 ∧ s.rd FPORT_MMIO_ACCESS port.val = 2 ∧ m.sySnode = false ∧ s.live m.sySrc = true ∧ s.invOf m.sySrc = none ∧
      s.pwr.windows = 0) ∧
    (∃ (s : State) (port : Fin 16) (m : Msg), s.acts (pgFPORT port.val) = true ∧ s.passes port.val m = true ∧ m.cls.toNat = clsSys ∧
      m.opc = 0x88 ∧ s.rd FPORT_MMIO_ACCESS port.val = 2 ∧ m.sySnode = false ∧ s.live m.sySrc = true ∧ (s.invOf m.sySrc).isSome =
      true) ∧
    (∃ (s : State) (port : Fin 16) (m : Msg), s.acts (pgFPORT port.val) = true ∧ s.passes port.val m = true ∧ m.cls.toNat = clsSys ∧
      m.opc = 0x89 ∧ s.rd FPORT_MMIO_ACCESS port.val = 2 ∧ m.sySnode = false ∧ s.live m.sySrc = true) ∧
    (∃ (s : State) (x : Nat × Msg × List Nat) (rest : List (Nat × Msg × List Nat)), s.acts pgXLAT = true ∧ s.xsyncs = x :: rest ∧
      x.2.1.opc = 0x89 ∧ x.2.2.all s.hasLeft = true ∧ rest.all (fun y => y.2.1.sySrc != x.2.1.sySrc) = true) ∧
    (∃ (s : State) (l : Leaf), s.acts pgXLAT = true ∧ s.rd H_PWR_NOW pgXLAT = 0 ∧ s.tc = [l] ∧ l.remote = false) ∧
    (∃ (s : State), s.acts pgXLAT = true ∧ (s.rd H_PWR_NOW pgXLAT = 1 ∨ s.rd H_PWR_NOW pgXLAT = 2)) ∧
    (∃ (s : State), s.acts pgXLAT = true ∧ s.rd H_PWR_NOW pgXLAT = 3) ∧
    (∃ (s : State) (val : Word), s.acts pgXLAT = true ∧ (bits val.toNat 0 10 + 1024 - s.hpqTail) % 1024 ≤ (s.hpqHead + 1024 -
      s.hpqTail) % 1024) ∧
    (∃ (s : State) (val : Word), s.acts pgXLAT = true ∧ (s.hpqHead + 1024 - s.hpqTail) % 1024 < (bits val.toNat 0 10 + 1024 -
      s.hpqTail) % 1024) :=
  ⟨⟨W.cached, 0, W.xinvMsg, by decide +kernel⟩,
   ⟨({ W.cached with xsyncs := W.syncing.xsyncs } : State), 0, W.xinvMsg, by decide +kernel⟩,
   ⟨W.cached, 0, W.sys 0x89 0, by decide +kernel⟩,
   ⟨W.syncing, (0, W.sys 0x89 0, [3]), [], by decide +kernel⟩,
   ⟨W.cached, W.leaf, by decide +kernel⟩,
   ⟨(W.base.wr H_PWR_NOW 2 pgXLAT), by decide +kernel⟩,
   ⟨(W.base.wr H_PWR_NOW 3 pgXLAT), by decide +kernel⟩,
   ⟨({ W.base with hpqHead := 3 } : State), 3, by decide +kernel⟩,
   ⟨({ W.base with hpqHead := 3 } : State), 4, by decide +kernel⟩⟩

/-- States and operands that meet the premises of MoveCommands. -/
theorem witness_MoveCommands :
    (∃ (s : State) (g : Nat), s.acts pgMIGR = true ∧ (s.move (s.rd MIGR_MOVE_SEL)).state = .idle ∧ (s.move (s.rd
      MIGR_MOVE_SEL)).tpa.toNat / 2 ^ 48 = 0 ∧ s.rd XLAT_ROOT_XEN 0 (s.move (s.rd MIGR_MOVE_SEL)).tid ≠ 0 ∧ s.tableRegion
      s.openEpoch (tentAddr 1 (s.rd XLAT_ROOT_BASE 0 (s.move (s.rd MIGR_MOVE_SEL)).tid) (s.move (s.rd MIGR_MOVE_SEL)).tpa.toNat) =
      some g) ∧
    (∃ (s : State), s.acts pgMIGR = true ∧ (s.move (s.rd MIGR_MOVE_SEL)).state = .idle ∧ s.rd XLAT_ROOT_XEN 0 (s.move (s.rd
      MIGR_MOVE_SEL)).tid = 0) ∧
    (∃ (s : State), s.acts pgMIGR = true ∧ (s.move (s.rd MIGR_MOVE_SEL)).state = .stuck) ∧
    (∃ (s : State), s.acts pgMIGR = true ∧ ((s.move (s.rd MIGR_MOVE_SEL)).state = .stuck ∨ (s.move (s.rd MIGR_MOVE_SEL)).state =
      .stuckIn)) ∧
    (∃ (s : State) (g : Nat), s.acts pgMIGR = true ∧ (s.move (s.rd MIGR_MOVE_SEL)).state = .done ∧ (s.move (s.rd
      MIGR_MOVE_SEL)).walking = false ∧ (s.move (s.rd MIGR_MOVE_SEL)).tpa.toNat / 2 ^ 48 = 0 ∧ s.rd XLAT_ROOT_XEN 0 (s.move (s.rd
      MIGR_MOVE_SEL)).tid ≠ 0 ∧ s.tableRegion s.openEpoch (tentAddr 1 (s.rd XLAT_ROOT_BASE 0 (s.move (s.rd MIGR_MOVE_SEL)).tid)
      (s.move (s.rd MIGR_MOVE_SEL)).tpa.toNat) = some g) ∧
    (∃ (s : State) (mid : Fin 16), s.acts pgMIGR = true ∧ (s.move mid.val).state = .copying ∧ (s.move mid.val).issued < (s.move
      mid.val).lines ∧ (s.move mid.val).issued - (s.move mid.val).doneL < s.rd MIGR_WINDOW) ∧
    (∃ (s : State) (mid : Fin 16), s.acts pgMIGR = true ∧ (s.move mid.val).incoming = true ∧ (s.move mid.val).acked < (s.move
      mid.val).doneL) ∧
    (∃ (s : State) (mid : Fin 16), s.acts pgMIGR = true ∧ (s.move mid.val).state = .incoming ∧ (s.move mid.val).progress + s.rd
      MIGR_MIGR_TIMEOUT ≤ s.ao) ∧
    (∃ (s : State) (mid : Fin 16), s.acts pgMIGR = true ∧ (s.move mid.val).state = .starting ∧ (s.move mid.val).walking = false ∧
      (s.move mid.val).progress + s.rd MIGR_MIGR_TIMEOUT ≤ s.ao) :=
  ⟨⟨W.goReady, 5, by decide +kernel⟩,
   ⟨W.base, by decide +kernel⟩,
   ⟨W.mv .stuck, by decide +kernel⟩,
   ⟨W.mv .stuckIn, by decide +kernel⟩,
   ⟨W.relGo, 5, by decide +kernel⟩,
   ⟨W.mv .copying, 0, by decide +kernel⟩,
   ⟨W.mvAck, 0, by decide +kernel⟩,
   ⟨({ W.mv .incoming with ao := 0xFFFFFFFF } : State), 0, by decide +kernel⟩,
   ⟨({ W.mv .starting with ao := 0xFFFFFFFF } : State), 0, by decide +kernel⟩⟩

/-- States and operands that meet the premises of MoveMessages. -/
theorem witness_MoveMessages :
    (∃ (s : State) (port : Fin 16) (m : Msg) (g : Nat), s.acts (pgFPORT port.val) = true ∧ s.passes port.val m = true ∧ m.cls.toNat
      = clsSys ∧ m.opc = 0xA0 ∧ m.f 76 1 = 0 ∧ bits m.payload 0 64 / 2 ^ 48 = 0 ∧ s.rd XLAT_ROOT_XEN 0 (m.f 65 8) ≠ 0 ∧
      s.tableRegion s.openEpoch (tentAddr 1 (s.rd XLAT_ROOT_BASE 0 (m.f 65 8)) (bits m.payload 0 64)) = some g) ∧
    (∃ (s : State) (port : Fin 16) (m : Msg) (n : Nat) (x : Move), s.acts (pgFPORT port.val) = true ∧ s.passes port.val m = true ∧
      m.cls.toNat = clsSys ∧ m.opc = 0xA0 ∧ m.f 76 1 = 1 ∧ s.incomingOf m.srcNid (m.f 45 4) = some (n, x)) ∧
    (∃ (s : State) (port : Fin 16) (m : Msg) (n : Nat) (x : Move), s.acts (pgFPORT port.val) = true ∧ s.passes port.val m = true ∧
      m.cls.toNat = clsSys ∧ m.opc = 0xA1 ∧ s.incomingOf m.srcNid (m.f 45 4) = some (n, x) ∧ x.state = .incoming ∧ m.f 49 16 =
      x.issued ∧ m.f 77 1 = 0) ∧
    (∃ (s : State) (port : Fin 16) (m : Msg), s.acts (pgFPORT port.val) = true ∧ s.passes port.val m = true ∧ m.cls.toNat = clsSys ∧
      m.opc = 0xA2 ∧ (s.move (m.f 45 4)).sourceOf m.srcNid = true ∧ (s.move (m.f 45 4)).state = .copying ∧ (s.move (m.f 45 4)).doneL
      < m.f 49 16 ∧ m.f 49 16 ≤ (s.move (m.f 45 4)).issued ∧ m.f 49 16 < (s.move (m.f 45 4)).lines) ∧
    (∃ (s : State) (port : Fin 16) (m : Msg) (n : Nat) (x : Move), s.acts (pgFPORT port.val) = true ∧ s.passes port.val m = true ∧
      m.cls.toNat = clsSys ∧ m.opc = 0xA3 ∧ s.incomingOf m.srcNid (m.f 45 4) = some (n, x)) :=
  ⟨⟨W.destReady, 0, W.startMsg, 5, by decide +kernel⟩,
   ⟨W.destStuck W.nodePeer, 0, W.resumeMsg, 2, { W.move .stuckIn with issued := 3, remoteMid := 1, peer := 9, region := 5 }, by decide +kernel⟩,
   ⟨W.destGoing, 0, W.lineMsg, 2, W.destMove, by decide +kernel⟩,
   ⟨W.srcGoing, 0, W.ackMsg, by decide +kernel⟩,
   ⟨W.destGoing, 0, W.doneMsg, 2, W.destMove, by decide +kernel⟩⟩

/-- States and operands that meet the premises of QueuesAndCommands. -/
theorem witness_QueuesAndCommands :
    (∃ (s : State) (q : Fin 96) (e : Entry), s.acts (pgMCH (q.val / 2)) = true ∧ (s.queue q.val).entries.length < 64 ∧ (s.queue
      q.val).nextWaiting = some e ∧ e.kind = .refresh) ∧
    (∃ (s : State) (q : Fin 96) (e : Entry), s.acts (pgMCH (q.val / 2)) = true ∧ (s.queue q.val).entries.length < 64 ∧ (s.queue
      q.val).nextWaiting = some e ∧ e.kind = .write ∧ e.req = none ∧ e.mirror = false) ∧
    (∃ (s : State) (q : Fin 96) (e : Entry) (rest : List Entry) (bank row col : Nat), s.acts (pgMCH (q.val / 2)) = true ∧ s.mchRuns
      (q.val / 2) = true ∧ (s.queue q.val).redo = [] ∧ (s.queue q.val).entries = e :: rest ∧ e.kind = .write ∧ s.nextCmd q.val e =
      .cmd (.wr bank row col) ∧ s.Inv) ∧
    (∃ (s : State) (q : Fin 96) (e : Entry) (rest : List Entry) (bank row col : Nat), s.acts (pgMCH (q.val / 2)) = true ∧ s.mchRuns
      (q.val / 2) = true ∧ (s.queue q.val).redo = [] ∧ (s.queue q.val).entries = e :: rest ∧ e.kind = .read .rescan ∧ (s.queue
      q.val).rets = [] ∧ s.refreshed (q.val / 2) (row / 512) = true ∧ s.nextCmd q.val e = .cmd (.rd bank row col)) ∧
    (∃ (s : State) (q : Fin 96) (r : Ret) (rest : List Ret) (_temp : BitVec 16), s.acts (pgMCH (q.val / 2)) = true ∧ (s.queue
      q.val).rets = r :: rest ∧ r.whole = true ∧ r.ent.kind = .status) :=
  ⟨⟨W.waits .refresh, 1, W.entry .refresh, by decide +kernel⟩,
   ⟨W.waits .write, 1, W.entry .write, by decide +kernel⟩,
   ⟨W.writing, 1, W.wrEntry, [], 3, 7, 5, by decide +kernel⟩,
   ⟨({ W.reading with mchs := [(0, { Mch.fresh with pasr := 1 })] } : State), 1, W.rdEntry, [], 3, 7, 5, by decide +kernel⟩,
   ⟨W.statusBack, 0, W.statusRet, [], 0x00AA, by decide +kernel⟩⟩

/-- States and operands that meet the premises of ChannelWork. -/
theorem witness_ChannelWork :
    (∃ (s : State) (ch : Fin 48), s.acts (pgMCH ch.val) = true ∧ s.mchRuns ch.val = true ∧ s.selfRefresh ch.val = false) ∧
    (∃ (s : State) (ch : Fin 48), s.acts (pgMCH ch.val) = true ∧ s.mchRuns ch.val = true) ∧
    (∃ (s : State) (ch : Fin 48), s.acts (pgMCH ch.val) = true ∧ s.mchTrained ch.val = true) ∧
    (∃ (s : State) (_ch : Fin 48), s.acts pgTMCB = true) ∧
    (∃ (s : State) (ch : Fin 48) (idPage : Bytes), s.acts (pgMCH ch.val) = true ∧ s.rd MCH_TRAIN_STATE ch.val ≠ 0 ∧ s.rd
      MCH_TRAIN_STATE ch.val ≠ 0xF ∧ s.rd WARDEN_MEM_KEPT = 0 ∧ idPageOk idPage = true) ∧
    (∃ (s : State) (ch : Fin 48) (_idPage : Bytes) (k : BitVec 4), s.acts (pgMCH ch.val) = true ∧ s.rd MCH_TRAIN_STATE ch.val ≠ 0 ∧
      s.rd MCH_TRAIN_STATE ch.val ≠ 0xF ∧ 1 ≤ k.toNat ∧ k.toNat ≤ 11 ∧ (s.mch ch.val).retried = false) ∧
    (∃ (s : State) (ch : Fin 48) (_idPage : Bytes) (k : BitVec 4), s.acts (pgMCH ch.val) = true ∧ s.rd MCH_TRAIN_STATE ch.val ≠ 0 ∧
      s.rd MCH_TRAIN_STATE ch.val ≠ 0xF ∧ 1 ≤ k.toNat ∧ k.toNat ≤ 11 ∧ (s.mch ch.val).retried = true ∧ (s.mch ch.val).step =
      k.toNat) ∧
    (∃ (s : State) (q : Fin 96) (_count : BitVec 8), s.acts (pgMCH (q.val / 2)) = true ∧ s.mchRuns (q.val / 2) = true ∧ (s.queue
      q.val).issued ≠ 0) ∧
    (∃ (s : State) (ch : Fin 48), s.acts (pgMCH ch.val) = true ∧ s.mchTrained ch.val = true ∧ s.rd H_PWR_NOW (pgMCH ch.val) = 1 ∧
      s.queue (2 * ch.val) = Queue.fresh ∧ s.queue (2 * ch.val + 1) = Queue.fresh) :=
  ⟨⟨W.mchUp, 0, by decide +kernel⟩,
   ⟨W.mchUp, 0, by decide +kernel⟩,
   ⟨W.mchUp, 0, by decide +kernel⟩,
   ⟨W.base, 47, by decide +kernel⟩,
   ⟨(W.base.wr MCH_TRAIN_STATE 1 0), 0, W.goodPage, by decide +kernel⟩,
   ⟨(W.base.wr MCH_TRAIN_STATE 1 0), 0, [], 7, by decide +kernel⟩,
   ⟨W.retried, 0, [], 1, by decide +kernel⟩,
   ⟨W.issued, 0, 3, by decide +kernel⟩,
   ⟨(W.mchUp.wr H_PWR_NOW 1 0x20), 0, by decide +kernel⟩⟩

/-- States and operands that meet the premises of RetirementAndErrors. -/
theorem witness_RetirementAndErrors :
    (∃ (s : State) (ch : Fin 48), s.acts (pgMCH ch.val) = true ∧ (s.mch ch.val).clears = true ∧ (s.queue (2 * ch.val)).entries = []
      ∧ (s.queue (2 * ch.val)).waiting = [] ∧ (s.queue (2 * ch.val + 1)).entries = [] ∧ (s.queue (2 * ch.val + 1)).waiting = []) ∧
    (∃ (s : State) (q bank row : Nat) (mask : BitVec 128), s.acts pgRAS = true ∧ s.mchs.flatMap (fun m => m.2.stale) = [(q, bank,
      row, mask)]) ∧
    (∃ (s : State), s.acts pgRAS = true) ∧
    (∃ (s : State) (e : PageEnt), s.acts pgRAS = true ∧ Tab.get? s.ras.pages (s.rd RAS_PT_SEL) = some e ∧ e.count ≠ 0) ∧
    (∃ (s : State) (e : PageEnt), s.acts pgRAS = true ∧ Tab.get? s.ras.pages (s.rd RAS_PT_SEL) = some e ∧ e.count = 0) ∧
    (∃ (s : State) (e : BankEnt), s.acts pgRAS = true ∧ Tab.get? s.ras.banks (s.rd RAS_BT_SEL) = some e) ∧
    (∃ (s : State) (q : Fin 96), s.acts pgRAS = true ∧ s.patrols q.val (Tab.get s.ras.cursor q.val 0 / 128) = true ∧ s.staleMask
      q.val (Tab.get s.ras.cursor q.val 0 % 2 ^ 29 / 128 % 16) (Tab.get s.ras.cursor q.val 0 % 2 ^ 29 / 128 / 16) = none) ∧
    (∃ (s : State), s.acts pgRAS = true) ∧
    (∃ (s : State) (i : Nat), s.acts pgRAS = true ∧ s.rd RAS_RMAP_SEL = i ∧ s.rmapCheck i (s.rmapField i 0) (s.rmapField i 7)
      (s.rmapField i 11) (s.rmapField i 20) = 0) ∧
    (∃ (s : State) (i : Nat), s.acts pgRAS = true ∧ s.rd RAS_RMAP_SEL = i ∧ s.rmapCheck i (s.rmapField i 0) (s.rmapField i 7)
      (s.rmapField i 11) (s.rmapField i 20) ≠ 0) ∧
    (∃ (s : State) (i : Nat) (e : RmapEnt), s.acts pgRAS = true ∧ s.ras.running = some i ∧ Tab.get? s.ras.rmap i = some e ∧
      s.ras.clearing = false ∧ e.placed < 512 ∧ (e.placed ≠ 0 ∨ s.reserved (saKey e.q e.bank e.sa) = false)) ∧
    (∃ (s : State) (val : Word), s.acts pgEVLOG = true ∧ (bits val.toNat 0 10 + evPlaces - s.evlog.tail) % evPlaces ≤ s.evlog.used ∧
      s.evlog.lost = 0) ∧
    (∃ (s : State) (val : Word), s.acts pgEVLOG = true ∧ s.evlog.used < (bits val.toNat 0 10 + evPlaces - s.evlog.tail) % evPlaces) :=
  ⟨⟨W.clearing, 0, by decide +kernel⟩,
   ⟨W.stale, 1, 2, 3, 0, by decide +kernel⟩,
   ⟨W.base, by decide +kernel⟩,
   ⟨W.pages, W.pageEnt, by decide +kernel⟩,
   ⟨W.pagesZero, W.pageZero, by decide +kernel⟩,
   ⟨W.banks, { BankEnt.fresh with lasting := true }, by decide +kernel⟩,
   ⟨({ W.base with mchs := [(0, { Mch.fresh with pasr := 1 })] } : State), 1, by decide +kernel⟩,
   ⟨W.base, by decide +kernel⟩,
   ⟨({ W.base with ras := { Ras.fresh with fields := [(20, 509)] } } : State), 0, by decide +kernel⟩,
   ⟨({ W.base with ras := { Ras.fresh with fields := [(20, 511)] } } : State), 0, by decide +kernel⟩,
   ⟨W.copies, 4, W.rmapEnt, by decide +kernel⟩,
   ⟨W.logged, 2, by decide +kernel⟩,
   ⟨W.logged, 5, by decide +kernel⟩⟩

/-- States and operands that meet the premises of PoisonRescan. -/
theorem witness_PoisonRescan :
    (∃ (s : State), s.acts pgRDL = true ∧ s.rdl.rescan = none) ∧
    (∃ (s : State), s.acts pgRDL = true ∧ s.rdl.rescan.isSome = true) ∧
    (∃ (s : State) (r : Rescan), s.acts pgRDL = true ∧ s.rdl.rescan = some r ∧ r.left = 0 ∧ r.missed = false) :=
  ⟨⟨(W.base.wr RDL_RS_BANK 15), by decide +kernel⟩,
   ⟨W.rescanning, by decide +kernel⟩,
   ⟨W.rescanned, W.rescanRec, by decide +kernel⟩⟩

/-- States and operands that meet the premises of MicroOpRegisters. -/
theorem witness_MicroOpRegisters :
    (∃ (s : State) (rce : Fin 48) (ctx : Fin 8) (w : Nat) (b : Bake), s.acts (pgRCE rce.val) = true ∧ s.executes rce.val ctx.val w b
      = true ∧ uOpc w = 16) ∧
    (∃ (s : State) (rce : Fin 48) (ctx : Fin 8) (w : Nat) (b : Bake), s.acts (pgRCE rce.val) = true ∧ s.executes rce.val ctx.val w b
      = true ∧ uOpc w = 17) ∧
    (∃ (s : State) (rce : Fin 48) (ctx : Fin 8) (w : Nat) (b : Bake), s.acts (pgRCE rce.val) = true ∧ s.executes rce.val ctx.val w b
      = true ∧ uOpc w = 18) ∧
    (∃ (s : State) (rce : Fin 48) (ctx : Fin 8) (w : Nat) (b : Bake), s.acts (pgRCE rce.val) = true ∧ s.executes rce.val ctx.val w b
      = true ∧ uOpc w = 19) ∧
    (∃ (s : State) (rce : Fin 48) (ctx : Fin 8) (w : Nat) (b : Bake), s.acts (pgRCE rce.val) = true ∧ s.executes rce.val ctx.val w b
      = true ∧ uOpc w = 20) ∧
    (∃ (s : State) (rce : Fin 48) (ctx : Fin 8) (w : Nat) (b : Bake), s.acts (pgRCE rce.val) = true ∧ s.executes rce.val ctx.val w b
      = true ∧ uOpc w = 21) ∧
    (∃ (s : State) (rce : Fin 48) (ctx : Fin 8) (w : Nat) (b : Bake), s.acts (pgRCE rce.val) = true ∧ s.executes rce.val ctx.val w b
      = true ∧ uOpc w = 22) ∧
    (∃ (s : State) (rce : Fin 48) (ctx : Fin 8) (w : Nat) (b : Bake), s.acts (pgRCE rce.val) = true ∧ s.executes rce.val ctx.val w b
      = true ∧ uOpc w = 23) ∧
    (∃ (s : State) (rce : Fin 48) (ctx : Fin 8) (w : Nat) (b : Bake), s.acts (pgRCE rce.val) = true ∧ s.executes rce.val ctx.val w b
      = true ∧ uOpc w = 24) ∧
    (∃ (s : State) (rce : Fin 48) (ctx : Fin 8) (w : Nat) (b : Bake), s.acts (pgRCE rce.val) = true ∧ s.executes rce.val ctx.val w b
      = true ∧ uOpc w = 25) ∧
    (∃ (s : State) (rce : Fin 48) (ctx : Fin 8) (w : Nat) (b : Bake), s.acts (pgRCE rce.val) = true ∧ s.executes rce.val ctx.val w b
      = true ∧ uOpc w = 26) :=
  ⟨⟨(W.uop 1098973183), 0, 0, 1098973183, W.bake, by decide +kernel⟩,
   ⟨(W.uop 1166049280), 0, 0, 1166049280, W.bake, by decide +kernel⟩,
   ⟨(W.uop 1266745343), 0, 0, 1266745343, W.bake, by decide +kernel⟩,
   ⟨(W.uop 1284636672), 0, 0, 1284636672, W.bake, by decide +kernel⟩,
   ⟨(W.uop 1350696960), 0, 0, 1350696960, W.bake, by decide +kernel⟩,
   ⟨(W.uop 1417805824), 0, 0, 1417805824, W.bake, by decide +kernel⟩,
   ⟨(W.uop 1484914688), 0, 0, 1484914688, W.bake, by decide +kernel⟩,
   ⟨(W.uop 1553072128), 0, 0, 1553072128, W.bake, by decide +kernel⟩,
   ⟨(W.uop 1620049951), 0, 0, 1620049951, W.bake, by decide +kernel⟩,
   ⟨(W.uop 1687158815), 0, 0, 1687158815, W.bake, by decide +kernel⟩,
   ⟨(W.uop 1753219075), 0, 0, 1753219075, W.bake, by decide +kernel⟩⟩

/-- States and operands that meet the premises of MicroOpControl. -/
theorem witness_MicroOpControl :
    (∃ (s : State) (rce : Fin 48) (ctx : Fin 8) (w : Nat) (b : Bake), s.acts (pgRCE rce.val) = true ∧ s.executes rce.val ctx.val w b
      = true ∧ uOpc w = 1) ∧
    (∃ (s : State) (rce : Fin 48) (ctx : Fin 8) (w : Nat) (b : Bake), s.acts (pgRCE rce.val) = true ∧ s.executes rce.val ctx.val w b
      = true ∧ uOpc w = 2) ∧
    (∃ (s : State) (rce : Fin 48) (ctx : Fin 8) (w : Nat) (b : Bake), s.acts (pgRCE rce.val) = true ∧ s.executes rce.val ctx.val w b
      = true ∧ uOpc w = 3) ∧
    (∃ (s : State) (rce : Fin 48) (ctx : Fin 8) (w : Nat) (b : Bake), s.acts (pgRCE rce.val) = true ∧ s.executes rce.val ctx.val w b
      = true ∧ uOpc w = 4) ∧
    (∃ (s : State) (rce : Fin 48) (ctx : Fin 8) (w : Nat) (b : Bake), s.acts (pgRCE rce.val) = true ∧ s.executes rce.val ctx.val w b
      = true ∧ uOpc w = 5) ∧
    (∃ (s : State) (rce : Fin 48) (ctx : Fin 8) (w : Nat) (b : Bake), s.acts (pgRCE rce.val) = true ∧ s.executes rce.val ctx.val w b
      = true ∧ uOpc w = 6) ∧
    (∃ (s : State) (rce : Fin 48) (ctx : Fin 8) (w : Nat) (b : Bake), s.acts (pgRCE rce.val) = true ∧ s.executes rce.val ctx.val w b
      = true ∧ uOpc w = 7 ∧ (s.ctx rce.val ctx.val).stack.length < 4) ∧
    (∃ (s : State) (rce : Fin 48) (ctx : Fin 8) (w : Nat) (b : Bake) (p : Nat) (rest : List Nat), s.acts (pgRCE rce.val) = true ∧
      s.executes rce.val ctx.val w b = true ∧ uOpc w = 8 ∧ (s.ctx rce.val ctx.val).stack = p :: rest) ∧
    (∃ (s : State) (rce : Fin 48) (ctx : Fin 8) (w : Nat) (b : Bake), s.acts (pgRCE rce.val) = true ∧ s.executes rce.val ctx.val w b
      = true ∧ uOpc w = 9 ∧ (s.ctx rce.val ctx.val).group = none) ∧
    (∃ (s : State) (rce : Fin 48) (ctx : Fin 8) (w : Nat) (b : Bake), s.acts (pgRCE rce.val) = true ∧ s.executes rce.val ctx.val w b
      = true ∧ uOpc w = 10) ∧
    (∃ (s : State) (rce : Fin 48) (ctx : Fin 8) (w : Nat) (b : Bake), s.acts (pgRCE rce.val) = true ∧ s.executes rce.val ctx.val w b
      = true ∧ uOpc w = 11) ∧
    (∃ (s : State) (rce : Fin 48) (ctx : Fin 8) (w : Nat) (b : Bake), s.acts (pgRCE rce.val) = true ∧ s.executes rce.val ctx.val w b
      = true ∧ uOpc w = 12) ∧
    (∃ (s : State) (rce : Fin 48) (ctx : Fin 8), s.acts (pgRCE rce.val) = true ∧ (s.ctx rce.val ctx.val).state = 1 ∧ (s.ctx rce.val
      ctx.val).window = []) :=
  ⟨⟨(W.uop 67108864), 0, 0, 67108864, W.bake, by decide +kernel⟩,
   ⟨(W.uop 134233663), 0, 0, 134233663, W.bake, by decide +kernel⟩,
   ⟨(W.uop 218103813), 0, 0, 218103813, W.bake, by decide +kernel⟩,
   ⟨(W.uop 268435461), 0, 0, 268435461, W.bake, by decide +kernel⟩,
   ⟨(W.uop 353370117), 0, 0, 353370117, W.bake, by decide +kernel⟩,
   ⟨(W.uop 419430405), 0, 0, 419430405, W.bake, by decide +kernel⟩,
   ⟨(W.uop 469762053), 0, 0, 469762053, W.bake, by decide +kernel⟩,
   ⟨(W.uopRet 536870912), 0, 0, 536870912, W.bake, 9, [], by decide +kernel⟩,
   ⟨(W.uop 603979776), 0, 0, 603979776, W.bake, by decide +kernel⟩,
   ⟨(W.uop 721420295), 0, 0, 721420295, W.bake, by decide +kernel⟩,
   ⟨(W.uop 788529152), 0, 0, 788529152, W.bake, by decide +kernel⟩,
   ⟨(W.uop 805306368), 0, 0, 805306368, W.bake, by decide +kernel⟩,
   ⟨W.emptyWindow, 0, 0, by decide +kernel⟩⟩

/-- States and operands that meet the premises of MicroOpGroups. -/
theorem witness_MicroOpGroups :
    (∃ (s : State) (rce : Fin 48) (ctx : Fin 8) (w : Nat) (b : Bake), s.acts (pgRCE rce.val) = true ∧ s.executes rce.val ctx.val w b
      = true ∧ uOpc w = 13 ∧ bit w 25 = false ∧ s.inPlan b (s.ctx rce.val ctx.val).pc = true) ∧
    (∃ (s : State) (rce : Fin 48) (ctx : Fin 8) (w : Nat) (b : Bake), s.acts (pgRCE rce.val) = true ∧ s.executes rce.val ctx.val w b
      = true ∧ uOpc w = 14 ∧ s.inPlan b (s.ctx rce.val ctx.val).pc = true ∧ s.inPlan b (((s.ctx rce.val ctx.val).reg (uA w)) % 2 ^
      14) = true ∧ s.inPlan b (((s.ctx rce.val ctx.val).reg (uA w)) % 2 ^ 14 + bits w 6 6) = true ∧ ((s.ctx rce.val ctx.val).reg (uA
      w)) % 2 ^ 14 + bits w 6 6 < 0x3E00 ∧ bits w 0 6 + bits w 6 6 + 1 ≤ 64) ∧
    (∃ (s : State) (rce : Fin 48) (ctx : Fin 8) (w : Nat) (b : Bake), s.acts (pgRCE rce.val) = true ∧ s.executes rce.val ctx.val w b
      = true ∧ uOpc w = 32 ∧ (s.ctx rce.val ctx.val).group = none ∧ ((s.ctx rce.val ctx.val).reg (uA w)) < 2 ^ 14) ∧
    (∃ (s : State) (rce : Fin 48) (ctx : Fin 8) (w : Nat) (b : Bake) (g : Group), s.acts (pgRCE rce.val) = true ∧ s.executes rce.val
      ctx.val w b = true ∧ uOpc w = 33 ∧ (s.ctx rce.val ctx.val).group = some g ∧ b.mayUse (selXY (s.ctx rce.val ctx.val) w) = true) ∧
    (∃ (s : State) (rce : Fin 48) (ctx : Fin 8) (w : Nat) (b : Bake) (g : Group), s.acts (pgRCE rce.val) = true ∧ s.executes rce.val
      ctx.val w b = true ∧ uOpc w = 34 ∧ (s.ctx rce.val ctx.val).group = some g ∧ b.mayUse (selXY (s.ctx rce.val ctx.val) w) = true) ∧
    (∃ (s : State) (rce : Fin 48) (ctx : Fin 8) (w : Nat) (b : Bake) (g : Group), s.acts (pgRCE rce.val) = true ∧ s.executes rce.val
      ctx.val w b = true ∧ uOpc w = 35 ∧ (s.ctx rce.val ctx.val).group = some g ∧ b.mayUse [0x200 + bits w 6 3, 0x200 + bits w 3 3,
      0x200 + bits w 0 3] = true) ∧
    (∃ (s : State) (rce : Fin 48) (ctx : Fin 8) (w : Nat) (b : Bake) (g : Group), s.acts (pgRCE rce.val) = true ∧ s.executes rce.val
      ctx.val w b = true ∧ uOpc w = 36 ∧ (s.ctx rce.val ctx.val).group = some g ∧ s.gendReady rce.val ctx.val b g = true) ∧
    (∃ (s : State) (rce : Fin 48) (ctx : Fin 8) (b : Bake) (g : Group), s.acts (pgRCE rce.val) = true ∧ (s.ctx rce.val
      ctx.val).state = 2 ∧ (s.ctx rce.val ctx.val).stall = 1 ∧ (s.ctx rce.val ctx.val).group = some g ∧ s.bake (s.ctx rce.val
      ctx.val).bid = some b ∧ b.aborted = false ∧ s.gendReady rce.val ctx.val b g = true) ∧
    (∃ (s : State) (rce : Fin 48) (ctx : Fin 8) (w : Nat) (b : Bake) (j : LaneJob), s.acts (pgRCE rce.val) = true ∧ s.executes
      rce.val ctx.val w b = true ∧ uOpc w = 40 ∧ b.laneJob rce.val ctx.val (s.ctx rce.val ctx.val) w = some j ∧ s.laneBusy rce.val
      ctx.val b.id < 4) ∧
    (∃ (s : State) (rce : Fin 48) (ctx : Fin 8) (b : Bake) (j : LaneJob), s.acts (pgRCE rce.val) = true ∧ (s.ctx rce.val
      ctx.val).state = 2 ∧ (s.ctx rce.val ctx.val).stall = 2 ∧ s.bake (s.ctx rce.val ctx.val).bid = some b ∧ b.laneJob rce.val
      ctx.val (s.ctx rce.val ctx.val) ((s.ctx rce.val ctx.val).window.headD (0, false)).1 = some j ∧ s.laneBusy rce.val ctx.val b.id
      < 4) ∧
    (∃ (s : State) (rce : Fin 48) (ctx : Fin 8) (w : Nat) (b : Bake), s.acts (pgRCE rce.val) = true ∧ s.executes rce.val ctx.val w b
      = true ∧ uOpc w = 41 ∧ s.waitOver rce.val ctx.val 3 (s.ctx rce.val ctx.val).bid = true) ∧
    (∃ (s : State) (rce : Fin 48) (ctx : Fin 8) (w : Nat) (b : Bake), s.acts (pgRCE rce.val) = true ∧ s.executes rce.val ctx.val w b
      = true ∧ uOpc w = 42 ∧ s.waitOver rce.val ctx.val 4 (s.ctx rce.val ctx.val).bid = true) ∧
    (∃ (s : State) (rce : Fin 48) (ctx : Fin 8) (w : Nat) (b : Bake), s.acts (pgRCE rce.val) = true ∧ s.executes rce.val ctx.val w b
      = true ∧ uOpc w = 42 ∧ s.waitOver rce.val ctx.val 4 (s.ctx rce.val ctx.val).bid = false) ∧
    (∃ (s : State) (rce : Fin 48) (ctx : Fin 8) (b : Bake), s.acts (pgRCE rce.val) = true ∧ (s.ctx rce.val ctx.val).state = 2 ∧
      ((s.ctx rce.val ctx.val).stall = 3 ∨ (s.ctx rce.val ctx.val).stall = 4) ∧ s.bake (s.ctx rce.val ctx.val).bid = some b ∧
      s.waitOver rce.val ctx.val (s.ctx rce.val ctx.val).stall (s.ctx rce.val ctx.val).bid = true) :=
  ⟨⟨(W.uop 872415295), 0, 0, 872415295, W.bake, by decide +kernel⟩,
   ⟨(W.uop 998244604), 0, 0, 998244604, W.bake, by decide +kernel⟩,
   ⟨(W.uop 2189426688), 0, 0, 2189426688, W.bake, by decide +kernel⟩,
   ⟨(W.uopGrp 2214597638), 0, 0, 2214597638, W.bake, W.group, by decide +kernel⟩,
   ⟨(W.uopGrp 2281706502), 0, 0, 2281706502, W.bake, W.group, by decide +kernel⟩,
   ⟨(W.uopGrp 2348810250), 0, 0, 2348810250, W.bake, W.group, by decide +kernel⟩,
   ⟨(W.uopGrp 2415919104), 0, 0, 2415919104, W.bake, W.group, by decide +kernel⟩,
   ⟨W.stalledGend, 0, 0, W.bake, W.group, by decide +kernel⟩,
   ⟨(W.uopLane 2701131776), 0, 0, 2701131776, W.laneBake, W.laneJob, by decide +kernel⟩,
   ⟨(W.stalledLane 2701131776), 0, 0, W.laneBake, W.laneJob, by decide +kernel⟩,
   ⟨(W.uop 2751463424), 0, 0, 2751463424, W.bake, by decide +kernel⟩,
   ⟨(W.uop 2818572288), 0, 0, 2818572288, W.bake, by decide +kernel⟩,
   ⟨(W.uopBusy 2818572288), 0, 0, 2818572288, W.bake, by decide +kernel⟩,
   ⟨W.stalledWait, 0, 0, W.bake, by decide +kernel⟩⟩

/-- States and operands that meet the premises of PlansAndBakes. -/
theorem witness_PlansAndBakes :
    (∃ (s : State) (rid : Nat) (l : Load) (r : Req) (h : Image), s.acts pgHOME = true ∧ s.loads = [l] ∧ l.rid = rid ∧ s.req rid =
      some r ∧ l.left = 0 ∧ l.asked ≠ 0 ∧ r.place = .bakeWait ∧ r.wait = 0 ∧ s.loadEarlier rid = false ∧ h = imageHead (Tab.get
      l.lines 0 0).toNat ∧ h.fmtOk = true ∧ h.bytes ≤ s.imageRoom r ∧ h.sealed_ = false ∧ s.imageCheck r.tid h (l.bytes h.bytes)
      true l.bad = (0, 0xFFFF)) ∧
    (∃ (s : State) (rid : Nat) (l : Load) (r : Req), s.acts pgHOME = true ∧ s.loads = [l] ∧ l.rid = rid ∧ s.req rid = some r ∧
      l.left = 0 ∧ l.asked ≠ 0 ∧ r.place = .bakeWait ∧ r.wait = 0 ∧ s.loadEarlier rid = false ∧ (imageHead (Tab.get l.lines 0
      0).toNat).fmtOk = false) ∧
    (∃ (s : State) (plan : BitVec 6) (p : Plan) (rid : Nat), s.acts pgHOME = true ∧ s.plans.find? (fun p => p.num == plan.toNat) =
      some p ∧ p.closing = some rid ∧ s.bakes.any (fun b => b.plan == p.num) = false) ∧
    (∃ (s : State) (bid : Nat) (b : Bake) (r : Req), s.acts pgHOME = true ∧ s.bakes = [b] ∧ b.id = bid ∧ b.order = none ∧ b.aborted
      = false ∧ s.fences.length < 384 ∧ s.req bid = some r ∧ s.bakeMirrored b = false ∧ s.live r.aid = true ∧ (s.agent r.aid).inc %
      8 = r.incLo) ∧
    (∃ (s : State) (bid : Nat) (rce : Fin 48) (b : Bake) (k ci : Nat) (run : Nat × Nat), s.acts pgHOME = true ∧ s.bake bid = some b
      ∧ b.id = bid ∧ b.order.isSome = true ∧ b.aborted = false ∧ s.preparing bid = false ∧ (b.stage = 1 ∨ b.stage = 3) ∧ (b.stage =
      1 → s.scanRows b = []) ∧ Tab.get b.runs rce.val (0, true) = (k, true) ∧ (s.runs b)[k]? = some run ∧ s.startBlocked b rce.val =
      false ∧ s.ctxOf rce.val bid = none ∧ (List.range 8).find? (fun c => (s.ctx rce.val c).state == 0) = some ci) ∧
    (∃ (s : State) (bid : Nat) (b : Bake), s.acts pgHOME = true ∧ s.bake bid = some b ∧ b.id = bid ∧ b.stage = 4 ∧ b.hasRecord =
      true ∧ b.aborted = false ∧ b.replay = false ∧ s.bakeFenced b = false ∧ s.bakeLanes bid = false ∧ s.bakeEntries bid = false ∧
      s.req s.nextId = none) ∧
    (∃ (s : State) (bid : Nat) (b : Bake), s.acts pgHOME = true ∧ s.bake bid = some b ∧ b.id = bid ∧ b.replay = false ∧ s.bakeFenced
      b = false ∧ s.bakeOver b = true ∧ b.stage < 6 ∧ s.twBakeReady b = true ∧ s.req s.nextId = none) :=
  ⟨⟨W.image, 0, W.imageLoad, W.imageReq, W.imageHead, by decide +kernel⟩,
   ⟨W.imageBad, 0, W.imageBadLoad, W.imageReq, by decide +kernel⟩,
   ⟨W.unloading, 63, W.closingPlan, 0, by decide +kernel⟩,
   ⟨W.bakeWaits, 1, W.laneBake, W.bakeReq, by decide +kernel⟩,
   ⟨W.bakeReady, 1, 0, W.runBake, 0, 0, (8192, 1), by decide +kernel⟩,
   ⟨W.recordDue, 1, W.reduceBake 4, by decide +kernel⟩,
   ⟨W.statusDue, 1, W.reduceBake 5, by decide +kernel⟩⟩

/-- States and operands that meet the premises of KeyCommands. -/
theorem witness_KeyCommands :
    (∃ (s : State) (len : Nat) (core : Bool) (d x y : Nat), s.acts pgWARDEN = true ∧ s.warden.busy = some (0x40, len, core) ∧ s.tpk
      = some (d, x, y)) ∧
    (∃ (s : State) (len : Nat) (core : Bool), s.acts pgWARDEN = true ∧ s.warden.busy = some (0x41, len, core) ∧ s.opts.k = true) ∧
    (∃ (s : State) (len : Nat) (core : Bool) (n : Nat) (o : KeySlot), s.acts pgWARDEN = true ∧ s.warden.busy = some (0x42, len,
      core) ∧ s.opts.k = true ∧ (s.slotOf (leNat ((s.mbxIn len).take 1))).getD 0 = n ∧ s.slot n = o ∧ s.rot.isSome = true) ∧
    (∃ (s : State) (len : Nat) (core : Bool) (n : Nat), s.acts pgWARDEN = true ∧ s.warden.busy = some (0x43, len, core) ∧ s.opts.k =
      true ∧ leNat (s.mbxIn 1) ≠ 0 ∧ s.slotOf (leNat (s.mbxIn 1)) = some n ∧ s.rot = none) ∧
    (∃ (s : State) (len : Nat) (core : Bool) (slot : BitVec 8), s.acts pgCRYPT = true ∧ s.warden.busy = some (0x43, len, core) ∧
      slot ≠ 0 ∧ (s.slot slot.toNat).state = ksErasing ∧ s.slotBusy slot.toNat = false ∧ leNat (s.mbxIn 1) = (s.slot
      slot.toNat).tid) ∧
    (∃ (s : State) (len : Nat) (core : Bool) (port : Fin 16), s.acts pgWARDEN = true ∧ s.warden.busy = some (0x44, len, core) ∧
      leNat ((s.mbxIn len).take 1) = port.val ∧ leNat (((s.mbxIn len).drop 1).take 1) = 0 ∧ leNat (((s.mbxIn len).drop 2).take 1) =
      1 ∧ ((s.port port.val).txCrypt.active = false ∨ (s.port port.val).txCrypt.sel = false)) ∧
    (∃ (s : State) (r : Rot), s.acts pgCRYPT = true ∧ s.rot = some r ∧ r.issued = false ∧ s.mayRekey r.region = true ∧ s.reqs.any
      (fun x => x.id == s.nextId) = false) :=
  ⟨⟨W.tpk, 0, false, 1, p384Gx, p384Gy, by decide +kernel⟩,
   ⟨W.keyCmd 0x41, 172, false, by decide +kernel⟩,
   ⟨({ W.keyCmd 0x42 with slots := [(2, W.heldSlot)], rot := some W.rot }), 172, false, 2, W.heldSlot, by decide +kernel⟩,
   ⟨W.erases, 1, false, 2, by decide +kernel⟩,
   ⟨W.erasing, 1, false, 2#8, by decide +kernel⟩,
   ⟨W.linkCmd, 148, false, 15, by decide +kernel⟩,
   ⟨W.rotates, W.rot, by decide +kernel⟩⟩

/-- States and operands that meet the premises of TwinStream. -/
theorem witness_TwinStream :
    (∃ (s : State) (port : Fin 16) (m : Msg), s.acts (pgFPORT port.val) = true ∧ s.passes port.val m = true ∧ m.cls.toNat = clsSys ∧
      m.opc = 0x90 ∧ s.opts.w = true ∧ s.rd TWIN_PAIR_EN = 1 ∧ m.srcNid = s.rd TWIN_PARTNER_NID ∧ s.twin.turn = tuStandby ∧ m.f 45
      24 = (s.twin.applied + 1) % 2 ^ 24 ∧ s.twin.sinceAck < 7 ∧ m.f 107 2 ≠ twRekey ∧ s.twin.bakes = []) ∧
    (∃ (s : State) (port : Fin 16) (m : Msg), s.acts (pgFPORT port.val) = true ∧ s.passes port.val m = true ∧ m.cls.toNat = clsSys ∧
      m.opc = 0x91 ∧ s.opts.w = true ∧ s.rd TWIN_PAIR_EN = 1 ∧ m.srcNid = s.rd TWIN_PARTNER_NID ∧ s.twin.turn = tuStandby ∧ m.f 45
      24 = (s.twin.applied + 1) % 2 ^ 24 ∧ s.twin.sinceAck < 7 ∧ m.f 106 1 = 1) ∧
    (∃ (s : State) (port : Fin 16) (m : Msg) (u : Nat × Msg × Nat × Nat), s.acts (pgFPORT port.val) = true ∧ s.passes port.val m =
      true ∧ m.cls.toNat = clsSys ∧ m.opc = 0x92 ∧ s.opts.w = true ∧ s.rd TWIN_PAIR_EN = 1 ∧ m.srcNid = s.rd TWIN_PARTNER_NID ∧
      s.twin.turn = tuHolder ∧ s.twin.unacked = [u] ∧ s.twin.waiting = [] ∧ s.twin.gates = [] ∧ s.twin.writes = [] ∧ m.f 45 24 =
      u.1) ∧
    (∃ (s : State) (port : Fin 16) (m : Msg), s.acts (pgFPORT port.val) = true ∧ s.passes port.val m = true ∧ m.cls.toNat = clsSys ∧
      m.opc = 0x93 ∧ s.opts.w = true ∧ s.rd TWIN_PAIR_EN = 1 ∧ m.srcNid = s.rd TWIN_PARTNER_NID ∧ s.twin.turn = tuStandby ∧ m.f 45
      24 = (s.twin.applied + 1) % 2 ^ 24 ∧ s.twin.sinceAck < 7 ∧ s.twin.bakes = [] ∧ m.f 107 1 = 1) ∧
    (∃ (s : State) (port : Fin 16) (m : Msg) (x : TwBake), s.acts (pgFPORT port.val) = true ∧ s.passes port.val m = true ∧
      m.cls.toNat = clsSys ∧ m.opc = 0x94 ∧ s.opts.w = true ∧ s.rd TWIN_PAIR_EN = 1 ∧ m.srcNid = s.rd TWIN_PARTNER_NID ∧ s.twin.turn
      = tuStandby ∧ m.f 45 24 = (s.twin.applied + 1) % 2 ^ 24 ∧ s.twin.sinceAck < 7 ∧ s.twin.bakes = [x] ∧ x.holder = false ∧ x.bid
      = none ∧ x.tid = m.f 69 8 ∧ x.btag = m.f 77 16) ∧
    (∃ (s : State) (port : Fin 16) (m : Msg) (x : TwBake), s.acts (pgFPORT port.val) = true ∧ s.passes port.val m = true ∧
      m.cls.toNat = clsSys ∧ m.opc = 0x95 ∧ s.opts.w = true ∧ s.rd TWIN_PAIR_EN = 1 ∧ m.srcNid = s.rd TWIN_PARTNER_NID ∧ s.twin.turn
      = tuHolder ∧ s.twin.bakes = [x] ∧ x.holder = true ∧ x.answer = none ∧ x.tid = m.f 69 8 ∧ x.btag = m.f 77 16 ∧ m.f 93 1 = 0) ∧
    (∃ (s : State) (port : Fin 16) (m : Msg), s.acts (pgFPORT port.val) = true ∧ s.passes port.val m = true ∧ m.cls.toNat = clsSys ∧
      m.opc = 0x9A ∧ s.opts.w = true ∧ s.rd TWIN_PAIR_EN = 1 ∧ m.srcNid = s.rd TWIN_PARTNER_NID ∧ s.twin.turn = tuStandby ∧ m.f 45
      24 = (s.twin.applied + 1) % 2 ^ 24 ∧ s.twin.sinceAck < 7 ∧ s.twin.synced = true) ∧
    (∃ (s : State) (port : Fin 16) (m : Msg), s.acts (pgFPORT port.val) = true ∧ s.passes port.val m = true ∧ m.cls.toNat = clsSys ∧
      m.opc = 0x9C ∧ s.opts.w = true ∧ s.rd TWIN_PAIR_EN = 1 ∧ m.srcNid = s.rd TWIN_PARTNER_NID ∧ s.twin.turn = tuJoining ∧ m.f 45
      24 = (s.twin.applied + 1) % 2 ^ 24 ∧ s.twin.sinceAck < 7) ∧
    (∃ (s : State), s.acts pgTWIN = true ∧ s.twin.turn = tuStandby ∧ s.twin.accepting = [] ∧ s.twin.applied ≠ s.twin.ackSent) :=
  ⟨⟨W.standby, 0, W.tw 0x90 4, by decide +kernel⟩,
   ⟨W.standby, 0, W.twPend, by decide +kernel⟩,
   ⟨W.holderUnacked, 0, W.tw 0x92 0, (1, W.tw 0x90 4, 0, 0), by decide +kernel⟩,
   ⟨W.standby, 0, W.twBakeMsg, by decide +kernel⟩,
   ⟨W.shares, 0, W.tw 0x94 0, W.twRec false, by decide +kernel⟩,
   ⟨W.sharesHolder, 0, W.tw 0x95 0, W.twRec true, by decide +kernel⟩,
   ⟨W.standbySynced, 0, W.tw 0x9A 0, by decide +kernel⟩,
   ⟨W.joining, 0, W.tw 0x9C 0, by decide +kernel⟩,
   ⟨W.withTwin (fun t => { t with applied := 5 }) tuStandby, by decide +kernel⟩⟩

/-- States and operands that meet the premises of Turn. -/
theorem witness_Turn :
    (∃ (s : State) (port : Fin 16) (m : Msg), s.acts (pgFPORT port.val) = true ∧ s.passes port.val m = true ∧ m.cls.toNat = clsSys ∧
      m.opc = 0x98 ∧ s.opts.w = true ∧ s.rd TWIN_PAIR_EN = 1 ∧ m.srcNid = s.rd TWIN_PARTNER_NID ∧ s.twin.turn = tuStandby ∧ m.f 61 1
      = 0) ∧
    (∃ (s : State) (port : Fin 16) (m : Msg), s.acts (pgFPORT port.val) = true ∧ s.passes port.val m = true ∧ m.cls.toNat = clsSys ∧
      m.opc = 0x98 ∧ s.opts.w = true ∧ s.rd TWIN_PAIR_EN = 1 ∧ m.srcNid = s.rd TWIN_PARTNER_NID ∧ s.twin.turn = tuHolder ∧ s.reqs =
      [] ∧ s.bakes = [] ∧ s.twin.gates = []) ∧
    (∃ (s : State) (port : Fin 16) (m : Msg) (x : Nat × Nat), s.acts (pgFPORT port.val) = true ∧ s.passes port.val m = true ∧
      m.cls.toNat = clsSys ∧ m.opc = 0x99 ∧ s.opts.w = true ∧ s.rd TWIN_PAIR_EN = 1 ∧ m.srcNid = s.rd TWIN_PARTNER_NID ∧ s.twin.turn
      = tuHolder ∧ s.twin.leased = false ∧ s.twin.renewals.find? (fun r => r.1 == m.f 45 16) = some x) ∧
    (∃ (s : State) (port : Fin 16) (m : Msg), s.acts (pgFPORT port.val) = true ∧ s.passes port.val m = true ∧ m.cls.toNat = clsSys ∧
      m.opc = 0x9B ∧ s.opts.w = true ∧ s.rd TWIN_PAIR_EN = 1 ∧ m.srcNid = s.rd TWIN_PARTNER_NID ∧ s.twin.turn = tuHolder ∧ s.openTx
      = []) ∧
    (∃ (s : State) (port : Fin 16) (m : Msg), s.acts (pgFPORT port.val) = true ∧ s.passes port.val m = true ∧ m.cls.toNat = clsSys ∧
      m.opc = 0x9B ∧ s.opts.w = true ∧ s.rd TWIN_PAIR_EN = 1 ∧ m.srcNid = s.rd TWIN_PARTNER_NID ∧ s.twin.turn ≠ tuHolder) ∧
    (∃ (s : State), s.acts pgTWIN = true ∧ s.twin.turn = tuHolder) ∧
    (∃ (s : State), s.acts pgTWIN = true ∧ s.twin.turn = tuHolder ∧ s.twin.leased = true ∧ s.twin.ackedSent + s.rd TWIN_FENCE_T ≤
      s.ao ∧ s.reqs = [] ∧ s.bakes = [] ∧ s.twin.gates = []) ∧
    (∃ (s : State) (n : Nat), s.acts pgTWIN = true ∧ s.twin.turn = tuStandby ∧ s.twin.synced = true ∧ s.twin.heard = some n ∧ n +
      s.rd TWIN_LEASE_T + s.rd TWIN_GUARD_T ≤ s.ao ∧ s.twin.pendRecs = [] ∧ s.twin.bakes = []) ∧
    (∃ (s : State) (ptr n la : Nat), s.acts pgTWIN = true ∧ s.twin.turn = tuHolder ∧ s.twin.resync = some ptr ∧ s.reqs = [] ∧
      s.nextMirror ptr = some (n, la)) ∧
    (∃ (s : State) (p : Nat), s.acts pgTWIN = true ∧ s.twPort = some p ∧ (s.port p).isUp = true ∧ s.shape.closing = false ∧
      s.twin.turn = tuFenced ∧ s.rd TWIN_AUTO_JOIN = 1) ∧
    (∃ (s : State) (p : Nat), s.acts pgTWIN = true ∧ s.twPort = some p ∧ (s.port p).isUp = true ∧ s.shape.closing = false ∧
      (s.twin.turn = tuFenced ∨ s.twin.turn = tuIdle)) ∧
    (∃ (s : State), s.acts pgTWIN = true ∧ s.shape.closing = false ∧ (s.twin.turn = tuFenced ∨ s.twin.turn = tuIdle)) ∧
    (∃ (s : State), s.acts pgTWIN = true ∧ s.twin.turn = tuHolder ∧ s.twin.leased = true ∧ s.twin.gates = [] ∧ s.twin.writes = []) ∧
    (∃ (s : State), s.acts pgTWIN = true ∧ s.twin.turn = tuStandby ∧ s.twin.bakes = []) :=
  ⟨⟨W.standby, 0, W.tw 0x98 0, by decide +kernel⟩,
   ⟨W.holder, 0, W.tw 0x98 0, by decide +kernel⟩,
   ⟨W.renewed, 0, W.tw 0x99 0, (1, 7), by decide +kernel⟩,
   ⟨W.holder, 0, W.tw 0x9B 0, by decide +kernel⟩,
   ⟨W.standby, 0, W.tw 0x9B 0, by decide +kernel⟩,
   ⟨W.holder, by decide +kernel⟩,
   ⟨({ W.leased with ao := 0xFFFFFFFF } : State), by decide +kernel⟩,
   ⟨({ W.standbySynced with ao := 0xFFFFFFFF } : State), 3, by decide +kernel⟩,
   ⟨W.resyncing, 0, 5, 0x6000000, by decide +kernel⟩,
   ⟨(W.turn tuFenced).wr TWIN_AUTO_JOIN 1, 0, by decide +kernel⟩,
   ⟨(W.turn tuIdle), 0, by decide +kernel⟩,
   ⟨(W.turn tuFenced), by decide +kernel⟩,
   ⟨W.leased, by decide +kernel⟩,
   ⟨W.standby, by decide +kernel⟩⟩

/-- States and operands that meet the premises of MeterLink. -/
theorem witness_MeterLink :
    (∃ (s : State), s.acts pgMETER = true) ∧
    (∃ (s : State), s.acts pgMETER = true ∧ s.meter.sync = true) ∧
    (∃ (s : State), s.acts pgMETER = true ∧ s.meter.sync = true) ∧
    (∃ (s : State), s.acts pgMETER = true ∧ s.meter.sync = true ∧ s.meter.unacked ≠ []) ∧
    (∃ (s : State), s.acts pgMETER = true ∧ s.meter.sync = true ∧ s.meter.ackDue = true) ∧
    (∃ (s : State), s.acts pgMETER = true ∧ s.meter.sync = true ∧ s.meterEnds = false ∧ s.verified = false ∧ s.meter.after = []) ∧
    (∃ (s : State), s.acts pgMETER = true ∧ s.meter.sync = true ∧ s.meterEnds = false ∧ s.verified = true ∧ s.meter.ident = true) ∧
    (∃ (s : State), s.acts pgMETER = true ∧ s.meterEnds = false ∧ s.verified = false ∧ s.meter.after = []) ∧
    (∃ (s : State) (val : Word), s.acts pgMETER = true ∧ (bits val.toNat 0 6 + 64 - s.meter.tail) % 64 ≤ s.meter.proofs.length) ∧
    (∃ (s : State) (val : Word), s.acts pgMETER = true ∧ s.meter.proofs.length < (bits val.toNat 0 6 + 64 - s.meter.tail) % 64) ∧
    (∃ (s : State) (present : Bool), present ≠ s.meter.present) ∧
    (∃ (s : State) (tid : BitVec 8) (job : BitVec 20) (j : JobRec), s.acts pgMETER = true ∧ s.jobRec tid.toNat job.toNat = some j ∧
      j.tid = tid.toNat ∧ j.job = job.toNat ∧ j.state = 1 ∧ j.waits = [] ∧ j.closer = none ∧ s.verified = false) ∧
    (∃ (s : State) (tid : BitVec 8) (job : BitVec 20) (j : JobRec), s.acts pgMETER = true ∧ s.jobRec tid.toNat job.toNat = some j ∧
      j.tid = tid.toNat ∧ j.job = job.toNat ∧ j.state = 1 ∧ j.waits = [] ∧ j.closer = none ∧ s.verified = true ∧ Tab.get? s.tally
      (jobKey tid.toNat job.toNat) = none ∧ s.meter.backlog = [] ∧ s.meter.waiting = [] ∧ s.meter.quitting = false ∧ s.meterReady
      fyJobClose = true) :=
  ⟨⟨W.metered, by decide +kernel⟩,
   ⟨W.metered, by decide +kernel⟩,
   ⟨W.metered, by decide +kernel⟩,
   ⟨W.meterUnacked, by decide +kernel⟩,
   ⟨W.meterDue, by decide +kernel⟩,
   ⟨W.metered, by decide +kernel⟩,
   ⟨(W.metered.wr METER_MSTATE 3), by decide +kernel⟩,
   ⟨W.metered, by decide +kernel⟩,
   ⟨W.proofs, 2, by decide +kernel⟩,
   ⟨W.proofs, 3, by decide +kernel⟩,
   ⟨W.base, true, by decide +kernel⟩,
   ⟨W.closes, 3, 4, W.closingJob, by decide +kernel⟩,
   ⟨({ W.closes with meter := { W.meter with present := true } } : State).wr METER_MSTATE 3, 3, 4, W.closingJob, by decide +kernel⟩⟩

/-- States and operands that meet the premises of MeterFrames. -/
theorem witness_MeterFrames :
    (∃ (s : State) (h : FrameHdr) (u : Nat × Nat × List Nat), s.acts pgMETER = true ∧ s.meter.sync = true ∧ h.good = true ∧ h.nak =
      false ∧ s.meter.unacked = [u] ∧ h.ack.toNat = u.1 ∧ s.meter.waiting = [] ∧ s.meter.backlog = [] ∧ s.meter.quitting = false) ∧
    (∃ (s : State) (h : FrameHdr) (_b : IdentBody), s.acts pgMETER = true ∧ s.meter.sync = true ∧ h.good = true ∧ h.nak = false ∧
      s.meter.unacked = [] ∧ s.meter.waiting = [] ∧ s.meter.backlog = [] ∧ s.meter.quitting = false ∧ h.seq.toNat = (s.meter.rxSeq +
      1) % 65536 ∧ s.jobs = []) ∧
    (∃ (s : State) (h : FrameHdr) (_b : StatusBody), s.acts pgMETER = true ∧ s.meter.sync = true ∧ h.good = true ∧ h.nak = false ∧
      s.meter.unacked = [] ∧ s.meter.waiting = [] ∧ s.meter.backlog = [] ∧ s.meter.quitting = false ∧ h.seq.toNat = (s.meter.rxSeq +
      1) % 65536 ∧ s.meter.ident = true) ∧
    (∃ (s : State) (h : FrameHdr) (_pseq : BitVec 64) (_p : Bytes), s.acts pgMETER = true ∧ s.meter.sync = true ∧ h.good = true ∧
      h.nak = false ∧ s.meter.unacked = [] ∧ s.meter.waiting = [] ∧ s.meter.backlog = [] ∧ s.meter.quitting = false ∧ h.seq.toNat =
      (s.meter.rxSeq + 1) % 65536 ∧ s.meter.ident = true ∧ s.meter.proofs.length < 64) ∧
    (∃ (s : State) (h : FrameHdr) (_code _chan : Byte) (_interval : Word), s.acts pgMETER = true ∧ s.meter.sync = true ∧ h.good =
      true ∧ h.nak = false ∧ s.meter.unacked = [] ∧ s.meter.waiting = [] ∧ s.meter.backlog = [] ∧ s.meter.quitting = false ∧
      h.seq.toNat = (s.meter.rxSeq + 1) % 65536 ∧ s.meter.ident = true) :=
  ⟨⟨W.meterUnacked, W.hdr 0 3, (3, fyNull, []), by decide +kernel⟩,
   ⟨W.metered, W.hdr 1 0, W.identB, by decide +kernel⟩,
   ⟨W.metered, W.hdr 1 0, W.statusB, by decide +kernel⟩,
   ⟨W.metered, W.hdr 1 0, 5, [], by decide +kernel⟩,
   ⟨W.metered, W.hdr 1 0, 8, 0xFF, 7, by decide +kernel⟩⟩

/-- States and operands that meet the premises of ZmThree. -/
theorem witness_ZmThree :
    (∃ (_s : State) (nid : BitVec 16) (_serial : BitVec 64), nid.toNat < 512) ∧
    (∃ (s : State) (tid : BitVec 8) (job : BitVec 20) (_interval : Word), job ≠ 0 ∧ s.zm3.jobs.any (fun x => x.tid == tid.toNat &&
      x.job == job.toNat) = false) ∧
    (∃ (s : State) (_interval : Word) (_recs : List TallyRec) (_energies : List (BitVec 64)) (_causes : BitVec 5), s.zm3.named =
      none) ∧
    (∃ (s : State) (tid : BitVec 8) (job : BitVec 20) (_interval : Word) (_flags : BitVec 3) (_unmet : List (BitVec 64)) (j : ZJob),
      s.zm3.jobs.find? (fun x => x.tid == tid.toNat && x.job == job.toNat) = some j ∧ j.tid = tid.toNat ∧ j.job = job.toNat) ∧
    (∃ (s : State) (seq : BitVec 64), seq.toNat ≤ s.zm3.pseq) :=
  ⟨⟨W.proofs, 9, 0x123456789, by decide +kernel⟩,
   ⟨W.base, 255, 0xFFFFF, 3, by decide +kernel⟩,
   ⟨W.zjob, 3, [⟨3, 4, []⟩], [], 1, by decide +kernel⟩,
   ⟨W.zjob, 3, 4, 9, 0, [], W.zjobRec, by decide +kernel⟩,
   ⟨({ W.base with zm3 := { Zm3.fresh with journal := [(1, [], false), (2, [], false)], pseq := 2 } } : State), 1, by decide +kernel⟩⟩

/-- States and operands that meet the premises of EnergyIsConserved. -/
theorem witness_EnergyIsConserved :
    ∃ (s : State) (_interval : Word) (_recs : List TallyRec) (_energies : List (BitVec 64)) (_causes : BitVec 5), s.zm3.named = none
      ∧ (∀ j ∈ s.zm3.jobs, j.acc.length = 6) ∧ Tab.sorted s.zm3.totals = true :=
  ⟨W.zjob, 3, [⟨3, 4, [1, 2]⟩], [5], 1, by decide +kernel⟩

/-- States and operands that meet the premises of Clocks. -/
theorem witness_Clocks :
    (∃ (s : State) (p : Nat), s.acts pgCLK = true ∧ (s.opts.w = false ∨ (s.twin.turn ≠ tuHolder ∧ s.twin.turn ≠ tuHanding)) ∧ s.rd
      CLK_ON_BACKUP = 0 ∧ p < 0x83 ∧ s.present p = true ∧ (inDomain false p || inDomain true p) = true) ∧
    (∃ (s : State) (mc : Bool), s.acts pgCLK = true ∧ s.mayPark mc = true) ∧
    (∃ (s : State) (mc : Bool), s.acts pgCLK = true ∧ s.rd (pllField mc) = pllStarting) ∧
    (∃ (s : State) (mc : Bool), s.acts pgCLK = true ∧ s.rd (pllField mc) = pllStarting) ∧
    (∃ (s : State) (mc : Bool), s.acts pgCLK = true ∧ s.rd (pllField mc) = pllCold ∧ allPages.any (fun p => s.present p && inDomain
      mc p && s.rd H_COND p == 2) = false) ∧
    (∃ (s : State) (mc : Bool) (p : Nat), s.acts pgCLK = true ∧ (s.opts.w = false ∨ (s.twin.turn ≠ tuHolder ∧ s.twin.turn ≠
      tuHanding)) ∧ s.rd (pllField mc) = pllRunning ∧ p < 0x83 ∧ s.present p = true ∧ inDomain mc p = true) :=
  ⟨⟨W.base, 0x20, by decide +kernel⟩,
   ⟨W.parks, true, by decide +kernel⟩,
   ⟨(W.base.wr CLK_FC_STATE pllStarting), false, by decide +kernel⟩,
   ⟨(W.base.wr CLK_MC_STATE pllStarting), true, by decide +kernel⟩,
   ⟨(W.base.wr CLK_MC_STATE pllCold), true, by decide +kernel⟩,
   ⟨(W.base.wr CLK_FC_STATE pllRunning), false, 9, by decide +kernel⟩⟩

/-- States and operands that meet the premises of PowerStates. -/
theorem witness_PowerStates :
    (∃ (s : State) (page : BitVec 12), s.acts pgPWR = true ∧ s.mayEnter page.toNat 1 PWR_NAP_AFTER (cyclesPerTick page.toNat) =
      true) ∧
    (∃ (s : State) (page : BitVec 12), s.acts pgPWR = true ∧ s.mayEnter page.toNat 2 PWR_DOZE_AFTER = true) ∧
    (∃ (s : State) (page : BitVec 12), s.acts pgPWR = true ∧ s.mayEnter page.toNat 3 PWR_OFF_AFTER = true) ∧
    (∃ (s : State) (page : BitVec 12) (ticks : Nat), s.acts pgPWR = true ∧ s.waking.contains page.toNat = true ∧ ticks ≤ s.wakeBound
      page.toNat + 16 ∧ page.toNat < 0x83) ∧
    (∃ (s : State) (page : BitVec 12) (ticks : Nat), s.acts pgPWR = true ∧ s.waking.contains page.toNat = true ∧ s.wakeBound
      page.toNat + 16 < ticks ∧ page.toNat < 0x83) ∧
    (∃ (s : State) (l : List (BitVec 16 × Bool)), s.acts pgPWR = true ∧ l.length = 16) ∧
    (∃ (s : State), s.acts pgPWR = true) ∧
    (∃ (s : State), s.tmc.nodeRails = true) :=
  ⟨⟨W.naps, 0x10#12, by decide +kernel⟩,
   ⟨({ W.naps with ao := 1099511627776 } : State), 0x10#12, by decide +kernel⟩,
   ⟨({ W.naps with ao := 1099511627776 } : State), 0xB#12, by decide +kernel⟩,
   ⟨({ (W.base.wr H_PWR_NOW 2 0x20) with waking := [0x20] } : State), 0x20#12, 20, by decide +kernel⟩,
   ⟨({ (W.base.wr H_PWR_NOW 2 0x20) with waking := [0x20] } : State), 0x20#12, 21, by decide +kernel⟩,
   ⟨W.base, List.replicate 16 (400, true), by decide +kernel⟩,
   ⟨W.base, by decide +kernel⟩,
   ⟨W.base, by decide +kernel⟩⟩

/-- States and operands that meet the premises of TraySafety. -/
theorem witness_TraySafety :
    (∃ (s : State), s.tmc.standby = true ∧ s.tmc.input = true ∧ s.tmc.hsEn = true ∧ s.tmc.latched = false) ∧
    (∃ (s : State), s.acts pgTMCB = true ∧ s.tmc.standby = true ∧ s.tmc.input = true ∧ s.tmc.hsEn = true ∧ s.tmc.latched = false) ∧
    (∃ (s : State), s.acts pgTMCB = true ∧ s.tmc.standby = true ∧ s.tmc.input = true ∧ s.tmc.hsEn = true ∧ s.tmc.latched = false) ∧
    (∃ (s : State), s.acts pgTMCB = true ∧ s.tmc.standby = true ∧ s.tmc.input = true ∧ s.tmc.hsEn = true ∧ s.tmc.latched = false) ∧
    (∃ (s : State), s.mayRetry = true) ∧
    (∃ (s : State), s.acts pgTMCB = true ∧ s.tmc.standby = true ∧ s.tmc.shut = none ∧ s.tmc.uv = none) ∧
    (∃ (s : State) (n : Nat), s.acts pgTMCB = true ∧ s.tmc.uv = some n ∧ s.tmc.latched = false ∧ s.tmc.hsEn = true ∧ s.tmc.shut =
      none ∧ s.tmc.now < n + 3125) ∧
    (∃ (s : State) (_sensor : Fin 4), s.tmc.standby = true) ∧
    (∃ (s : State) (_sensor : Fin 4), s.tmc.standby = true) ∧
    (∃ (s : State), s.tmc.standby = true) ∧
    (∃ (_s : State), True) :=
  ⟨⟨W.base, by decide +kernel⟩,
   ⟨W.base, by decide +kernel⟩,
   ⟨W.base, by decide +kernel⟩,
   ⟨W.base, by decide +kernel⟩,
   ⟨W.retries, by decide +kernel⟩,
   ⟨W.base, by decide +kernel⟩,
   ⟨W.tm { Tmc.fresh with uv := some 7, now := 3131, powerGood := false, input := false }, 7, by decide +kernel⟩,
   ⟨W.base, 3, by decide +kernel⟩,
   ⟨W.base, 0, by decide +kernel⟩,
   ⟨W.base, by decide +kernel⟩,
   ⟨W.base, by decide +kernel⟩⟩

/-- States and operands that meet the premises of OrderlyShutdown. -/
theorem witness_OrderlyShutdown :
    (∃ (s : State) (cause : BitVec 3), s.acts pgTMCB = true ∧ s.tmc.live = true ∧ s.tmc.shut = none ∧ s.shutCause cause.toNat = true
      ∧ s.shape.open_ = false ∧ s.rd H_COND pgSHAPE ≠ 2 ∧ s.reqs = [] ∧ s.bakes = [] ∧ s.twin.turn = tuUnpaired) ∧
    (∃ (s : State), s.acts pgTMCB = true ∧ s.tmc.live = true ∧ s.tmc.shut = none ∧ s.shape.open_ = false ∧ s.rd H_COND pgSHAPE ≠ 2 ∧
      s.reqs = [] ∧ s.bakes = [] ∧ s.twin.turn = tuUnpaired) ∧
    (∃ (s : State), s.tmc.shut.isSome = true ∧ s.acts pgSHAPE = true ∧ s.twin.turn ≠ tuHolder ∧ s.twin.turn ≠ tuHanding) ∧
    (∃ (s : State) (sh : Shut), s.tmc.shut = some sh ∧ sh.rails = false ∧ s.meter.ended = true ∧ s.tmc.nodeRails = true) ∧
    (∃ (s : State) (sh : Shut), s.tmc.shut = some sh ∧ sh.rails = true ∧ sh.ended = false) ∧
    (∃ (s : State) (sh : Shut), s.tmc.nodeRails = true ∧ s.tmc.shut = some sh) ∧
    (∃ (s : State) (n : Nat) (v : Sensors) (sh : Shut), s.tmc.live = true ∧ s.tmc.offAt = some n ∧ n + 156250 ≤ s.tmc.now ∧
      s.tmc.readings = some v ∧ s.rd TMCB_RECHARGE_V ≤ v.bankV.toNat ∧ s.tmc.input = true ∧ s.tmc.latched = false ∧ s.tmc.shut =
      some sh ∧ sh.cause = 1 ∧ sh.ended = true) :=
  ⟨⟨W.tm { Tmc.fresh with pumpsBad := [true, true] }, 5, by decide +kernel⟩,
   ⟨W.base, by decide +kernel⟩,
   ⟨W.tm { Tmc.fresh with shut := some (W.shut false) }, by decide +kernel⟩,
   ⟨W.ending, W.shut false, by decide +kernel⟩,
   ⟨W.tm { Tmc.fresh with shut := some (W.shut true) }, W.shut true, by decide +kernel⟩,
   ⟨W.tm { Tmc.fresh with shut := some (W.shut false) }, W.shut false, by decide +kernel⟩,
   ⟨W.rested, 0, W.sens, W.shutEnded, by decide +kernel⟩⟩

/-- States and operands that meet the premises of TrayControl. -/
theorem witness_TrayControl :
    (∃ (s : State) (_v : Sensors), s.acts pgTMCB = true ∧ s.tmc.live = true) ∧
    (∃ (s : State), s.acts pgTMCB = true ∧ s.rd TMCB_TMC_ALIVE = 1) ∧
    (∃ (s : State) (_demand : BitVec 7), s.tmc.live = true ∧ s.tmc.leakLatch = false ∧ s.tmc.hot = false ∧ s.tmc.above = false ∧
      s.tmc.pumpsBad = [false, false]) ∧
    (∃ (s : State) (_demand : BitVec 7), s.tmc.live = true ∧ s.tmc.leakLatch = false ∧ s.tmc.hot = true ∧ s.tmc.pumpsBad = [false,
      false]) ∧
    (∃ (s : State) (_pumpB : Bool), s.acts pgTMCB = true ∧ s.tmc.live = true ∧ s.tmc.leakLatch = false ∧ s.tmc.pumpsBad = [false,
      false]) ∧
    (∃ (s : State), s.acts pgTMCB = true ∧ s.tmc.standby = true ∧ s.tmc.running = false ∧ s.tmc.uv = none) ∧
    (∃ (s : State) (_version : BitVec 16), s.tmc.live = true) ∧
    (∃ (_s : State), True) ∧
    (∃ (s : State) (pin : Fin 34) (fn : Fin 2), s.tmc.live = true ∧ Tab.get s.tmc.pins pin.val 0 ≠ fn.val) ∧
    (∃ (s : State) (_straps : BitVec 9), s.acts pgTMCB = true) ∧
    (∃ (s : State) (input : Fin 19) (present : Bool), s.acts pgTMCB = true ∧ s.tmc.live = true ∧ input.val ≠ 16 ∧ bit
      s.tmc.present.toNat input.val ≠ present) ∧
    (∃ (s : State) (input : Fin 19) (present : Bool), s.acts pgTMCB = true ∧ s.tmc.live = true ∧ input.val = 16 ∧ bit
      s.tmc.present.toNat 16 ≠ present ∧ s.meter.present ≠ present) ∧
    (∃ (s : State) (_c : BitVec 16), s.acts pgTMCB = true ∧ s.tmc.live = true) ∧
    (∃ (s : State) (pumps : BitVec 2), s.onAllowed pumps = true ∧ s.tmc.nodeRails = false) ∧
    (∃ (s : State), s.tmc.live = true) ∧
    (∃ (s : State), s.tmc.live = true ∧ s.tmc.leakLatch = false ∧ s.tmc.trip = none ∧ s.tmc.latched = false) ∧
    (∃ (s : State) (_copy : BitVec 2), s.tmc.live = true) :=
  ⟨⟨W.base, W.sens, by decide +kernel⟩,
   ⟨(W.base.wr TMCB_TMC_ALIVE 1), by decide +kernel⟩,
   ⟨W.base, 127, by decide +kernel⟩,
   ⟨W.tm { Tmc.fresh with tj := 380 }, 0, by decide +kernel⟩,
   ⟨W.base, true, by decide +kernel⟩,
   ⟨W.tm { Tmc.fresh with running := false, wdt := 2 }, by decide +kernel⟩,
   ⟨W.base, 3, by decide +kernel⟩,
   ⟨W.base, by decide +kernel⟩,
   ⟨W.base, 33, 1, by decide +kernel⟩,
   ⟨W.base, 0x1FF#9, by decide +kernel⟩,
   ⟨W.base, 17, true, by decide +kernel⟩,
   ⟨({ W.base with meter := { Meter.fresh with present := false } } : State), 16, true, by decide +kernel⟩,
   ⟨W.base, 799, by decide +kernel⟩,
   ⟨W.tm { Tmc.fresh with nodeRails := false, latched := true }, 3, by decide +kernel⟩,
   ⟨W.base, by decide +kernel⟩,
   ⟨W.base, by decide +kernel⟩,
   ⟨W.base, 2, by decide +kernel⟩⟩

/-- States and operands that meet the premises of Mailbox. -/
theorem witness_Mailbox :
    (∃ (s : State) (_aid : BitVec 12), s.acts pgWARDEN = true ∧ s.warden.owner = none) ∧
    (∃ (s : State) (aid : BitVec 12), s.acts pgWARDEN = true ∧ s.warden.owner = some aid.toNat) ∧
    (∃ (s : State) (aid : BitVec 12), s.acts pgWARDEN = true ∧ s.warden.owner ≠ some aid.toNat) ∧
    (∃ (s : State) (len : Nat) (core : Bool), s.acts pgWARDEN = true ∧ s.warden.busy = some (0x01, len, core)) ∧
    (∃ (s : State) (len : Nat) (core : Bool), s.acts pgWARDEN = true ∧ s.warden.busy = some (0x02, len, core)) ∧
    (∃ (s : State) (len : Nat) (core : Bool), s.acts pgWARDEN = true ∧ s.warden.busy = some (0x03, len, core)) ∧
    (∃ (s : State) (len : Nat) (core : Bool), s.acts pgWARDEN = true ∧ s.warden.busy = some (0x10, len, core) ∧ s.mayOpen = true) ∧
    (∃ (s : State) (len : Nat) (core : Bool), s.acts pgWARDEN = true ∧ s.warden.busy = some (0x10, len, core) ∧ s.mayOpen = false) ∧
    (∃ (s : State) (len : Nat) (core : Bool), s.acts pgWARDEN = true ∧ s.warden.busy = some (0x11, len, core) ∧ s.warden.prep = none
      ∧ s.tmc.shut = none ∧ s.reqs = [] ∧ s.bakes = [] ∧ s.twin.turn = tuUnpaired) ∧
    (∃ (s : State) (len : Nat) (core : Bool), s.acts pgWARDEN = true ∧ s.warden.busy = some (0x12, len, core) ∧ s.mayReset (leNat
      (s.mbxIn 2)) = true ∧ s.present (leNat (s.mbxIn 2)) = true) ∧
    (∃ (s : State) (len : Nat) (core : Bool), s.acts pgWARDEN = true ∧ s.warden.busy = some (0x12, len, core) ∧ s.mayReset (leNat
      (s.mbxIn 2)) = false ∧ (0x50 ≤ leNat (s.mbxIn 2) → leNat (s.mbxIn 2) < 0x80 → s.present (leNat (s.mbxIn 2)) = true)) ∧
    (∃ (s : State) (len : Nat) (core : Bool), s.acts pgWARDEN = true ∧ s.warden.busy = some (0x12, len, core) ∧ 0x50 ≤ leNat
      (s.mbxIn 2) ∧ leNat (s.mbxIn 2) < 0x80 ∧ s.opts.c = false) ∧
    (∃ (s : State) (len : Nat) (core : Bool), s.acts pgWARDEN = true ∧ s.warden.busy = some (0x13, len, core) ∧ s.tmc.live = true) ∧
    (∃ (s : State) (len : Nat) (core : Bool) (b : Bytes), s.acts pgWARDEN = true ∧ s.warden.busy = some (0x14, len, core) ∧
      s.tmc.live = true ∧ s.tmc.profile = some b ∧ b.length = 256) ∧
    (∃ (s : State) (len : Nat) (core : Bool), s.acts pgWARDEN = true ∧ s.warden.busy = some (0x15, len, core) ∧ s.tmc.live = true ∧
      (Tab.get? s.tmc.rmap (leNat (s.mbxIn 1))).isSome = true) ∧
    (∃ (s : State) (len : Nat) (core : Bool), s.acts pgWARDEN = true ∧ s.warden.busy = some (0x48, len, core)) ∧
    (∃ (s : State) (len : Nat) (core : Bool), s.acts pgWARDEN = true ∧ s.warden.busy = some (0x49, len, core)) :=
  ⟨⟨W.base, 7#12, by decide +kernel⟩,
   ⟨W.owned, 7#12, by decide +kernel⟩,
   ⟨W.owned, 8#12, by decide +kernel⟩,
   ⟨(W.busy 0x01 0 W.base), 0, false, by decide +kernel⟩,
   ⟨(W.busy 0x02 0 W.base), 0, false, by decide +kernel⟩,
   ⟨(W.busy 0x03 0 W.base), 0, false, by decide +kernel⟩,
   ⟨(W.busy 0x10 0 W.configured), 0, false, by decide +kernel⟩,
   ⟨(W.busy 0x10 0 W.base), 0, false, by decide +kernel⟩,
   ⟨(W.busy 0x11 0 W.base), 0, false, by decide +kernel⟩,
   ⟨(W.busy 0x12 2 (W.base.wr WARDEN_MBX_BUF 0x0D 0 0)), 2, false, by decide +kernel⟩,
   ⟨(W.busy 0x12 2 W.base), 2, false, by decide +kernel⟩,
   ⟨(W.busy 0x12 2 (({ W.base with opts := { W.base.opts with c := false } } : State).wr WARDEN_MBX_BUF 0x55 0 0)), 2, false, by decide +kernel⟩,
   ⟨(W.busy 0x13 256 W.base), 256, false, by decide +kernel⟩,
   ⟨(W.busy 0x14 0 (W.tm { Tmc.fresh with profile := some (List.replicate 256 7) })), 0, false, List.replicate 256 7, by decide +kernel⟩,
   ⟨(W.busy 0x15 1 (W.tm { Tmc.fresh with rmap := [(0, 5)] })), 1, false, by decide +kernel⟩,
   ⟨(W.busy 0x48 0 W.base), 0, false, by decide +kernel⟩,
   ⟨(W.busy 0x49 0 W.base), 0, false, by decide +kernel⟩⟩

/-- States and operands that meet the premises of Images. -/
theorem witness_Images :
    (∃ (s : State) (len : Nat) (core : Bool), s.acts pgWARDEN = true ∧ s.warden.busy = some (0x20, len, core) ∧ s.rd
      WARDEN_BOOT_COPY = 0) ∧
    (∃ (s : State) (len : Nat) (core : Bool), s.acts pgWARDEN = true ∧ s.warden.busy = some (0x21, len, core) ∧ s.rd
      WARDEN_BOOT_COPY = 0) ∧
    (∃ (s : State) (len : Nat) (core : Bool), s.acts pgWARDEN = true ∧ s.warden.busy = some (0x22, len, core) ∧ s.rd
      WARDEN_BOOT_COPY = 0) ∧
    (∃ (s : State) (len : Nat) (core : Bool), s.acts pgWARDEN = true ∧ s.warden.busy = some (0x23, len, core) ∧ s.trialRuns = true) ∧
    (∃ (s : State) (len : Nat) (core : Bool), s.acts pgWARDEN = true ∧ s.warden.busy = some (0x24, len, core) ∧ s.rd WARDEN_TRIAL =
      0) ∧
    (∃ (s : State), s.acts pgWARDEN = true ∧ s.rd WARDEN_TRIAL = 1 ∧ s.warden.trial = true ∧ s.warden.prep = none ∧ s.tmc.shut =
      none ∧ s.reqs = [] ∧ s.bakes = [] ∧ s.twin.turn = tuUnpaired) :=
  ⟨⟨(W.busy 0x20 8 W.base), 8, false, by decide +kernel⟩,
   ⟨(W.busy 0x21 0 W.base), 0, false, by decide +kernel⟩,
   ⟨(W.busy 0x22 0 W.base), 0, false, by decide +kernel⟩,
   ⟨(W.busy 0x23 0 W.trial), 0, false, by decide +kernel⟩,
   ⟨(W.busy 0x24 0 W.base), 0, false, by decide +kernel⟩,
   ⟨W.trial, by decide +kernel⟩⟩

/-- States and operands that meet the premises of ResetsAndCores. -/
theorem witness_ResetsAndCores :
    (∃ (s : State), s.tmc.mayStart = true ∧ (bootOrder s.coldChoice).all (fun c => s.fwCheck (s.copy c) != mrOK) = true) ∧
    (∃ (s : State) (c : Nat), s.acts pgWARDEN = true ∧ s.warden.prep = some c ∧ s.prepared = true ∧ s.tmc.shut = none ∧ c < 16) ∧
    (∃ (s : State), s.tmc.live = true ∧ s.tmc.nodeRails = true ∧ s.rd CLK_ON_BACKUP = 1) ∧
    (∃ (s : State), s.tmc.live = true ∧ s.tmc.nodeRails = true ∧ s.rd WARDEN_W0_STATE ≠ 0 ∧ s.rd WARDEN_W1_STATE ≠ 0) ∧
    (∃ (s : State), s.rd WARDEN_BOOT_PHASE = 2 ∧ channels.all (fun n => s.rd H_COND (pgMCH n) != 0) = true) ∧
    (∃ (s : State) (core : Bool), s.acts pgWARDEN = true ∧ s.rd (coreState core) ≠ csLock ∧ (s.rd (coreState core) = csRun ∨
      s.warden.lockup = none)) ∧
    (∃ (s : State) (core : Bool) (_pc _sp : Word), s.acts pgWARDEN = true ∧ s.rd (coreState core) = csRun ∧ s.rd (coreState (!core))
      = csRun ∧ s.warden.busy = none ∧ s.warden.prep = none ∧ s.warden.restarts = [[], []]) ∧
    (∃ (s : State) (core : Bool) (_pc _sp : Word), s.acts pgWARDEN = true ∧ s.rd (coreState core) = csRun ∧ s.rd (coreState (!core))
      ≠ csRun) :=
  ⟨⟨W.base, by decide +kernel⟩,
   ⟨W.prepared, 3, by decide +kernel⟩,
   ⟨(W.base.wr CLK_ON_BACKUP 1), by decide +kernel⟩,
   ⟨((W.base.wr WARDEN_W0_STATE 1).wr WARDEN_W1_STATE 1), by decide +kernel⟩,
   ⟨W.channelsUp, by decide +kernel⟩,
   ⟨W.base, true, by decide +kernel⟩,
   ⟨W.base, true, 0x100, 0x200, by decide +kernel⟩,
   ⟨(W.base.wr WARDEN_W1_STATE 1), false, 0, 0, by decide +kernel⟩⟩

/-- States and operands that meet the premises of EmptyQueueTicks. -/
theorem witness_EmptyQueueTicks :
    (∃ (s : State), s.pending = []) :=
  ⟨W.base, by decide +kernel⟩

/-- A command and states that meet the premise of QueueIsLeftAlone. -/
theorem witness_QueueIsLeftAlone :
    (∃ (c : Instr) (s t : State), exec c s = .next t) :=
  ⟨.ping, W.queued .commitDone W.pend, W.queued .commitDone W.pend, rfl⟩

/-- States and operands that meet the premises of MemoryStaysCanonical. -/
theorem witness_MemoryStaysCanonical :
    (∃ (s t : State), s.Inv ∧ step s = .next t) :=
  ⟨W.queued (.mchCommandIssue 1) W.writing, W.next (W.queued (.mchCommandIssue 1) W.writing), by decide +kernel, rfl⟩

/-- States and operands that meet the premises of EpochsStayPaired. -/
theorem witness_EpochsStayPaired :
    (∃ (s t : State), s.epochsPaired = true ∧ step s = .next t) :=
  ⟨W.queued .commitDone W.pend, W.next (W.queued .commitDone W.pend), by decide +kernel, rfl⟩

/-- States and operands that meet the premises of OptionsNeverChange. -/
theorem witness_OptionsNeverChange :
    (∃ (s t : State), step s = .next t) :=
  ⟨W.queued .svnAdvance (W.busy 0x24 0 W.base), W.next (W.queued .svnAdvance (W.busy 0x24 0 W.base)), rfl⟩

/-- States and operands that meet the premises of SecurityVersionFloor. -/
theorem witness_SecurityVersionFloor :
    (∃ (s : State) (len : Nat) (core : Bool), s.acts pgWARDEN = true ∧ s.warden.busy = some (0x24, len, core) ∧
      s.rd WARDEN_TRIAL = 0) ∧
    (∃ (s : State) (len : Nat) (core : Bool), s.acts pgWARDEN = true ∧ s.warden.busy = some (0x24, len, core) ∧
      s.rd WARDEN_TRIAL = 1) ∧
    (∃ (s t : State), step s = .next t) :=
  ⟨⟨W.busy 0x24 0 W.base, 0, false, by decide +kernel⟩,
   ⟨W.busy 0x24 0 W.trial, 0, false, by decide +kernel⟩,
   ⟨W.queued .svnAdvance (W.busy 0x24 0 W.base), W.next (W.queued .svnAdvance (W.busy 0x24 0 W.base)), rfl⟩⟩

/-- States and operands that meet the premises of ProofNumbers. -/
theorem witness_ProofNumbers :
    (∃ (s : State) (tid : BitVec 8) (job : BitVec 20) (_interval : Word) (_flags : BitVec 3) (_unmet : List (BitVec 64)),
      s.zm3.jobs.any (fun j => j.tid == tid.toNat && j.job == job.toNat) = true) ∧
    (∃ (c : Instr) (s t : State), exec c s = .next t ∧ t.zm3.pseq ≠ s.zm3.pseq) :=
  ⟨⟨W.zjob, 3, 4, 9, 0, [], by decide +kernel⟩,
   ⟨.zm3JobClose 3 4 9 0 [], W.zjob, W.ran (.zm3JobClose 3 4 9 0 []) W.zjob, rfl, by decide +kernel⟩⟩

/-- States and operands that meet the premises of OnlyTheseCommandsStore. -/
theorem witness_OnlyTheseCommandsStore :
    (∃ (c : Instr) (s t : State), exec c s = .next t ∧ c.stores = false) :=
  ⟨.ping, W.base, W.base, rfl, by decide +kernel⟩

/-- States and operands that meet the premises of EveryLineHasItsPlace. -/
theorem witness_EveryLineHasItsPlace :
    (∃ (la : Nat), la < 96 * 16 * 2 ^ 18 * 128) ∧
    (∃ (q bank row col : Nat), q < 96 ∧ bank < 16 ∧ row < 2 ^ 18 ∧ col < 128) :=
  ⟨⟨96 * 16 * 2 ^ 18 * 128 - 1, by decide +kernel⟩,
   ⟨95, 15, 262143, 127, by decide +kernel⟩⟩

/-- States and operands that meet the premises of SegmentOfALine. -/
theorem witness_SegmentOfALine :
    (∃ (la : Nat), storeBase ≤ la * 64 ∧ la * 64 < 512 * 0x180000000) :=
  ⟨0x2FE00000000 / 64, by decide +kernel⟩

/-- States and operands that meet the premises of CommitWhilePending. -/
theorem witness_CommitWhilePending :
    (∃ (s : State), s.acts pgEPOCH = true ∧ s.commitPending = true) :=
  ⟨(W.pend.stage XLAT_WINDOW 5), by decide +kernel⟩

end Sys2Proof.Tests
end

section
/-! What an outcome keeps of the state it came from, and the rules by which it keeps the core. -/
namespace Sys2Proof.Machine

/-- If an outcome is a next state, a part of it is as in `s`. -/
def Keeps {γ : Type} (g : State → γ) (s : State) (o : Host.Outcome State Fault Refusal) : Prop := ∀ t, o = .next t → g t = g s

variable {γ : Type} {g : State → γ}

@[simp] theorem keeps_next {s t : State} : Keeps g s (.next t) ↔ g t = g s :=
  ⟨fun h => h t rfl, fun h _ ht => by cases ht; exact h⟩

@[simp] theorem keeps_ite {s : State} {c : Prop} [Decidable c] {a b : Host.Outcome State Fault Refusal} :
    Keeps g s (if c then a else b) ↔ (c → Keeps g s a) ∧ (¬c → Keeps g s b) := by
  split <;> simp [*]

/-- A block that does not act changes nothing, so what its event keeps is kept. -/
theorem keeps_onBlk {s : State} {p : Nat} {k : Host.Outcome State Fault Refusal} (h : Keeps g s k) : Keeps g s (s.onBlk p k) := by
  unfold State.onBlk
  simp [h]

/-- A mailbox command keeps the core if its effect does. -/
theorem keepsCore_mbx {s : State} {p c : Nat} {f : State → Nat → State} (h : ∀ n, (f s n).core = s.core) :
    Keeps State.core s (s.onBlk p (.next (s.mbxRun c f))) :=
  keeps_onBlk (keeps_next.2 (State.core_mbxRun h))

/-! ### Micro-ops -/

/-- What a micro-op does keeps the core of every state. -/
def UAct.KeepsCore (a : UAct) : Prop := ∀ f, a = .go f → ∀ u, (f u).core = u.core

@[simp] theorem UAct.keepsCore_fault (n : Nat) : (UAct.fault n).KeepsCore := fun _ h => by cases h

@[simp] theorem UAct.keepsCore_stall (n : Nat) : (UAct.stall n).KeepsCore := fun _ h => by cases h

@[simp] theorem UAct.keepsCore_go {f : State → State} : (UAct.go f).KeepsCore ↔ ∀ u, (f u).core = u.core :=
  ⟨fun h => h f rfl, fun h _ hf => by cases hf; exact h⟩

@[simp] theorem UAct.keepsCore_ite {c : Prop} [Decidable c] {a b : UAct} :
    (if c then a else b).KeepsCore ↔ (c → a.KeepsCore) ∧ (¬c → b.KeepsCore) := by
  split <;> simp [*]

@[simp] theorem UAct.keepsCore_setXA (r c w v : Nat) : (setXA r c w v).KeepsCore := fun _ h => setXA_core h

@[simp] theorem UAct.keepsCore_branchIf (r ci : Nat) (cond : Ctx → Nat → Bool) (s : State) (c : Ctx) (b : Bake) (w : Nat) :
    (branchIf r ci cond s c b w).KeepsCore := by
  simp [branchIf]

@[simp] theorem UAct.keepsCore_stepUop (r ci : Nat) (vrs : Ctx → Nat → List Nat) (cmds : Group → List Nat → List Cmd) (s : State) (c : Ctx)
    (b : Bake) (w : Nat) : (stepUop r ci vrs cmds s c b w).KeepsCore := by
  unfold stepUop
  split <;> simp

/-- A micro-op's command keeps the core if what the micro-op does keeps it. -/
theorem keepsCore_uop {s : State} {p r c o : Nat} {safe : Ctx → Nat → Bool} {act : State → Ctx → Bake → Nat → UAct}
    (h : ∀ s c b w, (act s c b w).KeepsCore) : Keeps State.core s (s.onBlk p (.next (s.uop r c o safe act))) :=
  keeps_onBlk (keeps_next.2 (State.core_uop (fun s c b w => h s c b w)))

end Sys2Proof.Machine
end

section
/-! The commands whose meaning is a case analysis: each keeps the core in every case. -/
namespace Sys2Proof.Machine

open Reg

variable (s : State)

/-! ### Home and the loss of agents -/

theorem keepsCore_execSweepStep : Keeps State.core s (execSweepStep s) := by
  refine keeps_onBlk ?_
  split <;> simp

theorem keepsCore_execSweepEnd : Keeps State.core s (execSweepEnd s) := by
  refine keeps_onBlk ?_
  split
  · simp
  · split <;> simp

theorem keepsCore_execHomeOrder (la : BitVec 37) : Keeps State.core s (execHomeOrder la s) := by
  refine keeps_onBlk (keeps_ite.2 ⟨by simp, fun _ => ?_⟩)
  split
  · simp
  · split <;> simp

theorem keepsCore_execSnpSlow (la : BitVec 37) : Keeps State.core s (execSnpSlow la s) := by
  refine keeps_onBlk ?_
  split <;> simp

/-! ### Ports -/

theorem keepsCore_execTrainAttemptTimeout (p : Fin 16) : Keeps State.core s (execTrainAttemptTimeout p s) := by
  refine keeps_onBlk ?_
  dsimp only
  split <;> simp

theorem keepsCore_execLinkTimeout (p : Fin 16) : Keeps State.core s (execLinkTimeout p s) := by
  refine keeps_onBlk ?_
  dsimp only
  split <;> simp

theorem keepsCore_execLossOfSignal (p : Fin 16) : Keeps State.core s (execLossOfSignal p s) := by
  refine keeps_onBlk ?_
  dsimp only
  split <;> simp

theorem keepsCore_execKeySwitch (p : Fin 16) (set : Bool) : Keeps State.core s (execKeySwitch p set s) := by
  refine keeps_onBlk ?_
  split <;> simp

theorem keepsCore_execFlitReceive (p : Fin 16) (flit : Bytes) : Keeps State.core s (execFlitReceive p flit s) := by
  refine keeps_onBlk (keeps_ite.2 ⟨by simp, fun _ => ?_⟩)
  split <;> simp

theorem keepsCore_execModuleChange (p : Fin 16) (m : Option Module) : Keeps State.core s (execModuleChange p m s) := by
  unfold execModuleChange
  refine keeps_ite.2 ⟨by simp, fun _ => ?_⟩
  dsimp only
  cases m with
  | none => split <;> simp
  | some x =>
    split
    · simp
    · dsimp only
      split <;> simp
    · simp

theorem keepsCore_execCxlMemRequest (p : Fin 16) (r : CxlReq) : Keeps State.core s (execCxlMemRequest p r s) := by
  refine keeps_onBlk (keeps_ite.2 ⟨by simp, fun _ => ?_⟩)
  split <;> simp

theorem keepsCore_execCxlBirsp (p : Fin 16) (la : BitVec 46) : Keeps State.core s (execCxlBirsp p la s) := by
  refine keeps_onBlk (keeps_ite.2 ⟨by simp, fun _ => ?_⟩)
  split <;> simp

/-! ### Messages in: what a port takes keeps the core, and so does what is done with it -/

theorem keepsCore_execSnpAck (p : Fin 16) (m : Msg) : Keeps State.core s (execSnpAck p m s) := by
  refine keeps_onBlk ?_
  split
  next => simp
  next h => simp [State.core_portIn _ _ _ _ _ _ _ h]
  next h => simp [State.core_portIn _ _ _ _ _ _ _ h]

theorem keepsCore_execSnpAckD (p : Fin 16) (m : Msg) : Keeps State.core s (execSnpAckD p m s) := by
  refine keeps_onBlk ?_
  split
  next => simp
  next h => simp [State.core_portIn _ _ _ _ _ _ _ h]
  next h => simp [State.core_portIn _ _ _ _ _ _ _ h]

theorem keepsCore_execDataRelay (p : Fin 16) (m : Msg) : Keeps State.core s (execDataRelay p m s) := by
  refine keeps_onBlk ?_
  split
  next => simp
  next h => simp [State.core_portIn _ _ _ _ _ _ _ h]
  next h => simp [State.core_portIn _ _ _ _ _ _ _ h]

theorem keepsCore_execSysRsp (p : Fin 16) (m : Msg) : Keeps State.core s (execSysRsp p m s) := by
  refine keeps_onBlk ?_
  dsimp only
  split
  next => simp
  next h => simp [State.core_portIn _ _ _ _ _ _ _ h]
  next h => simp [State.core_portIn _ _ _ _ _ _ _ h]

theorem keepsCore_execXinv (p : Fin 16) (m : Msg) : Keeps State.core s (execXinv p m s) := by
  refine keeps_onBlk ?_
  split
  next => simp
  next h => simp [State.core_portIn _ _ _ _ _ _ _ h]
  next h => dsimp only; split <;> simp [State.core_portIn _ _ _ _ _ _ _ h]

theorem keepsCore_execXsync (p : Fin 16) (m : Msg) : Keeps State.core s (execXsync p m s) := by
  refine keeps_onBlk ?_
  split
  next => simp
  next h => simp [State.core_portIn _ _ _ _ _ _ _ h]
  next h => dsimp only; split <;> simp [State.core_portIn _ _ _ _ _ _ _ h]

theorem keepsCore_execTwJoin (p : Fin 16) (m : Msg) : Keeps State.core s (execTwJoin p m s) := by
  refine keeps_onBlk ?_
  split
  next => simp
  next h => simp [State.core_portIn _ _ _ _ _ _ _ h]
  next h => simp [State.core_portIn _ _ _ _ _ _ _ h]

theorem keepsCore_execMmioRd (p : Fin 16) (m : Msg) : Keeps State.core s (execMmioRd p m s) := by
  unfold execMmioRd
  split
  next => simp
  next h => simp [State.core_portIn _ _ _ _ _ _ _ h]
  next h => dsimp only; split <;> simp [State.core_portIn _ _ _ _ _ _ _ h]

variable {s} in
theorem State.core_migrIn {t : State} {p opc : Nat} {m : Msg} {b : Bool} (h : s.migrIn p opc m = some (t, b)) : t.core = s.core := by
  unfold State.migrIn at h
  obtain ⟨⟨u, c⟩, hu, hx⟩ := Option.map_eq_some_iff.1 h
  have hc : u.core = s.core := State.core_portIn _ _ _ _ _ _ _ hu
  cases hx
  simp [hc]

theorem keepsCore_execMigrStart (p : Fin 16) (m : Msg) : Keeps State.core s (execMigrStart p m s) := by
  refine keeps_onBlk ?_
  split
  next => simp
  next h => simp [State.core_migrIn h]
  next h => simp [State.core_migrIn h]

theorem keepsCore_execMigrLine (p : Fin 16) (m : Msg) : Keeps State.core s (execMigrLine p m s) := by
  refine keeps_onBlk ?_
  split
  next => simp
  next h => simp [State.core_migrIn h]
  next h => simp [State.core_migrIn h]

theorem keepsCore_execMigrAck (p : Fin 16) (m : Msg) : Keeps State.core s (execMigrAck p m s) := by
  refine keeps_onBlk ?_
  split
  next => simp
  next h => simp [State.core_migrIn h]
  next h => simp [State.core_migrIn h]

theorem keepsCore_execMigrDone (p : Fin 16) (m : Msg) : Keeps State.core s (execMigrDone p m s) := by
  refine keeps_onBlk ?_
  split
  next => simp
  next h => simp [State.core_migrIn h]
  next h => dsimp only; split <;> simp [State.core_migrIn h]

/-! ### Tenants, translation and moves -/

theorem keepsCore_execRecallDone : Keeps State.core s (execRecallDone s) := by
  refine keeps_onBlk ?_
  split
  · simp
  · split <;> simp

theorem keepsCore_execResolve (rid : Nat) : Keeps State.core s (execResolve rid s) := by
  refine keeps_onBlk ?_
  split <;> simp

theorem keepsCore_execWindowBoundary : Keeps State.core s (execWindowBoundary s) := by
  refine keeps_onBlk ?_
  split <;> simp

theorem keepsCore_execWalkDone (rid : Nat) : Keeps State.core s (execWalkDone rid s) := by
  refine keeps_onBlk ?_
  split
  · simp
  · refine keeps_ite.2 ⟨by simp, fun _ => ?_⟩
    dsimp only
    split <;> simp

theorem keepsCore_execXsyncDone : Keeps State.core s (execXsyncDone s) := by
  refine keeps_onBlk ?_
  split <;> simp

theorem keepsCore_execMoveTimeout (mid : Fin 16) : Keeps State.core s (execMoveTimeout mid s) := by
  refine keeps_onBlk (keeps_ite.2 ⟨by simp, fun _ => ?_⟩)
  split <;> simp

theorem keepsCore_execRekeyIssue : Keeps State.core s (execRekeyIssue s) := by
  refine keeps_onBlk ?_
  split <;> simp

theorem keepsCore_execSlotErased (slot : BitVec 8) : Keeps State.core s (execSlotErased slot s) := by
  refine keeps_onBlk (keeps_ite.2 ⟨by simp, fun _ => keeps_next.2 ?_⟩)
  rw [State.core_mbxRun (fun _ => by simp), State.core_clearSlot]

/-! ### Memory channels, RAS and RDL -/

theorem keepsCore_execReadDataReturn (q : Fin 96) (b : ReadBurst) : Keeps State.core s (execReadDataReturn q b s) := by
  refine keeps_onBlk ?_
  dsimp only
  split
  · simp
  · next r rest _ =>
    refine keeps_ite.2 ⟨by simp, fun _ => ?_⟩
    cases r.ent.kind with
    | status => cases b <;> simp
    | retrain =>
      cases b with
      | tracked inside => cases inside <;> simp
      | _ => simp
    | _ => cases b <;> simp

theorem keepsCore_execRmapCopyPlace : Keeps State.core s (execRmapCopyPlace s) := by
  refine keeps_onBlk ?_
  split
  · simp
  · split <;> simp

theorem keepsCore_execRescanDone : Keeps State.core s (execRescanDone s) := by
  refine keeps_onBlk ?_
  split <;> simp

/-! ### Row compute -/

theorem keepsCore_execRet (r : Fin 48) (c : Fin 8) : Keeps State.core s (execRet r c s) :=
  keepsCore_uop fun _ _ _ _ => by split <;> simp

theorem keepsCore_execAdd (form : AddForm) : Keeps State.core s (execAdd form s) := by
  cases form with
  | retireMap => exact keeps_onBlk (by simp)
  | microOp => exact keepsCore_uop (fun _ _ _ _ => by simp)

theorem keepsCore_execGend (r : Fin 48) (c : Fin 8) : Keeps State.core s (execGend r c s) :=
  keepsCore_uop fun _ _ _ _ => by split <;> simp

theorem keepsCore_execLane (r : Fin 48) (c : Fin 8) : Keeps State.core s (execLane r c s) :=
  keepsCore_uop fun _ _ _ _ => by split <;> simp

theorem keepsCore_execGendRelease (r : Fin 48) (c : Fin 8) : Keeps State.core s (execGendRelease r c s) := by
  refine keeps_onBlk ?_
  dsimp only
  split
  · simp [State.core_release]
  · simp

theorem keepsCore_execLaneRelease (r : Fin 48) (c : Fin 8) : Keeps State.core s (execLaneRelease r c s) := by
  refine keeps_onBlk ?_
  dsimp only
  split
  · split <;> simp [State.core_release]
  · simp

theorem keepsCore_execWaitRelease (r : Fin 48) (c : Fin 8) : Keeps State.core s (execWaitRelease r c s) := by
  refine keeps_onBlk ?_
  dsimp only
  split
  · simp [State.core_release]
  · simp

theorem keepsCore_execPlanImageReadDone (rid : Nat) : Keeps State.core s (execPlanImageReadDone rid s) := by
  refine keeps_onBlk ?_
  split <;> simp

theorem keepsCore_execPlanUnloadDone (plan : BitVec 6) : Keeps State.core s (execPlanUnloadDone plan s) := by
  refine keeps_onBlk ?_
  split
  · split <;> simp
  · simp

theorem keepsCore_execBakeOrder (bid : Nat) : Keeps State.core s (execBakeOrder bid s) := by
  refine keeps_onBlk ?_
  split
  · simp
  · refine keeps_ite.2 ⟨by simp, fun _ => ?_⟩
    dsimp only
    split <;> simp

theorem keepsCore_execBakeStart (bid : Nat) (rce : Fin 48) : Keeps State.core s (execBakeStart bid rce s) := by
  refine keeps_onBlk ?_
  split
  · simp
  · simp only [keeps_ite, keeps_next]
    refine ⟨by simp, fun _ => ⟨by simp, fun _ => ⟨by simp, fun _ => ⟨by simp, fun _ => ?_⟩⟩⟩⟩
    split
    · simp
    · refine keeps_ite.2 ⟨by simp, fun _ => ?_⟩
      split <;> simp

theorem keepsCore_execRecordWrite (bid : Nat) : Keeps State.core s (execRecordWrite bid s) := by
  refine keeps_onBlk ?_
  split <;> simp

theorem keepsCore_execStatusWordWrite (bid : Nat) : Keeps State.core s (execStatusWordWrite bid s) := by
  refine keeps_onBlk ?_
  split <;> simp

/-! ### Twin pairs -/

theorem keepsCore_execTakeover : Keeps State.core s (execTakeover s) := by
  refine keeps_onBlk ?_
  split <;> simp

theorem keepsCore_execResyncLine : Keeps State.core s (execResyncLine s) := by
  refine keeps_onBlk ?_
  split
  · simp
  · refine keeps_ite.2 ⟨by simp, fun _ => ?_⟩
    split <;> simp

/-- A sequenced message of the pair keeps the core if what is done with it does. -/
theorem keepsCore_twSeqIn {p q opc : Nat} {m : Msg} {f : State → State} (hf : ∀ t, (f t).core = t.core) :
    Keeps State.core s (s.onBlk p (.next (s.twSeqIn q opc m f))) :=
  keeps_onBlk (keeps_next.2 (State.core_twSeqIn _ _ _ _ _ hf))

/-- An unsequenced message of the pair keeps the core if what is done with it does. -/
theorem keepsCore_twPlainIn {p q opc : Nat} {m : Msg} {f : State → State} (hf : ∀ t, (f t).core = t.core) :
    Keeps State.core s (s.onBlk p (.next (s.twPlainIn q opc m f))) :=
  keeps_onBlk (keeps_next.2 (State.core_twPlainIn _ _ _ _ _ hf))

/-! ### Meter and ZM-3 -/

theorem keepsCore_execJobCloseEffect (tid : BitVec 8) (job : BitVec 20) : Keeps State.core s (execJobCloseEffect tid job s) := by
  refine keeps_onBlk ?_
  split <;> simp

theorem keepsCore_execIdent (h : FrameHdr) (b : IdentBody) : Keeps State.core s (execIdent h b s) := keeps_onBlk (by simp)

theorem keepsCore_execStatus (h : FrameHdr) (b : StatusBody) : Keeps State.core s (execStatus h b s) := keeps_onBlk (by simp)

theorem keepsCore_execProof (h : FrameHdr) (pseq : BitVec 64) (r : Bytes) : Keeps State.core s (execProof h pseq r s) :=
  keeps_onBlk (by simp)

theorem keepsCore_execAlarm (h : FrameHdr) (code chan : Byte) (n : Word) : Keeps State.core s (execAlarm h code chan n s) :=
  keeps_onBlk (by simp)

theorem keepsCore_execZm3Hello (nid : BitVec 16) (serial : BitVec 64) : Keeps State.core s (execZm3Hello nid serial s) := by
  unfold execZm3Hello
  refine keeps_ite.2 ⟨by simp, fun _ => keeps_next.2 ?_⟩
  rw [State.core_foldl _ (fun _ _ => by simp)]
  simp

theorem Zm3.pseq_abandon (z : Zm3) : z.abandon.pseq = z.pseq := by
  unfold Zm3.abandon
  split <;> rfl

theorem Zm3.pseq_give (z : Zm3) (r : TallyRec) (share : List Nat) : (z.give r share).pseq = z.pseq := by
  unfold Zm3.give
  dsimp only
  split <;> rfl

/-- The end of an interval issues no Proof. -/
@[simp] theorem Zm3.pseq_tallyEnd (z : Zm3) (n : Nat) (recs : List TallyRec) (e : List Nat) (causes : Nat) (metered : Bool) :
    (z.tallyEnd n recs e causes metered).pseq = z.pseq := by
  unfold Zm3.tallyEnd
  dsimp only
  split
  · dsimp only
    rw [foldl_keeps Zm3.pseq _ (fun _ _ => Zm3.pseq_give ..), Zm3.pseq_abandon]
  · exact Zm3.pseq_abandon z

theorem keepsCore_execZm3TallyEnd (n : Word) (recs : List TallyRec) (energies : List (BitVec 64)) (causes : BitVec 5) (metered : Bool) :
    Keeps State.core s (execZm3TallyEnd n recs energies causes metered s) := by
  simp [execZm3TallyEnd]

/-! ### The tray -/

theorem keepsCore_execTmcMirrorUpdate (v : Sensors) : Keeps State.core s (execTmcMirrorUpdate v s) := by
  unfold execTmcMirrorUpdate
  refine keeps_ite.2 ⟨by simp, fun _ => keeps_next.2 ?_⟩
  rw [State.core_atNode _ _ (fun _ => by simp)]
  rfl

theorem keepsCore_execUndervoltage : Keeps State.core s (execUndervoltage s) := by
  unfold execUndervoltage
  simp [State.core_atNode]

theorem keepsCore_execInputReturn : Keeps State.core s (execInputReturn s) := by
  unfold execInputReturn
  dsimp only
  split <;> simp [State.core_atNode]

theorem keepsCore_execRailsOff : Keeps State.core s (execRailsOff s) := by
  unfold execRailsOff
  split <;> simp

theorem keepsCore_execBankOutputOpen : Keeps State.core s (execBankOutputOpen s) := by
  unfold execBankOutputOpen
  split <;> simp

theorem keepsCore_execCoolingUpdate (demand : BitVec 7) : Keeps State.core s (execCoolingUpdate demand s) := by
  unfold execCoolingUpdate
  simp [State.core_atNode]

theorem keepsCore_execPumpFail (pumpB : Bool) : Keeps State.core s (execPumpFail pumpB s) := by
  unfold execPumpFail
  simp [State.core_atNode]

theorem keepsCore_execTmcBoot : Keeps State.core s (execTmcBoot s) := by
  unfold execTmcBoot
  simp [State.core_atNode]

theorem keepsCore_execStrapSample (straps : BitVec 9) : Keeps State.core s (execStrapSample straps s) := by
  unfold execStrapSample
  simp [State.core_atNode]

theorem keepsCore_execPresenceDebounce (input : Fin 19) (present : Bool) : Keeps State.core s (execPresenceDebounce input present s) := by
  unfold execPresenceDebounce
  simp [State.core_atNode]

theorem keepsCore_execBankCapacitanceTest (c : BitVec 16) : Keeps State.core s (execBankCapacitanceTest c s) := by
  unfold execBankCapacitanceTest
  simp [State.core_atNode]

/-! ### The mailbox -/

theorem keepsCore_execProfileRead : Keeps State.core s (execProfileRead s) :=
  keepsCore_mbx fun _ => by
    simp only [State.core_if]
    split
    · rfl
    · split <;> simp

theorem keepsCore_execImageWrite : Keeps State.core s (execImageWrite s) :=
  keepsCore_mbx fun _ => by split <;> simp

theorem keepsCore_execImageCheck : Keeps State.core s (execImageCheck s) :=
  keepsCore_mbx fun _ => by split <;> simp

theorem keepsCore_execImagePrefer : Keeps State.core s (execImagePrefer s) :=
  keepsCore_mbx fun _ => by split <;> simp

theorem keepsCore_execGetTpk : Keeps State.core s (execGetTpk s) :=
  keepsCore_mbx fun _ => by split <;> simp

end Sys2Proof.Machine
end

section
/-! The operations that change something of the core, none of which changes the options: the parts of an accepted group and of an
issued command, training, the commit cycle, register writes, resets and Proofs. The options are read through the core, on which the laws of
the other operations are stated. -/
namespace Sys2Proof.Machine

open Reg

theorem State.opts_eq_core (s : State) : s.opts = s.core.opts := rfl

@[simp] theorem Core.opts_if {c : Prop} [Decidable c] (a b : Core) : (if c then a else b).opts = if c then a.opts else b.opts := by
  split <;> rfl

@[simp] theorem State.core_opts_foldl {β : Type} (f : State → β → State) (h : ∀ a b, (f a b).core.opts = a.core.opts) (l : List β)
    (s : State) : (l.foldl f s).core.opts = s.core.opts := foldl_keeps (fun s : State => s.core.opts) f h l s

/-! ### Memory channels -/

theorem State.core_acceptGroup {s t : State} {b : Bake} {q : Nat} {e : Entry} {cmds : List Cmd} {es : List Entry}
    (h : s.acceptGroup b q e cmds = some (t, es)) : t.core = s.core := by
  unfold State.acceptGroup at h
  dsimp only at h
  split at h
  · cases h
  · cases h
    rw [foldl_keeps (fun a : State × List (Nat × BitVec 128) => a.1.core) _ (fun a b => by simp)]
    simp

@[simp] theorem core_freeRow (n : Nat) (s : State) (m : Memory) : (freeRow n s m).2.core = s.core := by
  induction n generalizing s m with
  | zero => rfl
  | succ n ih => simp [freeRow, ih]

theorem State.core_opts_acceptGroupEntry (s : State) (q : Nat) (e : Entry) (rce ci : Nat) (cmds : List Cmd) :
    (s.acceptGroupEntry q e rce ci cmds).core.opts = s.core.opts := by
  unfold State.acceptGroupEntry
  split
  · rfl
  · dsimp only
    split
    · simp
    next h =>
      split
      · rfl
      · rw [State.core_pushEntries, State.core_opts_foldl _ (fun u _ => by simp [State.opts_eq_core])]
        simp [State.core_acceptGroup h]

@[simp] theorem State.core_opts_acceptEntry (s : State) (q : Nat) (e : Entry) : (s.acceptEntry q e).core.opts = s.core.opts := by
  unfold State.acceptEntry
  split
  · exact State.core_opts_acceptGroupEntry ..
  · dsimp only
    split <;> simp

@[simp] theorem State.core_opts_cmdData (s : State) (q : Nat) (e : Entry) (x : Cmd) : (s.cmdData q e x).core.opts = s.core.opts := by
  cases x with
  | rd => simp [State.cmdData]
  | vaa => dsimp only [State.cmdData]; split <;> rfl
  | _ => rfl

@[simp] theorem State.core_opts_issueCmd (s : State) (q : Nat) (e : Entry) (x : Cmd) : (s.issueCmd q e x).core.opts = s.core.opts := by
  simp [State.issueCmd]

@[simp] theorem State.core_opts_clearStack (s : State) (ch : Nat) : (s.clearStack ch).core.opts = s.core.opts := by
  simp [State.clearStack, State.opts_eq_core]

@[simp] theorem State.core_opts_trained (s : State) (ch : Nat) : (s.trained ch).core.opts = s.core.opts := by
  simp [State.trained]

/-! ### The commit cycle -/

@[simp] theorem State.core_opts_commitCycle (s : State) : s.commitCycle.core.opts = s.core.opts := by
  simp [State.commitCycle, State.openNext, State.opts_eq_core]

@[simp] theorem State.core_opts_commit (s : State) : s.commit.core.opts = s.core.opts := by
  simp [State.commit]

@[simp] theorem State.core_opts_commitEnd (s : State) : s.commitEnd.core.opts = s.core.opts := by
  simp [State.commitEnd, State.opts_eq_core]

/-! ### Register writes -/

/-- Of the fields that act when written, only COMMIT changes the core. -/
@[simp] theorem State.core_opts_act (s : State) (h : Hit) (v : Nat) : (s.act h v).core.opts = s.core.opts := by
  simp [State.act]

@[simp] theorem State.core_opts_takePut (s : State) (src : Src) (p : Put) : (s.takePut src p).core.opts = s.core.opts := by
  unfold State.takePut
  dsimp only
  split <;> simp

@[simp] theorem State.core_opts_writeFields (s : State) (src : Src) (addr : Nat) (puts : List Put) :
    (s.writeFields src addr puts).core.opts = s.core.opts := by
  simp [State.writeFields]

@[simp] theorem State.core_opts_writeReg (s : State) (src : Src) (addr val : Nat) : (s.writeReg src addr val).core.opts = s.core.opts := by
  simp [State.writeReg]

@[simp] theorem State.core_opts_write (s : State) (src : Src) (addr val : Nat) : (s.write src addr val).core.opts = s.core.opts := by
  simp [State.write]

@[simp] theorem State.core_opts_writeSized (s : State) (src : Src) (addr : Nat) (size : AccSize) (val : Nat) :
    (s.writeSized src addr size val).core.opts = s.core.opts := by
  simp [State.writeSized]

@[simp] theorem State.core_opts_ioAccess (s : State) (p : Nat) (write : Bool) (addr : Nat) (dw : BitVec 4 × Word) :
    (s.ioAccess p write addr dw).core.opts = s.core.opts := by
  simp [State.ioAccess]

/-! ### Boot and resets -/

@[simp] theorem State.core_opts_applyProfile (s : State) : s.applyProfile.core.opts = s.core.opts := by
  simp [State.applyProfile, State.opts_eq_core]

@[simp] theorem State.core_opts_wardenStarts (s : State) (c : Nat) (cold : Bool) : (s.wardenStarts c cold).core.opts = s.core.opts := by
  unfold State.wardenStarts
  dsimp only
  generalize packBits [(0, 1, b2n s.opts.c), (1, 1, b2n s.opts.k), (2, 1, b2n s.opts.w)] = found
  simp [State.opts_eq_core]

@[simp] theorem State.core_opts_boot (s : State) (first cause : Nat) (cold : Bool) : (s.boot first cause cold).core.opts = s.core.opts := by
  unfold State.boot
  dsimp only
  split <;> simp

@[simp] theorem State.core_opts_resetBase (s : State) : s.resetBase.core.opts = s.core.opts := rfl

@[simp] theorem State.core_opts_warmBase (s : State) (kept : Bool) : (s.warmBase kept).core.opts = s.core.opts := rfl

/-- A warm reset keeps the options (R4). -/
@[simp] theorem State.core_opts_warmReset (s : State) (cause : Nat) (lost : Bool) : (s.warmReset cause lost).core.opts = s.core.opts := by
  simp [State.warmReset]

/-! ### Proofs -/

@[simp] theorem State.core_opts_issueProof (s : State) (j : ZJob) (last ends : Nat) (unmet : List Nat) :
    (s.issueProof j last ends unmet).core.opts = s.core.opts := by
  simp [State.issueProof, State.opts_eq_core]

end Sys2Proof.Machine
end

section
/-! Which commands may change something of the core, and that every other keeps it. -/

namespace Sys2Proof

/-- Whether a command may change something of the core: the acceptance and the issue of a queue and the end of a training (DRAM), the
commit and whatever may write its register (epochs), CONFIG_READY and the resets, SVN_ADVANCE (fuses), and the Proof of a closed job. -/
def Instr.touchesCore : Instr → Bool
  | .queueAccept _ | .mchCommandIssue _ | .trainingDone _ _ _ | .configReady => true
  | .commit | .commitDone | .registerWrite _ _ _ | .pairLowerWrite _ _ | .pairUpperWrite _ _ => true
  | .intForce _ _ | .intEnWrite _ _ | .intRouteWrite _ | .blkLockSet _ | .mmioWr _ _ | .cxlIoAccess _ _ _ _ => true
  | .coldReset | .warmResetAssert | .refReturnReset | .hbStall | .svnAdvance | .zm3JobClose _ _ _ _ _ => true
  | _ => false

end Sys2Proof

namespace Sys2Proof.Machine

open Reg

/-- A command that does not touch the core keeps it. -/
theorem exec_keepsCore (c : Instr) (s : State) (h : c.touchesCore = false) : Keeps State.core s (exec c s) := by
  cases c with
  | registerWrite | pairLowerWrite | pairUpperWrite | intForce | intEnWrite | intRouteWrite | blkLockSet | commit | commitDone
  | cxlIoAccess | mmioWr | queueAccept | mchCommandIssue | trainingDone | zm3JobClose | coldReset | warmResetAssert | refReturnReset
  | hbStall | svnAdvance | configReady => cases h
  -- An event of a block whose effect is one of its operations, or a choice of them.
  | discard | drainSlow | nakRepeat | ackTimer | creditReturnTimer | tagGroupClose | params | creditInit | credit | recover | down
  | retrain | keySwitchWrite | enableWrite | trainingStepDone | cxlLinkDown | rdS | rdOwn | upg | rdCur | wrFull | wrPtl | wb | clnEvict
  | jobOpen | jobClose | requestAdmit | bucketRefill | loadUpdate | agentLimitStep | probeGo | agentAdmit | agentNotice | agentReadmit
  | regionWord1Write | regionWord0Write | recallGo | refreshPlacement | statusPlacement | segClearDone | stackRailsGood
  | retrainPlacement | parityAlert | mchPowerEntry | patrolPlacement | scrubRateStep | sliceBoundary | ptClear | btClear | staleFlush
  | evlogTailWrite | rescanGo | bakeSub | bakeAbort | planLoad | planUnload | refillDone | hpqTailWrite | go | resume | abandon | release
  | migrLineTxn | migrAckTimer | twAckTimer | renewTimer | fenceDeadline | autoJoinTimer | claim | join | solo | leave | meterLinkSync
  | meterLinkLost | meterFrameResend | meterAckTimer | intervalMark | intervalLocalClose | proofTailWrite | referenceLoss | pllPark
  | pllFastStartDone | pllLockLoss | blockNapEntry | blockDozeEntry | blockOffEntry | blockWakeDone | tjSample | tjReport
  | wardenHeartbeat | coreLockup | trialTimeout | mbxClaim | mbxRelease | meterLinkOutOfSync | null | coldLockDone | cxlMailboxCommand =>
    exact keeps_onBlk (by simp)
  -- An event outside the blocks.
  | pairLowerRead | rcRead | wmkCrossedRead | wmkExtremeRead | zm3Presence | hsFastTrip | hsTimerTrip | hsOvervoltage | gracefulShutdown
  | standbySupplyLoss | managerReset => exact keeps_next.2 (by simp)
  | zm3JobOpen | thermtrip | tmcLost | hsEnable | hsRetry | shutdownCommit | shutdownDrainLimit | hardCut | trayRestart | leakDetect
  | leakDetectorReset | watchdogExpiry | pinFunctionSwitch | chassisResetOn | forceOff | powerCycle | bootSourceOverride | zm3ProofAck
  | tmcFirmwareUpdate | internalError => exact keeps_ite.2 (by simp)
  -- A command of the mailbox.
  | keyLoad | keyRotate | keyErase | linkKeyLoad | meterEnroll | meterForget | ping | getInfo | getIdcert | admitKeys | warmReset
  | blockReset | profileWrite | rmapForget | imageConfirm => exact keepsCore_mbx (fun _ => by simp)
  -- A micro-op.
  | nop | br | bz | bnz | bltu | loop | call | endOp | lci | lcx | csync | csw | cscp | li | lih | addi | sub | andOp | orOp | xorOp
  | shli | shri | movlc | grp | sload | sneg | stra | waitl | waitg => exact keepsCore_uop (fun _ _ _ _ => by simp)
  -- A message of the pair.
  | twLine | twDelta | twBake | twBakeEnd | twHandover | twSynced => exact keepsCore_twSeqIn s (fun _ => by simp)
  | twAck | twBakeRsp | twRenew | twRenewAck => exact keepsCore_twPlainIn s (fun _ => by simp)
  -- A command with a case analysis of its own.
  | flitReceive => exact keepsCore_execFlitReceive s _ _
  | keySwitch => exact keepsCore_execKeySwitch s _ _
  | lossOfSignal => exact keepsCore_execLossOfSignal s _
  | trainAttemptTimeout => exact keepsCore_execTrainAttemptTimeout s _
  | linkTimeout => exact keepsCore_execLinkTimeout s _
  | moduleChange => exact keepsCore_execModuleChange s _ _
  | cxlMemRequest => exact keepsCore_execCxlMemRequest s _ _
  | cxlBirsp => exact keepsCore_execCxlBirsp s _ _
  | jobCloseEffect => exact keepsCore_execJobCloseEffect s _ _
  | snpAck => exact keepsCore_execSnpAck s _ _
  | snpAckD => exact keepsCore_execSnpAckD s _ _
  | dataRelay => exact keepsCore_execDataRelay s _ _
  | sysRsp => exact keepsCore_execSysRsp s _ _
  | mmioRd => exact keepsCore_execMmioRd s _ _
  | resolve => exact keepsCore_execResolve s _
  | walkDone => exact keepsCore_execWalkDone s _
  | homeOrder => exact keepsCore_execHomeOrder s _
  | snpSlow => exact keepsCore_execSnpSlow s _
  | sweepStep => exact keepsCore_execSweepStep s
  | sweepEnd => exact keepsCore_execSweepEnd s
  | recallDone => exact keepsCore_execRecallDone s
  | getTpk => exact keepsCore_execGetTpk s
  | slotErased => exact keepsCore_execSlotErased s _
  | rekeyIssue => exact keepsCore_execRekeyIssue s
  | readDataReturn => exact keepsCore_execReadDataReturn s _ _
  | add => exact keepsCore_execAdd s _
  | rmapCopyPlace => exact keepsCore_execRmapCopyPlace s
  | rescanDone => exact keepsCore_execRescanDone s
  | planImageReadDone => exact keepsCore_execPlanImageReadDone s _
  | planUnloadDone => exact keepsCore_execPlanUnloadDone s _
  | bakeOrder => exact keepsCore_execBakeOrder s _
  | bakeStart => exact keepsCore_execBakeStart s _ _
  | ret => exact keepsCore_execRet s _ _
  | gend => exact keepsCore_execGend s _ _
  | gendRelease => exact keepsCore_execGendRelease s _ _
  | lane => exact keepsCore_execLane s _ _
  | laneRelease => exact keepsCore_execLaneRelease s _ _
  | waitRelease => exact keepsCore_execWaitRelease s _ _
  | recordWrite => exact keepsCore_execRecordWrite s _
  | statusWordWrite => exact keepsCore_execStatusWordWrite s _
  | xinv => exact keepsCore_execXinv s _ _
  | xsync => exact keepsCore_execXsync s _ _
  | xsyncDone => exact keepsCore_execXsyncDone s
  | windowBoundary => exact keepsCore_execWindowBoundary s
  | migrStart => exact keepsCore_execMigrStart s _ _
  | migrLine => exact keepsCore_execMigrLine s _ _
  | migrAck => exact keepsCore_execMigrAck s _ _
  | migrDone => exact keepsCore_execMigrDone s _ _
  | moveTimeout => exact keepsCore_execMoveTimeout s _
  | twJoin => exact keepsCore_execTwJoin s _ _
  | takeover => exact keepsCore_execTakeover s
  | resyncLine => exact keepsCore_execResyncLine s
  | ident => exact keepsCore_execIdent s _ _
  | status => exact keepsCore_execStatus s _ _
  | proof => exact keepsCore_execProof s _ _ _
  | alarm => exact keepsCore_execAlarm s _ _ _ _
  | zm3TallyEnd => exact keepsCore_execZm3TallyEnd s _ _ _ _ _
  | tmcMirrorUpdate => exact keepsCore_execTmcMirrorUpdate s _
  | undervoltage => exact keepsCore_execUndervoltage s
  | inputReturn => exact keepsCore_execInputReturn s
  | railsOff => exact keepsCore_execRailsOff s
  | bankOutputOpen => exact keepsCore_execBankOutputOpen s
  | coolingUpdate => exact keepsCore_execCoolingUpdate s _
  | pumpFail => exact keepsCore_execPumpFail s _
  | tmcBoot => exact keepsCore_execTmcBoot s
  | strapSample => exact keepsCore_execStrapSample s _
  | presenceDebounce => exact keepsCore_execPresenceDebounce s _ _
  | profileRead => exact keepsCore_execProfileRead s
  | imageWrite => exact keepsCore_execImageWrite s
  | imageCheck => exact keepsCore_execImageCheck s
  | imagePrefer => exact keepsCore_execImagePrefer s
  | zm3Hello => exact keepsCore_execZm3Hello s _ _
  | bankCapacitanceTest => exact keepsCore_execBankCapacitanceTest s _

end Sys2Proof.Machine
end

section
/-! The presence of the option units: every command and the tick keep it, the resets among them (R4). -/
namespace Sys2Proof.Machine

open Reg

variable (s : State)

theorem keepsOpts_execQueueAccept (q : Fin 96) : Keeps State.opts s (execQueueAccept q s) := by
  refine keeps_onBlk (keeps_ite.2 ⟨fun _ => ?_, by simp⟩)
  split <;> simp [State.opts_eq_core]

theorem keepsOpts_execMchCommandIssue (q : Fin 96) : Keeps State.opts s (execMchCommandIssue q s) := by
  refine keeps_onBlk (keeps_ite.2 ⟨by simp, fun _ => keeps_ite.2 ⟨fun _ => by simp [State.opts_eq_core], fun _ => ?_⟩⟩)
  split
  · simp
  · split <;> simp [State.opts_eq_core]

theorem keepsOpts_execTrainingDone (ch : Fin 48) (page : Bytes) (fail : Option (BitVec 4)) :
    Keeps State.opts s (execTrainingDone ch page fail s) := by
  refine keeps_onBlk (keeps_ite.2 ⟨by simp, fun _ => ?_⟩)
  cases fail <;> simp [State.opts_eq_core]

theorem keepsOpts_execMmioWr (p : Fin 16) (m : Msg) : Keeps State.opts s (execMmioWr p m s) := by
  unfold execMmioWr
  split
  next => simp
  next h => simp [State.opts_eq_core, State.core_portIn _ _ _ _ _ _ _ h]
  next h => dsimp only; split <;> simp [State.opts_eq_core, State.core_portIn _ _ _ _ _ _ _ h]

theorem keepsOpts_execCxlIoAccess (p : Fin 16) (write : Bool) (addr : CxlIo) (dws : List (BitVec 4 × Word)) :
    Keeps State.opts s (execCxlIoAccess p write addr dws s) := by
  unfold execCxlIoAccess
  refine keeps_ite.2 ⟨by simp, fun _ => ?_⟩
  cases addr with
  | bar0 off =>
    refine keeps_ite.2 ⟨fun _ => by simp [State.opts_eq_core], fun _ => keeps_next.2 ?_⟩
    exact foldl_keeps (fun a : State × Nat => a.1.opts) _ (fun a dw => State.core_opts_ioAccess ..) dws _
  | hdm n => simp [State.opts_eq_core]

theorem keepsOpts_execWarmResetAssert : Keeps State.opts s (execWarmResetAssert s) := by
  unfold execWarmResetAssert
  split <;> simp [State.opts_eq_core]

theorem keepsOpts_execZm3JobClose (tid : BitVec 8) (job : BitVec 20) (n : Word) (flags : BitVec 3) (unmet : List (BitVec 64)) :
    Keeps State.opts s (execZm3JobClose tid job n flags unmet s) := by
  unfold execZm3JobClose
  split <;> simp [State.opts_eq_core]

/-- SVN_ADVANCE raises the floor in the fuses and leaves the options. -/
theorem keepsOpts_execSvnAdvance : Keeps State.opts s (execSvnAdvance s) := by
  refine keeps_onBlk (keeps_next.2 ?_)
  unfold State.mbxRun
  split
  · simp [State.opts_eq_core]
  · rfl

/-- Every command leaves the options as they were: most keep the whole core, and of the others each is followed to what it changes. -/
theorem exec_keepsOpts (c : Instr) : Keeps State.opts s (exec c s) := by
  cases c with
  | queueAccept => exact keepsOpts_execQueueAccept s _
  | mchCommandIssue => exact keepsOpts_execMchCommandIssue s _
  | trainingDone => exact keepsOpts_execTrainingDone s _ _ _
  | commit | commitDone => exact keeps_onBlk (by simp [State.opts_eq_core])
  | registerWrite | pairLowerWrite | pairUpperWrite | intForce | intEnWrite | intRouteWrite | blkLockSet =>
    exact keeps_next.2 (by simp [State.opts_eq_core])
  | mmioWr => exact keepsOpts_execMmioWr s _ _
  | cxlIoAccess => exact keepsOpts_execCxlIoAccess s _ _ _ _
  | configReady | coldReset | refReturnReset | hbStall => exact keeps_ite.2 (by simp [State.opts_eq_core])
  | warmResetAssert => exact keepsOpts_execWarmResetAssert s
  | svnAdvance => exact keepsOpts_execSvnAdvance s
  | zm3JobClose => exact keepsOpts_execZm3JobClose s _ _ _ _ _
  | _ => exact fun t ht => congrArg Core.opts (exec_keepsCore _ s rfl t ht)

end Sys2Proof.Machine

open Sys2Proof.Machine

/-- Settles O50: a step is a tick, which keeps the core, or the front command, which keeps the options. -/
theorem optionsNeverChange : Obligations.OptionsNeverChange := by
  intro s t h
  unfold step at h
  split at h
  · cases h
    exact congrArg Core.opts (State.core_tick s)
  next c rest _ => exact exec_keepsOpts { s with pending := rest } c t h
end

section
/-! A write of COMMIT while a commit is pending (R51): what it answers, and that it reaches no configuration. -/
namespace Sys2Proof.Machine

open Reg

theorem bit_eq_testBit (x n : Nat) : bit x n = x.testBit n := by
  rw [Nat.testBit_eq_decide_div_mod_eq]
  simp [bit, bits, beq_eq_decide]

/-- A cause that has been raised stands in INT_STAT. -/
theorem State.bit_raise_same (s : State) (p : Nat) {c : Nat} (h : c < 32) : bit ((s.raise p c).rd H_INT_STAT p) c = true := by
  rw [bit_eq_testBit, State.rd_raise_same, Nat.testBit_mod_two_pow, Nat.testBit_or, Nat.testBit_two_pow_self]
  simp [h]

theorem State.cfgOpen_wr (s : State) (f : Field) (v i x : Nat) (h : f.staged = false) : (s.wr f v i x).cfgOpen = s.cfgOpen := by
  simp [State.wr, h]

/-- INT_STAT is not staged, and an interrupt changes no register, so raising a cause leaves the open configuration. -/
theorem State.cfgOpen_raise (s : State) (p c : Nat) : (s.raise p c).cfgOpen = s.cfgOpen := by
  have h : (s.raise p c).tables.2 = (s.wr H_INT_STAT (s.rd H_INT_STAT p ||| 2 ^ c) p).tables.2 := by
    rw [State.raise, State.tables_edge]
  exact h.trans (State.cfgOpen_wr _ _ _ _ _ rfl)

/-- With a commit pending, COMMIT only answers BUSY in RESULT and raises COMMIT_BUSY. -/
theorem State.commit_of_pending {s : State} (h : s.commitPending = true) :
    s.commit = (s.wr EPOCH_RESULT 1).raise pgEPOCH I_EPOCH_COMMIT_BUSY := by
  simp [State.commit, h]

theorem State.rd_result_commit_of_pending {s : State} (h : s.commitPending = true) : s.commit.rd EPOCH_RESULT = 1 := by
  rw [State.commit_of_pending h, State.rd_raise_ne _ _ _ (by decide), State.rd_wr_same]
  rfl

theorem State.cfgOpen_commit_of_pending {s : State} (h : s.commitPending = true) : s.commit.cfgOpen = s.cfgOpen := by
  rw [State.commit_of_pending h, State.cfgOpen_raise, State.cfgOpen_wr _ _ _ _ _ rfl]

theorem State.body_commit_of_pending {s : State} (h : s.commitPending = true) : s.commit.body = s.body := by
  rw [State.commit_of_pending h, State.body_raise, State.body_wr]

/-- The staged and the draining configuration and the epochs are parts of the body. -/
theorem State.epochs_of_body {s t : State} (h : t.body = s.body) :
    t.cfgStaged = s.cfgStaged ∧ t.cfgDrain = s.cfgDrain ∧ t.openEpoch = s.openEpoch ∧ t.drainEpoch = s.drainEpoch :=
  have part {γ : Type} (g : State → γ) : g t.body = g s.body := congrArg g h
  ⟨part State.cfgStaged, part State.cfgDrain, part State.openEpoch, part State.drainEpoch⟩

/-- A block that acts carries out COMMIT. -/
theorem exec_commit_of_acts {s : State} (h : s.acts pgEPOCH = true) : exec .commit s = .next s.commit :=
  State.onBlk_acts _ h

end Sys2Proof.Machine

open Sys2Proof.Machine Sys2Proof.Machine.Reg

/-- Settles O56: the busy answer writes only RESULT and INT_STAT, neither of which is staged; the staged and draining configurations
and the epochs are parts of the body, which it keeps. -/
theorem commitWhilePending : Obligations.CommitWhilePending := by
  intro s hacts hpend
  have hbody : s.commit.body = s.body := State.body_commit_of_pending hpend
  have hbusy : bit (s.commit.rd H_INT_STAT pgEPOCH) I_EPOCH_COMMIT_BUSY = true := by
    rw [State.commit_of_pending hpend]
    exact State.bit_raise_same _ _ (by decide)
  obtain ⟨hstaged, hdrain, hopened, hdrained⟩ := State.epochs_of_body hbody
  exact ⟨s.commit, exec_commit_of_acts hacts, State.rd_result_commit_of_pending hpend, hbusy, hstaged,
    State.cfgOpen_commit_of_pending hpend, hdrain, hopened, hdrained, hbody⟩
end

section
/-! The segments of the node's lines (R238): spans of 6 GiB of node offset, of which the directory store holds the last. -/
namespace Sys2Proof.Machine

/-- A segment is 2^13 row groups of 64-byte lines, so the segment of a line is a quotient of its node offset. -/
theorem segOf_eq_offset_div (la : Nat) : segOf la = la * 64 / 0x180000000 :=
  calc segOf la = la / (groupLines * 2 ^ 13) := Nat.div_div_eq_div_mul ..
    _ = la * 64 / (groupLines * 2 ^ 13 * 64) := (Nat.mul_div_mul_right _ _ (by decide)).symm
    _ = la * 64 / 0x180000000 := rfl

theorem segOf_eq_iff_offset (k la : Nat) :
    segOf la = k ↔ k * 0x180000000 ≤ la * 64 ∧ la * 64 ≤ k * 0x180000000 + 0x17FFFFFFF := by
  rw [segOf_eq_offset_div]
  omega

/-- A segment is 24 region units of 256 MiB. -/
theorem segOf_eq_unit_div (la : Nat) : segOf la = la * 64 / 0x10000000 / 24 := by
  rw [segOf_eq_offset_div, Nat.div_div_eq_div_mul]

theorem segOf_eq_iff_unit (k la : Nat) :
    segOf la = k ↔ 24 * k ≤ la * 64 / 0x10000000 ∧ la * 64 / 0x10000000 ≤ 24 * k + 23 := by
  rw [segOf_eq_unit_div]
  omega

/-- The directory store (R124) lies in the last 2 GiB of segment 510 and in segment 511. -/
theorem storeBase_eq : storeBase = 511 * 0x180000000 - 0x80000000 := rfl

theorem segOf_of_storeBase_le {la : Nat} (hlo : storeBase ≤ la * 64) (hhi : la * 64 < 512 * 0x180000000) :
    segOf la = 510 ∨ segOf la = 511 := by
  rw [storeBase_eq] at hlo
  rw [segOf_eq_offset_div]
  omega

end Sys2Proof.Machine

open Sys2Proof.Machine

/-- Settles O55: a segment is a quotient of the node offset, from which its bounds in offsets and in region units follow. -/
theorem segmentOfALine : Obligations.SegmentOfALine :=
  ⟨fun la => ⟨segOf_eq_offset_div la, rfl⟩, segOf_eq_iff_offset, segOf_eq_iff_unit, storeBase_eq, fun _ => segOf_of_storeBase_le⟩
end

section
/-! The parts of the core that no operation changes but SVN_ADVANCE and the issue of a Proof: the options, the fuses, the waiting
commands and the number of the latest Proof. The memory channels change the DRAM beside them, the commit cycle the epochs, and the
resets both. -/
namespace Sys2Proof.Machine

open Reg

/-- The core without the DRAM and the epochs. -/
def Core.lasting (c : Core) : Options × Fuses × List Instr × Nat := (c.opts, c.fuses, c.pending, c.pseq)

/-- The lasting parts do not depend on the DRAM and the epochs of a state's core. -/
@[simp] theorem Core.lasting_mk (t : State) (d : List Host.Cell) (o e : Nat) (b : Bool) :
    (Core.mk t.opts t.fuses t.pending d o e b t.zm3.pseq).lasting = t.core.lasting := rfl

@[simp] theorem Core.lasting_if {c : Prop} [Decidable c] (a b : Core) :
    (if c then a else b).lasting = if c then a.lasting else b.lasting := apply_ite ..

@[simp] theorem State.lasting_foldl {β : Type} (f : State → β → State) (h : ∀ a b, (f a b).core.lasting = a.core.lasting) (l : List β)
    (s : State) : (l.foldl f s).core.lasting = s.core.lasting := foldl_keeps (fun s : State => s.core.lasting) f h l s

/-! ### Memory channels -/

theorem State.lasting_acceptGroupEntry (s : State) (q : Nat) (e : Entry) (rce ci : Nat) (cmds : List Cmd) :
    (s.acceptGroupEntry q e rce ci cmds).core.lasting = s.core.lasting := by
  unfold State.acceptGroupEntry
  split
  · rfl
  · dsimp only
    split
    · simp
    next h =>
      split
      · rfl
      · rw [State.core_pushEntries, State.lasting_foldl _ (fun u _ => by simp)]
        simp [State.core_acceptGroup h]

@[simp] theorem State.lasting_acceptEntry (s : State) (q : Nat) (e : Entry) : (s.acceptEntry q e).core.lasting = s.core.lasting := by
  unfold State.acceptEntry
  split
  · exact State.lasting_acceptGroupEntry ..
  · dsimp only
    split <;> simp

@[simp] theorem State.lasting_cmdData (s : State) (q : Nat) (e : Entry) (x : Cmd) : (s.cmdData q e x).core.lasting = s.core.lasting := by
  cases x with
  | rd => simp [State.cmdData]
  | vaa => dsimp only [State.cmdData]; split <;> rfl
  | _ => rfl

@[simp] theorem State.lasting_issueCmd (s : State) (q : Nat) (e : Entry) (x : Cmd) : (s.issueCmd q e x).core.lasting = s.core.lasting := by
  simp [State.issueCmd]

@[simp] theorem State.lasting_clearStack (s : State) (ch : Nat) : (s.clearStack ch).core.lasting = s.core.lasting := by
  simp [State.clearStack]

@[simp] theorem State.lasting_trained (s : State) (ch : Nat) : (s.trained ch).core.lasting = s.core.lasting := by
  simp [State.trained]

/-! ### The commit cycle and the register writes that reach it -/

@[simp] theorem State.lasting_commitCycle (s : State) : s.commitCycle.core.lasting = s.core.lasting := by
  simp [State.commitCycle, State.openNext]

@[simp] theorem State.lasting_commit (s : State) : s.commit.core.lasting = s.core.lasting := by
  simp [State.commit]

@[simp] theorem State.lasting_commitEnd (s : State) : s.commitEnd.core.lasting = s.core.lasting := by
  simp [State.commitEnd]

@[simp] theorem State.lasting_act (s : State) (h : Hit) (v : Nat) : (s.act h v).core.lasting = s.core.lasting := by
  simp [State.act]

@[simp] theorem State.lasting_takePut (s : State) (src : Src) (p : Put) : (s.takePut src p).core.lasting = s.core.lasting := by
  unfold State.takePut
  dsimp only
  split <;> simp

@[simp] theorem State.lasting_writeFields (s : State) (src : Src) (addr : Nat) (puts : List Put) :
    (s.writeFields src addr puts).core.lasting = s.core.lasting := by
  simp [State.writeFields]

@[simp] theorem State.lasting_writeReg (s : State) (src : Src) (addr val : Nat) :
    (s.writeReg src addr val).core.lasting = s.core.lasting := by
  simp [State.writeReg]

@[simp] theorem State.lasting_write (s : State) (src : Src) (addr val : Nat) : (s.write src addr val).core.lasting = s.core.lasting := by
  simp [State.write]

@[simp] theorem State.lasting_writeSized (s : State) (src : Src) (addr : Nat) (size : AccSize) (val : Nat) :
    (s.writeSized src addr size val).core.lasting = s.core.lasting := by
  simp [State.writeSized]

@[simp] theorem State.lasting_ioAccess (s : State) (p : Nat) (write : Bool) (addr : Nat) (dw : BitVec 4 × Word) :
    (s.ioAccess p write addr dw).core.lasting = s.core.lasting := by
  simp [State.ioAccess]

/-! ### Boot and resets -/

@[simp] theorem State.lasting_applyProfile (s : State) : s.applyProfile.core.lasting = s.core.lasting := by
  simp [State.applyProfile]

@[simp] theorem State.lasting_wardenStarts (s : State) (c : Nat) (cold : Bool) :
    (s.wardenStarts c cold).core.lasting = s.core.lasting := by
  simp [State.wardenStarts]

@[simp] theorem State.lasting_boot (s : State) (first cause : Nat) (cold : Bool) :
    (s.boot first cause cold).core.lasting = s.core.lasting := by
  unfold State.boot
  dsimp only
  split <;> simp

/-- Both resets keep the ZM-3, and with it the number of its latest Proof. -/
@[simp] theorem State.lasting_resetBase (s : State) : s.resetBase.core.lasting = s.core.lasting := rfl

@[simp] theorem State.lasting_warmBase (s : State) (kept : Bool) : (s.warmBase kept).core.lasting = s.core.lasting := rfl

@[simp] theorem State.lasting_warmReset (s : State) (cause : Nat) (lost : Bool) :
    (s.warmReset cause lost).core.lasting = s.core.lasting := by
  simp [State.warmReset]

end Sys2Proof.Machine
end

section
/-! Which commands may change something lasting, and that every other keeps it, the resets among them. -/

namespace Sys2Proof

/-- Whether a command may change a lasting part of the core: SVN_ADVANCE (fuses) and the Proof of a closed job. -/
def Instr.changesLasting : Instr → Bool
  | .svnAdvance | .zm3JobClose _ _ _ _ _ => true
  | _ => false

end Sys2Proof

namespace Sys2Proof.Machine

open Reg

/-- The lasting parts of a state's core. -/
def State.lasting (s : State) : Options × Fuses × List Instr × Nat := s.core.lasting

variable (s : State)

theorem keepsLasting_execQueueAccept (q : Fin 96) : Keeps State.lasting s (execQueueAccept q s) := by
  refine keeps_onBlk (keeps_ite.2 ⟨fun _ => ?_, by simp⟩)
  split <;> simp [State.lasting]

theorem keepsLasting_execMchCommandIssue (q : Fin 96) : Keeps State.lasting s (execMchCommandIssue q s) := by
  refine keeps_onBlk (keeps_ite.2 ⟨by simp, fun _ => keeps_ite.2 ⟨fun _ => by simp [State.lasting], fun _ => ?_⟩⟩)
  split
  · simp
  · split <;> simp [State.lasting]

theorem keepsLasting_execTrainingDone (ch : Fin 48) (page : Bytes) (fail : Option (BitVec 4)) :
    Keeps State.lasting s (execTrainingDone ch page fail s) := by
  refine keeps_onBlk (keeps_ite.2 ⟨by simp, fun _ => ?_⟩)
  cases fail <;> simp [State.lasting]

theorem keepsLasting_execMmioWr (p : Fin 16) (m : Msg) : Keeps State.lasting s (execMmioWr p m s) := by
  unfold execMmioWr
  split
  next => simp
  next h => simp [State.lasting, State.core_portIn _ _ _ _ _ _ _ h]
  next h => dsimp only; split <;> simp [State.lasting, State.core_portIn _ _ _ _ _ _ _ h]

theorem keepsLasting_execCxlIoAccess (p : Fin 16) (write : Bool) (addr : CxlIo) (dws : List (BitVec 4 × Word)) :
    Keeps State.lasting s (execCxlIoAccess p write addr dws s) := by
  unfold execCxlIoAccess
  refine keeps_ite.2 ⟨by simp, fun _ => ?_⟩
  cases addr with
  | bar0 off =>
    refine keeps_ite.2 ⟨fun _ => by simp [State.lasting], fun _ => keeps_next.2 ?_⟩
    exact foldl_keeps (fun a : State × Nat => a.1.core.lasting) _ (fun a dw => State.lasting_ioAccess ..) dws _
  | hdm n => simp [State.lasting]

theorem keepsLasting_execWarmResetAssert : Keeps State.lasting s (execWarmResetAssert s) := by
  unfold execWarmResetAssert
  split <;> simp [State.lasting]

/-- What a command keeps of the core, it keeps of the lasting parts. -/
theorem Keeps.lasting_of_core {o : Host.Outcome State Fault Refusal} (h : Keeps State.core s o) : Keeps State.lasting s o :=
  fun t ht => congrArg Core.lasting (h t ht)

/-- Most commands keep the whole core; of the others each is followed to what it changes. -/
theorem exec_keepsLasting (c : Instr) (h : c.changesLasting = false) : Keeps State.lasting s (exec c s) := by
  cases c with
  | svnAdvance | zm3JobClose => cases h
  | queueAccept => exact keepsLasting_execQueueAccept s _
  | mchCommandIssue => exact keepsLasting_execMchCommandIssue s _
  | trainingDone => exact keepsLasting_execTrainingDone s _ _ _
  | commit | commitDone => exact keeps_onBlk (by simp [State.lasting])
  | registerWrite | pairLowerWrite | pairUpperWrite | intForce | intEnWrite | intRouteWrite | blkLockSet =>
    exact keeps_next.2 (by simp [State.lasting])
  | mmioWr => exact keepsLasting_execMmioWr s _ _
  | cxlIoAccess => exact keepsLasting_execCxlIoAccess s _ _ _ _
  | configReady | coldReset | refReturnReset | hbStall => exact keeps_ite.2 (by simp [State.lasting])
  | warmResetAssert => exact keepsLasting_execWarmResetAssert s
  | _ => exact Keeps.lasting_of_core s (exec_keepsCore _ s rfl)

end Sys2Proof.Machine
end

section
/-! The numbers of the Proofs (R416): the close of an open job takes the next one, and nothing else changes the latest. -/
namespace Sys2Proof.Machine

theorem State.pseq_core (s : State) : s.core.pseq = s.zm3.pseq := rfl

/-! ### A Proof issued -/

theorem State.pseq_issueProof (s : State) (j : ZJob) (last ends : Nat) (unmet : List Nat) :
    (s.issueProof j last ends unmet).zm3.pseq = s.zm3.pseq + 1 := by
  unfold State.issueProof
  dsimp only
  split <;> rfl

/-- The Proof just issued ends the journal, unacknowledged: its signed bytes and the signature of these under the module's one key. -/
theorem State.getLast?_journal_issueProof (s : State) (j : ZJob) (last ends : Nat) (unmet : List Nat) :
    ∃ m, (s.issueProof j last ends unmet).zm3.journal.getLast? = some (s.zm3.pseq + 1, m ++ edSign Config.zm3Seed m, false) := by
  refine ⟨s.zm3.signed (proofBody j (s.zm3.pseq + 1) last ends unmet) s.zm3.prev, ?_⟩
  unfold State.issueProof
  dsimp only
  split <;> exact List.getLast?_concat ..

/-! ### The close of a job -/

/-- A close either issues the Proof of an open job it names, or is discarded since no open job is the one it names. -/
theorem execZm3JobClose_cases (tid : BitVec 8) (job : BitVec 20) (interval : Word) (flags : BitVec 3) (unmet : List (BitVec 64))
    (s : State) :
    (∃ j last ends us, execZm3JobClose tid job interval flags unmet s = .next (s.issueProof j last ends us)) ∨
      s.zm3.jobs.any (fun j => j.tid == tid.toNat && j.job == job.toNat) = false ∧
        execZm3JobClose tid job interval flags unmet s = .next (s.zm3Discard fyJobClose) := by
  unfold execZm3JobClose
  split
  · exact .inl ⟨_, _, _, _, rfl⟩
  next h => exact .inr ⟨by simpa using h, rfl⟩

/-- The close of a job leaves PSEQ or raises it by one. -/
theorem pseq_execZm3JobClose {tid : BitVec 8} {job : BitVec 20} {interval : Word} {flags : BitVec 3} {unmet : List (BitVec 64)}
    {s t : State} (h : execZm3JobClose tid job interval flags unmet s = .next t) :
    t.zm3.pseq = s.zm3.pseq ∨ t.zm3.pseq = s.zm3.pseq + 1 := by
  obtain ⟨j, last, ends, us, hc⟩ | ⟨-, hc⟩ := execZm3JobClose_cases tid job interval flags unmet s
  · cases hc.symm.trans h
    exact .inr (State.pseq_issueProof ..)
  · cases hc.symm.trans h
    exact .inl rfl

/-! ### The other commands -/

/-- SVN_ADVANCE raises the floor in the fuses and issues no Proof. -/
theorem keepsPseq_execSvnAdvance (s : State) : Keeps (fun u => u.core.pseq) s (execSvnAdvance s) := by
  refine keeps_onBlk (keeps_next.2 ?_)
  unfold State.mbxRun
  split
  · simp [apply_ite Core.pseq, State.pseq_core]
  · rfl

/-- A command leaves PSEQ, or it is the close of a job and raises PSEQ by one. -/
theorem exec_pseq {c : Instr} {s t : State} (h : exec c s = .next t) :
    t.zm3.pseq = s.zm3.pseq ∨
      t.zm3.pseq = s.zm3.pseq + 1 ∧ ∃ tid job interval flags unmet, c = .zm3JobClose tid job interval flags unmet := by
  cases c with
  | zm3JobClose => exact (pseq_execZm3JobClose h).imp_right fun hp => ⟨hp, _, _, _, _, _, rfl⟩
  | svnAdvance => exact .inl (keepsPseq_execSvnAdvance s t h)
  | _ => exact .inl (congrArg (fun l => l.2.2.2) (exec_keepsLasting s _ rfl t h))

end Sys2Proof.Machine

open Sys2Proof.Machine

/-- Settles O52: the close of an open job issues a Proof, every other command keeps the lasting parts of the core or advances the
floor in the fuses, and the tick keeps the core. -/
theorem proofNumbers : Obligations.ProofNumbers := by
  refine ⟨rfl, fun s tid job interval flags unmet hopen => ?_, fun c s t h hne => (exec_pseq h).resolve_left hne, fun s => ?_⟩
  · obtain ⟨j, last, ends, us, hc⟩ | ⟨hnone, -⟩ := execZm3JobClose_cases tid job interval flags unmet s
    · exact ⟨_, hc, State.pseq_issueProof .., State.getLast?_journal_issueProof ..⟩
    · cases hopen.symm.trans hnone
  · exact congrArg Core.pseq (State.core_tick s)
end

section
/-! The security version floor (R477): SVN_ADVANCE raises it to the running image's SVN outside a trial, and nothing lowers it. -/
namespace Sys2Proof.Machine

open Reg

/-! ### A mailbox command that runs, and the answer it leaves -/

/-- The mailbox performs the command that it runs. -/
theorem State.mbxRun_of_busy {s : State} {code len : Nat} {core : Bool} (f : State → Nat → State)
    (h : s.warden.busy = some (code, len, core)) : s.mbxRun code f = f s len := by
  simp [State.mbxRun, h]

/-- The result of a command is eight bits wide, and neither MBX_DONE nor its interrupt changes it. -/
theorem State.rd_result_mbxEnd (s : State) (result : Nat) (out : List Byte) :
    (s.mbxEnd result out).rd WARDEN_MBX_RESULT = result % 2 ^ 8 := by
  unfold State.mbxEnd
  rw [State.rd_raise_ne _ _ _ (by decide), State.rd_wr_ne _ _ (by decide), State.rd_wr_same]
  rfl

@[simp] theorem State.mbxEnd_fuses (s : State) (result : Nat) (out : List Byte) : (s.mbxEnd result out).fuses = s.fuses :=
  congrArg Core.fuses (State.core_mbxEnd s result out)

/-- A mailbox that runs another command, or none, stays as it is. -/
theorem State.mbxRun_cases (s : State) (code : Nat) (f : State → Nat → State) :
    s.mbxRun code f = s ∨ ∃ len, s.mbxRun code f = f s len := by
  unfold State.mbxRun
  split
  next len _ _ => exact (ite_eq_or_eq ..).symm.imp_right fun h => ⟨len, h⟩
  next => exact .inl rfl

/-! ### What SVN_ADVANCE does -/

/-- The fuses with the floor raised to the running image's SVN where that is higher. -/
def State.advancedFuses (s : State) : Fuses := { s.fuses with svnFloor := max s.fuses.svnFloor (s.rd WARDEN_RUN_SVN) }

theorem State.svnFloor_le_advancedFuses (s : State) : s.fuses.svnFloor ≤ s.advancedFuses.svnFloor := le_max_left ..

/-- The effect of SVN_ADVANCE: STATE in a trial, else the fuses burnt and OK. -/
def State.svnAdvance (s : State) : State :=
  if s.rd WARDEN_TRIAL = 1 then s.mbxEnd mrState else { s with fuses := s.advancedFuses }.mbxEnd mrOK

theorem State.svnAdvance_of_trial {s : State} (h : s.rd WARDEN_TRIAL = 1) : s.svnAdvance = s.mbxEnd mrState := if_pos h

theorem State.svnAdvance_of_no_trial {s : State} (h : s.rd WARDEN_TRIAL = 0) :
    s.svnAdvance = { s with fuses := s.advancedFuses }.mbxEnd mrOK := if_neg (by simp [h])

theorem State.svnAdvance_fuses (s : State) : s.svnAdvance.fuses = s.fuses ∨ s.svnAdvance.fuses = s.advancedFuses := by
  unfold State.svnAdvance
  split
  · exact .inl (State.mbxEnd_fuses ..)
  · exact .inr (State.mbxEnd_fuses ..)

theorem execSvnAdvance_eq (s : State) :
    execSvnAdvance s = s.onBlk pgWARDEN (.next (s.mbxRun 0x24 fun s _ => s.svnAdvance)) := rfl

theorem exec_svnAdvance_of_busy {s : State} {len : Nat} {core : Bool} (hacts : s.acts pgWARDEN = true)
    (hbusy : s.warden.busy = some (0x24, len, core)) : exec .svnAdvance s = .next s.svnAdvance :=
  (State.onBlk_acts _ hacts).trans (congrArg _ (State.mbxRun_of_busy _ hbusy))

/-! ### The fuses under every command -/

/-- SVN_ADVANCE leaves the fuses, as when the Warden does not act or runs another command, or raises the floor in them. -/
theorem fuses_execSvnAdvance {s t : State} (h : execSvnAdvance s = .next t) : t.fuses = s.fuses ∨ t.fuses = s.advancedFuses := by
  rw [execSvnAdvance_eq, State.onBlk] at h
  split at h
  · cases h
    exact .inl rfl
  · cases h
    obtain hrun | ⟨len, hrun⟩ := s.mbxRun_cases 0x24 fun s _ => s.svnAdvance
    · exact .inl (congrArg State.fuses hrun)
    · rw [hrun]
      exact s.svnAdvance_fuses

@[simp] theorem State.issueProof_fuses (s : State) (j : ZJob) (last ends : Nat) (unmet : List Nat) :
    (s.issueProof j last ends unmet).fuses = s.fuses := by
  unfold State.issueProof
  dsimp only
  split <;> rfl

/-- A command leaves the fuses, or it is SVN_ADVANCE and raises the floor in them. -/
theorem exec_fuses {c : Instr} {s t : State} (h : exec c s = .next t) :
    t.fuses = s.fuses ∨ c = .svnAdvance ∧ t.fuses = s.advancedFuses := by
  cases c with
  | svnAdvance => exact (fuses_execSvnAdvance h).imp_right fun hf => ⟨rfl, hf⟩
  | zm3JobClose tid job interval flags unmet =>
    obtain ⟨j, last, ends, us, hc⟩ | ⟨-, hc⟩ := execZm3JobClose_cases tid job interval flags unmet s
    · cases hc.symm.trans h
      exact .inl (State.issueProof_fuses ..)
    · cases hc.symm.trans h
      exact .inl rfl
  | _ => exact .inl (congrArg (fun l => l.2.1) (exec_keepsLasting s _ rfl t h))

/-- No command lowers the floor. -/
theorem svnFloor_le_of_exec {c : Instr} {s t : State} (h : exec c s = .next t) : s.fuses.svnFloor ≤ t.fuses.svnFloor := by
  obtain hf | ⟨-, hf⟩ := exec_fuses h
  · rw [hf]
  · rw [hf]
    exact s.svnFloor_le_advancedFuses

/-- Neither the front command nor the tick lowers the floor. -/
theorem svnFloor_le_of_step {s t : State} (h : step s = .next t) : s.fuses.svnFloor ≤ t.fuses.svnFloor := by
  unfold step at h
  split at h
  · cases h
    exact (congrArg (fun c => c.fuses.svnFloor) (State.core_tick s)).ge
  next c rest _ => exact svnFloor_le_of_exec (s := { s with pending := rest }) h

end Sys2Proof.Machine

open Sys2Proof.Machine

/-- Settles O51: SVN_ADVANCE answers STATE in a trial and else burns the higher floor; every other command keeps the lasting parts of
the core or issues a Proof, and the tick keeps the core. -/
theorem securityVersionFloor : Obligations.SecurityVersionFloor := by
  refine ⟨fun s len core hacts hbusy htrial => ?_, fun s len core hacts hbusy htrial => ?_, fun s t => svnFloor_le_of_step⟩
  · refine ⟨_, exec_svnAdvance_of_busy hacts hbusy, ?_⟩
    rw [State.svnAdvance_of_no_trial htrial]
    exact ⟨State.mbxEnd_fuses .., State.rd_result_mbxEnd ..⟩
  · refine ⟨_, exec_svnAdvance_of_busy hacts hbusy, ?_⟩
    rw [State.svnAdvance_of_trial htrial]
    exact ⟨State.mbxEnd_fuses .., State.rd_result_mbxEnd ..⟩
end

section
/-! The DRAM and the epochs under every command. A command keeps the core, or it reaches the commit cycle and leaves the DRAM, or it
stores in the DRAM and leaves the epochs, or it is a reset. -/
namespace Sys2Proof.Machine

open Reg

/-- The epochs paired, said of the core. -/
def Core.Paired (c : Core) : Prop :=
  c.opened < 256 ∧ c.drained < 256 ∧ c.opened = if c.commits then (c.drained + 1) % 256 else c.drained

theorem State.epochsPaired_iff (s : State) : s.epochsPaired = true ↔ s.core.Paired := by
  unfold State.epochsPaired Core.Paired State.core
  cases s.commitPending <;> simp [and_assoc]

theorem State.dram_eq_core (s : State) : s.dram = s.core.dram := rfl

/-! ### What reaches the commit cycle -/

/-- From one core to another as a commit or its end changes it: the DRAM stays, and paired epochs stay paired. -/
structure Core.CommitsTo (c d : Core) : Prop where
  dram : d.dram = c.dram
  paired : c.Paired → d.Paired

namespace Core.CommitsTo

variable {c d e : Core}

@[simp] theorem refl (c : Core) : CommitsTo c c := ⟨rfl, id⟩

theorem of_eq (h : d = c) : CommitsTo c d := h ▸ refl c

theorem trans (h : CommitsTo c d) (h' : CommitsTo d e) : CommitsTo c e := ⟨h'.dram.trans h.dram, h'.paired ∘ h.paired⟩

@[simp] theorem ite_right {p : Prop} [Decidable p] : CommitsTo c (if p then d else e) ↔ (p → CommitsTo c d) ∧ (¬p → CommitsTo c e) := by
  split <;> simp [*]

theorem foldl {β : Type} {f : State → β → State} (h : ∀ a b, CommitsTo a.core (f a b).core) (l : List β) (s : State) :
    CommitsTo s.core (l.foldl f s).core := by
  induction l generalizing s with
  | nil => exact refl _
  | cons b l ih => exact (h s b).trans (ih _)

end Core.CommitsTo

/-- A commit cycle opens the next epoch and lets the present one drain (R50). -/
theorem State.core_commitCycle (s : State) :
    s.commitCycle.core = { s.core with opened := (s.openEpoch + 1) % 256, drained := s.openEpoch, commits := true } := by
  simp [State.commitCycle, State.openNext]
  exact ⟨rfl, rfl, rfl, rfl, rfl⟩

theorem State.commitsTo_commitCycle (s : State) : s.core.CommitsTo s.commitCycle.core := by
  rw [s.core_commitCycle]
  exact ⟨rfl, fun ⟨ho, _, _⟩ => ⟨Nat.mod_lt _ (by decide), ho, rfl⟩⟩

@[simp] theorem State.commitsTo_commit (s : State) : s.core.CommitsTo s.commit.core := by
  simp [State.commit, s.commitsTo_commitCycle]

/-- The end of a commit makes the open epoch the draining one as well (R52). -/
theorem State.core_commitEnd (s : State) : s.commitEnd.core = { s.core with drained := s.openEpoch, commits := false } := by
  have hs : ((channels.foldl (fun (s : State) ch => s.fallMask ch) s).xlatDrained).core = s.core := by simp
  simp only [State.commitEnd, State.core_raise, State.core_wr]
  generalize ((channels.foldl (fun (s : State) ch => s.fallMask ch) s).xlatDrained) = u at hs
  have ho : u.openEpoch = s.openEpoch := congrArg Core.opened hs
  rw [← hs, ← ho]
  rfl

theorem State.commitsTo_commitEnd (s : State) : s.core.CommitsTo s.commitEnd.core := by
  rw [s.core_commitEnd]
  exact ⟨rfl, fun ⟨ho, _, _⟩ => ⟨ho, ho, rfl⟩⟩

/-- Of the fields that act when written, only COMMIT reaches the epochs. -/
theorem State.commitsTo_act (s : State) (h : Hit) (v : Nat) : s.core.CommitsTo (s.act h v).core := by
  simp [State.act]

theorem State.commitsTo_takePut (s : State) (src : Src) (p : Put) : s.core.CommitsTo (s.takePut src p).core := by
  obtain ⟨h, v⟩ := p
  simp only [State.takePut]
  cases h.f.acc with
  | w1s | wo => exact s.commitsTo_act h v
  | _ => simp

theorem State.commitsTo_writeFields (s : State) (src : Src) (addr : Nat) (puts : List Put) :
    s.core.CommitsTo (s.writeFields src addr puts).core := by
  have hputs (l : List Put) (u : State) : u.core.CommitsTo (l.foldl (fun (s : State) p => s.takePut src p) u).core :=
    .foldl (fun a p => a.commitsTo_takePut src p) l u
  unfold State.writeFields
  exact .trans (.trans (.of_eq (by simp)) (hputs _ _)) (hputs _ _)

theorem State.commitsTo_writeReg (s : State) (src : Src) (addr val : Nat) : s.core.CommitsTo (s.writeReg src addr val).core := by
  have hfields (u : State) (hu : u.core = s.core) (puts : List Put) : s.core.CommitsTo (u.writeFields src addr puts).core :=
    hu ▸ u.commitsTo_writeFields src addr puts
  simp only [State.writeReg, State.core_if, Core.CommitsTo.ite_right]
  simp [hfields]

theorem State.commitsTo_write (s : State) (src : Src) (addr val : Nat) : s.core.CommitsTo (s.write src addr val).core := by
  simp [State.write, s.commitsTo_writeReg]

theorem State.commitsTo_writeSized (s : State) (src : Src) (addr : Nat) (size : AccSize) (val : Nat) :
    s.core.CommitsTo (s.writeSized src addr size val).core := by
  simp [State.writeSized, s.commitsTo_write]

theorem State.commitsTo_ioAccess (s : State) (p : Nat) (write : Bool) (addr : Nat) (dw : BitVec 4 × Word) :
    s.core.CommitsTo (s.ioAccess p write addr dw).core := by
  simp [State.ioAccess, s.commitsTo_writeReg]

/-! ### Boot and the warm resets -/

/-- The bring-up profile's commit ends at once (R480). -/
theorem State.commitsTo_applyProfile (s : State) : s.core.CommitsTo s.applyProfile.core := by
  have hcommit (u : State) (hu : u.core = s.core) : s.core.CommitsTo u.commitCycle.commitEnd.core :=
    hu ▸ u.commitsTo_commitCycle.trans u.commitCycle.commitsTo_commitEnd
  simp only [State.applyProfile]
  rw [State.core_foldl _ (fun _ _ => by simp)]
  exact hcommit _ (by simp)

theorem State.commitsTo_wardenStarts (s : State) (c : Nat) (cold : Bool) : s.core.CommitsTo (s.wardenStarts c cold).core := by
  have hprofile (u : State) (hu : u.core = s.core) : s.core.CommitsTo u.applyProfile.core :=
    .trans (.of_eq hu) u.commitsTo_applyProfile
  simp only [State.wardenStarts, State.core_out, State.core_wr]
  generalize packBits [(0, 1, b2n s.opts.c), (1, 1, b2n s.opts.k), (2, 1, b2n s.opts.w)] = found
  exact hprofile _ (by simp)

theorem State.commitsTo_boot (s : State) (first cause : Nat) (cold : Bool) : s.core.CommitsTo (s.boot first cause cold).core := by
  unfold State.boot
  dsimp only
  split
  · exact .trans (.of_eq (by simp)) (State.commitsTo_wardenStarts ..)
  · simp

/-- A warm reset keeps the DRAM and begins with no commit pending (R466). -/
theorem State.commitsTo_warmBase (s : State) (kept : Bool) : s.core.CommitsTo (s.warmBase kept).core :=
  ⟨rfl, fun _ => by simp [Core.Paired, State.warmBase, State.resetBase, State.reset, State.core]⟩

theorem State.commitsTo_warmReset (s : State) (cause : Nat) (lost : Bool) : s.core.CommitsTo (s.warmReset cause lost).core := by
  have hboot (u : State) (hu : u.core = (s.warmBase s.memKept).core) (first : Nat) :
      s.core.CommitsTo (u.boot first cause false).core :=
    (s.commitsTo_warmBase s.memKept).trans (hu ▸ u.commitsTo_boot first cause false)
  simp only [State.warmReset, State.core_if, Core.CommitsTo.ite_right]
  refine ⟨fun _ => hboot _ (by simp) _, fun _ => ?_⟩
  rw [State.core_foldl _ (fun _ _ => by simp)]
  exact hboot _ (by simp) _

/-! ### What stores in the DRAM -/

/-- From one core to another as a store in the DRAM changes it: the epochs stay, and a canonical DRAM stays canonical. -/
structure Core.StoresTo (c d : Core) : Prop where
  opened : d.opened = c.opened
  drained : d.drained = c.drained
  commits : d.commits = c.commits
  wf : Memory.wf c.dram = true → Memory.wf d.dram = true

namespace Core.StoresTo

variable {c d e : Core}

@[simp] theorem refl (c : Core) : StoresTo c c := ⟨rfl, rfl, rfl, id⟩

theorem of_eq (h : d = c) : StoresTo c d := h ▸ refl c

theorem trans (h : StoresTo c d) (h' : StoresTo d e) : StoresTo c e :=
  ⟨h'.opened.trans h.opened, h'.drained.trans h.drained, h'.commits.trans h.commits, h'.wf ∘ h.wf⟩

theorem foldl {β : Type} {f : State → β → State} (h : ∀ a b, StoresTo a.core (f a b).core) (l : List β) (s : State) :
    StoresTo s.core (l.foldl f s).core := by
  induction l generalizing s with
  | nil => exact refl _
  | cons b l ih => exact (h s b).trans (ih _)

theorem paired (h : StoresTo c d) (hc : c.Paired) : d.Paired := by
  unfold Core.Paired
  rw [h.opened, h.drained, h.commits]
  exact hc

end Core.StoresTo

/-- A new DRAM that is canonical where the old one is. -/
theorem State.storesTo_setDram (s : State) (m : Memory) (h : Memory.wf s.dram = true → Memory.wf m = true) :
    s.core.StoresTo ({ s with dram := m } : State).core := ⟨rfl, rfl, rfl, h⟩

theorem State.storesTo_acceptGroupEntry (s : State) (q : Nat) (e : Entry) (rce ci : Nat) (cmds : List Cmd) :
    s.core.StoresTo (s.acceptGroupEntry q e rce ci cmds).core := by
  unfold State.acceptGroupEntry
  split
  · simp
  · dsimp only
    split
    · simp
    next h =>
      split
      · simp
      · rw [State.core_pushEntries]
        refine .trans (.of_eq (by simp [State.core_acceptGroup h])) (.foldl (fun u vr => ?_) _ _)
        refine .trans (.of_eq (core_freeRow 160 u [])) (State.storesTo_setDram _ _ fun hm => ?_)
        exact wf_rowPut _ _ _ _ _ _ hm

/-- Of the entries that a queue takes, only a group stores: free values in the scratch rows that it reads unwritten. -/
theorem State.storesTo_acceptEntry (s : State) (q : Nat) (e : Entry) : s.core.StoresTo (s.acceptEntry q e).core := by
  unfold State.acceptEntry
  split
  · exact s.storesTo_acceptGroupEntry ..
  · dsimp only
    split <;> simp

theorem State.storesTo_cmdData (s : State) (q : Nat) (e : Entry) (x : Cmd) : s.core.StoresTo (s.cmdData q e x).core := by
  cases x with
  | rd => simp [State.cmdData]
  | wr => exact s.storesTo_setDram _ (Memory.wf_writeN _ _ _)
  | vaa =>
    dsimp only [State.cmdData]
    split
    · exact s.storesTo_setDram _ (wf_vaaPut _ _ _ _ _ _)
    · simp
  | vtra => exact s.storesTo_setDram _ (wf_vtraPut _ _ _ _ _ _ _)
  | vsts | mpc => simp [State.cmdData]
  | _ => exact .refl _

theorem State.storesTo_issueCmd (s : State) (q : Nat) (e : Entry) (x : Cmd) : s.core.StoresTo (s.issueCmd q e x).core := by
  simp [State.issueCmd, s.storesTo_cmdData]

theorem State.storesTo_clearStack (s : State) (ch : Nat) : s.core.StoresTo (s.clearStack ch).core := by
  let n := 16 * 512 * 523 * rowBytes
  exact .trans (s.storesTo_setDram (Memory.clear s.dram (2 * ch * n) (2 * n)) (Memory.wf_clear _ _ _))
    (.of_eq (State.core_foldl _ (fun _ _ => by simp) _ _))

theorem State.storesTo_trained (s : State) (ch : Nat) : s.core.StoresTo (s.trained ch).core := by
  simp only [State.trained, State.core_wr, State.core_setMch, State.core_if]
  split
  · simp
  · exact s.storesTo_clearStack ch

end Sys2Proof.Machine
end

section
/-! Every step keeps the DRAM canonical and the epochs paired, and only the commands named for it store. -/
namespace Sys2Proof.Machine

open Reg

/-- If an outcome is a next state, its core stands in a relation to the core of `s`. -/
def Leads (R : Core → Core → Prop) (s : State) (o : Host.Outcome State Fault Refusal) : Prop := ∀ t, o = .next t → R s.core t.core

section
variable {R : Core → Core → Prop} {s : State}

@[simp] theorem leads_next {t : State} : Leads R s (.next t) ↔ R s.core t.core :=
  ⟨fun h => h t rfl, fun h _ ht => by cases ht; exact h⟩

@[simp] theorem leads_ite {c : Prop} [Decidable c] {a b : Host.Outcome State Fault Refusal} :
    Leads R s (if c then a else b) ↔ (c → Leads R s a) ∧ (¬c → Leads R s b) := by
  split <;> simp [*]

/-- A block that does not act keeps the core. -/
theorem leads_onBlk (hR : ∀ c, R c c) {p : Nat} {k : Host.Outcome State Fault Refusal} (h : Leads R s k) : Leads R s (s.onBlk p k) := by
  unfold State.onBlk
  simp [h, hR]

theorem Leads.of_keepsCore (hR : ∀ c, R c c) {o : Host.Outcome State Fault Refusal} (h : Keeps State.core s o) : Leads R s o :=
  fun t ht => h t ht ▸ hR s.core

end

variable (s : State)

/-! ### Commands that do not store -/

theorem commitsTo_execMmioWr (p : Fin 16) (m : Msg) : Leads Core.CommitsTo s (execMmioWr p m s) := by
  unfold execMmioWr
  split
  next => simp
  next u h => exact leads_next.2 (.of_eq (State.core_portIn _ _ _ _ _ _ _ h))
  next u h =>
    have hu : s.core.CommitsTo u.core := .of_eq (State.core_portIn _ _ _ _ _ _ _ h)
    dsimp only
    split
    · simp [hu]
    · refine leads_next.2 (hu.trans ?_)
      rw [State.core_sysAnswer, ← State.core_count u 0 0 0 1]
      exact State.commitsTo_writeReg ..

theorem commitsTo_execCxlIoAccess (p : Fin 16) (write : Bool) (addr : CxlIo) (dws : List (BitVec 4 × Word)) :
    Leads Core.CommitsTo s (execCxlIoAccess p write addr dws s) := by
  have hdws (n : Nat) : s.core.CommitsTo
      (dws.foldl (fun (a : State × Nat) dw => (a.1.ioAccess p.val write a.2 dw, (a.2 + 4) % 2 ^ 24)) (s, n)).1.core := by
    induction dws generalizing s n with
    | nil => exact .refl _
    | cons dw dws ih => exact (s.commitsTo_ioAccess p.val write n dw).trans (ih _ _)
  unfold execCxlIoAccess
  refine leads_ite.2 ⟨by simp, fun _ => ?_⟩
  cases addr with
  | bar0 off => exact leads_ite.2 ⟨fun _ => by simp, fun _ => leads_next.2 (hdws _)⟩
  | hdm n => simp

theorem commitsTo_execWarmResetAssert : Leads Core.CommitsTo s (execWarmResetAssert s) := by
  unfold execWarmResetAssert
  split <;> simp [State.commitsTo_warmReset]

theorem commitsTo_execSvnAdvance : Leads Core.CommitsTo s (execSvnAdvance s) := by
  refine leads_onBlk Core.CommitsTo.refl (leads_next.2 ?_)
  obtain hrun | ⟨len, hrun⟩ := s.mbxRun_cases 0x24 fun s _ => s.svnAdvance
  · exact .of_eq (congrArg State.core hrun)
  · refine (congrArg State.core hrun) ▸ ?_
    unfold State.svnAdvance
    split
    · simp
    · exact .trans (⟨rfl, id⟩ : s.core.CommitsTo ({ s with fuses := s.advancedFuses } : State).core) (.of_eq (by simp))

theorem commitsTo_execZm3JobClose (tid : BitVec 8) (job : BitVec 20) (n : Word) (flags : BitVec 3) (unmet : List (BitVec 64)) :
    Leads Core.CommitsTo s (execZm3JobClose tid job n flags unmet s) := by
  obtain ⟨j, last, ends, us, hc⟩ | ⟨-, hc⟩ := execZm3JobClose_cases tid job n flags unmet s
  · rw [hc, leads_next]
    unfold State.issueProof
    dsimp only
    split <;> exact ⟨rfl, id⟩
  · rw [hc]
    simp

/-- A command that does not store keeps the DRAM and leaves paired epochs paired. -/
theorem exec_commitsTo (c : Instr) (h : c.stores = false) : Leads Core.CommitsTo s (exec c s) := by
  cases c with
  | queueAccept | mchCommandIssue | trainingDone | configReady | coldReset => cases h
  | commit => exact leads_onBlk Core.CommitsTo.refl (by simp)
  | commitDone => exact leads_onBlk Core.CommitsTo.refl (by simp [State.commitsTo_commitEnd])
  | registerWrite | pairLowerWrite | pairUpperWrite => exact leads_next.2 (State.commitsTo_writeSized ..)
  | intForce | intEnWrite | intRouteWrite | blkLockSet => exact leads_next.2 (State.commitsTo_write ..)
  | mmioWr => exact commitsTo_execMmioWr s _ _
  | cxlIoAccess => exact commitsTo_execCxlIoAccess s _ _ _ _
  | warmResetAssert => exact commitsTo_execWarmResetAssert s
  | refReturnReset | hbStall => exact leads_ite.2 (by simp [State.commitsTo_warmReset])
  | svnAdvance => exact commitsTo_execSvnAdvance s
  | zm3JobClose => exact commitsTo_execZm3JobClose s _ _ _ _ _
  | _ => exact .of_keepsCore Core.CommitsTo.refl (exec_keepsCore _ s rfl)

/-! ### Commands that store -/

theorem storesTo_execQueueAccept (q : Fin 96) : Leads Core.StoresTo s (execQueueAccept q s) := by
  refine leads_onBlk Core.StoresTo.refl (leads_ite.2 ⟨fun _ => ?_, by simp⟩)
  split
  · exact leads_next.2 (.trans (.of_eq (by simp)) (State.storesTo_acceptEntry ..))
  · simp

theorem storesTo_execMchCommandIssue (q : Fin 96) : Leads Core.StoresTo s (execMchCommandIssue q s) := by
  refine leads_onBlk Core.StoresTo.refl (leads_ite.2 ⟨by simp, fun _ => leads_ite.2 ⟨fun _ => by simp, fun _ => ?_⟩⟩)
  split
  · simp
  · split
    · exact leads_next.2 (.trans (.of_eq (by simp)) (State.storesTo_issueCmd ..))
    · simp
    · simp

theorem storesTo_execTrainingDone (ch : Fin 48) (page : Bytes) (fail : Option (BitVec 4)) :
    Leads Core.StoresTo s (execTrainingDone ch page fail s) := by
  refine leads_onBlk Core.StoresTo.refl (leads_ite.2 ⟨by simp, fun _ => ?_⟩)
  cases fail with
  | some k => simp
  | none =>
    refine leads_ite.2 ⟨fun _ => leads_next.2 (s.storesTo_trained ch), fun _ => leads_next.2 ?_⟩
    split
    · exact .trans (.of_eq (by simp)) (State.storesTo_trained ..)
    · simp

theorem storesTo_execConfigReady : Leads Core.StoresTo s (execConfigReady s) := by
  refine leads_ite.2 ⟨fun _ => leads_next.2 ?_, by simp⟩
  simp only [State.core_raise, State.core_wr]
  exact ⟨rfl, rfl, rfl, Memory.wf_filter _ _⟩

/-- A cold reset begins with an empty DRAM and no commit pending. -/
theorem coldReset_sound : Leads (fun c d => d = c ∨ Memory.wf d.dram = true ∧ d.Paired) s (execColdReset s) := by
  have hbase : s.resetBase.core.Paired := by simp [Core.Paired, State.resetBase, State.reset, State.core]
  have hsound {d : Core} (h : s.resetBase.core.CommitsTo d) : Memory.wf d.dram = true ∧ d.Paired :=
    ⟨(congrArg Memory.wf h.dram).trans rfl, h.paired hbase⟩
  refine leads_ite.2 ⟨fun _ => leads_next.2 (.inr (hsound (.trans (.of_eq ?_) (State.commitsTo_boot ..)))), by simp⟩
  exact State.core_ready _

/-! ### Steps -/

/-- Every command keeps the DRAM canonical and the epochs paired. -/
theorem exec_sound (c : Instr) :
    Leads (fun a b => (Memory.wf a.dram = true → Memory.wf b.dram = true) ∧ (a.Paired → b.Paired)) s (exec c s) := by
  intro t ht
  have stored (h : s.core.StoresTo t.core) := And.intro h.wf h.paired
  cases c with
  | queueAccept => exact stored (storesTo_execQueueAccept s _ t ht)
  | mchCommandIssue => exact stored (storesTo_execMchCommandIssue s _ t ht)
  | trainingDone => exact stored (storesTo_execTrainingDone s _ _ _ t ht)
  | configReady => exact stored (storesTo_execConfigReady s t ht)
  | coldReset =>
    obtain h | ⟨hwf, hpaired⟩ := coldReset_sound s t ht
    · exact ⟨h ▸ id, h ▸ id⟩
    · exact ⟨fun _ => hwf, fun _ => hpaired⟩
  | _ =>
    have h : s.core.CommitsTo t.core := exec_commitsTo s _ rfl t ht
    exact ⟨fun hm => h.dram ▸ hm, h.paired⟩

/-- So does every step: the tick keeps the core. -/
theorem step_sound {s t : State} (h : step s = .next t) :
    (Memory.wf s.dram = true → Memory.wf t.dram = true) ∧ (s.core.Paired → t.core.Paired) := by
  unfold step at h
  split at h
  · cases h
    have hcore : s.tick.core = s.core := State.core_tick s
    have hdram : s.tick.dram = s.dram := congrArg Core.dram hcore
    exact ⟨fun hm => hdram.symm ▸ hm, hcore ▸ id⟩
  next c rest _ => exact exec_sound { s with pending := rest } c t h

end Sys2Proof.Machine

open Sys2Proof.Machine

/-- Settles O48: the tick and most commands keep the DRAM; those that store do so by operations that keep its canonical form. -/
theorem memoryStaysCanonical : Obligations.MemoryStaysCanonical := fun _ _ hwf h => (step_sound h).1 hwf

/-- Settles O49: the epochs change at a commit cycle, at its end and at a reset, each of which leaves them paired. -/
theorem epochsStayPaired : Obligations.EpochsStayPaired := fun s t hpaired h =>
  t.epochsPaired_iff.2 ((step_sound h).2 (s.epochsPaired_iff.1 hpaired))

/-- Settles O53: a command that is none of those named reaches at most the commit cycle, and the tick keeps the core. -/
theorem onlyTheseCommandsStore : Obligations.OnlyTheseCommandsStore :=
  ⟨fun c s t h hc => (exec_commitsTo s c hc t h).dram, fun s => congrArg Core.dram (State.core_tick s)⟩
end

section
/-! Every command answers: whatever its conditions and its case analysis, each of its branches ends in a next state. -/
namespace Sys2Proof.Machine

/-- An outcome that is a next state. -/
def Answers (o : Host.Outcome State Fault Refusal) : Prop := ∃ t, o = .next t

@[simp] theorem answers_next (t : State) : Answers (.next t) := ⟨t, rfl⟩

@[simp] theorem answers_ite {c : Prop} [Decidable c] {a b : Host.Outcome State Fault Refusal} :
    Answers (if c then a else b) ↔ (c → Answers a) ∧ (¬c → Answers b) := by
  split <;> simp [*]

/-- A block that does not act answers the state as it is. -/
theorem answers_onBlk {s : State} {p : Nat} {k : Host.Outcome State Fault Refusal} (h : Answers k) : Answers (s.onBlk p k) := by
  unfold State.onBlk
  simp [h]

variable (s : State)

theorem exec_answers (c : Instr) : Answers (exec c s) := by
  cases c with
  -- A mailbox command, a micro-op, a sequenced message, or an event with one effect.
  | keyLoad | keyRotate | keyErase | linkKeyLoad | meterEnroll | meterForget | ping | getInfo | getIdcert | admitKeys | warmReset
  | blockReset | profileWrite | rmapForget | imageConfirm => exact answers_onBlk (answers_next _)
  | nop | br | bz | bnz | bltu | loop | call | endOp | lci | lcx | csync | csw | cscp | li | lih | addi | sub | andOp | orOp | xorOp
  | shli | shri | movlc | grp | sload | sneg | stra | waitl | waitg => exact answers_onBlk (answers_next _)
  | twLine | twDelta | twBake | twBakeEnd | twHandover | twSynced => exact answers_onBlk (answers_next _)
  | twAck | twBakeRsp | twRenew | twRenewAck => exact answers_onBlk (answers_next _)
  | discard | drainSlow | nakRepeat | ackTimer | creditReturnTimer | tagGroupClose | params | creditInit | credit | recover | down
  | retrain | keySwitchWrite | enableWrite | trainingStepDone | cxlLinkDown | rdS | rdOwn | upg | rdCur | wrFull | wrPtl | wb | clnEvict
  | jobOpen | jobClose | requestAdmit | bucketRefill | loadUpdate | agentLimitStep | probeGo | agentAdmit | agentNotice | agentReadmit
  | regionWord1Write | regionWord0Write | recallGo | refreshPlacement | statusPlacement | segClearDone | stackRailsGood
  | retrainPlacement | parityAlert | mchPowerEntry | patrolPlacement | scrubRateStep | sliceBoundary | ptClear | btClear | staleFlush
  | evlogTailWrite | rescanGo | bakeSub | bakeAbort | planLoad | planUnload | refillDone | hpqTailWrite | go | resume | abandon | release
  | migrLineTxn | migrAckTimer | twAckTimer | renewTimer | fenceDeadline | autoJoinTimer | claim | join | solo | leave | meterLinkSync
  | meterLinkLost | meterFrameResend | meterAckTimer | intervalMark | intervalLocalClose | proofTailWrite | referenceLoss | pllPark
  | pllFastStartDone | pllLockLoss | blockNapEntry | blockDozeEntry | blockOffEntry | blockWakeDone | tjSample | tjReport
  | wardenHeartbeat | coreLockup | trialTimeout | mbxClaim | mbxRelease | meterLinkOutOfSync | null | coldLockDone | cxlMailboxCommand
  | commit | commitDone | ident | status | proof | alarm | svnAdvance | profileRead | imageWrite | imageCheck | imagePrefer | getTpk
  | slotErased =>
    exact answers_onBlk (by simp)
  -- An event outside the blocks.
  | pairLowerRead | rcRead | wmkCrossedRead | wmkExtremeRead | zm3Presence | hsFastTrip | hsTimerTrip | hsOvervoltage | gracefulShutdown
  | standbySupplyLoss | managerReset | registerWrite | pairLowerWrite | pairUpperWrite | intForce | intEnWrite | intRouteWrite
  | blkLockSet | strapSample | zm3TallyEnd => exact answers_next _
  | zm3JobOpen | thermtrip | tmcLost | hsEnable | hsRetry | shutdownCommit | shutdownDrainLimit | hardCut | trayRestart | leakDetect
  | leakDetectorReset | watchdogExpiry | pinFunctionSwitch | chassisResetOn | forceOff | powerCycle | bootSourceOverride | zm3ProofAck
  | tmcFirmwareUpdate | internalError | configReady | coldReset | refReturnReset | hbStall | zm3Hello | tmcMirrorUpdate
  | coolingUpdate | tmcBoot | presenceDebounce | bankCapacitanceTest =>
    exact answers_ite.2 (by simp)
  | add form =>
    cases form <;> exact answers_onBlk (answers_next _)
  -- An event with a case analysis of its own.
  | snpAck | snpAckD | dataRelay | migrStart | migrLine | resolve | recallDone | planUnloadDone | ret | gend | gendRelease
  | lane | laneRelease | waitRelease | statusWordWrite | moveTimeout | takeover | keySwitch | lossOfSignal
  | trainAttemptTimeout | linkTimeout | jobCloseEffect | queueAccept | mchCommandIssue =>
    refine answers_onBlk ?_
    repeat' split
    all_goals exact answers_next _
  | sysRsp | xinv | xsync | twJoin | migrAck | migrDone | walkDone | homeOrder | snpSlow | sweepStep | sweepEnd | rekeyIssue
  | rmapCopyPlace | rescanDone | planImageReadDone | bakeOrder | bakeStart | recordWrite | xsyncDone | windowBoundary
  | resyncLine | flitReceive | cxlMemRequest | cxlBirsp | trainingDone =>
    refine answers_onBlk ?_
    dsimp only
    repeat' split
    all_goals exact answers_next _
  | readDataReturn q b =>
    refine answers_onBlk ?_
    dsimp only
    split
    · exact answers_next _
    next r rest _ =>
      refine answers_ite.2 ⟨fun _ => answers_next _, fun _ => ?_⟩
      cases r.ent.kind with
      | status => cases b <;> exact answers_next _
      | retrain =>
        cases b with
        | tracked inside => cases inside <;> exact answers_next _
        | _ => exact answers_next _
      | _ => cases b <;> exact answers_next _
  | moduleChange | mmioRd | mmioWr | undervoltage | pumpFail | inputReturn | railsOff | bankOutputOpen | warmResetAssert | zm3JobClose =>
    simp only [exec, execModuleChange, execMmioRd, execMmioWr, execUndervoltage, execPumpFail, execInputReturn, execRailsOff,
      execBankOutputOpen, execWarmResetAssert, execZm3JobClose]
    repeat' split
    all_goals exact answers_next _
  | cxlIoAccess p w addr =>
    simp only [exec, execCxlIoAccess]
    cases addr <;> simp

end Sys2Proof.Machine

open Sys2Proof.Machine

/-- Settles O45: no branch of any command ends in a fault or a refusal. -/
theorem everyCommandAnswers : Obligations.EveryCommandAnswers := fun c s => exec_answers s c
end

section
/-! The queue of waiting commands, which no command changes (assumption 4). -/
namespace Sys2Proof.Machine

open Reg

theorem State.pending_eq_core (s : State) : s.pending = s.core.pending := rfl

/-- SVN_ADVANCE changes the fuses and the answer of the mailbox. -/
theorem keepsPending_execSvnAdvance (s : State) : Keeps State.pending s (execSvnAdvance s) := by
  refine keeps_onBlk (keeps_next.2 ?_)
  obtain hrun | ⟨len, hrun⟩ := s.mbxRun_cases 0x24 fun s _ => s.svnAdvance
  · exact congrArg State.pending hrun
  · refine (congrArg State.pending hrun).trans ?_
    unfold State.svnAdvance
    split <;> exact congrArg Core.pending (State.core_mbxEnd ..)

theorem keepsPending_execZm3JobClose (s : State) (tid : BitVec 8) (job : BitVec 20) (n : Word) (flags : BitVec 3)
    (unmet : List (BitVec 64)) : Keeps State.pending s (execZm3JobClose tid job n flags unmet s) := by
  obtain ⟨j, last, ends, us, hc⟩ | ⟨-, hc⟩ := execZm3JobClose_cases tid job n flags unmet s
  · rw [hc, keeps_next]
    unfold State.issueProof
    dsimp only
    split <;> rfl
  · rw [hc]
    exact keeps_next.2 rfl

theorem exec_keepsPending (s : State) (c : Instr) : Keeps State.pending s (exec c s) := by
  cases c with
  | svnAdvance => exact keepsPending_execSvnAdvance s
  | zm3JobClose => exact keepsPending_execZm3JobClose s _ _ _ _ _
  | _ => exact fun t h => congrArg (fun l => l.2.2.1) (exec_keepsLasting s _ rfl t h)

end Sys2Proof.Machine

open Sys2Proof.Machine

/-- Settles O46: the queue is a lasting part of the core, and the two commands that change another of these leave it. -/
theorem queueIsLeftAlone : Obligations.QueueIsLeftAlone := fun c s t h => exec_keepsPending s c t h

/-- Settles O43: a step takes the front command from the queue and runs it. -/
theorem frontCommandRuns : Obligations.FrontCommandRuns := fun _ _ _ => rfl
end

section
/-! The state after reset. -/
namespace Sys2Proof.Machine

open Reg

/-- Both register tables are empty after reset, so a field reads its reset value. -/
theorem State.rd_reset (f : Field) (i x : Nat) : State.reset.rd f i x = resetVal f i x := by
  unfold State.rd
  split <;> rfl

end Sys2Proof.Machine

open Sys2Proof.Machine

/-- Settles O47: the DRAM and both register tables are empty after reset. -/
theorem resetMeetsInvariants : Obligations.ResetMeetsInvariants := ⟨rfl, rfl, rfl, rfl, State.rd_reset⟩
end

section
/-! The hash of lines to places of the sub-channel queues (R237 to R239) and its inverse. A line is a row group, the column and the
position within the column; the queue is a rotation of the position. -/
namespace Sys2Proof.Machine

theorem hashLine_bounds (la : Nat) :
    (hashLine la).1 < 96 ∧ (hashLine la).2.1 < 16 ∧ (hashLine la).2.2.1 < 2 ^ 18 ∧ (hashLine la).2.2.2 < 128 := by
  simp only [hashLine, groupLines]
  omega

/-- A line that the node has is the line of its place. -/
theorem unhashLine_hashLine {la : Nat} (h : la < 96 * 16 * 2 ^ 18 * 128) :
    unhashLine (hashLine la).1 (hashLine la).2.1 (hashLine la).2.2.1 (hashLine la).2.2.2 = la := by
  have hg : la / 12288 / 16 % 2 ^ 18 * 16 + la / 12288 % 16 = la / 12288 := by omega
  have hi : ((la % 12288 + la % 12288 / 96 + la / 12288) % 96 + 96 * 1000000 - (la % 12288 / 96 + la / 12288) % 96) % 96 =
      la % 12288 % 96 := by omega
  simp only [hashLine, unhashLine, groupLines, hg, hi]
  omega

theorem unhashLine_lt {q bank row col : Nat} (hb : bank < 16) (hr : row < 2 ^ 18) (hc : col < 128) :
    unhashLine q bank row col < 96 * 16 * 2 ^ 18 * 128 := by
  simp only [unhashLine, groupLines]
  omega

theorem hashLine_unhashLine {q bank row col : Nat} (hq : q < 96) (hb : bank < 16) (hr : row < 2 ^ 18) (hc : col < 128) :
    hashLine (unhashLine q bank row col) = (q, bank, row, col) := by
  simp only [hashLine, unhashLine, groupLines]
  generalize hi : (q + 96 * 1000000 - (col + (row * 16 + bank)) % 96) % 96 = i
  have hlt : i < 96 := by omega
  have hq' : (col * 96 + i + col + (row * 16 + bank)) % 96 = q := by omega
  have hdiv : ((row * 16 + bank) * 12288 + col * 96 + i) / 12288 = row * 16 + bank := by omega
  have hmod : ((row * 16 + bank) * 12288 + col * 96 + i) % 12288 = col * 96 + i := by omega
  have hcol : (col * 96 + i) / 96 = col := by omega
  rw [hdiv, hmod, hcol, hq']
  simp only [Prod.mk.injEq, true_and, and_true]
  omega

end Sys2Proof.Machine

open Sys2Proof.Machine

/-- Settles O54: the rotation that names the queue is undone by the one that names the position. -/
theorem everyLineHasItsPlace : Obligations.EveryLineHasItsPlace := by
  refine ⟨fun la h => ?_, fun q bank row col hq hb hr hc => ⟨hashLine_unhashLine hq hb hr hc, unhashLine_lt hb hr hc⟩⟩
  obtain ⟨hq, hb, hr, hc⟩ := hashLine_bounds la
  exact ⟨hq, hb, hr, hc, unhashLine_hashLine h⟩
end

section
/-! The verdict on a Proof (R421). -/
namespace Sys2Proof.Machine

theorem mem_missing (r : Bytes) (set : List Nat) (n : Nat) :
    n ∈ missing r set ↔
      (set.foldl min (field r 8 8) ≤ n ∧ n ≤ set.foldl max (field r 8 8)) ∧ ¬(n ∈ set ∨ n = field r 8 8) := by
  simp only [missing, List.mem_filter, List.mem_map, List.mem_range, Bool.not_eq_true', Bool.or_eq_false_iff,
    List.contains_eq_mem, decide_eq_false_iff_not, beq_eq_false_iff_ne, not_or, ne_eq]
  refine and_congr_left fun _ => ⟨?_, fun h => ⟨n - set.foldl min (field r 8 8), ?_⟩⟩
  · rintro ⟨k, hk, rfl⟩
    omega
  · omega

/-- No number of a set is missing when each from its lowest to its highest is in it, or is the Proof's own. -/
theorem missing_eq_nil_iff (r : Bytes) (set : List Nat) :
    missing r set = [] ↔
      ∀ n, set.foldl min (field r 8 8) ≤ n → n ≤ set.foldl max (field r 8 8) → n ∈ set ∨ n = field r 8 8 := by
  simp only [List.eq_nil_iff_forall_not_mem, mem_missing, not_and, not_not, and_imp]

/-- A digest that the verifier does not hold contradicts nothing. -/
theorem digest_agrees_iff (held : Option Bytes) (d : Bytes) :
    (held.map (fun x => x != d)).getD false = false ↔ ∀ x, held = some x → x = d := by
  cases held <;> simp

theorem verdict_eq_valid_iff (r pub trusted : Bytes) (before own : Option Bytes) (set : List Nat) :
    verdict r pub trusted before own set = .valid ↔
      (r.length = 256 ∧ r.take 5 = [0x51, 0x50, 0x52, 0x46, 0x01] ∧ field r 5 1 < 32 ∧ field r 7 1 < 32 ∧ field r 32 4 < 2 ^ 29 ∧
        field r 156 4 = 0) ∧ sha256 pub = trusted ∧ edVerify pub (r.take 192) (r.drop 192) = true ∧
      (field r 40 8 ≤ field r 48 8 ∧ field r 56 4 + field r 60 4 ≤ field r 48 8 - field r 40 8 + 1) ∧
      ((before.map (fun d => d != (r.drop 160).take 32)).getD false = false ∧ (own.map (fun d => d != sha256 r)).getD false = false) ∧
      missing r set = [] ∧ (bit (field r 5 1) 2 = false ∧ bit (field r 5 1) 4 = false) ∧ bit (field r 5 1) 3 = false := by
  have hpass {c : Prop} [Decidable c] {a b : Verdict} (ha : a ≠ .valid) : (if c then a else b) = .valid ↔ ¬c ∧ b = .valid := by
    split <;> simp [*]
  simp only [verdict]
  rw [hpass (by simp), hpass (by simp), hpass (by simp), hpass (by simp), hpass (by simp), hpass (by simp), hpass (by simp),
    hpass (by simp)]
  simp only [decide_eq_false_iff_not, not_or, not_not, not_lt, ne_eq, ge_iff_le, gt_iff_lt, not_le, Bool.not_eq_true', Bool.not_eq_false, Bool.or_eq_true,
    Bool.not_eq_true, and_assoc, and_true]

end Sys2Proof.Machine

open Sys2Proof.Machine

/-- Settles O57: a verdict is Valid exactly when each of the verifier's checks passes in turn. -/
theorem validProof : Obligations.ValidProof := by
  intro r pub trusted before own set
  rw [verdict_eq_valid_iff, missing_eq_nil_iff, digest_agrees_iff, digest_agrees_iff]
  tauto
end

section
/-! The clocks of the node and of the TMC: what a tick does beside counting leaves both. -/
namespace Sys2Proof.Machine

open Reg

/-- The AO time and the TMC. -/
def State.clocks (s : State) : Nat × Tmc := (s.ao, s.tmc)

set_option linter.unusedVariables false in
/-- An update of other fields leaves the clocks. -/
@[simp] theorem State.clocks_mk {x0 x1 x2 x3 now x5 x6 x7 x8 x9 x10 x11 x12 x13 x14 x15 x16 x17 x18 x19 x20 x21 x22 x23 x24 x25 x26 x27 x28 x29 x30 x31
    x32 x33 x34 x35 x36 x37 x38 x39 x40 x41 x42 x43 x44 x45 x46 x47 x48 x49 x50 x51 x52 x53 x54 x55 x56 x57 x58 x59 x60 x61
    x62 x63 x64 x65 x66 t x68} :
    State.clocks (State.mk x0 x1 x2 x3 now x5 x6 x7 x8 x9 x10 x11 x12 x13 x14 x15 x16 x17 x18 x19 x20 x21 x22 x23 x24 x25 x26 x27 x28 x29 x30 x31
    x32 x33 x34 x35 x36 x37 x38 x39 x40 x41 x42 x43 x44 x45 x46 x47 x48 x49 x50 x51 x52 x53 x54 x55 x56 x57 x58 x59 x60 x61
    x62 x63 x64 x65 x66 t x68) = (now, t) := rfl

@[simp] theorem State.clocks_eta (s : State) : (s.ao, s.tmc) = s.clocks := rfl

/-- What leaves the body leaves the clocks. -/
theorem State.clocks_of_body {s t : State} (h : t.body = s.body) : t.clocks = s.clocks :=
  have part : t.body.clocks = s.body.clocks := congrArg State.clocks h
  part

@[simp] theorem State.clocks_if {c : Prop} [Decidable c] (a b : State) : (if c then a else b).clocks = if c then a.clocks else b.clocks :=
  apply_ite ..

@[simp] theorem State.clocks_foldl {β : Type} (f : State → β → State) (h : ∀ a b, (f a b).clocks = a.clocks) (l : List β) (s : State) :
    (l.foldl f s).clocks = s.clocks := foldl_keeps State.clocks f h l s

@[simp] theorem State.clocks_wr (s : State) (f : Field) (v i x : Nat) : (s.wr f v i x).clocks = s.clocks :=
  State.clocks_of_body (State.body_wr ..)

@[simp] theorem State.clocks_bumpBy (s : State) (f : Field) (n i x : Nat) : (s.bumpBy f n i x).clocks = s.clocks :=
  State.clocks_of_body (State.body_bumpBy ..)

@[simp] theorem State.clocks_bump (s : State) (f : Field) (i x : Nat) : (s.bump f i x).clocks = s.clocks :=
  State.clocks_of_body (State.body_bump ..)

@[simp] theorem State.clocks_raise (s : State) (p c : Nat) : (s.raise p c).clocks = s.clocks :=
  State.clocks_of_body (State.body_raise ..)

@[simp] theorem State.clocks_sample (s : State) (p g : Nat) (v : Int) : (s.sample p g v).clocks = s.clocks :=
  State.clocks_of_body (State.body_sample ..)

@[simp] theorem State.clocks_crumb (s : State) (p c v : Nat) (l : List Nat) : (s.crumb p c v l).clocks = s.clocks :=
  State.clocks_of_body (State.body_crumb ..)

@[simp] theorem State.clocks_out (s : State) (o : Out) : (s.out o).clocks = s.clocks := rfl

@[simp] theorem State.clocks_setPort (s : State) (p : Nat) (v : Port) : (s.setPort p v).clocks = s.clocks := rfl

@[simp] theorem State.clocks_count (s : State) (a b c d : Nat) : (s.count a b c d).clocks = s.clocks := rfl

@[simp] theorem State.clocks_pump (s : State) (p : Nat) : (s.pump p).clocks = s.clocks :=
  State.clocks_of_body (State.body_pump ..)

@[simp] theorem State.clocks_send (s : State) (p : Nat) (m : Msg) (t j : Nat) : (s.send p m t j).clocks = s.clocks :=
  State.clocks_of_body (State.body_send ..)

@[simp] theorem State.clocks_free (s : State) : (State.free s).2.clocks = s.clocks := by
  unfold State.free; simp

@[simp] theorem State.clocks_winClose (s : State) : (State.winClose s).clocks = s.clocks := by
  unfold State.winClose; simp

@[simp] theorem State.clocks_nextOrd (s : State) : (State.nextOrd s).2.clocks = s.clocks := by
  unfold State.nextOrd; simp

@[simp] theorem State.clocks_twSend (s : State) (m : Msg) (tid job : Nat) : (State.twSend s m tid job).clocks = s.clocks := by
  unfold State.twSend
  repeat' (first | simp [*] | dsimp only | split)

@[simp] theorem State.clocks_twSeq (s : State) (opc : Nat) (fields : List (Nat × Nat × Nat)) (data : List Slot) (tid job : Nat) :
    (State.twSeq s opc fields data tid job).2.clocks = s.clocks := by
  unfold State.twSeq
  repeat' (first | (simp [*]; done) | dsimp only | split)

@[simp] theorem State.clocks_setQueue (s : State) (q : Nat) (v : Queue) : (State.setQueue s q v).clocks = s.clocks := by
  unfold State.setQueue; simp

@[simp] theorem State.clocks_enqueue (s : State) (q : Nat) (e : Entry) : (State.enqueue s q e).clocks = s.clocks := by
  unfold State.enqueue; simp

@[simp] theorem State.clocks_emitTraining (s : State) (p : Nat) (slot : Slot) :
    (State.emitTraining s p slot).clocks = s.clocks := by
  unfold State.emitTraining; simp

@[simp] theorem State.clocks_sendParams (s : State) (p : Nat) : (State.sendParams s p).clocks = s.clocks := by
  unfold State.sendParams; simp

@[simp] theorem State.clocks_paramsAgain (s : State) : (State.paramsAgain s).clocks = s.clocks := by
  unfold State.paramsAgain; simp

@[simp] theorem State.clocks_closeFc (s : State) : (State.closeFc s).clocks = s.clocks := by
  unfold State.closeFc; simp

@[simp] theorem State.clocks_updBake (s : State) (bid : Nat) (f : Bake → Bake) : (State.updBake s bid f).clocks = s.clocks := by
  unfold State.updBake; simp

@[simp] theorem State.clocks_setLane (s : State) (ch : Nat) (l : List LaneJob) : (State.setLane s ch l).clocks = s.clocks := by
  unfold State.setLane; simp

@[simp] theorem State.clocks_laneReads (s : State) (ch : Nat) (j : LaneJob) (b : Bake) (i : Nat) :
    (State.laneReads s ch j b i).clocks = s.clocks := by
  unfold State.laneReads; simp

@[simp] theorem clocks_lanePumpOver (ch : Nat) (l : List LaneJob) (s : State) : (lanePumpOver ch l s).clocks = s.clocks := by
  induction l generalizing s with
  | nil => simp [lanePumpOver]
  | cons j t ih =>
    unfold lanePumpOver
    dsimp only
    repeat' split
    all_goals simp [ih]

@[simp] theorem State.clocks_lanePump (s : State) (ch : Nat) : (State.lanePump s ch).clocks = s.clocks := by
  unfold State.lanePump; simp

@[simp] theorem State.clocks_placeLane (s : State) (ch : Nat) (j : LaneJob) : (State.placeLane s ch j).clocks = s.clocks := by
  unfold State.placeLane; simp

@[simp] theorem State.clocks_sampleCtx (s : State) (rce : Nat) : (State.sampleCtx s rce).clocks = s.clocks := by
  unfold State.sampleCtx; simp

@[simp] theorem State.clocks_freeCtxs (s : State) : (State.freeCtxs s).clocks = s.clocks := by
  unfold State.freeCtxs; simp

@[simp] theorem State.clocks_stallCount (s : State) (rce : Nat) : (State.stallCount s rce).clocks = s.clocks := by
  unfold State.stallCount; simp

@[simp] theorem State.clocks_stopStalled (s : State) (bid cls : Nat) : (State.stopStalled s bid cls).clocks = s.clocks := by
  unfold State.stopStalled
  dsimp only
  rw [State.clocks_freeCtxs]
  exact foldl_keeps State.clocks _ (fun a c => State.clocks_stallCount a _) _ _

@[simp] theorem State.clocks_bakeEnds (s : State) (bid : Nat) : (State.bakeEnds s bid).clocks = s.clocks := by
  unfold State.bakeEnds
  repeat' (first | (simp [*]; done) | dsimp only | split)

@[simp] theorem State.clocks_dropLanes (s : State) (bid : Nat) : (State.dropLanes s bid).clocks = s.clocks := by
  unfold State.dropLanes; simp

@[simp] theorem State.clocks_conclude (s : State) (bid cause fault ch : Nat) :
    (State.conclude s bid cause fault ch).clocks = s.clocks := by
  unfold State.conclude
  repeat' (first | (simp [*]; done) | dsimp only | split)

@[simp] theorem State.clocks_placeLanePart (s : State) (b : Bake) : (State.placeLanePart s b).clocks = s.clocks := by
  unfold State.placeLanePart; simp

@[simp] theorem State.clocks_afterEnd (s : State) (bid : Nat) : (State.afterEnd s bid).clocks = s.clocks := by
  unfold State.afterEnd
  repeat' (first | (simp [*]; done) | dsimp only | split)

@[simp] theorem State.clocks_trainCmd (s : State) (q : Nat) (x : Cmd) : (State.trainCmd s q x).clocks = s.clocks := by
  unfold State.trainCmd; simp

@[simp] theorem State.clocks_trainEnter (s : State) (ch step : Nat) : (State.trainEnter s ch step).clocks = s.clocks := by
  unfold State.trainEnter; simp

@[simp] theorem State.clocks_trainTick (s : State) (ch : Nat) : (State.trainTick s ch).clocks = s.clocks := by
  unfold State.trainTick; simp

@[simp] theorem State.clocks_setTurn (s : State) (t : Nat) : (State.setTurn s t).clocks = s.clocks := by
  unfold State.setTurn; simp

@[simp] theorem State.clocks_makeShadows (s : State) : (State.makeShadows s).clocks = s.clocks := by
  unfold State.makeShadows; simp

@[simp] theorem State.clocks_twFirst (s : State) (m : Msg) : (State.twFirst s m).clocks = s.clocks := by
  unfold State.twFirst
  repeat' (first | (simp [*]; done) | dsimp only | split)

@[simp] theorem State.clocks_toFenced (s : State) : (State.toFenced s).clocks = s.clocks := by
  unfold State.toFenced; simp

@[simp] theorem State.clocks_renewAck (s : State) (n : Nat) : (State.renewAck s n).clocks = s.clocks := by
  unfold State.renewAck; simp

@[simp] theorem State.clocks_leaveNow (s : State) : (State.leaveNow s).clocks = s.clocks := by
  unfold State.leaveNow; simp

@[simp] theorem State.clocks_handoverStep (s : State) : (State.handoverStep s).clocks = s.clocks := by
  unfold State.handoverStep
  repeat' (first | (simp [*]; done) | dsimp only | split)

@[simp] theorem State.clocks_drainSlow (s : State) : (State.drainSlow s).clocks = s.clocks := by
  unfold State.drainSlow; simp

@[simp] theorem State.clocks_sweepTick (s : State) : (State.sweepTick s).clocks = s.clocks := by
  unfold State.sweepTick
  repeat' (first | (simp [*]; done) | dsimp only | split)

@[simp] theorem State.clocks_drainTick (s : State) : (State.drainTick s).clocks = s.clocks := by
  unfold State.drainTick; simp

/-- A tick of a node that has power counts its AO time. -/
theorem State.clocks_nodeTick (s : State) : s.nodeTick.clocks = (s.ao + 1, s.tmc) := by
  unfold State.nodeTick
  simp [State.closeFc]

/-- The pins that take their new function tell no time. -/
theorem State.clocks_pinTick (s : State) :
    s.pinTick.ao = s.ao ∧ s.pinTick.tmc.now = s.tmc.now ∧ s.pinTick.tmc.nodeRails = s.tmc.nodeRails := by
  unfold State.pinTick
  split <;> exact ⟨rfl, rfl, rfl⟩

/-- A tick counts the TMC's time, and the AO time of a node that has power. -/
theorem State.clocks_tick (s : State) :
    s.tick.tmc.now = s.tmc.now + 1 ∧ s.tick.ao = if s.tmc.nodeRails then s.ao + 1 else s.ao := by
  unfold State.tick
  dsimp only
  obtain ⟨hao, hnow, hrails⟩ := State.clocks_pinTick { s with tmc := { s.tmc with now := s.tmc.now + 1 } }
  generalize State.pinTick _ = u at hao hnow hrails
  have htick : u.nodeTick.clocks = (u.ao + 1, u.tmc) := u.clocks_nodeTick
  generalize u.nodeTick = v at htick
  obtain ⟨hvao, hvtmc⟩ := Prod.mk.inj htick
  rw [hrails]
  split
  · rw [hvao, hvtmc, hnow, hao]
    exact ⟨rfl, rfl⟩
  · exact ⟨hnow, hao⟩

end Sys2Proof.Machine

open Sys2Proof.Machine

/-- Settles O44: an empty queue ticks; the tick counts on both clocks and keeps the core. -/
theorem emptyQueueTicks : Obligations.EmptyQueueTicks := by
  intro s hempty
  have hstep : step s = .next s.tick := by rw [step, hempty]
  obtain ⟨hnow, hao⟩ := s.clocks_tick
  have hcore : s.tick.core = s.core := State.core_tick s
  generalize s.tick = t at *
  exact ⟨t, hstep, hnow, fun h => hao.trans (if_pos h), fun h => hao.trans (if_neg (by simp [h])), hcore⟩
end

section
/-! Register writes: the address decoded, and what a write of one field does (R11, R15, R48). -/
namespace Sys2Proof.Machine

open Reg

/-! ### Addresses of the common header -/

theorem present_lt {s : State} {p : Nat} (h : s.present p = true) : p < 0x83 := by
  unfold State.present at h
  split at h
  · omega
  · split at h
    · omega
    · split at h
      next hp =>
        simp only [Bool.and_eq_true, decide_eq_true_eq] at hp
        omega
      · simpa using h

/-- A register of the common header holds the header's fields at its offset (Table 2-3). -/
theorem State.hits_header {s : State} {page off : Nat} (hp : s.present page = true) (hoff : off < 0x30) (h4 : off % 4 = 0) :
    s.hits (page * 0x1000 + off) = headerFields.filterMap (fun f => f.hit page off) := by
  have hlt : page < 0x83 := present_lt hp
  have hpage : (page * 0x1000 + off) / 0x1000 = page := by omega
  have hmod : (page * 0x1000 + off) % 0x1000 = off := by omega
  unfold State.hits
  dsimp only
  rw [hpage, hmod, if_neg (by omega), if_neg (by omega), if_neg (by simp [hp]), if_pos hoff]

/-- The header is reached in every power state. -/
theorem State.reach_header (s : State) {page off : Nat} (hlt : page < 0x83) (hoff : off < 0x30) :
    s.reach (page * 0x1000 + off) = s := by
  have hpage : (page * 0x1000 + off) / 0x1000 = page := by omega
  have hmod : (page * 0x1000 + off) % 0x1000 = off := by omega
  unfold State.reach
  dsimp only
  rw [hpage, hmod, if_neg]
  simp
  omega

/-! ### One field -/

/-- A write of one field that is not locked, reserved or denied and that no rule relates to others is taken. -/
theorem State.writeFields_of_taken {s : State} {src : Src} {addr : Nat} {h : Hit} {v : Nat}
    (hlock : s.locked (ownerPage (addr / 0x1000)) h.f = false) (hres : reservedValue h.f h.inst h.idx v = false)
    (hden : s.deniedPut [(h, v)] (h, v) = false) (hrules : rules.all (fun r => !r.fields.contains h.f) = true) :
    s.writeFields src addr [(h, v)] =
      if Put.acts (h, v) && !(h.inHeader || !s.stopped (ownerPage (addr / 0x1000))) then s else s.takePut src (h, v) := by
  have hkeep : s.keepRules [(h, v)] = [(h, v)] := by
    have hfold (l : List Rule) (hl : l.all (fun r => !r.fields.contains h.f) = true) :
        l.foldl (fun (l : List Put) (r : Rule) =>
          match l.find? (fun p => r.fields.contains p.1.f) with
          | some p => if r.holds (s.standing l p.1.inst p.1.idx) then l else l.filter (fun x => !r.fields.contains x.1.f)
          | none => l) [(h, v)] = [(h, v)] := by
      induction l with
      | nil => rfl
      | cons r l ih =>
        simp only [List.all_cons, Bool.and_eq_true, Bool.not_eq_true'] at hl
        simp only [List.foldl_cons, List.find?_cons, hl.1, List.find?_nil]
        exact ih hl.2
    exact hfold rules hrules
  unfold State.writeFields
  simp only [List.filter_cons, List.filter_nil, hlock, hres, hden, hkeep, Bool.not_false, Bool.and_self, Bool.false_eq_true, ↓reduceIte,
    List.any_nil, lt_self_iff_false]
  cases hacts : Put.acts (h, v)
  · simp
  · cases hhead : h.inHeader || !s.stopped (ownerPage (addr / 0x1000)) <;> simp [hhead]

/-- Which registers there are depends on the part's options alone. -/
theorem State.hits_of_opts {s t : State} (h : t.opts = s.opts) : t.hits = s.hits := by
  funext addr
  have hpres : t.present = s.present := by
    funext p
    unfold State.present
    rw [h]
  unfold State.hits
  rw [hpres]

@[simp] theorem State.hits_reach (s : State) (addr : Nat) : (s.reach addr).hits = s.hits :=
  State.hits_of_opts (congrArg Core.opts (State.core_reach s addr))

/-- A register of one field of at most 32 bits, outside the tables and the FPORT pages, is written by the field's access code. -/
theorem State.writeReg_of_hit {s : State} {src : Src} {addr val : Nat} {f : Field} {i x : Nat}
    (hhits : s.hits addr = [⟨f, i, x, false⟩]) (hw : f.width ≤ 32) (hregion : ¬(0x200000 ≤ addr ∧ addr < 0x220000))
    (hagent : ¬(0x800000 ≤ addr ∧ addr < 0x804000)) (hport : ¬(0x10000 ≤ addr ∧ addr < 0x20000 ∧ 0x30 ≤ addr % 0x1000)) :
    s.writeReg src addr val = (s.reach addr).writeFields src addr [(⟨f, i, x, false⟩, bits val f.lo f.width)] := by
  have hother {a : Nat} (h : (s.hits a).length ≠ 1) : addr ≠ a := fun e => h (by rw [← e, hhits]; rfl)
  have hroute : addr ≠ 0x150 := hother (Nat.ne_of_gt (by exact (by decide : 1 < 3)))
  have hepoch : addr ≠ 0x2104 := hother (Nat.ne_of_gt (by exact (by decide : 1 < 2)))
  have hclaim : addr ≠ 0x6120 := hother (Nat.ne_of_gt (by exact (by decide : 1 < 4)))
  have hcode : addr ≠ 0x6124 := hother (Nat.ne_of_gt (by exact (by decide : 1 < 2)))
  have hlower : (s.reach addr).lowerPair addr = false := by simp [State.lowerPair, hhits, Nat.not_lt.2 hw]
  have hputs : (s.reach addr).putsOf addr val = [(⟨f, i, x, false⟩, bits val f.lo f.width)] := by
    simp [State.putsOf, hhits, Nat.not_lt.2 hw]
  unfold State.writeReg
  simp only [State.hits_reach, hhits, hputs, hlower, hroute, hclaim, hcode, hepoch, List.isEmpty_cons, Bool.false_eq_true,
    decide_false, Bool.false_and, ↓reduceIte, List.any_cons, List.any_nil, Bool.or_self]
  rw [if_neg, if_neg, if_neg]
  · simp only [Bool.and_eq_true, decide_eq_true_eq]
    omega
  · simp only [Bool.and_eq_true, decide_eq_true_eq]
    omega
  · simp only [Bool.and_eq_true, decide_eq_true_eq]
    omega

/-- A write of a header register of one field in a node that has power. -/
theorem State.write_header {s : State} {src : Src} {page off val : Nat} {f : Field} (hn : s.tmc.nodeRails = true)
    (hp : s.present page = true) (hoff : off < 0x30) (h4 : off % 4 = 0)
    (hhits : headerFields.filterMap (fun f => f.hit page off) = [⟨f, page, 0, false⟩]) (hw : f.width ≤ 32) :
    s.write src (page * 0x1000 + off) val =
      s.writeFields src (page * 0x1000 + off) [(⟨f, page, 0, false⟩, bits val f.lo f.width)] := by
  have hlt : page < 0x83 := present_lt hp
  unfold State.write
  rw [if_pos hn, State.writeReg_of_hit ((State.hits_header hp hoff h4).trans hhits) hw (by omega) (by omega) (by omega),
    s.reach_header hlt hoff]

/-- Two header fields of a page differ in their place. -/
theorem keyOf_header_ne {f g : Field} (p : Nat) (hf : f.page = 0) (hg : g.page = 0)
    (h : f.off * 64 + f.lo ≠ g.off * 64 + g.lo) : keyOf f p 0 ≠ keyOf g p 0 := by
  unfold keyOf
  omega

theorem bits_zero_of_lt {v w : Nat} (h : v < 2 ^ w) : bits v 0 w = v := by
  simp [bits, Nat.mod_eq_of_lt h]

end Sys2Proof.Machine
end

section
/-! The interrupt registers of a block's header (R40) and its internal errors. -/
namespace Sys2Proof.Machine

open Reg

variable {s : State} {page : BitVec 12}

theorem State.body_intForce (s : State) (p v : Nat) : (s.intForce p v).body = s.body := by
  rw [State.intForce, State.body_edge, State.body_wr]

theorem State.body_intEn (s : State) (p v : Nat) : (s.intEn p v).body = s.body := by
  rw [State.intEn, State.body_edge, State.body_wr]

theorem State.body_intrAgent (s : State) : s.intrAgent.body = s.body := by
  unfold State.intrAgent
  dsimp only
  split
  · split <;> rfl
  · exact State.body_sendAgent ..

theorem State.tables_intrAgent (s : State) : s.intrAgent.tables = s.tables := by
  unfold State.intrAgent
  dsimp only
  split
  · split <;> rfl
  · exact State.tables_sendAgent _ _ _ _ _ (by simp [mkIntr, mkMsg, clsSys, clsRsp])

theorem State.tables_out (s : State) (o : Out) : (s.out o).tables = s.tables := rfl

/-- The interrupts that a new route sends change no register. -/
theorem State.intRoute_reports (s : State) (toWarden toAgent agent : Nat) :
    (s.intRoute toWarden toAgent agent).body = s.body ∧
      (s.intRoute toWarden toAgent agent).tables =
        (((s.wr BDIR_TO_WARDEN toWarden).wr BDIR_TO_AGENT toAgent).wr BDIR_AGENT agent).tables := by
  unfold State.intRoute
  dsimp only
  repeat' split
  all_goals simp only [State.body_intrAgent, State.tables_intrAgent, State.body_out, State.tables_out, State.body_wr, and_self]

theorem State.body_reach_of_ne {s : State} {addr : Nat} (h : ownerPage (addr / 0x1000) ≠ pgXLAT) : (s.reach addr).body = s.body := by
  unfold State.reach
  dsimp only
  split
  · exact State.body_use ..
  · rfl

theorem exec_intForce (val : Word) (hn : s.tmc.nodeRails = true) (hp : s.present page.toNat = true) :
    exec (.intForce page val) s = .next (s.intForce page.toNat val.toNat) := by
  have hval : bits val.toNat 0 32 = val.toNat := bits_zero_of_lt val.isLt
  refine congrArg Host.Outcome.next ((State.write_header hn hp (by decide) rfl rfl (by decide)).trans ?_)
  rw [State.writeFields_of_taken rfl rfl rfl rfl, if_neg (by simp [Hit.inHeader])]
  exact congrArg (s.intForce page.toNat) hval

theorem exec_intEnWrite (val : Word) (hn : s.tmc.nodeRails = true) (hp : s.present page.toNat = true) :
    exec (.intEnWrite page val) s = .next (s.intEn page.toNat val.toNat) := by
  have hval : bits val.toNat 0 32 = val.toNat := bits_zero_of_lt val.isLt
  refine congrArg Host.Outcome.next ((State.write_header hn hp (by decide) rfl rfl (by decide)).trans ?_)
  rw [State.writeFields_of_taken rfl rfl rfl rfl, if_neg (by simp [Put.acts, H_INT_EN])]
  exact congrArg (s.intEn page.toNat) hval

theorem exec_blkLockSet (hn : s.tmc.nodeRails = true) (hp : s.present page.toNat = true) :
    exec (.blkLockSet page) s = .next (s.wr H_LOCK 1 page.toNat) := by
  refine congrArg Host.Outcome.next ((State.write_header hn hp (by decide) rfl rfl (by decide)).trans ?_)
  rw [State.writeFields_of_taken rfl rfl rfl rfl, if_neg (by simp [Hit.inHeader])]
  rfl

theorem exec_intRouteWrite (val : Word) (hn : s.tmc.nodeRails = true) :
    exec (.intRouteWrite val) s =
      .next ((s.reach 0x150).intRoute (bits val.toNat 0 1) (bits val.toNat 1 1) (bits val.toNat 16 12)) := by
  refine congrArg Host.Outcome.next ((if_pos hn).trans ?_)
  have hhits : s.hits 0x150 ≠ [] := fun h => absurd (congrArg List.length h) (by exact (by decide : 3 ≠ 0))
  have hlower : (s.reach 0x150).lowerPair 0x150 = false := rfl
  unfold State.writeReg
  simp [hhits, hlower]

theorem exec_internalError (stops : Bool) (hn : s.tmc.nodeRails = true) (hp : s.present page.toNat = true) :
    exec (.internalError page stops) s = .next (s.internalErr page.toNat stops) :=
  if_pos (by simp [hn, hp])

end Sys2Proof.Machine

open Sys2Proof.Machine Sys2Proof.Machine.Reg

/-- Settles O3: each write reaches its one field, whose effect writes fields and reports. -/
theorem interruptRegisters : Obligations.InterruptRegisters := by
  refine ⟨fun s page val hn hp => ⟨_, exec_intForce val hn hp, ?_, State.body_intForce ..⟩,
    fun s page val hn hp => ⟨_, exec_intEnWrite val hn hp, ?_, State.body_intEn ..⟩,
    fun s val hn => ⟨_, exec_intRouteWrite val hn, ?_⟩,
    fun s page hn hp => ⟨_, exec_blkLockSet hn hp, State.rd_wr_same .., State.body_wr ..⟩,
    fun s page stops hn hp => ⟨_, exec_internalError stops hn hp, ?_⟩⟩
  · rw [State.intForce, State.rd_of_tables (State.tables_edge _ _), State.rd_wr_same]
    rfl
  · rw [State.intEn, State.rd_of_tables (State.tables_edge _ _), State.rd_wr_same]
    exact Nat.mod_eq_of_lt val.isLt
  · obtain ⟨hbody, htables⟩ := State.intRoute_reports (s.reach 0x150) (bits val.toNat 0 1) (bits val.toNat 1 1) (bits val.toNat 16 12)
    have hlt (lo w : Nat) : bits val.toNat lo w % 2 ^ w = bits val.toNat lo w := Nat.mod_mod ..
    simp only [State.rd_of_tables htables, hbody]
    refine ⟨?_, ?_, ?_, State.body_reach_of_ne (by decide)⟩
    · rw [State.rd_wr_ne _ _ (by decide), State.rd_wr_ne _ _ (by decide), State.rd_wr_same]
      exact hlt 0 1
    · rw [State.rd_wr_ne _ _ (by decide), State.rd_wr_same]
      exact hlt 1 1
    · rw [State.rd_wr_same]
      exact hlt 16 12
  · have hint : keyOf H_INTERNAL page.toNat 0 ≠ keyOf H_INT_STAT page.toNat 0 := keyOf_header_ne _ rfl rfl (by decide)
    refine ⟨?_, State.bit_raise_same _ _ (by decide), fun hstops => ?_, State.body_internalErr ..⟩
    · rw [State.internalErr, State.rd_raise_ne _ _ _ hint, State.rd_wr_same]
      rfl
    · rw [State.internalErr, State.rd_raise_ne _ _ _ (keyOf_header_ne _ rfl rfl (by decide)),
        State.rd_wr_ne _ _ (keyOf_header_ne _ rfl rfl (by decide)), if_pos hstops, State.rd_wr_same]
      rfl
end

section
/-! EPOCH's commands (R49 to R53). -/
namespace Sys2Proof.Machine

open Reg

theorem State.cfgOpen_discard (s : State) : s.discard.cfgOpen = s.cfgOpen := by
  unfold State.discard
  split
  · exact State.cfgOpen_wr _ _ _ _ _ rfl
  · exact State.cfgOpen_wr _ _ _ _ _ rfl

theorem State.discard_of_idle {s : State} (h : s.commitPending = false) :
    s.discard = { s with cfgStaged := [] }.wr EPOCH_RESULT 0 := by
  simp [State.discard, h]

theorem State.discard_of_pending {s : State} (h : s.commitPending = true) : s.discard = s.wr EPOCH_RESULT 1 := by
  simp [State.discard, h]

/-- The epochs are parts of the core. -/
theorem State.epochs_of_core {s : State} {c : Core} (h : s.core = c) :
    s.openEpoch = c.opened ∧ s.drainEpoch = c.drained ∧ s.commitPending = c.commits := by
  subst h
  exact ⟨rfl, rfl, rfl⟩

/-- A drain that has lasted too long is marked and raised, and recorded by a Crumb. -/
theorem State.drainSlow_of_late {s : State} (hpend : s.commitPending = true) (hslow : s.slowRaised = false)
    (hlate : s.rd EPOCH_DRAIN_LIMIT < s.rd EPOCH_DRAIN_ELAPSED) :
    s.drainSlow = (({ s with slowRaised := true }).raise pgEPOCH I_EPOCH_DRAIN_SLOW).crumb pgEPOCH 0x002 1
      [s.drainEpoch, (allPages.find? s.drainPend).getD 0] := by
  unfold State.drainSlow
  rw [if_pos (by simp [hpend, hslow, hlate])]

theorem State.slowRaised_of_body {s t : State} (h : t.body = s.body) : t.slowRaised = s.slowRaised := 
  have part : t.body.slowRaised = s.body.slowRaised := congrArg State.slowRaised h
  part

end Sys2Proof.Machine

open Sys2Proof.Machine Sys2Proof.Machine.Reg

/-- Settles O4: the commit cycle and its end by what they do to the core, the others by the fields they write. -/
theorem epochCommands : Obligations.EpochCommands := by
  refine ⟨fun s hacts hidle => ⟨_, exec_commit_of_acts hacts, ?_⟩, fun s hacts hpend => ⟨_, exec_commit_of_acts hacts, ?_⟩,
    fun s hacts hidle => ⟨_, State.onBlk_acts _ hacts, ?_⟩, fun s hacts hpend => ⟨_, State.onBlk_acts _ hacts, ?_⟩,
    fun s hacts hpend hdrained => ⟨s.commitEnd, (State.onBlk_acts _ hacts).trans (if_pos (by simp [hpend, hdrained])), ?_⟩,
    fun s hacts hpend hslow hlate => ⟨_, State.onBlk_acts _ hacts, ?_⟩⟩
  · have hcycle : s.commit = s.commitCycle := by simp [State.commit, hidle]
    rw [hcycle]
    exact State.epochs_of_core s.core_commitCycle
  · refine ⟨State.rd_result_commit_of_pending hpend, ?_, State.body_commit_of_pending hpend⟩
    rw [State.commit_of_pending hpend]
    exact State.bit_raise_same _ _ (by decide)
  · have hresult : s.discard.rd EPOCH_RESULT = 0 := by
      rw [State.discard_of_idle hidle, State.rd_wr_same]
      rfl
    refine ⟨?_, hresult, s.cfgOpen_discard, by simp⟩
    rw [State.discard_of_idle hidle, State.wr_cfgStaged]
  · rw [State.discard_of_pending hpend]
    exact ⟨State.rd_wr_same .., State.body_wr ..⟩
  · obtain ⟨hopen, hdrain, hpending⟩ := State.epochs_of_core s.core_commitEnd
    exact ⟨hpending, hopen, hdrain, State.bit_raise_same _ _ (by decide)⟩
  · refine ⟨?_, ?_, by simp⟩
    · rw [State.drainSlow_of_late hpend hslow hlate]
      exact State.slowRaised_of_body (s := { s with slowRaised := true }) (by rw [State.body_crumb, State.body_raise])
    · rw [State.drainSlow_of_late hpend hslow hlate, State.rd_crumb_ne _ _ _ _ _ (by decide)]
      exact State.bit_raise_same _ _ (by decide)
end

section
/-! A read of XLAT's watermark group 0 while XLAT naps with a window boundary kept for its wake (R433): the read wakes the block, the
wake applies the boundary, the boundary puts a hot leaf into the Hot Page Queue, and the queue's depth crosses its threshold before
the group is read. -/
namespace Sys2Proof.Machine

open Reg

/-- A leaf that one request has counted in. -/
def countedLeaf : Leaf :=
  { tid := 1, size := 0, page := 0, remote := false, nid := 0, pga := 0, nocount := false, cnt := 1, score := 0, queued := false,
    lastAid := 0 }

/-- XLAT naps, a window boundary has passed, the queue is at its threshold, and a leaf is hot with a score of 1. -/
def nappingXlat : State :=
  { State.reset with
    regs := [(keyOf H_PWR_NOW pgXLAT 0, 1)], cfgOpen := [(keyOf XLAT_HOT_64K 0 0, 1)], hpqHead := 768, tc := [countedLeaf],
    pwr := { Pwr.fresh with windows := 1 } }

/-- The read answers the crossing that it caused, where none stood before it. -/
theorem rdata_wmkCrossedRead_nappingXlat :
    (nappingXlat.readInto 0xDF04).rdata = 0x10001 ∧ nappingXlat.rd WMK_CROSSED pgXLAT 0 = 0 ∧
      nappingXlat.rd WMK_COUNT_ pgXLAT 0 = 0 := ⟨rfl, rfl, rfl⟩

end Sys2Proof.Machine

open Sys2Proof.Machine

/-- Refutes O1: the read of CROSSED and COUNT of a napping XLAT answers what its wake has made of them, and not what stood there. -/
theorem not_registerReads : ¬ Obligations.RegisterReads := by
  rintro ⟨-, -, -, -, hcrossed, -⟩
  obtain ⟨t, ht, hdata, -, -⟩ := hcrossed nappingXlat 0xD 0 rfl rfl (by decide)
  obtain ⟨hread, hcross, hcount⟩ := rdata_wmkCrossedRead_nappingXlat
  have ht' : nappingXlat.readInto 0xDF04 = t := Host.Outcome.next.inj ht
  rw [← ht', hread, show (0xD : BitVec 12).toNat = pgXLAT from rfl, show ((0 : Fin 16) : Nat) = 0 from rfl, hcross, hcount] at hdata
  exact absurd hdata (by decide)
end

section
/-! The arrival of a request (O10). -/
namespace Sys2Proof.Machine

open Reg

/-! ### What the credits of a message, taken from a port's buffer, leave -/

theorem Tab.flatMap_set {α β : Type} (f : Nat × α → List β) {x : Nat} {v w : α} (hf : f (x, w) = f (x, v)) (t : Tab α)
    (ht : Tab.get? t x = some v) : (Tab.set t x w).flatMap f = t.flatMap f := by
  induction t with
  | nil => simp [Tab.get?] at ht
  | cons p t ih =>
    obtain ⟨k, u⟩ := p
    by_cases hx : x = k
    · subst hx
      have hu : u = v := by simpa [Tab.get?] using ht
      simp [Tab.set, hf, hu]
    · by_cases hlt : x < k
      · simp [Tab.get?, hx, hlt] at ht
      · simp [Tab.set, hx, hlt, ih (by simpa [Tab.get?, hx, hlt] using ht)]

theorem State.port_setPort_same (s : State) (p : Nat) (c : Port) : (s.setPort p c).port p = c := by
  simp [State.port, State.setPort, Tab.get_set_same]

theorem State.port_setPort_ne (s : State) {p q : Nat} (c : Port) (h : q ≠ p) : (s.setPort p c).port q = s.port q := by
  simp [State.port, State.setPort, Tab.get_set_ne _ _ _ h]

/-- A port that is not as it was at reset stands in the table of the ports. -/
theorem State.get?_ports_of_isUp (s : State) {p : Nat} (h : (s.port p).isUp = true) : Tab.get? s.ports p = some (s.port p) := by
  unfold State.port Tab.get at h ⊢
  cases hp : Tab.get? s.ports p with
  | none => simp [hp, Port.isUp, Port.fresh] at h
  | some c => rfl


/-- What the message's sender still sees of its port, once its credits stand to be returned. -/
theorem State.takeMsg_cases (s : State) (p : Nat) (m : Msg) : s.takeMsg p m = s ∨
    ∃ c : Port, s.takeMsg p m = s.setPort p c ∧ c.train = (s.port p).train ∧ c.mode = (s.port p).mode ∧ c.txq = (s.port p).txq := by
  unfold State.takeMsg
  dsimp only
  split
  · exact Or.inr ⟨_, rfl, rfl, rfl, rfl⟩
  · exact Or.inl rfl

theorem State.body_takeMsg (s : State) (p : Nat) (m : Msg) : (s.takeMsg p m).body = s.body := by
  obtain h | ⟨c, h, -⟩ := s.takeMsg_cases p m <;> simp [h, State.body_setPort]

theorem State.rd_takeMsg (s : State) (p : Nat) (m : Msg) (f : Field) (i x : Nat) : (s.takeMsg p m).rd f i x = s.rd f i x := by
  obtain h | ⟨c, h, -⟩ := s.takeMsg_cases p m <;> rw [h]
  rfl

theorem State.isCxl_takeMsg (s : State) (p : Nat) (m : Msg) : ((s.takeMsg p m).port p).isCxl = (s.port p).isCxl := by
  obtain h | ⟨c, h, -, hmode, -⟩ := s.takeMsg_cases p m <;> rw [h]
  rw [State.port_setPort_same, Port.isCxl, Port.isCxl, hmode]

theorem State.inRange_takeMsg (s : State) (p : Nat) (m : Msg) (a : Nat) : (s.takeMsg p m).inRange p a = s.inRange p a := by
  simp only [State.inRange, State.isCxl_takeMsg, State.rd_takeMsg]

theorem State.allowed_takeMsg (s : State) (p : Nat) (m : Msg) (q d : Nat) (m' : Msg) :
    (s.takeMsg p m).allowed q m' d = s.allowed q m' d := by
  simp only [State.allowed, State.rd_takeMsg]

theorem State.leaving_takeMsg (s : State) (p : Nat) (m : Msg) (q : Nat) : (s.takeMsg p m).leaving q = s.leaving q := by
  obtain h | ⟨c, h, -, -, htxq⟩ := s.takeMsg_cases p m <;> rw [h]
  by_cases hq : q = p
  · subst hq
    rw [State.leaving, State.leaving, State.port_setPort_same, htxq]
  · rw [State.leaving, State.leaving, State.port_setPort_ne _ _ hq]

theorem State.leavings_takeMsg (s : State) {p : Nat} (m : Msg) (hup : (s.port p).isUp = true) :
    (s.takeMsg p m).leavings = s.leavings := by
  obtain h | ⟨c, h, -, -, htxq⟩ := s.takeMsg_cases p m <;> rw [h]
  exact Tab.flatMap_set _ (by simp only [htxq]) _ (s.get?_ports_of_isUp hup)

theorem State.reqs_takeMsg (s : State) (p : Nat) (m : Msg) : (s.takeMsg p m).reqs = s.reqs :=
  (congrArg State.reqs (s.body_takeMsg p m) :)

theorem State.shape_takeMsg (s : State) (p : Nat) (m : Msg) : (s.takeMsg p m).shape = s.shape :=
  (congrArg State.shape (s.body_takeMsg p m) :)

theorem State.busyAt_takeMsg (s : State) {p : Nat} (m : Msg) (hup : (s.port p).isUp = true) (r : Req) :
    (s.takeMsg p m).busyAt r = s.busyAt r := by
  unfold State.busyAt State.outPort State.outNode State.outAgent State.steered State.admQueue
  rw [s.leavings_takeMsg m hup, State.leaving_takeMsg, State.reqs_takeMsg, State.shape_takeMsg, State.rd_takeMsg, State.rd_takeMsg]

/-- A message that the port passes is taken from it, and no other check stops it. -/
theorem State.portIn_of_passes (s : State) {p : Nat} {m : Msg} {cls opc : Nat} (hm : s.passes p m = true) (hcls : m.cls.toNat = cls)
    (hopc : m.opc = opc) : s.portIn p cls opc m = some (s.takeMsg p m, true) := by
  simp only [State.passes, Bool.and_eq_true, Bool.not_eq_true'] at hm
  obtain ⟨⟨⟨⟨hup, hcxl⟩, holder⟩, hall⟩, hsrc⟩ := hm
  unfold State.portIn
  simp only [hup, hcxl, holder, hcls, hopc, State.allowed_takeMsg, hall, State.inRange_takeMsg]
  cases ha : m.srcAid with
  | none => simp
  | some a => simp [show s.inRange p a = true by simpa [ha] using hsrc]

theorem State.isUp_of_passes {s : State} {p : Nat} {m : Msg} (hm : s.passes p m = true) : (s.port p).isUp = true := by
  simp only [State.passes, Bool.and_eq_true] at hm
  exact hm.1.1.1.1

/-! ### Waiting at SHAPE -/

/-- The requests in the node and the number of the next one. -/
def State.requests (s : State) : List Req × Nat := (s.reqs, s.nextId)

theorem State.requests_of_body {s t : State} (h : t.body = s.body) : t.requests = s.requests :=
  Prod.ext (congrArg State.reqs h :) (congrArg State.nextId h :)

theorem State.requests_judgePanic (s : State) : s.judgePanic.requests = s.requests := by
  have hsample : (s.sample pgSHAPE 2 s.rtWaiting).requests = s.requests := State.requests_of_body (State.body_sample _ _ _ _)
  have hshape (u : State) (x : Shape) : State.requests { u with shape := x } = u.requests := rfl
  unfold State.judgePanic
  dsimp only
  split
  · rw [hshape, hsample]
  split
  · rw [State.requests_of_body (State.body_raise _ _ _), State.requests_of_body (State.body_bump _ _ _ _), hshape, hsample]
  split
  · rw [hshape, hsample]
  · exact hsample

theorem State.requests_reEval (s : State) : s.reEval.requests = s.requests := by
  have hset (u : State) (t v : Nat) : (u.setTag t v).requests = u.requests := rfl
  have hshape (u : State) (x : Shape) : State.requests { u with shape := x } = u.requests := rfl
  unfold State.reEval
  dsimp only
  rw [hshape]
  exact foldl_keeps State.requests _ (fun u t => hset u _ _) _ s

theorem State.requests_enterQueue (s : State) (r : Req) (pl : Place) : (s.enterQueue r pl).requests =
    (s.reqs ++ [{ r with id := s.nextId, place := pl, order := s.nextOrder }], s.nextId + 1) := by
  unfold State.enterQueue
  dsimp only
  rw [State.requests_reEval, State.requests_judgePanic, State.requests_of_body (State.body_use _ _),
    State.requests_of_body (State.body_hint _ _)]
  split <;> rfl

/-- A request that passes the checks of arrival waits at SHAPE; WB and CLN_EVICT wait apart. -/
theorem State.arrive_of_open {s : State} {r : Req} (hclosed : s.closedTo r = false)
    (hfree : r.op.bypasses = true ∨ r.op = .jobClose ∨ s.enabled r.tid = true ∧ s.busyAt r = false) :
    s.arrive r = s.enterQueue r (if r.op.bypasses then .bypass else .queued) := by
  unfold State.arrive
  obtain hb | hj | ⟨hen, hbusy⟩ := hfree
  · simp [hclosed, hb]
  · simp [hclosed, hj, Op.bypasses]
  · cases hb : r.op.bypasses <;> simp [hclosed, hen, hbusy]

theorem State.closedTo_takeMsg (s : State) (p : Nat) (m : Msg) (r : Req) : (s.takeMsg p m).closedTo r = s.closedTo r := by
  unfold State.closedTo
  rw [State.shape_takeMsg]

theorem State.enabled_takeMsg (s : State) (p : Nat) (m : Msg) (tid : Nat) : (s.takeMsg p m).enabled tid = s.enabled tid := by
  unfold State.enabled
  rw [State.rd_takeMsg]

/-- What a request message that its port passes, and that passes the checks of arrival, makes of the node. -/
theorem State.reqIn_of_passes {s : State} {p opc : Nat} {op : Op} {m : Msg} (hm : s.passes p m = true)
    (hcls : m.cls.toNat = clsReq) (hopc : m.opc = opc) (hclosed : s.closedTo (reqOf op p m) = false)
    (hfree : op.bypasses = true ∨ op = .jobClose ∨ s.enabled m.rqTid = true ∧ s.busyAt (reqOf op p m) = false) :
    (s.reqIn p opc op m).nextId = s.nextId + 1 ∧
      (s.reqIn p opc op m).reqs =
        s.reqs ++ [{ reqOf op p m with id := s.nextId, place := if op.bypasses then .bypass else .queued, order := s.nextOrder }] ∧
      (s.reqIn p opc op m).core = s.core := by
  have hin : s.reqIn p opc op m =
      (s.takeMsg p m).enterQueue (reqOf op p m) (if op.bypasses then .bypass else .queued) := by
    unfold State.reqIn
    rw [State.portIn_of_passes _ hm hcls hopc]
    exact State.arrive_of_open (by rw [State.closedTo_takeMsg, hclosed])
      (by rwa [State.enabled_takeMsg, State.busyAt_takeMsg _ _ (State.isUp_of_passes hm)])
  have hrequests := (s.takeMsg p m).requests_enterQueue (reqOf op p m) (if op.bypasses then .bypass else .queued)
  rw [State.reqs_takeMsg, show (s.takeMsg p m).nextId = s.nextId from (congrArg State.nextId (s.body_takeMsg p m) :),
    show (s.takeMsg p m).nextOrder = s.nextOrder from (congrArg State.nextOrder (s.body_takeMsg p m) :)] at hrequests
  have hcore : (s.reqIn p opc op m).core = s.core := State.core_reqIn _ _ _ _ _
  rw [← hin] at hrequests
  generalize s.reqIn p opc op m = t at hrequests hcore ⊢
  obtain ⟨hreqs, hid⟩ := Prod.mk.inj hrequests
  exact ⟨hid, hreqs, hcore⟩

/-- While admission is open to all, every request may arrive. -/
theorem State.closedTo_of_open {s : State} {r : Req} (hopen : s.shape.open_ = true) (hclosing : s.shape.closing = false)
    (hhalted : s.shape.halted = false) : s.closedTo r = false := by
  simp [State.closedTo, hopen, hclosing, hhalted]

/-- The messages of the ten opcodes that are checked in full. -/
theorem State.reqIn_of_open {s : State} {p opc : Nat} {op : Op} {m : Msg} (hop : op.bypasses = false) (hm : s.passes p m = true)
    (hcls : m.cls.toNat = clsReq) (hopc : m.opc = opc) (hopen : s.shape.open_ = true) (hclosing : s.shape.closing = false)
    (hhalted : s.shape.halted = false) (hen : s.enabled m.rqTid = true) (hbusy : s.busyAt (reqOf op p m) = false) :
    (s.reqIn p opc op m).nextId = s.nextId + 1 ∧
      (s.reqIn p opc op m).reqs = s.reqs ++ [{ reqOf op p m with id := s.nextId, place := .queued, order := s.nextOrder }] ∧
      (s.reqIn p opc op m).core = s.core := by
  have h := State.reqIn_of_passes hm hcls hopc (State.closedTo_of_open hopen hclosing hhalted) (Or.inr (Or.inr ⟨hen, hbusy⟩))
  rwa [hop] at h

end Sys2Proof.Machine

open Sys2Proof.Machine

/-- Settles O10: each of the fourteen opcodes passes its port, and then the checks of arrival. -/
theorem requestsArrive : Obligations.RequestsArrive := by
  refine ⟨?_, ?_, ?_, ?_, ?_, ?_, fun s port m hacts hm hcls hopc hopen => ?_, fun s port m hacts hm hcls hopc hopen => ?_, ?_, ?_, ?_,
    ?_, ?_, fun s port m hacts hm hcls hopc hopen hhalted => ?_⟩
  case refine_7 =>
    exact ⟨_, State.onBlk_acts _ hacts, State.reqIn_of_passes (op := .wb) hm hcls hopc
      (by simp [State.closedTo, hopen, reqOf, Op.bypasses]) (Or.inl rfl)⟩
  case refine_8 =>
    exact ⟨_, State.onBlk_acts _ hacts, State.reqIn_of_passes (op := .clnEvict) hm hcls hopc
      (by simp [State.closedTo, hopen, reqOf, Op.bypasses]) (Or.inl rfl)⟩
  case refine_14 =>
    exact ⟨_, State.onBlk_acts _ hacts, State.reqIn_of_passes (op := .jobClose) hm hcls hopc
      (by simp [State.closedTo, hopen, hhalted, reqOf]) (Or.inr (Or.inl rfl))⟩
  all_goals
    intro s port m hacts hm hcls hopc hopen hclosing hhalted hen hbusy
    exact ⟨_, State.onBlk_acts _ hacts, State.reqIn_of_open rfl hm hcls hopc hopen hclosing hhalted hen hbusy⟩
end

section
/-! What the sending of flits and messages leaves of the ports. -/
namespace Sys2Proof.Machine

open Reg

/-! ### The transmitter's part of a port -/

/-- A port without what its transmitter changes when it sends. -/
def Port.kept (c : Port) : Port :=
  { c with
    txSeq := 0, replay := [], toReturn := [], nakSent := false, nakCount := 0, unackedRx := 0, txCrypt := .off, txq := [],
    credits := [], keyDue := false }

/-- The ports without what their transmitters change when they send. -/
def State.links (s : State) (p : Nat) : Port := (s.port p).kept

theorem State.links_of_ports {s t : State} (h : t.ports = s.ports) : t.links = s.links := by
  funext p
  unfold State.links State.port
  rw [h]

theorem State.links_setPort {s : State} {p : Nat} {c : Port} (h : c.kept = (s.port p).kept) : (s.setPort p c).links = s.links := by
  funext q
  unfold State.links
  by_cases hq : q = p
  · rw [hq, State.port_setPort_same, h]
  · rw [State.port_setPort_ne _ _ hq]

theorem State.links_emitFlit (s : State) (p ty : Nat) (l : List Slot) (c : Bool) : (s.emitFlit p ty l c).links = s.links := by
  unfold State.emitFlit
  dsimp only
  split
  · rfl
  · exact State.links_setPort rfl

theorem State.links_sendKeySwitch (s : State) (p : Nat) (b : Bool) : (s.sendKeySwitch p b).links = s.links := by
  unfold State.sendKeySwitch
  dsimp only
  refine Eq.trans (State.links_setPort ?_) (State.links_emitFlit ..)
  rfl

theorem State.links_dueKeySwitch (s : State) (p : Nat) : (s.dueKeySwitch p).links = s.links := by
  unfold State.dueKeySwitch
  dsimp only
  split
  · exact State.links_sendKeySwitch ..
  · rfl

theorem State.links_pump (s : State) (p : Nat) : (s.pump p).links = s.links := by
  unfold State.pump
  rw [← State.links_dueKeySwitch s p]
  refine foldl_keeps State.links _ (fun u x => ?_) _ _
  dsimp only
  split
  · rw [State.links_emitFlit]
    exact State.links_setPort rfl
  · rfl

theorem State.links_bumpBy (s : State) (f : Field) (n i x : Nat) : (s.bumpBy f n i x).links = s.links :=
  State.links_of_ports (State.bumpBy_ports ..)

theorem State.links_send (s : State) (p : Nat) (m : Msg) (t j : Nat) (tag : Option RspTag) : (s.send p m t j tag).links = s.links := by
  unfold State.send
  dsimp only
  split
  · rw [State.links_pump]
    exact State.links_setPort rfl
  split
  · exact State.links_bumpBy ..
  · rfl

theorem State.links_sendAgent (s : State) (a : Nat) (m : Msg) (t j : Nat) : (s.sendAgent a m t j).links = s.links := by
  unfold State.sendAgent
  split
  · rfl
  split
  · exact State.links_send ..
  split
  · exact State.links_bumpBy ..
  · rfl

theorem State.links_out (s : State) (o : Out) : (s.out o).links = s.links := rfl

theorem State.links_intrAgent (s : State) : s.intrAgent.links = s.links := by
  unfold State.intrAgent
  dsimp only
  split
  · split <;> rfl
  · exact State.links_sendAgent ..

theorem State.links_deliver (s : State) : s.deliver.links = s.links := by
  have hwarden : (if s.rd BDIR_TO_WARDEN = 1 then s.out .warden else s).links = s.links := by split <;> rfl
  unfold State.deliver
  dsimp only
  split
  · rw [State.links_intrAgent, hwarden]
  · exact hwarden

theorem State.links_wr (s : State) (f : Field) (v i x : Nat) : (s.wr f v i x).links = s.links :=
  State.links_of_ports (State.wr_ports ..)

theorem State.links_raise (s : State) (p c : Nat) : (s.raise p c).links = s.links := by
  unfold State.raise State.edge
  split
  · rw [State.links_deliver, State.links_wr]
  · exact State.links_wr ..

theorem State.links_sample (s : State) (p g : Nat) (v : Int) : (s.sample p g v).links = s.links := by
  unfold State.sample
  dsimp only
  split
  · split
    · rw [State.links_raise, State.bump, State.links_bumpBy, State.links_wr, State.links_wr]
      rfl
    · rw [State.links_wr]
      rfl
  · rw [State.links_wr]
    rfl

theorem State.links_crumb (s : State) (p c v : Nat) (l : List Nat) : (s.crumb p c v l).links = s.links := by
  unfold State.crumb
  dsimp only
  split
  · rw [State.links_raise, State.bump, State.links_bumpBy]
    rfl
  · unfold State.crumbStore
    dsimp only
    split
    · rw [State.links_raise, State.links_sample]
      rfl
    · rw [State.links_sample]
      rfl

theorem State.links_twSend (s : State) (m : Msg) (t j : Nat) : (s.twSend m t j).links = s.links := by
  unfold State.twSend
  split
  · exact State.links_send ..
  · rfl

theorem State.links_setTwin (s : State) (x : Twin) : State.links { s with twin := x } = s.links := rfl

theorem State.links_twMoved (s was : State) (back : Option Nat) : (s.twMoved was back).links = s.links := by
  have hlost : (if s.twLost && !was.twLost then s.raise pgTWIN I_TWIN_PARTNER_LOST else s).links = s.links := by
    split
    · exact State.links_raise ..
    · rfl
  unfold State.twMoved
  split
  · dsimp only
    split
    · exact hlost
    split
    · exact hlost
    · rw [foldl_keeps State.links _ (fun u x => State.links_twSend ..), State.links_setTwin, ← hlost]
      generalize (if s.twLost && !was.twLost then s.raise pgTWIN I_TWIN_PARTNER_LOST else s) = u
      split
      · exact State.links_bumpBy ..
      · rfl
  · rfl

/-! ### The registers that the sending of messages may change -/

/-- The field that counts the responses that no port could send. -/
theorem State.rd_send_ne (s : State) (p : Nat) (m : Msg) (t j : Nat) {tag : Option RspTag} {f : Field} {i x : Nat}
    (h : ∀ q, keyOf f i x ≠ keyOf FPORT_RSP_DROP q 0) : (s.send p m t j tag).rd f i x = s.rd f i x := by
  unfold State.send
  dsimp only
  split
  · rw [State.rd_of_tables (State.tables_pump _ _)]
    rfl
  split
  · exact State.rd_bump_ne _ (h p)
  · rfl

theorem State.rd_foldl {β : Type} (g : State → β → State) {f : Field} {i x : Nat}
    (h : ∀ u b, (g u b).rd f i x = u.rd f i x) (l : List β) (s : State) : (l.foldl g s).rd f i x = s.rd f i x := by
  induction l generalizing s with
  | nil => rfl
  | cons b l ih => rw [List.foldl_cons, ih, h]

theorem State.rd_setTwin (s : State) (y : Twin) (f : Field) (i x : Nat) : State.rd { s with twin := y } f i x = s.rd f i x := rfl

theorem State.rd_twMoved_ne (s was : State) (back : Option Nat) {f : Field} {i x : Nat}
    (hdrop : ∀ q, keyOf f i x ≠ keyOf FPORT_RSP_DROP q 0) (hstat : keyOf f i x ≠ keyOf H_INT_STAT pgTWIN 0)
    (hswitch : keyOf f i x ≠ keyOf TWIN_PORT_SWITCHES 0 0) : (s.twMoved was back).rd f i x = s.rd f i x := by
  have hlost : (if s.twLost && !was.twLost then s.raise pgTWIN I_TWIN_PARTNER_LOST else s).rd f i x = s.rd f i x := by
    split
    · exact State.rd_raise_ne _ _ _ hstat
    · rfl
  have hsend (u : State) (v : Nat × Msg × Nat × Nat) : (u.twSend v.2.1 v.2.2.1 v.2.2.2).rd f i x = u.rd f i x := by
    unfold State.twSend
    split
    · exact State.rd_send_ne _ _ _ _ _ hdrop
    · rfl
  unfold State.twMoved
  split
  · dsimp only
    split
    · exact hlost
    split
    · exact hlost
    · rw [State.rd_foldl _ hsend, State.rd_setTwin, ← hlost]
      generalize (if s.twLost && !was.twLost then s.raise pgTWIN I_TWIN_PARTNER_LOST else s) = u
      split
      · exact State.rd_bump_ne _ hswitch
      · rfl
  · rfl

/-- Fields at other offsets of their pages have other keys, whatever their pages. -/
theorem keyOf_ne_of_offset {f g : Field} (i j : Nat) (h : (f.off * 64 + f.lo) % 0x40000 ≠ (g.off * 64 + g.lo) % 0x40000) :
    keyOf f i 0 ≠ keyOf g j 0 := by
  unfold keyOf
  omega

end Sys2Proof.Machine
end

section
namespace Sys2Proof.Machine

open Reg

/-! ### What a port keeps while messages are sent -/

theorem State.train_of_links {s t : State} (h : t.links = s.links) (p : Nat) : (t.port p).train = (s.port p).train :=
  (congrArg Port.train (congrFun h p) :)

theorem State.module_of_links {s t : State} (h : t.links = s.links) (p : Nat) : (t.port p).module = (s.port p).module :=
  (congrArg Port.module (congrFun h p) :)

theorem State.recoverAt_of_links {s t : State} (h : t.links = s.links) (p : Nat) : (t.port p).recoverAt = (s.port p).recoverAt :=
  (congrArg Port.recoverAt (congrFun h p) :)

theorem State.refused_of_links {s t : State} (h : t.links = s.links) (p : Nat) : (t.port p).refused = (s.port p).refused :=
  (congrArg Port.refused (congrFun h p) :)

theorem State.lastParams_of_links {s t : State} (h : t.links = s.links) (p : Nat) : (t.port p).lastParams = (s.port p).lastParams :=
  (congrArg Port.lastParams (congrFun h p) :)

theorem State.links_bump (s : State) (f : Field) (i x : Nat) : (s.bump f i x).links = s.links := State.links_bumpBy ..

theorem State.links_setPort_congr {s t : State} (h : t.links = s.links) {p : Nat} {c d : Port} (hc : c.kept = d.kept) :
    (t.setPort p c).links = (s.setPort p d).links := by
  funext q
  unfold State.links at h ⊢
  by_cases hq : q = p
  · rw [hq, State.port_setPort_same, State.port_setPort_same, hc]
  · rw [State.port_setPort_ne _ _ hq, State.port_setPort_ne _ _ hq]
    exact congrFun h q

/-! ### Recovery -/

theorem State.recover_of_up {s : State} {p : Nat} (hup : (s.port p).isUp = true) : s.recover p =
    (((s.setPort p { s.port p with train := .recovery 4, recoverAt := s.ao, nakCount := 0, nakSeen := 0, uncorr := [] }).bump
      FPORT_RECOVERY p).raise (pgFPORT p) I_FPORT_RECOVER).twMoved s none := if_pos hup

/-- An Up link that enters Recovery stands at its first step since now. -/
theorem State.port_recover_of_up {s : State} {p : Nat} (hup : (s.port p).isUp = true) :
    ((s.recover p).port p).train = .recovery 4 ∧ ((s.recover p).port p).recoverAt = s.ao := by
  have hlinks : (s.recover p).links = (s.setPort p
      { s.port p with train := .recovery 4, recoverAt := s.ao, nakCount := 0, nakSeen := 0, uncorr := [] }).links := by
    rw [State.recover_of_up hup, State.links_twMoved, State.links_raise, State.links_bump]
  rw [State.train_of_links hlinks, State.recoverAt_of_links hlinks, State.port_setPort_same]
  exact ⟨rfl, rfl⟩

/-! ### Down -/

/-- The fall of a port tells no agent: it was not Up, its peer is a node, or the agent of its CXL link is not Live. -/
def State.fallsQuietly (s : State) (p : Nat) : Bool :=
  !(s.port p).alive || (if (s.port p).isCxl then !s.live (s.rd FPORT_CXL_AID p) else s.rd FPORT_PEER_ROLE p == roleNode)

theorem State.declare_of_dead {s : State} {a : Nat} (h : s.live a = false) (cause : Nat) : s.declare a cause = s := by
  have hstate : (s.agent a).state ≠ agLive := by simpa [State.live] using h
  unfold State.declare
  dsimp only
  exact if_neg hstate

theorem Port.kept_unlinked (c d : Port) (h : c.kept = d.kept) : c.unlinked.kept = d.unlinked.kept := by
  have h2 : c.unlinked.kept = c.kept.unlinked.kept := rfl
  rw [h2, h]
  rfl

theorem State.links_clearLink (s : State) (p : Nat) : (s.clearLink p).links = (s.setPort p (s.port p).unlinked).links := by
  unfold State.clearLink
  dsimp only
  rw [State.links_wr]
  refine foldl_keeps State.links _ (fun u x => ?_) _ _
  split
  · exact State.links_bump ..
  · rfl

/-- The registers of a port that its link's coming down may change, and those that hold what it raises. -/
def fallFields : List Field := [FPORT_RSP_DROP, FPORT_WIDTH, H_INT_STAT, FPORT_DOWNS, TWIN_PORT_SWITCHES]

/-- A field that the fall of a port leaves: another register of an FPORT page. -/
def Field.outlivesFall (f : Field) : Bool :=
  f.page == 0x10 && decide (f.off * 64 + f.lo < 0x40000) &&
    fallFields.all (fun g => (f.off * 64 + f.lo) % 0x40000 != (g.off * 64 + g.lo) % 0x40000)

theorem Field.keyOf_ne_of_outlivesFall {f : Field} (h : f.outlivesFall = true) {g : Field} (hg : g ∈ fallFields) (i j : Nat) :
    keyOf f i 0 ≠ keyOf g j 0 := by
  simp only [Field.outlivesFall, Bool.and_eq_true, List.all_eq_true] at h
  exact keyOf_ne_of_offset i j (by simpa using h.2 g hg)

theorem Field.page_of_outlivesFall {f : Field} (h : f.outlivesFall = true) (i : Nat) : keyOf f i 0 / 0x40000 ≠ pgEVLOG := by
  simp only [Field.outlivesFall, Bool.and_eq_true, beq_iff_eq, decide_eq_true_eq] at h
  obtain ⟨⟨hpage, hoff⟩, -⟩ := h
  have hev : pgEVLOG < 0x10 := by decide
  unfold keyOf
  rw [hpage]
  omega

theorem State.rd_clearLink_ne (s : State) (p : Nat) {f : Field} (hf : f.outlivesFall = true) (i : Nat) :
    (s.clearLink p).rd f i = s.rd f i := by
  unfold State.clearLink
  dsimp only
  rw [State.rd_wr_ne _ _ (Field.keyOf_ne_of_outlivesFall hf (by simp [fallFields]) _ _), State.rd_foldl]
  · rfl
  · intro u x
    split
    · exact State.rd_bump_ne _ (Field.keyOf_ne_of_outlivesFall hf (by simp [fallFields]) _ _)
    · rfl

/-- What stands before a port's fall is reported: its link stopped, and DOWN_REASON written. -/
def State.stopLink (s : State) (p reason : Nat) (dn : Bool) : State :=
  ((if dn && (s.port p).isUp && !(s.port p).isCxl then s.emitFlit p ftLctl [lctlSlot lkDown [(8, 4, reason)]] true else s).clearLink
    p).wr FPORT_DOWN_REASON reason p

theorem State.links_stopLink (s : State) (p reason : Nat) (dn : Bool) :
    (s.stopLink p reason dn).links = (s.setPort p (s.port p).unlinked).links := by
  have hsent : (if dn && (s.port p).isUp && !(s.port p).isCxl then
      s.emitFlit p ftLctl [lctlSlot lkDown [(8, 4, reason)]] true else s).links = s.links := by
    split
    · exact State.links_emitFlit ..
    · rfl
  unfold State.stopLink
  rw [State.links_wr, State.links_clearLink]
  exact State.links_setPort_congr hsent (Port.kept_unlinked _ _ (congrFun hsent p))

theorem State.rd_wr_congr {s u : State} {f g : Field} {v i x j y : Nat} (h : u.rd f i x = s.rd f i x) :
    (u.wr g v j y).rd f i x = (s.wr g v j y).rd f i x := by
  by_cases hk : keyOf f i x = keyOf g j y
  · unfold State.wr State.rd at *
    by_cases hf : f.staged <;> by_cases hg : g.staged <;> simp_all [Tab.get_set_same]
  · rw [State.rd_wr_ne _ _ hk, State.rd_wr_ne _ _ hk, h]

theorem State.rd_stopLink (s : State) (p reason : Nat) (dn : Bool) {f : Field} (hf : f.outlivesFall = true) (i : Nat) :
    (s.stopLink p reason dn).rd f i = (s.wr FPORT_DOWN_REASON reason p).rd f i := by
  unfold State.stopLink
  refine State.rd_wr_congr ((State.rd_clearLink_ne _ _ hf _).trans ?_)
  split
  · exact State.rd_of_tables (State.tables_emitFlit ..) _ _ _
  · rfl

theorem State.body_stopLink (s : State) (p reason : Nat) (dn : Bool) : (s.stopLink p reason dn).body = s.body := by
  have hfold (l : List (Msg × Option RspTag)) (u : State) :
      (l.foldl (fun (s : State) x => if x.1.cls.toNat = clsRsp then s.bump FPORT_RSP_DROP p else s) u).body = u.body :=
    foldl_keeps State.body _ (fun u x => by split <;> simp [State.body_bump]) _ _
  unfold State.stopLink State.clearLink
  dsimp only
  rw [State.body_wr, State.body_wr, hfold, State.body_setPort]
  split
  · exact State.body_emitFlit ..
  · rfl

/-- The fall as far as it is reported. -/
def State.reportFall (s : State) (p reason : Nat) (dn : Bool) : State :=
  if (s.port p).alive || ((reason = drTrainFail || reason = drModulePower || reason = drModuleId) && (s.port p).train != .down) then
    ((s.stopLink p reason dn).raise (pgFPORT p) I_FPORT_LINK_DOWN).crumb (pgFPORT p) 0x104 2 [packBits [(0, 4, p), (8, 4, reason)]]
  else s.stopLink p reason dn

theorem State.body_reportFall (s : State) (p reason : Nat) (dn : Bool) : (s.reportFall p reason dn).body = s.body := by
  unfold State.reportFall
  split
  · rw [State.body_crumb, State.body_raise, State.body_stopLink]
  · exact s.body_stopLink ..

theorem State.links_reportFall (s : State) (p reason : Nat) (dn : Bool) :
    (s.reportFall p reason dn).links = (s.setPort p (s.port p).unlinked).links := by
  unfold State.reportFall
  split
  · rw [State.links_crumb, State.links_raise, State.links_stopLink]
  · exact s.links_stopLink ..

theorem State.rd_reportFall (s : State) (p reason : Nat) (dn : Bool) {f : Field} (hf : f.outlivesFall = true) (i : Nat) :
    (s.reportFall p reason dn).rd f i = (s.wr FPORT_DOWN_REASON reason p).rd f i := by
  unfold State.reportFall
  split
  · rw [State.rd_crumb_ne _ _ _ _ _ (Field.page_of_outlivesFall hf i),
      State.rd_raise_ne _ _ _ (Field.keyOf_ne_of_outlivesFall hf (by simp [fallFields]) _ _), State.rd_stopLink _ _ _ _ hf]
  · exact s.rd_stopLink p reason dn hf i

theorem State.live_of_body {s t : State} (h : t.body = s.body) (a : Nat) : t.live a = s.live a := by
  have hagents : t.agents = s.agents := (congrArg State.agents h :)
  unfold State.live State.agent
  rw [hagents]

/-- A fall that tells no agent is reported, and counted where the link was Up or in Recovery; the Twin channel moves to its other
port. -/
theorem State.goDown_of_quiet {s : State} {p : Nat} (h : s.fallsQuietly p = true) (reason : Nat) (dn : Bool) :
    s.goDown p reason dn = if (s.port p).alive then
      (if (s.port p).isCxl then (s.reportFall p reason dn).bump FPORT_DOWNS p
       else ((s.reportFall p reason dn).bump FPORT_DOWNS p).twMoved s none)
    else s.reportFall p reason dn := by
  have hrd {f : Field} (hf : f.outlivesFall = true) (hne : keyOf f p 0 ≠ keyOf FPORT_DOWN_REASON p 0)
      (hdowns : keyOf f p 0 ≠ keyOf FPORT_DOWNS p 0) :
      ((s.reportFall p reason dn).bump FPORT_DOWNS p).rd f p = s.rd f p := by
    rw [State.rd_bump_ne _ hdowns, State.rd_reportFall _ _ _ _ hf, State.rd_wr_ne _ _ hne]
  have hlive (a : Nat) : ((s.reportFall p reason dn).bump FPORT_DOWNS p).live a = s.live a :=
    State.live_of_body (by rw [State.body_bump, State.body_reportFall]) a
  have hgo : s.goDown p reason dn = if (s.port p).alive then
      (if (s.port p).isCxl then
        ((s.reportFall p reason dn).bump FPORT_DOWNS p).declare (((s.reportFall p reason dn).bump FPORT_DOWNS p).rd FPORT_CXL_AID p)
          lostCxl
       else if ((s.reportFall p reason dn).bump FPORT_DOWNS p).rd FPORT_PEER_ROLE p = roleNode then
        ((s.reportFall p reason dn).bump FPORT_DOWNS p).twMoved s none
       else (((s.reportFall p reason dn).bump FPORT_DOWNS p).liveBehind p).foldl (fun (s : State) a => s.declare a lostPort)
        ((s.reportFall p reason dn).bump FPORT_DOWNS p))
    else s.reportFall p reason dn := rfl
  rw [hgo]
  cases halive : (s.port p).alive
  · rfl
  · cases hcxl : (s.port p).isCxl
    · have hrole : s.rd FPORT_PEER_ROLE p = roleNode := by simpa [State.fallsQuietly, halive, hcxl] using h
      have hrole' := (hrd (f := FPORT_PEER_ROLE) rfl (keyOf_ne_of_offset _ _ (by decide)) (keyOf_ne_of_offset _ _ (by decide))).trans
        hrole
      rw [if_pos rfl, if_pos rfl, if_neg Bool.false_ne_true, if_neg Bool.false_ne_true, if_pos hrole']
    · have hdead : s.live (s.rd FPORT_CXL_AID p) = false := by simpa [State.fallsQuietly, halive, hcxl] using h
      rw [if_pos rfl, if_pos rfl, if_pos rfl, if_pos rfl, State.declare_of_dead]
      rw [hrd rfl (keyOf_ne_of_offset _ _ (by decide)) (keyOf_ne_of_offset _ _ (by decide)), hlive, hdead]

/-- Where a port goes Down and no agent is told, its link is stopped and the other ports keep theirs. -/
theorem State.links_goDown {s : State} {p : Nat} (h : s.fallsQuietly p = true) (reason : Nat) (dn : Bool) :
    (s.goDown p reason dn).links = (s.setPort p (s.port p).unlinked).links := by
  rw [State.goDown_of_quiet h]
  split
  · split
    · rw [State.links_bump, State.links_reportFall]
    · rw [State.links_twMoved, State.links_bump, State.links_reportFall]
  · exact s.links_reportFall ..

theorem State.rd_goDown {s : State} {p : Nat} (h : s.fallsQuietly p = true) (reason : Nat) (dn : Bool) {f : Field}
    (hf : f.outlivesFall = true) (i : Nat) : (s.goDown p reason dn).rd f i = (s.wr FPORT_DOWN_REASON reason p).rd f i := by
  have hne {g : Field} (hg : g ∈ fallFields) (j : Nat) : keyOf f i 0 ≠ keyOf g j 0 := Field.keyOf_ne_of_outlivesFall hf hg i j
  have hrd := s.rd_reportFall p reason dn hf i
  have hdowns : ((s.reportFall p reason dn).bump FPORT_DOWNS p).rd f i = (s.wr FPORT_DOWN_REASON reason p).rd f i := by
    rw [State.rd_bump_ne _ (hne (by simp [fallFields]) _), hrd]
  rw [State.goDown_of_quiet h]
  split
  · split
    · exact hdowns
    · rw [State.rd_twMoved_ne _ _ _ (hne (by simp [fallFields])) (hne (by simp [fallFields]) _) (hne (by simp [fallFields]) _), hdowns]
  · exact hrd

theorem State.trainBy_of_no_module {s : State} {p : Nat} (h : (s.port p).module = none) (fresh : Bool) (go : State → State) :
    s.trainBy p fresh go = s := by
  unfold State.trainBy
  dsimp only
  split
  · next m _ hm => rw [h] at hm; exact absurd hm (by simp)
  · rfl

/-- A port without a module that falls, and tells no agent, stays Down with the reason. -/
theorem State.fall_of_no_module {s : State} {p : Nat} (h : s.fallsQuietly p = true) (hmod : (s.port p).module = none) (reason : Nat)
    (dn : Bool) : s.fall p reason dn = s.goDown p reason dn ∧ ((s.fall p reason dn).port p).train = .down ∧
      (s.fall p reason dn).rd FPORT_DOWN_REASON p = reason % 2 ^ FPORT_DOWN_REASON.width := by
  have hlinks := State.links_goDown h reason dn
  have hfall : s.fall p reason dn = s.goDown p reason dn := by
    unfold State.fall State.tryTrain
    refine State.trainBy_of_no_module ?_ _ _
    rw [State.module_of_links hlinks, State.port_setPort_same]
    exact hmod
  rw [hfall]
  refine ⟨rfl, ?_, ?_⟩
  · rw [State.train_of_links hlinks, State.port_setPort_same]
    rfl
  · rw [State.rd_goDown h _ _ rfl, State.rd_wr_same]

end Sys2Proof.Machine
end

section
namespace Sys2Proof.Machine

open Reg

theorem State.paramsOk_of_rd {s t : State} {p : Nat} (hreq : t.rd FPORT_ENC_REQUIRE p = s.rd FPORT_ENC_REQUIRE p)
    (hnid : t.rd FPORT_PEER_NID p = s.rd FPORT_PEER_NID p) (hfirst : t.rd FPORT_AID_FIRST p = s.rd FPORT_AID_FIRST p)
    (hlast : t.rd FPORT_AID_LAST p = s.rd FPORT_AID_LAST p) (q : ParamsFlit) : t.paramsOk p q = s.paramsOk p q := by
  unfold State.paramsOk
  rw [hreq, hnid, hfirst, hlast]

/-- A peer's PARAMS recorded, before they are judged. -/
def State.notePeer (s : State) (p : Nat) (q : ParamsFlit) : State :=
  (s.wr FPORT_PEER_ROLE q.role.toNat p).wr FPORT_PEER_NID_SEEN (if q.role.toNat = roleNode then q.nid.toNat else 0) p

theorem State.port_notePeer (s : State) (p : Nat) (q : ParamsFlit) (r : Nat) : (s.notePeer p q).port r = s.port r := by
  unfold State.port State.notePeer
  rw [State.wr_ports, State.wr_ports]

theorem State.rd_notePeer_ne (s : State) (p : Nat) (q : ParamsFlit) {f : Field} {i : Nat}
    (hrole : keyOf f i 0 ≠ keyOf FPORT_PEER_ROLE p 0) (hseen : keyOf f i 0 ≠ keyOf FPORT_PEER_NID_SEEN p 0) :
    (s.notePeer p q).rd f i = s.rd f i := by
  rw [State.notePeer, State.rd_wr_ne _ _ hseen, State.rd_wr_ne _ _ hrole]

theorem State.rd_notePeer_role (s : State) (p : Nat) (q : ParamsFlit) : (s.notePeer p q).rd FPORT_PEER_ROLE p = q.role.toNat := by
  rw [State.notePeer, State.rd_wr_ne _ _ (keyOf_ne_of_offset _ _ (by decide)), State.rd_wr_same]
  exact Nat.mod_eq_of_lt q.role.isLt

theorem State.paramsOk_notePeer (s : State) (p : Nat) (q : ParamsFlit) : (s.notePeer p q).paramsOk p q = s.paramsOk p q :=
  State.paramsOk_of_rd
    (s.rd_notePeer_ne p q (keyOf_ne_of_offset _ _ (by decide)) (keyOf_ne_of_offset _ _ (by decide)))
    (s.rd_notePeer_ne p q (keyOf_ne_of_offset _ _ (by decide)) (keyOf_ne_of_offset _ _ (by decide)))
    (s.rd_notePeer_ne p q (keyOf_ne_of_offset _ _ (by decide)) (keyOf_ne_of_offset _ _ (by decide)))
    (s.rd_notePeer_ne p q (keyOf_ne_of_offset _ _ (by decide)) (keyOf_ne_of_offset _ _ (by decide))) q

theorem exec_params_of_step6 {s : State} {port : Fin 16} (q : ParamsFlit) (hacts : s.acts (pgFPORT port.val) = true)
    (hstep : (s.port port.val).train = .step 6) :
    exec (.params port q) s = .next ((s.notePeer port.val q).judgeParams port.val q) :=
  (State.onBlk_acts _ hacts).trans (if_pos (by rw [hstep]; rfl))

theorem State.judgeParams_of_ok {s : State} {p : Nat} {q : ParamsFlit} (h : s.paramsOk p q = true) : s.judgeParams p q =
    (s.setPort p { s.port p with train := .step 7, refused := false, lastParams := some q }).emitTraining p
      (lctlSlot lkCreditInit (creditFields 2048 512 4096 512)) := if_pos h

theorem State.judgeParams_of_refused {s : State} {p : Nat} {q : ParamsFlit} (h : s.paramsOk p q = false) : s.judgeParams p q =
    ((s.setPort p { s.port p with refused := true, lastParams := some q }).wr FPORT_DOWN_REASON drParams p).sendParams p :=
  if_neg (by simp [h])

theorem State.port_emitTraining (s : State) (p : Nat) (x : Slot) (q : Nat) : (s.emitTraining p x).port q = s.port q := rfl
theorem State.rd_emitTraining (s : State) (p : Nat) (x : Slot) (f : Field) (i j : Nat) : (s.emitTraining p x).rd f i j = s.rd f i j := rfl

theorem linkControl_params (s : State) (port : Fin 16) (q : ParamsFlit) (hacts : s.acts (pgFPORT port.val) = true)
    (hstep : (s.port port.val).train = .step 6) (hok : s.paramsOk port.val q = true) :
    Completes (.params port q) s fun t => (t.port port.val).train = .step 7 ∧
    (t.port port.val).lastParams = some q ∧ (t.port port.val).refused = false ∧ t.rd FPORT_PEER_ROLE port.val = q.role.toNat := by
  refine ⟨_, exec_params_of_step6 q hacts hstep, ?_⟩
  dsimp only
  rw [State.judgeParams_of_ok (by rw [State.paramsOk_notePeer, hok]), State.port_emitTraining, State.port_setPort_same]
  exact ⟨rfl, rfl, rfl, State.rd_notePeer_role ..⟩

theorem linkControl_params_refused (s : State) (port : Fin 16) (q : ParamsFlit) (hacts : s.acts (pgFPORT port.val) = true)
    (hstep : (s.port port.val).train = .step 6) (hok : s.paramsOk port.val q = false) :
    Completes (.params port q) s fun t => (t.port port.val).train = .step 6 ∧
    (t.port port.val).refused = true ∧ t.rd FPORT_DOWN_REASON port.val = drParams := by
  refine ⟨_, exec_params_of_step6 q hacts hstep, ?_⟩
  dsimp only
  rw [State.judgeParams_of_refused (by rw [State.paramsOk_notePeer, hok]), State.sendParams, State.port_emitTraining,
    State.rd_emitTraining, State.rd_wr_same, State.port, State.wr_ports, ← State.port, State.port_setPort_same, State.port_notePeer]
  exact ⟨hstep, rfl, rfl⟩

theorem State.dueKeySwitch_of_idle {s : State} {p : Nat} (h : (s.port p).keyDue = false) : s.dueKeySwitch p = s := by
  simp [State.dueKeySwitch, h]

theorem State.pump_of_idle {s : State} {p : Nat} (hq : (s.port p).txq = []) (hkey : (s.port p).keyDue = false) : s.pump p = s := by
  unfold State.pump
  rw [hq, State.dueKeySwitch_of_idle hkey]
  rfl

theorem exec_keySwitch_of_listens {s : State} {port : Fin 16} (set : Bool) (hacts : s.acts (pgFPORT port.val) = true)
    (h : (s.port port.val).listens = true) : exec (.keySwitch port set) s = .next (s.rxKeySwitch port.val set) := by
  refine (State.onBlk_acts _ hacts).trans ?_
  unfold Port.listens at h
  cases htrain : (s.port port.val).train with
  | up => rfl
  | step n =>
    rw [htrain] at h
    exact if_pos (of_decide_eq_true h)
  | down => simp [htrain] at h
  | recovery n => simp [htrain] at h

/-! ### Attempts -/

/-- An attempt in the mode that the port has leaves the other port of a CXL pair alone. -/
theorem State.attempt_of_same_mode {s : State} {p : Nat} (h : s.rd FPORT_MODE p = (s.port p).mode) : s.attempt p = s.attemptOne p := by
  unfold State.attempt Port.isCxl
  rw [h]
  by_cases hm : (s.port p).mode = 1 <;> simp [hm]

theorem State.attemptOne_of_on {s : State} {p : Nat} (h : s.rd FPORT_MODE p ≠ 2) : s.attemptOne p =
    (s.setPort p { (s.port p).unlinked with train := .step 2, mode := s.rd FPORT_MODE p }).wr FPORT_WIDTH 0 p := by
  simp [State.attemptOne, h]

theorem State.port_wr (s : State) (f : Field) (v i x q : Nat) : (s.wr f v i x).port q = s.port q := by
  unfold State.port
  rw [State.wr_ports]

/-! ### A sequenced flit -/

/-- The flit that a port's transmitter makes of slots before it encrypts them, with the credit it carries. -/
def Port.plainFlit (c : Port) (ty : Nat) (slots : List Slot) : Flit :=
  let cls := (List.range 4).find? (fun i => c.toReturn[i]?.getD 0 != 0)
  { ftype := BitVec.ofNat 2 ty, seq := c.txSeq, ack := c.rxAck, nak := c.discarding && !c.nakSent, tag := false,
    crdClass := BitVec.ofNat 2 (cls.getD 0), crdCount := BitVec.ofNat 5 (if cls.isSome then min 31 (c.toReturn[cls.getD 0]?.getD 0) else 0),
    ksel := c.txCrypt.active && c.txCrypt.sel, slots := fillSlots slots }

/-- The sequenced flit as it is sent, and the state of the transmitter's encryption after it. -/
def Port.sealed (c : Port) (ty : Nat) (slots : List Slot) (close : Bool) : Flit × LinkCrypt :=
  sealFlit c.txCrypt (c.plainFlit ty slots) (close || c.txCrypt.group.length == 7)

theorem sealFlit_fields (c : LinkCrypt) (f : Flit) (close : Bool) :
    (sealFlit c f close).1.seq = f.seq ∧ (sealFlit c f close).1.ftype = f.ftype := by
  unfold sealFlit
  split
  · dsimp only
    split <;> exact ⟨rfl, rfl⟩
  · exact ⟨rfl, rfl⟩

theorem sealFlit_of_inactive {c : LinkCrypt} (h : c.active = false) (f : Flit) (close : Bool) : sealFlit c f close = (f, c) := by
  simp [sealFlit, h]

theorem sealFlit_closed {c : LinkCrypt} (hactive : c.active = true) (hkey : c.key.isSome = true) (f : Flit) :
    (sealFlit c f true).1.tag = true ∧ (sealFlit c f true).2.group = [] := by
  obtain ⟨k, hk⟩ := Option.isSome_iff_exists.mp hkey
  simp [sealFlit, hactive, hk, LinkCrypt.step]

theorem State.emitFlit_of_sequenced {s : State} {p ty : Nat} {slots : List Slot} {close : Bool} (hty : ty ≠ ftIdle)
    (hmute : (s.port p).txCrypt.mute = false) :
    ∃ c : Port, s.emitFlit p ty slots close = (s.setPort p c).out (.flit p ((s.port p).sealed ty slots close).1) ∧
      c.txSeq = (s.port p).txSeq + 1 ∧ c.replay = (s.port p).replay ++ [((s.port p).sealed ty slots close).1] ∧
      c.txCrypt = ((s.port p).sealed ty slots close).2 ∧ c.kept = (s.port p).kept ∧
      ((s.port p).toReturn = [0, 0, 0, 0] → c.toReturn = [0, 0, 0, 0]) := by
  unfold State.emitFlit
  simp only [hmute, bne_iff_ne.mpr hty, Bool.and_false, Bool.false_eq_true, if_false, if_true]
  refine ⟨_, rfl, rfl, rfl, rfl, rfl, fun h => ?_⟩
  dsimp only
  rw [h]
  rfl

/-! ### KEY_SWITCH written -/

theorem LinkCrypt.mute_of_key {c : LinkCrypt} (h : c.key.isSome = true) : c.mute = false := by
  unfold LinkCrypt.mute
  rw [Option.isNone_eq_false_iff.mpr h, Bool.and_false]

theorem State.port_out (s : State) (o : Out) (p : Nat) : (s.out o).port p = s.port p := rfl

/-- A KEY_SWITCH flit sent changes the transmitter's set. -/
theorem State.port_sendKeySwitch {s : State} {p : Nat} (set : Bool) (hkey : (s.port p).txCrypt.key.isSome = true) :
    ((s.sendKeySwitch p set).port p).txCrypt.sel = set ∧ ((s.sendKeySwitch p set).port p).txCrypt.active = true ∧
      ((s.sendKeySwitch p set).port p).txCrypt.group = [] ∧ ((s.sendKeySwitch p set).port p).txSeq = (s.port p).txSeq + 1 ∧
      ((s.sendKeySwitch p set).port p).replay.length = (s.port p).replay.length + 1 := by
  obtain ⟨c, hemit, hseq, hreplay, -, -, -⟩ := State.emitFlit_of_sequenced (s := s) (p := p)
    (slots := [lctlSlot lkKeySwitch [(8, 1, b2n set)]]) (close := true) (show ftLctl ≠ ftIdle by decide) (LinkCrypt.mute_of_key hkey)
  unfold State.sendKeySwitch
  dsimp only
  rw [State.port_setPort_same]
  dsimp only
  rw [hemit, State.port_out, State.port_setPort_same, hseq, hreplay]
  exact ⟨rfl, rfl, rfl, rfl, by simp⟩

theorem State.regs_emitFlit (s : State) (p ty : Nat) (l : List Slot) (c : Bool) : (s.emitFlit p ty l c).regs = s.regs :=
  (congrArg Prod.fst (s.tables_emitFlit p ty l c) :)

theorem State.regs_sendKeySwitch (s : State) (p : Nat) (set : Bool) : (s.sendKeySwitch p set).regs = s.regs :=
  s.regs_emitFlit ..

theorem State.keySwitchWrite_of_loaded {s : State} {p : Nat} (halive : (s.port p).alive = true)
    (hactive : (s.port p).txCrypt.active = true) (hloaded : (s.port p).txCrypt.loaded (!(s.port p).txCrypt.sel) = true) :
    s.keySwitchWrite p = (s.setPort p { s.port p with keyDue := true }).dueKeySwitch p := if_pos (by simp [halive, hactive, hloaded])

theorem Port.alive_of_isUp {c : Port} (h : c.isUp = true) : c.alive = true := by
  have htrain : c.train = .up := by simpa [Port.isUp] using h
  simp [Port.alive, htrain]

theorem Port.train_of_isUp {c : Port} (h : c.isUp = true) : c.train = .up := by simpa [Port.isUp] using h

/-! ### LinkControl, by its messages -/

theorem linkControl_creditInit (s : State) (port : Fin 16) (c : Credits) (hacts : s.acts (pgFPORT port.val) = true)
    (hstep : (s.port port.val).train = .step 7) :
    Completes (.creditInit port c) s fun t => (t.port port.val).train = .step 8 ∧
    (t.port port.val).credits = [c.req.toNat, c.snp.toNat, c.rsp.toNat, c.sys.toNat] ∧ (t.port port.val).txSeq = 1 ∧
    t.regs = s.regs := by
  refine ⟨_, (State.onBlk_acts _ hacts).trans (if_pos (by rw [hstep]; rfl)), ?_⟩
  beta_reduce
  rw [State.port_setPort_same]
  exact ⟨rfl, rfl, rfl, rfl⟩

theorem linkControl_credit (s : State) (port : Fin 16) (c : Credits) (a b d e : Nat) (hacts : s.acts (pgFPORT port.val) = true)
    (hup : (s.port port.val).isUp = true) (hq : (s.port port.val).txq = []) (hkey : (s.port port.val).keyDue = false)
    (hcredits : (s.port port.val).credits = [a, b, d, e]) :
    Completes (.credit port c) s fun t =>
    (t.port port.val).credits = [a + c.req.toNat, b + c.snp.toNat, d + c.rsp.toNat, e + c.sys.toNat] ∧ t.body = s.body ∧
    t.regs = s.regs := by
  refine ⟨s.addCredits port.val [c.req.toNat, c.snp.toNat, c.rsp.toNat, c.sys.toNat],
    (State.onBlk_acts _ hacts).trans (if_pos hup), ?_⟩
  beta_reduce
  rw [State.addCredits, State.pump_of_idle (by rw [State.port_setPort_same]; exact hq) (by rw [State.port_setPort_same]; exact hkey),
    State.port_setPort_same, hcredits, State.body_setPort]
  exact ⟨rfl, rfl, rfl⟩

theorem linkControl_keySwitchWrite (s : State) (port : Fin 16) (hacts : s.acts (pgFPORT port.val) = true)
    (hup : (s.port port.val).isUp = true) (hactive : (s.port port.val).txCrypt.active = true)
    (hkey : (s.port port.val).txCrypt.key.isSome = true)
    (hloaded : (s.port port.val).txCrypt.loaded (!(s.port port.val).txCrypt.sel) = true)
    (hroom : (s.port port.val).replay.length < 512) :
    Completes (.keySwitchWrite port) s fun t => (t.port port.val).txCrypt.sel = !(s.port port.val).txCrypt.sel ∧
    (t.port port.val).txCrypt.active = true ∧ (t.port port.val).txCrypt.group = [] ∧
    (t.port port.val).txSeq = (s.port port.val).txSeq + 1 ∧ (t.port port.val).replay.length = (s.port port.val).replay.length + 1 ∧
    t.body = s.body ∧ t.regs = s.regs := by
  have hdue : s.keySwitchWrite port.val =
      (s.setPort port.val { s.port port.val with keyDue := true }).sendKeySwitch port.val (!(s.port port.val).txCrypt.sel) := by
    rw [State.keySwitchWrite_of_loaded (Port.alive_of_isUp hup) hactive hloaded, State.dueKeySwitch]
    dsimp only
    rw [State.port_setPort_same, if_pos]
    simp only [Port.isUp] at hup
    simp [Port.isUp, hup, hroom]
  refine ⟨_, State.onBlk_acts _ hacts, ?_⟩
  dsimp only
  rw [hdue]
  obtain ⟨hsel, hact, hgroup, hseq, hlen⟩ := State.port_sendKeySwitch
    (s := s.setPort port.val { s.port port.val with keyDue := true }) (p := port.val) (!(s.port port.val).txCrypt.sel)
    (by rw [State.port_setPort_same]; exact hkey)
  rw [State.port_setPort_same] at hseq hlen
  exact ⟨hsel, hact, hgroup, hseq, hlen, by rw [State.body_sendKeySwitch, State.body_setPort], State.regs_sendKeySwitch ..⟩

theorem linkControl_keySwitchWrite_waits (s : State) (port : Fin 16) (hacts : s.acts (pgFPORT port.val) = true)
    (halive : (s.port port.val).alive = true) (hactive : (s.port port.val).txCrypt.active = true)
    (hloaded : (s.port port.val).txCrypt.loaded (!(s.port port.val).txCrypt.sel) = true)
    (hfull : (s.port port.val).isUp = false ∨ 512 ≤ (s.port port.val).replay.length) :
    Completes (.keySwitchWrite port) s fun t =>
    t.port port.val = { s.port port.val with keyDue := true } ∧ t.outs = s.outs ∧ t.body = s.body ∧ t.regs = s.regs := by
  have hdue : s.keySwitchWrite port.val = s.setPort port.val { s.port port.val with keyDue := true } := by
    rw [State.keySwitchWrite_of_loaded halive hactive hloaded, State.dueKeySwitch]
    dsimp only
    rw [State.port_setPort_same, if_neg]
    simp only [Port.isUp] at hfull
    obtain hfull | hfull := hfull
    · simp [Port.isUp, hfull]
    · simp [show ¬(s.port port.val).replay.length < 512 by omega]
  refine ⟨_, State.onBlk_acts _ hacts, ?_⟩
  dsimp only
  rw [hdue]
  exact ⟨State.port_setPort_same .., rfl, rfl, rfl⟩

theorem linkControl_retrain_step (s : State) (port : Fin 16) (n : Nat) (hacts : s.acts (pgFPORT port.val) = true)
    (hstep : (s.port port.val).train = .step n) (hpair : s.paired port.val = false)
    (hmode : s.rd FPORT_MODE port.val = (s.port port.val).mode) (hon : (s.port port.val).mode ≠ 2) :
    Completes (.retrain port) s fun t => (t.port port.val).train = .step 2 ∧ (t.port port.val).attempts = 0 ∧
    t.regs = (s.wr FPORT_WIDTH 0 port.val).regs := by
  have hretrain : s.retrain port.val = (s.setPort port.val { s.port port.val with attempts := 0 }).attemptOne port.val := by
    have hdef : s.retrain port.val = (s.setPort port.val { s.port port.val with attempts := 0 }).attempt port.val := by
      unfold State.retrain
      dsimp only
      rw [hstep]
    rw [hdef, State.attempt_of_same_mode]
    rw [State.port_setPort_same]
    exact hmode
  refine ⟨s.retrain port.val, (State.onBlk_acts _ hacts).trans (if_neg (by simp [hpair])), ?_⟩
  beta_reduce
  rw [hretrain, State.attemptOne_of_on (s := s.setPort port.val { s.port port.val with attempts := 0 }) (by
    show s.rd FPORT_MODE port.val ≠ 2
    rwa [hmode])]
  rw [State.port_wr, State.port_setPort_same, State.port_setPort_same]
  exact ⟨rfl, rfl, rfl⟩

theorem linkControl_lossOfSignal_step (s : State) (port : Fin 16) (n : Nat) (hacts : s.acts (pgFPORT port.val) = true)
    (hstep : (s.port port.val).train = .step n)
    (hmode : s.rd FPORT_MODE port.val = (s.port port.val).mode) (hon : (s.port port.val).mode ≠ 2) :
    Completes (.lossOfSignal port) s fun t => (t.port port.val).train = .step 2 ∧
    (t.port port.val).attempts = (s.port port.val).attempts ∧ t.rd FPORT_WIDTH port.val = 0 := by
  refine ⟨(s.attempt port.val).wr FPORT_WIDTH 0 port.val, (State.onBlk_acts _ hacts).trans ?_, ?_⟩
  · rw [hstep]
  beta_reduce
  rw [State.attempt_of_same_mode hmode, State.attemptOne_of_on (by rwa [hmode]), State.rd_wr_same, State.port_wr, State.port_wr,
    State.port_setPort_same]
  exact ⟨rfl, rfl, rfl⟩

theorem linkControl_linkTimeout (s : State) (port : Fin 16) (n : Nat) (hacts : s.acts (pgFPORT port.val) = true)
    (hcxl : (s.port port.val).isCxl = false) (hrec : (s.port port.val).train = .recovery n)
    (hlate : (s.port port.val).recoverAt + s.rd FPORT_LINK_TIMEOUT port.val ≤ s.ao)
    (hrole : s.rd FPORT_PEER_ROLE port.val = roleNode) (hmod : (s.port port.val).module = none) :
    Completes (.linkTimeout port) s fun t =>
    t.rd FPORT_DOWN_REASON port.val = drTimeout ∧ (t.port port.val).train = .down := by
  obtain ⟨-, hdown, hreason⟩ := State.fall_of_no_module (s := s) (p := port.val)
    (by simp [State.fallsQuietly, hcxl, hrole]) hmod drTimeout false
  refine ⟨s.fall port.val drTimeout false, (State.onBlk_acts _ hacts).trans ?_, hreason, hdown⟩
  rw [hrec]
  exact if_pos hlate

theorem linkControl_down (s : State) (port : Fin 16) (reason : BitVec 4) (hacts : s.acts (pgFPORT port.val) = true)
    (hlistens : (s.port port.val).listens = true) (hcxl : (s.port port.val).isCxl = false)
    (hrole : s.rd FPORT_PEER_ROLE port.val = roleNode) (hmod : (s.port port.val).module = none) :
    Completes (.down port reason) s fun t => t.rd FPORT_PEER_DOWN_REASON port.val = reason.toNat ∧
    t.rd FPORT_DOWN_REASON port.val = drPeerDown ∧ (t.port port.val).train = .down := by
  have hport := State.port_wr s FPORT_PEER_DOWN_REASON reason.toNat port.val 0 port.val
  have hrole' : (s.wr FPORT_PEER_DOWN_REASON reason.toNat port.val).rd FPORT_PEER_ROLE port.val = roleNode := by
    rw [State.rd_wr_ne _ _ (keyOf_ne_of_offset _ _ (by decide)), hrole]
  have hquiet : (s.wr FPORT_PEER_DOWN_REASON reason.toNat port.val).fallsQuietly port.val = true := by
    simp [State.fallsQuietly, hport, hcxl, hrole']
  obtain ⟨hfall, hdown, hreason⟩ := State.fall_of_no_module hquiet (by rw [hport, hmod]) drPeerDown false
  refine ⟨(s.wr FPORT_PEER_DOWN_REASON reason.toNat port.val).fall port.val drPeerDown false,
    (State.onBlk_acts _ hacts).trans (congrArg _ (if_pos hlistens)), ?_, hreason, hdown⟩
  rw [hfall, State.rd_goDown hquiet _ _ rfl, State.rd_wr_ne _ _ (keyOf_ne_of_offset _ _ (by decide)), State.rd_wr_same]
  exact Nat.mod_eq_of_lt reason.isLt

theorem linkControl_disable (s : State) (port : Fin 16) (hacts : s.acts (pgFPORT port.val) = true)
    (hdead : (s.port port.val).alive = false) (hpair : s.paired port.val = false) (hen : s.rd FPORT_ENABLE port.val = 1) :
    Completes (.enableWrite port false) s fun t => t.rd FPORT_ENABLE port.val = 0 ∧
    t.rd FPORT_DOWN_REASON port.val = drDisabled ∧ (t.port port.val).train = .down ∧ t.body = s.body := by
  have hport := State.port_wr s FPORT_ENABLE 0 port.val 0 port.val
  have hquiet : (s.wr FPORT_ENABLE 0 port.val).fallsQuietly port.val = true := by simp [State.fallsQuietly, hport, hdead]
  have hgo : s.enableWrite port.val false = (s.wr FPORT_ENABLE 0 port.val).goDown port.val drDisabled true := by
    simp [State.enableWrite, hen, b2n]
  refine ⟨s.enableWrite port.val false, (State.onBlk_acts _ hacts).trans (if_neg (by simp [hpair])), ?_⟩
  beta_reduce
  rw [hgo]
  refine ⟨?_, ?_, ?_, ?_⟩
  · rw [State.rd_goDown hquiet _ _ rfl, State.rd_wr_ne _ _ (keyOf_ne_of_offset _ _ (by decide)), State.rd_wr_same]
    rfl
  · rw [State.rd_goDown hquiet _ _ rfl, State.rd_wr_same]
    rfl
  · rw [State.train_of_links (State.links_goDown hquiet _ _), State.port_setPort_same]
    rfl
  · rw [State.goDown_of_quiet hquiet, hport, hdead, if_neg Bool.false_ne_true, State.body_reportFall, State.body_wr]

/-! ### ENABLE written 1 -/

theorem keyOf_ne_of_place {f g : Field} (p : Nat) {x y : Nat} (hpage : f.page = g.page)
    (h : (f.off + x * f.stride) * 64 + f.lo ≠ (g.off + y * g.stride) * 64 + g.lo) : keyOf f p x ≠ keyOf g p y := by
  unfold keyOf
  rw [hpage]
  omega

/-- The fields that a copy of a module's CMIS data writes, with their numbers of registers. -/
def cmisFields : List (Field × Nat) :=
  [(FPORT_CMIS_ID, 1), (FPORT_CMIS_REV, 1), (FPORT_CMIS_STATE, 1), (FPORT_CMIS_VALID, 1), (FPORT_CMIS_MAXPWR, 1),
    (FPORT_CMIS_LENGTH, 1), (FPORT_CMIS_VENDOR, 4), (FPORT_CMIS_PN, 4), (FPORT_CMIS_SN, 4)]

/-- A register of the same page that a copy of the module's CMIS data does not write. -/
def Field.besideCmis (f : Field) : Bool :=
  cmisFields.all (fun g => f.page == g.1.page &&
    (List.range g.2).all (fun y => f.off * 64 + f.lo != (g.1.off + y * g.1.stride) * 64 + g.1.lo))

theorem Field.keyOf_ne_of_besideCmis {f : Field} (h : f.besideCmis = true) {g : Field} {n y : Nat} (hg : (g, n) ∈ cmisFields)
    (hy : y < n) (p : Nat) : keyOf f p 0 ≠ keyOf g p y := by
  simp only [Field.besideCmis, List.all_eq_true, Bool.and_eq_true, beq_iff_eq, bne_iff_ne, List.mem_range] at h
  obtain ⟨hpage, hoff⟩ := h _ hg
  exact keyOf_ne_of_place p hpage (by simpa using hoff y hy)

theorem State.rd_copyCmis_ne (s : State) (p : Nat) (m : Option Module) {f : Field} (hf : f.besideCmis = true) :
    (s.copyCmis p m).rd f p = s.rd f p := by
  have hne {g : Field} {n y : Nat} (hg : (g, n) ∈ cmisFields) (hy : y < n) : keyOf f p 0 ≠ keyOf g p y :=
    Field.keyOf_ne_of_besideCmis hf hg hy p
  have hwords (u : State) (v pn sn : Nat → Nat) (l : List Nat) (hl : ∀ i ∈ l, i < 4) :
      (l.foldl (fun (s : State) i => ((s.wr FPORT_CMIS_VENDOR (v i) p i).wr FPORT_CMIS_PN (pn i) p i).wr FPORT_CMIS_SN (sn i) p i)
        u).rd f p = u.rd f p := by
    induction l generalizing u with
    | nil => rfl
    | cons i l ih =>
      have hi : i < 4 := hl i List.mem_cons_self
      rw [List.foldl_cons, ih _ (fun j hj => hl j (List.mem_cons_of_mem _ hj)), State.rd_wr_ne _ _ (hne (by simp [cmisFields]) hi),
        State.rd_wr_ne _ _ (hne (by simp [cmisFields]) hi), State.rd_wr_ne _ _ (hne (by simp [cmisFields]) hi)]
  unfold State.copyCmis
  dsimp only
  rw [hwords _ _ _ _ _ (fun i hi => List.mem_range.mp hi), State.rd_wr_ne _ _ (hne (n := 1) (by simp [cmisFields]) Nat.one_pos),
    State.rd_wr_ne _ _ (hne (n := 1) (by simp [cmisFields]) Nat.one_pos),
    State.rd_wr_ne _ _ (hne (n := 1) (by simp [cmisFields]) Nat.one_pos),
    State.rd_wr_ne _ _ (hne (n := 1) (by simp [cmisFields]) Nat.one_pos),
    State.rd_wr_ne _ _ (hne (n := 1) (by simp [cmisFields]) Nat.one_pos),
    State.rd_wr_ne _ _ (hne (n := 1) (by simp [cmisFields]) Nat.one_pos)]

theorem State.rd_setPort (s : State) (p : Nat) (c : Port) (f : Field) (i x : Nat) : (s.setPort p c).rd f i x = s.rd f i x := rfl

theorem State.body_copyCmis (s : State) (p : Nat) (m : Option Module) : (s.copyCmis p m).body = s.body := by
  unfold State.copyCmis
  dsimp only
  rw [foldl_keeps State.body _ (fun u i => by simp only [State.body_wr])]
  simp only [State.body_wr]

theorem State.ports_copyCmis (s : State) (p : Nat) (m : Option Module) : (s.copyCmis p m).ports = s.ports := by
  unfold State.copyCmis
  dsimp only
  rw [foldl_keeps State.ports _ (fun u i => by simp only [State.wr_ports])]
  simp only [State.wr_ports]

theorem State.port_of_ports {s t : State} (h : t.ports = s.ports) (p : Nat) : t.port p = s.port p := by
  unfold State.port
  rw [h]

/-- A Down port that R78 lets train begins an attempt when a hold is lifted. -/
theorem State.tryTrain_of_ready {s : State} {p : Nat} {m : Module} (hdown : (s.port p).train = .down)
    (hmod : (s.port p).module = some m) (hen : s.rd FPORT_ENABLE p = 1) (hon : s.rd FPORT_MODE p ≠ 2) (hpair : s.paired p = false)
    (hhold : s.moduleHold p m = none) : s.tryTrain p true =
      ((s.copyCmis p (some m)).setPort p { s.port p with attempts := 0 }).attempt p := by
  have hhold' : (s.copyCmis p (some m)).moduleHold p m = none := by
    unfold State.moduleHold at hhold ⊢
    rwa [State.rd_copyCmis_ne _ _ _ (by decide)]
  unfold State.tryTrain State.trainBy
  simp only [hdown, hmod, hen, hpair, hhold']
  rw [if_pos (by simp [hon]), if_neg (by simp)]

theorem State.moduleHold_wr (s : State) (f : Field) (v p : Nat) (hne : keyOf FPORT_CMIS_OPTIONAL p 0 ≠ keyOf f p 0) (m : Module) :
    (s.wr f v p).moduleHold p m = s.moduleHold p m := by
  unfold State.moduleHold
  rw [State.rd_wr_ne _ _ hne]

/-- ENABLE written 1 at a Down port: the hold of its failed attempts is lifted, and it tries to train. -/
theorem State.enableWrite_of_off {s : State} {p : Nat} (hdown : (s.port p).train = .down) (hen : s.rd FPORT_ENABLE p = 0) :
    s.enableWrite p true = ((s.wr FPORT_ENABLE 1 p).setPort p { s.port p with attempts := 0 }).tryTrain p true := by
  have hon : s.enableWrite p true = (s.wr FPORT_ENABLE 1 p).retrain p := by simp [State.enableWrite, hen, b2n]
  rw [hon]
  unfold State.retrain
  dsimp only
  rw [State.port_wr, hdown]

theorem linkControl_enable_without_module (s : State) (port : Fin 16) (hacts : s.acts (pgFPORT port.val) = true)
    (hdown : (s.port port.val).train = .down) (hmod : (s.port port.val).module = none) (hpair : s.paired port.val = false)
    (hen : s.rd FPORT_ENABLE port.val = 0) :
    Completes (.enableWrite port true) s fun t => t.rd FPORT_ENABLE port.val = 1 ∧ (t.port port.val).train = .down ∧
    t.body = s.body := by
  refine ⟨s.enableWrite port.val true, (State.onBlk_acts _ hacts).trans (if_neg (by simp [hpair])), ?_⟩
  beta_reduce
  rw [State.enableWrite_of_off hdown hen, State.tryTrain, State.trainBy_of_no_module (by rw [State.port_setPort_same]; exact hmod),
    State.port_setPort_same, State.body_setPort, State.body_wr]
  refine ⟨?_, hdown, rfl⟩
  exact State.rd_wr_same s FPORT_ENABLE 1 port.val 0

theorem linkControl_enable_with_module (s : State) (port : Fin 16) (m : Module) (hacts : s.acts (pgFPORT port.val) = true)
    (hdown : (s.port port.val).train = .down) (hmod : (s.port port.val).module = some m)
    (hhold : s.moduleHold port.val m = none) (hpair : s.paired port.val = false)
    (hen : s.rd FPORT_ENABLE port.val = 0) (hmode : s.rd FPORT_MODE port.val = (s.port port.val).mode)
    (hon : (s.port port.val).mode ≠ 2) :
    Completes (.enableWrite port true) s fun t => t.rd FPORT_ENABLE port.val = 1 ∧ (t.port port.val).train = .step 2 ∧
    t.body = s.body := by
  have hwritten := State.rd_wr_same s FPORT_ENABLE 1 port.val 0
  have hmode' : (s.wr FPORT_ENABLE 1 port.val).rd FPORT_MODE port.val = (s.port port.val).mode := by
    rw [State.rd_wr_ne _ _ (keyOf_ne_of_offset _ _ (by decide)), hmode]
  obtain ⟨u, hu⟩ : ∃ u, u = (s.wr FPORT_ENABLE 1 port.val).setPort port.val { s.port port.val with attempts := 0 } := ⟨_, rfl⟩
  have huport : u.port port.val = { s.port port.val with attempts := 0 } := by rw [hu, State.port_setPort_same]
  have hurd (f : Field) : u.rd f port.val = (s.wr FPORT_ENABLE 1 port.val).rd f port.val := by rw [hu]; rfl
  have hready : u.tryTrain port.val true =
      ((u.copyCmis port.val (some m)).setPort port.val { u.port port.val with attempts := 0 }).attempt port.val := by
    refine State.tryTrain_of_ready ?_ ?_ ?_ ?_ ?_ ?_
    · rw [huport]
      exact hdown
    · rw [huport]
      exact hmod
    · rw [hurd, hwritten]
      rfl
    · rw [hurd, hmode']
      exact hon
    · by_cases hodd : port.val % 2 = 1
      · have hne : port.val - 1 ≠ port.val := by omega
        unfold State.paired at hpair ⊢
        rw [hu, State.port_setPort_ne _ _ hne, State.port_wr]
        exact hpair
      · simp [State.paired, hodd]
    · unfold State.moduleHold
      rw [hurd]
      exact (s.moduleHold_wr _ _ _ (keyOf_ne_of_offset _ _ (by decide)) m).trans hhold
  have hcopied : (u.copyCmis port.val (some m)).rd FPORT_MODE port.val = (s.port port.val).mode := by
    rw [State.rd_copyCmis_ne _ _ _ (by decide), hurd, hmode']
  refine ⟨s.enableWrite port.val true, (State.onBlk_acts _ hacts).trans (if_neg (by simp [hpair])), ?_⟩
  beta_reduce
  rw [State.enableWrite_of_off hdown hen, ← hu, hready, State.attempt_of_same_mode, State.attemptOne_of_on]
  · refine ⟨?_, ?_, ?_⟩
    · rw [State.rd_wr_ne _ _ (keyOf_ne_of_offset _ _ (by decide)), State.rd_setPort, State.rd_setPort,
        State.rd_copyCmis_ne _ _ _ (by decide), hurd, hwritten]
      rfl
    · rw [State.port_wr, State.port_setPort_same]
    · rw [State.body_wr, State.body_setPort, State.body_setPort, State.body_copyCmis, hu, State.body_setPort, State.body_wr]
  · rwa [State.rd_setPort, hcopied]
  · rw [State.port_setPort_same, huport, State.rd_setPort]
    exact hcopied

end Sys2Proof.Machine

open Sys2Proof.Machine

/-- Settles O5: each message by the lemma of its name; what takes an Up link to Recovery by the one about Recovery. -/
theorem linkControl : Obligations.LinkControl := by
  refine ⟨linkControl_params, linkControl_params_refused, linkControl_creditInit, linkControl_credit, fun s port set hacts hlistens => ⟨_, exec_keySwitch_of_listens set hacts hlistens, ?_⟩,
    fun s port hacts hup => ⟨_, State.onBlk_acts _ hacts, State.port_recover_of_up hup⟩, fun s port hacts hup hpair => ?_,
    linkControl_retrain_step, fun s port hacts hup => ?_, linkControl_lossOfSignal_step, linkControl_keySwitchWrite,
    linkControl_keySwitchWrite_waits, linkControl_enable_without_module, linkControl_enable_with_module, linkControl_disable,
    linkControl_down, linkControl_linkTimeout⟩
  · dsimp only [State.rxKeySwitch]
    rw [State.port_setPort_same, State.body_setPort]
    exact ⟨rfl, rfl, rfl, rfl, rfl, rfl⟩
  · refine ⟨s.recover port.val, (State.onBlk_acts _ hacts).trans ((if_neg (by simp [hpair])).trans ?_), State.port_recover_of_up hup⟩
    simp only [State.retrain, Port.train_of_isUp hup]
  · refine ⟨s.recover port.val, (State.onBlk_acts _ hacts).trans ?_, State.port_recover_of_up hup⟩
    simp only [Port.train_of_isUp hup]
end

section
/-! The flits that a port receives, and those that its timers send (R65 to R75). -/
namespace Sys2Proof.Machine

open Reg

/-! ### Flits without a number -/

/-- The flit of an acknowledgement or a NAK alone. -/
def Port.idleFlit (c : Port) : Flit :=
  { ftype := 1, seq := 0, ack := c.rxAck, nak := c.discarding && !c.nakSent, tag := false, crdClass := 0, crdCount := 0,
    ksel := c.txCrypt.active && c.txCrypt.sel, slots := List.replicate 16 0 }

theorem State.emitFlit_idle (s : State) (p : Nat) : ∃ c : Port,
    s.emitFlit p ftIdle [] = (s.setPort p c).out (.flit p (s.port p).idleFlit) ∧ c.kept = (s.port p).kept ∧
      c.replay = (s.port p).replay ∧ c.unackedRx = 0 ∧
      c.nakSent = ((s.port p).nakSent || ((s.port p).discarding && !(s.port p).nakSent)) ∧
      c.nakCount = (s.port p).nakCount + b2n ((s.port p).discarding && !(s.port p).nakSent) := by
  unfold State.emitFlit
  refine ⟨_, rfl, rfl, rfl, rfl, rfl, ?_⟩
  dsimp only
  cases (s.port p).discarding && !(s.port p).nakSent <;> rfl

theorem State.body_winAdd_bumpBy (s : State) (f : Field) (n i x page g k : Nat) :
    ((s.bumpBy f n i x).winAdd page g k).body = s.body := by
  rw [State.body_winAdd, State.body_bumpBy]

theorem State.tables_emit (s : State) (p ty : Nat) (l : List Slot) (c : Bool) (f : Field) (i x : Nat) :
    (s.emitFlit p ty l c).rd f i x = s.rd f i x := State.rd_of_tables (State.tables_emitFlit ..) _ _ _

/-! ### A flit refused -/

/-- What a port whose receiver refuses a flit does, short of the eighth NAK. -/
theorem State.refuseFlit_of_few {s : State} {p : Nat} (h : (s.port p).nakCount < 7) :
    (s.port p).discarding = true ∧ s.refuseFlit p = s ∨
    (s.port p).discarding = false ∧
      s.refuseFlit p = (s.setPort p { s.port p with discarding := true, nakSent := false }).emitFlit p ftIdle [] := by
  unfold State.refuseFlit
  cases hd : (s.port p).discarding
  · refine Or.inr ⟨rfl, ?_⟩
    simp only [hd, Bool.false_eq_true, if_false]
    unfold State.sendNak
    dsimp only
    refine if_neg ?_
    obtain ⟨c, hemit, -, -, -, -, hcount⟩ := (s.setPort p { s.port p with discarding := true, nakSent := false }).emitFlit_idle p
    rw [hemit, State.port_out, State.port_setPort_same, hcount, State.port_setPort_same]
    simp only [b2n]
    simp
    omega
  · refine Or.inl ⟨rfl, ?_⟩
    simp only [hd, if_true]

theorem State.refuseFlit_frame {s : State} {p : Nat} (h : (s.port p).nakCount < 7) :
    (s.refuseFlit p).links = (s.setPort p { s.port p with discarding := true }).links ∧
      ((s.refuseFlit p).port p).replay = (s.port p).replay ∧ (s.refuseFlit p).body = s.body ∧
      (s.refuseFlit p).tables = s.tables := by
  obtain ⟨hd, hs⟩ | ⟨-, hs⟩ := State.refuseFlit_of_few h <;> rw [hs]
  · refine ⟨?_, rfl, rfl, rfl⟩
    rw [State.links_setPort]
    unfold Port.kept
    rw [hd]
  · obtain ⟨c, hemit, -, hreplay, -⟩ := (s.setPort p { s.port p with discarding := true, nakSent := false }).emitFlit_idle p
    refine ⟨?_, ?_, ?_, ?_⟩
    · rw [State.links_emitFlit]
      exact State.links_setPort_congr rfl rfl
    · rw [hemit, State.port_out, State.port_setPort_same, hreplay, State.port_setPort_same]
    · rw [State.body_emitFlit, State.body_setPort]
    · rw [State.tables_emitFlit]
      rfl

/-! ### The ACK of a flit -/

/-- A port after an ACK: the flits that it acknowledges are not held any more. -/
def Port.acked (c : Port) (ack : BitVec 10) : Port :=
  if (ack - c.txAcked).toNat ≤ 512 && (ack - c.txAcked).toNat ≠ 0 then
    { c with txAcked := ack, replay := c.replay.filter (fun h => decide (512 < (ack - h.seq).toNat)), nakSeen := 0 }
  else c

theorem State.takeAck_of_ack {s : State} {p : Nat} {f : Flit} (h : f.nak = false) :
    s.takeAck p f = s.setPort p ((s.port p).acked f.ack) := by
  unfold State.takeAck
  dsimp only
  rw [h]
  rfl

/-- The parts of a port that its receiver works with; an ACK leaves them. -/
def Port.received (c : Port) : Port := { c with txAcked := 0, replay := [], nakSeen := 0 }

theorem Port.received_acked (c : Port) (a : BitVec 10) : (c.acked a).received = c.received := by
  unfold Port.acked
  split <;> rfl

/-! ### A flit decoded -/

/-- A port's counts of a flit that decodes with corrections. -/
def State.fecCounted (s : State) (p n : Nat) : State := (s.bumpBy FPORT_FEC_CORR n p).winAdd (pgFPORT p) 0 n

theorem State.port_fecCounted (s : State) (p n q : Nat) : (s.fecCounted p n).port q = s.port q :=
  State.port_of_ports (State.bumpBy_ports s FPORT_FEC_CORR n p 0) q

theorem State.outs_fecCounted (s : State) (p n : Nat) : (s.fecCounted p n).outs = s.outs := State.bumpBy_outs ..

theorem State.body_fecCounted (s : State) (p n : Nat) : (s.fecCounted p n).body = s.body := State.body_winAdd_bumpBy ..

theorem State.rd_fecCounted_ne (s : State) (p n : Nat) {f : Field} {i x : Nat} (h : keyOf f i x ≠ keyOf FPORT_FEC_CORR p 0) :
    (s.fecCounted p n).rd f i x = s.rd f i x := State.rd_wr_ne s _ h

theorem exec_flitReceive_of_good {s : State} {port : Fin 16} {flit b : Bytes} {n : Nat} (hacts : s.acts (pgFPORT port.val) = true)
    (hlistens : (s.port port.val).listens = true) (hcxl : (s.port port.val).isCxl = false) (hflit : flitOpen flit = .good b n) :
    exec (.flitReceive port flit) s = .next ((s.fecCounted port.val n).takeFlit port.val (flitOf b)) := by
  refine (State.onBlk_acts _ hacts).trans ?_
  dsimp only
  rw [if_neg (by simp [hlistens, hcxl]), hflit]
  rfl

/-- The number of the flit that a port's receiver takes next. -/
def Port.nextSeq (c : Port) : BitVec 10 :=
  c.rxAck + 1 + BitVec.ofNat 10 (if c.rxCrypt.active then c.rxCrypt.group.length else 0)

/-- What follows a flit taken in order: an ACK before 64 flits stand without one, and what may now be sent. -/
def State.settleFlit (s : State) (p : Nat) : State :=
  if (s.port p).listens && 0 < (s.port p).unackedRx && 64 ≤ (s.port p).unackedRx + (s.port p).rxCrypt.group.length then
    (s.emitFlit p ftIdle []).pump p
  else s.pump p

theorem State.links_settleFlit (s : State) (p : Nat) : (s.settleFlit p).links = s.links := by
  unfold State.settleFlit
  split
  · rw [State.links_pump, State.links_emitFlit]
  · exact s.links_pump p

theorem State.body_settleFlit (s : State) (p : Nat) : (s.settleFlit p).body = s.body := by
  unfold State.settleFlit
  split
  · rw [State.body_pump, State.body_emitFlit]
  · exact s.body_pump p

theorem State.rd_settleFlit (s : State) (p : Nat) (f : Field) (i x : Nat) : (s.settleFlit p).rd f i x = s.rd f i x := by
  refine State.rd_of_tables ?_ f i x
  unfold State.settleFlit
  split
  · rw [State.tables_pump, State.tables_emitFlit]
  · exact s.tables_pump p

theorem State.takeFlit_of_idle {s : State} {p : Nat} {f : Flit} (h : f.ftype = 1) :
    s.takeFlit p f = (s.takeAck p f).pump p := by
  unfold State.takeFlit
  simp [h, ftIdle]

theorem State.takeFlit_of_reserved {s : State} {p : Nat} {f : Flit} (h : f.ftype = 3) :
    s.takeFlit p f = (s.bump FPORT_CRC_ERR p).refuseFlit p := by
  unfold State.takeFlit
  simp [h]

/-- A sequenced flit: taken where it is the next, dropped where it was taken before, else refused. -/
theorem State.takeFlit_of_sequenced {s : State} {p : Nat} {f : Flit} (hty : f.ftype = 0 ∨ f.ftype = 2) (hnak : f.nak = false)
    (hlistens : (s.port p).listens = true) : s.takeFlit p f =
      (if f.seq = (s.port p).nextSeq then ((s.setPort p ((s.port p).acked f.ack)).acceptFlit p f).settleFlit p
       else if ((s.port p).nextSeq - f.seq).toNat ≤ 512 then s.setPort p ((s.port p).acked f.ack)
       else (s.setPort p ((s.port p).acked f.ack)).refuseFlit p) := by
  have hreceived := (s.port p).received_acked f.ack
  have htrain : ((s.port p).acked f.ack).train = (s.port p).train := (congrArg Port.train hreceived :)
  have hack : ((s.port p).acked f.ack).rxAck = (s.port p).rxAck := (congrArg Port.rxAck hreceived :)
  have hcrypt : ((s.port p).acked f.ack).rxCrypt = (s.port p).rxCrypt := (congrArg Port.rxCrypt hreceived :)
  have hlist : ((s.port p).acked f.ack).listens = true := by
    unfold Port.listens at hlistens ⊢
    rwa [htrain]
  have hnot3 : f.ftype.toNat ≠ 3 := by obtain h | h := hty <;> simp [h]
  have hnot1 : f.ftype.toNat ≠ ftIdle := by obtain h | h := hty <;> simp [h, ftIdle]
  have hnext : ((s.port p).acked f.ack).nextSeq = (s.port p).nextSeq := by
    unfold Port.nextSeq
    rw [hack, hcrypt]
  unfold State.takeFlit
  rw [if_neg hnot3, State.takeAck_of_ack hnak, ← hnext]
  dsimp only
  rw [State.port_setPort_same, hlist, if_neg (by simp [hnot1])]
  rfl

/-! ### A flit in order -/

theorem State.wantEnc_congr {s t : State} {p : Nat} (hparams : (t.port p).lastParams = (s.port p).lastParams)
    (hreq : t.rd FPORT_ENC_REQUIRE p = s.rd FPORT_ENC_REQUIRE p) : t.wantEnc p = s.wantEnc p := by
  unfold State.wantEnc
  rw [hparams, hreq]

theorem State.rxSealed_congr {s t : State} {p : Nat} (hparams : (t.port p).lastParams = (s.port p).lastParams)
    (hcrypt : (t.port p).rxCrypt = (s.port p).rxCrypt) (hreq : t.rd FPORT_ENC_REQUIRE p = s.rd FPORT_ENC_REQUIRE p) (f : Flit) :
    t.rxSealed p f = s.rxSealed p f := by
  unfold State.rxSealed
  rw [State.wantEnc_congr hparams hreq, hcrypt]

/-- The replay counted that a flit in order ends, if one was under way. -/
def State.endDiscard (s : State) (p : Nat) : State :=
  (if (s.port p).discarding then (s.bump FPORT_REPLAY p).winAdd (pgFPORT p) 1 1 else s).setPort p
    { s.port p with discarding := false, nakSent := false, nakCount := 0 }

theorem State.port_endDiscard (s : State) (p : Nat) :
    (s.endDiscard p).port p = { s.port p with discarding := false, nakSent := false, nakCount := 0 } := State.port_setPort_same ..

theorem State.body_endDiscard (s : State) (p : Nat) : (s.endDiscard p).body = s.body := by
  unfold State.endDiscard
  rw [State.body_setPort]
  split
  · rw [State.body_winAdd, State.body_bump]
  · rfl

theorem State.rd_endDiscard_ne (s : State) (p : Nat) {f : Field} {i x : Nat} (h : keyOf f i x ≠ keyOf FPORT_REPLAY p 0) :
    (s.endDiscard p).rd f i x = s.rd f i x := by
  unfold State.endDiscard
  rw [State.rd_setPort]
  split
  · exact State.rd_bump_ne s h
  · rfl

theorem State.acceptFlit_of_open {s : State} {p : Nat} {f : Flit} (h : s.rxSealed p f = false) :
    s.acceptFlit p f = (s.endDiscard p).deliverFlit p f := if_neg (by simp [h])

theorem State.acceptFlit_of_unknown_key {s : State} {p : Nat} {f : Flit} (h : s.rxSealed p f = true)
    (hkey : (s.port p).rxCrypt.loaded f.ksel = false) : s.acceptFlit p f = (s.endDiscard p).fall p drNoKey true :=
  (if_pos h).trans (if_pos (by simp [hkey]))

/-- A port that holds back one more flit of a tag group. -/
def Port.heldBack (c : Port) (f : Flit) : Port :=
  { c with
    discarding := false, nakSent := false, nakCount := 0,
    rxCrypt := { c.rxCrypt with active := true, sel := f.ksel, group := c.rxCrypt.group ++ [f] } }

theorem State.acceptFlit_of_sealed {s : State} {p : Nat} {f : Flit} (h : s.rxSealed p f = true)
    (hkey : (s.port p).rxCrypt.loaded f.ksel = true) : s.acceptFlit p f =
      (if f.tag || 8 ≤ ((s.port p).rxCrypt.group ++ [f]).length then
        ((s.endDiscard p).setPort p ((s.port p).heldBack f)).closeGroup p ((s.port p).rxCrypt.group ++ [f])
       else (s.endDiscard p).setPort p ((s.port p).heldBack f)) := by
  have hheld : { (s.endDiscard p).port p with
      rxCrypt := { (s.port p).rxCrypt with active := true, sel := f.ksel, group := (s.port p).rxCrypt.group ++ [f] } } =
      (s.port p).heldBack f := by
    rw [State.port_endDiscard]
    rfl
  rw [← hheld]
  exact (if_pos h).trans (if_neg (by simp [hkey]))

/-! ### A flit delivered -/

theorem State.takeSlot_of_invalid {s : State} {p : Nat} {x : Slot} (hpart : (s.port p).partialMsg = none)
    (hx : slotValid x = false) : s.takeSlot p x = s := by
  unfold State.takeSlot
  dsimp only
  rw [hpart, hx]
  simp

theorem State.takeSlots_of_invalid {s : State} {p : Nat} (hpart : (s.port p).partialMsg = none) (l : List Slot)
    (hl : l.all (fun x => !slotValid x) = true) : l.foldl (fun (s : State) x => s.takeSlot p x) s = s := by
  induction l with
  | nil => rfl
  | cons x l ih =>
    simp only [List.all_cons, Bool.and_eq_true, Bool.not_eq_true'] at hl
    rw [List.foldl_cons, State.takeSlot_of_invalid hpart hl.1, ih hl.2]

/-- The header of a message without data goes to the receive buffer. -/
theorem State.takeSlot_of_message {s : State} {p : Nat} {x : Slot} (hlistens : (s.port p).listens = true)
    (hpart : (s.port p).partialMsg = none) (hx : slotValid x = true) (hd : slotD x = 0) (hall : s.allowed p (slotMsg x) 0 = true) :
    s.takeSlot p x = s.setPort p { s.port p with rxBuf := (s.port p).rxBuf ++ [slotMsg x] } := by
  unfold State.takeSlot
  dsimp only
  rw [hpart]
  simp [hlistens, hx, hd, hall]

/-- A flit's number recorded, and its credit added. -/
def State.creditFlit (s : State) (p : Nat) (f : Flit) : State :=
  (s.setPort p { s.port p with rxAck := f.seq, unackedRx := (s.port p).unackedRx + 1 }).addCredits p
    ((List.range 4).map (fun i => if i = f.crdClass.toNat then f.crdCount.toNat else 0))

theorem State.links_addCredits (s : State) (p : Nat) (l : List Nat) : (s.addCredits p l).links = s.links := by
  unfold State.addCredits
  dsimp only
  rw [State.links_pump]
  exact State.links_setPort rfl

theorem State.links_creditFlit (s : State) (p : Nat) (f : Flit) :
    (s.creditFlit p f).links = (s.setPort p { s.port p with rxAck := f.seq }).links := by
  unfold State.creditFlit
  rw [State.links_addCredits]
  exact State.links_setPort_congr rfl rfl

theorem State.body_creditFlit (s : State) (p : Nat) (f : Flit) : (s.creditFlit p f).body = s.body := by
  unfold State.creditFlit State.addCredits
  dsimp only
  rw [State.body_pump, State.body_setPort, State.body_setPort]

theorem State.rd_creditFlit (s : State) (p : Nat) (f : Flit) (g : Field) (i x : Nat) :
    (s.creditFlit p f).rd g i x = s.rd g i x := by
  unfold State.creditFlit State.addCredits
  dsimp only
  rw [State.rd_of_tables (State.tables_pump ..), State.rd_setPort, State.rd_setPort]

theorem State.deliverFlit_of_msg {s : State} {p : Nat} {f : Flit} (h : f.ftype = 0) : s.deliverFlit p f =
    (if f.tag then f.slots.take 15 else f.slots).foldl (fun (s : State) x => s.takeSlot p x) (s.creditFlit p f) := by
  unfold State.deliverFlit
  simp [h, ftLctl]
  rfl

/-! ### NAKs of the peer -/

theorem State.replayAll_eq (s : State) (p : Nat) :
    s.replayAll p = { s with outs := s.outs ++ (s.port p).replay.map (fun f => .flit p f) } := by
  have hfold (l : List Flit) (u : State) :
      l.foldl (fun (s : State) f => s.out (.flit p f)) u = { u with outs := u.outs ++ l.map (fun f => .flit p f) } := by
    induction l generalizing u with
    | nil => simp
    | cons f l ih => rw [List.foldl_cons, ih]; simp [State.out]
  exact hfold _ s

/-- A port that has seen one more NAK. -/
def State.nakked (s : State) (p : Nat) : State :=
  ((s.setPort p { s.port p with nakSeen := (s.port p).nakSeen + 1 }).bump FPORT_REPLAY p).winAdd (pgFPORT p) 1 1

theorem State.takeAck_of_nak {s : State} {p : Nat} {f : Flit} (hnak : f.nak = true) (hack : f.ack = (s.port p).txAcked)
    (hfew : (s.port p).nakSeen < 7) : s.takeAck p f = ((s.setPort p (s.port p)).nakked p).replayAll p := by
  have hkeep (c : Port) : (if (decide ((0#10).toNat ≤ 512) && decide ((0#10).toNat ≠ 0)) = true then c
      else s.port p) = s.port p := if_neg (by decide)
  unfold State.takeAck
  dsimp only
  rw [hnak, hack, BitVec.sub_self, if_pos rfl, hkeep, if_neg (by omega)]
  unfold State.nakked
  rw [State.port_setPort_same]

theorem State.port_nakked (s : State) (p : Nat) : (s.nakked p).port p = { s.port p with nakSeen := (s.port p).nakSeen + 1 } := by
  have hbump (u : State) : (u.bump FPORT_REPLAY p).port p = u.port p := State.port_of_ports (State.bumpBy_ports ..) p
  exact (hbump _).trans (State.port_setPort_same ..)

theorem State.body_nakked (s : State) (p : Nat) : (s.nakked p).body = s.body := by
  unfold State.nakked
  rw [State.body_winAdd, State.body_bump, State.body_setPort]

theorem State.outs_nakked (s : State) (p : Nat) : (s.nakked p).outs = s.outs :=
  State.bumpBy_outs (s.setPort p { s.port p with nakSeen := (s.port p).nakSeen + 1 }) FPORT_REPLAY 1 p 0

/-! ### A tag group that ends -/

theorem LinkCrypt.loaded_of_key {c : LinkCrypt} {k : LinkKey} (h : c.key = some k) : c.loaded c.sel = true := by
  unfold LinkCrypt.key at h
  unfold LinkCrypt.loaded
  rw [h]
  rfl

/-- A port whose tag group did not verify, counted and reported. -/
def State.authFailed (s : State) (p : Nat) : State :=
  (((s.setPort p { s.port p with rxCrypt := { (s.port p).rxCrypt with group := [] } }).bump FPORT_AUTH_FAIL p).raise (pgFPORT p)
    I_FPORT_AUTH).crumb (pgFPORT p) 0x101 2 [p]

theorem State.closeGroup_of_bad {s : State} {p : Nat} {g : List Flit} {f : Flit} {k : LinkKey} (hkey : (s.port p).rxCrypt.key = some k)
    (hbad : groupTag k (s.port p).rxCrypt.count (g ++ [f]) ≠ f.slots.getLastD 0) :
    s.closeGroup p (g ++ [f]) = (s.authFailed p).fall p drAuth true := by
  unfold State.closeGroup
  dsimp only
  rw [hkey, List.getLast?_concat]
  exact if_neg (by simpa using fun _ => by simpa using hbad)

theorem State.links_authFailed (s : State) (p : Nat) : (s.authFailed p).links =
    (s.setPort p { s.port p with rxCrypt := { (s.port p).rxCrypt with group := [] } }).links := by
  unfold State.authFailed
  rw [State.links_crumb, State.links_raise, State.links_bump]

theorem State.rd_authFailed_ne (s : State) (p : Nat) {f : Field} (hpage : f.outlivesFall = true)
    (hne : keyOf f p 0 ≠ keyOf FPORT_AUTH_FAIL p 0) : (s.authFailed p).rd f p = s.rd f p := by
  unfold State.authFailed
  rw [State.rd_crumb_ne _ _ _ _ _ (Field.page_of_outlivesFall hpage p),
    State.rd_raise_ne _ _ _ (Field.keyOf_ne_of_outlivesFall hpage (by simp [fallFields]) _ _), State.rd_bump_ne _ hne, State.rd_setPort]

theorem State.rd_authFailed_count (s : State) (p : Nat) :
    (s.authFailed p).rd FPORT_AUTH_FAIL p = min (2 ^ FPORT_AUTH_FAIL.width - 1) (s.rd FPORT_AUTH_FAIL p + 1) := by
  unfold State.authFailed
  rw [State.rd_crumb_ne _ _ _ _ _ (Field.page_of_outlivesFall rfl p), State.rd_raise_ne _ _ _ (keyOf_ne_of_offset _ _ (by decide)),
    State.rd_bump_same, State.rd_setPort]

/-! ### The forms of a received flit -/

theorem Port.acked_of_ack {c : Port} {a : BitVec 10} (hpos : 0 < (a - c.txAcked).toNat) (hle : (a - c.txAcked).toNat ≤ 512) :
    c.acked a = { c with txAcked := a, replay := c.replay.filter (fun h => decide (512 < (a - h.seq).toNat)), nakSeen := 0 } :=
  if_pos (by
    have hne : (a - c.txAcked).toNat ≠ 0 := Nat.pos_iff_ne_zero.mp hpos
    simp only [hle, hne, ne_eq, not_false_eq_true, decide_true, Bool.and_self])

theorem flitForms_idle (s : State) (port : Fin 16) (flit b : Bytes) (n : Nat) (hacts : s.acts (pgFPORT port.val) = true)
    (hlistens : (s.port port.val).listens = true) (hcxl : (s.port port.val).isCxl = false) (hflit : flitOpen flit = .good b n)
    (hty : (flitOf b).ftype = 1) (hnak : (flitOf b).nak = false) (hq : (s.port port.val).txq = [])
    (hkey : (s.port port.val).keyDue = false) (hpos : 0 < ((flitOf b).ack - (s.port port.val).txAcked).toNat)
    (hle : ((flitOf b).ack - (s.port port.val).txAcked).toNat ≤ 512) :
    Completes (.flitReceive port flit) s fun t => (t.port port.val).txAcked = (flitOf b).ack ∧
    (t.port port.val).replay = (s.port port.val).replay.filter (fun h => decide (512 < ((flitOf b).ack - h.seq).toNat)) ∧
    (t.port port.val).rxAck = (s.port port.val).rxAck ∧ t.body = s.body := by
  refine ⟨_, exec_flitReceive_of_good hacts hlistens hcxl hflit, ?_⟩
  beta_reduce
  rw [State.takeFlit_of_idle hty, State.takeAck_of_ack hnak, State.port_fecCounted, Port.acked_of_ack hpos hle,
    State.pump_of_idle (by rw [State.port_setPort_same]; exact hq) (by rw [State.port_setPort_same]; exact hkey),
    State.port_setPort_same, State.body_setPort, State.body_fecCounted]
  exact ⟨rfl, rfl, rfl, rfl⟩

theorem flitForms_nak (s : State) (port : Fin 16) (flit b : Bytes) (n : Nat) (hacts : s.acts (pgFPORT port.val) = true)
    (hlistens : (s.port port.val).listens = true) (hcxl : (s.port port.val).isCxl = false) (hflit : flitOpen flit = .good b n)
    (hty : (flitOf b).ftype = 1) (hnak : (flitOf b).nak = true) (hq : (s.port port.val).txq = [])
    (hkey : (s.port port.val).keyDue = false) (hack : (flitOf b).ack = (s.port port.val).txAcked)
    (hfew : (s.port port.val).nakSeen < 7) :
    Completes (.flitReceive port flit) s fun t =>
    t.outs = s.outs ++ (s.port port.val).replay.map (fun f => .flit port.val f) ∧
    (t.port port.val).replay = (s.port port.val).replay ∧ (t.port port.val).nakSeen = (s.port port.val).nakSeen + 1 ∧
    t.body = s.body := by
  have hport : (s.fecCounted port.val n).port port.val = s.port port.val := State.port_fecCounted ..
  have hset : ((s.fecCounted port.val n).setPort port.val (s.port port.val)).port port.val = s.port port.val :=
    State.port_setPort_same ..
  have hnakked : (((s.fecCounted port.val n).setPort port.val (s.port port.val)).nakked port.val).port port.val =
      { s.port port.val with nakSeen := (s.port port.val).nakSeen + 1 } := by
    rw [State.port_nakked, hset]
  obtain ⟨u, hu⟩ : ∃ u, u = ((s.fecCounted port.val n).setPort port.val (s.port port.val)).nakked port.val := ⟨_, rfl⟩
  have htake : (s.fecCounted port.val n).takeFlit port.val (flitOf b) = u.replayAll port.val := by
    rw [State.takeFlit_of_idle hty, State.takeAck_of_nak hnak (by rw [hport, hack]) (by rw [hport]; exact hfew), hport, ← hu]
    rw [← hu] at hnakked
    rw [State.replayAll_eq]
    refine State.pump_of_idle ?_ ?_
    · show (u.port port.val).txq = []
      rw [hnakked]
      exact hq
    · show (u.port port.val).keyDue = false
      rw [hnakked]
      exact hkey
  refine ⟨_, exec_flitReceive_of_good hacts hlistens hcxl hflit, ?_⟩
  beta_reduce
  rw [htake, State.replayAll_eq]
  have houts : u.outs = s.outs := by rw [hu, State.outs_nakked, State.setPort_outs, State.outs_fecCounted]
  have hbody : u.body = s.body := by rw [hu, State.body_nakked, State.body_setPort, State.body_fecCounted]
  rw [← hu] at hnakked
  refine ⟨?_, ?_, ?_, ?_⟩
  · show u.outs ++ (u.port port.val).replay.map _ = _
    rw [houts, hnakked]
  · show (u.port port.val).replay = _
    rw [hnakked]
  · show (u.port port.val).nakSeen = _
    rw [hnakked]
  · exact hbody

theorem flitForms_reserved (s : State) (port : Fin 16) (flit b : Bytes) (n : Nat) (hacts : s.acts (pgFPORT port.val) = true)
    (hlistens : (s.port port.val).listens = true) (hcxl : (s.port port.val).isCxl = false) (hflit : flitOpen flit = .good b n)
    (hty : (flitOf b).ftype = 3) (hfew : (s.port port.val).nakCount < 7) :
    Completes (.flitReceive port flit) s fun t => (t.port port.val).discarding = true ∧
    (t.port port.val).rxAck = (s.port port.val).rxAck ∧ (t.port port.val).replay = (s.port port.val).replay ∧ t.body = s.body := by
  have hport : ((s.fecCounted port.val n).bump FPORT_CRC_ERR port.val).port port.val = s.port port.val :=
    (State.port_of_ports (State.bumpBy_ports ..) _).trans (State.port_fecCounted ..)
  have hframe := State.refuseFlit_frame (s := (s.fecCounted port.val n).bump FPORT_CRC_ERR port.val) (p := port.val)
    (by rw [hport]; exact hfew)
  rw [hport, State.body_bump, State.body_fecCounted] at hframe
  refine ⟨_, exec_flitReceive_of_good hacts hlistens hcxl hflit, ?_⟩
  beta_reduce
  rw [State.takeFlit_of_reserved hty]
  obtain ⟨hlinks, hreplay, hbody, -⟩ := hframe
  generalize ((s.fecCounted port.val n).bump FPORT_CRC_ERR port.val).refuseFlit port.val = t at hlinks hreplay hbody ⊢
  have hkept : (t.port port.val).kept = ({ s.port port.val with discarding := true } : Port).kept := by
    refine (congrFun hlinks port.val).trans ?_
    unfold State.links
    rw [State.port_setPort_same]
  exact ⟨(congrArg Port.discarding hkept :), (congrArg Port.rxAck hkept :), hreplay, hbody⟩

theorem flitForms_far (s : State) (port : Fin 16) (flit b : Bytes) (n : Nat) (hacts : s.acts (pgFPORT port.val) = true)
    (hlistens : (s.port port.val).listens = true) (hcxl : (s.port port.val).isCxl = false) (hflit : flitOpen flit = .good b n)
    (hty : (flitOf b).ftype = 0 ∨ (flitOf b).ftype = 2) (hnak : (flitOf b).nak = false)
    (hopen : (s.port port.val).rxCrypt.active = false) (hfar : 512 < ((s.port port.val).rxAck + 1 - (flitOf b).seq).toNat)
    (hfew : (s.port port.val).nakCount < 7) :
    Completes (.flitReceive port flit) s fun t => (t.port port.val).discarding = true ∧
    (t.port port.val).rxAck = (s.port port.val).rxAck ∧ (t.port port.val).rxBuf = (s.port port.val).rxBuf ∧ t.body = s.body := by
  have hreceived := (s.port port.val).received_acked (flitOf b).ack
  have hcount : ((s.port port.val).acked (flitOf b).ack).nakCount = (s.port port.val).nakCount := (congrArg Port.nakCount hreceived :)
  have hnext : (s.port port.val).nextSeq = (s.port port.val).rxAck + 1 := by simp [Port.nextSeq, hopen]
  have hframe := State.refuseFlit_frame
    (s := (s.fecCounted port.val n).setPort port.val ((s.port port.val).acked (flitOf b).ack)) (p := port.val)
    (by rw [State.port_setPort_same, hcount]; exact hfew)
  rw [State.port_setPort_same, State.body_setPort, State.body_fecCounted] at hframe
  refine ⟨_, exec_flitReceive_of_good hacts hlistens hcxl hflit, ?_⟩
  beta_reduce
  rw [State.takeFlit_of_sequenced hty hnak (by rw [State.port_fecCounted]; exact hlistens), State.port_fecCounted, hnext,
    if_neg (fun h => by simp [h] at hfar), if_neg (by omega)]
  obtain ⟨hlinks, -, hbody, -⟩ := hframe
  generalize ((s.fecCounted port.val n).setPort port.val ((s.port port.val).acked (flitOf b).ack)).refuseFlit port.val = t
    at hlinks hbody ⊢
  have hkept : (t.port port.val).kept = ({ (s.port port.val).acked (flitOf b).ack with discarding := true } : Port).kept := by
    refine (congrFun hlinks port.val).trans ?_
    unfold State.links
    rw [State.port_setPort_same]
  exact ⟨(congrArg Port.discarding hkept :), (congrArg Port.rxAck hkept :).trans (congrArg Port.rxAck hreceived :),
    (congrArg Port.rxBuf hkept :).trans (congrArg Port.rxBuf hreceived :), hbody⟩

theorem flitForms_old (s : State) (port : Fin 16) (flit b : Bytes) (n : Nat) (hacts : s.acts (pgFPORT port.val) = true)
    (hlistens : (s.port port.val).listens = true) (hcxl : (s.port port.val).isCxl = false) (hflit : flitOpen flit = .good b n)
    (hty : (flitOf b).ftype = 0 ∨ (flitOf b).ftype = 2) (hnak : (flitOf b).nak = false)
    (hopen : (s.port port.val).rxCrypt.active = false) (hpos : 0 < ((s.port port.val).rxAck + 1 - (flitOf b).seq).toNat)
    (hle : ((s.port port.val).rxAck + 1 - (flitOf b).seq).toNat ≤ 512) :
    Completes (.flitReceive port flit) s fun t => (t.port port.val).discarding = (s.port port.val).discarding ∧
    (t.port port.val).rxAck = (s.port port.val).rxAck ∧ (t.port port.val).rxBuf = (s.port port.val).rxBuf ∧ t.outs = s.outs ∧
    t.body = s.body := by
  have hreceived := (s.port port.val).received_acked (flitOf b).ack
  have hnext : (s.port port.val).nextSeq = (s.port port.val).rxAck + 1 := by simp [Port.nextSeq, hopen]
  refine ⟨_, exec_flitReceive_of_good hacts hlistens hcxl hflit, ?_⟩
  beta_reduce
  rw [State.takeFlit_of_sequenced hty hnak (by rw [State.port_fecCounted]; exact hlistens), State.port_fecCounted, hnext,
    if_neg (fun h => by simp [h] at hpos), if_pos hle, State.port_setPort_same, State.setPort_outs, State.outs_fecCounted,
    State.body_setPort, State.body_fecCounted]
  exact ⟨(congrArg Port.discarding hreceived :), (congrArg Port.rxAck hreceived :), (congrArg Port.rxBuf hreceived :), rfl, rfl⟩

/-- A sequenced flit that is the next, at a receiver that its ACK leaves as it is. -/
theorem exec_flitReceive_of_next {s : State} {port : Fin 16} {flit b : Bytes} {n : Nat} (hacts : s.acts (pgFPORT port.val) = true)
    (hlistens : (s.port port.val).listens = true) (hcxl : (s.port port.val).isCxl = false) (hflit : flitOpen flit = .good b n)
    (hty : (flitOf b).ftype = 0 ∨ (flitOf b).ftype = 2) (hnak : (flitOf b).nak = false)
    (hseq : (flitOf b).seq = (s.port port.val).nextSeq) : exec (.flitReceive port flit) s =
      .next ((((s.fecCounted port.val n).setPort port.val ((s.port port.val).acked (flitOf b).ack)).acceptFlit port.val
        (flitOf b)).settleFlit port.val) := by
  rw [exec_flitReceive_of_good hacts hlistens hcxl hflit,
    State.takeFlit_of_sequenced hty hnak (by rw [State.port_fecCounted]; exact hlistens), State.port_fecCounted, if_pos hseq]

theorem Port.nextSeq_of_active {c : Port} (h : c.rxCrypt.active = true) :
    c.nextSeq = c.rxAck + 1 + BitVec.ofNat 10 c.rxCrypt.group.length := by simp [Port.nextSeq, h]

theorem State.rxSealed_of_active {s : State} {p : Nat} (h : (s.port p).rxCrypt.active = true) (f : Flit) : s.rxSealed p f = true := by
  simp [State.rxSealed, h]

theorem flitForms_held (s : State) (port : Fin 16) (flit b : Bytes) (n : Nat) (hacts : s.acts (pgFPORT port.val) = true)
    (hlistens : (s.port port.val).listens = true) (hcxl : (s.port port.val).isCxl = false) (hflit : flitOpen flit = .good b n)
    (hty : (flitOf b).ftype = 0 ∨ (flitOf b).ftype = 2) (hnak : (flitOf b).nak = false)
    (hactive : (s.port port.val).rxCrypt.active = true) (hkey : (s.port port.val).rxCrypt.loaded (flitOf b).ksel = true)
    (htag : (flitOf b).tag = false) (hlen : (s.port port.val).rxCrypt.group.length < 7)
    (hseq : (flitOf b).seq = (s.port port.val).rxAck + 1 + BitVec.ofNat 10 (s.port port.val).rxCrypt.group.length) :
    Completes (.flitReceive port flit) s fun t =>
    (t.port port.val).rxCrypt.group = (s.port port.val).rxCrypt.group ++ [flitOf b] ∧
    (t.port port.val).rxAck = (s.port port.val).rxAck ∧ (t.port port.val).rxBuf = (s.port port.val).rxBuf ∧ t.body = s.body := by
  have hreceived := (s.port port.val).received_acked (flitOf b).ack
  have hcrypt : ((s.port port.val).acked (flitOf b).ack).rxCrypt = (s.port port.val).rxCrypt := (congrArg Port.rxCrypt hreceived :)
  have hport : ((s.fecCounted port.val n).setPort port.val ((s.port port.val).acked (flitOf b).ack)).port port.val =
      (s.port port.val).acked (flitOf b).ack := State.port_setPort_same ..
  refine ⟨_, exec_flitReceive_of_next hacts hlistens hcxl hflit hty hnak (hseq.trans (Port.nextSeq_of_active hactive).symm), ?_⟩
  beta_reduce
  rw [State.acceptFlit_of_sealed (State.rxSealed_of_active (by rw [hport, hcrypt]; exact hactive) _)
      (by rw [hport, hcrypt]; exact hkey), hport, hcrypt, if_neg (by simp [htag]; omega)]
  have hlinks := (((s.fecCounted port.val n).setPort port.val ((s.port port.val).acked (flitOf b).ack)).endDiscard port.val |>.setPort
    port.val (((s.port port.val).acked (flitOf b).ack).heldBack (flitOf b))).links_settleFlit port.val
  have hbody := (((s.fecCounted port.val n).setPort port.val ((s.port port.val).acked (flitOf b).ack)).endDiscard port.val |>.setPort
    port.val (((s.port port.val).acked (flitOf b).ack).heldBack (flitOf b))).body_settleFlit port.val
  rw [State.body_setPort, State.body_endDiscard, State.body_setPort, State.body_fecCounted] at hbody
  generalize State.settleFlit _ _ = t at hlinks hbody ⊢
  have hkept : (t.port port.val).kept = (((s.port port.val).acked (flitOf b).ack).heldBack (flitOf b)).kept := by
    refine (congrFun hlinks port.val).trans ?_
    unfold State.links
    rw [State.port_setPort_same]
  refine ⟨?_, (congrArg Port.rxAck hkept :).trans (congrArg Port.rxAck hreceived :),
    (congrArg Port.rxBuf hkept :).trans (congrArg Port.rxBuf hreceived :), hbody⟩
  rw [← hcrypt]
  exact (congrArg (fun c : Port => c.rxCrypt.group) hkept :)

/-- What the fall of a port without a module whose peer is a node leaves of it. -/
theorem State.fall_of_node {s : State} {p : Nat} (hcxl : (s.port p).isCxl = false) (hrole : s.rd FPORT_PEER_ROLE p = roleNode)
    (hmod : (s.port p).module = none) (reason : Nat) (dn : Bool) :
    ((s.fall p reason dn).port p).train = .down ∧
      (s.fall p reason dn).rd FPORT_DOWN_REASON p = reason % 2 ^ FPORT_DOWN_REASON.width ∧
      ∀ f : Field, f.outlivesFall = true → keyOf f p 0 ≠ keyOf FPORT_DOWN_REASON p 0 → (s.fall p reason dn).rd f p = s.rd f p := by
  have hquiet : s.fallsQuietly p = true := by simp [State.fallsQuietly, hcxl, hrole]
  obtain ⟨hfall, hdown, hreason⟩ := State.fall_of_no_module hquiet hmod reason dn
  refine ⟨hdown, hreason, fun f hf hne => ?_⟩
  rw [hfall, State.rd_goDown hquiet _ _ hf, State.rd_wr_ne _ _ hne]

theorem flitForms_noKey (s : State) (port : Fin 16) (flit b : Bytes) (n : Nat) (hacts : s.acts (pgFPORT port.val) = true)
    (hlistens : (s.port port.val).listens = true) (hcxl : (s.port port.val).isCxl = false) (hflit : flitOpen flit = .good b n)
    (hty : (flitOf b).ftype = 0 ∨ (flitOf b).ftype = 2) (hnak : (flitOf b).nak = false)
    (hactive : (s.port port.val).rxCrypt.active = true) (hkey : (s.port port.val).rxCrypt.loaded (flitOf b).ksel = false)
    (hrole : s.rd FPORT_PEER_ROLE port.val = roleNode) (hmod : (s.port port.val).module = none)
    (hseq : (flitOf b).seq = (s.port port.val).rxAck + 1 + BitVec.ofNat 10 (s.port port.val).rxCrypt.group.length) :
    Completes (.flitReceive port flit) s fun t => (t.port port.val).train = .down ∧
    t.rd FPORT_DOWN_REASON port.val = drNoKey := by
  have hreceived := (s.port port.val).received_acked (flitOf b).ack
  have hcrypt : ((s.port port.val).acked (flitOf b).ack).rxCrypt = (s.port port.val).rxCrypt := (congrArg Port.rxCrypt hreceived :)
  have hport : ((s.fecCounted port.val n).setPort port.val ((s.port port.val).acked (flitOf b).ack)).port port.val =
      (s.port port.val).acked (flitOf b).ack := State.port_setPort_same ..
  have hmode : ((s.port port.val).acked (flitOf b).ack).mode = (s.port port.val).mode := (congrArg Port.mode hreceived :)
  have hmodule : ((s.port port.val).acked (flitOf b).ack).module = (s.port port.val).module := (congrArg Port.module hreceived :)
  obtain ⟨hdown, hreason, -⟩ := State.fall_of_node
    (s := ((s.fecCounted port.val n).setPort port.val ((s.port port.val).acked (flitOf b).ack)).endDiscard port.val) (p := port.val)
    (by rw [State.port_endDiscard, hport]; unfold Port.isCxl at hcxl ⊢; dsimp only; rw [hmode, hcxl])
    (by
      rw [State.rd_endDiscard_ne _ _ (keyOf_ne_of_offset _ _ (by decide)), State.rd_setPort,
        State.rd_fecCounted_ne _ _ _ (keyOf_ne_of_offset _ _ (by decide)), hrole])
    (by rw [State.port_endDiscard, hport]; exact hmodule.trans hmod) drNoKey true
  refine ⟨_, exec_flitReceive_of_next hacts hlistens hcxl hflit hty hnak (hseq.trans (Port.nextSeq_of_active hactive).symm), ?_⟩
  beta_reduce
  rw [State.acceptFlit_of_unknown_key (State.rxSealed_of_active (by rw [hport, hcrypt]; exact hactive) _)
      (by rw [hport, hcrypt]; exact hkey), State.rd_settleFlit, State.train_of_links (State.links_settleFlit _ _)]
  exact ⟨hdown, hreason⟩

theorem Port.heldBack_kept_crypt (c : Port) (f : Flit) : (c.heldBack f).rxCrypt =
    { c.rxCrypt with active := true, sel := f.ksel, group := c.rxCrypt.group ++ [f] } := rfl

theorem flitForms_auth (s : State) (port : Fin 16) (flit b : Bytes) (n : Nat) (k : LinkKey) (hacts : s.acts (pgFPORT port.val) = true)
    (hlistens : (s.port port.val).listens = true) (hcxl : (s.port port.val).isCxl = false) (hflit : flitOpen flit = .good b n)
    (hty : (flitOf b).ftype = 0 ∨ (flitOf b).ftype = 2) (hnak : (flitOf b).nak = false)
    (hactive : (s.port port.val).rxCrypt.active = true) (hsel : (flitOf b).ksel = (s.port port.val).rxCrypt.sel)
    (hkey : (s.port port.val).rxCrypt.key = some k) (htag : (flitOf b).tag = true)
    (hbad : groupTag k (s.port port.val).rxCrypt.count ((s.port port.val).rxCrypt.group ++ [flitOf b]) ≠ (flitOf b).slots.getLastD 0)
    (hrole : s.rd FPORT_PEER_ROLE port.val = roleNode) (hmod : (s.port port.val).module = none)
    (hseq : (flitOf b).seq = (s.port port.val).rxAck + 1 + BitVec.ofNat 10 (s.port port.val).rxCrypt.group.length) :
    Completes (.flitReceive port flit) s fun t => (t.port port.val).train = .down ∧
    t.rd FPORT_DOWN_REASON port.val = drAuth ∧
    t.rd FPORT_AUTH_FAIL port.val = min (2 ^ FPORT_AUTH_FAIL.width - 1) (s.rd FPORT_AUTH_FAIL port.val + 1) := by
  have hreceived := (s.port port.val).received_acked (flitOf b).ack
  have hcrypt : ((s.port port.val).acked (flitOf b).ack).rxCrypt = (s.port port.val).rxCrypt := (congrArg Port.rxCrypt hreceived :)
  have hport : ((s.fecCounted port.val n).setPort port.val ((s.port port.val).acked (flitOf b).ack)).port port.val =
      (s.port port.val).acked (flitOf b).ack := State.port_setPort_same ..
  have hmode : ((s.port port.val).acked (flitOf b).ack).mode = (s.port port.val).mode := (congrArg Port.mode hreceived :)
  have hmodule : ((s.port port.val).acked (flitOf b).ack).module = (s.port port.val).module := (congrArg Port.module hreceived :)
  obtain ⟨u, hu⟩ : ∃ u, u = (((s.fecCounted port.val n).setPort port.val ((s.port port.val).acked (flitOf b).ack)).endDiscard
    port.val).setPort port.val (((s.port port.val).acked (flitOf b).ack).heldBack (flitOf b)) := ⟨_, rfl⟩
  have huport : u.port port.val = ((s.port port.val).acked (flitOf b).ack).heldBack (flitOf b) := by rw [hu, State.port_setPort_same]
  have hurd {f : Field} (hreplay : keyOf f port.val 0 ≠ keyOf FPORT_REPLAY port.val 0)
      (hcorr : keyOf f port.val 0 ≠ keyOf FPORT_FEC_CORR port.val 0) : u.rd f port.val = s.rd f port.val := by
    rw [hu, State.rd_setPort, State.rd_endDiscard_ne _ _ hreplay, State.rd_setPort, State.rd_fecCounted_ne _ _ _ hcorr]
  have hheld : (u.port port.val).rxCrypt = { (s.port port.val).rxCrypt with
      active := true, group := (s.port port.val).rxCrypt.group ++ [flitOf b] } := by
    rw [huport, Port.heldBack_kept_crypt, hcrypt, hsel]
  have hfail : ((u.authFailed port.val).port port.val).kept =
      ({ u.port port.val with rxCrypt := { (u.port port.val).rxCrypt with group := [] } } : Port).kept := by
    refine (congrFun (u.links_authFailed port.val) port.val).trans ?_
    unfold State.links
    rw [State.port_setPort_same]
  obtain ⟨hdown, hreason, hrest⟩ := State.fall_of_node (s := u.authFailed port.val) (p := port.val)
    (by
      have h : ((u.authFailed port.val).port port.val).mode = (u.port port.val).mode := (congrArg Port.mode hfail :)
      unfold Port.isCxl at hcxl ⊢
      rw [h, huport]
      exact (congrArg (· == 1) hmode).trans hcxl)
    (by
      rw [State.rd_authFailed_ne _ _ rfl (keyOf_ne_of_offset _ _ (by decide)),
        hurd (keyOf_ne_of_offset _ _ (by decide)) (keyOf_ne_of_offset _ _ (by decide)), hrole])
    (by
      have h : ((u.authFailed port.val).port port.val).module = (u.port port.val).module := (congrArg Port.module hfail :)
      rw [h, huport]
      exact hmodule.trans hmod) drAuth true
  refine ⟨_, exec_flitReceive_of_next hacts hlistens hcxl hflit hty hnak (hseq.trans (Port.nextSeq_of_active hactive).symm), ?_⟩
  beta_reduce
  rw [State.acceptFlit_of_sealed (State.rxSealed_of_active (by rw [hport, hcrypt]; exact hactive) _)
      (by rw [hport, hcrypt, hsel]; exact LinkCrypt.loaded_of_key hkey), hport, hcrypt, if_pos (by simp [htag]), ← hu,
    State.closeGroup_of_bad (k := k) (by rw [hheld]; exact hkey) (by rw [hheld]; exact hbad), State.rd_settleFlit,
    State.rd_settleFlit, State.train_of_links (State.links_settleFlit _ _),
    hrest FPORT_AUTH_FAIL rfl (keyOf_ne_of_offset _ _ (by decide)), State.rd_authFailed_count,
    hurd (keyOf_ne_of_offset _ _ (by decide)) (keyOf_ne_of_offset _ _ (by decide))]
  exact ⟨hdown, hreason, rfl⟩

end Sys2Proof.Machine

open Sys2Proof.Machine

/-- Settles O8: one lemma for each form of flit. -/
theorem flitForms : Obligations.FlitForms :=
  ⟨flitForms_idle, flitForms_nak, flitForms_reserved, flitForms_far, flitForms_old, flitForms_held, flitForms_noKey, flitForms_auth⟩
end

section
/-! The port's timers, and the MSG flits that it takes in order (O7). -/
namespace Sys2Proof.Machine

open Reg

theorem State.outs_out (s : State) (o : Out) : (s.out o).outs = s.outs ++ [o] := rfl

theorem flitTraffic_ackTimer (s : State) (port : Fin 16) (hacts : s.acts (pgFPORT port.val) = true)
    (hlistens : (s.port port.val).listens = true) (hdue : 0 < (s.port port.val).unackedRx) :
    Completes (.ackTimer port) s fun t => (t.port port.val).unackedRx = 0 ∧
    t.outs = s.outs ++ [.flit port.val { ftype := 1, seq := 0, ack := (s.port port.val).rxAck, nak := (s.port port.val).discarding && !(s.port port.val).nakSent, tag := false, crdClass := 0, crdCount := 0, ksel := (s.port port.val).txCrypt.active && (s.port port.val).txCrypt.sel, slots := List.replicate 16 0 }] ∧
    t.body = s.body ∧ t.regs = s.regs := by
  refine ⟨s.emitFlit port.val ftIdle [], (State.onBlk_acts _ hacts).trans (if_pos (by simp [hlistens, hdue])), ?_⟩
  beta_reduce
  rw [State.body_emitFlit, State.regs_emitFlit]
  obtain ⟨c, hemit, -, -, hacked, -⟩ := s.emitFlit_idle port.val
  rw [hemit, State.port_out, State.port_setPort_same, State.outs_out, State.setPort_outs]
  exact ⟨hacked, rfl, rfl, rfl⟩

theorem flitTraffic_creditReturn (s : State) (port : Fin 16) (hacts : s.acts (pgFPORT port.val) = true)
    (hup : (s.port port.val).isUp = true) (hdue : (s.port port.val).toReturn.any (· != 0) = true)
    (hroom : (s.port port.val).replay.length < 512) (hmute : (s.port port.val).txCrypt.mute = false) :
    Completes (.creditReturnTimer port) s fun t =>
    (t.port port.val).toReturn = [0, 0, 0, 0] ∧ (t.port port.val).txSeq = (s.port port.val).txSeq + 1 ∧
    (∃ f : Flit, t.outs = s.outs ++ [.flit port.val f] ∧ (t.port port.val).replay = (s.port port.val).replay ++ [f] ∧
      f.ftype = 2 ∧ f.seq = (s.port port.val).txSeq ∧ ((s.port port.val).txCrypt.active = false → f.slots.head? =
        some (lctlSlot lkCredit (creditFields ((s.port port.val).toReturn[0]?.getD 0) ((s.port port.val).toReturn[1]?.getD 0) ((s.port port.val).toReturn[2]?.getD 0) ((s.port port.val).toReturn[3]?.getD 0))))) ∧
    t.body = s.body ∧ t.regs = s.regs := by
  refine ⟨_, (State.onBlk_acts _ hacts).trans (if_pos (by simp only [hup, hdue, hroom]; rfl)), ?_⟩
  beta_reduce
  rw [State.body_emitFlit, State.body_setPort, State.regs_emitFlit, State.setPort_regs]
  generalize hslot : lctlSlot lkCredit (creditFields ((s.port port.val).toReturn[0]?.getD 0) ((s.port port.val).toReturn[1]?.getD 0)
    ((s.port port.val).toReturn[2]?.getD 0) ((s.port port.val).toReturn[3]?.getD 0)) = slot
  obtain ⟨c, hemit, hseq, hreplay, -, -, hreturn⟩ := State.emitFlit_of_sequenced
    (s := s.setPort port.val { s.port port.val with toReturn := [0, 0, 0, 0] }) (p := port.val) (slots := [slot]) (close := false)
    (show ftLctl ≠ ftIdle by decide) (by rw [State.port_setPort_same]; exact hmute)
  rw [State.port_setPort_same] at hemit hseq hreplay hreturn
  rw [hemit, State.port_out, State.port_setPort_same, State.outs_out, State.setPort_outs, State.setPort_outs]
  have hfields := sealFlit_fields (s.port port.val).txCrypt
    (({ s.port port.val with toReturn := [0, 0, 0, 0] } : Port).plainFlit ftLctl [slot]) (false || (s.port port.val).txCrypt.group.length == 7)
  refine ⟨hreturn rfl, hseq, ⟨_, rfl, hreplay, hfields.2, hfields.1, fun hopen => ?_⟩, rfl, rfl⟩
  unfold Port.sealed
  rw [sealFlit_of_inactive hopen]
  rfl

theorem flitTraffic_tagGroupClose (s : State) (port : Fin 16) (hacts : s.acts (pgFPORT port.val) = true)
    (hup : (s.port port.val).isUp = true) (hactive : (s.port port.val).txCrypt.active = true)
    (hgroup : (s.port port.val).txCrypt.group ≠ []) (hkey : (s.port port.val).txCrypt.key.isSome = true)
    (hroom : (s.port port.val).replay.length < 512) :
    Completes (.tagGroupClose port) s fun t => (t.port port.val).txCrypt.group = [] ∧
    (t.port port.val).txSeq = (s.port port.val).txSeq + 1 ∧
    (∃ f : Flit, t.outs = s.outs ++ [.flit port.val f] ∧ (t.port port.val).replay = (s.port port.val).replay ++ [f] ∧
      f.ftype = 0 ∧ f.seq = (s.port port.val).txSeq ∧ f.tag = true) ∧ t.body = s.body ∧ t.regs = s.regs := by
  refine ⟨s.emitFlit port.val ftMsg [] true, (State.onBlk_acts _ hacts).trans (if_pos (by simp [hup, hactive, hgroup, hroom])), ?_⟩
  beta_reduce
  rw [State.body_emitFlit, State.regs_emitFlit]
  obtain ⟨c, hemit, hseq, hreplay, hcrypt, -, -⟩ := State.emitFlit_of_sequenced (s := s) (p := port.val) (slots := []) (close := true)
    (show ftMsg ≠ ftIdle by decide) (LinkCrypt.mute_of_key hkey)
  rw [hemit, State.port_out, State.port_setPort_same, State.outs_out, State.setPort_outs, hcrypt]
  have hclosed := sealFlit_closed hactive hkey ((s.port port.val).plainFlit ftMsg [])
  have hfields := sealFlit_fields (s.port port.val).txCrypt ((s.port port.val).plainFlit ftMsg []) true
  exact ⟨hclosed.2, hseq, ⟨_, rfl, hreplay, hfields.2, hfields.1, hclosed.1⟩, rfl, rfl⟩

/-! ### NAKs -/

theorem exec_nakRepeat_of_due {s : State} {port : Fin 16} (hacts : s.acts (pgFPORT port.val) = true)
    (hlistens : (s.port port.val).listens = true) (hdisc : (s.port port.val).discarding = true)
    (hsent : (s.port port.val).nakSent = true) :
    exec (.nakRepeat port) s = .next ((s.setPort port.val { s.port port.val with nakSent := false }).sendNak port.val) :=
  (State.onBlk_acts _ hacts).trans (if_pos (by simp [hlistens, hdisc, hsent]))

theorem Port.listens_of_isUp {c : Port} (h : c.isUp = true) : c.listens = true := by
  unfold Port.listens
  rw [Port.train_of_isUp h]

theorem flitTraffic_nakRepeat (s : State) (port : Fin 16) (hacts : s.acts (pgFPORT port.val) = true)
    (hlistens : (s.port port.val).listens = true) (hdisc : (s.port port.val).discarding = true)
    (hsent : (s.port port.val).nakSent = true) (hfew : (s.port port.val).nakCount < 7) :
    Completes (.nakRepeat port) s fun t => (t.port port.val).nakSent = true ∧
    (t.port port.val).nakCount = (s.port port.val).nakCount + 1 ∧
    t.outs = s.outs ++ [.flit port.val { ftype := 1, seq := 0, ack := (s.port port.val).rxAck, nak := true, tag := false, crdClass := 0, crdCount := 0, ksel := (s.port port.val).txCrypt.active && (s.port port.val).txCrypt.sel, slots := List.replicate 16 0 }] ∧
    t.body = s.body ∧ t.regs = s.regs := by
  obtain ⟨u, hu⟩ : ∃ u, u = s.setPort port.val { s.port port.val with nakSent := false } := ⟨_, rfl⟩
  have huport : u.port port.val = { s.port port.val with nakSent := false } := by rw [hu, State.port_setPort_same]
  obtain ⟨c, hemit, -, -, -, hnakSent, hcount⟩ := u.emitFlit_idle port.val
  have hmark : ((u.port port.val).discarding && !(u.port port.val).nakSent) = true := by rw [huport]; simp [hdisc]
  have hcount' : c.nakCount = (s.port port.val).nakCount + 1 := by
    rw [hcount, hmark, huport]
    rfl
  have hsend : u.sendNak port.val = u.emitFlit port.val ftIdle [] := by
    unfold State.sendNak
    refine if_neg ?_
    rw [hemit, State.port_out, State.port_setPort_same]
    omega
  refine ⟨_, exec_nakRepeat_of_due hacts hlistens hdisc hsent, ?_⟩
  beta_reduce
  rw [← hu, hsend, State.body_emitFlit, State.regs_emitFlit, hemit, State.port_out, State.port_setPort_same, State.outs_out,
    State.setPort_outs, hnakSent, hmark, hu, State.setPort_outs, State.body_setPort, State.setPort_regs, State.port_setPort_same]
  refine ⟨by simp, hcount', ?_, rfl, rfl⟩
  unfold Port.idleFlit
  rw [hdisc]
  rfl

theorem flitTraffic_nakRepeat_last (s : State) (port : Fin 16) (hacts : s.acts (pgFPORT port.val) = true)
    (hup : (s.port port.val).isUp = true) (hdisc : (s.port port.val).discarding = true)
    (hsent : (s.port port.val).nakSent = true) (hcount : (s.port port.val).nakCount = 7) :
    Completes (.nakRepeat port) s fun t => (t.port port.val).train = .recovery 4 ∧ (t.port port.val).recoverAt = s.ao := by
  obtain ⟨u, hu⟩ : ∃ u, u = s.setPort port.val { s.port port.val with nakSent := false } := ⟨_, rfl⟩
  have huport : u.port port.val = { s.port port.val with nakSent := false } := by rw [hu, State.port_setPort_same]
  obtain ⟨c, hemit, hkept, -, -, -, hcount'⟩ := u.emitFlit_idle port.val
  have hmark : ((u.port port.val).discarding && !(u.port port.val).nakSent) = true := by rw [huport]; simp [hdisc]
  have hsend : u.sendNak port.val = (u.emitFlit port.val ftIdle []).recover port.val := by
    unfold State.sendNak
    refine if_pos ?_
    rw [hemit, State.port_out, State.port_setPort_same, hcount', hmark, huport, b2n]
    simp [hcount]
  have hcup : c.isUp = true := by
    have h : c.train = (u.port port.val).train := (congrArg Port.train hkept :)
    rw [Port.isUp, h, huport]
    exact hup
  have hrecover := State.port_recover_of_up (s := u.emitFlit port.val ftIdle []) (p := port.val)
    (by rw [hemit, State.port_out, State.port_setPort_same, hcup])
  refine ⟨_, exec_nakRepeat_of_due hacts (Port.listens_of_isUp hup) hdisc hsent, ?_⟩
  beta_reduce
  rw [← hu, hsend]
  refine ⟨hrecover.1, hrecover.2.trans ?_⟩
  rw [hemit, State.out_ao, State.setPort_ao, hu, State.setPort_ao]

/-! ### Flits that do not decode -/

theorem State.refuseFlit_kept {s : State} {p : Nat} (h : (s.port p).nakCount < 7) :
    ((s.refuseFlit p).port p).kept = ({ s.port p with discarding := true } : Port).kept := by
  refine (congrFun (State.refuseFlit_frame h).1 p).trans ?_
  unfold State.links
  rw [State.port_setPort_same]

theorem flitTraffic_badFec (s : State) (port : Fin 16) (flit : Bytes) (hacts : s.acts (pgFPORT port.val) = true)
    (hlistens : (s.port port.val).listens = true) (hcxl : (s.port port.val).isCxl = false) (hflit : flitOpen flit = .badFec)
    (hrare : ((s.port port.val).recentUncorr s.ao).length < 15) (hfew : (s.port port.val).nakCount < 7) :
    Completes (.flitReceive port flit) s fun t => (t.port port.val).discarding = true ∧
    (t.port port.val).uncorr = (s.port port.val).recentUncorr s.ao ++ [s.ao] ∧
    t.rd FPORT_FEC_UNCORR port.val = min (2 ^ FPORT_FEC_UNCORR.width - 1) (s.rd FPORT_FEC_UNCORR port.val + 1) ∧
    (t.port port.val).rxBuf = (s.port port.val).rxBuf ∧ t.body = s.body := by
  obtain ⟨u, hu⟩ : ∃ u, u = (s.setPort port.val
    { s.port port.val with uncorr := (s.port port.val).recentUncorr s.ao ++ [s.ao] }).bump FPORT_FEC_UNCORR port.val := ⟨_, rfl⟩
  have huport : u.port port.val = { s.port port.val with uncorr := (s.port port.val).recentUncorr s.ao ++ [s.ao] } := by
    rw [hu, State.port_of_ports (State.bump_ports ..), State.port_setPort_same]
  have hexec : exec (.flitReceive port flit) s = .next (u.refuseFlit port.val) := by
    refine (State.onBlk_acts _ hacts).trans ?_
    dsimp only
    rw [if_neg (by simp [hlistens, hcxl]), hflit, hu]
    exact if_neg (by simp; omega)
  have hfew' : (u.port port.val).nakCount < 7 := by rw [huport]; exact hfew
  have hkept := State.refuseFlit_kept hfew'
  obtain ⟨-, -, hbody, htables⟩ := State.refuseFlit_frame hfew'
  refine ⟨_, hexec, ?_⟩
  beta_reduce
  rw [State.rd_of_tables htables, hbody]
  generalize u.refuseFlit port.val = t at hkept ⊢
  rw [huport] at hkept
  refine ⟨(congrArg Port.discarding hkept :), (congrArg Port.uncorr hkept :), ?_, (congrArg Port.rxBuf hkept :), ?_⟩
  · rw [hu, State.rd_bump_same, State.rd_setPort]
  · rw [hu, State.body_bump, State.body_setPort]

theorem State.rd_bumpBy_same (s : State) (f : Field) (n i x : Nat) :
    (s.bumpBy f n i x).rd f i x = min (2 ^ f.width - 1) (s.rd f i x + n) := by
  rw [State.bumpBy, State.rd_wr_same]
  have : 0 < 2 ^ f.width := Nat.pos_of_ne_zero (by simp)
  exact Nat.mod_eq_of_lt (by omega)

theorem flitTraffic_badCrc (s : State) (port : Fin 16) (flit : Bytes) (n : Nat) (hacts : s.acts (pgFPORT port.val) = true)
    (hlistens : (s.port port.val).listens = true) (hcxl : (s.port port.val).isCxl = false) (hflit : flitOpen flit = .badCrc n)
    (hfew : (s.port port.val).nakCount < 7) :
    Completes (.flitReceive port flit) s fun t => (t.port port.val).discarding = true ∧
    t.rd FPORT_CRC_ERR port.val = min (2 ^ FPORT_CRC_ERR.width - 1) (s.rd FPORT_CRC_ERR port.val + 1) ∧
    t.rd FPORT_FEC_CORR port.val = min (2 ^ FPORT_FEC_CORR.width - 1) (s.rd FPORT_FEC_CORR port.val + n) ∧
    (t.port port.val).rxBuf = (s.port port.val).rxBuf ∧ t.body = s.body := by
  obtain ⟨u, hu⟩ : ∃ u, u = (s.fecCounted port.val n).bump FPORT_CRC_ERR port.val := ⟨_, rfl⟩
  have huport : u.port port.val = s.port port.val := by
    rw [hu, State.port_of_ports (State.bump_ports ..), State.port_fecCounted]
  have hexec : exec (.flitReceive port flit) s = .next (u.refuseFlit port.val) := by
    refine (State.onBlk_acts _ hacts).trans ?_
    dsimp only
    rw [if_neg (by simp [hlistens, hcxl]), hflit, hu]
    rfl
  have hfew' : (u.port port.val).nakCount < 7 := by rw [huport]; exact hfew
  have hkept := State.refuseFlit_kept hfew'
  obtain ⟨-, -, hbody, htables⟩ := State.refuseFlit_frame hfew'
  refine ⟨_, hexec, ?_⟩
  beta_reduce
  rw [State.rd_of_tables htables, State.rd_of_tables htables, hbody]
  generalize u.refuseFlit port.val = t at hkept ⊢
  rw [huport] at hkept
  refine ⟨(congrArg Port.discarding hkept :), ?_, ?_, (congrArg Port.rxBuf hkept :), ?_⟩
  · rw [hu, State.rd_bump_same, State.rd_fecCounted_ne _ _ _ (keyOf_ne_of_offset _ _ (by decide))]
  · rw [hu, State.rd_bump_ne _ (keyOf_ne_of_offset _ _ (by decide))]
    exact State.rd_bumpBy_same s FPORT_FEC_CORR n port.val 0
  · rw [hu, State.body_bump, State.body_fecCounted]

/-! ### MSG flits in order -/

/-- The state in which the slots of a MSG flit are taken: its ACK and its number recorded, its credit added. -/
def State.flitTaken (s : State) (p n : Nat) (f : Flit) : State :=
  (((s.fecCounted p n).setPort p ((s.port p).acked f.ack)).endDiscard p).creditFlit p f

theorem State.kept_flitTaken (s : State) (p n : Nat) (f : Flit) : ((s.flitTaken p n f).port p).kept =
    ({ (s.port p).acked f.ack with discarding := false, rxAck := f.seq } : Port).kept := by
  refine (congrFun (State.links_creditFlit ..) p).trans ?_
  unfold State.links
  rw [State.port_setPort_same, State.port_endDiscard, State.port_setPort_same]
  rfl

theorem State.body_flitTaken (s : State) (p n : Nat) (f : Flit) : (s.flitTaken p n f).body = s.body := by
  rw [State.flitTaken, State.body_creditFlit, State.body_endDiscard, State.body_setPort, State.body_fecCounted]

theorem State.rd_flitTaken_ne (s : State) (p n : Nat) (f : Flit) {g : Field} {i x : Nat}
    (hreplay : keyOf g i x ≠ keyOf FPORT_REPLAY p 0) (hcorr : keyOf g i x ≠ keyOf FPORT_FEC_CORR p 0) :
    (s.flitTaken p n f).rd g i x = s.rd g i x := by
  rw [State.flitTaken, State.rd_creditFlit, State.rd_endDiscard_ne _ _ hreplay, State.rd_setPort, State.rd_fecCounted_ne _ _ _ hcorr]

theorem exec_flitReceive_of_msg {s : State} {port : Fin 16} {flit b : Bytes} {n : Nat} (hacts : s.acts (pgFPORT port.val) = true)
    (hlistens : (s.port port.val).listens = true) (hcxl : (s.port port.val).isCxl = false) (hflit : flitOpen flit = .good b n)
    (hty : (flitOf b).ftype = 0) (hnak : (flitOf b).nak = false) (hopen : s.rxSealed port.val (flitOf b) = false)
    (hseq : (flitOf b).seq = (s.port port.val).rxAck + 1) : exec (.flitReceive port flit) s =
      .next (((if (flitOf b).tag then (flitOf b).slots.take 15 else (flitOf b).slots).foldl
        (fun (s : State) x => s.takeSlot port.val x) (s.flitTaken port.val n (flitOf b))).settleFlit port.val) := by
  have hreceived := (s.port port.val).received_acked (flitOf b).ack
  have hactive : (s.port port.val).rxCrypt.active = false := by
    unfold State.rxSealed at hopen
    exact (Bool.or_eq_false_iff.mp hopen).1
  rw [exec_flitReceive_of_next hacts hlistens hcxl hflit (Or.inl hty) hnak (by simp [Port.nextSeq, hactive, hseq]),
    State.acceptFlit_of_open, State.deliverFlit_of_msg hty]
  · rfl
  · rw [State.rxSealed_congr (s := s), hopen]
    · rw [State.port_setPort_same]
      exact (congrArg Port.lastParams hreceived :)
    · rw [State.port_setPort_same]
      exact (congrArg Port.rxCrypt hreceived :)
    · rw [State.rd_setPort, State.rd_fecCounted_ne _ _ _ (keyOf_ne_of_offset _ _ (by decide))]

theorem flitTraffic_empty (s : State) (port : Fin 16) (flit b : Bytes) (n : Nat) (hacts : s.acts (pgFPORT port.val) = true)
    (hlistens : (s.port port.val).listens = true) (hcxl : (s.port port.val).isCxl = false) (hflit : flitOpen flit = .good b n)
    (hty : (flitOf b).ftype = 0) (hnak : (flitOf b).nak = false) (hopen : s.rxSealed port.val (flitOf b) = false)
    (hpart : (s.port port.val).partialMsg = none) (hslots : (flitOf b).slots.all (fun x => !slotValid x) = true)
    (hseq : (flitOf b).seq = (s.port port.val).rxAck + 1) :
    Completes (.flitReceive port flit) s fun t => (t.port port.val).rxAck = (s.port port.val).rxAck + 1 ∧
    (t.port port.val).discarding = false ∧ (t.port port.val).rxBuf = (s.port port.val).rxBuf ∧ t.body = s.body := by
  have hreceived := (s.port port.val).received_acked (flitOf b).ack
  obtain ⟨u, hu⟩ : ∃ u, u = s.flitTaken port.val n (flitOf b) := ⟨_, rfl⟩
  have htaken : (u.port port.val).kept =
      ({ (s.port port.val).acked (flitOf b).ack with discarding := false, rxAck := (flitOf b).seq } : Port).kept := by
    rw [hu, State.kept_flitTaken]
  have hbody : u.body = s.body := by rw [hu, State.body_flitTaken]
  have hupart : (u.port port.val).partialMsg = none :=
    (congrArg Port.partialMsg htaken :).trans ((congrArg Port.partialMsg hreceived :).trans hpart)
  have hall : (if (flitOf b).tag then (flitOf b).slots.take 15 else (flitOf b).slots).all (fun x => !slotValid x) = true := by
    split
    · exact List.all_eq_true.mpr fun x hx => List.all_eq_true.mp hslots x (List.mem_of_mem_take hx)
    · exact hslots
  refine ⟨_, exec_flitReceive_of_msg hacts hlistens hcxl hflit hty hnak hopen hseq, ?_⟩
  beta_reduce
  rw [← hu, State.takeSlots_of_invalid hupart _ hall, State.body_settleFlit, hbody]
  have hlinks := u.links_settleFlit port.val
  generalize u.settleFlit port.val = t at hlinks ⊢
  have hkept := (congrFun hlinks port.val).trans htaken
  exact ⟨(congrArg Port.rxAck hkept :).trans hseq, (congrArg Port.discarding hkept :),
    (congrArg Port.rxBuf hkept :).trans (congrArg Port.rxBuf hreceived :), rfl⟩

theorem flitTraffic_message (s : State) (port : Fin 16) (flit b : Bytes) (n : Nat) (x : Slot) (rest : List Slot)
    (hacts : s.acts (pgFPORT port.val) = true)
    (hlistens : (s.port port.val).listens = true) (hcxl : (s.port port.val).isCxl = false) (hflit : flitOpen flit = .good b n)
    (hty : (flitOf b).ftype = 0) (hnak : (flitOf b).nak = false) (hopen : s.rxSealed port.val (flitOf b) = false)
    (hpart : (s.port port.val).partialMsg = none) (hslots : (flitOf b).slots = x :: rest) (hx : slotValid x = true)
    (hd : slotD x = 0) (hall : s.allowed port.val (slotMsg x) 0 = true) (hrest : rest.all (fun y => !slotValid y) = true)
    (hseq : (flitOf b).seq = (s.port port.val).rxAck + 1) :
    Completes (.flitReceive port flit) s fun t => (t.port port.val).rxAck = (s.port port.val).rxAck + 1 ∧
    (t.port port.val).discarding = false ∧ (t.port port.val).rxBuf = (s.port port.val).rxBuf ++ [slotMsg x] ∧ t.body = s.body := by
  have hreceived := (s.port port.val).received_acked (flitOf b).ack
  obtain ⟨u, hu⟩ : ∃ u, u = s.flitTaken port.val n (flitOf b) := ⟨_, rfl⟩
  have htaken : (u.port port.val).kept =
      ({ (s.port port.val).acked (flitOf b).ack with discarding := false, rxAck := (flitOf b).seq } : Port).kept := by
    rw [hu, State.kept_flitTaken]
  have hbody : u.body = s.body := by rw [hu, State.body_flitTaken]
  have hupart : (u.port port.val).partialMsg = none :=
    (congrArg Port.partialMsg htaken :).trans ((congrArg Port.partialMsg hreceived :).trans hpart)
  have hulistens : (u.port port.val).listens = true := by
    have htrain : (u.port port.val).train = (s.port port.val).train :=
      (congrArg Port.train htaken :).trans (congrArg Port.train hreceived :)
    unfold Port.listens at hlistens ⊢
    rwa [htrain]
  have huall : u.allowed port.val (slotMsg x) 0 = true := by
    unfold State.allowed at hall ⊢
    rwa [hu, State.rd_flitTaken_ne _ _ _ _ (keyOf_ne_of_offset _ _ (by decide)) (keyOf_ne_of_offset _ _ (by decide))]
  obtain ⟨l, hl, hlrest⟩ : ∃ l, (if (flitOf b).tag then (flitOf b).slots.take 15 else (flitOf b).slots) = x :: l ∧
      l.all (fun y => !slotValid y) = true := by
    rw [hslots]
    split
    · exact ⟨rest.take 14, rfl, List.all_eq_true.mpr fun y hy => List.all_eq_true.mp hrest y (List.mem_of_mem_take hy)⟩
    · exact ⟨rest, rfl, hrest⟩
  refine ⟨_, exec_flitReceive_of_msg hacts hlistens hcxl hflit hty hnak hopen hseq, ?_⟩
  beta_reduce
  rw [hl, List.foldl_cons, ← hu, State.takeSlot_of_message hulistens hupart hx hd huall,
    State.takeSlots_of_invalid (by rw [State.port_setPort_same]; exact hupart) l hlrest, State.body_settleFlit, State.body_setPort, hbody]
  have hlinks := (u.setPort port.val { u.port port.val with rxBuf := (u.port port.val).rxBuf ++ [slotMsg x] }).links_settleFlit port.val
  generalize State.settleFlit _ _ = t at hlinks ⊢
  have hkept : (t.port port.val).kept =
      ({ u.port port.val with rxBuf := (u.port port.val).rxBuf ++ [slotMsg x] } : Port).kept := by
    refine (congrFun hlinks port.val).trans ?_
    unfold State.links
    rw [State.port_setPort_same]
  have hbuf : (u.port port.val).rxBuf = (s.port port.val).rxBuf :=
    (congrArg Port.rxBuf htaken :).trans (congrArg Port.rxBuf hreceived :)
  refine ⟨(congrArg Port.rxAck hkept :).trans ((congrArg Port.rxAck htaken :).trans hseq),
    (congrArg Port.discarding hkept :).trans (congrArg Port.discarding htaken :), ?_, rfl⟩
  rw [← hbuf]
  exact (congrArg Port.rxBuf hkept :)

end Sys2Proof.Machine

open Sys2Proof.Machine

/-- Settles O7: one lemma for each timer, for each flit that does not decode, and for the MSG flits. -/
theorem flitTraffic : Obligations.FlitTraffic :=
  ⟨flitTraffic_ackTimer, flitTraffic_creditReturn, flitTraffic_tagGroupClose, flitTraffic_nakRepeat, flitTraffic_nakRepeat_last,
    flitTraffic_badFec, flitTraffic_badCrc, flitTraffic_empty, flitTraffic_message⟩
end

section
/-! CXL links (O9). -/
namespace Sys2Proof.Machine

open Reg

/-! ### What the wake of a block leaves -/

theorem State.rd_unpark_ne (s : State) (p : Nat) {f : Field} {i x : Nat} (hfc : keyOf f i x ≠ keyOf CLK_FC_STATE 0 0)
    (hmc : keyOf f i x ≠ keyOf CLK_MC_STATE 0 0) : (s.unpark p).rd f i x = s.rd f i x := by
  unfold State.unpark
  dsimp only
  repeat' split
  all_goals simp only [State.rd_wr_ne _ _ hfc, State.rd_wr_ne _ _ hmc]

theorem State.rd_setPwr_ne (s : State) (p st : Nat) {f : Field} {i x : Nat} (hpwr : keyOf f i x ≠ keyOf H_PWR_NOW p 0)
    (hfc : keyOf f i x ≠ keyOf CLK_FC_STATE 0 0) (hmc : keyOf f i x ≠ keyOf CLK_MC_STATE 0 0) :
    (s.setPwr p st).rd f i x = s.rd f i x := by
  unfold State.setPwr
  dsimp only
  split
  · rw [State.rd_unpark_ne _ _ hfc hmc, State.rd_wr_ne _ _ hpwr]
    rfl
  · rw [State.rd_wr_ne _ _ hpwr]
    rfl

/-- Work that finds its blocks in Run changes their power states and the PLLs alone. -/
theorem State.rd_use_ne (s : State) (l : List Nat) {f : Field} {i x : Nat} (hpwr : ∀ p ∈ l, keyOf f i x ≠ keyOf H_PWR_NOW p 0)
    (hfc : keyOf f i x ≠ keyOf CLK_FC_STATE 0 0) (hmc : keyOf f i x ≠ keyOf CLK_MC_STATE 0 0) :
    (s.use l).rd f i x = s.rd f i x := by
  have hfold (l : List Nat) (hl : ∀ p ∈ l, keyOf f i x ≠ keyOf H_PWR_NOW p 0) (u : State) :
      (l.foldl (fun (s : State) p => if s.rd H_PWR_NOW p = 0 then s else s.setPwr p 0) u).rd f i x = u.rd f i x := by
    induction l generalizing u with
    | nil => rfl
    | cons p l ih =>
      rw [List.foldl_cons, ih (fun q hq => hl q (List.mem_cons_of_mem _ hq))]
      split
      · rfl
      · exact State.rd_setPwr_ne _ _ _ (hl p List.mem_cons_self) hfc hmc
  exact hfold l hpwr s

/-! ### Requests of a host -/

theorem State.links_setPwr (s : State) (p st : Nat) : (s.setPwr p st).links = s.links := by
  have hpwr (u : State) (w : Pwr) : State.links { u with pwr := w } = u.links := rfl
  have hunpark (u : State) : (u.unpark p).links = u.links := by
    unfold State.unpark
    dsimp only
    repeat' split
    all_goals simp only [State.links_wr]
  unfold State.setPwr
  dsimp only
  split
  · rw [hunpark, State.links_wr, hpwr]
  · rw [State.links_wr, hpwr]

theorem State.links_use (s : State) (l : List Nat) : (s.use l).links = s.links := by
  have hmark (u : State) (w : List Nat) (t : Tab Nat) : State.links { u with waking := w, lastUse := t } = u.links := rfl
  unfold State.use
  dsimp only
  rw [hmark]
  exact foldl_keeps State.links _ (fun u p => by split <;> simp only [State.links_setPwr]) _ _

theorem State.links_judgePanic (s : State) : s.judgePanic.links = s.links := by
  have hshape (u : State) (x : Shape) : State.links { u with shape := x } = u.links := rfl
  unfold State.judgePanic
  dsimp only
  split
  · rw [hshape, State.links_sample]
  split
  · rw [State.links_raise, State.links_bump, hshape, State.links_sample]
  split
  · rw [hshape, State.links_sample]
  · exact State.links_sample ..

theorem State.links_reEval (s : State) : s.reEval.links = s.links := by
  have hshape (u : State) (x : Shape) : State.links { u with shape := x } = u.links := rfl
  unfold State.reEval
  dsimp only
  rw [hshape]
  exact foldl_keeps State.links _ (fun u t => hshape u _) _ s

theorem State.links_enterQueue (s : State) (r : Req) (pl : Place) : (s.enterQueue r pl).links = s.links := by
  unfold State.enterQueue
  dsimp only
  rw [State.links_reEval, State.links_judgePanic, State.links_use]
  split <;> rfl

theorem State.busyAt_setPort {s : State} {p : Nat} {c : Port} (hup : (s.port p).isUp = true) (htxq : c.txq = (s.port p).txq) (r : Req) :
    (s.setPort p c).busyAt r = s.busyAt r := by
  have hleavings : (s.setPort p c).leavings = s.leavings := Tab.flatMap_set _ (by simp only [htxq]) _ (s.get?_ports_of_isUp hup)
  have hleaving : (s.setPort p c).leaving r.port = s.leaving r.port := by
    unfold State.leaving
    by_cases hq : r.port = p
    · rw [hq, State.port_setPort_same, htxq]
    · rw [State.port_setPort_ne _ _ hq]
  unfold State.busyAt State.outPort State.outNode State.outAgent State.steered State.admQueue
  rw [hleavings, hleaving, State.setPort_reqs, State.setPort_shape, State.rd_setPort, State.rd_setPort]

theorem State.cxlHolds_setPort {s : State} {p : Nat} {c : Port} (hup : (s.port p).isUp = true) (htxq : c.txq = (s.port p).txq)
    (r : Req) : (s.setPort p c).cxlHolds r = s.cxlHolds r := by
  unfold State.cxlHolds
  rw [State.busyAt_setPort hup htxq]
  rfl

theorem State.cxlOp_setPort (s : State) (p : Nat) (c : Port) (q : Nat) (r : CxlReq) : (s.setPort p c).cxlOp q r = s.cxlOp q r := rfl

theorem State.cxlReq_setPort (s : State) (p : Nat) (c : Port) (q : Nat) (r : CxlReq) (o : Op) :
    (s.setPort p c).cxlReq q r o = s.cxlReq q r o := rfl

/-- A request of the subset that no back-invalidate awaits joins those that the port holds, and the first of them is looked at. -/
theorem exec_cxlMemRequest_of_subset {s : State} {port : Fin 16} {r : CxlReq} (hacts : s.acts (pgFPORT port.val) = true)
    (hup : (s.port port.val).isUp = true) (hcxl : (s.port port.val).isCxl = true) (hun : r.op ≠ .unsupported)
    (hcache : r.op ≠ .cacheMsg) (hspec : r.op ≠ .memSpecRd) (hbi : (s.port port.val).cxlBi = [])
    (hheld : (s.port port.val).cxlHeld = []) : exec (.cxlMemRequest port r) s =
      .next ((s.setPort port.val { s.port port.val with cxlHeld := [r] }).cxlPump port.val) := by
  refine (State.onBlk_acts _ hacts).trans ?_
  dsimp only
  rw [if_neg (by simp [hup, hcxl]), hbi, hheld]
  split
  · exact absurd ‹_› hspec
  · exact absurd ‹_› hun
  · exact absurd ‹_› hcache
  · rw [if_neg (by simp)]
    rfl

/-- The first request that a port holds, looked at alone. -/
theorem State.cxlPump_of_one {s : State} {p : Nat} {r : CxlReq} {o : Op} (hheld : (s.port p).cxlHeld = [r])
    (halive : (s.port p).alive = true) (hop : s.cxlOp p r = some o) : s.cxlPump p =
      (if s.cxlHolds (s.cxlReq p r o) then s
       else (s.setPort p { s.port p with cxlHeld := [] }).arrive (s.cxlReq p r o)) := by
  unfold State.cxlPump
  rw [hheld, List.foldl_cons, List.foldl_nil]
  dsimp only
  rw [hheld, hop, if_pos (by simp [halive])]
  rfl

theorem cxlOp_isSome {s : State} {p : Nat} {r : CxlReq} (hun : r.op ≠ .unsupported) (hcache : r.op ≠ .cacheMsg)
    (hspec : r.op ≠ .memSpecRd) : ∃ o, s.cxlOp p r = some o := by
  unfold State.cxlOp
  cases hop : r.op
  case memSpecRd => exact absurd hop hspec
  case unsupported => exact absurd hop hun
  case cacheMsg => exact absurd hop hcache
  case memWr =>
    dsimp only
    split <;> exact ⟨_, rfl⟩
  all_goals exact ⟨_, rfl⟩

theorem cxlLink_held (s : State) (port : Fin 16) (r : CxlReq) (hacts : s.acts (pgFPORT port.val) = true)
    (hup : (s.port port.val).isUp = true) (hcxl : (s.port port.val).isCxl = true) (hun : r.op ≠ .unsupported)
    (hcache : r.op ≠ .cacheMsg) (hspec : r.op ≠ .memSpecRd) (hbi : (s.port port.val).cxlBi = []) (hclosed : s.shape.open_ = false)
    (hheld : (s.port port.val).cxlHeld = []) :
    Completes (.cxlMemRequest port r) s fun t => (t.port port.val).cxlHeld = [r] ∧ t.body = s.body ∧ t.regs = s.regs := by
  obtain ⟨o, hop⟩ := cxlOp_isSome (s := s.setPort port.val { s.port port.val with cxlHeld := [r] }) (p := port.val) hun hcache hspec
  have hport := State.port_setPort_same s port.val { s.port port.val with cxlHeld := [r] }
  have hpump := State.cxlPump_of_one (s := s.setPort port.val { s.port port.val with cxlHeld := [r] }) (p := port.val) (r := r)
    (by rw [hport]) (by rw [hport]; exact Port.alive_of_isUp (c := { s.port port.val with cxlHeld := [r] }) hup) hop
  rw [if_pos (by simp [State.cxlHolds, State.closedTo, hclosed])] at hpump
  refine ⟨_, exec_cxlMemRequest_of_subset hacts hup hcxl hun hcache hspec hbi hheld, ?_⟩
  beta_reduce
  rw [hpump, hport]
  exact ⟨rfl, rfl, rfl⟩

theorem cxlLink_arrives (s : State) (port : Fin 16) (r : CxlReq) (o : Op) (hacts : s.acts (pgFPORT port.val) = true)
    (hup : (s.port port.val).isUp = true) (hcxl : (s.port port.val).isCxl = true) (hbi : (s.port port.val).cxlBi = [])
    (hheld : (s.port port.val).cxlHeld = []) (hop : s.cxlOp port.val r = some o) (hby : o.bypasses = false)
    (hen : s.enabled (s.rd FPORT_CXL_TID port.val) = true) (hfree : s.cxlHolds (s.cxlReq port.val r o) = false) :
    Completes (.cxlMemRequest port r) s fun t => (t.port port.val).cxlHeld = [] ∧
    t.reqs = s.reqs ++ [{ s.cxlReq port.val r o with id := s.nextId, place := .queued, order := s.nextOrder }] ∧ t.core = s.core := by
  obtain ⟨hclosed, hbusy⟩ : s.closedTo (s.cxlReq port.val r o) = false ∧ s.busyAt (s.cxlReq port.val r o) = false := by
    have hop' : (s.cxlReq port.val r o).op.bypasses = false := hby
    simpa [State.cxlHolds, hop'] using hfree
  obtain ⟨v, hv⟩ : ∃ v, v = s.setPort port.val { s.port port.val with cxlHeld := [r] } := ⟨_, rfl⟩
  have hport : v.port port.val = { s.port port.val with cxlHeld := [r] } := by rw [hv, State.port_setPort_same]
  have hvup : (v.port port.val).isUp = true := by rw [hport]; exact hup
  have hvreq : v.cxlReq port.val r o = s.cxlReq port.val r o := by rw [hv]; rfl
  have hvholds : v.cxlHolds (s.cxlReq port.val r o) = false := by
    rw [hv, ← hfree]
    exact State.cxlHolds_setPort hup (by rfl) _
  have hvbusy : v.busyAt (s.cxlReq port.val r o) = false := by
    rw [hv, ← hbusy]
    exact State.busyAt_setPort hup (by rfl) _
  have hpump := State.cxlPump_of_one (s := v) (p := port.val) (r := r) (by rw [hport]) (Port.alive_of_isUp hvup)
    (by rw [hv]; exact hop)
  obtain ⟨u, hu⟩ : ∃ u, u = v.setPort port.val { v.port port.val with cxlHeld := [] } := ⟨_, rfl⟩
  have hbusy' : u.busyAt (s.cxlReq port.val r o) = false := by
    rw [hu, ← hvbusy]
    exact State.busyAt_setPort hvup (by rfl) _
  have hshape : u.closedTo (s.cxlReq port.val r o) = false ∧ u.enabled (s.cxlReq port.val r o).tid = true := by
    rw [hu, hv]
    exact ⟨hclosed, hen⟩
  have harrive : u.arrive (s.cxlReq port.val r o) = u.enterQueue (s.cxlReq port.val r o) .queued := by
    rw [State.arrive_of_open hshape.1 (Or.inr (Or.inr ⟨hshape.2, hbusy'⟩)),
      if_neg (by rw [show (s.cxlReq port.val r o).op = o from rfl, hby]; simp)]
  rw [hvreq, hvholds, if_neg Bool.false_ne_true, ← hu, harrive] at hpump
  have hrequests := u.requests_enterQueue (s.cxlReq port.val r o) .queued
  have hlinks := u.links_enterQueue (s.cxlReq port.val r o) .queued
  have hcore : (u.enterQueue (s.cxlReq port.val r o) .queued).core = s.core := by rw [State.core_enterQueue, hu, hv]; rfl
  refine ⟨_, exec_cxlMemRequest_of_subset hacts hup hcxl ?_ ?_ ?_ hbi hheld, ?_⟩
  · intro h; simp [State.cxlOp, h] at hop
  · intro h; simp [State.cxlOp, h] at hop
  · intro h; simp [State.cxlOp, h] at hop
  beta_reduce
  rw [← hv, hpump]
  generalize u.enterQueue (s.cxlReq port.val r o) .queued = t at hrequests hlinks hcore ⊢
  obtain ⟨hreqs, -⟩ := Prod.mk.inj hrequests
  have hkept : (t.port port.val).kept = (u.port port.val).kept := congrFun hlinks port.val
  rw [hu, State.port_setPort_same] at hkept
  refine ⟨(congrArg Port.cxlHeld hkept :), ?_, hcore⟩
  rw [hreqs, hu, hv]
  rfl

/-! ### Answers to the home -/

/-- The tracker after one of several awaited agents has answered an invalidation. -/
def Trk.without (k : Trk) (aid : Nat) : Trk :=
  { k with awaited := k.awaited.filter (fun a => a.1 != aid), before := k.before.bind (fun e => e.leave aid) }

theorem State.homeAnswer_of_awaited {s : State} {k : Trk} {aid la : Nat} (htrks : s.trks = [k]) (hla : k.la = la)
    (hawaits : k.awaited.any (fun a => a.1 == aid) = true) (howed : s.owed = []) (hlive : s.live aid = true)
    (d : Option (BitVec 512 × Bool)) (tid job slots : Nat) :
    s.homeAnswer aid la d tid job slots = (s.count 0 k.tid k.job slots).takeAnswer k aid d := by
  have hfind : s.trks.find? (fun t => t.la == la && t.awaited.any (fun a => a.1 == aid)) = some k := by
    rw [htrks]
    exact List.find?_cons_of_pos (by simp [hla, hawaits])
  unfold State.homeAnswer
  dsimp only
  rw [hfind, howed, hlive]
  simp

theorem State.answered_of_one {s : State} {k t : Trk} (htrks : s.trks = [k]) (hslot : t.slot = k.slot) (hmore : t.awaited ≠ []) :
    s.answered t = { s with trks := [t] } := by
  unfold State.answered
  dsimp only
  rw [htrks, if_neg (by simp [hmore])]
  simp [updFirst, hslot]

theorem Trk.awaited_ne_nil {k : Trk} {aid : Nat} (h : k.awaited.any (fun a => a.1 != aid) = true) :
    k.awaited.filter (fun a => a.1 != aid) ≠ [] := by
  obtain ⟨a, ha, hne⟩ := List.any_eq_true.mp h
  exact List.ne_nil_of_mem (List.mem_filter.mpr ⟨ha, hne⟩)

/-- An answer to an invalidation whose data, if any, goes to memory at once. -/
theorem State.takeAnswer_of_inv {s : State} {k : Trk} (hinv : k.kind = .inv) (aid : Nat) (d : Option (BitVec 512 × Bool))
    (hplain : (d.isSome && s.answerMirrored k) = false) : s.takeAnswer k aid d =
      (match d with
        | some (x, p) => s.storeAnswer k x p
        | none => s).answered (k.without aid) := by
  have hfwd : (k.kind != .inv) = false := by rw [hinv]; rfl
  unfold State.takeAnswer
  dsimp only
  rw [hfwd, hplain]
  rfl

theorem State.takeAnswer_of_empty {s : State} {k : Trk} {aid : Nat} (htrks : s.trks = [k]) (hinv : k.kind = .inv)
    (hmore : k.awaited.any (fun a => a.1 != aid) = true) : s.takeAnswer k aid none = { s with trks := [k.without aid] } :=
  (State.takeAnswer_of_inv hinv aid none rfl).trans (State.answered_of_one htrks rfl (Trk.awaited_ne_nil hmore))

/-- An answer that nothing awaits is counted stray, raised and recorded. -/
theorem State.homeAnswer_of_stray {s : State} (htrks : s.trks = []) (howed : s.owed = []) (aid la : Nat)
    (d : Option (BitVec 512 × Bool)) (tid job slots : Nat) : s.homeAnswer aid la d tid job slots =
      (((s.count 0 tid job slots).bump HOME_STRAY_ACK).raise pgHOME I_HOME_STRAY).crumb pgHOME 0x202 1
        [la % 2 ^ 32, la / 2 ^ 32, aid] := by
  unfold State.homeAnswer
  dsimp only
  rw [htrks, howed]
  cases s.live aid <;> rfl

theorem State.settleEnd_of_open {s : State} {la : Nat} (h : s.isOpen la = true) : s.settleEnd la = s := if_pos h

/-- What the home works with of an answer's line. -/
theorem State.parts_of_body {s t : State} (h : t.body = s.body) :
    t.trks = s.trks ∧ t.owed = s.owed ∧ t.openTx = s.openTx ∧ t.reqs = s.reqs ∧ t.agents = s.agents ∧ t.queues = s.queues ∧
      t.dir = s.dir := by
  have htrks : t.body.trks = s.body.trks := congrArg State.trks h
  have howed : t.body.owed = s.body.owed := congrArg State.owed h
  have hopen : t.body.openTx = s.body.openTx := congrArg State.openTx h
  have hreqs : t.body.reqs = s.body.reqs := congrArg State.reqs h
  have hagents : t.body.agents = s.body.agents := congrArg State.agents h
  have hqueues : t.body.queues = s.body.queues := congrArg State.queues h
  have hdir : t.body.dir = s.body.dir := congrArg State.dir h
  exact ⟨htrks, howed, hopen, hreqs, hagents, hqueues, hdir⟩

theorem State.rd_use_of_page (s : State) (p : Nat) {f : Field} {i x : Nat} (hpwr : keyOf f i x ≠ keyOf H_PWR_NOW p 0)
    (hfc : keyOf f i x ≠ keyOf CLK_FC_STATE 0 0) (hmc : keyOf f i x ≠ keyOf CLK_MC_STATE 0 0) : (s.use [p]).rd f i x = s.rd f i x :=
  State.rd_use_ne s [p] (fun q hq => by rw [List.mem_singleton.mp hq]; exact hpwr) hfc hmc

/-! ### What a CXL link does -/

/-- The port's part of a back-invalidate ended. -/
theorem exec_cxlBirsp_of_asked {s : State} {port : Fin 16} {la : BitVec 46} {b : Nat × Option (BitVec 512 × Bool)}
    (hacts : s.acts (pgFPORT port.val) = true) (hup : (s.port port.val).isUp = true) (hcxl : (s.port port.val).isCxl = true)
    (hbi : (s.port port.val).cxlBi = [b]) (hla : b.1 = laOf la.toNat) : exec (.cxlBirsp port la) s =
      .next (let s1 := (s.setPort port.val { s.port port.val with cxlBi := [] }).use [pgHOME]
        (s1.homeAnswer (s1.rd FPORT_CXL_AID port.val) (laOf la.toNat) b.2 0 0 0).settleEnd (laOf la.toNat)) := by
  have hfind : (s.port port.val).cxlBi.find? (fun b => b.1 == laOf la.toNat) = some b := by
    rw [hbi]
    exact List.find?_cons_of_pos (by simp [hla])
  have hdrop : dropFirst (fun x => x == b) (s.port port.val).cxlBi = [] := by
    rw [hbi]
    simp [dropFirst]
  refine (State.onBlk_acts _ hacts).trans ?_
  dsimp only
  rw [if_neg (by simp [hup, hcxl]), hfind]
  dsimp only
  rw [hdrop]

theorem State.isOpen_congr {s t : State} (h : t.openTx = s.openTx) (la : Nat) : t.isOpen la = s.isOpen la := by
  unfold State.isOpen
  rw [h]

theorem State.live_congr {s t : State} (h : t.agents = s.agents) (a : Nat) : t.live a = s.live a := by
  unfold State.live State.agent
  rw [h]

/-- The state in which the home takes a host's answer. -/
structure BirspState (s u : State) (port : Nat) : Prop where
  body : u.body = s.body
  aid : u.rd FPORT_CXL_AID port = s.rd FPORT_CXL_AID port
  stray : u.rd HOME_STRAY_ACK = s.rd HOME_STRAY_ACK
  held : (u.port port).cxlBi = []
  core : u.core = s.core

theorem birspState (s : State) (port : Fin 16) :
    BirspState s ((s.setPort port.val { s.port port.val with cxlBi := [] }).use [pgHOME]) port.val where
  body := by rw [State.body_use, State.body_setPort]
  aid := by
    rw [State.rd_use_of_page, State.rd_setPort]
    all_goals
      have hport := port.isLt
      simp only [keyOf, FPORT_CXL_AID, H_PWR_NOW, CLK_FC_STATE, CLK_MC_STATE, pgHOME]
      omega
  stray := by
    rw [State.rd_use_of_page _ _ (by decide) (by decide) (by decide), State.rd_setPort]
  held := by
    have hlinks := congrFun ((s.setPort port.val { s.port port.val with cxlBi := [] }).links_use [pgHOME]) port.val
    generalize State.use _ _ = u at hlinks ⊢
    unfold State.links at hlinks
    rw [State.port_setPort_same] at hlinks
    exact (congrArg Port.cxlBi hlinks :)
  core := by simp

theorem cxlLink_birsp (s : State) (port : Fin 16) (la : BitVec 46) (k : Trk) (hacts : s.acts (pgFPORT port.val) = true)
    (hup : (s.port port.val).isUp = true) (hcxl : (s.port port.val).isCxl = true)
    (hbi : (s.port port.val).cxlBi = [(laOf la.toNat, none)]) (hlive : s.live (s.rd FPORT_CXL_AID port.val) = true)
    (htrks : s.trks = [k]) (hla : k.la = laOf la.toNat) (hinv : k.kind = .inv)
    (hawaits : k.awaited.any (fun a => a.1 == s.rd FPORT_CXL_AID port.val) = true)
    (hmore : k.awaited.any (fun a => a.1 != s.rd FPORT_CXL_AID port.val) = true) (howed : s.owed = [])
    (hopen : s.isOpen k.la = true) :
    Completes (.cxlBirsp port la) s fun t => (t.port port.val).cxlBi = [] ∧
    t.trks = [{ k with awaited := k.awaited.filter (fun a => a.1 != s.rd FPORT_CXL_AID port.val), before := k.before.bind (fun e => e.leave (s.rd FPORT_CXL_AID port.val)) }] ∧
    t.reqs = s.reqs ∧ t.core = s.core := by
  refine ⟨_, exec_cxlBirsp_of_asked hacts hup hcxl hbi rfl, ?_⟩
  have hb := birspState s port
  dsimp only
  generalize (s.setPort port.val { s.port port.val with cxlBi := [] }).use [pgHOME] = u at hb ⊢
  obtain ⟨hutrks, huowed, huopen, hureqs, huagents, -, -⟩ := State.parts_of_body hb.body
  rw [hb.aid, State.homeAnswer_of_awaited (hutrks.trans htrks) hla hawaits (huowed.trans howed)
      ((State.live_congr huagents _).trans hlive),
    State.takeAnswer_of_empty (s := u.count 0 k.tid k.job 0) (hutrks.trans htrks) hinv hmore, State.settleEnd_of_open]
  · exact ⟨hb.held, rfl, hureqs, hb.core⟩
  · rw [← hla, ← hopen]
    exact State.isOpen_congr huopen _

theorem cxlLink_birsp_stray (s : State) (port : Fin 16) (la : BitVec 46) (b : Nat × Option (BitVec 512 × Bool))
    (hacts : s.acts (pgFPORT port.val) = true) (hup : (s.port port.val).isUp = true) (hcxl : (s.port port.val).isCxl = true)
    (hbi : (s.port port.val).cxlBi = [b]) (hla : b.1 = laOf la.toNat) (htrks : s.trks = []) (howed : s.owed = [])
    (hopen : s.isOpen (laOf la.toNat) = true) :
    Completes (.cxlBirsp port la) s fun t => (t.port port.val).cxlBi = [] ∧
    t.rd HOME_STRAY_ACK = min (2 ^ HOME_STRAY_ACK.width - 1) (s.rd HOME_STRAY_ACK + 1) ∧ t.dir = s.dir ∧ t.core = s.core := by
  refine ⟨_, exec_cxlBirsp_of_asked hacts hup hcxl hbi hla, ?_⟩
  have hb := birspState s port
  dsimp only
  generalize (s.setPort port.val { s.port port.val with cxlBi := [] }).use [pgHOME] = u at hb ⊢
  obtain ⟨hutrks, huowed, huopen, -, -, -, hudir⟩ := State.parts_of_body hb.body
  rw [State.homeAnswer_of_stray (hutrks.trans htrks) (huowed.trans howed)]
  obtain ⟨v, hv⟩ : ∃ v, v = (((u.count 0 0 0 0).bump HOME_STRAY_ACK).raise pgHOME I_HOME_STRAY).crumb pgHOME 0x202 1
      [laOf la.toNat % 2 ^ 32, laOf la.toNat / 2 ^ 32, u.rd FPORT_CXL_AID port.val] := ⟨_, rfl⟩
  have hbody : v.body = u.body := by rw [hv, State.body_crumb, State.body_raise, State.body_bump, State.body_count]
  have hlinks : v.links = u.links := by rw [hv, State.links_crumb, State.links_raise, State.links_bump]; rfl
  have hcore : v.core = u.core := by rw [hv]; simp
  have hstray : v.rd HOME_STRAY_ACK = min (2 ^ HOME_STRAY_ACK.width - 1) (s.rd HOME_STRAY_ACK + 1) := by
    rw [hv, State.rd_crumb_ne _ _ _ _ _ (by decide), State.rd_raise_ne _ _ _ (by decide), State.rd_bump_same, ← hb.stray]
    rfl
  obtain ⟨-, -, hvopen, -, -, -, hvdir⟩ := State.parts_of_body hbody
  rw [← hv, State.settleEnd_of_open (by rw [← hopen]; exact State.isOpen_congr (hvopen.trans huopen) _)]
  refine ⟨?_, hstray, hvdir.trans hudir, hcore.trans hb.core⟩
  have hkept : (v.port port.val).cxlBi = (u.port port.val).cxlBi := (congrArg Port.cxlBi (congrFun hlinks port.val) :)
  rw [hkept, hb.held]

/-- What stands when a CXL link falls without an agent to declare lost. -/
theorem cxlLink_linkDown (s : State) (port : Fin 16) (ide : Bool) (hacts : s.acts (pgFPORT port.val) = true)
    (hcxl : (s.port port.val).isCxl = true) (halive : (s.port port.val).alive = true) (hmod : (s.port port.val).module = none)
    (hdead : s.live (s.rd FPORT_CXL_AID port.val) = false) :
    Completes (.cxlLinkDown ⟨port, ide⟩) s fun t => (t.port port.val).train = .down ∧
    t.rd FPORT_DOWN_REASON port.val = (if ide then drAuth else drTimeout) ∧ t.core = s.core := by
  have hfailLinks : (s.ideFailure port.val).links = s.links := by rw [State.ideFailure, State.links_raise, State.links_bump]
  have hfailBody : (s.ideFailure port.val).body = s.body := by rw [State.ideFailure, State.body_raise, State.body_bump]
  have hfailAid : (s.ideFailure port.val).rd FPORT_CXL_AID port.val = s.rd FPORT_CXL_AID port.val := by
    rw [State.ideFailure, State.rd_raise_ne _ _ _ (keyOf_ne_of_offset _ _ (by decide)),
      State.rd_bump_ne _ (keyOf_ne_of_offset _ _ (by decide))]
  have hfailMode : ((s.ideFailure port.val).port port.val).mode = (s.port port.val).mode :=
    (congrArg Port.mode (congrFun hfailLinks port.val) :)
  have hquiet : s.fallsQuietly port.val = true := by simp [State.fallsQuietly, hcxl, hdead]
  have hfailQuiet : (s.ideFailure port.val).fallsQuietly port.val = true := by
    have hcxl' : ((s.ideFailure port.val).port port.val).isCxl = true := by
      unfold Port.isCxl at hcxl ⊢
      rw [hfailMode, hcxl]
    simp [State.fallsQuietly, hcxl', hfailAid, State.live_of_body hfailBody, hdead]
  refine ⟨if ide then (s.ideFailure port.val).fall port.val drAuth false else s.fall port.val drTimeout false,
    (State.onBlk_acts _ hacts).trans (if_pos (by simp [hcxl, halive])), ?_⟩
  cases ide
  · obtain ⟨-, hdown, hreason⟩ := State.fall_of_no_module hquiet hmod drTimeout false
    exact ⟨hdown, hreason, State.core_fall ..⟩
  · obtain ⟨-, hdown, hreason⟩ := State.fall_of_no_module hfailQuiet
      ((State.module_of_links hfailLinks port.val).trans hmod) drAuth false
    exact ⟨hdown, hreason, (State.core_fall ..).trans (by simp)⟩

theorem cxlLink_mailbox (s : State) (port : Fin 16) (opcode : BitVec 16) (hacts : s.acts (pgFPORT port.val) = true)
    (hup : (s.port port.val).isUp = true) (hcxl : (s.port port.val).isCxl = true) :
    Completes (.cxlMailboxCommand port opcode) s fun t =>
    t.outs = s.outs ++ [.cxlMbx port.val opcode.toNat (if cxlMbxSupported.contains opcode.toNat then 0 else 3) ((s.port port.val).cxlMbxData opcode.toNat), .msix port.val 1] ∧
    t.body = s.body ∧ t.regs = s.regs := by
  obtain ⟨u, hu, houts, hbody, hregs⟩ : ∃ u, u = (if opcode.toNat = 0x0101 then
      s.setPort port.val { s.port port.val with cxlEvents := [] } else s) ∧ u.outs = s.outs ∧ u.body = s.body ∧ u.regs = s.regs := by
    refine ⟨_, rfl, ?_⟩
    split <;> exact ⟨rfl, rfl, rfl⟩
  refine ⟨_, (State.onBlk_acts _ hacts).trans (if_neg (by simp [hup, hcxl])), ?_⟩
  dsimp only
  rw [← hu]
  refine ⟨?_, hbody, hregs⟩
  rw [State.outs_out, State.outs_out, houts, List.append_assoc]
  rfl

/-- An access to BAR0 that MMIO_ACCESS denies. -/
theorem exec_cxlIoAccess_denied {s : State} {port : Fin 16} (hrails : s.tmc.nodeRails = true) (hup : (s.port port.val).isUp = true)
    (hcxl : (s.port port.val).isCxl = true) (write : Bool) (addr : BitVec 24) (dws : List (BitVec 4 × Word))
    (hdeny : (decide (s.rd FPORT_MMIO_ACCESS port.val = 0) || (write && decide (s.rd FPORT_MMIO_ACCESS port.val ≠ 2))) = true) :
    exec (.cxlIoAccess port write (.bar0 addr) dws) s = .next (if write then s.bump FPORT_MMIO_DENY port.val
      else (s.bump FPORT_MMIO_DENY port.val).out (.cxlIo port.val 4 0)) :=
  (if_neg (by simp [hup, hcxl, hrails])).trans (if_pos hdeny)

/-- An access of one word to BAR0 that MMIO_ACCESS allows. -/
theorem exec_cxlIoAccess_allowed {s : State} {port : Fin 16} (hrails : s.tmc.nodeRails = true) (hup : (s.port port.val).isUp = true)
    (hcxl : (s.port port.val).isCxl = true) (write : Bool) (addr : BitVec 24) (val : Word)
    (hallow : (decide (s.rd FPORT_MMIO_ACCESS port.val = 0) || (write && decide (s.rd FPORT_MMIO_ACCESS port.val ≠ 2))) = false) :
    exec (.cxlIoAccess port write (.bar0 addr) [(15, val)]) s = .next (s.ioAccess port.val write addr.toNat (15, val)) :=
  (if_neg (by simp [hup, hcxl, hrails])).trans (if_neg (by rw [hallow]; exact Bool.false_ne_true))

theorem exec_cxlIoAccess_hdm {s : State} {port : Fin 16} (hrails : s.tmc.nodeRails = true) (hup : (s.port port.val).isUp = true)
    (hcxl : (s.port port.val).isCxl = true) (n : Fin 4) (dws : List (BitVec 4 × Word)) :
    exec (.cxlIoAccess port false (.hdm n) dws) s =
      .next ([(((s.port port.val).hdm[n.val]?).getD (0, 0, 0)).1, (((s.port port.val).hdm[n.val]?).getD (0, 0, 0)).2.1,
        (((s.port port.val).hdm[n.val]?).getD (0, 0, 0)).2.2].foldl (fun s v => s.out (.cxlIo port.val 0 (BitVec.ofNat 32 v))) s) :=
  if_neg (by simp [hup, hcxl, hrails])

theorem exec_cxlIoAccess_commit {s : State} {port : Fin 16} (hrails : s.tmc.nodeRails = true) (hup : (s.port port.val).isUp = true)
    (hcxl : (s.port port.val).isCxl = true) (n : Fin 4) (ways gran : Word) :
    exec (.cxlIoAccess port true (.hdm n) [(15, ways), (15, gran)]) s =
      .next (s.setPort port.val { s.port port.val with
        hdm := setNth (s.port port.val).hdm n.val (if hdmTakes ways.toNat gran.toNat then 1 else 2, ways.toNat, gran.toNat) }) :=
  if_neg (by simp [hup, hcxl, hrails])

theorem exec_cxlMemRequest_of_up {s : State} {port : Fin 16} {r : CxlReq} (hacts : s.acts (pgFPORT port.val) = true)
    (hup : (s.port port.val).isUp = true) (hcxl : (s.port port.val).isCxl = true) {t : State}
    (ht : r.op = .unsupported ∧ t = s.bump FPORT_UNSUP port.val ∨
      r.op = .cacheMsg ∧ t = (s.setPort port.val { s.port port.val with cxlRas := true }).bump FPORT_UNSUP port.val ∨
      r.op = .memSpecRd ∧ t = s) : exec (.cxlMemRequest port r) s = .next t := by
  refine (State.onBlk_acts _ hacts).trans ((if_neg (by simp [hup, hcxl])).trans ?_)
  obtain ⟨hop, rfl⟩ | ⟨hop, rfl⟩ | ⟨hop, rfl⟩ := ht <;> rw [hop]

end Sys2Proof.Machine

open Sys2Proof.Machine Sys2Proof.Machine.Reg

/-- Settles O9: requests of the host, its answers to back-invalidates, the link's fall, its mailbox and its CXL.io accesses. -/
theorem cxlLink : Obligations.CxlLink := by
  refine ⟨fun s port r hacts hup hcxl hop => ⟨_, exec_cxlMemRequest_of_up hacts hup hcxl (Or.inl ⟨hop, rfl⟩), ?_⟩,
    fun s port r hacts hup hcxl hop => ⟨_, exec_cxlMemRequest_of_up hacts hup hcxl (Or.inr (Or.inl ⟨hop, rfl⟩)), ?_⟩,
    fun s port r hacts hup hcxl hop => ⟨_, exec_cxlMemRequest_of_up hacts hup hcxl (Or.inr (Or.inr ⟨hop, rfl⟩)), rfl⟩,
    cxlLink_held, cxlLink_arrives, cxlLink_birsp,
    fun s port la b hacts hup hcxl hbi hla _ => cxlLink_birsp_stray s port la b hacts hup hcxl hbi hla, cxlLink_linkDown, cxlLink_mailbox,
    fun s port addr dws hrails hup hcxl hright => ⟨_, exec_cxlIoAccess_denied hrails hup hcxl false addr dws (by simp [hright]), ?_⟩,
    fun s port addr dws hrails hup hcxl hright => ⟨_, exec_cxlIoAccess_denied hrails hup hcxl true addr dws (by simp [hright]), ?_⟩,
    fun s port addr val hrails hup hcxl hright => ⟨_, exec_cxlIoAccess_allowed hrails hup hcxl false addr val (by simp [hright]), ?_⟩,
    fun s port addr val hrails hup hcxl hright => ⟨_, exec_cxlIoAccess_allowed hrails hup hcxl true addr val (by simp [hright]), ?_⟩,
    fun s port n ways gran hrails hup hcxl => ⟨_, exec_cxlIoAccess_commit hrails hup hcxl n ways gran, ?_⟩,
    fun s port n dws d hrails hup hcxl hd => ⟨_, exec_cxlIoAccess_hdm hrails hup hcxl n dws, ?_⟩⟩
  · exact ⟨State.rd_bump_same .., State.bump_ports .., State.body_bump ..⟩
  · beta_reduce
    rw [State.port_of_ports (State.bump_ports ..), State.port_setPort_same, State.rd_bump_same, State.rd_setPort, State.body_bump,
      State.body_setPort]
    exact ⟨rfl, rfl, rfl⟩
  · beta_reduce
    rw [if_neg Bool.false_ne_true, State.outs_out, State.bump_outs, State.body_out, State.body_bump]
    exact ⟨State.rd_bump_same s FPORT_MMIO_DENY port.val 0, rfl, rfl⟩
  · exact ⟨State.rd_bump_same .., State.bump_outs .., State.body_bump ..⟩
  · rfl
  · rfl
  · beta_reduce
    rw [State.port_setPort_same]
    exact ⟨rfl, rfl, rfl⟩
  · beta_reduce
    rw [hd]
    simp [State.out]
end

section
/-! A data answer that nothing awaits, at a line that no transaction has open and whose owner is not Live (R141, R143): with the answer
the home also applies the sweep to the line, which poisons it, so that a queue entry appears. -/
namespace Sys2Proof.Machine

open Reg Sys2Proof.Tests

/-- The state that an instruction leads to. -/
def State.after (s : State) (i : Instr) : State :=
  match exec i s with
  | .next t => t
  | _ => s

theorem State.after_of_next {s t : State} {i : Instr} (h : exec i s = .next t) : s.after i = t := by
  rw [State.after, h]

/-- The directory holds line 16 as modified by agent 9, which is not Live. -/
def deadOwner : State :=
  { W.open_ with
    dir := [{ la := 16, way := 0, modif := true, coarse := false, region := 0, age := 0, ptrs := [(9, 0)], gvec := 0, shadow := false }] }

/-- The entries that wait at the queue of line 16. -/
def State.waitingAt16 (s : State) : Nat := (s.queue (hashLine 16).1).waiting.length

theorem State.waitingAt16_congr {s t : State} (h : t.queues = s.queues) : t.waitingAt16 = s.waitingAt16 := by
  unfold State.waitingAt16 State.queue
  rw [h]

/-- A stray answer at line 16 leaves an entry in the line's queue, where none stood. -/
theorem waitingAt16_snpAckD_deadOwner :
    (deadOwner.after (.snpAckD 0 (W.answer 0x43 16 4))).waitingAt16 = 1 ∧ deadOwner.waitingAt16 = 0 := by
  exact ⟨by decide +kernel, by decide +kernel⟩

end Sys2Proof.Machine

open Sys2Proof.Machine Sys2Proof.Tests

/-- Refutes O11: the home poisons the line of a stray answer whose owner is not Live, and the poisoning waits in a queue. -/
theorem not_answersAndSystem : ¬ Obligations.AnswersAndSystem := by
  rintro ⟨-, -, -, hstray, -⟩
  obtain ⟨t, ht, -, -, hqueues⟩ := hstray deadOwner 0 (W.answer 0x43 16 4) (by decide +kernel) (by decide +kernel) (by decide)
    (by decide +kernel) rfl rfl
  obtain ⟨hone, hzero⟩ := waitingAt16_snpAckD_deadOwner
  rw [State.after_of_next ht, State.waitingAt16_congr hqueues, hzero] at hone
  exact absurd hone (by decide)
end

section
/-! Admission, buckets, load and limits (O12). -/
namespace Sys2Proof.Machine

open Reg

/-! ### What the judgement of the waiting tenants leaves -/

/-- A state but for SHAPE's record of who is eligible and of the tags. -/
def State.judged (s : State) (e : List Nat) (tags : Tab Nat) : State := { s with shape := { s.shape with eligible := e, tags := tags } }

theorem State.setTags_eq (t : State → Nat → Nat) (l : List Nat) (s : State) :
    ∃ tags, l.foldl (fun s x => s.setTag x (t s x)) s = s.judged s.shape.eligible tags := by
  induction l generalizing s with
  | nil => exact ⟨s.shape.tags, rfl⟩
  | cons x l ih =>
    obtain ⟨tags, htags⟩ := ih (s.setTag x (t s x))
    exact ⟨tags, by rw [List.foldl_cons, htags]; rfl⟩

theorem State.reEval_eq (s : State) : ∃ e tags, s.reEval = s.judged e tags := by
  obtain ⟨tags, htags⟩ := State.setTags_eq (fun s t => tagMax (s.tag t) s.shape.vtime)
    ((s.waitingTids.filter (fun t => !(s.heads t).isEmpty)).filter (fun t => !s.shape.eligible.contains t)) s
  refine ⟨s.waitingTids.filter (fun t => !(s.heads t).isEmpty), tags, ?_⟩
  unfold State.reEval
  dsimp only
  rw [htags]
  rfl

/-- SHAPE's count of the slots used. -/
def State.usedSlots (s : State) : Nat := s.shape.fcSlots

theorem State.usedSlots_of_body {s t : State} (h : t.body = s.body) : t.usedSlots = s.usedSlots :=
  have part : t.body.usedSlots = s.body.usedSlots := congrArg State.usedSlots h
  part

theorem State.usedSlots_judgePanic (s : State) : s.judgePanic.usedSlots = s.usedSlots := by
  have hpanic (u : State) (b : Bool) : State.usedSlots { u with shape := { u.shape with panic := b } } = u.usedSlots := rfl
  have hsample : (s.sample pgSHAPE 2 s.rtWaiting).usedSlots = s.usedSlots := State.usedSlots_of_body (State.body_sample _ _ _ _)
  unfold State.judgePanic
  dsimp only
  split
  · rw [hpanic, hsample]
  split
  · rw [State.usedSlots_of_body (State.body_raise _ _ _), State.usedSlots_of_body (State.body_bump _ _ _ _), hpanic, hsample]
  split
  · rw [hpanic, hsample]
  · exact hsample

theorem State.usedSlots_reEval (s : State) : s.reEval.usedSlots = s.usedSlots := by
  obtain ⟨e, tags, h⟩ := s.reEval_eq
  rw [h]
  rfl

/-- What follows the filling of a slot. -/
def State.settleSlot (s : State) : State := s.judgePanic.reEval

theorem State.requests_settleSlot (s : State) : s.settleSlot.requests = s.requests := by
  rw [State.settleSlot, State.requests_reEval, State.requests_judgePanic]

theorem State.usedSlots_settleSlot (s : State) : s.settleSlot.usedSlots = s.usedSlots := by
  rw [State.settleSlot, State.usedSlots_reEval, State.usedSlots_judgePanic]

/-! ### One request admitted -/

theorem State.frame_sampleOut (s : State) (r : Req) : (s.sampleOut r).requests = s.requests ∧ (s.sampleOut r).usedSlots = s.usedSlots := by
  have h : (s.sampleOut r).body = s.body := by
    unfold State.sampleOut
    dsimp only
    split
    · exact State.body_sample ..
    · rw [State.body_sample, State.body_sample]
  exact ⟨State.requests_of_body h, State.usedSlots_of_body h⟩

theorem State.frame_charge (s : State) (t len : Nat) :
    (s.charge t len).reqs = s.reqs ∧ (s.charge t len).usedSlots = s.usedSlots ∧ (s.charge t len).openEpoch = s.openEpoch := by
  unfold State.charge
  dsimp only
  split <;> split <;> exact ⟨rfl, rfl, rfl⟩

theorem State.frame_countSlots (s : State) (r : Req) (job : Nat) :
    (s.countSlots r job).reqs = s.reqs ∧ (s.countSlots r job).usedSlots = s.usedSlots := by
  unfold State.countSlots
  split <;> exact ⟨rfl, rfl⟩

/-- The requests and the slots used. -/
def State.admission (s : State) : List Req × Nat := (s.reqs, s.usedSlots)

theorem State.admission_of_body {s t : State} (h : t.body = s.body) : t.admission = s.admission :=
  Prod.ext (congrArg Prod.fst (State.requests_of_body h) :) (State.usedSlots_of_body h)

theorem State.admission_counted (s : State) (r : Req) (member : Bool) :
    (if member then (((s.bump SHAPE_ADMITTED).bump SHAPE_T_ADMITS 0 r.tid).sampleOut r).bump SHAPE_BATCHED
      else ((s.bump SHAPE_ADMITTED).bump SHAPE_T_ADMITS 0 r.tid).sampleOut r).admission = s.admission := by
  refine State.admission_of_body ?_
  have hout (u : State) : (u.sampleOut r).body = u.body := by
    unfold State.sampleOut
    dsimp only
    split
    · exact State.body_sample ..
    · rw [State.body_sample, State.body_sample]
  split
  · rw [State.body_bump, hout, State.body_bump, State.body_bump]
  · rw [hout, State.body_bump, State.body_bump]

theorem State.reqs_beginClose (s : State) (c : Bool) (tid job rid adm : Nat) :
    (if c then s.beginClose tid job rid adm else s).reqs = s.reqs := by
  split <;> rfl

theorem State.usedSlots_beginClose (s : State) (c : Bool) (tid job rid adm : Nat) :
    (if c then s.beginClose tid job rid adm else s).usedSlots = s.usedSlots := by
  split <;> rfl

/-- One slot taken in SHAPE's record. -/
theorem State.admission_slotTaken (s : State) (used : Nat) (ports : Tab Nat) (batch : List Nat) (top : Option Nat) :
    State.admission { s with shape := { s.shape with
      fcSlots := s.shape.fcSlots + 1, tickUsed := used, fcPorts := ports, batch := batch, fcTop := top } } =
      (s.reqs, s.usedSlots + 1) := rfl

/-- The state in which an admitted request is stamped: its tenant charged. -/
def State.charged (s : State) (r : Req) : State :=
  (({ s with nextOrder := s.nextOrder + 1 } : State).charge r.tid (s.length r)).advanceTag r.tid (s.length r)

theorem State.admission_charged (s : State) (r : Req) : (s.charged r).admission = s.admission := by
  obtain ⟨hreqs, hslots, -⟩ := ({ s with nextOrder := s.nextOrder + 1 } : State).frame_charge r.tid (s.length r)
  exact Prod.ext hreqs hslots

/-- The stamps of a request that is admitted. -/
def State.stamp (s : State) (r x : Req) : Req :=
  { x with
    place := x.first, epoch := s.openEpoch,
    job := if r.intern || r.op == .jobOpen || r.op == .jobClose then r.job else s.openJob r.tid r.job,
    admInc := if (s.agent r.aid).state == agLive && (s.agent r.aid).inc % 8 == r.incLo then some (s.agent r.aid).inc else none,
    adm := s.nextOrder + 1 }

/-- The admission of a request stamps it, and uses a slot. -/
theorem State.admission_admitReq (s : State) (r : Req) (member : Bool) :
    (s.admitReq r member).admission = (updFirst (fun x => x.id == r.id) (s.stamp r) s.reqs, s.usedSlots + 1) := by
  obtain ⟨hreqs, hslots⟩ := Prod.mk.inj (s.admission_charged r)
  obtain ⟨hcreqs, hcslots⟩ := (s.charged r).frame_countSlots r (s.openJob r.tid r.job)
  unfold State.admitReq
  dsimp only
  rw [State.admission_counted, State.admission_slotTaken, State.reqs_beginClose, State.usedSlots_beginClose]
  have hstamped (u : State) (f : Req → Req) : (u.updReq r.id f).usedSlots = u.usedSlots := rfl
  rw [hstamped]
  refine Prod.ext ?_ ?_
  · show updFirst _ (s.stamp r) ((s.charged r).countSlots r (s.openJob r.tid r.job)).reqs = _
    rw [hcreqs, hreqs]
  · show ((s.charged r).countSlots r (s.openJob r.tid r.job)).usedSlots + 1 = _
    rw [hcslots, hslots]

/-! ### The slot filled -/

theorem find?_updFirst (p : Req → Bool) (f : Req → Req) (hf : ∀ x, p (f x) = p x) (l : List Req) :
    (updFirst p f l).find? p = (l.find? p).map f := by
  induction l with
  | nil => rfl
  | cons x l ih =>
    unfold updFirst
    cases hp : p x
    · rw [if_neg Bool.false_ne_true, List.find?_cons_of_neg (by simp [hp]), List.find?_cons_of_neg (by simp [hp]), ih]
    · rw [if_pos rfl, List.find?_cons_of_pos (by rw [hf, hp]), List.find?_cons_of_pos hp]
      rfl

theorem State.cxlPumps_of_none {s : State} (l : List Nat) (h : ∀ p ∈ l, (s.port p).isCxl = false) :
    l.foldl (fun s p => if (s.port p).isCxl then s.cxlPump p else s) s = s := by
  induction l with
  | nil => rfl
  | cons p l ih =>
    rw [List.foldl_cons, if_neg (by simp [h p List.mem_cons_self])]
    exact ih fun q hq => h q (List.mem_cons_of_mem _ hq)

theorem exec_requestAdmit_of_no_cxl {s : State} (hacts : s.acts pgSHAPE = true)
    (hcxl : (List.range 16).all (fun p => !(s.port p).isCxl) = true) :
    exec (.requestAdmit false) s = .next s.reEval.fillSlot.settleSlot := by
  refine (State.onBlk_acts _ hacts).trans ?_
  rw [if_neg Bool.false_ne_true, State.cxlPumps_of_none _ fun p hp => by simpa using List.all_eq_true.mp hcxl p hp]
  rfl

theorem core_of_exec {c : Instr} {s t : State} (hc : c.touchesCore = false) (h : exec c s = .next t) : t.core = s.core :=
  exec_keepsCore c s hc t h

theorem State.launch_of_request {s : State} {r : Req} (h : r.intern = false) : s.launch r = s := if_neg (by simp [h])

theorem State.fillSlot_of_bypass {s : State} {r : Req} (hfree : s.usedSlots < s.fcLimit) (hnext : s.nextBypass = some r)
    (hreq : r.intern = false) : s.fillSlot = s.admitReq r false := by
  unfold State.fillSlot
  rw [if_neg (by simpa [State.usedSlots] using hfree), hnext]
  exact State.launch_of_request hreq

theorem admission_bypass (s : State) (r : Req) (hacts : s.acts pgSHAPE = true)
    (hcxl : (List.range 16).all (fun p => !(s.port p).isCxl) = true) (hfree : s.shape.fcSlots < s.fcLimit)
    (hnext : s.nextBypass = some r) (hr : s.req r.id = some r) (hreq : r.intern = false) :
    Completes (.requestAdmit false) s fun t => (t.req r.id).map (fun x => (x.place, x.epoch)) = some (.resolving, s.openEpoch) ∧
    t.shape.fcSlots = s.shape.fcSlots + 1 ∧ t.core = s.core := by
  obtain ⟨e, tags, hu⟩ := s.reEval_eq
  have hexec := exec_requestAdmit_of_no_cxl hacts hcxl
  have hfill : (s.judged e tags).fillSlot = (s.judged e tags).admitReq r false := State.fillSlot_of_bypass hfree hnext hreq
  have hadm := (s.judged e tags).admission_admitReq r false
  rw [hu, hfill] at hexec
  have hcore := core_of_exec rfl hexec
  refine ⟨_, hexec, ?_⟩
  beta_reduce
  have hreqs : ((s.judged e tags).admitReq r false).settleSlot.reqs =
      updFirst (fun x => x.id == r.id) ((s.judged e tags).stamp r) s.reqs :=
    (congrArg Prod.fst (State.requests_settleSlot _) :).trans (congrArg Prod.fst hadm :)
  have hslots : ((s.judged e tags).admitReq r false).settleSlot.usedSlots = s.usedSlots + 1 :=
    (State.usedSlots_settleSlot _).trans (congrArg Prod.snd hadm :)
  generalize ((s.judged e tags).admitReq r false).settleSlot = t at hreqs hslots hcore ⊢
  refine ⟨?_, hslots, hcore⟩
  unfold State.req at hr ⊢
  rw [hreqs, find?_updFirst _ _ (fun x => by rfl), hr]
  show some (r.first, s.openEpoch) = _
  rw [Req.first, hreq]
  rfl

/-! ### One request waiting alone -/

/-- In a state with one request, which waits at a queue of its port and may be admitted, it is the head of its tenant. -/
theorem State.admQueue_of_one {s : State} {r : Req} (hreqs : s.reqs = [r]) (hplace : r.place = .queued) (t q : Nat) :
    s.admQueue t q = if r.tid = t ∧ r.queueNo = q then [r] else [] := by
  unfold State.admQueue
  rw [hreqs, List.filter_cons, List.filter_nil]
  by_cases h : r.tid = t ∧ r.queueNo = q
  · simp [h.1, h.2, hplace]
  · rw [if_neg (by simpa [hplace] using h), if_neg h]

theorem State.waitingTids_of_one {s : State} {r : Req} (hreqs : s.reqs = [r]) (hplace : r.place = .queued) :
    s.waitingTids = [r.tid] := by
  unfold State.waitingTids
  rw [hreqs]
  simp [hplace]

theorem State.heads_of_one {s : State} {r : Req} (hreqs : s.reqs = [r]) (hplace : r.place = .queued) (hqueue : r.queueNo < 17)
    (hmay : s.mayAdmit r = true) : (s.heads r.tid).any s.slotLeft = s.slotLeft r := by
  have hmem : ∀ x, x ∈ s.heads r.tid ↔ x = r := by
    intro x
    unfold State.heads
    simp only [List.mem_filterMap, List.mem_range, State.admQueue_of_one hreqs hplace, true_and]
    constructor
    · rintro ⟨q, -, hx⟩
      split at hx
      · obtain ⟨hx, -⟩ := Option.filter_eq_some_iff.mp hx
        exact (Option.some.inj hx).symm
      · simp at hx
    · rintro rfl
      exact ⟨_, hqueue, by simp [hmay]⟩
  cases hslot : s.slotLeft r
  · rw [List.any_eq_false]
    intro x hx
    rw [(hmem x).mp hx, hslot]
    exact Bool.false_ne_true
  · exact List.any_eq_true.mpr ⟨r, (hmem r).mpr rfl, hslot⟩

theorem State.nextBypass_of_one {s : State} {r : Req} (hreqs : s.reqs = [r]) (hplace : r.place = .queued) : s.nextBypass = none := by
  unfold State.nextBypass
  rw [hreqs]
  simp [hplace, minBy]

theorem State.nextTid_of_one {s : State} {r : Req} (hreqs : s.reqs = [r]) (hplace : r.place = .queued) (hqueue : r.queueNo < 17)
    (hmay : s.mayAdmit r = true) (hslot : s.slotLeft r = true) :
    (s.nextTid true).orElse (fun _ => s.nextTid false) = some r.tid := by
  have hany := State.heads_of_one hreqs hplace hqueue hmay
  rw [hslot] at hany
  unfold State.nextTid
  rw [State.waitingTids_of_one hreqs hplace]
  cases hc : s.committed r.tid <;> simp [hc, hany]

theorem State.nextHead_of_one {s : State} {r : Req} (hreqs : s.reqs = [r]) (hplace : r.place = .queued) (hqueue : r.queueNo < 17)
    (hmay : s.mayAdmit r = true) (hslot : s.slotLeft r = true) : s.nextHead r.tid = some r := by
  have hround : ∃ q ∈ (List.range 17).map (fun i => (Tab.get s.shape.rr r.tid 0 + i) % 17), q = r.queueNo := by
    refine ⟨r.queueNo, List.mem_map.mpr ⟨(r.queueNo + 17 - Tab.get s.shape.rr r.tid 0 % 17) % 17, ?_, ?_⟩, rfl⟩
    · rw [List.mem_range]
      omega
    · omega
  unfold State.nextHead
  dsimp only
  generalize (List.range 17).map (fun i => (Tab.get s.shape.rr r.tid 0 + i) % 17) = l at hround
  induction l with
  | nil => simp at hround
  | cons q l ih =>
    rw [List.findSome?_cons, State.admQueue_of_one hreqs hplace]
    by_cases hq : r.queueNo = q
    · rw [if_pos ⟨rfl, hq⟩, List.head?_cons, Option.filter_some, if_pos (by simp [hmay, hslot])]
    · obtain ⟨q', hmem, rfl⟩ := hround
      rw [if_neg (fun h => hq h.2)]
      exact ih ⟨_, (List.mem_cons.mp hmem).resolve_left hq, rfl⟩

/-- The batch of a request that waits alone has no member. -/
theorem State.formBatch_of_one {s : State} {r : Req} (hreqs : s.reqs = [r]) (hplace : r.place = .queued) :
    ∃ batch, s.formBatch r = { s with shape := { s.shape with batch := batch } } := by
  unfold State.formBatch
  split
  · exact ⟨s.shape.batch, rfl⟩
  · next k _ =>
    have hq : ((s.admQueue r.tid r.queueNo).take (s.rd SHAPE_BATCH_DEPTH)).drop 1 = [] := by
      rw [State.admQueue_of_one hreqs hplace, if_pos ⟨rfl, rfl⟩]
      cases s.rd SHAPE_BATCH_DEPTH <;> simp
    dsimp only
    rw [hq]
    exact ⟨_, rfl⟩

/-- The one request that waits is admitted as the head of its tenant's next queue. -/
theorem State.admission_fillSlot_of_one {s : State} {r : Req} (hfree : s.usedSlots < s.fcLimit) (hreqs : s.reqs = [r])
    (hplace : r.place = .queued) (hintern : r.intern = false) (hport : r.port < 16) (hbatch : s.shape.batch = [])
    (hpanic : s.shape.panic = false) (hmay : s.mayAdmit r = true) (hslot : s.slotLeft r = true) :
    ∃ f : Req → Req, (∀ x, (f x).id = x.id ∧ (f x).place = x.first ∧ (f x).epoch = s.openEpoch) ∧
      s.fillSlot.admission = ([f r], s.usedSlots + 1) := by
  have hqueue : r.queueNo < 17 := by simp [Req.queueNo, hintern]; omega
  have hmember : s.nextMember = none := by simp [State.nextMember, hbatch]
  have hnextPanic : s.nextPanic = none := by simp [State.nextPanic, hpanic]
  obtain ⟨u, hu⟩ : ∃ u, u = ({ s with shape := { s.shape with rr := Tab.set s.shape.rr r.tid ((r.queueNo + 1) % 17) } } : State) := ⟨_, rfl⟩
  obtain ⟨batch, hform⟩ := State.formBatch_of_one (s := u) (by rw [hu]; exact hreqs) hplace
  have hfill : s.fillSlot = (({ u with shape := { u.shape with batch := batch } } : State).admitReq r false) := by
    unfold State.fillSlot
    rw [if_neg (by simpa [State.usedSlots] using hfree), State.nextBypass_of_one hreqs hplace, hmember, hnextPanic,
      State.nextTid_of_one hreqs hplace hqueue hmay hslot]
    dsimp only
    rw [State.nextHead_of_one hreqs hplace hqueue hmay hslot]
    dsimp only
    rw [← hu, State.launch_of_request hintern, State.admitHead, hform]
  have hone (f : Req → Req) : updFirst (fun x => x.id == r.id) f [r] = [f r] := by simp [updFirst]
  refine ⟨({ u with shape := { u.shape with batch := batch } } : State).stamp r, fun x => ⟨rfl, rfl, ?_⟩, ?_⟩
  · rw [hu]
    rfl
  · rw [hfill, State.admission_admitReq, hu]
    show (updFirst _ _ s.reqs, s.usedSlots + 1) = _
    rw [hreqs, hone]

theorem admission_alone (s : State) (r : Req) (hacts : s.acts pgSHAPE = true)
    (hcxl : (List.range 16).all (fun p => !(s.port p).isCxl) = true) (hfree : s.shape.fcSlots < s.fcLimit) (hreqs : s.reqs = [r])
    (hplace : r.place = .queued) (hintern : r.intern = false) (hport : r.port < 16) (hbatch : s.shape.batch = [])
    (hpanic : s.shape.panic = false) (hmay : s.mayAdmit r = true) (hslot : s.slotLeft r = true) :
    Completes (.requestAdmit false) s fun t =>
    t.reqs.map (fun x => (x.id, x.place, x.epoch)) = [(r.id, .resolving, s.openEpoch)] ∧ t.shape.fcSlots = s.shape.fcSlots + 1 ∧
    t.core = s.core := by
  obtain ⟨e, tags, hu⟩ := s.reEval_eq
  have hexec := exec_requestAdmit_of_no_cxl hacts hcxl
  obtain ⟨f, hf, hfill⟩ := State.admission_fillSlot_of_one (s := s.judged e tags) hfree hreqs hplace hintern hport hbatch hpanic hmay hslot
  rw [hu] at hexec
  have hcore := core_of_exec rfl hexec
  refine ⟨_, hexec, ?_⟩
  beta_reduce
  have hafter : (s.judged e tags).fillSlot.settleSlot.reqs = [f r] :=
    (congrArg Prod.fst (State.requests_settleSlot _) :).trans (congrArg Prod.fst hfill :)
  have hslots : (s.judged e tags).fillSlot.settleSlot.usedSlots = s.usedSlots + 1 :=
    (State.usedSlots_settleSlot _).trans (congrArg Prod.snd hfill :)
  generalize (s.judged e tags).fillSlot.settleSlot = t at hafter hslots hcore ⊢
  refine ⟨?_, hslots, hcore⟩
  obtain ⟨hid, hfirst, hepoch⟩ := hf r
  rw [hafter, List.map_singleton, hid, hfirst, hepoch, Req.first, hintern]
  rfl

/-! ### Refill, load and limits -/

/-- One tenant's buckets refilled. -/
def State.refillOne (s : State) (t : Nat) : State :=
  let c := refillTok (s.cTok t) (s.rd SHAPE_T_CIR 0 t) (s.rd SHAPE_T_CBS 0 t)
  let p := refillTok (s.pTok t) (s.rd SHAPE_T_PIR 0 t) (s.rd SHAPE_T_PBS 0 t)
  if s.mode t = 1 then { s with shape := { s.shape with ctok := Tab.set s.shape.ctok t c } }
  else if s.mode t = 2 then { s with shape := { s.shape with ctok := Tab.set s.shape.ctok t c, ptok := Tab.set s.shape.ptok t p } }
  else s

theorem State.tables_refillOne (s : State) (t : Nat) : (s.refillOne t).tables = s.tables := by
  unfold State.refillOne
  dsimp only
  split
  · rfl
  split <;> rfl

theorem State.cTok_refillOne_ne (s : State) {t n : Nat} (h : n ≠ t) : (s.refillOne t).cTok n = s.cTok n := by
  unfold State.refillOne State.cTok
  dsimp only
  split
  · exact Tab.get_set_ne _ _ _ h
  split
  · exact Tab.get_set_ne _ _ _ h
  · rfl

theorem State.cTok_refillOne_same {s : State} {n : Nat} (h : s.mode n = 1) :
    (s.refillOne n).cTok n = min (s.cTok n + s.rd SHAPE_T_CIR 0 n) (s.rd SHAPE_T_CBS 0 n) := by
  unfold State.refillOne
  dsimp only
  rw [if_pos h]
  exact Tab.get_set_same ..

theorem State.cTok_refillAll {n : Nat} (l : List Nat) (hl : l.Nodup) (s : State) (h : s.mode n = 1) :
    (l.foldl State.refillOne s).cTok n =
      if n ∈ l then min (s.cTok n + s.rd SHAPE_T_CIR 0 n) (s.rd SHAPE_T_CBS 0 n) else s.cTok n := by
  induction l generalizing s with
  | nil => rfl
  | cons t l ih =>
    obtain ⟨ht, hl⟩ := List.nodup_cons.mp hl
    have htables := s.tables_refillOne t
    have hmode : (s.refillOne t).mode n = 1 := by rw [State.mode, State.rd_of_tables htables]; exact h
    rw [List.foldl_cons, ih hl _ hmode, State.rd_of_tables htables, State.rd_of_tables htables]
    by_cases hn : n = t
    · subst hn
      rw [if_neg ht, if_pos List.mem_cons_self, State.cTok_refillOne_same h]
    · simp only [State.cTok_refillOne_ne s hn, List.mem_cons, hn, false_or]

theorem admission_refill (s : State) (n : BitVec 8) (hacts : s.acts pgSHAPE = true) (hmode : s.mode n.toNat = 1) :
    Completes (.bucketRefill) s fun t =>
    t.cTok n.toNat = min (s.cTok n.toNat + s.rd SHAPE_T_CIR 0 n.toNat) (s.rd SHAPE_T_CBS 0 n.toNat) ∧ t.reqs = s.reqs ∧
    t.regs = s.regs ∧ t.core = s.core := by
  have hexec : exec .bucketRefill s = .next s.refill.reEval := State.onBlk_acts _ hacts
  have hcore := core_of_exec rfl hexec
  obtain ⟨e, tags, hu⟩ := s.refill.reEval_eq
  have htok := State.cTok_refillAll (List.range 256) List.nodup_range s hmode
  have hreqs : ((List.range 256).foldl State.refillOne s).reqs = s.reqs := foldl_keeps State.reqs _ (fun u t => by
    unfold State.refillOne
    dsimp only
    split
    · rfl
    split <;> rfl) _ _
  have hregs : ((List.range 256).foldl State.refillOne s).regs = s.regs :=
    foldl_keeps State.regs _ (fun u t => (congrArg Prod.fst (u.tables_refillOne t) :)) _ _
  rw [if_pos (List.mem_range.mpr n.isLt)] at htok
  have hrefill : s.refill = (List.range 256).foldl State.refillOne s := rfl
  rw [hu, hrefill] at hexec hcore
  generalize (List.range 256).foldl State.refillOne s = u at hexec hcore htok hreqs hregs
  exact ⟨_, hexec, htok, hreqs, hregs, hcore⟩

theorem admission_load (s : State) (hacts : s.acts pgSHAPE = true) : Completes (.loadUpdate) s fun t =>
    t.shape.load = min 15 (max (16 * s.outNode / 32768) (max (16 * s.shape.tickUsed / (if s.shape.throttle then 16384 else 32768)) (if s.shape.throttle then 13 else 0))) ∧
    t.shape.tickUsed = 0 ∧ t.reqs = s.reqs ∧ t.core = s.core := by
  generalize hlevel : min 15 (max (16 * s.outNode / 32768) (max (16 * s.shape.tickUsed / (if s.shape.throttle then 16384 else 32768))
    (if s.shape.throttle then 13 else 0))) = level
  have hexec : exec .loadUpdate s =
      .next (({ s with shape := { s.shape with load := level, tickUsed := 0 } } : State).sample pgSHAPE 1 level) := by
    rw [← hlevel]
    exact State.onBlk_acts _ hacts
  have hcore := core_of_exec rfl hexec
  have hbody := State.body_sample ({ s with shape := { s.shape with load := level, tickUsed := 0 } } : State) pgSHAPE 1 level
  refine ⟨_, hexec, ?_⟩
  beta_reduce
  generalize State.sample _ _ _ _ = t at hbody hcore ⊢
  have hshape := congrArg State.shape hbody
  have hreqs := congrArg State.reqs hbody
  exact ⟨(congrArg Shape.load hshape :), (congrArg Shape.tickUsed hshape :), hreqs, hcore⟩

theorem State.limNow_setLim (s : State) (v : Nat) : (s.setLim v).shape.limNow = v := by
  unfold State.setLim
  dsimp only
  split
  · have hbody := State.body_raise ({ s with shape := { s.shape with limNow := v } } : State) pgSHAPE I_SHAPE_LIM_FLOOR
    generalize State.raise _ _ _ = t at hbody ⊢
    have hshape := congrArg State.shape hbody
    exact (congrArg Shape.limNow hshape :)
  · rfl

end Sys2Proof.Machine

open Sys2Proof.Machine Sys2Proof.Machine.Reg

/-- Settles O12: the slots by who is next, the buckets tenant by tenant, load and limits as they are written. -/
theorem admission : Obligations.Admission := by
  refine ⟨fun s r hacts hcxl hfree hnext hr hreq _ => admission_bypass s r hacts hcxl hfree hnext hr hreq, admission_alone,
    admission_refill, admission_load, fun s hacts hhi => ?_, fun s hacts hlo hle => ?_, fun s hacts hlo hhi => ?_⟩
  · have hexec : exec .agentLimitStep s = .next (s.setLim (max (s.rd SHAPE_AGENT_LIM_FLOOR) (s.shape.limNow / 2))) :=
      (State.onBlk_acts _ hacts).trans (if_pos hhi)
    exact ⟨_, hexec, State.limNow_setLim .., core_of_exec rfl hexec⟩
  · have hexec : exec .agentLimitStep s =
        .next (s.setLim (min (s.rd SHAPE_AGENT_LIM_CEIL) (s.shape.limNow + s.rd SHAPE_AGENT_LIM_STEP))) :=
      (State.onBlk_acts _ hacts).trans ((if_neg (by omega)).trans (if_pos hle))
    exact ⟨_, hexec, State.limNow_setLim .., core_of_exec rfl hexec⟩
  · exact ⟨_, (State.onBlk_acts _ hacts).trans ((if_neg (by omega)).trans (if_neg (by omega))), rfl⟩
end

/-! ## O13: the agent table and the sweep -/

section
namespace Sys2Proof.Machine
open Reg

theorem State.agent_setAgent_same (s : State) (aid : Nat) (a : Agent) : (s.setAgent aid a).agent aid = a := Tab.get_set_same ..

theorem State.agent_of_body {s t : State} (h : t.body = s.body) (aid : Nat) : t.agent aid = s.agent aid := by
  have hagents : t.body.agents = s.body.agents := congrArg State.agents h
  exact congrArg (fun l => Tab.get l aid _) hagents

theorem State.body_purgeTx (s : State) (aid : Nat) : (s.purgeTx aid).body = s.body := by
  refine foldl_keeps State.body _ (fun a p => ?_) _ _
  extract_lets gone
  split
  · rfl
  · exact (State.body_bumpBy ..).trans rfl

/-- A pass over the trackers finds none to answer where there is none. -/
theorem State.trackerPass_of_no_trks {s : State} (h : s.trks = []) (aid : Nat) :
    s.trackerPass aid = { s with owed := s.owed.filter (fun o => o.1 != aid) } := by
  have hslots : s.trks.map (·.slot) = [] := congrArg (List.map _) h
  unfold State.trackerPass
  rw [hslots]
  rfl

/-- The agent as its declaration leaves it (R155). -/
def declaredAs (a : Agent) (cause : Nat) : Agent := { a with state := agScanning, cause := cause }

theorem State.agent_declared {s : State} {aid cause : Nat} (hlive : (s.agent aid).state = agLive) (htrks : s.trks = []) :
    (s.declare aid cause).agent aid = declaredAs (s.agent aid) cause ∧
    (s.declare aid cause).scan =
      some { (s.scan.getD Scan.idle) with agents := (s.scan.getD Scan.idle).agents ++ [(aid, dirSets, 0, 0)] } := by
  unfold State.declare
  rw [if_pos hlive]
  extract_lets w s0 s1 s2 c
  have hs0 : s0.trks = s.trks ∧ s0.scan = s.scan := by
    unfold s0
    split <;> exact ⟨rfl, rfl⟩
  have hbody : s2.body = (s0.setAgent aid (declaredAs (s.agent aid) cause)).body :=
    (State.body_crumb ..).trans (State.body_purgeTx ..)
  clear_value s2 s1 s0
  have hscan : s2.scan = s.scan := ((congrArg State.scan hbody :)).trans hs0.2
  have hnone : (s2.joinSweep aid).trks = [] := ((congrArg State.trks hbody :)).trans (hs0.1.trans htrks)
  rw [State.trackerPass_of_no_trks hnone]
  refine ⟨(State.agent_of_body hbody aid).trans (State.agent_setAgent_same ..), ?_⟩
  unfold c
  rw [← hscan]
  rfl

theorem State.dir_readSet (s : State) (set tid job ep : Nat) (rid : Option Nat) : (s.readSet set tid job ep rid).dir = s.dir := by
  refine foldl_keeps State.dir _ (fun a i => ?_) _ _
  rfl

theorem State.dir_sweepSet (s : State) (set : Nat) (ags : List Nat) : (s.sweepSet set ags).dir = s.dir := by
  refine foldl_keeps State.dir _ (fun a e => ?_) _ _
  rfl

theorem State.dir_recallSet (s : State) (set : Nat) (rg : Option Nat) : (s.recallSet set rg).dir = s.dir := by
  cases rg with
  | none => rfl
  | some n =>
    refine foldl_keeps State.dir _ (fun a e => ?_) _ _
    rfl

theorem State.dir_imageSet (s : State) (set : Nat) (on : Bool) : (s.imageSet set on).dir = s.dir := by
  cases on with
  | false => rfl
  | true =>
    refine foldl_keeps State.dir _ (fun a e => ?_) _ _
    rfl

theorem completes_agentAdmit {s : State} (aid : BitVec 12) (inc : BitVec 16) (hacts : s.acts pgDIRC = true)
    (habsent : (s.agent aid.toNat).state = agAbsent) : Completes (.agentAdmit aid inc) s fun t =>
      t.agent aid.toNat = { state := agLive, inc := inc.toNat, fencedAt := 0 } ∧ t.regs = s.regs ∧ t.dir = s.dir ∧ t.core = s.core := by
  have hwrite : s.agentWrite aid.toNat agLive inc.toNat =
      s.setAgent aid.toNat { state := agLive, inc := inc.toNat % 65536, fencedAt := 0 } := by
    unfold State.agentWrite
    exact if_pos (by simp [habsent])
  refine ⟨_, (State.onBlk_acts _ hacts).trans (congrArg Host.Outcome.next hwrite), ?_⟩
  beta_reduce
  rw [State.agent_setAgent_same, Nat.mod_eq_of_lt inc.isLt]
  exact ⟨rfl, rfl, rfl, rfl⟩

theorem completes_agentNotice {s : State} (aid : BitVec 12) (inc : BitVec 16) (hacts : s.acts pgDIRC = true)
    (hlive : (s.agent aid.toNat).state = agLive) (hinc : (s.agent aid.toNat).inc = inc.toNat) (htrks : s.trks = []) :
    Completes (.agentNotice aid inc) s fun t => (t.agent aid.toNat).state = agScanning ∧
      t.scan = some { (s.scan.getD Scan.idle) with agents := (s.scan.getD Scan.idle).agents ++ [(aid.toNat, dirSets, 0, 0)] } ∧
      t.core = s.core := by
  have hwrite : s.agentWrite aid.toNat agFenced inc.toNat = s.declare aid.toNat lostNotice := by
    unfold State.agentWrite
    exact (if_neg (by simp [hlive, agLive, agAbsent])).trans (if_pos (by simp [hlive, hinc]))
  have hexec : exec (.agentNotice aid inc) s = .next (s.declare aid.toNat lostNotice) :=
    (State.onBlk_acts _ hacts).trans (congrArg Host.Outcome.next hwrite)
  obtain ⟨hagent, hscan⟩ := State.agent_declared (cause := lostNotice) hlive htrks
  exact ⟨_, hexec, congrArg Agent.state hagent, hscan, core_of_exec rfl hexec⟩

theorem completes_agentReadmit {s : State} (aid : BitVec 12) (inc : BitVec 16) (hacts : s.acts pgDIRC = true)
    (hfenced : (s.agent aid.toNat).state = agFenced) (hinc : inc.toNat = ((s.agent aid.toNat).inc + 1) % 65536)
    (hage : (s.agent aid.toNat).fencedAt + 1563 ≤ s.ao) : Completes (.agentReadmit aid inc) s fun t =>
      t.agent aid.toNat = { state := agLive, inc := inc.toNat, fencedAt := 0 } ∧ t.regs = s.regs ∧ t.dir = s.dir ∧ t.core = s.core := by
  have hwrite : s.agentWrite aid.toNat agLive inc.toNat =
      s.setAgent aid.toNat { state := agLive, inc := inc.toNat, fencedAt := 0 } := by
    unfold State.agentWrite
    exact (if_neg (by simp [hfenced, agFenced, agAbsent])).trans
      ((if_neg (by simp [hfenced, agFenced, agLive])).trans (if_pos (by simp [hfenced, hinc, hage])))
  refine ⟨_, (State.onBlk_acts _ hacts).trans (congrArg Host.Outcome.next hwrite), ?_⟩
  beta_reduce
  rw [State.agent_setAgent_same]
  exact ⟨rfl, rfl, rfl, rfl⟩

/-- A step of the sweep, its own progress apart: the next set is read where no copy of it is held, and its actions queued. -/
def sweptSet (s : State) (c : Scan) : State :=
  let s1 := if s.cached c.next then s else s.readSet c.next 0 0 s.openEpoch none
  ((s1.sweepSet c.next ((c.agents.filter (fun a => a.2.1 != 0)).map (·.1))).recallSet c.next
    ((c.regionRc.filter (fun r => r.2 != 0)).map (·.1))).imageSet c.next (c.image.any (fun n => n != 0))

theorem dir_sweptSet (s : State) (c : Scan) : (sweptSet s c).dir = s.dir := by
  unfold sweptSet
  rw [State.dir_imageSet, State.dir_recallSet, State.dir_sweepSet]
  split
  · rfl
  · exact State.dir_readSet ..

theorem exec_sweepStep {s : State} {c : Scan} (hacts : s.acts pgHOME = true) (hscan : s.scan = some c)
    (hleft : c.agents.any (fun a => a.2.1 != 0) = true) :
    exec .sweepStep s = .next { sweptSet s c with scan := some c.advance } := by
  have hne : ((c.agents.filter (fun a => a.2.1 != 0)).map (·.1)).isEmpty = false := by
    obtain ⟨a, ha, hset⟩ := List.any_eq_true.mp hleft
    simpa using ⟨a.1, a.2.1, ⟨a.2.2.1, a.2.2.2, ha⟩, by simpa using hset⟩
  refine (State.onBlk_acts _ hacts).trans ?_
  rw [hscan]
  exact if_neg (by simp only [hne, Bool.false_and]; exact Bool.false_ne_true)

theorem exec_sweepEnd {s : State} {c : Scan} {a : Nat × Nat × Nat × Nat} (hacts : s.acts pgHOME = true) (hscan : s.scan = some c)
    (hfind : c.agents.find? (fun a => a.2.1 == 0 && !s.sweepBusy a.1) = some a) :
    exec .sweepEnd s = .next { (s.setAgent a.1 { s.agent a.1 with state := agFenced, fencedAt := s.ao }).crumb pgHOME 0x211 1
      [packBits [(0, 12, a.1), (12, 4, (s.agent a.1).cause), (16, 16, (s.agent a.1).inc)], a.2.2.1, a.2.2.2] with
      scan := { c with agents := c.agents.filter (fun x => x.1 != a.1) }.rest } := by
  refine (State.onBlk_acts _ hacts).trans ?_
  rw [hscan]
  dsimp only
  rw [hfind]

/-- Settles O13: the table's three transitions of software change the one entry; a step of the sweep and its end are computed. -/
theorem agentTable : Obligations.AgentTable := by
  unfold Obligations.AgentTable
  refine ⟨fun s => completes_agentAdmit (s := s), fun s => completes_agentNotice (s := s), fun s => completes_agentReadmit (s := s), ?_, ?_⟩
  · intro s c hacts hscan hleft
    have hexec := exec_sweepStep hacts hscan hleft
    exact ⟨_, hexec, rfl, dir_sweptSet s c, core_of_exec rfl hexec⟩
  · intro s c a hacts hscan hone hread hidle hregion himage
    have hfind : c.agents.find? (fun a => a.2.1 == 0 && !s.sweepBusy a.1) = some a := by simp [hone, hread, hidle]
    have hexec := exec_sweepEnd hacts hscan hfind
    have hrest : ({ c with agents := c.agents.filter (fun x => x.1 != a.1) } : Scan).rest = none := by
      simp [Scan.rest, hone, hregion, himage]
    have hagent := (State.agent_of_body (State.body_crumb (s.setAgent a.1 { s.agent a.1 with state := agFenced, fencedAt := s.ao })
      pgHOME 0x211 1 [packBits [(0, 12, a.1), (12, 4, (s.agent a.1).cause), (16, 16, (s.agent a.1).inc)], a.2.2.1, a.2.2.2]) a.1).trans
      (State.agent_setAgent_same ..)
    exact ⟨_, hexec, hrest, congrArg Agent.state hagent, congrArg Agent.fencedAt hagent, core_of_exec rfl hexec⟩
end Sys2Proof.Machine
end

/-! ## O14: the order at the home, slow snoops and probes -/

section
namespace Sys2Proof.Machine
open Reg

/-- All of the state but what a block's power state, its counters and its reports are, with the open configuration. -/
def State.settings (s : State) : State := { s.body with cfgOpen := s.cfgOpen }

theorem State.settings_wr (s : State) {f : Field} (v i x : Nat) (hf : f.staged = false) : (s.wr f v i x).settings = s.settings := by
  unfold State.settings
  rw [State.body_wr, State.cfgOpen_wr _ _ _ _ _ hf]

theorem State.settings_bump (s : State) {f : Field} (i x : Nat) (hf : f.staged = false) : (s.bump f i x).settings = s.settings :=
  State.settings_wr _ _ _ _ hf

theorem State.settings_of_body {s t : State} (hb : t.body = s.body) (hc : t.cfgOpen = s.cfgOpen) : t.settings = s.settings := by
  unfold State.settings
  rw [hb, hc]

theorem State.settings_raise (s : State) (p c : Nat) : (s.raise p c).settings = s.settings :=
  State.settings_of_body (State.body_raise ..) (State.cfgOpen_raise ..)

theorem State.settings_sample (s : State) (p g : Nat) (v : Int) : (s.sample p g v).settings = s.settings := by
  unfold State.sample
  extract_lets beyond low k old ext ext' s1
  have h1 : s1.settings = s.settings := (State.settings_wr _ _ _ _ rfl).trans rfl
  clear_value s1 old
  cases old with
  | none => exact h1
  | some w =>
    dsimp only
    split
    · rw [State.settings_raise, State.settings_bump _ _ _ rfl, State.settings_wr _ _ _ _ rfl, h1]
    · exact h1

theorem State.settings_unpark (s : State) (p : Nat) : (s.unpark p).settings = s.settings := by
  have hfc (u : State) : (u.wr CLK_FC_STATE pllStarting).settings = u.settings := State.settings_wr _ _ _ _ rfl
  have hmc (u : State) : (u.wr CLK_MC_STATE pllStarting).settings = u.settings := State.settings_wr _ _ _ _ rfl
  unfold State.unpark
  dsimp only
  repeat' split
  · rw [hmc, hfc]
  · rw [hfc]
  · rw [hmc]
  · rfl

theorem State.settings_setPwr (s : State) (p st : Nat) : (s.setPwr p st).settings = s.settings := by
  unfold State.setPwr
  extract_lets old w k w1 s1
  have h1 : s1.settings = s.settings := (State.settings_wr _ _ _ _ rfl).trans rfl
  clear_value s1
  split
  · exact (State.settings_unpark ..).trans h1
  · exact h1

theorem State.settings_use (s : State) (l : List Nat) : (s.use l).settings = s.settings := by
  have hfold : (l.foldl (fun (s : State) p => if s.rd H_PWR_NOW p = 0 then s else s.setPwr p 0) s).settings = s.settings := by
    refine foldl_keeps State.settings _ (fun a p => ?_) _ _
    split
    · rfl
    · exact State.settings_setPwr ..
  exact Eq.trans rfl hfold

theorem State.settings_hint (s : State) (l : List Nat) : (s.hint l).settings = s.settings := rfl

theorem State.rd_sample_ne_keys (s : State) (p g : Nat) (v : Int) {f : Field} {i x : Nat} (h1 : keyOf f i x ≠ keyOf WMK_EXTREME p g)
    (h2 : keyOf f i x ≠ keyOf WMK_CROSSED p g) (h3 : keyOf f i x ≠ keyOf WMK_COUNT_ p g) (h4 : keyOf f i x ≠ keyOf H_INT_STAT p 0) :
    (s.sample p g v).rd f i x = s.rd f i x := by
  have hwmk : ∀ w : Tab Wmk, ({ s with wmk := w } : State).rd f i x = s.rd f i x := fun w => rfl
  unfold State.sample
  dsimp only
  repeat' split
  all_goals simp only [State.rd_raise_ne _ _ _ h4, State.rd_bump_ne _ h3, State.rd_wr_ne _ _ h2, State.rd_wr_ne _ _ h1, hwmk]

/-! ### What the home reads and changes -/

/-- The requests, the trackers, the open transactions and the directory. -/
def State.lines (s : State) : List Req × List Trk × List (Nat × Nat) × List DirEnt := (s.reqs, s.trks, s.openTx, s.dir)

theorem State.lines_of_body {s t : State} (h : t.body = s.body) : t.lines = s.lines := by
  obtain ⟨htrks, -, hopen, hreqs, -, -, hdir⟩ := State.parts_of_body h
  unfold State.lines
  rw [htrks, hopen, hreqs, hdir]

theorem State.body_twSend (s : State) (m : Msg) (t j : Nat) : (s.twSend m t j).body = s.body := by
  unfold State.twSend
  split
  · exact State.body_send ..
  · rfl

theorem State.lines_twSeq (s : State) (opc : Nat) (fields : List (Nat × Nat × Nat)) (data : List Slot) (t j : Nat) :
    (s.twSeq opc fields data t j).2.lines = s.lines := by
  unfold State.twSeq
  dsimp only
  split
  · exact (State.lines_of_body ((State.body_sample ..).trans (State.body_twSend ..))).trans rfl
  · rfl

theorem State.lines_twDelta (s : State) (la region : Nat) (e : Option DirEnt) (pend : Bool) (t j : Nat) :
    (s.twDelta la region e pend t j).2.lines = s.lines := by
  unfold State.twDelta
  split
  · exact (State.lines_of_body (State.body_bump ..)).trans (State.lines_twSeq ..)
  · rfl

theorem State.lines_snoop (s : State) (gate : Option Nat) (opc aid : Nat) (r : Req) (grant : Nat) (fault : Bool) :
    (s.snoop gate opc aid r grant fault).lines = s.lines := by
  unfold State.snoop
  split
  · unfold State.biGated
    split
    · split <;> rfl
    · rfl
  · unfold State.snpGated
    split
    · split
      · exact State.lines_of_body (State.body_sendAgent ..)
      · rfl
    · exact State.lines_of_body (State.body_sendAgent ..)

theorem State.attr_congr {s t : State} (h : t.settings = s.settings) (ep : Nat) {f : Field} (hf : f.staged = true) (n : Nat) :
    t.attr ep f n = s.attr ep f n := by
  have hopen : t.settings.cfgOpen = s.settings.cfgOpen := congrArg State.cfgOpen h
  have hdrain : t.settings.cfgDrain = s.settings.cfgDrain := congrArg State.cfgDrain h
  have hpending : t.settings.commitPending = s.settings.commitPending := congrArg State.commitPending h
  have hepoch : t.settings.drainEpoch = s.settings.drainEpoch := congrArg State.drainEpoch h
  change t.cfgOpen = s.cfgOpen at hopen
  change t.cfgDrain = s.cfgDrain at hdrain
  change t.commitPending = s.commitPending at hpending
  change t.drainEpoch = s.drainEpoch at hepoch
  unfold State.attr State.rgn State.rdAt State.rd
  rw [hopen, hdrain, hpending, hepoch, hf]
  rfl

theorem State.fencedAt4_congr {s t : State} (h : t.settings = s.settings) (hnid : t.nid = s.nid) (r : Req) :
    t.fencedAt4 r = s.fencedAt4 r := by
  have hturn : t.settings.twin = s.settings.twin := congrArg State.twin h
  have hagents : t.settings.agents = s.settings.agents := congrArg State.agents h
  change t.twin = s.twin at hturn
  change t.agents = s.agents at hagents
  unfold State.fencedAt4 State.live State.agent
  rw [State.attr_congr h _ rfl, hturn, hagents, hnid]

/-- The state in which the home orders `r`: it and the directory in use, the channel's and the key's block hinted at. -/
def State.ordering (s : State) (r : Req) : State :=
  let k := (s.keyFor r.epoch r.region r.la).map (·.1)
  ((s.use [pgHOME, pgDIRC]).hint (pgMCH ((hashLine r.la).1 / 2) :: (if k.isSome then [pgCRYPT] else []))).updReq r.id
    (fun r => { r with key := k, ordered := true })

/-- The request as the home orders it: with the key of its line. -/
def State.keyed (s : State) (r : Req) : Req := { r with key := (s.keyFor r.epoch r.region r.la).map (·.1) }

theorem exec_homeOrder {s : State} {la : BitVec 37} {r : Req} (hacts : s.acts pgHOME = true) (hreqs : s.reqs = [r])
    (hplace : r.place = .home) (hla : r.la = la.toNat) (hopen : s.openTx = []) (hfences : s.fences = []) :
    exec (.homeOrder la) s = .next (((s.ordering r).orderReq (s.keyed r)).sample pgHOME 1
      ((s.ordering r).orderReq (s.keyed r)).longestQueue) := by
  have hcond : (s.rd H_COND pgHOME == 2) = false := by
    simp only [State.acts, State.stopped, Bool.and_eq_true, Bool.not_eq_true', Bool.or_eq_false_iff] at hacts
    exact hacts.2.1
  have hnone : s.reqs.find? (fun r => (r.place == .waitWay || r.place == .waitTrk) && r.la == la.toNat) = none := by
    simp [hreqs, hplace]
  have hwait : s.waitingAt la.toNat = [r] := by simp [State.waitingAt, hreqs, hplace, hla]
  have hmay : (!s.orderable r || s.lateFor r) = false := by
    simp [State.orderable, State.isOpen, State.fenced, State.lateFor, hopen, hfences, hreqs]
  refine (State.onBlk_acts _ hacts).trans ((if_neg (by rw [hcond]; exact Bool.false_ne_true)).trans ?_)
  rw [hnone]
  dsimp only
  rw [hwait]
  exact if_neg (by rw [hmay]; exact Bool.false_ne_true)

theorem State.settings_ordering (s : State) (r : Req) :
    ∃ u : State, s.ordering r = u.updReq r.id (fun x => { x with key := (s.keyed r).key, ordered := true }) ∧ u.settings = s.settings ∧
      u.nid = s.nid ∧ ∀ {f : Field} {i x : Nat}, keyOf f i x ≠ keyOf H_PWR_NOW pgHOME 0 → keyOf f i x ≠ keyOf H_PWR_NOW pgDIRC 0 →
        keyOf f i x ≠ keyOf CLK_FC_STATE 0 0 → keyOf f i x ≠ keyOf CLK_MC_STATE 0 0 → u.rd f i x = s.rd f i x := by
  have hrd {f : Field} {i x : Nat} (hhome : keyOf f i x ≠ keyOf H_PWR_NOW pgHOME 0) (hdirc : keyOf f i x ≠ keyOf H_PWR_NOW pgDIRC 0)
      (hfc : keyOf f i x ≠ keyOf CLK_FC_STATE 0 0) (hmc : keyOf f i x ≠ keyOf CLK_MC_STATE 0 0) :
      (s.use [pgHOME, pgDIRC]).rd f i x = s.rd f i x := by
    refine State.rd_use_ne _ _ (fun p hp => ?_) hfc hmc
    simp only [List.mem_cons, List.not_mem_nil, or_false] at hp
    rcases hp with rfl | rfl
    · exact hhome
    · exact hdirc
  exact ⟨_, rfl, State.settings_use .., hrd (f := IDENT_NID) (i := 0) (x := 0) (by decide) (by decide) (by decide) (by decide), hrd⟩

/-- What the home finds when it orders the one request of the node, not fenced. -/
theorem State.parts_ordering {s : State} {r : Req} (hreqs : s.reqs = [r]) :
    (s.ordering r).lines = ([{ s.keyed r with ordered := true }], s.trks, s.openTx, s.dir) ∧
    (s.ordering r).agents = s.agents ∧ (s.ordering r).frames = s.frames ∧ (s.ordering r).broken = s.broken ∧
    (s.ordering r).fencedAt4 (s.keyed r) = s.fencedAt4 r ∧
    ∀ f : Field, f.staged = true → (s.ordering r).attr r.epoch f r.region = s.attr r.epoch f r.region := by
  obtain ⟨u, hu, hset, hnid, -⟩ := State.settings_ordering s r
  rw [hu]
  have hureqs : u.settings.reqs = s.settings.reqs := congrArg State.reqs hset
  have hutrks : u.settings.trks = s.settings.trks := congrArg State.trks hset
  have huopen : u.settings.openTx = s.settings.openTx := congrArg State.openTx hset
  have hudir : u.settings.dir = s.settings.dir := congrArg State.dir hset
  change u.reqs = s.reqs at hureqs
  change u.trks = s.trks at hutrks
  change u.openTx = s.openTx at huopen
  change u.dir = s.dir at hudir
  refine ⟨?_, (congrArg State.agents hset :), (congrArg State.frames hset :), (congrArg State.broken hset :), ?_, ?_⟩
  · unfold State.lines
    simp only [State.updReq_reqs, hureqs, hreqs]
    simp [updFirst, State.updReq, hutrks, huopen, hudir, State.keyed]
  · exact (State.fencedAt4_congr hset hnid r :)
  · exact fun f hf => (State.attr_congr hset _ hf _ :)

theorem State.orderReq_uncached {s : State} {r : Req} (hfence : s.fencedAt4 r = none)
    (hcoh : s.attr r.epoch TEN_R_COH r.region = true) : s.orderReq r = s.orderUncached r := by
  unfold State.orderReq
  rw [hfence]
  exact if_pos hcoh

/-- A read of a coherent line whose set is on die and settled. -/
theorem State.orderReq_rdS {s : State} {r : Req} (hfence : s.fencedAt4 r = none) (hcoh : s.attr r.epoch TEN_R_COH r.region = false)
    (hop : r.op = .rdS) (hwait : r.wait = 0) (hcached : s.cached (dirSet r.la) = true) (hbroken : s.broken = []) :
    ∃ u : State, u.lines = s.lines ∧ u.agents = s.agents ∧ u.frames = s.frames ∧ u.broken = [] ∧
      (∀ {f : Field} {i x : Nat}, keyOf f i x ≠ keyOf DIRC_CACHE_HIT 0 0 → u.rd f i x = s.rd f i x) ∧
      (((u.touch r.la).applySweep r.la).broken = [] → s.orderReq r = ((u.touch r.la).applySweep r.la).orderCoherent r) := by
  have hbody := State.body_bump s DIRC_CACHE_HIT 0 0
  refine ⟨s.bump DIRC_CACHE_HIT, State.lines_of_body hbody, (congrArg State.agents hbody :), (congrArg State.frames hbody :),
    (congrArg State.broken hbody :).trans hbroken, fun h => State.rd_bump_ne _ h, fun hbroken' => ?_⟩
  have hlookup : s.lookup r = some (s.bump DIRC_CACHE_HIT) := by
    unfold State.lookup
    rw [if_pos hcached, hwait]
    rfl
  have hunsettled : ((((s.bump DIRC_CACHE_HIT).touch r.la).applySweep r.la).unsettled r.la) = false := by
    unfold State.unsettled State.brokenSet
    rw [hbroken']
    rfl
  have hsweep : ((if (r.op == .probe) || r.wait = ordered then s.bump DIRC_CACHE_HIT else (s.bump DIRC_CACHE_HIT).touch r.la).sweepFor r)
      = ((s.bump DIRC_CACHE_HIT).touch r.la).applySweep r.la := by
    rw [hop, hwait]
    unfold State.sweepFor
    rw [hop]
    cases r.intern <;> rfl
  unfold State.orderReq
  rw [hfence]
  dsimp only
  rw [hcoh, if_neg Bool.false_ne_true, hlookup]
  dsimp only
  rw [hsweep, hunsettled, hop]
  rfl

/-- A line that the directory does not hold, or that a Live agent owns, needs no sweep. -/
theorem State.applySweep_of_none {s : State} {la : Nat} (h : s.ent la = none) : s.applySweep la = s := by
  unfold State.applySweep
  rw [h]

theorem State.applySweep_of_owned {s : State} {la : Nat} {e : DirEnt} (h : s.ent la = some e) (hcoarse : e.coarse = false)
    (hmodif : e.modif = true) (hlive : s.live e.owner = true) : s.applySweep la = s := by
  unfold State.applySweep
  rw [h]
  simp [hcoarse, hmodif, State.dead, hlive]

theorem State.lines_serveMem_still (s : State) (r : Req) (grant : Nat) (new : Option DirEnt) :
    (s.serveMem r grant false new).lines =
      (updFirst (fun x => x.id == r.id) (fun x => { x with place := .memRead, grant := grant, gate := none }) s.reqs, s.trks,
        s.openTx ++ [(r.la, r.id)], s.dir) := rfl

theorem State.lines_putEnt (s : State) (la : Nat) (new : Option DirEnt) :
    (s.putEnt la new).reqs = s.reqs ∧ (s.putEnt la new).trks = s.trks ∧ (s.putEnt la new).openTx = s.openTx := by
  have hbody (u : State) : u.sampleDir.body = u.body := (State.body_sample ..).trans (State.body_sample ..)
  unfold State.putEnt
  exact ⟨(congrArg State.reqs (hbody _) :), (congrArg State.trks (hbody _) :), (congrArg State.openTx (hbody _) :)⟩

theorem State.cached_touch {s : State} {la : Nat} (h : s.cached (dirSet la) = true) : (s.touch la).cached (dirSet la) = true := by
  obtain ⟨f, hf, hset⟩ := List.any_eq_true.mp h
  refine List.any_eq_true.mpr ⟨_, List.mem_append_left _ (List.mem_map_of_mem (List.mem_filter.mpr ⟨hf, hset⟩)), ?_⟩
  exact hset

theorem State.lines_serveMem_change {s : State} {r : Req} (hcached : s.cached (dirSet r.la) = true) (grant : Nat) (new : Option DirEnt) :
    ∃ gate, (s.serveMem r grant true new).lines =
      (updFirst (fun x => x.id == r.id) (fun x => { x with place := .memRead, grant := grant, gate := gate }) s.reqs, s.trks,
        s.openTx ++ [(r.la, r.id)], (s.putEnt r.la new).dir) := by
  have hset : s.setEnt r.la new = s.putEnt r.la new := by
    unfold State.setEnt
    dsimp only
    rw [if_pos hcached]
  obtain ⟨u, hu⟩ : ∃ u, u = (s.setEnt r.la new).twDelta r.la r.region new false r.tid r.job := ⟨_, rfl⟩
  have hlines : u.2.lines = (s.putEnt r.la new).lines := by rw [hu, hset]; exact State.lines_twDelta ..
  obtain ⟨hreqs, htrks, hopen⟩ := State.lines_putEnt s r.la new
  have hend : (s.serveMem r grant true new).lines =
      (updFirst (fun x => x.id == r.id) (fun x => { x with place := .memRead, grant := grant, gate := u.1 }) u.2.reqs, u.2.trks,
        u.2.openTx ++ [(r.la, r.id)], u.2.dir) := by
    unfold State.serveMem
    simp only [if_true, ← hu]
    rfl
  simp only [State.lines, Prod.mk.injEq] at hlines
  obtain ⟨hureqs, hutrks, huopen, hudir⟩ := hlines
  exact ⟨u.1, by rw [hend, hureqs, hutrks, huopen, hudir, hreqs, htrks, hopen]⟩

/-- A new entry of an empty directory takes the lowest way (assumption 121). -/
theorem State.dir_putEnt_of_empty {s : State} (h : s.dir = []) (la region aid inc : Nat) (modif : Bool) :
    (s.putEnt la (some (entOf la region modif aid inc))).dir = [entOf la region modif aid inc] := by
  have hbody (u : State) : u.sampleDir.body = u.body := (State.body_sample ..).trans (State.body_sample ..)
  have hdir (u : State) : u.sampleDir.dir = u.dir := (congrArg State.dir (hbody u) :)
  have hway : s.freeWay (dirSet la) = some 0 := by
    simp [State.freeWay, State.setEnts, h, List.range, List.range.loop]
  unfold State.putEnt
  rw [hdir, hway, h]
  rfl

theorem State.orderNew_of_empty {s : State} {r : Req} (hdir : s.dir = []) (hwaiters : s.wayWaiters (dirSet r.la) = []) :
    s.orderNew r = s.serveMem r grE true (some (entOf r.la r.region true r.aid (s.agent r.aid).inc)) := by
  have hway : (s.freeWay (dirSet r.la)).isSome = true := by
    simp [State.freeWay, State.setEnts, hdir, List.range, List.range.loop]
  unfold State.orderNew State.mayTake
  rw [hway, hwaiters]
  rfl

/-! ### The clauses -/

theorem completes_homeOrder {s : State} {la : BitVec 37} {r : Req} {P : State → Prop} (hacts : s.acts pgHOME = true)
    (hreqs : s.reqs = [r]) (hplace : r.place = .home) (hla : r.la = la.toNat) (hopen : s.openTx = []) (hfences : s.fences = [])
    (h : ∀ t : State, t.lines = ((s.ordering r).orderReq (s.keyed r)).lines →
      (∀ {f : Field} {i x : Nat}, keyOf f i x ≠ keyOf WMK_EXTREME pgHOME 1 → keyOf f i x ≠ keyOf WMK_CROSSED pgHOME 1 →
        keyOf f i x ≠ keyOf WMK_COUNT_ pgHOME 1 → keyOf f i x ≠ keyOf H_INT_STAT pgHOME 0 →
        t.rd f i x = ((s.ordering r).orderReq (s.keyed r)).rd f i x) → t.core = s.core → P t) : Completes (.homeOrder la) s P := by
  have hexec := exec_homeOrder hacts hreqs hplace hla hopen hfences
  refine ⟨_, hexec, h _ (State.lines_of_body (State.body_sample ..)) (fun h1 h2 h3 h4 => ?_) (core_of_exec rfl hexec)⟩
  exact State.rd_sample_ne_keys _ _ _ _ h1 h2 h3 h4

theorem completes_homeOrder_rdCur {s : State} {la : BitVec 37} {r : Req} (hacts : s.acts pgHOME = true) (hreqs : s.reqs = [r])
    (hplace : r.place = .home) (hla : r.la = la.toNat) (hop : r.op = .rdCur) (hopen : s.openTx = []) (hfences : s.fences = [])
    (hfence : s.fencedAt4 r = none) (hcoh : s.attr r.epoch TEN_R_COH r.region = true) : Completes (.homeOrder la) s fun t =>
      (t.reqs.map (fun x => x.place)) = [.memRead] ∧ t.openTx = [(la.toNat, r.id)] ∧ t.dir = s.dir ∧ t.core = s.core := by
  refine completes_homeOrder hacts hreqs hplace hla hopen hfences (fun t hlines _ hcore => ?_)
  obtain ⟨hparts, -, -, -, hfence', hattr⟩ := State.parts_ordering hreqs
  rw [State.orderReq_uncached (hfence'.trans hfence) ((hattr _ rfl).trans hcoh)] at hlines
  have huncached : (s.ordering r).orderUncached (s.keyed r) = (s.ordering r).serveMem (s.keyed r) grI false none := by
    unfold State.orderUncached
    rw [show (s.keyed r).op = .rdCur from hop]
  rw [huncached, State.lines_serveMem_still] at hlines
  simp only [State.lines, Prod.mk.injEq] at hlines hparts
  obtain ⟨h1, -, h3, h4⟩ := hlines
  obtain ⟨p1, -, p3, p4⟩ := hparts
  refine ⟨?_, ?_, h4.trans p4, hcore⟩
  · rw [h1, p1]
    simp [updFirst, State.keyed]
  · rw [h3, p3, hopen, ← hla]
    rfl

/-- The parts of the state in which a coherent read is ordered, its set touched. -/
theorem State.parts_touch (s : State) (la : Nat) : (s.touch la).reqs = s.reqs ∧ (s.touch la).trks = s.trks ∧
    (s.touch la).openTx = s.openTx ∧ (s.touch la).agents = s.agents ∧ (s.touch la).broken = s.broken := ⟨rfl, rfl, rfl, rfl, rfl⟩

theorem State.rd_sendAgent_ne (s : State) (a : Nat) (m : Msg) (t j : Nat) {f : Field} {i x : Nat}
    (h : ∀ q, keyOf f i x ≠ keyOf FPORT_RSP_DROP q 0) : (s.sendAgent a m t j).rd f i x = s.rd f i x := by
  unfold State.sendAgent
  split
  · rfl
  · split
    · exact State.rd_send_ne _ _ _ _ _ h
    · split
      · exact State.rd_bump_ne _ (h _)
      · rfl

theorem State.rd_snoop_ne (s : State) (gate : Option Nat) (opc aid : Nat) (r : Req) (grant : Nat) (fault : Bool) {f : Field} {i x : Nat}
    (h : ∀ q, keyOf f i x ≠ keyOf FPORT_RSP_DROP q 0) : (s.snoop gate opc aid r grant fault).rd f i x = s.rd f i x := by
  unfold State.snoop
  split
  · unfold State.biGated
    split
    · split <;> rfl
    · rfl
  · unfold State.snpGated
    split
    · split
      · exact State.rd_sendAgent_ne _ _ _ _ _ h
      · rfl
    · exact State.rd_sendAgent_ne _ _ _ _ _ h

theorem State.rd_twDelta_ne (s : State) (la region : Nat) (e : Option DirEnt) (pend : Bool) (t j : Nat) {f : Field} {i x : Nat}
    (h : ∀ q, keyOf f i x ≠ keyOf FPORT_RSP_DROP q 0) (hpage : keyOf f i x / 0x40000 ≠ pgTWIN) :
    (s.twDelta la region e pend t j).2.rd f i x = s.rd f i x := by
  have hsent : keyOf f i x ≠ keyOf TWIN_DELTAS_SENT 0 0 := fun e => by
    apply hpage
    rw [e, page_of_key (by decide) (by decide)]
    rfl
  have hsend (u : State) (m : Msg) : (u.twSend m t j).rd f i x = u.rd f i x := by
    unfold State.twSend
    split
    · exact State.rd_send_ne _ _ _ _ _ h
    · rfl
  have hseq (opc : Nat) (fields : List (Nat × Nat × Nat)) (data : List Slot) :
      (s.twSeq opc fields data t j).2.rd f i x = s.rd f i x := by
    unfold State.twSeq
    dsimp only
    split
    · exact (State.rd_sample_ne _ _ _ _ (by decide) hpage).trans ((hsend _ _).trans rfl)
    · rfl
  unfold State.twDelta
  split
  · exact (State.rd_bump_ne _ hsent).trans (hseq ..)
  · rfl

/-- The tracker of a forward of a line's owner for a reader, in the first slot (Table 5-3). -/
def State.fwdTrk (s : State) (r : Req) (e : DirEnt) : Trk := {
  slot := 0, la := r.la, kind := .fwdS, view := trkView r .fwdS, req := r.id, awaited := [(e.owner, false)], since := s.ao, slow := false,
  exact := false, serve := false, fault := !s.attr r.epoch TEN_R_UE r.region, before := some e, tid := r.tid, job := r.job }

/-- With no tracker open and no request but the forwarded one. -/
theorem State.openTrk_fwdS {s : State} {r q : Req} {e : DirEnt} (htrks : s.trks = []) (hreqs : s.reqs = [q]) (hid : q.id = r.id) :
    (∃ gate, (s.openTrk 0 r .fwdS e [(e.owner, false)] false).lines =
      ([{ q with place := .tracked, val := 0 }], [{ s.fwdTrk r e with gate := gate }], s.openTx ++ [(r.la, r.id)], s.dir)) ∧
    (s.openTrk 0 r .fwdS e [(e.owner, false)] false).rd HOME_FORWARDS =
      min (2 ^ HOME_FORWARDS.width - 1) (s.rd HOME_FORWARDS + 1) := by
  have hdrop (p : Nat) : keyOf HOME_FORWARDS 0 0 ≠ keyOf FPORT_RSP_DROP p 0 := keyOf_ne_of_offset _ _ (by decide)
  unfold State.openTrk
  extract_lets fault tr s1 s2 new u
  have h1 : s1.lines = ([{ q with place := .tracked, val := 0 }], [s.fwdTrk r e], s.openTx ++ [(r.la, r.id)], s.dir) := by
    simp [s1, State.lines, State.updReq, State.openLine, htrks, hreqs, updFirst, hid, tr, State.fwdTrk, fault]
  have h2 : s2.lines = s1.lines := State.lines_of_body (State.body_sample ..)
  have hrd2 : s2.rd HOME_FORWARDS = s.rd HOME_FORWARDS :=
    (State.rd_sample_ne_keys _ _ _ _ (by decide) (by decide) (by decide) (by decide)).trans rfl
  clear_value s2 s1
  rw [if_pos (show (TrkKind.fwdS != .inv || r.op.grants) = true from rfl)]
  generalize hp : s2.twDelta _ _ _ _ _ _ = p
  have h3 : p.2.lines = s1.lines := by rw [← hp]; exact (State.lines_twDelta ..).trans h2
  have hrd3 : p.2.rd HOME_FORWARDS = s.rd HOME_FORWARDS := by
    rw [← hp]
    exact (State.rd_twDelta_ne _ _ _ _ _ _ _ hdrop (by decide)).trans hrd2
  clear hp
  obtain ⟨gate, s3⟩ := p
  dsimp only at h3 hrd3 ⊢
  rw [h1] at h3
  simp only [State.lines, Prod.mk.injEq] at h3
  obtain ⟨p1, p2, p3, p4⟩ := h3
  obtain ⟨s3', hs3'⟩ : ∃ s3' : State, s3' = { s3 with trks := updFirst (fun x => x.slot == 0) (fun x => { x with gate := gate }) s3.trks } :=
    ⟨_, rfl⟩
  have h4 : s3'.lines = ([{ q with place := .tracked, val := 0 }], [{ s.fwdTrk r e with gate := gate }],
      s.openTx ++ [(r.la, r.id)], s.dir) := by
    rw [hs3', State.lines]
    simp [p1, p2, p3, p4, updFirst, State.fwdTrk]
  have hrd4 : s3'.rd HOME_FORWARDS = s.rd HOME_FORWARDS := by rw [hs3']; exact hrd3
  rw [← hs3']
  obtain ⟨s4, hs4⟩ : ∃ s4, s4 = (s3'.bump HOME_FORWARDS).snoop gate opSnpFwdS e.owner r grS fault := ⟨_, rfl⟩
  have h5 : s4.lines = s3'.lines := by
    rw [hs4]
    exact (State.lines_snoop ..).trans (State.lines_of_body (State.body_bump ..))
  have hrd5 : s4.rd HOME_FORWARDS = min (2 ^ HOME_FORWARDS.width - 1) (s.rd HOME_FORWARDS + 1) := by
    rw [hs4, State.rd_snoop_ne _ _ _ _ _ _ _ hdrop, State.rd_bump_same, hrd4]
  rw [← hs4]
  have hwaiting : s4.waitingAt r.la = [] := by
    rw [h4] at h5
    simp only [State.lines, Prod.mk.injEq] at h5
    unfold State.waitingAt
    rw [h5.1]
    rfl
  have habsorb : s4.absorbWaiting r.la 0 = s4 := by
    unfold State.absorbWaiting
    rw [hwaiting]
    rfl
  rw [habsorb]
  exact ⟨⟨gate, h5.trans h4⟩, hrd5⟩

/-- The state in which the home orders a coherent read, the one request of the node: nothing but the entries' ages and counters differs. -/
theorem orderReq_of_read {s : State} {r : Req} (hreqs : s.reqs = [r]) (hop : r.op = .rdS) (hwait : r.wait = 0)
    (hfence : s.fencedAt4 r = none) (hcoh : s.attr r.epoch TEN_R_COH r.region = false) (hcached : s.cached (dirSet r.la) = true)
    (hbroken : s.broken = []) : ∃ u v : State, v = u.touch r.la ∧ u.dir = s.dir ∧ v.reqs = [{ s.keyed r with ordered := true }] ∧
      v.trks = s.trks ∧ v.openTx = s.openTx ∧ v.agents = s.agents ∧ v.cached (dirSet r.la) = true ∧
      v.rd HOME_FORWARDS = s.rd HOME_FORWARDS ∧
      (v.applySweep r.la = v → (s.ordering r).orderReq (s.keyed r) = v.orderCoherent (s.keyed r)) := by
  obtain ⟨hparts, hagents, hframes, hbroken', hfence', hattr⟩ := State.parts_ordering hreqs
  have hcached' : (s.ordering r).cached (dirSet r.la) = true := by
    unfold State.cached
    rw [hframes]
    exact hcached
  obtain ⟨u, hulines, huagents, huframes, hubroken, hurd, horder⟩ := State.orderReq_rdS (hfence'.trans hfence)
    ((hattr _ rfl).trans hcoh) hop hwait hcached' (hbroken'.trans hbroken)
  have hrd : u.rd HOME_FORWARDS = s.rd HOME_FORWARDS := by
    obtain ⟨w, hw, -, -, hwrd⟩ := State.settings_ordering s r
    rw [hurd (by decide), hw]
    exact hwrd (by decide) (by decide) (by decide) (by decide)
  rw [hparts] at hulines
  simp only [State.lines, Prod.mk.injEq] at hulines
  obtain ⟨u1, u2, u3, u4⟩ := hulines
  obtain ⟨v, hv⟩ : ∃ v, v = u.touch r.la := ⟨_, rfl⟩
  refine ⟨u, v, hv, u4, ?_, ?_, ?_, ?_, ?_, ?_, fun hsweep => ?_⟩
  · rw [hv]; exact u1
  · rw [hv]; exact u2
  · rw [hv]; exact u3
  · rw [hv]; exact huagents.trans hagents
  · rw [hv]
    refine State.cached_touch ?_
    unfold State.cached
    rw [huframes]
    exact hcached'
  · rw [hv]; exact hrd
  · rw [show (s.keyed r).la = r.la from rfl, ← hv, hsweep] at horder
    exact horder (by rw [hv]; exact hubroken)

theorem completes_homeOrder_new {s : State} {la : BitVec 37} {r : Req} (hacts : s.acts pgHOME = true) (hreqs : s.reqs = [r])
    (hplace : r.place = .home) (hla : r.la = la.toNat) (hop : r.op = .rdS) (hwait : r.wait = 0) (hopen : s.openTx = [])
    (hfences : s.fences = []) (hfence : s.fencedAt4 r = none) (hcoh : s.attr r.epoch TEN_R_COH r.region = false)
    (hcached : s.cached (dirSet r.la) = true) (hbroken : s.broken = []) (hdir : s.dir = []) : Completes (.homeOrder la) s fun t =>
      t.dir = [entOf r.la r.region true r.aid (s.agent r.aid).inc] ∧
      (t.reqs.map (fun x => (x.place, x.grant))) = [(.memRead, grE)] ∧ t.openTx = [(la.toNat, r.id)] ∧ t.core = s.core := by
  refine completes_homeOrder hacts hreqs hplace hla hopen hfences (fun t hlines _ hcore => ?_)
  obtain ⟨u, v, hv, hudir, hvreqs, -, hvopen, hvagents, hvcached, -, horder⟩ :=
    orderReq_of_read hreqs hop hwait hfence hcoh hcached hbroken
  have hvdir : v.dir = [] := by
    rw [hv]
    unfold State.touch
    rw [hudir, hdir]
    rfl
  have hent : v.ent r.la = none := by
    unfold State.ent
    rw [hvdir]
    rfl
  have hsweep : v.applySweep r.la = v := State.applySweep_of_none hent
  have hagent : v.agent r.aid = s.agent r.aid := congrArg (fun l => Tab.get l r.aid _) hvagents
  have hnew : (s.ordering r).orderReq (s.keyed r) =
      v.serveMem (s.keyed r) grE true (some (entOf r.la r.region true r.aid (s.agent r.aid).inc)) := by
    rw [horder hsweep, ← hagent]
    refine Eq.trans ?_ (State.orderNew_of_empty hvdir ?_)
    · unfold State.orderCoherent
      rw [show (s.keyed r).op = .rdS from hop, show v.ent (s.keyed r).la = none from hent]
    · unfold State.wayWaiters
      rw [hvreqs]
      simp [State.keyed, hplace]
  obtain ⟨gate, hserve⟩ := State.lines_serveMem_change (s := v) (r := s.keyed r) hvcached grE
    (some (entOf r.la r.region true r.aid (s.agent r.aid).inc))
  rw [hnew, hserve, show (s.keyed r).la = r.la from rfl, State.dir_putEnt_of_empty hvdir, hvreqs] at hlines
  simp only [State.lines, Prod.mk.injEq] at hlines
  obtain ⟨h1, -, h3, h4⟩ := hlines
  refine ⟨h4, ?_, ?_, hcore⟩
  · rw [h1]
    simp [updFirst, State.keyed]
  · rw [h3, hvopen, hopen, hla]
    rfl


theorem completes_homeOrder_forward {s : State} {la : BitVec 37} {r : Req} {e : DirEnt} (hacts : s.acts pgHOME = true)
    (hreqs : s.reqs = [r]) (hplace : r.place = .home) (hla : r.la = la.toNat) (hop : r.op = .rdS) (hwait : r.wait = 0)
    (hopen : s.openTx = []) (hfences : s.fences = []) (hfence : s.fencedAt4 r = none)
    (hcoh : s.attr r.epoch TEN_R_COH r.region = false) (hcached : s.cached (dirSet r.la) = true) (hbroken : s.broken = [])
    (htrks : s.trks = []) (hdir : s.dir = [e]) (hentla : e.la = r.la) (hshadow : e.shadow = false) (hcoarse : e.coarse = false)
    (hmodif : e.modif = true) (hlive : s.live e.owner = true) (howner : e.owner ≠ r.aid) : Completes (.homeOrder la) s fun t =>
      t.trks.map (fun k => (k.la, k.kind, k.req, k.awaited)) = [(la.toNat, .fwdS, r.id, [(e.owner, false)])] ∧
      (t.reqs.map (fun x => x.place)) = [.tracked] ∧ t.openTx = [(la.toNat, r.id)] ∧
      t.rd HOME_FORWARDS = min (2 ^ HOME_FORWARDS.width - 1) (s.rd HOME_FORWARDS + 1) ∧ t.core = s.core := by
  refine completes_homeOrder hacts hreqs hplace hla hopen hfences (fun t hlines hrd hcore => ?_)
  obtain ⟨u, v, hv, hudir, hvreqs, hvtrks, hvopen, hvagents, -, hvrd, horder⟩ :=
    orderReq_of_read hreqs hop hwait hfence hcoh hcached hbroken
  have hent : v.ent r.la = some { e with age := 0 } := by
    have hvdir : v.dir = [{ e with age := 0 }] := by
      rw [hv]
      unfold State.touch
      rw [hudir, hdir]
      simp [hshadow, hentla]
    unfold State.ent
    rw [hvdir]
    simp [hentla, hshadow]
  have hvlive : v.live e.owner = true := (State.live_congr hvagents _).trans hlive
  have hsweep : v.applySweep r.la = v := State.applySweep_of_owned hent hcoarse hmodif hvlive
  have hslot : v.trkFor (s.keyed r) = some 0 := by
    have hreq : v.reqs.any (fun x => x.place == .waitTrk && x.wait == Machine.ordered && x.id != (s.keyed r).id &&
        ((s.keyed r).wait != Machine.ordered || decide (x.order < (s.keyed r).order))) = false := by
      simp [hvreqs, State.keyed, hplace]
    unfold State.trkFor State.freeTrk
    rw [hreq, hvtrks, htrks]
    rfl
  have hforward : v.orderCoherent (s.keyed r) =
      v.openTrk 0 (s.keyed r) .fwdS { e with age := 0 } [(DirEnt.owner { e with age := 0 }, false)] false := by
    unfold State.orderCoherent
    rw [show (s.keyed r).op = .rdS from hop, show v.ent (s.keyed r).la = _ from hent]
    refine (if_pos hmodif).trans ((if_neg howner).trans ?_)
    unfold State.forward
    rw [hslot]
  obtain ⟨⟨gate, hopened⟩, hcount⟩ := State.openTrk_fwdS (e := { e with age := 0 }) (r := s.keyed r) (hvtrks.trans htrks) hvreqs rfl
  rw [horder hsweep, hforward] at hlines hrd
  rw [hopened] at hlines
  simp only [State.lines, Prod.mk.injEq] at hlines
  obtain ⟨h1, h2, h3, -⟩ := hlines
  refine ⟨?_, ?_, ?_, ?_, hcore⟩
  · rw [h2, ← hla]
    rfl
  · rw [h1]
    rfl
  · rw [h3, hvopen, hopen, ← hla]
    rfl
  · rw [hrd (by decide) (by decide) (by decide) (by decide), hcount, hvrd]

theorem completes_snpSlow {s : State} {la : BitVec 37} {k : Trk} (hacts : s.acts pgHOME = true) (htrks : s.trks = [k])
    (hla : k.la = la.toNat) (hslow : k.slow = false) (hsince : k.since + s.rd HOME_SNP_SLOW_LIMIT ≤ s.ao) :
    Completes (.snpSlow la) s fun t => t.trks = [{ k with slow := true }] ∧ bit (t.rd H_INT_STAT pgHOME) I_HOME_SNP_SLOW = true ∧
      t.reqs = s.reqs ∧ t.core = s.core := by
  have hfind : s.trks.find? (fun t => t.la == la.toNat && !t.slow && decide (t.since + s.rd HOME_SNP_SLOW_LIMIT ≤ s.ao)) = some k := by
    simp [htrks, hla, hslow, hsince]
  obtain ⟨t, ht⟩ := exec_answers s (.snpSlow la)
  refine ⟨t, ht, ?_⟩
  have hcore := core_of_exec rfl ht
  have hexec := (State.onBlk_acts _ hacts).symm.trans ht
  rw [hfind] at hexec
  have hmarked : updFirst (fun x => x.slot == k.slot) (fun x => { x with slow := true }) s.trks = [{ k with slow := true }] := by
    simp [htrks, updFirst]
  dsimp only at hexec
  rw [hmarked] at hexec
  obtain rfl := Host.Outcome.next.inj hexec
  obtain ⟨htrks', -, -, hreqs', -⟩ := State.parts_of_body ((State.body_crumb ..).trans (State.body_raise ..))
  refine ⟨htrks', ?_, hreqs', hcore⟩
  rw [State.rd_crumb_ne _ _ _ _ _ (by decide)]
  exact State.bit_raise_same _ _ (by decide)

theorem completes_probeGo {s : State} (hacts : s.acts pgDIRC = true) : Completes .probeGo s fun t =>
    t.rd DIRC_PROBE_DONE = 0 ∧ t.rd DIRC_PROBE_HIT = 0 ∧ t.reqs.length = s.reqs.length + 1 ∧
      (t.reqs.getLast?.map (fun r => (r.op, r.place, r.la, r.intern))) = some (.probe, .home, s.rd DIRC_PROBE_LA, true) ∧
      t.core = s.core := by
  have hexec : exec .probeGo s = .next s.probeGo := (State.onBlk_acts _ hacts).trans rfl
  obtain ⟨u, hu⟩ : ∃ u, u = (s.wr DIRC_PROBE_DONE 0).wr DIRC_PROBE_HIT 0 := ⟨_, rfl⟩
  have hdone : u.rd DIRC_PROBE_DONE = 0 := by
    rw [hu, State.rd_wr_ne _ _ (by decide), State.rd_wr_same]
    rfl
  have hhit : u.rd DIRC_PROBE_HIT = 0 := by
    rw [hu, State.rd_wr_same]
    rfl
  have hreqs : u.reqs = s.reqs := by rw [hu]; rfl
  have hcore := core_of_exec rfl hexec
  have hprobe : s.probeGo = u.homeIntern .probe (s.rd DIRC_PROBE_LA) ((s.regionOf s.openEpoch (s.rd DIRC_PROBE_LA * 64)).getD 0) := by
    rw [hu]
    rfl
  refine ⟨_, hexec, ?_, ?_, ?_, ?_, hcore⟩
  · rw [hprobe]; exact hdone
  · rw [hprobe]; exact hhit
  · rw [hprobe, ← hreqs]
    exact List.length_append
  · rw [hprobe]
    refine (congrArg (Option.map _) List.getLast?_concat).trans ?_
    simp [Req.la]

/-- Settles O14: what the home finds on die decides each order; the report of a slow snoop and the probe are computed. -/
theorem homeAndProbe : Obligations.HomeAndProbe := by
  unfold Obligations.HomeAndProbe
  refine ⟨?_, ?_, ?_, fun s la k => completes_snpSlow, fun s => completes_probeGo⟩
  · intro s la r hacts hreqs hplace hla hop _ hopen hfences hfence hcoh _
    exact completes_homeOrder_rdCur hacts hreqs hplace hla hop hopen hfences hfence hcoh
  · intro s la r hacts hreqs hplace hla hop _ hwait hopen hfences hfence hcoh _ hcached hbroken hdir
    exact completes_homeOrder_new hacts hreqs hplace hla hop hwait hopen hfences hfence hcoh hcached hbroken hdir
  · intro s la r e hacts hreqs hplace hla hop _ hwait hopen hfences hfence hcoh _ hcached hbroken htrks hdir hentla hshadow hcoarse
      hmodif hlive howner
    exact completes_homeOrder_forward hacts hreqs hplace hla hop hwait hopen hfences hfence hcoh hcached hbroken htrks hdir hentla
      hshadow hcoarse hmodif hlive howner

end Sys2Proof.Machine
end

/-! ## O15: region entries and recalls -/

section
namespace Sys2Proof.Machine
open Reg

/-! ### What is staged -/

theorem State.rdNext_stage_same (s : State) (f : Field) (v i x : Nat) : (s.stage f v i x).rdNext f i x = v % 2 ^ f.width := by
  unfold State.rdNext State.stage
  rw [Tab.get?_set_same]
  rfl

theorem State.rdNext_stage_ne (s : State) {f g : Field} (v : Nat) {i x j y : Nat} (h : keyOf g j y ≠ keyOf f i x) :
    (s.stage f v i x).rdNext g j y = s.rdNext g j y := by
  unfold State.rdNext State.stage
  rw [Tab.get?_set_ne _ _ h]
  rfl

/-- Of values staged for one entry of a table, each field's is the one last staged. -/
theorem State.rdNext_stageAll_ne (n : Nat) {g : Field} (l : List (Field × Nat)) (s : State)
    (h : ∀ p ∈ l, keyOf g 0 n ≠ keyOf p.1 0 n) :
    (l.foldl (fun (s : State) (p : Field × Nat) => s.stage p.1 p.2 0 n) s).rdNext g 0 n = s.rdNext g 0 n := by
  induction l generalizing s with
  | nil => rfl
  | cons p l ih =>
    rw [List.foldl_cons, ih _ (fun q hq => h q (List.mem_cons_of_mem _ hq)), State.rdNext_stage_ne _ _ (h p List.mem_cons_self)]

theorem State.rdNext_stageAll (n : Nat) {q : Field × Nat} (l : List (Field × Nat)) (s : State)
    (hdiff : l.Pairwise (fun a b => keyOf a.1 0 n ≠ keyOf b.1 0 n)) (hq : q ∈ l) :
    (l.foldl (fun (s : State) (p : Field × Nat) => s.stage p.1 p.2 0 n) s).rdNext q.1 0 n = q.2 % 2 ^ q.1.width := by
  induction l generalizing s with
  | nil => exact absurd hq List.not_mem_nil
  | cons p l ih =>
    obtain ⟨hp, hl⟩ := List.pairwise_cons.mp hdiff
    rw [List.foldl_cons]
    rcases List.mem_cons.mp hq with rfl | hq
    · rw [State.rdNext_stageAll_ne n l _ hp, State.rdNext_stage_same]
    · exact ih _ hl hq

/-- The fields of a region entry with its values, in the order in which they are staged. -/
def regionStages (e : RegionEnt) : List (Field × Nat) :=
  [(TEN_R_VALID, e.valid), (TEN_R_CLOSED, e.closed), (TEN_R_ISO, e.iso), (TEN_R_UE, e.ue), (TEN_R_LAYOUT, e.layout),
   (TEN_R_MIRROR, e.mirror), (TEN_R_COH, e.coh), (TEN_R_ACCESS, e.access), (TEN_R_PERM_RD, e.prd), (TEN_R_PERM_WR, e.pwr),
   (TEN_R_PERM_BAKE, e.pbake), (TEN_R_TID, e.tid), (TEN_R_BASE, e.base), (TEN_R_SIZE, e.size)]

theorem State.stageRegion_eq (s : State) (n : Nat) (e : RegionEnt) :
    s.stageRegion n e = (regionStages e).foldl (fun (s : State) (p : Field × Nat) => s.stage p.1 p.2 0 n) s := rfl

/-- The fields of one region entry have different places. -/
theorem regionStages_pairwise (e : RegionEnt) (n : Nat) :
    (regionStages e).Pairwise (fun a b => keyOf a.1 0 n ≠ keyOf b.1 0 n) := by
  have hfields : ((regionStages e).map Prod.fst).Pairwise (fun f g => keyOf f 0 0 ≠ keyOf g 0 0 ∧ f.stride = g.stride) := by
    change [TEN_R_VALID, TEN_R_CLOSED, TEN_R_ISO, TEN_R_UE, TEN_R_LAYOUT, TEN_R_MIRROR, TEN_R_COH, TEN_R_ACCESS, TEN_R_PERM_RD,
      TEN_R_PERM_WR, TEN_R_PERM_BAKE, TEN_R_TID, TEN_R_BASE, TEN_R_SIZE].Pairwise _
    decide
  refine (List.pairwise_map.mp hfields).imp ?_
  rintro a b ⟨hkey, hstride⟩ h
  apply hkey
  unfold keyOf at h ⊢
  rw [hstride] at h
  omega

theorem State.rdNext_stageRegion (s : State) (n : Nat) {e : RegionEnt} {q : Field × Nat} (hq : q ∈ regionStages e) :
    (s.stageRegion n e).rdNext q.1 0 n = q.2 % 2 ^ q.1.width := by
  rw [State.stageRegion_eq]
  exact State.rdNext_stageAll n _ s (regionStages_pairwise e n) hq

theorem State.stageRegion_holdBuf (s : State) (n : Nat) (e : RegionEnt) : (s.stageRegion n e).holdBuf = s.holdBuf := by
  rw [State.stageRegion_eq]
  exact foldl_keeps State.holdBuf _ (fun _ _ => State.stage_holdBuf ..) _ _

theorem State.stageRegion_cfgOpen (s : State) (n : Nat) (e : RegionEnt) : (s.stageRegion n e).cfgOpen = s.cfgOpen := by
  rw [State.stageRegion_eq]
  exact foldl_keeps State.cfgOpen _ (fun _ _ => State.stage_cfgOpen ..) _ _

/-! ### The commands -/

theorem exec_regionWord0Write {s : State} {n : BitVec 12} {val : Word} (hacts : s.acts pgTEN = true) :
    exec (.regionWord0Write n val) s = .next (s.regionWord0 n.toNat val.toNat) := (State.onBlk_acts _ hacts).trans rfl

theorem State.regionWord0_of_ok {s : State} {n val : Nat} {w1 : Word} (hbuf : s.holdBuf = some (n, w1))
    (hcheck : s.regionCheck n (regionOfWords val w1.toNat) = 0) :
    s.regionWord0 n val = ({ s with holdBuf := none } : State).stageRegion n (regionOfWords val w1.toNat) := by
  unfold State.regionWord0
  rw [hbuf]
  dsimp only
  rw [if_pos rfl]
  split
  · rfl
  · next h => exact absurd hcheck h

/-- A refused entry: its number and the first check that fails, a configuration error and its cause. -/
theorem State.regionWord0_of_fail {s : State} {n val : Nat} {w1 : Word} (hbuf : s.holdBuf = some (n, w1))
    (hcheck : s.regionCheck n (regionOfWords val w1.toNat) ≠ 0) :
    s.regionWord0 n val = (((({ s with holdBuf := none } : State).wr TEN_REG_ERR_REGION n).wr TEN_REG_ERR_REASON
      (s.regionCheck n (regionOfWords val w1.toNat))).cfgErr pgTEN (0x200 + n * 0x20 / 0x1000) (n * 0x20 % 0x1000)).raise
        pgTEN I_TEN_REG_REJECT := by
  unfold State.regionWord0
  rw [hbuf]
  dsimp only
  rw [if_pos rfl]
  split
  · next h => exact absurd h hcheck
  · rfl

theorem bits_lt (v lo w : Nat) : bits v lo w < 2 ^ w := Nat.mod_lt _ (Nat.two_pow_pos w)

theorem regionCheck_lt (s : State) (n : Nat) (e : RegionEnt) : s.regionCheck n e < 2 ^ 4 := by
  unfold State.regionCheck
  dsimp only
  repeat' split
  all_goals decide

theorem State.rd_cfgErr_same (s : State) (p w o : Nat) : (s.cfgErr p w o).rd H_CFG_ERR p = 1 := by
  unfold State.cfgErr
  dsimp only
  rw [State.rd_raise_ne _ _ _ (keyOf_header_ne p rfl rfl (by decide)), State.rd_wr_same]
  rfl

theorem State.rd_cfgErr_ne (s : State) {p : Nat} (w o : Nat) {f : Field} {i x : Nat} (hstat : keyOf f i x ≠ keyOf H_INT_STAT p 0)
    (herr : keyOf f i x ≠ keyOf H_CFG_ERR p 0) (hpage : keyOf f i x ≠ keyOf H_FIRST_WPAGE p 0)
    (hoff : keyOf f i x ≠ keyOf H_FIRST_OFFSET p 0) : (s.cfgErr p w o).rd f i x = s.rd f i x := by
  unfold State.cfgErr
  dsimp only
  rw [State.rd_raise_ne _ _ _ hstat, State.rd_wr_ne _ _ herr]
  split
  · rw [State.rd_wr_ne _ _ hoff, State.rd_wr_ne _ _ hpage]
  · rfl

theorem State.cfgOpen_cfgErr (s : State) (p w o : Nat) : (s.cfgErr p w o).cfgOpen = s.cfgOpen := by
  unfold State.cfgErr
  dsimp only
  rw [State.cfgOpen_raise, State.cfgOpen_wr _ _ _ _ _ rfl]
  split
  · rw [State.cfgOpen_wr _ _ _ _ _ rfl, State.cfgOpen_wr _ _ _ _ _ rfl]
  · rfl

/-- Settles O15: a word of an entry is held, or staged field by field, or refused with its reason; a recall is begun and ended. -/
theorem regionTable : Obligations.RegionTable := by
  unfold Obligations.RegionTable
  refine ⟨?_, ?_, ?_, ?_, ?_⟩
  · intro s n val hacts
    have hword : s.regionWord1 n.toNat val.toNat = { s with holdBuf := some (n.toNat, val) } := by
      unfold State.regionWord1
      rw [BitVec.ofNat_toNat, BitVec.setWidth_eq]
    refine ⟨_, (State.onBlk_acts _ hacts).trans (congrArg Host.Outcome.next hword), rfl, rfl, rfl, rfl⟩
  · intro s n val w1 hacts hbuf hcheck
    have hexec := exec_regionWord0Write (n := n) (val := val) hacts
    rw [State.regionWord0_of_ok hbuf hcheck] at hexec
    obtain ⟨u, hu⟩ : ∃ u : State, u = { s with holdBuf := none } := ⟨_, rfl⟩
    have hbuf' : u.holdBuf = none := by rw [hu]
    have hopen : u.cfgOpen = s.cfgOpen := by rw [hu]
    rw [← hu] at hexec
    obtain ⟨e, he⟩ : ∃ e, e = regionOfWords val.toNat w1.toNat := ⟨_, rfl⟩
    have hvalid : e.valid = bits val.toNat 0 1 := congrArg RegionEnt.valid he
    have htid : e.tid = bits val.toNat 16 8 := congrArg RegionEnt.tid he
    have hbase : e.base = bits w1.toNat 0 15 := congrArg RegionEnt.base he
    have hsize : e.size = bits w1.toNat 16 15 := congrArg RegionEnt.size he
    rw [← he] at hexec
    rw [← hvalid, ← htid, ← hbase, ← hsize]
    have hnext {q : Field × Nat} (hq : q ∈ regionStages e) :=
      State.rdNext_stageRegion u n.toNat hq
    refine ⟨_, hexec, (State.stageRegion_holdBuf ..).trans hbuf', (hnext (q := (TEN_R_VALID, e.valid)) (by simp [regionStages])).trans (Nat.mod_eq_of_lt ?_),
      (hnext (q := (TEN_R_TID, e.tid)) (by simp [regionStages])).trans (Nat.mod_eq_of_lt ?_),
      (hnext (q := (TEN_R_BASE, e.base)) (by simp [regionStages])).trans (Nat.mod_eq_of_lt ?_),
      (hnext (q := (TEN_R_SIZE, e.size)) (by simp [regionStages])).trans (Nat.mod_eq_of_lt ?_),
      (State.stageRegion_cfgOpen ..).trans hopen, core_of_exec rfl hexec⟩
    · exact hvalid.trans_lt (bits_lt ..)
    · exact htid.trans_lt (bits_lt ..)
    · exact hbase.trans_lt (bits_lt ..)
    · exact hsize.trans_lt (bits_lt ..)
  · intro s n val w1 hacts hbuf hcheck
    have hexec := exec_regionWord0Write (n := n) (val := val) hacts
    rw [State.regionWord0_of_fail hbuf hcheck] at hexec
    have hlt := regionCheck_lt s n.toNat (regionOfWords val.toNat w1.toNat)
    generalize s.regionCheck n.toNat (regionOfWords val.toNat w1.toNat) = k at hexec hcheck hlt ⊢
    obtain ⟨u, hu⟩ : ∃ u : State, u = (({ s with holdBuf := none } : State).wr TEN_REG_ERR_REGION n.toNat).wr TEN_REG_ERR_REASON k :=
      ⟨_, rfl⟩
    have hexec : exec (.regionWord0Write n val) s = .next ((u.cfgErr pgTEN (0x200 + n.toNat * 0x20 / 0x1000)
        (n.toNat * 0x20 % 0x1000)).raise pgTEN I_TEN_REG_REJECT) := by
      rw [hu]
      exact hexec
    have hregion : u.rd TEN_REG_ERR_REGION = n.toNat := by
      rw [hu, State.rd_wr_ne _ _ (by decide), State.rd_wr_same]
      exact Nat.mod_eq_of_lt n.isLt
    have hreason : u.rd TEN_REG_ERR_REASON = k := by
      rw [hu, State.rd_wr_same]
      exact Nat.mod_eq_of_lt hlt
    have hbuf' : u.holdBuf = none := by rw [hu]; rfl
    have hstaged : u.cfgStaged = s.cfgStaged := by rw [hu]; rfl
    have hopen : u.cfgOpen = s.cfgOpen := by rw [hu]; rfl
    have hbody := (State.body_raise _ pgTEN I_TEN_REG_REJECT).trans
      (State.body_cfgErr u pgTEN (0x200 + n.toNat * 0x20 / 0x1000) (n.toNat * 0x20 % 0x1000))
    refine ⟨_, hexec, (congrArg State.holdBuf hbody :).trans hbuf', (congrArg State.cfgStaged hbody :).trans hstaged,
      (State.cfgOpen_raise ..).trans ((State.cfgOpen_cfgErr ..).trans hopen), ?_, ?_, State.bit_raise_same _ _ (by decide), ?_,
      core_of_exec rfl hexec⟩
    · rw [State.rd_raise_ne _ _ _ (by decide), State.rd_cfgErr_ne _ _ _ (by decide) (by decide) (by decide) (by decide), hregion]
    · rw [State.rd_raise_ne _ _ _ (by decide), State.rd_cfgErr_ne _ _ _ (by decide) (by decide) (by decide) (by decide), hreason]
    · rw [State.rd_raise_ne _ _ _ (by decide), State.rd_cfgErr_same]
  · intro s hacts hclosed hpending hbusy hscan
    have hgo : s.recallGo = ({ s with scan := some { Scan.idle with regionRc := some (s.rd TEN_RECALL_REGION, dirSets) } } : State).wr
        TEN_RECALL_BUSY 1 := by
      unfold State.recallGo
      refine (if_pos (by simp [hclosed, hpending, hbusy, hscan])).trans ?_
      rw [hscan]
      rfl
    have hexec : exec .recallGo s = .next s.recallGo := (State.onBlk_acts _ hacts).trans rfl
    have hcore := core_of_exec rfl hexec
    rw [hgo] at hexec hcore
    exact ⟨_, hexec, (State.rd_wr_same ..).trans rfl, rfl, hcore⟩
  · intro s c n hacts hscan hregion hn hidle
    obtain ⟨t, ht⟩ := exec_answers s .recallDone
    have hexec := (State.onBlk_acts _ hacts).symm.trans ht
    have hcore := core_of_exec rfl ht
    rw [hscan] at hexec
    dsimp only at hexec
    rw [hregion] at hexec
    obtain ⟨u, hu⟩ : ∃ u : State, u = { s with scan := { c with regionRc := none }.rest } := ⟨_, rfl⟩
    have hrest : u.scan = { c with regionRc := none }.rest := by rw [hu]
    replace hexec : ((if (decide (n = 4096) || s.reqs.any (fun r => r.op == .recall && r.region == n)) = true then .next s
        else .next ((u.wr TEN_RECALL_BUSY 0).raise pgTEN I_TEN_RECALL_DONE)) : Host.Outcome State Fault Refusal) = .next t := by
      rw [hu]
      exact hexec
    rw [if_neg (by simp [hn, hidle])] at hexec
    obtain rfl := Host.Outcome.next.inj hexec
    refine ⟨_, ht, ?_, ?_, State.bit_raise_same _ _ (by decide), hcore⟩
    · rw [State.rd_raise_ne _ _ _ (by decide), State.rd_wr_same]
      rfl
    · exact (congrArg State.scan ((State.body_raise ..).trans (State.body_wr ..)) :).trans hrest

end Sys2Proof.Machine
end

/-! ## O16: the resolution of a request -/

section
namespace Sys2Proof.Machine
open Reg

/-! ### What the home's transactions leave -/

/-- All of the state that the home, its queues, the pair and the moves that its transactions complete do not hold. -/
def State.apart (s : State) : State :=
  { s.body with
    freeCtr := 0, reqs := [], nextId := 0, nextOrder := 0, dir := [], frames := [], trks := [], openTx := [], owed := [], broken := [],
    queues := [], twin := Twin.fresh, moves := [] }

theorem State.apart_of_body {s t : State} (h : t.body = s.body) : t.apart = s.apart := by
  unfold State.apart
  rw [h]

@[simp] theorem State.apart_with (s : State) (reqs : List Req) (nextId nextOrder : Nat) (dir : List DirEnt) (frames : List (Nat × Bool))
    (trks : List Trk) (openTx : List (Nat × Nat)) (owed : List (Nat × Nat × Nat × Nat)) (broken : List Broken) (queues : Tab Queue)
    (twin : Twin) (moves : Tab Move) : State.apart { s with
      reqs := reqs, nextId := nextId, nextOrder := nextOrder, dir := dir, frames := frames, trks := trks, openTx := openTx, owed := owed,
      broken := broken, queues := queues, twin := twin, moves := moves } = s.apart := rfl

@[simp] theorem State.apart_foldl {β : Type} (f : State → β → State) (h : ∀ a b, (f a b).apart = a.apart) (l : List β) (s : State) :
    (l.foldl f s).apart = s.apart := foldl_keeps State.apart f h l s

@[simp] theorem State.apart_bump (s : State) (f : Field) (i x : Nat) : (s.bump f i x).apart = s.apart :=
  State.apart_of_body (State.body_bump ..)

@[simp] theorem State.apart_raise (s : State) (p c : Nat) : (s.raise p c).apart = s.apart := State.apart_of_body (State.body_raise ..)

@[simp] theorem State.apart_sample (s : State) (p g : Nat) (v : Int) : (s.sample p g v).apart = s.apart :=
  State.apart_of_body (State.body_sample ..)

@[simp] theorem State.apart_crumb (s : State) (p c v : Nat) (l : List Nat) : (s.crumb p c v l).apart = s.apart :=
  State.apart_of_body (State.body_crumb ..)

theorem State.body_sendTag (s : State) (p : Nat) (m : Msg) (t j : Nat) (tag : Option RspTag) : (s.send p m t j tag).body = s.body := by
  unfold State.send
  dsimp only
  split
  · exact (State.body_pump ..).trans rfl
  · split
    · exact State.body_bump ..
    · rfl

@[simp] theorem State.apart_send (s : State) (p : Nat) (m : Msg) (t j : Nat) (tag : Option RspTag) : (s.send p m t j tag).apart = s.apart :=
  State.apart_of_body (State.body_sendTag ..)

@[simp] theorem State.apart_setPort (s : State) (p : Nat) (v : Port) : (s.setPort p v).apart = s.apart := rfl

@[simp] theorem State.apart_out (s : State) (o : Out) : (s.out o).apart = s.apart := rfl

@[simp] theorem State.apart_free (s : State) : s.free.2.apart = s.apart := rfl

@[simp] theorem State.apart_updReq (s : State) (rid : Nat) (f : Req → Req) : (s.updReq rid f).apart = s.apart := rfl

@[simp] theorem State.apart_dropReq (s : State) (rid : Nat) : (s.dropReq rid).apart = s.apart := rfl

@[simp] theorem State.apart_nextOrd (s : State) : (s.nextOrd).2.apart = s.apart := rfl

@[simp] theorem State.apart_setMove (s : State) (n : Nat) (v : Move) : (s.setMove n v).apart = s.apart := rfl

@[simp] theorem State.apart_setQueue (s : State) (q : Nat) (v : Queue) : (s.setQueue q v).apart = s.apart := rfl

@[simp] theorem State.apart_enqueue (s : State) (q : Nat) (e : Entry) : (s.enqueue q e).apart = s.apart := rfl

@[simp] theorem State.apart_readLine (s : State) (r : Req) (why : ReadFor) (key : Option (BitVec 512)) :
    (s.readLine r why key).apart = s.apart := rfl

@[simp] theorem State.apart_openLine (s : State) (la rid : Nat) : (s.openLine la rid).apart = s.apart := rfl

@[simp] theorem State.apart_closeLine (s : State) (la : Nat) : (s.closeLine la).apart = s.apart := rfl

@[simp] theorem State.apart_sampleOut (s : State) (r : Req) : (s.sampleOut r).apart = s.apart := by
  unfold State.sampleOut
  repeat' split
  all_goals simp

@[simp] theorem State.apart_sealedData (s : State) (ep region : Nat) (key : Option (BitVec 512)) (data : BitVec 512) :
    (s.sealedData ep region key data).2.apart = s.apart := by
  unfold State.sealedData
  repeat' split
  all_goals simp

@[simp] theorem State.apart_writeLine (s : State) (off region tid job ep : Nat) (req : Option Nat) (data : BitVec 512) (poison : Bool) (key : Option (BitVec 512)) :
    (s.writeLine off region tid job ep req data poison key).apart = s.apart := by
  unfold State.writeLine
  simp

@[simp] theorem State.apart_sampleDir (s : State) : (s.sampleDir).apart = s.apart := by
  unfold State.sampleDir
  simp

@[simp] theorem State.apart_putEnt (s : State) (la : Nat) (new : Option DirEnt) : (s.putEnt la new).apart = s.apart := by
  unfold State.putEnt
  simp

@[simp] theorem State.apart_writeSet (s : State) (set : Nat) : (s.writeSet set).apart = s.apart := by
  unfold State.writeSet
  refine State.apart_foldl _ (fun a i => ?_) _ _
  exact State.apart_enqueue ..

@[simp] theorem State.apart_fillFrame (s : State) (set : Nat) : (s.fillFrame set).apart = s.apart := by
  unfold State.fillFrame
  dsimp only
  repeat' split
  all_goals simp

@[simp] theorem State.apart_readSet (s : State) (set tid job ep : Nat) (rid : Option Nat) :
    (s.readSet set tid job ep rid).apart = s.apart := by
  unfold State.readSet
  refine State.apart_foldl _ (fun a i => ?_) _ _
  exact State.apart_enqueue ..

@[simp] theorem State.apart_setEnt (s : State) (la : Nat) (new : Option DirEnt) : (s.setEnt la new).apart = s.apart := by
  unfold State.setEnt
  dsimp only
  repeat' split
  all_goals simp

@[simp] theorem State.apart_twSend (s : State) (m : Msg) (tid job : Nat) : (s.twSend m tid job).apart = s.apart := by
  unfold State.twSend
  repeat' split
  all_goals simp

@[simp] theorem State.apart_twSeq (s : State) (opc : Nat) (fields : List (Nat × Nat × Nat)) (data : List Slot) (tid job : Nat) :
    (s.twSeq opc fields data tid job).2.apart = s.apart := by
  unfold State.twSeq
  dsimp only
  repeat' split
  all_goals simp

@[simp] theorem State.apart_twDelta (s : State) (la region : Nat) (e : Option DirEnt) (pend : Bool) (tid job : Nat) :
    (s.twDelta la region e pend tid job).2.apart = s.apart := by
  unfold State.twDelta
  repeat' split
  all_goals simp

@[simp] theorem State.apart_cxlAnswer (s : State) (r : Req) (status grant : Nat) (data : Option (BitVec 512)) (load : Nat) :
    (s.cxlAnswer r status grant data load).apart = s.apart := by
  unfold State.cxlAnswer
  dsimp only
  repeat' split
  all_goals simp

@[simp] theorem State.apart_respond (s : State) (r : Req) (status grant : Nat) (data : Option (BitVec 512)) (next : Nat) (load : Option Nat) :
    (s.respond r status grant data next load).apart = s.apart := by
  unfold State.respond
  repeat' split
  all_goals simp

@[simp] theorem State.apart_finish (s : State) (rid status grant : Nat) (data : Option (BitVec 512)) (next : Nat) (load : Option Nat) :
    (s.finish rid status grant data next load).apart = s.apart := by
  unfold State.finish
  repeat' split
  all_goals simp

@[simp] theorem State.apart_finishGated (s : State) (gate : Option Nat) (rid status grant : Nat) (data : Option (BitVec 512)) :
    (s.finishGated gate rid status grant data).apart = s.apart := by
  unfold State.finishGated
  repeat' split
  all_goals simp

@[simp] theorem State.apart_serveMem (s : State) (r : Req) (grant : Nat) (change : Bool) (new : Option DirEnt) :
    (s.serveMem r grant change new).apart = s.apart := by
  unfold State.serveMem
  repeat' split
  all_goals simp

@[simp] theorem State.apart_serveWrite (s : State) (r : Req) : (s.serveWrite r).apart = s.apart := by
  unfold State.serveWrite
  simp

@[simp] theorem State.apart_serveMerge (s : State) (r : Req) : (s.serveMerge r).apart = s.apart := by
  unfold State.serveMerge
  simp

@[simp] theorem State.apart_dropHolder (s : State) (r : Req) (new : Option DirEnt) : (s.dropHolder r new).apart = s.apart := by
  unfold State.dropHolder
  simp

@[simp] theorem State.apart_storeAnswer (s : State) (t : Trk) (d : BitVec 512) (poison : Bool) :
    (s.storeAnswer t d poison).apart = s.apart := by
  unfold State.storeAnswer
  repeat' split
  all_goals simp

@[simp] theorem State.apart_serveFwd (s : State) (t : Trk) : (s.serveFwd t).apart = s.apart := by
  unfold State.serveFwd
  repeat' split
  all_goals simp

@[simp] theorem State.apart_holderGone (s : State) (t : Trk) (aid : Nat) : (s.holderGone t aid).apart = s.apart := by
  unfold State.holderGone
  repeat' split
  all_goals simp

@[simp] theorem State.apart_absorb (s : State) (t : Trk) (r : Req) : (s.absorb t r).apart = s.apart := by
  unfold State.absorb
  repeat' split
  all_goals simp

@[simp] theorem State.apart_freeBroken (s : State) (set : Nat) : (s.freeBroken set).apart = s.apart := by
  unfold State.freeBroken
  repeat' split
  all_goals simp

@[simp] theorem State.apart_markSettled (s : State) (la : Nat) : (s.markSettled la).apart = s.apart := by
  unfold State.markSettled
  simp

@[simp] theorem State.apart_wakeSet (s : State) (set : Nat) : (s.wakeSet set).apart = s.apart := by
  unfold State.wakeSet
  repeat' split
  all_goals simp

@[simp] theorem State.apart_endReq (s : State) (rid : Nat) : (s.endReq rid).apart = s.apart := by
  unfold State.endReq
  repeat' split
  all_goals simp

@[simp] theorem State.apart_readOwn (s : State) (r : Req) : (s.readOwn r).apart = s.apart := by
  unfold State.readOwn
  simp

@[simp] theorem State.apart_migrSend (s : State) (nid : Nat) (m : Msg) : (s.migrSend nid m).apart = s.apart := by
  unfold State.migrSend
  repeat' split
  all_goals simp

@[simp] theorem State.apart_migrComplete (s : State) (n : Nat) : (s.migrComplete n).apart = s.apart := by
  unfold State.migrComplete
  dsimp only
  repeat' split
  all_goals simp

@[simp] theorem State.apart_migrRead (s : State) (r : Req) : (s.migrRead r).apart = s.apart := by
  unfold State.migrRead
  dsimp only
  repeat' split
  all_goals simp

@[simp] theorem State.apart_forwarded (s : State) (r : Req) : (s.forwarded r).apart = s.apart := by
  unfold State.forwarded
  repeat' split
  all_goals simp

@[simp] theorem State.apart_bracket (s : State) (t : Trk) (r : Req) : (s.bracket t r).apart = s.apart := by
  unfold State.bracket
  dsimp only
  repeat' split
  all_goals simp

@[simp] theorem State.apart_endTrk (s : State) (t : Trk) : (s.endTrk t).apart = s.apart := by
  unfold State.endTrk
  dsimp only
  repeat' split
  all_goals simp

@[simp] theorem State.apart_answered (s : State) (t : Trk) : (s.answered t).apart = s.apart := by
  unfold State.answered
  repeat' split
  all_goals simp

@[simp] theorem State.apart_homeArrive (s : State) (rid : Nat) : (s.homeArrive rid).apart = s.apart := by
  unfold State.homeArrive
  split
  · rfl
  · dsimp only
    split
    · split
      · simp
      · split
        · exact (State.apart_answered ..).trans ((State.apart_bump ..).trans ((State.apart_bump _ HOME_CONFLICT_WAITS 0 0).trans rfl))
        · exact (State.apart_bump ..).trans rfl
    · refine (State.apart_sample ..).trans ?_
      split
      · exact (State.apart_bump ..).trans rfl
      · rfl

@[simp] theorem State.apart_endAt3 (s : State) (rid status next : Nat) : (s.endAt3 rid status next).apart = s.apart := by
  unfold State.endAt3
  repeat' split
  all_goals simp

@[simp] theorem State.apart_resolved (s : State) (r : Req) (pga : Nat) : (s.resolved r pga).apart = s.apart := by
  unfold State.resolved
  repeat' split
  all_goals simp

@[simp] theorem State.apart_withPga (s : State) (r : Req) (pga : Nat) : (s.withPga r pga).apart = s.apart := by
  unfold State.withPga
  repeat' split
  all_goals simp

/-! ### The end of a request at stage 3 -/

theorem State.lines_respond (s : State) (r : Req) (status grant : Nat) (data : Option (BitVec 512)) (next : Nat) (load : Option Nat) :
    (s.respond r status grant data next load).lines = s.lines := by
  have hcxl (v : Nat) : (s.cxlAnswer r status grant data v).lines = s.lines := by
    unfold State.cxlAnswer
    dsimp only
    split
    · split <;> rfl
    · split
      all_goals exact (State.lines_of_body (State.body_crumb ..)).trans rfl
  unfold State.respond
  dsimp only
  split
  · rfl
  · split
    · exact State.lines_of_body (State.body_bump ..)
    · split
      · split
        · exact hcxl _
        · exact State.lines_of_body (State.body_bump ..)
      · split
        · split
          all_goals exact State.lines_of_body (State.body_sendTag ..)
        · exact State.lines_of_body (State.body_sendTag ..)

theorem State.lines_sampleOut (s : State) (r : Req) : (s.sampleOut r).lines = s.lines := by
  unfold State.sampleOut
  dsimp only
  split
  · exact State.lines_of_body (State.body_sample ..)
  · exact State.lines_of_body ((State.body_sample ..).trans (State.body_sample ..))

theorem State.req_congr {s t : State} (h : t.lines = s.lines) (rid : Nat) : t.req rid = s.req rid := by
  have hreqs : t.reqs = s.reqs := congrArg Prod.fst h
  unfold State.req
  rw [hreqs]

theorem State.dir_of_lines {s t : State} (h : t.lines = s.lines) : t.dir = s.dir := congrArg (fun p => p.2.2.2) h

/-- A request that ends is no longer among the node's, and the directory stays. -/
theorem State.finish_ends (s : State) (rid status grant : Nat) (data : Option (BitVec 512)) (next : Nat) (load : Option Nat) :
    (s.finish rid status grant data next load).req rid = none ∧ (s.finish rid status grant data next load).dir = s.dir := by
  unfold State.finish
  split
  · next hnone => exact ⟨hnone, rfl⟩
  · next r _ =>
    have hout := State.lines_sampleOut ((s.respond r status grant data next load).dropReq rid) r
    refine ⟨(State.req_congr hout rid).trans ?_, (State.dir_of_lines hout).trans
      (State.dir_of_lines (State.lines_respond s r status grant data next load) :)⟩
    simp [State.req, State.dropReq]

theorem State.endAt3_ends (s : State) (rid status next : Nat) :
    (s.endAt3 rid status next).req rid = none ∧ (s.endAt3 rid status next).dir = s.dir := by
  unfold State.endAt3
  dsimp only
  obtain ⟨hreq, hdir⟩ := State.finish_ends
    (if status = stNomap then s.bump TEN_NOMAP_CNT else if status = stDenied then s.bump TEN_DENIED_CNT else s) rid status 0 none next none
  refine ⟨hreq, hdir.trans ?_⟩
  split
  · exact State.dir_of_lines (State.lines_of_body (State.body_bump ..))
  · split
    · exact State.dir_of_lines (State.lines_of_body (State.body_bump ..))
    · rfl

/-! ### Clauses 1 and 2 -/

theorem exec_resolve {s : State} {r : Req} (hacts : s.acts pgTEN = true) (hreq : s.req r.id = some r) (hplace : r.place = .resolving)
    (hop : r.op = .rdS) (has1 : r.as1 = false) (hwaits : s.resolveWaits r = false) (hover : s.overrideOf r.addr = none) :
    exec (.resolve r.id) s = .next ((s.use [pgTEN]).resolved r r.addr) := by
  have hmoves : (s.use [pgTEN]).moves = s.moves := (congrArg State.moves (State.body_use s [pgTEN]) :)
  have hover' : (s.use [pgTEN]).overrideOf r.addr = none := by
    unfold State.overrideOf
    rw [hmoves]
    exact hover
  have hresolve : s.resolve r = (s.use [pgTEN]).resolved r r.addr := by
    unfold State.resolve State.withPga
    rw [hop, hover']
    exact if_neg (by simp [has1])
  refine (State.onBlk_acts _ hacts).trans ?_
  rw [hreq]
  exact (if_neg (by simp [hplace, hwaits])).trans (congrArg Host.Outcome.next hresolve)

theorem State.req_updReq (s : State) (rid : Nat) {f : Req → Req} (hf : ∀ x, (f x).id = x.id) :
    (s.updReq rid f).req rid = (s.req rid).map f := by
  unfold State.req
  rw [State.updReq_reqs]
  exact find?_updFirst _ f (fun x => by rw [hf]) _

/-- A request that arrives at a home without trackers waits there. -/
theorem State.req_homeArrive {s : State} {rid : Nat} {r : Req} (hreq : s.req rid = some r) (htrks : s.trks = []) :
    ∃ n, (s.homeArrive rid).req rid = some { r with place := .home, order := n } := by
  refine ⟨s.nextOrd.1, ?_⟩
  unfold State.homeArrive
  rw [hreq, htrks]
  dsimp only [List.find?_nil]
  rw [State.req_congr (State.lines_of_body (State.body_sample ..))]
  have hupd : (s.nextOrd.2.updReq rid (fun r => { r with place := .home, order := s.nextOrd.1 })).req rid =
      some { r with place := .home, order := s.nextOrd.1 } := by
    refine (State.req_updReq _ _ (fun _ => by rfl)).trans ?_
    exact congrArg (Option.map _) hreq
  split
  · rw [State.req_congr (State.lines_of_body (State.body_bump ..))]
    exact hupd
  · exact hupd

theorem completes_resolve {s : State} {r : Req} {n : Nat} (hacts : s.acts pgTEN = true) (hreq : s.req r.id = some r)
    (hplace : r.place = .resolving) (hop : r.op = .rdS) (has1 : r.as1 = false) (hwaits : s.resolveWaits r = false)
    (hover : s.overrideOf r.addr = none) (hok : okOf ((s.use [pgTEN]).tenCheck r r.addr) = some n) (htrks : s.trks = []) :
    Completes (.resolve r.id) s fun t =>
      (t.req r.id).map (fun x => (x.place, x.region, x.pga, x.off)) = some (.home, n, r.addr, pgaOff r.addr) ∧ t.core = s.core := by
  have hexec := exec_resolve hacts hreq hplace hop has1 hwaits hover
  have hcheck : (s.use [pgTEN]).tenCheck r r.addr = .ok n := by
    cases hc : (s.use [pgTEN]).tenCheck r r.addr with
    | error st => rw [hc] at hok; exact absurd hok (by simp [okOf])
    | ok m => rw [hc] at hok; exact congrArg Except.ok (Option.some.inj hok)
  have hlines := State.lines_of_body (State.body_use s [pgTEN])
  have hresolved : (s.use [pgTEN]).resolved r r.addr =
      ((s.use [pgTEN]).updReq r.id (fun x => { x with pga := r.addr, off := pgaOff r.addr, region := n })).homeArrive r.id := by
    unfold State.resolved
    rw [hcheck]
  have hupd : ((s.use [pgTEN]).updReq r.id (fun x => { x with pga := r.addr, off := pgaOff r.addr, region := n })).req r.id =
      some { r with pga := r.addr, off := pgaOff r.addr, region := n } := by
    rw [State.req_updReq _ _ (fun _ => by rfl), State.req_congr hlines, hreq]
    rfl
  have hnone : ((s.use [pgTEN]).updReq r.id (fun x => { x with pga := r.addr, off := pgaOff r.addr, region := n })).trks = [] :=
    (congrArg (fun p => p.2.1) hlines :).trans htrks
  obtain ⟨k, hk⟩ := State.req_homeArrive hupd hnone
  refine ⟨_, hexec, ?_, core_of_exec rfl hexec⟩
  rw [hresolved, hk]
  rfl

theorem completes_resolve_denied {s : State} {r : Req} {st : Nat} (hacts : s.acts pgTEN = true) (hreq : s.req r.id = some r)
    (hplace : r.place = .resolving) (hop : r.op = .rdS) (has1 : r.as1 = false) (hwaits : s.resolveWaits r = false)
    (hover : s.overrideOf r.addr = none) (herr : errorOf ((s.use [pgTEN]).tenCheck r r.addr) = some st) :
    Completes (.resolve r.id) s fun t => t.req r.id = none ∧ t.dir = s.dir ∧ t.core = s.core := by
  have hexec := exec_resolve hacts hreq hplace hop has1 hwaits hover
  have hcheck : (s.use [pgTEN]).tenCheck r r.addr = .error st := by
    cases hc : (s.use [pgTEN]).tenCheck r r.addr with
    | error e => rw [hc] at herr; exact congrArg Except.error (Option.some.inj herr)
    | ok m => rw [hc] at herr; exact absurd herr (by simp [errorOf])
  have hresolved : (s.use [pgTEN]).resolved r r.addr =
      (s.use [pgTEN]).endAt3 r.id st (if st = stNomap then (s.use [pgTEN]).nextNid r r.addr else nidNone) := by
    unfold State.resolved
    rw [hcheck]
  obtain ⟨hnone, hdir⟩ := State.endAt3_ends (s.use [pgTEN]) r.id st (if st = stNomap then (s.use [pgTEN]).nextNid r r.addr else nidNone)
  refine ⟨_, hexec, ?_, ?_, core_of_exec rfl hexec⟩
  · rw [hresolved]
    exact hnone
  · rw [hresolved]
    exact hdir.trans (State.dir_of_lines (State.lines_of_body (State.body_use ..)))

/-! ### Clauses 3 and 4: the translation cache -/

theorem State.windows_use (s : State) (l : List Nat) : (s.use l).pwr.windows = s.pwr.windows := by
  have hpwr (u : State) (p st : Nat) : (u.setPwr p st).pwr.windows = u.pwr.windows := by
    unfold State.setPwr State.unpark
    dsimp only
    repeat' split
    all_goals rfl
  have hfold : (l.foldl (fun (s : State) p => if s.rd H_PWR_NOW p = 0 then s else s.setPwr p 0) s).pwr.windows = s.pwr.windows := by
    refine foldl_keeps (fun u : State => u.pwr.windows) _ (fun a p => ?_) _ _
    split
    · rfl
    · exact hpwr ..
  exact Eq.trans rfl hfold

/-- With no window passed, the translation unit's wake leaves its caches. -/
theorem State.tc_useXlat {s : State} (h : s.pwr.windows = 0) : s.useXlat.tc = s.tc := by
  have htc : (s.use [pgXLAT]).tc = s.tc := (congrArg State.tc (State.body_use s [pgXLAT]) :)
  unfold State.useXlat State.windowsPassed
  rw [State.windows_use, h]
  exact htc

/-- Which roots a pending commit changes. -/
def State.roots (s : State) : Bool × List Nat := (s.commitPending, s.rootChanged)

theorem State.roots_of_body {s t : State} (h : t.body = s.body) : t.roots = s.roots :=
  have part : t.body.roots = s.body.roots := congrArg State.roots h
  part

theorem State.roots_windowVisit (s : State) (l : Leaf) : (s.windowVisit l).roots = s.roots := by
  have hpush (u : State) (l : Leaf) : (u.hpqPush l).roots = u.roots := by
    have hwords (v : State) (q : List (Nat × Nat)) :
        (q.foldl (fun (s : State) x => s.wr XLAT_HPQ_W x.2 0 (s.hpqHead * 4 + x.1)) v).roots = v.roots :=
      foldl_keeps State.roots _ (fun _ _ => State.roots_of_body (State.body_wr ..)) _ _
    unfold State.hpqPush
    dsimp only
    rw [State.roots_of_body (State.body_sample ..), State.roots_of_body (State.body_raise ..)]
    exact hwords ..
  unfold State.windowVisit
  extract_lets hot l1 isHot s1 l2 l3
  have h1 : s1.roots = s.roots := by
    unfold s1
    split
    · split
      · exact State.roots_of_body (State.body_bump ..)
      · exact hpush ..
    · rfl
  exact h1

theorem State.roots_useXlat (s : State) : s.useXlat.roots = s.roots := by
  have hwindow (u : State) : u.window.roots = u.roots :=
    (foldl_keeps State.roots _ (fun a l => by
      split
      · rfl
      · exact State.roots_windowVisit ..) _ _).trans rfl
  have hpassed (u : State) : u.windowsPassed.roots = u.roots := (foldl_keeps State.roots _ (fun a _ => hwindow a) _ _).trans rfl
  exact (hpassed _).trans (State.roots_of_body (State.body_use ..))

theorem Leaf.same_self (l : Leaf) : l.same l = true := by simp [Leaf.same]

theorem Leaf.same_iff {a b : Leaf} : a.same b = true ↔
    a.tid = b.tid ∧ a.size = b.size ∧ a.page = b.page ∧ a.remote = b.remote ∧ a.nid = b.nid ∧ a.pga = b.pga ∧ a.nocount = b.nocount := by
  simp [Leaf.same, and_assoc]

/-- A leaf that is filled is found. -/
theorem State.find_tcFill (s : State) (l : Leaf) : ∃ x, (s.tcFill l).tc.find? (fun x => x.same l) = some x ∧ x.same l = true := by
  unfold State.tcFill
  split
  · next x hx =>
    have hsame : x.same l = true := List.find?_some (p := fun x : Leaf => x.same l) hx
    exact ⟨x, by simp [State.tcTouch, hsame], hsame⟩
  · have hadd : ∃ rest, (s.tcAdd l).tc = l :: rest := by
      unfold State.tcAdd
      dsimp only
      split
      · exact ⟨_, rfl⟩
      · split
        · exact ⟨_, rfl⟩
        · split
          · exact ⟨_, rfl⟩
          · exact ⟨_, rfl⟩
    obtain ⟨rest, hrest⟩ := hadd
    exact ⟨l, by simp [hrest, Leaf.same_self], Leaf.same_self l⟩

/-- The leaf that a request uses is the first of the cache, its counts apart. -/
theorem State.tc_tcUse (s : State) (r : Req) (l : Leaf) : ∃ x rest, (s.tcUse r l).tc = x :: rest ∧ x.same l = true := by
  unfold State.tcUse
  split
  · exact ⟨l.access r.aid, _, rfl, Leaf.same_self l⟩
  · exact ⟨l, _, rfl, Leaf.same_self l⟩

theorem Leaf.maps_leafOf (r : Req) {level : Nat} (h1 : 1 ≤ level) (h3 : level ≤ 3) (remote : Bool) (nid pga : Nat) (nocount : Bool) :
    (leafOf r level remote nid pga nocount).maps r.tid r.addr = true := by
  have hbits : sizeBits (sizeCode level) = pageBits level := by
    obtain rfl | rfl | rfl : level = 1 ∨ level = 2 ∨ level = 3 := by omega
    all_goals rfl
  simp [Leaf.maps, leafOf, hbits]

theorem completes_walkDone_page {s : State} {r : Req} {pga : Nat} {nc : Bool} (hacts : s.acts pgXLAT = true)
    (hreq : s.req r.id = some r) (hplace : r.place = .walking) (hwait : 5 ≤ r.wait ∧ r.wait ≤ 7) (hval : r.val ≠ 2 ^ 64)
    (hpage : decodeTEnt (r.wait - 4) r.val = .page pga nc) (hcache : s.cacheOn r.tid = true) : Completes (.walkDone r.id) s fun t =>
      t.tc.any (fun l => l.maps r.tid r.addr && l.pga == pga && !l.remote) = true ∧ t.core = s.core := by
  obtain ⟨h5, h7⟩ := hwait
  obtain ⟨t, ht⟩ := exec_answers s (.walkDone r.id)
  have hcore := core_of_exec rfl ht
  have hexec := (State.onBlk_acts _ hacts).symm.trans ht
  rw [hreq] at hexec
  dsimp only at hexec
  have hon : s.useXlat.cacheOn r.tid = true := by
    have hroots := State.roots_useXlat s
    simp only [State.roots, Prod.mk.injEq] at hroots
    unfold State.cacheOn
    rw [hroots.1, hroots.2]
    exact hcache
  rw [if_neg (by simp [hplace]; omega), if_neg hval, hpage] at hexec
  dsimp only at hexec
  rw [if_pos hon] at hexec
  obtain ⟨l, hl⟩ : ∃ l, l = leafOf r (r.wait - 4) false 0 pga nc := ⟨_, rfl⟩
  obtain ⟨u, hu⟩ : ∃ u, u = s.useXlat.tcFill l := ⟨_, rfl⟩
  obtain ⟨x, hx, hsame⟩ := State.find_tcFill s.useXlat l
  rw [← hl, ← hu] at hexec
  rw [← hu] at hx
  rw [hx] at hexec
  obtain rfl := Host.Outcome.next.inj hexec
  obtain ⟨htid, hsize, hpg, hremote, -, hpga, -⟩ := Leaf.same_iff.mp hsame
  have hnear : x.remote = false := by rw [hremote, hl]; rfl
  obtain ⟨y, rest, hy, hysame⟩ := State.tc_tcUse u r x
  obtain ⟨ytid, ysize, ypg, yremote, -, ypga, -⟩ := Leaf.same_iff.mp hysame
  have hthrough : u.throughLeaf r x = (u.tcUse r x).withPga r (x.pga + r.addr % 2 ^ sizeBits x.size) := by
    unfold State.throughLeaf
    exact if_neg (by simp [hnear])
  have htc : (u.throughLeaf r x).tc = y :: rest := by
    rw [hthrough]
    exact (congrArg State.tc (State.apart_withPga (u.tcUse r x) r (x.pga + r.addr % 2 ^ sizeBits x.size)) :).trans hy
  refine ⟨_, ht, ?_, hcore⟩
  have hmaps := Leaf.maps_leafOf r (level := r.wait - 4) (by omega) (by omega) false 0 pga nc
  have hymaps : y.maps r.tid r.addr = true := by
    rw [← hl] at hmaps
    unfold Leaf.maps at hmaps ⊢
    rw [ytid, htid, ypg, hpg, ysize, hsize]
    exact hmaps
  have hypga : y.pga = pga := by rw [ypga, hpga, hl]; rfl
  refine List.any_eq_true.mpr ⟨y, ?_, ?_⟩
  · exact htc ▸ List.mem_cons_self
  · simp [hymaps, hypga, yremote, hnear]

theorem completes_walkDone_invalid {s : State} {r : Req} (hacts : s.acts pgXLAT = true) (hreq : s.req r.id = some r)
    (hplace : r.place = .walking) (h4 : 4 ≤ r.wait) (hval : r.val ≠ 2 ^ 64) (hinvalid : decodeTEnt (r.wait - 4) r.val = .invalid)
    (hwindows : s.pwr.windows = 0) : Completes (.walkDone r.id) s fun t => t.req r.id = none ∧ t.tc = s.tc ∧ t.core = s.core := by
  obtain ⟨t, ht⟩ := exec_answers s (.walkDone r.id)
  have hcore := core_of_exec rfl ht
  have hexec := (State.onBlk_acts _ hacts).symm.trans ht
  rw [hreq] at hexec
  dsimp only at hexec
  rw [if_neg (by simp [hplace]; omega), if_neg hval, hinvalid] at hexec
  obtain rfl := Host.Outcome.next.inj hexec
  have htc := State.tc_useXlat hwindows
  obtain ⟨u, hu⟩ : ∃ u, u = s.useXlat := ⟨_, rfl⟩
  rw [← hu] at ht hcore htc
  exact ⟨_, ht, (State.endAt3_ends u r.id stNomap nidNone).1, (congrArg State.tc (State.apart_endAt3 u r.id stNomap nidNone) :).trans htc, hcore⟩

/-- Settles O16: the checks of the region decide where a resolved request goes, and the entry of a walk read what the cache holds. -/
theorem resolution : Obligations.Resolution := by
  unfold Obligations.Resolution
  refine ⟨?_, fun s r st => completes_resolve_denied, fun s r pga nc => completes_walkDone_page, fun s r => completes_walkDone_invalid⟩
  intro s r n hacts hreq hplace hop has1 _ hwaits hover hok htrks
  exact completes_resolve hacts hreq hplace hop has1 hwaits hover hok htrks

end Sys2Proof.Machine
end

/-! ## O17: invalidation, windows and the Hot Page Queue -/

section
namespace Sys2Proof.Machine
open Reg

/-! ### Messages that the port passes and whose source has the window right -/

theorem State.sysRight_of_live {s : State} {p : Nat} {m : Msg} (hmmio : s.rd FPORT_MMIO_ACCESS p = 2) (hsnode : m.sySnode = false)
    (hlive : s.live m.sySrc = true) : s.sysRight p m true = none := by
  unfold State.sysRight
  rw [hmmio]
  simp [hsnode, hlive]

/-- The node once it has taken the message and counted it. -/
def State.heard (s : State) (p : Nat) (m : Msg) : State := (s.takeMsg p m).count 0 0 0 1

theorem State.body_heard (s : State) (p : Nat) (m : Msg) : (s.heard p m).body = s.body := (State.body_takeMsg s p m :)

theorem State.sysRight_heard {s : State} {p : Nat} {m : Msg} (hmmio : s.rd FPORT_MMIO_ACCESS p = 2) (hsnode : m.sySnode = false)
    (hlive : s.live m.sySrc = true) : (s.heard p m).sysRight p m true = none :=
  State.sysRight_of_live ((State.rd_takeMsg s p m FPORT_MMIO_ACCESS p 0 :).trans hmmio) hsnode
    ((State.live_of_body (State.body_heard s p m) _).trans hlive)

theorem exec_xinv {s : State} {port : Fin 16} {m : Msg} (hacts : s.acts (pgFPORT port.val) = true) (hm : s.passes port.val m = true)
    (hcls : m.cls.toNat = clsSys) (hopc : m.opc = 0x88) (hmmio : s.rd FPORT_MMIO_ACCESS port.val = 2) (hsnode : m.sySnode = false)
    (hlive : s.live m.sySrc = true) : exec (.xinv port m) s = .next (if ((s.heard port.val m).invOf m.sySrc).isSome = true then
      { s.heard port.val m with xsyncs := (s.heard port.val m).xsyncs ++ [(port.val, m, [])] }
      else (s.heard port.val m).xinvRun port.val m) := by
  refine (State.onBlk_acts _ hacts).trans ?_
  rw [State.portIn_of_passes s hm hcls hopc]
  dsimp only
  rw [show ((s.takeMsg port.val m).count 0 0 0 1).sysRight port.val m true = none from State.sysRight_heard hmmio hsnode hlive]
  exact (apply_ite Host.Outcome.next _ _ _).symm

theorem State.invOf_heard (s : State) (p : Nat) (m : Msg) (src : Nat) : (s.heard p m).invOf src = s.invOf src := by
  have hsyncs : (s.heard p m).xsyncs = s.xsyncs := (congrArg State.xsyncs (State.body_heard s p m) :)
  unfold State.invOf
  rw [hsyncs]

/-! ### The removal of XINV -/

theorem State.apart_walkError (s : State) (r : Req) (level : Nat) : (s.walkError r level).apart = s.apart := by
  unfold State.walkError State.xlatNomap
  simp

theorem State.apart_walkRead (s : State) (r : Req) (level base : Nat) : (s.walkRead r level base).apart = s.apart := by
  unfold State.walkRead
  dsimp only
  split
  · exact State.apart_walkError ..
  · exact (State.apart_homeArrive ..).trans ((State.apart_bump _ XLAT_WALK_READS 0 0 :).trans rfl)

theorem State.tc_xinvDo (s : State) (tid tpa scope : Nat) : (s.xinvDo tid tpa scope).tc =
    s.tc.filter (fun l => !(l.tid == tid && (decide (scope = 3) ||
      overlaps l.page (sizeBits l.size) tpa (if scope = 0 then 16 else if scope = 1 then 21 else 30)))) := by
  unfold State.xinvDo
  extract_lets v all s1 ws
  refine (congrArg State.tc (State.apart_foldl _ (fun a r => ?_) ws _) :).trans rfl
  exact (State.apart_walkRead ..).trans rfl

theorem State.tc_of_body {s t : State} (h : t.body = s.body) : t.tc = s.tc := (congrArg State.tc h :)

theorem State.tc_xinvRun {s : State} (hwindows : s.pwr.windows = 0) (port : Nat) (m : Msg) :
    (s.xinvRun port m).tc = s.tc.filter (fun l => !(l.tid == m.f 45 8 && (decide (m.f 85 2 = 3) || overlaps l.page (sizeBits l.size)
      (m.f 53 32 * 65536) (if m.f 85 2 = 0 then 16 else if m.f 85 2 = 1 then 21 else 30)))) := by
  unfold State.xinvRun
  dsimp only
  refine (State.tc_of_body ((State.body_sysAnswer ..).trans (State.body_bump ..))).trans ?_
  rw [State.tc_xinvDo, State.tc_useXlat hwindows]

/-! ### Windows -/

/-- The cached leaves and the count of window boundaries. -/
def State.counted (s : State) : List Leaf × Nat := (s.tc, s.windowCount)

theorem State.counted_of_body {s t : State} (h : t.body = s.body) : t.counted = s.counted :=
  have part : t.body.counted = s.body.counted := congrArg State.counted h
  part

theorem State.counted_hpqPush (s : State) (l : Leaf) : (s.hpqPush l).counted = s.counted := by
  have hwords (v : State) (q : List (Nat × Nat)) :
      (q.foldl (fun (s : State) x => s.wr XLAT_HPQ_W x.2 0 (s.hpqHead * 4 + x.1)) v).counted = v.counted :=
    foldl_keeps State.counted _ (fun _ _ => State.counted_of_body (State.body_wr ..)) _ _
  unfold State.hpqPush
  dsimp only
  exact (State.counted_of_body ((State.body_sample ..).trans (State.body_raise ..))).trans (hwords ..)

/-- The leaf after a window (R200). -/
theorem State.counted_windowVisit (s : State) (l : Leaf) : ∃ l', (s.windowVisit l).counted =
    (s.tc.map (fun x => if x == l then l' else x), s.windowCount) ∧
    l'.cnt = 0 ∧ l'.score = min 0xFFFF (l.score / 2 + l.cnt) ∧ l'.page = l.page ∧ l'.pga = l.pga := by
  unfold State.windowVisit
  extract_lets hot l1 isHot s1 l2 l3
  have h1 : s1.counted = s.counted := by
    unfold s1
    split
    · split
      · exact State.counted_of_body (State.body_bump ..)
      · exact State.counted_hpqPush ..
    · rfl
  have h2 : l2.cnt = 0 ∧ l2.score = l1.score ∧ l2.page = l.page ∧ l2.pga = l.pga := by
    unfold l2
    split <;> exact ⟨rfl, rfl, rfl, rfl⟩
  simp only [State.counted, Prod.mk.injEq] at h1
  refine ⟨l3, ?_, ?_⟩
  · unfold State.counted
    dsimp only
    rw [h1.1, h1.2]
  · unfold l3
    split <;> exact h2

theorem State.counted_window {s : State} {l : Leaf} (htc : s.tc = [l]) (hlocal : l.remote = false) :
    s.window.windowCount = s.windowCount + 1 ∧
    s.window.tc.map (fun x => (x.cnt, x.score, x.page, x.pga)) = [(0, min 0xFFFF (l.score / 2 + l.cnt), l.page, l.pga)] := by
  obtain ⟨u, hu⟩ : ∃ u : State, u = { s with windowCount := s.windowCount + 1 } := ⟨_, rfl⟩
  have hutc : u.tc = [l] := by rw [hu]; exact htc
  have hucount : u.windowCount = s.windowCount + 1 := by rw [hu]
  have hwindow : s.window = u.windowVisit l := by
    have hfold : s.window = u.tc.foldl (fun (s : State) l => if l.remote then s else s.windowVisit l) u := by rw [hu]; rfl
    rw [hfold, hutc, List.foldl_cons, List.foldl_nil, hlocal]
    exact if_neg Bool.false_ne_true
  obtain ⟨l', hcounted, hcnt, hscore, hpage, hpga⟩ := State.counted_windowVisit u l
  simp only [State.counted, Prod.mk.injEq] at hcounted
  rw [hwindow, hcounted.1, hcounted.2, hutc]
  exact ⟨hucount, by simp [hcnt, hscore, hpage, hpga]⟩

/-! ### The end of an XSYNC -/

theorem exec_xsyncDone {s : State} {x : Nat × Msg × List Nat} {rest : List (Nat × Msg × List Nat)} (hacts : s.acts pgXLAT = true)
    (hsyncs : s.xsyncs = x :: rest) (hopc : x.2.1.opc = 0x89) (hleft : x.2.2.all s.hasLeft = true)
    (hothers : rest.all (fun y => y.2.1.sySrc != x.2.1.sySrc) = true) :
    exec .xsyncDone s = .next ({ s with xsyncs := rest }.sysAnswer x.1 x.2.1 stOK 0) := by
  have hready : s.syncReady x = true := by
    simp [State.syncReady, State.invOf, hsyncs, hopc, hleft]
  have hfind : s.xsyncs.find? s.syncReady = some x := by
    rw [hsyncs]
    exact List.find?_cons_of_pos hready
  have hdrop : dropFirst (fun y => y == x) s.xsyncs = rest := by simp [hsyncs, dropFirst]
  obtain ⟨u, hu⟩ : ∃ u : State, u = ({ s with xsyncs := rest } : State).sysAnswer x.1 x.2.1 stOK 0 := ⟨_, rfl⟩
  have hrest : u.xsyncs = rest := by
    rw [hu]
    exact (congrArg State.xsyncs (State.body_sysAnswer ..) :)
  have hnone : u.invOf x.2.1.sySrc = none := by
    unfold State.invOf
    rw [hrest]
    refine List.find?_eq_none.mpr (fun y hy => ?_)
    simpa using List.all_eq_true.mp hothers y hy
  have hnext (n : Nat) : State.invNext x.2.1.sySrc n u = u := by
    cases n with
    | zero => rfl
    | succ n =>
      unfold State.invNext
      rw [hnone]
  refine (State.onBlk_acts _ hacts).trans ?_
  rw [hfind]
  dsimp only
  rw [hdrop, ← hu, hnext]

theorem completes_xsync {s : State} {port : Fin 16} {m : Msg} (hacts : s.acts (pgFPORT port.val) = true)
    (hm : s.passes port.val m = true) (hcls : m.cls.toNat = clsSys) (hopc : m.opc = 0x89)
    (hmmio : s.rd FPORT_MMIO_ACCESS port.val = 2) (hsnode : m.sySnode = false) (hlive : s.live m.sySrc = true) :
    Completes (.xsync port m) s fun t => t.xsyncs.length = s.xsyncs.length + 1 ∧
      (t.xsyncs.getLast?.map (fun x => (x.1, x.2.1))) = some (port.val, m) ∧ t.tc = s.tc ∧ t.core = s.core := by
  obtain ⟨t, ht⟩ := exec_answers s (.xsync port m)
  have hcore := core_of_exec rfl ht
  have hexec := (State.onBlk_acts _ hacts).symm.trans ht
  rw [State.portIn_of_passes s hm hcls hopc] at hexec
  dsimp only at hexec
  rw [show ((s.takeMsg port.val m).count 0 0 0 1).sysRight port.val m true = none from State.sysRight_heard hmmio hsnode hlive] at hexec
  obtain rfl := Host.Outcome.next.inj hexec
  have hsyncs : (s.heard port.val m).xsyncs = s.xsyncs := (congrArg State.xsyncs (State.body_heard s port.val m) :)
  refine ⟨_, ht, ?_, ?_, (State.tc_of_body (State.body_heard s port.val m) :), hcore⟩
  · exact List.length_append.trans (congrArg (fun l => l.length + 1) hsyncs)
  · exact congrArg (Option.map _) List.getLast?_concat

/-- Settles O17: an invalidation filters the cached leaves, a window visits them, and the queue's tail moves within what is used. -/
theorem translationUpkeep : Obligations.TranslationUpkeep := by
  unfold Obligations.TranslationUpkeep
  refine ⟨?_, ?_, fun s port m => completes_xsync, ?_, ?_, ?_, ?_, ?_, ?_⟩
  · intro s port m hacts hm hcls hopc hmmio hsnode hlive hnone hwindows
    have hexec := exec_xinv hacts hm hcls hopc hmmio hsnode hlive
    have hcore := core_of_exec rfl hexec
    rw [State.invOf_heard, hnone, if_neg (by simp)] at hexec hcore
    refine ⟨_, hexec, ?_, hcore⟩
    have hbody := State.body_heard s port.val m
    have hwindows' : (s.heard port.val m).pwr.windows = 0 := by
      obtain h | ⟨c, h, -⟩ := State.takeMsg_cases s port.val m
      all_goals
        unfold State.heard
        rw [h]
        exact hwindows
    rw [State.tc_xinvRun hwindows', State.tc_of_body hbody]
    rfl
  · intro s port m hacts hm hcls hopc hmmio hsnode hlive hsome
    have hexec := exec_xinv hacts hm hcls hopc hmmio hsnode hlive
    have hcore := core_of_exec rfl hexec
    rw [State.invOf_heard, if_pos hsome] at hexec hcore
    have hbody := State.body_heard s port.val m
    have hsyncs : (s.heard port.val m).xsyncs = s.xsyncs := (congrArg State.xsyncs hbody :)
    exact ⟨_, hexec, congrArg (· ++ _) hsyncs, (State.tc_of_body hbody :), hcore⟩
  · intro s x rest hacts hsyncs hopc hleft hothers
    exact ⟨_, exec_xsyncDone hacts hsyncs hopc hleft hothers, rfl⟩
  · intro s l hacts hrun htc hlocal
    have hexec : exec .windowBoundary s = .next s.window := by
      refine (State.onBlk_acts _ hacts).trans ?_
      rw [hrun]
      rfl
    obtain ⟨hcount, hleaf⟩ := State.counted_window htc hlocal
    exact ⟨_, hexec, hcount, hleaf, core_of_exec rfl hexec⟩
  · intro s hacts hnap
    refine ⟨_, (State.onBlk_acts _ hacts).trans ?_, rfl⟩
    rcases hnap with h | h
    · rw [h]
      rfl
    · rw [h]
      rfl
  · intro s hacts hoff
    refine ⟨_, (State.onBlk_acts _ hacts).trans ?_, rfl⟩
    rw [hoff]
    rfl
  · intro s val hacts hle
    have hexec : exec (.hpqTailWrite val) s = .next (({ s with hpqTail := bits val.toNat 0 10 } : State).sample pgXLAT 0
        ((s.hpqHead + 1024 - s.hpqTail) % 1024 - (bits val.toNat 0 10 + 1024 - s.hpqTail) % 1024 : Nat)) :=
      (State.onBlk_acts _ hacts).trans (congrArg Host.Outcome.next (if_pos hle))
    have hbody := State.body_sample ({ s with hpqTail := bits val.toNat 0 10 } : State) pgXLAT 0
      ((s.hpqHead + 1024 - s.hpqTail) % 1024 - (bits val.toNat 0 10 + 1024 - s.hpqTail) % 1024 : Nat)
    exact ⟨_, hexec, (congrArg State.hpqTail hbody :), (congrArg State.tc hbody :), core_of_exec rfl hexec⟩
  · intro s val hacts hlt
    have hexec : exec (.hpqTailWrite val) s = .next (s.cfgErr pgXLAT 0 0x110) :=
      (State.onBlk_acts _ hacts).trans (congrArg Host.Outcome.next (if_neg (by omega)))
    exact ⟨_, hexec, (congrArg State.hpqTail (State.body_cfgErr s pgXLAT 0 0x110) :), State.rd_cfgErr_same .., core_of_exec rfl hexec⟩

end Sys2Proof.Machine
end

section
/-! A walk read of MIGR takes the next number of a request. Where a WB of that number waits already, at a line whose tracker awaits its
sender, it is the WB that arrives at the home, is absorbed and ends, and the walk read of the same number ends with it (R142, R203). -/
namespace Sys2Proof.Machine

open Reg Sys2Proof.Tests

/-- A WB of agent 7 at line 16. -/
def lateWb (n : Nat) : Req := { Req.blank with op := .wb, place := .resolving, id := n, aid := 7, off := 16 * 64, admInc := some 0 }

/-- The same state with a WB of the next number, and a tracker of its line that awaits its sender. -/
def collides (s : State) : State := { s with reqs := [lateWb s.nextId], trks := [W.snoopTrk] }

/-- GO leaves no request where one stood. -/
theorem reqs_go_collides : ((collides W.goReady).after .go).reqs.length = 0 ∧ (collides W.goReady).reqs.length = 1 := by
  exact ⟨by decide +kernel, rfl⟩

/-- MIGR_START leaves none either. -/
theorem reqs_migrStart_collides : ((collides W.destReady).after (.migrStart 0 W.startMsg)).reqs.length = 0 := by decide +kernel

end Sys2Proof.Machine

open Sys2Proof.Machine Sys2Proof.Tests

/-- Refutes O18: the request that GO's walk adds need not stay, where its number is taken. -/
theorem not_moveCommands : ¬ Obligations.MoveCommands := by
  rintro ⟨hgo, -⟩
  obtain ⟨t, ht, -, -, hlength, -⟩ := hgo (collides W.goReady) 5 (by decide +kernel) (by decide +kernel) (by decide +kernel)
    (by decide +kernel) (by decide +kernel)
  obtain ⟨hafter, hbefore⟩ := reqs_go_collides
  rw [State.after_of_next ht, hlength, hbefore] at hafter
  exact absurd hafter (by decide)

/-- Refutes O19: the walk read that MIGR_START adds need not stay, where its number is taken. -/
theorem not_moveMessages : ¬ Obligations.MoveMessages := by
  rintro ⟨hstart, -⟩
  obtain ⟨t, ht, -, -, hlast, -⟩ := hstart (collides W.destReady) 0 W.startMsg 5 (by decide +kernel) (by decide +kernel) (by decide +kernel)
    (by decide +kernel) (by decide +kernel) (by decide +kernel) (by decide +kernel) (by decide +kernel)
  have hafter := reqs_migrStart_collides
  rw [State.after_of_next ht] at hafter
  rw [List.length_eq_zero_iff.mp hafter] at hlast
  exact absurd hlast (by simp)
end

/-! ## O20: acceptance, issue and return at a sub-channel queue -/

section
namespace Sys2Proof.Machine
open Reg

/-! ### The queues, under what counts and reports -/

theorem State.queue_setQueue_same (s : State) (q : Nat) (v : Queue) : (s.setQueue q v).queue q = v := Tab.get_set_same ..

/-- The queues and the requests. -/
def State.lots (s : State) : Tab Queue × List Req := (s.queues, s.reqs)

theorem State.lots_of_body {s t : State} (h : t.body = s.body) : t.lots = s.lots :=
  have part : t.body.lots = s.body.lots := congrArg State.lots h
  part

theorem State.queue_of_lots {s t : State} (h : t.lots = s.lots) (q : Nat) : t.queue q = s.queue q := by
  have hqueues : t.queues = s.queues := congrArg Prod.fst h
  unfold State.queue
  rw [hqueues]

theorem State.queue_of_body {s t : State} (h : t.body = s.body) (q : Nat) : t.queue q = s.queue q :=
  State.queue_of_lots (State.lots_of_body h) q

theorem State.lots_setPrl (s : State) (k : Nat) (m : BitVec 128) : (s.setPrl k m).lots = s.lots := by
  unfold State.setPrl
  dsimp only
  split
  · exact (State.lots_of_body (State.body_sample ..)).trans rfl
  · split
    · rfl
    · split
      · exact (State.lots_of_body (State.body_sample ..)).trans rfl
      · exact (State.lots_of_body (State.body_raise ..)).trans rfl

theorem State.lots_prlLine (s : State) (q bank row col : Nat) (poison : Bool) : (s.prlLine q bank row col poison).lots = s.lots := by
  unfold State.prlLine
  extract_lets k m b new
  split
  · split
    · rfl
    · exact State.lots_setPrl ..
  · rfl

theorem State.lots_staleWrite (s : State) (q bank row col : Nat) (poison : Bool) : (s.staleWrite q bank row col poison).lots = s.lots := by
  unfold State.staleWrite
  split
  · rfl
  · exact (State.lots_of_body (State.body_sample ..)).trans rfl

theorem State.lots_cryptCount (s : State) (key : Option (BitVec 512)) (t j : Nat) : (s.cryptCount key t j).lots = s.lots := by
  unfold State.cryptCount
  split
  · exact (State.lots_of_body (State.body_use ..)).trans rfl
  · rfl

theorem State.lots_countCmd (s : State) (q : Nat) (e : Entry) (x : Cmd) : (s.countCmd q e x).lots = s.lots := by
  have hbump (u : State) (ch k n : Nat) : (u.bumpCmd ch k n).lots = u.lots := by
    have hby (f : Field) : (u.bumpBy f n ch).lots = u.lots := State.lots_of_body (State.body_bumpBy ..)
    simp only [State.bumpCmd, apply_ite State.lots, hby, ite_self]
  have hhit (u : State) (b : Bool) : (if b then u.bump MCH_ROW_HITS (q / 2) else u).lots = u.lots := by
    split
    · exact State.lots_of_body (State.body_bump ..)
    · rfl
  unfold State.countCmd
  dsimp only
  split
  · exact (show _ = State.lots (State.bumpCmd _ _ _ _) from rfl).trans ((hbump ..).trans (hhit ..))
  · exact hhit ..

theorem State.lots_freeCtxs (s : State) : s.freeCtxs.lots = s.lots := by
  unfold State.freeCtxs
  dsimp only
  split
  · rfl
  · exact (foldl_keeps State.lots _ (fun a c => State.lots_of_body (State.body_sample ..)) _ _).trans rfl

/-! ### Acceptance -/

theorem State.queue_pushEntries (s : State) (q : Nat) (es : List Entry) :
    (s.pushEntries q es).queue q = { s.queue q with entries := (s.queue q).entries ++ es } :=
  (State.queue_of_body (State.body_sample ..) q).trans (State.queue_setQueue_same ..)

theorem State.reqs_pushEntries (s : State) (q : Nat) (es : List Entry) : (s.pushEntries q es).reqs = s.reqs :=
  (congrArg State.reqs (State.body_sample ..) :)

/-- The queue without the entry that it accepts. -/
def State.unqueued (s : State) (q : Nat) (e : Entry) : State :=
  s.setQueue q { s.queue q with waiting := dropFirst (fun x => x.ready == e.ready && x.kind == e.kind) (s.queue q).waiting }

/-- What an entry is settled to depends on the remapped rows, the stale rows and the clock alone. -/
theorem State.settleEntry_congr {s t : State} (hras : t.ras = s.ras) (hmchs : t.mchs = s.mchs) (hao : t.ao = s.ao) (q : Nat) (e : Entry) :
    t.settleEntry q e = s.settleEntry q e := by
  unfold State.settleEntry State.redirFor State.staleMask State.mch State.mcNow
  rw [hras, hmchs, hao]

theorem exec_queueAccept {s : State} {q : Fin 96} {e : Entry} (hacts : s.acts (pgMCH (q.val / 2)) = true)
    (hroom : (s.queue q.val).entries.length < 64) (hnext : (s.queue q.val).nextWaiting = some e) :
    exec (.queueAccept q) s = .next (((s.use [pgMCH (q.val / 2)]).hint e.handlers).acceptEntry q.val e) := by
  refine (State.onBlk_acts _ hacts).trans ((if_pos hroom).trans ?_)
  rw [hnext]

theorem State.acceptEntry_refresh {s : State} {q : Nat} {e : Entry} (hkind : e.kind = .refresh) :
    s.acceptEntry q e = (s.unqueued q e).pushEntries q [(s.unqueued q e).settleEntry q e] := by
  unfold State.acceptEntry State.unqueued
  rw [hkind]

theorem State.acceptEntry_write {s : State} {q : Nat} {e : Entry} (hkind : e.kind = .write) :
    s.acceptEntry q e = (s.unqueued q e).acceptWrite q ((s.unqueued q e).settleEntry q e) := by
  unfold State.acceptEntry State.unqueued
  rw [hkind]

theorem State.settleEntry_unqueued {s : State} {l : List Nat} (q : Nat) (e : Entry) :
    (((s.use l).hint e.handlers).unqueued q e).settleEntry q e = (s.use l).settleEntry q e :=
  State.settleEntry_congr rfl rfl rfl q e

/-- The queue that has a place for the entry: it waits no longer. -/
theorem State.queue_unqueued (s : State) (l : List Nat) (q : Nat) (e : Entry) :
    (((s.use l).hint e.handlers).unqueued q e).queue q =
      { s.queue q with waiting := dropFirst (fun x => x.ready == e.ready && x.kind == e.kind) (s.queue q).waiting } := by
  have hqueue : ((s.use l).hint e.handlers).queue q = s.queue q :=
    State.queue_of_body ((State.body_hint ..).trans (State.body_use ..)) q
  unfold State.unqueued
  rw [State.queue_setQueue_same, hqueue]

theorem State.core_accepting (s : State) (l : List Nat) (q : Nat) (e : Entry) :
    (((s.use l).hint e.handlers).unqueued q e).core = s.core := by
  unfold State.unqueued
  rw [State.core_setQueue, State.core_hint, State.core_use]

theorem completes_queueAccept_refresh {s : State} {q : Fin 96} {e : Entry} (hacts : s.acts (pgMCH (q.val / 2)) = true)
    (hroom : (s.queue q.val).entries.length < 64) (hnext : (s.queue q.val).nextWaiting = some e) (hkind : e.kind = .refresh) :
    Completes (.queueAccept q) s fun t =>
      (t.queue q.val).entries = (s.queue q.val).entries ++ [(s.use [pgMCH (q.val / 2)]).settleEntry q.val e] ∧
      (t.queue q.val).waiting = dropFirst (fun x => x.ready == e.ready && x.kind == e.kind) (s.queue q.val).waiting ∧ t.core = s.core := by
  refine ⟨_, (exec_queueAccept hacts hroom hnext).trans (congrArg Host.Outcome.next (State.acceptEntry_refresh hkind)), ?_, ?_, ?_⟩
  · rw [State.queue_pushEntries, State.queue_unqueued, State.settleEntry_unqueued]
  · rw [State.queue_pushEntries, State.queue_unqueued]
  · rw [State.core_pushEntries, State.core_accepting]

/-- An accepted write of no request, not mirrored, joins the queue's entries. -/
theorem State.lots_acceptWrite {s : State} {q : Nat} {e : Entry} (hreq : e.req = none) (hmirror : e.mirror = false) :
    (s.acceptWrite q e).lots = (s.pushEntries q [{ e with words := [wordOf (cryptLine true e.key e.off e.data) e.poison] }]).lots := by
  unfold State.acceptWrite
  dsimp only
  rw [hmirror, hreq]
  exact (State.lots_staleWrite ..).trans ((State.lots_prlLine ..).trans (State.lots_cryptCount ..))

theorem State.settleEntry_of_write (s : State) (q : Nat) {e : Entry} (hkind : e.kind = .write) :
    (s.settleEntry q e).kind = .write ∧ (s.settleEntry q e).off = e.off ∧ (s.settleEntry q e).req = e.req ∧
      (s.settleEntry q e).mirror = e.mirror := by
  refine ⟨?_, rfl, rfl, rfl⟩
  unfold State.settleEntry
  rw [hkind]

theorem completes_queueAccept_write {s : State} {q : Fin 96} {e : Entry} (hacts : s.acts (pgMCH (q.val / 2)) = true)
    (hroom : (s.queue q.val).entries.length < 64) (hnext : (s.queue q.val).nextWaiting = some e) (hkind : e.kind = .write)
    (hreq : e.req = none) (hmirror : e.mirror = false) : Completes (.queueAccept q) s fun t =>
      (t.queue q.val).entries.length = (s.queue q.val).entries.length + 1 ∧
      ((t.queue q.val).entries.getLast?.map (fun x => (x.kind, x.off))) = some (.write, e.off) ∧ t.core = s.core ∧ t.reqs = s.reqs := by
  obtain ⟨u, hu⟩ : ∃ u, u = ((s.use [pgMCH (q.val / 2)]).hint e.handlers).unqueued q.val e := ⟨_, rfl⟩
  have hqueue := State.queue_unqueued s [pgMCH (q.val / 2)] q.val e
  have hcore := State.core_accepting s [pgMCH (q.val / 2)] q.val e
  have hreqs : u.reqs = s.reqs := by
    rw [hu]
    exact (congrArg State.reqs (State.body_use s [pgMCH (q.val / 2)]) :)
  have hexec := (exec_queueAccept hacts hroom hnext).trans (congrArg Host.Outcome.next (State.acceptEntry_write hkind))
  rw [← hu] at hqueue hcore hexec
  obtain ⟨xkind, xoff, xreq, xmirror⟩ := u.settleEntry_of_write q.val hkind
  obtain ⟨x, hx⟩ : ∃ x, x = u.settleEntry q.val e := ⟨_, rfl⟩
  rw [← hx] at xkind xoff xreq xmirror hexec
  have hlots := State.lots_acceptWrite (s := u) (q := q.val) (xreq.trans hreq) (xmirror.trans hmirror)
  have hentries : ((u.acceptWrite q.val x).queue q.val).entries =
      (s.queue q.val).entries ++ [{ x with words := [wordOf (cryptLine true x.key x.off x.data) x.poison] }] := by
    rw [State.queue_of_lots hlots, State.queue_pushEntries, hqueue]
  refine ⟨_, hexec, ?_, ?_, (State.core_acceptWrite ..).trans hcore, ?_⟩
  · rw [hentries]
    exact List.length_append
  · rw [hentries, List.getLast?_concat]
    exact congrArg some (Prod.ext xkind xoff)
  · exact (congrArg Prod.snd hlots :).trans ((State.reqs_pushEntries ..).trans hreqs)

/-! ### Issue -/

theorem exec_mchCommandIssue {s : State} {q : Fin 96} {e : Entry} {rest : List Entry} {x : Cmd} (hacts : s.acts (pgMCH (q.val / 2)) = true)
    (hruns : s.mchRuns (q.val / 2) = true) (hredo : (s.queue q.val).redo = []) (hentries : (s.queue q.val).entries = e :: rest)
    (hnext : s.nextCmd q.val e = .cmd x) : exec (.mchCommandIssue q) s = .next ((s.useFor q.val e).issueCmd q.val e x) := by
  refine (State.onBlk_acts _ hacts).trans ((if_neg (by simp [hruns])).trans ((if_neg (by simp [hredo])).trans ?_))
  rw [hentries]
  dsimp only
  rw [hnext]

theorem State.body_useFor (s : State) (q : Nat) (e : Entry) : (s.useFor q e).body = s.body := by
  unfold State.useFor
  split
  · rfl
  · exact State.body_use ..

theorem State.core_issueCmd (s : State) (q : Nat) (e : Entry) (x : Cmd) : (s.issueCmd q e x).core = (s.cmdData q e x).core := by
  unfold State.issueCmd
  dsimp only
  rw [State.core_popDone, State.core_setQueue, State.core_countCmd]

theorem completes_mchCommandIssue_wr {s : State} {q : Fin 96} {e : Entry} {rest : List Entry} {bank row col : Nat}
    (hacts : s.acts (pgMCH (q.val / 2)) = true) (hruns : s.mchRuns (q.val / 2) = true) (hredo : (s.queue q.val).redo = [])
    (hentries : (s.queue q.val).entries = e :: rest) (hkind : e.kind = .write) (hnext : s.nextCmd q.val e = .cmd (.wr bank row col))
    (hinv : s.Inv) : Completes (.mchCommandIssue q) s fun t =>
      t.dram = Memory.writeN s.dram (lineAddr q.val bank row col) (e.words[0]?.getD []) ∧
      (∀ x : Nat, x < lineAddr q.val bank row col ∨ lineAddr q.val bank row col + (e.words[0]?.getD []).length ≤ x →
        Memory.read t.dram x = Memory.read s.dram x) ∧ t.opts = s.opts ∧ t.fuses = s.fuses := by
  obtain ⟨u, hu⟩ : ∃ u, u = s.useFor q.val e := ⟨_, rfl⟩
  have hucore : u.core = s.core := by rw [hu, State.core_useFor]
  have hexec := exec_mchCommandIssue hacts hruns hredo hentries hnext
  rw [← hu] at hexec
  have hcore := State.core_issueCmd u q.val e (.wr bank row col)
  have hdata : (u.cmdData q.val e (.wr bank row col)).dram =
      Memory.writeN u.dram (lineAddr q.val bank row col) (e.words[0]?.getD []) := by
    unfold State.cmdData
    rw [hkind]
  have hudram : u.dram = s.dram := congrArg Core.dram hucore
  have hdram : (u.issueCmd q.val e (.wr bank row col)).dram =
      Memory.writeN s.dram (lineAddr q.val bank row col) (e.words[0]?.getD []) := by
    rw [← hudram, ← hdata]
    exact congrArg Core.dram hcore
  refine ⟨_, hexec, hdram, fun x hx => ?_, ?_, ?_⟩
  · rw [hdram]
    exact Memory.read_writeN _ _ _ _ hinv hx
  · exact (congrArg Core.opts hcore :).trans (congrArg Core.opts hucore :)
  · exact (congrArg Core.fuses hcore :).trans (congrArg Core.fuses hucore :)

/-- The end of a read's entry leaves what the queue has sensed. -/
theorem State.rets_popDone {s : State} {q : Nat} {e : Entry} {rest : List Entry} {why : ReadFor} (hentries : (s.queue q).entries = e :: rest)
    (hkind : e.kind = .read why) : ((s.popDone q).queue q).rets = (s.queue q).rets := by
  have hend : ((s.entryEnd q e).queue q).rets = (s.queue q).rets := by
    unfold State.entryEnd
    rw [hkind]
    dsimp only
    rw [State.queue_of_lots (State.lots_freeCtxs _), State.queue_of_body (State.body_sample ..), State.queue_setQueue_same]
  unfold State.popDone
  dsimp only
  rw [hentries]
  dsimp only
  split
  · exact hend
  · rfl

theorem Queue.sense_of_empty {c : Queue} {e : Entry} {why : ReadFor} (hrets : c.rets = []) (hkind : e.kind = .read why) (w : List Byte) :
    c.sense e w = { c with rets := [{ ent := e, words := [w], whole := true }] } := by
  unfold Queue.sense
  rw [hrets, hkind]
  rfl

/-- The issue of an RD keeps what the queue holds once the word is sensed. -/
theorem State.rets_issueCmd {s : State} {q : Nat} {e : Entry} {rest : List Entry} {why : ReadFor} {c : Queue} {bank row col : Nat}
    (hdata : s.cmdData q e (.rd bank row col) = s.setQueue q c) (hentries : c.entries = e :: rest) (hkind : e.kind = .read why) :
    ((s.issueCmd q e (.rd bank row col)).queue q).rets = c.rets := by
  unfold State.issueCmd
  extract_lets c0 t wake step s1 c1 c2 c3 c4
  have hs1 : s1.queue q = c := by
    refine (State.queue_of_lots (State.lots_countCmd ..) q).trans ?_
    rw [hdata]
    exact State.queue_setQueue_same ..
  have hc3 : c3.entries = e :: rest ∧ c3.rets = c.rets := by
    unfold c3 c2 c1
    rw [hs1]
    exact ⟨hentries, rfl⟩
  have hc4 : c4.entries = { e with phase := if step then e.phase + 1 else e.phase } :: rest := by
    unfold c4
    rw [hc3.1]
  have hqueue := State.queue_setQueue_same s1 q c4
  rw [State.rets_popDone ((congrArg Queue.entries hqueue).trans hc4) hkind, hqueue]
  exact hc3.2

theorem completes_mchCommandIssue_rd {s : State} {q : Fin 96} {e : Entry} {rest : List Entry} {bank row col : Nat} {why : ReadFor}
    (hacts : s.acts (pgMCH (q.val / 2)) = true) (hruns : s.mchRuns (q.val / 2) = true) (hredo : (s.queue q.val).redo = [])
    (hentries : (s.queue q.val).entries = e :: rest) (hkind : e.kind = .read why) (hrets : (s.queue q.val).rets = [])
    (hfresh : s.refreshed (q.val / 2) (row / 512) = true) (hnext : s.nextCmd q.val e = .cmd (.rd bank row col)) :
    Completes (.mchCommandIssue q) s fun t => t.dram = s.dram ∧
      (t.queue q.val).rets.map (fun r => r.words) = [[Memory.readN s.dram (lineAddr q.val bank row col) 80]] := by
  obtain ⟨u, hu⟩ : ∃ u, u = s.useFor q.val e := ⟨_, rfl⟩
  have hexec := exec_mchCommandIssue hacts hruns hredo hentries hnext
  have hbody := State.body_useFor s q.val e
  have hmchs : (s.useFor q.val e).mchs = s.mchs := (congrArg State.mchs hbody :)
  have hdram : (s.useFor q.val e).dram = s.dram := (congrArg State.dram hbody :)
  have hqueue := State.queue_of_body hbody q.val
  rw [← hu] at hexec hmchs hdram hqueue
  have hsense : u.senseWord q.val bank row col = (Memory.readN s.dram (lineAddr q.val bank row col) 80, u) := by
    unfold State.senseWord State.refreshed State.mch
    rw [hmchs, hdram]
    exact if_pos hfresh
  have hdata : u.cmdData q.val e (.rd bank row col) = u.setQueue q.val { s.queue q.val with
      rets := [{ ent := e, words := [Memory.readN s.dram (lineAddr q.val bank row col) 80], whole := true }] } := by
    unfold State.cmdData
    dsimp only
    rw [hsense]
    dsimp only
    rw [hqueue, Queue.sense_of_empty hrets hkind]
  refine ⟨_, hexec, ?_, ?_⟩
  · have hcore := (State.core_issueCmd u q.val e (.rd bank row col))
    rw [hdata, State.core_setQueue] at hcore
    exact (congrArg Core.dram hcore :).trans hdram
  · rw [State.rets_issueCmd hdata hentries hkind]
    rfl

/-! ### A status word -/

theorem exec_readDataReturn_status {s : State} {q : Fin 96} {r : Ret} {rest : List Ret} {temp : BitVec 16}
    (hacts : s.acts (pgMCH (q.val / 2)) = true) (hrets : (s.queue q.val).rets = r :: rest) (hwhole : r.whole = true)
    (hkind : r.ent.kind = .status) : exec (.readDataReturn q (.status temp true)) s = .next
      (((s.use [pgMCH (q.val / 2)]).setQueue q.val { s.queue q.val with rets := rest }).stackTemp (q.val / 2) temp.toNat true) := by
  refine (State.onBlk_acts _ hacts).trans ?_
  dsimp only
  rw [hrets]
  dsimp only
  rw [hkind, hwhole]
  rfl

/-- A field of a channel that none of the reports, the refresh interval and the watermark of its temperature hold. -/
structure OwnField (f : Field) (ch : Nat) : Prop where
  page : keyOf f ch 0 / 0x40000 = pgMCH ch
  stat : ∀ p, keyOf f ch 0 ≠ keyOf H_INT_STAT p 0
  ovr : ∀ p, keyOf f ch 0 ≠ keyOf H_POLICY_OVR p 0
  refi : keyOf f ch 0 ≠ keyOf MCH_REFI_NOW ch 0
  extreme : keyOf f ch 0 ≠ keyOf WMK_EXTREME (pgMCH ch) 2
  crossed : keyOf f ch 0 ≠ keyOf WMK_CROSSED (pgMCH ch) 2
  count : keyOf f ch 0 ≠ keyOf WMK_COUNT_ (pgMCH ch) 2

/-- Entries at different places within their pages are different, whatever the pages. -/
theorem keyOf_ne_of_mod {f g : Field} {x y : Nat} (i j : Nat)
    (h : ((f.off + x * f.stride) * 64 + f.lo) % 0x40000 ≠ ((g.off + y * g.stride) * 64 + g.lo) % 0x40000) : keyOf f i x ≠ keyOf g j y := by
  unfold keyOf
  omega

theorem ownField_tempNow (ch : Nat) : OwnField MCH_TEMP_NOW ch where
  page := page_of_key (by decide) (by decide)
  stat p := keyOf_ne_of_offset _ _ (by decide)
  ovr p := keyOf_ne_of_offset _ _ (by decide)
  refi := keyOf_ne_of_offset _ _ (by decide)
  extreme := keyOf_ne_of_mod _ _ (by decide)
  crossed := keyOf_ne_of_mod _ _ (by decide)
  count := keyOf_ne_of_mod _ _ (by decide)

theorem ownField_tempValid (ch : Nat) : OwnField MCH_TEMP_VALID ch where
  page := page_of_key (by decide) (by decide)
  stat p := keyOf_ne_of_offset _ _ (by decide)
  ovr p := keyOf_ne_of_offset _ _ (by decide)
  refi := keyOf_ne_of_offset _ _ (by decide)
  extreme := keyOf_ne_of_mod _ _ (by decide)
  crossed := keyOf_ne_of_mod _ _ (by decide)
  count := keyOf_ne_of_mod _ _ (by decide)

theorem OwnField.log {f : Field} {ch : Nat} (h : OwnField f ch) (hch : ch < 48) : keyOf f ch 0 / 0x40000 ≠ pgEVLOG := by
  rw [h.page]
  unfold pgMCH pgEVLOG
  omega

theorem State.rd_setRefi_own (s : State) {ch : Nat} {f : Field} (h : OwnField f ch) (hch : ch < 48) :
    (s.setRefi ch).rd f ch 0 = s.rd f ch 0 := by
  unfold State.setRefi
  extract_lets m limit floor want now above s1
  have h1 : s1.rd f ch 0 = s.rd f ch 0 := State.rd_wr_ne _ _ h.refi
  clear_value s1
  split
  · unfold State.policyOvr
    rw [State.rd_crumb_ne _ _ _ _ _ (h.log hch), State.rd_raise_ne _ _ _ (h.stat _), State.rd_raise_ne _ _ _ (h.stat _),
      State.rd_wr_ne _ _ (h.ovr _)]
    exact h1
  · exact h1

theorem State.rd_judgeThrottle_own (s : State) {ch : Nat} {f : Field} (h : OwnField f ch) (hch : ch < 48) :
    s.judgeThrottle.rd f ch 0 = s.rd f ch 0 := by
  unfold State.judgeThrottle
  dsimp only
  split
  · rfl
  · rw [State.rd_crumb_ne _ _ _ _ _ (h.log hch), State.rd_raise_ne _ _ _ (h.stat _)]
    rfl

theorem State.queues_of_body {s t : State} (h : t.body = s.body) : t.queues = s.queues := (congrArg State.queues h :)

/-- A valid temperature of a stack is what its register reads; the queues stay. -/
theorem State.stackTemp_reads (s : State) (ch : Nat) (temp : BitVec 16) (hch : ch < 48) :
    (s.stackTemp ch temp.toNat true).rd MCH_TEMP_NOW ch = temp.toNat ∧ (s.stackTemp ch temp.toNat true).rd MCH_TEMP_VALID ch = 1 ∧
      (s.stackTemp ch temp.toNat true).queues = s.queues := by
  unfold State.stackTemp
  rw [if_pos rfl]
  extract_lets v hot m s1 s2 s3
  have hs2 : s2 = s1.wr MCH_TEMP_VALID 1 ch := if_pos rfl
  have hnow : s2.rd MCH_TEMP_NOW ch = temp.toNat := by
    rw [hs2, State.rd_wr_ne _ _ (keyOf_ne_of_offset _ _ (by decide))]
    exact (State.rd_wr_same ..).trans (Nat.mod_eq_of_lt temp.isLt)
  have hvalid : s2.rd MCH_TEMP_VALID ch = 1 := by
    rw [hs2]
    exact (State.rd_wr_same ..).trans rfl
  have hqueues : s2.queues = s.queues := by
    rw [hs2]
    exact State.queues_of_body ((State.body_wr ..).trans (State.body_wr ..))
  clear_value s2
  have hs3 {f : Field} (h : OwnField f ch) : s3.rd f ch 0 = s2.rd f ch 0 := by
    unfold s3
    split
    · exact (State.rd_raise_ne _ _ _ (h.stat _)).trans rfl
    · rfl
  have hs3queues : s3.queues = s2.queues := by
    unfold s3
    split
    · exact (State.queues_of_body (State.body_raise ..)).trans rfl
    · rfl
  clear_value s3
  have hrd {f : Field} (h : OwnField f ch) : (((s3.setRefi ch).sample (pgMCH ch) 2 (sgn 16 v)).judgeThrottle).rd f ch 0 = s2.rd f ch 0 := by
    rw [State.rd_judgeThrottle_own _ h hch, State.rd_sample_ne_keys _ _ _ _ h.extreme h.crossed h.count (h.stat _),
      State.rd_setRefi_own _ h hch, hs3 h]
  refine ⟨(hrd (ownField_tempNow ch)).trans hnow, (hrd (ownField_tempValid ch)).trans hvalid, ?_⟩
  have hthrottle (u : State) : u.judgeThrottle.queues = u.queues := by
    unfold State.judgeThrottle
    dsimp only
    split
    · rfl
    · exact (State.queues_of_body ((State.body_crumb ..).trans (State.body_raise ..))).trans rfl
  have hrefi : (s3.setRefi ch).queues = s3.queues := by
    unfold State.setRefi
    extract_lets m limit floor want now above u
    have hu : u.queues = s3.queues := State.queues_of_body (State.body_wr ..)
    clear_value u
    split
    · exact (State.queues_of_body (State.body_policyOvr ..)).trans hu
    · exact hu
  exact (hthrottle _).trans ((State.queues_of_body (State.body_sample ..)).trans (hrefi.trans (hs3queues.trans hqueues)))

/-- Settles O20: what a queue accepts joins its entries, a WR stores and an RD senses a word of the row, and a status word is the stack's
temperature. -/
theorem queuesAndCommands : Obligations.QueuesAndCommands := by
  unfold Obligations.QueuesAndCommands
  refine ⟨fun s q e => completes_queueAccept_refresh, fun s q e => completes_queueAccept_write,
    fun s q e rest bank row col => completes_mchCommandIssue_wr, fun s q e rest bank row col => completes_mchCommandIssue_rd, ?_⟩
  intro s q r rest temp hacts hrets hwhole hkind
  have hexec := exec_readDataReturn_status (temp := temp) hacts hrets hwhole hkind
  have hcore := core_of_exec rfl hexec
  obtain ⟨hnow, hvalid, hqueues⟩ := State.stackTemp_reads
    ((s.use [pgMCH (q.val / 2)]).setQueue q.val { s.queue q.val with rets := rest }) (q.val / 2) temp (by omega)
  exact ⟨_, hexec, hnow, hvalid, (congrArg (fun l => (Tab.get l q.val Queue.fresh).rets) hqueues).trans
    (congrArg Queue.rets (State.queue_setQueue_same (s.use [pgMCH (q.val / 2)]) q.val _)), hcore⟩

end Sys2Proof.Machine
end

/-! ## O21: the memory channels' own work -/

section
namespace Sys2Proof.Machine
open Reg

theorem State.queue_setQueue_ne (s : State) {q r : Nat} (v : Queue) (h : r ≠ q) : (s.setQueue q v).queue r = s.queue r :=
  Tab.get_set_ne _ _ _ h

/-- A queue's waiting entries once one more waits, its place in order apart. -/
theorem State.queue_enqueue_same (s : State) (q : Nat) (e : Entry) : (s.enqueue q e).queue q =
    { s.queue q with waiting := (s.queue q).waiting ++ [{ e with ready := s.nextOrder }] } := State.queue_setQueue_same ..

theorem State.queue_enqueue_ne (s : State) {q r : Nat} (e : Entry) (h : r ≠ q) : (s.enqueue q e).queue r = s.queue r :=
  (State.queue_setQueue_ne _ _ h).trans rfl

theorem State.waiting_enqueue (s : State) (q : Nat) (e : Entry) :
    ((s.enqueue q e).queue q).waiting.length = (s.queue q).waiting.length + 1 ∧
    ((s.enqueue q e).queue q).waiting.getLast?.map (fun x => x.kind) = some e.kind := by
  rw [State.queue_enqueue_same]
  exact ⟨List.length_append, congrArg (Option.map _) List.getLast?_concat⟩

theorem State.waiting_placeBoth (s : State) (ch : Nat) (k : EKind) (src : ESrc) :
    ((s.placeBoth ch k src).queue (2 * ch)).waiting.length = (s.queue (2 * ch)).waiting.length + 1 ∧
    ((s.placeBoth ch k src).queue (2 * ch + 1)).waiting.length = (s.queue (2 * ch + 1)).waiting.length + 1 ∧
    ((s.placeBoth ch k src).queue (2 * ch)).waiting.getLast?.map (fun x => x.kind) = some k ∧
    ((s.placeBoth ch k src).queue (2 * ch + 1)).waiting.getLast?.map (fun x => x.kind) = some k := by
  obtain ⟨hlow, hlowKind⟩ := State.waiting_enqueue s (2 * ch) (plainEntry k src s.openEpoch)
  obtain ⟨hhigh, hhighKind⟩ := State.waiting_enqueue (s.enqueue (2 * ch) (plainEntry k src s.openEpoch)) (2 * ch + 1)
    (plainEntry k src s.openEpoch)
  rw [s.queue_enqueue_ne (q := 2 * ch) (r := 2 * ch + 1) _ (by omega)] at hhigh
  unfold State.placeBoth
  dsimp only
  rw [State.queue_enqueue_ne _ _ (show 2 * ch ≠ 2 * ch + 1 by omega)]
  exact ⟨hlow, hhigh, hlowKind, hhighKind⟩

theorem exec_refreshPlacement {s : State} {ch : Fin 48} (hacts : s.acts (pgMCH ch.val) = true) (hruns : s.mchRuns ch.val = true)
    (hself : s.selfRefresh ch.val = false) : exec (.refreshPlacement ch) s = .next (s.placeBoth ch.val .refresh .refresh) :=
  (State.onBlk_acts _ hacts).trans (if_pos (by simp [hruns, hself]))

/-! ### Training -/

theorem State.rd_trainFrom_same (s : State) (ch step : Nat) : (s.trainFrom ch step).rd MCH_TRAIN_STATE ch = step % 2 ^ 4 :=
  State.rd_wr_same ..

theorem State.rd_trainFrom_ne (s : State) {ch n : Nat} (step : Nat) (h : n ≠ ch) :
    (s.trainFrom ch step).rd MCH_TRAIN_STATE n = s.rd MCH_TRAIN_STATE n :=
  (State.rd_wr_ne _ _ (by unfold keyOf; omega)).trans rfl

/-- The start of every stack that has not begun, in turn. -/
theorem State.rd_railsGood (ch : Nat) (l : List Nat) (s : State) (hl : l.Nodup) :
    (l.foldl (fun (s : State) ch => if s.rd MCH_TRAIN_STATE ch = 0 then s.trainFrom ch 1 else s) s).rd MCH_TRAIN_STATE ch =
      if s.rd MCH_TRAIN_STATE ch = 0 ∧ ch ∈ l then 1 else s.rd MCH_TRAIN_STATE ch := by
  induction l generalizing s with
  | nil => simp
  | cons n l ih =>
    obtain ⟨hn, hl⟩ := List.nodup_cons.mp hl
    rw [List.foldl_cons, ih _ hl]
    by_cases hch : ch = n
    · subst hch
      by_cases hzero : s.rd MCH_TRAIN_STATE ch = 0
      · rw [if_pos hzero, State.rd_trainFrom_same]
        simp [hzero]
      · simp [hzero]
    · have hsame : (if s.rd MCH_TRAIN_STATE n = 0 then s.trainFrom n 1 else s).rd MCH_TRAIN_STATE ch = s.rd MCH_TRAIN_STATE ch := by
        split
        · exact State.rd_trainFrom_ne _ _ hch
        · rfl
      simp [hsame, hch]

theorem State.cond_of_acts {s : State} {p : Nat} (h : s.acts p = true) : s.rd H_COND p ≠ 2 := by
  simp only [State.acts, State.stopped, Bool.and_eq_true, Bool.not_eq_true', Bool.or_eq_false_iff, beq_eq_false_iff_ne] at h
  exact h.2.1

theorem State.kept_copyIdPage (s : State) (ch : Nat) (b : List Byte) : (s.copyIdPage ch b).rd WARDEN_MEM_KEPT = s.rd WARDEN_MEM_KEPT := by
  unfold State.copyIdPage
  refine State.rd_foldl _ (fun u i => State.rd_wr_ne _ _ ?_) _ _
  simp only [keyOf, MCH_IDPAGE, WARDEN_MEM_KEPT]
  omega

theorem State.core_trained_cleared {s : State} {ch : Nat} (hkept : s.rd WARDEN_MEM_KEPT = 0) :
    (s.trained ch).core = { s.core with
      dram := Memory.clear s.dram (2 * ch * (16 * 512 * 523 * rowBytes)) (2 * (16 * 512 * 523 * rowBytes)) } := by
  have hclear : (s.clearStack ch).core = { s.core with
      dram := Memory.clear s.dram (2 * ch * (16 * 512 * 523 * rowBytes)) (2 * (16 * 512 * 523 * rowBytes)) } := by
    unfold State.clearStack
    refine (foldl_keeps State.core _ (fun a k => ?_) _ _).trans rfl
    exact (State.core_count ..).trans (State.core_bumpCmd ..)
  have hnot : ¬ s.rd WARDEN_MEM_KEPT = 1 := by omega
  unfold State.trained
  dsimp only
  rw [State.core_wr, State.core_wr, State.core_setMch, if_neg hnot, hclear]

theorem State.trained_reads (s : State) (ch : Nat) : (s.trained ch).rd MCH_TRAIN_STATE ch = 0xF ∧ (s.trained ch).rd H_COND (pgMCH ch) = 1 := by
  unfold State.trained
  dsimp only
  refine ⟨?_, (State.rd_wr_same ..).trans rfl⟩
  rw [State.rd_wr_ne _ _ (keyOf_ne_of_offset _ _ (by decide))]
  exact (State.rd_wr_same ..).trans rfl

theorem exec_trainingDone {s : State} {ch : Fin 48} {idPage : Bytes} (hacts : s.acts (pgMCH ch.val) = true)
    (hbegun : s.rd MCH_TRAIN_STATE ch.val ≠ 0) (hrunning : s.rd MCH_TRAIN_STATE ch.val ≠ 0xF) (hkept : s.rd WARDEN_MEM_KEPT = 0)
    (hpage : idPageOk idPage = true) : exec (.trainingDone ch idPage none) s = .next ((s.copyIdPage ch.val idPage).trained ch.val) := by
  refine (State.onBlk_acts _ hacts).trans ((if_neg ?_).trans ((if_neg (by omega)).trans (congrArg Host.Outcome.next (if_pos hpage))))
  simp [hbegun, hrunning, State.cond_of_acts hacts]

theorem exec_trainingDone_fail {s : State} {ch : Fin 48} {idPage : Bytes} {k : BitVec 4} (hacts : s.acts (pgMCH ch.val) = true)
    (hbegun : s.rd MCH_TRAIN_STATE ch.val ≠ 0) (hrunning : s.rd MCH_TRAIN_STATE ch.val ≠ 0xF) (hlow : 1 ≤ k.toNat) (hhigh : k.toNat ≤ 11) :
    exec (.trainingDone ch idPage (some k)) s = .next (s.trainFail ch.val k.toNat) := by
  refine (State.onBlk_acts _ hacts).trans ((if_neg ?_).trans (if_pos (by simp [hlow, hhigh])))
  simp [hbegun, hrunning, State.cond_of_acts hacts]

theorem State.stopMch_reads (s : State) {ch step : Nat} (hch : ch < 48) (hstep : step < 16) :
    (s.stopMch ch step).rd H_COND (pgMCH ch) = 2 ∧ (s.stopMch ch step).rd MCH_TRAIN_FAIL_STEP ch = step ∧
      bit ((s.stopMch ch step).rd H_INT_STAT (pgMCH ch)) I_MCH_TRAIN_FAIL = true := by
  have hpage {f : Field} (h : f.page = 0) (ho : f.off < 0x1000) (hl : f.lo < 64) : keyOf f (pgMCH ch) 0 / 0x40000 ≠ pgEVLOG := by
    rw [page_of_key (by simpa using ho) hl, h]
    unfold pgMCH pgEVLOG
    omega
  have hfail : keyOf MCH_TRAIN_FAIL_STEP ch 0 / 0x40000 ≠ pgEVLOG := by
    rw [page_of_key (by decide) (by decide)]
    exact (by unfold pgEVLOG; omega : 0x20 + ch ≠ pgEVLOG)
  unfold State.stopMch
  refine ⟨?_, ?_, ?_⟩
  · rw [State.rd_crumb_ne _ _ _ _ _ (hpage rfl (by decide) (by decide)), State.rd_raise_ne _ _ _ (keyOf_ne_of_offset _ _ (by decide)),
      State.rd_wr_ne _ _ (keyOf_ne_of_offset _ _ (by decide))]
    exact (State.rd_wr_same ..).trans rfl
  · rw [State.rd_crumb_ne _ _ _ _ _ hfail, State.rd_raise_ne _ _ _ (keyOf_ne_of_offset _ _ (by decide))]
    exact (State.rd_wr_same ..).trans (Nat.mod_eq_of_lt hstep)
  · rw [State.rd_crumb_ne _ _ _ _ _ (hpage rfl (by decide) (by decide))]
    exact State.bit_raise_same _ _ (by decide)

theorem State.bit_raise_keeps (s : State) (p c : Nat) {d : Nat} (hd : d < 32) (h : bit (s.rd H_INT_STAT p) d = true) :
    bit ((s.raise p c).rd H_INT_STAT p) d = true := by
  rw [bit_eq_testBit] at h ⊢
  rw [State.rd_raise_same, Nat.testBit_mod_two_pow, Nat.testBit_or, h]
  simp [hd]

theorem State.stopMch_keeps (s : State) {ch : Nat} (hch : ch < 48) (step : Nat) :
    (s.stopMch ch step).rd MCH_CA_ALERT ch = s.rd MCH_CA_ALERT ch ∧
    (bit (s.rd H_INT_STAT (pgMCH ch)) I_MCH_ALERT = true → bit ((s.stopMch ch step).rd H_INT_STAT (pgMCH ch)) I_MCH_ALERT = true) ∧
    ∀ q, (s.stopMch ch step).queue q = s.queue q := by
  have hstat : keyOf H_INT_STAT (pgMCH ch) 0 / 0x40000 ≠ pgEVLOG := by
    rw [page_of_key (by decide) (by decide)]
    exact (by unfold pgEVLOG pgMCH; omega : 0 + pgMCH ch ≠ pgEVLOG)
  have halert : keyOf MCH_CA_ALERT ch 0 / 0x40000 ≠ pgEVLOG := by
    rw [page_of_key (by decide) (by decide)]
    exact (by unfold pgEVLOG; omega : 0x20 + ch ≠ pgEVLOG)
  unfold State.stopMch
  refine ⟨?_, fun hbit => ?_, fun q => ?_⟩
  · rw [State.rd_crumb_ne _ _ _ _ _ halert, State.rd_raise_ne _ _ _ (keyOf_ne_of_offset _ _ (by decide)),
      State.rd_wr_ne _ _ (keyOf_ne_of_offset _ _ (by decide)), State.rd_wr_ne _ _ (keyOf_ne_of_offset _ _ (by decide))]
  · rw [State.rd_crumb_ne _ _ _ _ _ hstat]
    refine State.bit_raise_keeps _ _ _ (by decide) ?_
    rwa [State.rd_wr_ne _ _ (keyOf_ne_of_offset _ _ (by decide)), State.rd_wr_ne _ _ (keyOf_ne_of_offset _ _ (by decide))]
  · exact (State.queue_of_body ((State.body_crumb ..).trans (State.body_raise ..)) q).trans rfl

/-! ### Parity alerts and power entries -/

/-- The state once an alert is counted and reported, and the queue's replay set up. -/
def State.alerted (s : State) (q count : Nat) : State :=
  let m := s.mch (q / 2)
  let recent := s.ao :: m.alerts.filter (fun t => decide (s.ao < t + 1563))
  ((((s.setMch (q / 2) { m with alerts := recent }).bump MCH_CA_ALERT (q / 2)).raise (pgMCH (q / 2)) I_MCH_ALERT).crumb
    (pgMCH (q / 2)) 0x402 1 [packBits [(0, 7, q), (8, 8, count)]]).setQueue q
      ((s.queue q).startRedo (((s.queue q).issued + 256 - count) % 256))

/-- The state of an alert at which the channel has had more than 16 in a millisecond. -/
def State.alertedStopped (s : State) (q count : Nat) : State :=
  (s.alerted q count).stopMch (q / 2) ((s.alerted q count).rd MCH_TRAIN_STATE (q / 2))

theorem exec_parityAlert {s : State} {q : Fin 96} {count : BitVec 8} (hacts : s.acts (pgMCH (q.val / 2)) = true)
    (hruns : s.mchRuns (q.val / 2) = true) (hissued : (s.queue q.val).issued ≠ 0) :
    exec (.parityAlert q count) s = .next (s.alerted q.val count.toNat) ∨
    exec (.parityAlert q count) s = .next (s.alertedStopped q.val count.toNat) := by
  have hmay : ¬ ((!s.mchRuns (q.val / 2) || decide ((s.queue q.val).issued = 0)) = true) := by simp [hruns, hissued]
  have hexec : exec (.parityAlert q count) s = .next (if (s.ao :: (s.mch (q.val / 2)).alerts.filter (fun t => decide (s.ao < t + 1563))).length > 16
      then s.alertedStopped q.val count.toNat else s.alerted q.val count.toNat) := (State.onBlk_acts _ hacts).trans (if_neg hmay)
  rw [hexec]
  split
  · exact .inr rfl
  · exact .inl rfl

theorem State.alerted_reads (s : State) {q : Nat} (count : Nat) (hq : q < 96) :
    (s.alerted q count).rd MCH_CA_ALERT (q / 2) = min (2 ^ MCH_CA_ALERT.width - 1) (s.rd MCH_CA_ALERT (q / 2) + 1) ∧
    bit ((s.alerted q count).rd H_INT_STAT (pgMCH (q / 2))) I_MCH_ALERT = true ∧
    ((s.alerted q count).queue q).redo.head?.map (fun p => p.cmds) = some [.vsts, .vclr, .preab] := by
  have hstat : keyOf H_INT_STAT (pgMCH (q / 2)) 0 / 0x40000 ≠ pgEVLOG := by
    rw [page_of_key (by decide) (by decide)]
    exact (by unfold pgEVLOG pgMCH; omega : 0 + pgMCH (q / 2) ≠ pgEVLOG)
  have halert : keyOf MCH_CA_ALERT (q / 2) 0 / 0x40000 ≠ pgEVLOG := by
    rw [page_of_key (by decide) (by decide)]
    exact (by unfold pgEVLOG; omega : 0x20 + q / 2 ≠ pgEVLOG)
  unfold State.alerted
  dsimp only
  refine ⟨?_, ?_, ?_⟩
  · refine (State.rd_crumb_ne _ _ _ _ _ halert :).trans ?_
    rw [State.rd_raise_ne _ _ _ (keyOf_ne_of_offset _ _ (by decide)), State.rd_bump_same]
    rfl
  · refine (congrArg (fun v => bit v I_MCH_ALERT) (State.rd_crumb_ne _ _ _ _ _ hstat) :).trans ?_
    exact State.bit_raise_same _ _ (by decide)
  · rw [State.queue_setQueue_same]
    rfl

theorem exec_mchPowerEntry {s : State} {ch : Fin 48} (hacts : s.acts (pgMCH ch.val) = true) (htrained : s.mchTrained ch.val = true)
    (hnap : s.rd H_PWR_NOW (pgMCH ch.val) = 1) (hlow : s.queue (2 * ch.val) = Queue.fresh)
    (hhigh : s.queue (2 * ch.val + 1) = Queue.fresh) : exec (.mchPowerEntry ch) s = .next
      ((s.pushEntries (2 * ch.val) [s.settleEntry (2 * ch.val) (plainEntry (.power false) .pwr s.openEpoch)]).pushEntries (2 * ch.val + 1)
        [s.settleEntry (2 * ch.val + 1) (plainEntry (.power false) .pwr s.openEpoch)]) := by
  refine (State.onBlk_acts _ hacts).trans ?_
  dsimp only
  rw [hnap]
  exact if_pos (by simp [htrained, hlow, hhigh, Queue.fresh])

theorem State.kind_settleEntry_power (s : State) (q ep : Nat) :
    (s.settleEntry q (plainEntry (.power false) .pwr ep)).kind = .power false := rfl

theorem completes_mchPowerEntry {s : State} {ch : Fin 48} (hacts : s.acts (pgMCH ch.val) = true) (htrained : s.mchTrained ch.val = true)
    (hnap : s.rd H_PWR_NOW (pgMCH ch.val) = 1) (hlow : s.queue (2 * ch.val) = Queue.fresh)
    (hhigh : s.queue (2 * ch.val + 1) = Queue.fresh) : Completes (.mchPowerEntry ch) s fun t =>
      (t.queue (2 * ch.val)).entries.map (fun e => e.kind) = [.power false] ∧
      (t.queue (2 * ch.val + 1)).entries.map (fun e => e.kind) = [.power false] ∧ t.core = s.core := by
  have hexec := exec_mchPowerEntry hacts htrained hnap hlow hhigh
  have hcore := core_of_exec rfl hexec
  have hother (u : State) (q r : Nat) (es : List Entry) (h : r ≠ q) : (u.pushEntries q es).queue r = u.queue r :=
    (State.queue_of_body (State.body_sample ..) r).trans (State.queue_setQueue_ne _ _ h)
  refine ⟨_, hexec, ?_, ?_, hcore⟩
  · rw [hother _ _ _ _ (by omega), State.queue_pushEntries, hlow]
    exact congrArg (fun k => [k]) (State.kind_settleEntry_power ..)
  · rw [State.queue_pushEntries, hother _ _ _ _ (by omega), hhigh]
    exact congrArg (fun k => [k]) (State.kind_settleEntry_power ..)

theorem State.mch_setMch_same (s : State) (n : Nat) (m : Mch) : (s.setMch n m).mch n = m := Tab.get_set_same ..

theorem State.mch_trainFrom (s : State) (ch step : Nat) :
    (s.trainFrom ch step).mch ch = { s.mch ch with trainAt := (s.ao : Int) - (trainTime step : Int) } := State.mch_setMch_same ..

theorem State.trainFail_first {s : State} {ch step : Nat} (hretried : (s.mch ch).retried = false) :
    s.trainFail ch step = (s.setMch ch { s.mch ch with retried := true, step := step }).trainFrom ch step :=
  if_neg (by simp [hretried])

theorem State.dram_of_core {s : State} {c : Core} (h : s.core = c) : s.dram = c.dram := congrArg Core.dram h

theorem State.opts_of_core {s : State} {c : Core} (h : s.core = c) : s.opts = c.opts := congrArg Core.opts h

theorem completes_trainingDone {s : State} {ch : Fin 48} {idPage : Bytes} (hacts : s.acts (pgMCH ch.val) = true)
    (hbegun : s.rd MCH_TRAIN_STATE ch.val ≠ 0) (hrunning : s.rd MCH_TRAIN_STATE ch.val ≠ 0xF) (hkept : s.rd WARDEN_MEM_KEPT = 0)
    (hpage : idPageOk idPage = true) : Completes (.trainingDone ch idPage none) s fun t => t.rd MCH_TRAIN_STATE ch.val = 0xF ∧
      t.rd H_COND (pgMCH ch.val) = 1 ∧
      t.dram = Memory.clear s.dram (2 * ch.val * (16 * 512 * 523 * rowBytes)) (2 * (16 * 512 * 523 * rowBytes)) ∧ t.opts = s.opts := by
  obtain ⟨hstate, hcond⟩ := State.trained_reads (s.copyIdPage ch.val idPage) ch.val
  have hcopied := State.core_copyIdPage s ch.val idPage
  have hdram : (s.copyIdPage ch.val idPage).dram = s.dram := State.dram_of_core hcopied
  have hcore := State.core_trained_cleared (ch := ch.val) ((State.kept_copyIdPage s ch.val idPage).trans hkept)
  rw [hcopied, hdram] at hcore
  exact ⟨_, exec_trainingDone hacts hbegun hrunning hkept hpage, hstate, hcond, State.dram_of_core hcore, State.opts_of_core hcore⟩

theorem completes_trainingDone_first {s : State} {ch : Fin 48} {idPage : Bytes} {k : BitVec 4} (hacts : s.acts (pgMCH ch.val) = true)
    (hbegun : s.rd MCH_TRAIN_STATE ch.val ≠ 0) (hrunning : s.rd MCH_TRAIN_STATE ch.val ≠ 0xF) (hlow : 1 ≤ k.toNat) (hhigh : k.toNat ≤ 11)
    (hretried : (s.mch ch.val).retried = false) : Completes (.trainingDone ch idPage (some k)) s fun t =>
      t.rd MCH_TRAIN_STATE ch.val = k.toNat ∧ (t.mch ch.val).retried = true ∧ (t.mch ch.val).step = k.toNat ∧ t.core = s.core := by
  have hexec := exec_trainingDone_fail (idPage := idPage) hacts hbegun hrunning hlow hhigh
  have hcore := State.core_trainFail s ch.val k.toNat
  rw [State.trainFail_first hretried] at hexec hcore
  refine ⟨_, hexec, ?_, ?_, ?_, hcore⟩
  · rw [State.rd_trainFrom_same]
    omega
  · rw [State.mch_trainFrom, State.mch_setMch_same]
  · rw [State.mch_trainFrom, State.mch_setMch_same]

/-- Settles O21: the entries that a channel places, each end of its training, its alerts and its power entries are computed. -/
theorem channelWork : Obligations.ChannelWork := by
  unfold Obligations.ChannelWork
  refine ⟨?_, ?_, ?_, ?_, fun s ch idPage => completes_trainingDone, fun s ch idPage k => completes_trainingDone_first, ?_, ?_,
    fun s ch => completes_mchPowerEntry⟩
  · intro s ch hacts hruns hself
    have hexec := exec_refreshPlacement hacts hruns hself
    obtain ⟨hlow, hhigh, hkind, -⟩ := State.waiting_placeBoth s ch.val .refresh .refresh
    exact ⟨_, hexec, hlow, hhigh, hkind, rfl, core_of_exec rfl hexec⟩
  · intro s ch hacts hruns
    have hexec : exec (.statusPlacement ch) s = .next (s.enqueue (2 * ch.val) (plainEntry .status .mch s.openEpoch)) :=
      (State.onBlk_acts _ hacts).trans (if_pos hruns)
    obtain ⟨hlength, hkind⟩ := State.waiting_enqueue s (2 * ch.val) (plainEntry .status .mch s.openEpoch)
    exact ⟨_, hexec, hlength, hkind, rfl, core_of_exec rfl hexec⟩
  · intro s ch hacts htrained
    have hexec : exec (.retrainPlacement ch) s = .next (s.placeBoth ch.val .retrain .mch) :=
      (State.onBlk_acts _ hacts).trans (if_pos htrained)
    obtain ⟨-, -, hlow, hhigh⟩ := State.waiting_placeBoth s ch.val .retrain .mch
    exact ⟨_, hexec, hlow, hhigh, rfl, core_of_exec rfl hexec⟩
  · intro s ch hacts
    have hexec : exec .stackRailsGood s =
        .next (channels.foldl (fun (s : State) ch => if s.rd MCH_TRAIN_STATE ch = 0 then s.trainFrom ch 1 else s) s) :=
      State.onBlk_acts _ hacts
    have hmem : ch.val ∈ channels := List.mem_range.mpr ch.isLt
    exact ⟨_, hexec, (State.rd_railsGood ch.val channels s List.nodup_range).trans (by simp [hmem]), core_of_exec rfl hexec⟩
  · intro s ch idPage k hacts hbegun hrunning hlow hhigh hretried hstep
    have hfail : s.trainFail ch.val k.toNat = s.stopMch ch.val k.toNat := if_pos (by simp [hretried, hstep])
    obtain ⟨hcond, hfailStep, hbit⟩ := State.stopMch_reads s (step := k.toNat) ch.isLt k.isLt
    rw [← hfail] at hcond hfailStep hbit
    exact ⟨_, exec_trainingDone_fail hacts hbegun hrunning hlow hhigh, hcond, hfailStep, hbit, State.core_trainFail ..⟩
  · intro s q count hacts hruns hissued
    obtain ⟨hcount, hbit, hredo⟩ := State.alerted_reads s count.toNat q.isLt
    rcases exec_parityAlert (count := count) hacts hruns hissued with hexec | hexec
    · exact ⟨_, hexec, hcount, hbit, hredo, core_of_exec rfl hexec⟩
    · obtain ⟨hcountKept, hbitKept, hqueues⟩ :=
        State.stopMch_keeps (s.alerted q.val count.toNat) (ch := q.val / 2) (by omega) ((s.alerted q.val count.toNat).rd MCH_TRAIN_STATE (q.val / 2))
      exact ⟨_, hexec, hcountKept.trans hcount, hbitKept hbit, (congrArg (fun c => c.redo.head?.map (fun p => p.cmds)) (hqueues q.val)).trans hredo,
        core_of_exec rfl hexec⟩

end Sys2Proof.Machine
end

section
namespace Sys2Proof.Machine
open Reg

/-! ## O23: a rescan of the Poisoned Row List -/

theorem State.rdl_of_body {s t : State} (h : t.body = s.body) : t.rdl = s.rdl := (congrArg State.rdl h :)

theorem State.regs_rescanRow (s : State) (r : Rescan) : (s.rescanRow r).regs = s.regs := by
  unfold State.rescanRow
  generalize List.range 128 = cols
  dsimp only
  exact foldl_keeps State.regs _ (fun _ _ => by rfl) _ _

theorem State.rdl_rescanRow (s : State) (r : Rescan) : (s.rescanRow r).rdl = s.rdl := by
  unfold State.rescanRow
  generalize List.range 128 = cols
  dsimp only
  exact foldl_keeps State.rdl _ (fun _ _ => by rfl) _ _

theorem State.rescanGo_idle {s : State} (h : s.rdl.rescan = none) : ∃ u : State, s.rescanGo = u ∧ u.regs = s.regs ∧
    u.rdl.rescan = some { q := s.rd RDL_RS_QUEUE, bank := s.rd RDL_RS_BANK, sa := s.rd RDL_RS_SUBARRAY, left := 512 * 128, missed := false } := by
  refine ⟨_, if_neg (by simp [h]), ?_, ?_⟩
  · exact State.regs_rescanRow ..
  · exact congrArg Rdl.rescan (State.rdl_rescanRow ..)

theorem State.rescanGo_running {s : State} (h : s.rdl.rescan.isSome = true) : s.rescanGo = s.cfgErr pgRDL 0 0x10C := if_pos h

/-- The state once a rescan has ended: its bank subarray's overflow stays only where a poisoned line found no entry. -/
def State.rescanned (s : State) (r : Rescan) : State :=
  { s with rdl := { s.rdl with
      rescan := none, ovf := if r.missed then s.rdl.ovf else s.rdl.ovf.filter (· != saKey r.q r.bank r.sa) } }

theorem exec_rescanDone {s : State} {r : Rescan} (hacts : s.acts pgRDL = true) (hrescan : s.rdl.rescan = some r) (hleft : r.left = 0) :
    exec .rescanDone s = .next (((s.rescanned r).wr RDL_RESCAN_OVF (b2n r.missed)).raise pgRDL I_RDL_RESCAN_DONE) := by
  refine (State.onBlk_acts _ hacts).trans ?_
  rw [hrescan]
  exact if_pos hleft

/-- Settles O23: each clause computes the one branch of RESCAN_GO or of the rescan's end that its hypotheses leave. -/
theorem poisonRescan : Obligations.PoisonRescan := by
  unfold Obligations.PoisonRescan
  refine ⟨?_, ?_, ?_⟩
  · intro s hacts hnone
    obtain ⟨u, hgo, hregs, hrescan⟩ := State.rescanGo_idle hnone
    have hexec : exec .rescanGo s = .next u := (State.onBlk_acts _ hacts).trans (congrArg Host.Outcome.next hgo)
    exact ⟨u, hexec, hrescan, hregs, core_of_exec rfl hexec⟩
  · intro s hacts hsome
    have hbody := State.body_cfgErr s pgRDL 0 0x10C
    exact ⟨_, (State.onBlk_acts _ hacts).trans (congrArg Host.Outcome.next (State.rescanGo_running hsome)),
      State.rdl_of_body hbody, State.rd_cfgErr_same .., hbody⟩
  · intro s r hacts hrescan hleft hmissed
    have hexec := exec_rescanDone hacts hrescan hleft
    rw [hmissed] at hexec
    have hrdl : (((s.rescanned r).wr RDL_RESCAN_OVF (b2n false)).raise pgRDL I_RDL_RESCAN_DONE).rdl = (s.rescanned r).rdl :=
      State.rdl_of_body ((State.body_raise ..).trans (State.body_wr ..))
    refine ⟨_, hexec, ?_, ?_, ?_, State.bit_raise_same _ _ (by decide), core_of_exec rfl hexec⟩
    · rw [hrdl]
      rfl
    · rw [hrdl]
      simp [State.rescanned, hmissed]
    · rw [State.rd_raise_ne _ _ _ (by decide)]
      exact State.rd_wr_same ..

end Sys2Proof.Machine
end

section
namespace Sys2Proof.Machine
open Reg

/-! ## O24, O25: micro-ops of one word -/

/-! ### What a served micro-op does -/

theorem State.ctx_setCtx_same (s : State) (rce c : Nat) (v : Ctx) : (s.setCtx rce c v).ctx rce c = v := Tab.get_set_same ..

theorem State.ctx_updCtx_same (s : State) (rce c : Nat) (f : Ctx → Ctx) : (s.updCtx rce c f).ctx rce c = f (s.ctx rce c) :=
  Tab.get_set_same ..

theorem State.ctx_of_body {s t : State} (h : t.body = s.body) (rce c : Nat) : t.ctx rce c = s.ctx rce c :=
  congrArg (fun l => Tab.get l (rce * 8 + c) Ctx.fresh) (congrArg State.ctxs h :)

theorem State.body_csFetch (s : State) (rce a : Nat) : (s.csFetch rce a).2.body = s.body := by
  unfold State.csFetch
  dsimp only
  split
  · rfl
  · exact (State.body_crumb ..).trans ((State.body_raise ..).trans (State.body_bump ..))

/-- A context after one micro-op: its next PC, and the word fetched behind its window. -/
def State.advanced (s : State) (rce c : Nat) : Ctx :=
  let x := s.ctx rce c
  { x with pc := (x.pc + 1) % 0x4000, window := x.window.drop 1 ++ [(s.csFetch rce (x.pc + 2)).1], since := x.since + 1, state := 1, stall := 0 }

theorem State.ctx_advance (s : State) (rce c : Nat) (b : Bake) : (s.advance rce c b).ctx rce c = s.advanced rce c := by
  have hbody := ((State.body_count ..).trans (State.body_bump ..) :
    ((((s.csFetch rce ((s.ctx rce c).pc + 2)).2.setCtx rce c (s.advanced rce c)).bump RCE_UOPS rce).count 8 b.tid b.job 1).body = _)
  exact (State.ctx_of_body hbody rce c).trans (State.ctx_setCtx_same ..)

theorem State.ctx_jump (s : State) (rce c t : Nat) (b : Bake) : (s.jump rce c t b).ctx rce c = { s.ctx rce c with pc := t, window := [] } :=
  (State.ctx_of_body (State.body_count ..) rce c).trans (State.ctx_updCtx_same ..)

theorem State.uop_go {s : State} {rce ci w opc : Nat} {b : Bake} {safe : Ctx → Nat → Bool} {act : State → Ctx → Bake → Nat → UAct}
    {f : State → State} (hexecutes : s.executes rce ci w b = true) (hopc : uOpc w = opc) (hact : act s (s.ctx rce ci) b w = .go f) :
    s.uop rce ci opc safe act = f (s.advance rce ci b) := by
  simp only [State.executes, Bool.and_eq_true, beq_iff_eq, bne_iff_ne, Option.isNone_iff_eq_none, Bool.not_eq_true'] at hexecutes
  obtain ⟨⟨⟨⟨⟨hhead, hbake⟩, hchosen⟩, hcond⟩, hfault⟩, haborted⟩ := hexecutes
  obtain ⟨ws, hwindow⟩ := List.head?_eq_some_iff.mp hhead
  simp [State.uop, hwindow, hbake, hchosen, hcond, hfault, hopc, hact, haborted]

/-- The command of one micro-op, as the kind of word and what it does. -/
def UopCommand (c : Instr) (rce ci opc : Nat) (safe : Ctx → Nat → Bool) (act : State → Ctx → Bake → Nat → UAct) : Prop :=
  c.touchesCore = false ∧ ∀ s, exec c s = s.onBlk (pgRCE rce) (.next (s.uop rce ci opc safe act))

theorem UopCommand.completes {c : Instr} {s : State} {rce ci w opc : Nat} {b : Bake} {safe : Ctx → Nat → Bool}
    {act : State → Ctx → Bake → Nat → UAct} {f : State → State} (hcommand : UopCommand c rce ci opc safe act)
    (hacts : s.acts (pgRCE rce) = true) (hexecutes : s.executes rce ci w b = true) (hopc : uOpc w = opc)
    (hact : act s (s.ctx rce ci) b w = .go f) : Completes c s fun t => t = f (s.advance rce ci b) ∧ t.core = s.core := by
  obtain ⟨hcore, hexec⟩ := hcommand
  have hnext : exec c s = .next (f (s.advance rce ci b)) := by
    rw [hexec, State.onBlk_acts _ hacts, State.uop_go hexecutes hopc hact]
  exact ⟨_, hnext, rfl, core_of_exec hcore hnext⟩

/-! ### Register micro-ops -/

theorem completes_registerOp {c : Instr} {s : State} {rce ci w opc : Nat} {b : Bake} (v : Ctx → Nat → Nat)
    (hcommand : UopCommand c rce ci opc noSafe (fun _ x _ w => setXA rce ci w (v x w)))
    (hacts : s.acts (pgRCE rce) = true) (hexecutes : s.executes rce ci w b = true) (hopc : uOpc w = opc) : Completes c s fun t =>
      (t.ctx rce ci).x = setNth (s.ctx rce ci).x (uA w) (BitVec.ofNat 32 (v (s.ctx rce ci) w)) ∧
      (t.ctx rce ci).pc = ((s.ctx rce ci).pc + 1) % 0x4000 ∧ (t.ctx rce ci).lc = (s.ctx rce ci).lc ∧
      (t.ctx rce ci).stack = (s.ctx rce ci).stack ∧ (t.ctx rce ci).group = (s.ctx rce ci).group ∧ t.core = s.core := by
  obtain ⟨t, hnext, ht, hcore⟩ := hcommand.completes hacts hexecutes hopc rfl
  have hctx : t.ctx rce ci = (s.advanced rce ci).setReg (uA w) (v (s.ctx rce ci) w) := by
    rw [ht, State.ctx_updCtx_same, State.ctx_advance]
  refine ⟨t, hnext, ?_, ?_, ?_, ?_, ?_, hcore⟩ <;> rw [hctx] <;> rfl

/-- Settles O24: each register micro-op is one value written to register A. -/
theorem microOpRegisters : Obligations.MicroOpRegisters := by
  unfold Obligations.MicroOpRegisters
  refine ⟨?_, ?_, ?_, ?_, ?_, ?_, ?_, ?_, ?_, ?_, ?_⟩ <;> intro s rce ctx w b
  · exact completes_registerOp (fun _ w => uImm w) ⟨rfl, fun _ => rfl⟩
  · exact completes_registerOp (fun x w => uImm w * 2 ^ 16 + x.reg (uA w) % 2 ^ 16) ⟨rfl, fun _ => rfl⟩
  · exact completes_registerOp (fun x w => unsgn 32 ((x.reg (uB w) : Int) + sgn 16 (uImm w))) ⟨rfl, fun _ => rfl⟩
  · exact completes_registerOp (fun x w => x.reg (uB w) + x.reg (uC w)) ⟨rfl, fun _ => rfl⟩
  · exact completes_registerOp (fun x w => unsgn 32 ((x.reg (uB w) : Int) - x.reg (uC w))) ⟨rfl, fun _ => rfl⟩
  · exact completes_registerOp (fun x w => x.reg (uB w) &&& x.reg (uC w)) ⟨rfl, fun _ => rfl⟩
  · exact completes_registerOp (fun x w => x.reg (uB w) ||| x.reg (uC w)) ⟨rfl, fun _ => rfl⟩
  · exact completes_registerOp (fun x w => x.reg (uB w) ^^^ x.reg (uC w)) ⟨rfl, fun _ => rfl⟩
  · exact completes_registerOp (fun x w => x.reg (uB w) * 2 ^ bits w 0 5) ⟨rfl, fun _ => rfl⟩
  · exact completes_registerOp (fun x w => x.reg (uB w) / 2 ^ bits w 0 5) ⟨rfl, fun _ => rfl⟩
  · exact completes_registerOp (fun x w => x.counter (bits w 0 2)) ⟨rfl, fun _ => rfl⟩

end Sys2Proof.Machine
end

section
namespace Sys2Proof.Machine
open Reg

/-! ### The end of a run leaves its context stopped -/

theorem State.ctxs_of_body {s t : State} (h : t.body = s.body) : t.ctxs = s.ctxs := (congrArg State.ctxs h :)

@[simp] theorem State.ctxs_laneReads (s : State) (ch : Nat) (j : LaneJob) (b : Bake) (i : Nat) : (s.laneReads ch j b i).ctxs = s.ctxs := by
  unfold State.laneReads
  dsimp only
  refine foldl_keeps State.ctxs _ (fun a x => ?_) _ _
  exact (State.ctxs_of_body ((State.body_count ..).trans (State.body_bump ..))).trans rfl

@[simp] theorem ctxs_lanePumpOver (ch : Nat) (l : List LaneJob) (s : State) : (lanePumpOver ch l s).ctxs = s.ctxs := by
  induction l generalizing s with
  | nil => rfl
  | cons j rest ih =>
    unfold lanePumpOver
    split
    · exact ih s
    · split
      · rfl
      · extract_lets r
        split
        · exact ih s
        · exact State.ctxs_laneReads ..

@[simp] theorem State.ctxs_placeLane (s : State) (ch : Nat) (j : LaneJob) : (s.placeLane ch j).ctxs = s.ctxs := ctxs_lanePumpOver ..

@[simp] theorem State.ctxs_twSeq (s : State) (opc : Nat) (fields : List (Nat × Nat × Nat)) (data : List Slot) (tid job : Nat) :
    (s.twSeq opc fields data tid job).2.ctxs = s.ctxs := by
  unfold State.twSeq
  dsimp only
  split
  · exact (State.ctxs_of_body ((State.body_sample ..).trans (State.body_twSend ..))).trans rfl
  · rfl

@[simp] theorem State.ctxs_bakeEnds (s : State) (bid : Nat) : (s.bakeEnds bid).ctxs = s.ctxs := by
  unfold State.bakeEnds
  split
  · rfl
  · split
    · split
      · exact State.ctxs_twSeq ..
      · rfl
    · rfl

/-- A Bake that ends well stops no context of it. -/
@[simp] theorem State.ctxs_conclude (s : State) (bid fault ch : Nat) : (s.conclude bid 0 fault ch).ctxs = s.ctxs := by
  unfold State.conclude
  split
  · rfl
  · split
    · rfl
    · exact State.ctxs_bakeEnds ..

theorem State.ctxs_placeRanks (b : Bake) (kind : Nat) (chs : List Nat) (s : State) : (chs.foldl (fun (s : State) ch =>
    let (lo, hi) := b.ranks ch
    if lo = hi then s
    else s.placeLane ch { bid := b.id, ctx := 8, kind := kind, rank := lo, last := hi, got := [], busy := false }) s).ctxs = s.ctxs := by
  induction chs generalizing s with
  | nil => rfl
  | cons ch rest ih =>
    rw [List.foldl_cons, ih]
    dsimp only
    split
    · rfl
    · exact State.ctxs_placeLane ..

@[simp] theorem State.ctxs_placeLanePart (s : State) (b : Bake) : (s.placeLanePart b).ctxs = s.ctxs := by
  unfold State.placeLanePart
  dsimp only
  split
  · exact (State.ctxs_conclude ..).trans (State.ctxs_placeRanks ..)
  · exact State.ctxs_placeRanks ..

@[simp] theorem State.ctxs_afterEnd (s : State) (bid : Nat) : (s.afterEnd bid).ctxs = s.ctxs := by
  unfold State.afterEnd
  split
  · rfl
  next b hb =>
    dsimp only
    split
    · have hdecided : (if b.decided then s else s.conclude bid 0 0 0).ctxs = s.ctxs := by
        split
        · rfl
        · exact State.ctxs_conclude ..
      split
      · rw [State.ctxs_bakeEnds]
        split
        · exact (State.ctxs_placeLanePart ..).trans hdecided
        · exact hdecided
      · exact hdecided
    · rfl

theorem Tab.get?_map_if {α : Type} (p : Nat × α → Bool) (g : α → α) (l : Tab α) (k : Nat) :
    Tab.get? (l.map (fun c => if p c then (c.1, g c.2) else c)) k = (Tab.get? l k).map (fun v => if p (k, v) then g v else v) := by
  induction l with
  | nil => rfl
  | cons c rest ih =>
    obtain ⟨n, v⟩ := c
    by_cases hp : p (n, v) = true <;> by_cases hk : k = n <;> simp_all [Tab.get?] <;> split <;> simp

/-- Freeing contexts stops a context or leaves it. -/
theorem State.state_freeCtxs (s : State) (rce c : Nat) : (s.freeCtxs.ctx rce c).state = 0 ∨ s.freeCtxs.ctx rce c = s.ctx rce c := by
  unfold State.freeCtxs
  extract_lets held free gone s1
  have hctx : s1.ctx rce c = if free (rce * 8 + c) (s.ctx rce c) then { s.ctx rce c with state := 0 } else s.ctx rce c := by
    change (Tab.get? (s.ctxs.map _) (rce * 8 + c)).getD Ctx.fresh = _
    rw [Tab.get?_map_if (fun x => free x.1 x.2) (fun x => { x with state := 0 })]
    unfold State.ctx Tab.get
    cases Tab.get? s.ctxs (rce * 8 + c) with
    | none => rfl
    | some v => rfl
  split
  · exact .inr rfl
  · have hfold : ((gone.foldl (fun (s : State) (c : Nat × Ctx) => s.sampleCtx (c.1 / 8)) s1)).ctxs = s1.ctxs :=
      foldl_keeps State.ctxs _ (fun a x => State.ctxs_of_body (State.body_sample ..)) _ _
    have hsame : State.ctx (gone.foldl (fun (s : State) (c : Nat × Ctx) => s.sampleCtx (c.1 / 8)) s1) rce c = s1.ctx rce c :=
      congrArg (fun l => Tab.get l (rce * 8 + c) Ctx.fresh) hfold
    rw [hsame, hctx]
    split
    · exact .inl rfl
    · exact .inr rfl



/-! ### Control-flow micro-ops -/

theorem UopCommand.completes_ctx {c : Instr} {s : State} {rce ci w opc : Nat} {b : Bake} {safe : Ctx → Nat → Bool}
    {act : State → Ctx → Bake → Nat → UAct} {f : State → State} (v : Ctx) (hcommand : UopCommand c rce ci opc safe act)
    (hact : act s (s.ctx rce ci) b w = .go f) (hctx : ∀ u : State, u.ctx rce ci = s.advanced rce ci → (f u).ctx rce ci = v)
    (hacts : s.acts (pgRCE rce) = true) (hexecutes : s.executes rce ci w b = true) (hopc : uOpc w = opc) :
    Completes c s fun t => t.ctx rce ci = v ∧ t.core = s.core := by
  obtain ⟨t, hnext, ht, hcore⟩ := hcommand.completes hacts hexecutes hopc hact
  exact ⟨t, hnext, by rw [ht, hctx _ (State.ctx_advance ..)], hcore⟩

theorem Completes.mono {c : Instr} {s : State} {P Q : State → Prop} (h : Completes c s P) (himp : ∀ t, P t → Q t) : Completes c s Q := by
  obtain ⟨t, hnext, hp⟩ := h
  exact ⟨t, hnext, himp t hp⟩

/-- A branch of a set PC: the window is emptied. -/
def Ctx.jumped (c : Ctx) (pc : Nat) : Ctx := { c with pc := pc, window := [] }

theorem branchIf_go (s : State) (rce ci w : Nat) (b : Bake) (cond : Ctx → Nat → Bool) : ∃ f,
    branchIf rce ci cond s (s.ctx rce ci) b w = .go f ∧ ∀ u : State, u.ctx rce ci = s.advanced rce ci → (f u).ctx rce ci =
      if cond (s.ctx rce ci) w then (s.advanced rce ci).jumped (target ci (uT w)) else s.advanced rce ci := by
  by_cases h : cond (s.ctx rce ci) w = true
  · refine ⟨_, if_pos h, fun u hu => ?_⟩
    rw [State.ctx_jump, hu, if_pos h]
    rfl
  · exact ⟨_, if_neg h, fun u hu => hu.trans (if_neg h).symm⟩

theorem completes_branch {c : Instr} {s : State} {rce ci w opc : Nat} {b : Bake} {safe : Ctx → Nat → Bool} {cond : Ctx → Nat → Bool}
    (hcommand : UopCommand c rce ci opc safe (branchIf rce ci cond))
    (hacts : s.acts (pgRCE rce) = true) (hexecutes : s.executes rce ci w b = true) (hopc : uOpc w = opc) : Completes c s fun t =>
      (t.ctx rce ci).pc = (if cond (s.ctx rce ci) w = true then target ci (uT w) else ((s.ctx rce ci).pc + 1) % 0x4000) ∧
      (t.ctx rce ci).lc = (s.ctx rce ci).lc ∧ (t.ctx rce ci).stack = (s.ctx rce ci).stack ∧ (t.ctx rce ci).x = (s.ctx rce ci).x ∧
      t.core = s.core := by
  obtain ⟨f, hact, hctx⟩ := branchIf_go s rce ci w b cond
  refine (hcommand.completes_ctx _ hact hctx hacts hexecutes hopc).mono fun t ⟨ht, hcore⟩ => ?_
  rw [ht]
  split <;> exact ⟨rfl, rfl, rfl, rfl, hcore⟩

/-- LOOP's context: the counter one less, at least 0, and the jump while it was above 1. -/
def State.looped (s : State) (rce ci w : Nat) : Ctx :=
  let x := { s.advanced rce ci with lc := setNth (s.advanced rce ci).lc (uN w) ((s.ctx rce ci).counter (uN w) - 1) }
  if 1 < (s.ctx rce ci).counter (uN w) then x.jumped (target ci (uT w)) else x

theorem completes_loop {s : State} {rce : Fin 48} {ctx : Fin 8} {w : Nat} {b : Bake} (hacts : s.acts (pgRCE rce.val) = true)
    (hexecutes : s.executes rce.val ctx.val w b = true) (hopc : uOpc w = 6) : Completes (.loop rce ctx) s fun t =>
      t.ctx rce.val ctx.val = s.looped rce.val ctx.val w ∧ t.core = s.core := by
  refine UopCommand.completes_ctx (b := b) _ ⟨rfl, fun _ => rfl⟩ rfl (fun u hu => ?_) hacts hexecutes hopc
  unfold State.looped
  dsimp only
  by_cases h : 1 < (s.ctx rce.val ctx.val).counter (uN w)
  · rw [if_pos (decide_eq_true h), if_pos h, State.ctx_jump, State.ctx_updCtx_same, hu]
    rfl
  · rw [if_neg (by simp [h]), if_neg h, State.ctx_updCtx_same, hu]

/-- The state once a context's run has ended: before its Bake's end and the freeing of contexts. -/
def State.endMarked (s : State) (rce ci : Nat) (c : Ctx) : State :=
  (s.updCtx rce ci (fun x => { x with state := 3, window := [], pc := c.pc })).updBake c.bid
    (fun b => { b with runs := Tab.set b.runs rce ((Tab.get b.runs rce (0, false)).1, true) })

/-- The state once a context's run has ended, and what follows from it is done. -/
def State.runEnded (s : State) (rce ci : Nat) (c : Ctx) : State := ((s.endMarked rce ci c).afterEnd c.bid).freeCtxs

theorem State.state_runEnded (s : State) (rce ci : Nat) (c : Ctx) : ((s.runEnded rce ci c).ctx rce ci).state ≠ 1 := by
  have hmarked : ((s.endMarked rce ci c).ctx rce ci).state = 3 :=
    congrArg Ctx.state (State.ctx_updCtx_same s rce ci (fun x => { x with state := 3, window := [], pc := c.pc }))
  have hended : ((s.endMarked rce ci c).afterEnd c.bid).ctx rce ci = (s.endMarked rce ci c).ctx rce ci :=
    congrArg (fun l => Tab.get l (rce * 8 + ci) Ctx.fresh) (State.ctxs_afterEnd ..)
  unfold State.runEnded
  rcases State.state_freeCtxs ((s.endMarked rce ci c).afterEnd c.bid) rce ci with hfree | hkept
  · omega
  · rw [hkept, hended]
    omega

theorem completes_end {s : State} {rce : Fin 48} {ctx : Fin 8} {w : Nat} {b : Bake} (hacts : s.acts (pgRCE rce.val) = true)
    (hexecutes : s.executes rce.val ctx.val w b = true) (hopc : uOpc w = 9) (hgroup : (s.ctx rce.val ctx.val).group = none) :
    Completes (.endOp rce ctx) s fun t => (t.ctx rce.val ctx.val).state ≠ 1 ∧ t.core = s.core := by
  have hcommand : UopCommand (.endOp rce ctx) rce.val ctx.val 9 isSafe
      (fun _ c _ _ => if c.group.isSome then .fault fcIllegal else .go (fun s => s.runEnded rce.val ctx.val c)) := ⟨rfl, fun _ => rfl⟩
  refine (hcommand.completes hacts hexecutes hopc (if_neg (by simp [hgroup]))).mono fun t ⟨ht, hcore⟩ => ?_
  exact ⟨ht ▸ State.state_runEnded _ _ _ _, hcore⟩

theorem State.csFetch_word (s : State) (rce a : Nat) : (s.csFetch rce a).1.1 = s.csRead rce (a % 0x4000) % 2 ^ 32 := by
  unfold State.csFetch
  dsimp only
  split <;> rfl

theorem State.csRead_of_body {s t : State} (h : t.body = s.body) (rce a : Nat) : t.csRead rce a = s.csRead rce a := by
  have hplan : t.planArea = s.planArea := (congrArg State.planArea h :)
  unfold State.csRead
  rw [hplan, State.ctx_of_body h]

/-- The state once both words of a refill are fetched. -/
def State.refilled (s : State) (rce ci : Nat) : State :=
  let first := s.csFetch rce (s.ctx rce ci).pc
  let second := first.2.csFetch rce ((s.ctx rce ci).pc + 1)
  second.2.updCtx rce ci (fun x => { x with window := [first.1, second.1] })

theorem State.ctx_refilled (s : State) (rce ci : Nat) : ∃ w1 w2 : Nat × Bool, (s.refilled rce ci).ctx rce ci = { s.ctx rce ci with window := [w1, w2] } ∧
    w1.1 = s.csRead rce ((s.ctx rce ci).pc % 0x4000) % 2 ^ 32 ∧ w2.1 = s.csRead rce (((s.ctx rce ci).pc + 1) % 0x4000) % 2 ^ 32 := by
  refine ⟨(s.csFetch rce (s.ctx rce ci).pc).1, ((s.csFetch rce (s.ctx rce ci).pc).2.csFetch rce ((s.ctx rce ci).pc + 1)).1,
    (State.ctx_updCtx_same ..).trans ?_, State.csFetch_word .., (State.csFetch_word ..).trans ?_⟩
  · rw [State.ctx_of_body ((State.body_csFetch ..).trans (State.body_csFetch ..))]
  · rw [State.csRead_of_body (State.body_csFetch ..)]

theorem exec_refillDone {s : State} {rce : Fin 48} {ctx : Fin 8} (hacts : s.acts (pgRCE rce.val) = true)
    (hstate : (s.ctx rce.val ctx.val).state = 1) (hwindow : (s.ctx rce.val ctx.val).window = []) :
    exec (.refillDone rce ctx) s = .next (s.refilled rce.val ctx.val) :=
  (State.onBlk_acts _ hacts).trans (if_pos (by simp [hstate, hwindow]))

theorem completes_refill {s : State} {rce : Fin 48} {ctx : Fin 8} (hacts : s.acts (pgRCE rce.val) = true)
    (hstate : (s.ctx rce.val ctx.val).state = 1) (hwindow : (s.ctx rce.val ctx.val).window = []) : Completes (.refillDone rce ctx) s fun t =>
      (t.ctx rce.val ctx.val).window.map (fun x => x.1) = [s.csRead rce.val ((s.ctx rce.val ctx.val).pc % 0x4000) % 2 ^ 32,
        s.csRead rce.val (((s.ctx rce.val ctx.val).pc + 1) % 0x4000) % 2 ^ 32] ∧
      (t.ctx rce.val ctx.val).pc = (s.ctx rce.val ctx.val).pc ∧ (t.ctx rce.val ctx.val).x = (s.ctx rce.val ctx.val).x ∧
      t.core = s.core := by
  have hnext := exec_refillDone hacts hstate hwindow
  obtain ⟨w1, w2, hctx, hw1, hw2⟩ := State.ctx_refilled s rce.val ctx.val
  refine ⟨_, hnext, ?_, ?_, ?_, core_of_exec rfl hnext⟩ <;> rw [hctx]
  rw [List.map_cons, List.map_cons, hw1, hw2]
  rfl

/-- Settles O25: the context after each control-flow micro-op, and after a refill, is computed. -/
theorem microOpControl : Obligations.MicroOpControl := by
  unfold Obligations.MicroOpControl
  refine ⟨?_, ?_, ?_, ?_, ?_, ?_, ?_, ?_, fun _ _ _ _ _ => completes_end, ?_, ?_, ?_, fun _ _ _ => completes_refill⟩
  · intro s rce ctx w b hacts hexecutes hopc
    refine (UopCommand.completes_ctx (b := b) _ ⟨rfl, fun _ => rfl⟩ rfl (fun u hu => hu) hacts hexecutes hopc).mono fun t ⟨ht, hcore⟩ => ?_
    rw [ht]
    exact ⟨rfl, rfl, rfl, rfl, rfl, hcore⟩
  · intro s rce ctx w b hacts hexecutes hopc
    refine (UopCommand.completes_ctx (b := b) ((s.advanced rce.val ctx.val).jumped (target ctx.val (uT w))) ⟨rfl, fun _ => rfl⟩ rfl
      (fun u hu => (State.ctx_jump ..).trans (by rw [hu]; rfl)) hacts hexecutes hopc).mono fun t ⟨ht, hcore⟩ => ?_
    rw [ht]
    exact ⟨rfl, rfl, rfl, rfl, rfl, hcore⟩
  · intro s rce ctx w b hacts hexecutes hopc
    refine (completes_branch (cond := fun c w => c.reg (uA w) == 0) ⟨rfl, fun _ => rfl⟩ hacts hexecutes hopc).mono fun t ht => ?_
    simpa using ht
  · intro s rce ctx w b hacts hexecutes hopc
    refine (completes_branch (cond := fun c w => c.reg (uA w) != 0) ⟨rfl, fun _ => rfl⟩ hacts hexecutes hopc).mono fun t ht => ?_
    simpa using ht
  · intro s rce ctx w b hacts hexecutes hopc
    refine (completes_branch (cond := fun c w => decide (c.reg (uA w) < c.reg (uB w))) ⟨rfl, fun _ => rfl⟩ hacts hexecutes hopc).mono
      fun t ht => ?_
    simpa using ht
  · intro s rce ctx w b hacts hexecutes hopc
    refine (completes_loop hacts hexecutes hopc).mono fun t ⟨ht, hcore⟩ => ?_
    rw [ht]
    unfold State.looped
    dsimp only
    split <;> exact ⟨rfl, rfl, rfl, rfl, hcore⟩
  · intro s rce ctx w b hacts hexecutes hopc hstack
    refine (UopCommand.completes_ctx (b := b) (Ctx.jumped { s.advanced rce.val ctx.val with
      stack := ((s.ctx rce.val ctx.val).pc + 1) % 0x4000 :: (s.advanced rce.val ctx.val).stack } (target ctx.val (uT w)))
      ⟨rfl, fun _ => rfl⟩ (if_neg (by omega)) (fun u hu => ?_) hacts hexecutes hopc).mono fun t ⟨ht, hcore⟩ => ?_
    · rw [State.ctx_jump, State.ctx_updCtx_same, hu]
      rfl
    · rw [ht]
      exact ⟨rfl, rfl, rfl, rfl, hcore⟩
  · intro s rce ctx w b p rest hacts hexecutes hopc hstack
    refine (UopCommand.completes_ctx (b := b) (Ctx.jumped { s.advanced rce.val ctx.val with stack := rest } p)
      ⟨rfl, fun _ => rfl⟩ (by rw [hstack]) (fun u hu => ?_) hacts hexecutes hopc).mono fun t ⟨ht, hcore⟩ => ?_
    · rw [State.ctx_jump, State.ctx_updCtx_same, hu]
      rfl
    · rw [ht]
      exact ⟨rfl, rfl, rfl, rfl, hcore⟩
  · intro s rce ctx w b hacts hexecutes hopc
    refine (UopCommand.completes_ctx (b := b) { s.advanced rce.val ctx.val with lc := setNth (s.advanced rce.val ctx.val).lc (uN w) (uImm w) }
      ⟨rfl, fun _ => rfl⟩ rfl (fun u hu => (State.ctx_updCtx_same ..).trans (by rw [hu])) hacts hexecutes hopc).mono fun t ⟨ht, hcore⟩ => ?_
    rw [ht]
    exact ⟨rfl, rfl, rfl, rfl, hcore⟩
  · intro s rce ctx w b hacts hexecutes hopc
    refine (UopCommand.completes_ctx (b := b) { s.advanced rce.val ctx.val with lc := setNth (s.advanced rce.val ctx.val).lc (uN w) (((s.ctx rce.val ctx.val).reg (uB w)) % 2 ^ 16) }
      ⟨rfl, fun _ => rfl⟩ rfl (fun u hu => (State.ctx_updCtx_same ..).trans (by rw [hu])) hacts hexecutes hopc).mono fun t ⟨ht, hcore⟩ => ?_
    rw [ht]
    exact ⟨rfl, rfl, rfl, rfl, hcore⟩
  · intro s rce ctx w b hacts hexecutes hopc
    refine (UopCommand.completes_ctx (b := b) ((s.advanced rce.val ctx.val).jumped (((s.ctx rce.val ctx.val).pc + 1) % 0x4000))
      ⟨rfl, fun _ => rfl⟩ rfl (fun u hu => (State.ctx_jump ..).trans (by rw [hu]; rfl)) hacts hexecutes hopc).mono fun t ⟨ht, hcore⟩ => ?_
    rw [ht]
    exact ⟨rfl, rfl, rfl, rfl, hcore⟩

end Sys2Proof.Machine
end

section
namespace Sys2Proof.Machine
open Reg

/-! ## O26: control-store, group, lane and wait micro-ops -/

theorem State.ctx_of_ctxs {s t : State} (h : t.ctxs = s.ctxs) (rce c : Nat) : t.ctx rce c = s.ctx rce c :=
  congrArg (fun l => Tab.get l (rce * 8 + c) Ctx.fresh) h

/-! ### The context's page -/

theorem State.ctx_pageWrite (s : State) (rce ci i v : Nat) :
    (s.pageWrite rce ci i v).ctx rce ci = { s.ctx rce ci with page := Tab.set (s.ctx rce ci).page i (csWord v) } :=
  (State.ctx_of_body (State.body_bump ..) rce ci).trans (State.ctx_updCtx_same ..)

theorem State.planArea_pageWrite (s : State) (rce ci i v : Nat) : (s.pageWrite rce ci i v).planArea = s.planArea :=
  (congrArg State.planArea (State.body_bump (s.updCtx rce ci (fun x => { x with page := Tab.set x.page i (csWord v) })) RCE_CSW_CNT rce 0) :)

theorem State.csRead_plan {s t : State} (h : t.planArea = s.planArea) {a : Nat} (ha : a < 0x3E00) (rce : Nat) : t.csRead rce a = s.csRead rce a := by
  unfold State.csRead
  rw [if_pos ha, if_pos ha, h]

/-- The copy of plan words into a context's page, word by word. -/
def State.copyWords (s : State) (rce ci d src : Nat) (l : List Nat) : State :=
  l.foldl (fun (s : State) i => s.pageWrite rce ci (d + i) (s.csRead rce (src + i))) s

theorem State.planArea_copyWords (s : State) (rce ci d src : Nat) (l : List Nat) : (s.copyWords rce ci d src l).planArea = s.planArea :=
  foldl_keeps State.planArea _ (fun _ _ => State.planArea_pageWrite ..) _ _

/-- Only the page of the context changes, and each word copied stands there. -/
theorem State.ctx_copyWords (s : State) (rce ci d src : Nat) (n : Nat) (hsrc : src + n ≤ 0x3E00) :
    ∃ page, (s.copyWords rce ci d src (List.range n)).ctx rce ci = { s.ctx rce ci with page := page } ∧
      ∀ i < n, Tab.get page (d + i) 0 = csWord (s.csRead rce (src + i)) := by
  induction n with
  | zero => exact ⟨_, rfl, fun i hi => absurd hi (by omega)⟩
  | succ n ih =>
    obtain ⟨page, hctx, hpage⟩ := ih (by omega)
    have hstep : s.copyWords rce ci d src (List.range (n + 1)) =
        (s.copyWords rce ci d src (List.range n)).pageWrite rce ci (d + n) ((s.copyWords rce ci d src (List.range n)).csRead rce (src + n)) := by
      unfold State.copyWords
      rw [List.range_succ, List.foldl_append]
      rfl
    have hread : (s.copyWords rce ci d src (List.range n)).csRead rce (src + n) = s.csRead rce (src + n) :=
      State.csRead_plan (State.planArea_copyWords ..) (by omega) rce
    refine ⟨Tab.set page (d + n) (csWord (s.csRead rce (src + n))), ?_, fun i hi => ?_⟩
    · rw [hstep, State.ctx_pageWrite, hctx, hread]
    · by_cases hin : i = n
      · subst hin
        exact Tab.get_set_same ..
      · refine (Tab.get_set_ne _ _ _ (by omega)).trans ?_
        exact hpage i (by omega)



theorem State.planArea_advance (s : State) (rce ci : Nat) (b : Bake) : (s.advance rce ci b).planArea = s.planArea := by
  have hbody := ((State.body_count ..).trans (State.body_bump ..) :
    ((((s.csFetch rce ((s.ctx rce ci).pc + 2)).2.setCtx rce ci (s.advanced rce ci)).bump RCE_UOPS rce).count 8 b.tid b.job 1).body = _)
  exact (congrArg State.planArea hbody :).trans (congrArg State.planArea (State.body_csFetch ..) :)

theorem completes_csw {s : State} {rce : Fin 48} {ctx : Fin 8} {w : Nat} {b : Bake} (hacts : s.acts (pgRCE rce.val) = true)
    (hexecutes : s.executes rce.val ctx.val w b = true) (hopc : uOpc w = 13) (hmode : bit w 25 = false)
    (hplan : s.inPlan b (s.ctx rce.val ctx.val).pc = true) : Completes (.csw rce ctx) s fun t =>
      t.ctx rce.val ctx.val = { s.advanced rce.val ctx.val with
        page := Tab.set (s.advanced rce.val ctx.val).page (bits w 0 6) (csWord ((s.ctx rce.val ctx.val).reg (uB w))) } ∧ t.core = s.core := by
  refine UopCommand.completes_ctx (b := b) _ ⟨rfl, fun _ => rfl⟩ ((if_pos (by simp [hmode])).trans (if_pos hplan)) (fun u hu => ?_)
    hacts hexecutes hopc
  rw [State.ctx_pageWrite, hu]

theorem completes_cscp {s : State} {rce : Fin 48} {ctx : Fin 8} {w : Nat} {b : Bake} (hacts : s.acts (pgRCE rce.val) = true)
    (hexecutes : s.executes rce.val ctx.val w b = true) (hopc : uOpc w = 14) (hplan : s.inPlan b (s.ctx rce.val ctx.val).pc = true)
    (hfirst : s.inPlan b (((s.ctx rce.val ctx.val).reg (uA w)) % 2 ^ 14) = true)
    (hlast : s.inPlan b (((s.ctx rce.val ctx.val).reg (uA w)) % 2 ^ 14 + bits w 6 6) = true)
    (hbelow : ((s.ctx rce.val ctx.val).reg (uA w)) % 2 ^ 14 + bits w 6 6 < 0x3E00) (hfits : bits w 0 6 + bits w 6 6 + 1 ≤ 64) :
    Completes (.cscp rce ctx) s fun t => ∃ page, t.ctx rce.val ctx.val = { s.advanced rce.val ctx.val with page := page } ∧
      (∀ i < bits w 6 6 + 1, Tab.get page (bits w 0 6 + i) 0 = csWord (s.csRead rce.val (((s.ctx rce.val ctx.val).reg (uA w)) % 2 ^ 14 + i))) ∧
      t.core = s.core := by
  obtain ⟨page, hctx, hpage⟩ := State.ctx_copyWords (s.advance rce.val ctx.val b) rce.val ctx.val (bits w 0 6)
    (((s.ctx rce.val ctx.val).reg (uA w)) % 2 ^ 14) (bits w 6 6 + 1) (by omega)
  have hcommand : UopCommand (.cscp rce ctx) rce.val ctx.val 14 noSafe _ := ⟨rfl, fun _ => rfl⟩
  refine (hcommand.completes hacts hexecutes hopc (if_pos ?_)).mono fun t ⟨ht, hcore⟩ => ⟨page, ?_, fun i hi => ?_, hcore⟩
  · have hlast' : ((s.ctx rce.val ctx.val).reg (uA w)) % 2 ^ 14 + (bits w 6 6 + 1) - 1 = ((s.ctx rce.val ctx.val).reg (uA w)) % 2 ^ 14 + bits w 6 6 := by
      omega
    rw [hlast', hplan, hfirst, hlast]
    exact decide_eq_true (by omega)
  · rw [ht]
    exact (State.ctx_of_body (State.body_count ..) ..).trans (hctx.trans (by rw [State.ctx_advance]))
  · rw [hpage i hi, State.csRead_plan (State.planArea_advance ..) (by omega)]

/-! ### Groups -/

/-- The commands of SNEG: the first scratch row to 0x20B, and 0x20A to the second. -/
def snegCmds (g : Group) (v : List Nat) : List Cmd := loadStep g (v[0]?.getD 0) 0x20B ++ loadStep g 0x20A (v[1]?.getD 0)

theorem completes_stepUop {c : Instr} {s : State} {rce ci w opc : Nat} {b : Bake} {g : Group} {vrs : Ctx → Nat → List Nat}
    {cmds : Group → List Nat → List Cmd} (hcommand : UopCommand c rce ci opc noSafe (stepUop rce ci vrs cmds))
    (hgroup : (s.ctx rce ci).group = some g) (hmay : b.mayUse (vrs (s.ctx rce ci) w) = true)
    (hacts : s.acts (pgRCE rce) = true) (hexecutes : s.executes rce ci w b = true) (hopc : uOpc w = opc) : Completes c s fun t =>
      (t.ctx rce ci).group = some (g.add (cmds g (vrs (s.ctx rce ci) w))) ∧ (t.ctx rce ci).pc = ((s.ctx rce ci).pc + 1) % 0x4000 ∧
      (t.ctx rce ci).x = (s.ctx rce ci).x ∧ t.core = s.core := by
  have hact : stepUop rce ci vrs cmds s (s.ctx rce ci) b w =
      .go (fun u => u.updCtx rce ci (fun x => { x with group := some (g.add (cmds g (vrs (s.ctx rce ci) w))) })) := by
    unfold stepUop
    rw [hgroup]
    exact if_pos hmay
  refine (hcommand.completes_ctx { s.advanced rce ci with group := some (g.add (cmds g (vrs (s.ctx rce ci) w))) } hact
    (fun u hu => (State.ctx_updCtx_same ..).trans (by rw [hu])) hacts hexecutes hopc).mono fun t ⟨ht, hcore⟩ => ?_
  rw [ht]
  exact ⟨rfl, rfl, rfl, hcore⟩

/-- The group that GRP opens for the bank subarray that a register names. -/
def Group.opened (rce x : Nat) : Group :=
  { q := 2 * rce + bits x 0 1, bank := bits x 1 4, sa := bits x 5 9, cmds := [], tooBig := false, closed := false }

theorem completes_grp {s : State} {rce : Fin 48} {ctx : Fin 8} {w : Nat} {b : Bake} (hacts : s.acts (pgRCE rce.val) = true)
    (hexecutes : s.executes rce.val ctx.val w b = true) (hopc : uOpc w = 32) (hgroup : (s.ctx rce.val ctx.val).group = none)
    (hreg : (s.ctx rce.val ctx.val).reg (uA w) < 2 ^ 14) : Completes (.grp rce ctx) s fun t =>
      t.ctx rce.val ctx.val = { s.advanced rce.val ctx.val with group := some (Group.opened rce.val ((s.ctx rce.val ctx.val).reg (uA w))) } ∧
      t.core = s.core := by
  refine UopCommand.completes_ctx (b := b) _ ⟨rfl, fun _ => rfl⟩ (if_neg ?_) (fun u hu => ?_) hacts hexecutes hopc
  · simp [hgroup]
    exact hreg
  · rw [State.ctx_updCtx_same, hu]
    rfl

/-- What handing a group over does to its context and its queue. -/
theorem State.reads_placeGroup (s : State) (rce ci : Nat) (b : Bake) (g : Group) :
    (s.placeGroup rce ci b g).ctx rce ci = { s.ctx rce ci with group := none, since := 0 } ∧
    ((s.placeGroup rce ci b g).queue g.q).waiting.length = (s.queue g.q).waiting.length + 1 ∧
    ((s.placeGroup rce ci b g).queue g.q).waiting.getLast?.map (fun e => (e.kind, e.bank)) = some (.group rce ci g.cmds, g.bank) := by
  unfold State.placeGroup
  extract_lets k _ e s1
  have hqueue : State.queue (((s1.enqueue g.q e).updCtx rce ci (fun x => { x with group := none, since := 0 })).bump RCE_GROUPS rce) g.q =
      (s1.enqueue g.q e).queue g.q := (State.queue_of_body (State.body_bump ..) g.q).trans rfl
  refine ⟨(State.ctx_of_body (State.body_bump ..) rce ci).trans (State.ctx_updCtx_same ..), ?_, ?_⟩
  · rw [hqueue]
    exact (State.waiting_enqueue s1 g.q e).1
  · rw [hqueue, State.queue_enqueue_same]
    exact congrArg (Option.map _) List.getLast?_concat

theorem State.queue_advance (s : State) (rce ci : Nat) (b : Bake) (q : Nat) : (s.advance rce ci b).queue q = s.queue q := by
  have hbody := ((State.body_count ..).trans (State.body_bump ..) :
    ((((s.csFetch rce ((s.ctx rce ci).pc + 2)).2.setCtx rce ci (s.advanced rce ci)).bump RCE_UOPS rce).count 8 b.tid b.job 1).body = _)
  exact (State.queue_of_body hbody q).trans (State.queue_of_body (State.body_csFetch ..) q)

/-- A group that is handed over as its context moves on. -/
theorem State.reads_handOver (s : State) (rce ci : Nat) (b : Bake) (g : Group) :
    ((s.advance rce ci b).placeGroup rce ci b g).ctx rce ci = { s.advanced rce ci with group := none, since := 0 } ∧
    (((s.advance rce ci b).placeGroup rce ci b g).queue g.q).waiting.length = (s.queue g.q).waiting.length + 1 ∧
    (((s.advance rce ci b).placeGroup rce ci b g).queue g.q).waiting.getLast?.map (fun e => (e.kind, e.bank)) =
      some (.group rce ci g.cmds, g.bank) := by
  obtain ⟨hctx, hlength, hlast⟩ := State.reads_placeGroup (s.advance rce ci b) rce ci b g
  rw [State.ctx_advance] at hctx
  rw [State.queue_advance] at hlength
  exact ⟨hctx, hlength, hlast⟩

theorem State.reads_stallCount (s : State) (rce ci q : Nat) :
    (s.stallCount rce).ctx rce ci = s.ctx rce ci ∧ (s.stallCount rce).queue q = s.queue q :=
  ⟨(State.ctx_of_body (State.body_bumpBy ..) rce ci).trans rfl, (State.queue_of_body (State.body_bumpBy ..) q).trans rfl⟩

theorem exec_gendRelease {s : State} {rce : Fin 48} {ctx : Fin 8} {b : Bake} {g : Group} (hacts : s.acts (pgRCE rce.val) = true)
    (hstate : (s.ctx rce.val ctx.val).state = 2) (hstall : (s.ctx rce.val ctx.val).stall = 1)
    (hgroup : (s.ctx rce.val ctx.val).group = some g) (hbake : s.bake (s.ctx rce.val ctx.val).bid = some b) (haborted : b.aborted = false)
    (hready : s.gendReady rce.val ctx.val b g = true) : exec (.gendRelease rce ctx) s =
      .next (((s.stallCount rce.val).advance rce.val ctx.val b).placeGroup rce.val ctx.val b g) := by
  refine (State.onBlk_acts _ hacts).trans ?_
  rw [hstate, hstall, hgroup, hbake]
  exact (if_neg (by simp [haborted])).trans (if_pos hready)

/-! ### Lanes and waits -/

theorem State.ctx_laneFor (s : State) (rce ci : Nat) (j : LaneJob) : (s.laneFor rce ci j).ctx rce ci = { s.ctx rce ci with since := 0 } :=
  (State.ctx_of_ctxs (State.ctxs_placeLane ..) rce ci).trans (State.ctx_updCtx_same ..)

theorem exec_laneRelease {s : State} {rce : Fin 48} {ctx : Fin 8} {b : Bake} {j : LaneJob} (hacts : s.acts (pgRCE rce.val) = true)
    (hstate : (s.ctx rce.val ctx.val).state = 2) (hstall : (s.ctx rce.val ctx.val).stall = 2)
    (hbake : s.bake (s.ctx rce.val ctx.val).bid = some b)
    (hjob : b.laneJob rce.val ctx.val (s.ctx rce.val ctx.val) ((s.ctx rce.val ctx.val).window.headD (0, false)).1 = some j)
    (hbusy : s.laneBusy rce.val ctx.val b.id < 4) : exec (.laneRelease rce ctx) s =
      .next ((s.advance rce.val ctx.val b).laneFor rce.val ctx.val j) := by
  refine (State.onBlk_acts _ hacts).trans ?_
  have hstalled : ((s.ctx rce.val ctx.val).state == 2 && (s.ctx rce.val ctx.val).stall == 2) = true := by simp [hstate, hstall]
  rw [hstalled, hbake]
  dsimp only
  rw [hjob]
  exact if_pos hbusy

theorem exec_waitRelease {s : State} {rce : Fin 48} {ctx : Fin 8} {b : Bake} (hacts : s.acts (pgRCE rce.val) = true)
    (hstate : (s.ctx rce.val ctx.val).state = 2) (hstall : (s.ctx rce.val ctx.val).stall = 3 ∨ (s.ctx rce.val ctx.val).stall = 4)
    (hbake : s.bake (s.ctx rce.val ctx.val).bid = some b)
    (hover : s.waitOver rce.val ctx.val (s.ctx rce.val ctx.val).stall (s.ctx rce.val ctx.val).bid = true) :
    exec (.waitRelease rce ctx) s = .next (s.advance rce.val ctx.val b) := by
  have hwaits : ((s.ctx rce.val ctx.val).state == 2 && ((s.ctx rce.val ctx.val).stall == 3 || (s.ctx rce.val ctx.val).stall == 4)) = true := by
    simp [hstate, hstall]
  refine (State.onBlk_acts _ hacts).trans ?_
  rw [hwaits, hbake]
  exact if_pos hover

theorem State.uop_stall {s : State} {rce ci w opc n : Nat} {b : Bake} {safe : Ctx → Nat → Bool} {act : State → Ctx → Bake → Nat → UAct}
    (hexecutes : s.executes rce ci w b = true) (hopc : uOpc w = opc) (hact : act s (s.ctx rce ci) b w = .stall n) :
    s.uop rce ci opc safe act = s.setCtx rce ci { s.ctx rce ci with state := 2, stall := n } := by
  simp only [State.executes, Bool.and_eq_true, beq_iff_eq, bne_iff_ne, Option.isNone_iff_eq_none, Bool.not_eq_true'] at hexecutes
  obtain ⟨⟨⟨⟨⟨hhead, hbake⟩, hchosen⟩, hcond⟩, hfault⟩, haborted⟩ := hexecutes
  obtain ⟨ws, hwindow⟩ := List.head?_eq_some_iff.mp hhead
  simp [State.uop, hwindow, hbake, hchosen, hcond, hfault, hopc, hact, haborted]

/-- Settles O26: the context after each micro-op, and after each release, is computed, with the queue a group is handed to. -/
theorem microOpGroups : Obligations.MicroOpGroups := by
  unfold Obligations.MicroOpGroups
  refine ⟨?_, ?_, ?_, ?_, ?_, ?_, ?_, ?_, ?_, ?_, ?_, ?_, ?_, ?_⟩
  · intro s rce ctx w b hacts hexecutes hopc hmode hplan
    refine (completes_csw hacts hexecutes hopc hmode hplan).mono fun t ⟨ht, hcore⟩ => ?_
    rw [ht]
    exact ⟨Tab.get_set_same .., rfl, rfl, hcore⟩
  · intro s rce ctx w b hacts hexecutes hopc hplan hfirst hlast hbelow hfits
    refine (completes_cscp hacts hexecutes hopc hplan hfirst hlast hbelow hfits).mono fun t ⟨page, ht, hpage, hcore⟩ => ?_
    rw [ht]
    refine ⟨List.all_eq_true.mpr fun i hi => beq_iff_eq.mpr (hpage i (List.mem_range.mp hi)), rfl, rfl, hcore⟩
  · intro s rce ctx w b hacts hexecutes hopc hgroup hreg
    refine (completes_grp hacts hexecutes hopc hgroup hreg).mono fun t ⟨ht, hcore⟩ => ?_
    rw [ht]
    exact ⟨rfl, rfl, rfl, hcore⟩
  · intro s rce ctx w b g hacts hexecutes hopc hgroup hmay
    exact completes_stepUop (c := .sload rce ctx) (vrs := selXY) (cmds := fun g v => loadStep g (v[0]?.getD 0) (v[1]?.getD 0)) ⟨rfl, fun _ => rfl⟩ hgroup hmay hacts hexecutes hopc
  · intro s rce ctx w b g hacts hexecutes hopc hgroup hmay
    exact completes_stepUop (c := .sneg rce ctx) (vrs := selXY) (cmds := snegCmds) ⟨rfl, fun _ => rfl⟩ hgroup hmay hacts hexecutes hopc
  · intro s rce ctx w b g hacts hexecutes hopc hgroup hmay
    refine (completes_stepUop (c := .stra rce ctx) ⟨rfl, fun _ => rfl⟩ hgroup hmay hacts hexecutes hopc).mono fun t ht => ?_
    simpa using ht
  · intro s rce ctx w b g hacts hexecutes hopc hgroup hready
    have hcommand : UopCommand (.gend rce ctx) rce.val ctx.val 36 noSafe _ := ⟨rfl, fun _ => rfl⟩
    obtain ⟨hctx, hlength, hlast⟩ := State.reads_handOver s rce.val ctx.val b g
    refine (hcommand.completes (f := fun u => u.placeGroup rce.val ctx.val b g) hacts hexecutes hopc ?_).mono fun t ⟨ht, hcore⟩ => ?_
    · rw [hgroup]
      exact if_pos hready
    · rw [ht, hctx]
      exact ⟨rfl, hlength, hlast, rfl, rfl, ht ▸ hcore⟩
  · intro s rce ctx b g hacts hstate hstall hgroup hbake haborted hready
    have hexec := exec_gendRelease hacts hstate hstall hgroup hbake haborted hready
    obtain ⟨hctxStall, hqueueStall⟩ := State.reads_stallCount s rce.val ctx.val g.q
    obtain ⟨hctx, hlength, -⟩ := State.reads_handOver (s.stallCount rce.val) rce.val ctx.val b g
    refine ⟨_, hexec, ?_, ?_, ?_, ?_, core_of_exec rfl hexec⟩
    · rw [hctx]
    · rw [hlength, hqueueStall]
    · rw [hctx, ← hctxStall]
      rfl
    · rw [hctx, ← hctxStall]
      rfl
  · intro s rce ctx w b j hacts hexecutes hopc hjob hbusy
    have hcommand : UopCommand (.lane rce ctx) rce.val ctx.val 40 isSafe _ := ⟨rfl, fun _ => rfl⟩
    refine (hcommand.completes (f := fun u => u.laneFor rce.val ctx.val j) hacts hexecutes hopc ?_).mono fun t ⟨ht, hcore⟩ => ?_
    · rw [hjob]
      exact if_pos hbusy
    · refine ⟨ht, ?_, ?_, hcore⟩ <;> rw [ht, State.ctx_laneFor, State.ctx_advance] <;> rfl
  · intro s rce ctx b j hacts hstate hstall hbake hjob hbusy
    have hexec := exec_laneRelease hacts hstate hstall hbake hjob hbusy
    refine ⟨_, hexec, rfl, ?_, ?_, core_of_exec rfl hexec⟩ <;> rw [State.ctx_laneFor, State.ctx_advance] <;> rfl
  · intro s rce ctx w b hacts hexecutes hopc hover
    refine (UopCommand.completes_ctx (b := b) _ ⟨rfl, fun _ => rfl⟩ (if_pos hover) (fun u hu => hu) hacts hexecutes hopc).mono
      fun t ⟨ht, hcore⟩ => ?_
    rw [ht]
    exact ⟨rfl, rfl, hcore⟩
  · intro s rce ctx w b hacts hexecutes hopc hover
    refine (UopCommand.completes_ctx (b := b) _ ⟨rfl, fun _ => rfl⟩ (if_pos hover) (fun u hu => hu) hacts hexecutes hopc).mono
      fun t ⟨ht, hcore⟩ => ?_
    rw [ht]
    exact ⟨rfl, rfl, hcore⟩
  · intro s rce ctx w b hacts hexecutes hopc hover
    have hexec : exec (.waitg rce ctx) s = .next _ := (State.onBlk_acts _ hacts).trans
      (congrArg Host.Outcome.next (State.uop_stall hexecutes hopc (if_neg (by simp [hover]))))
    refine ⟨_, hexec, ?_, ?_, ?_, ?_, core_of_exec rfl hexec⟩ <;> rw [State.ctx_setCtx_same]
  · intro s rce ctx b hacts hstate hstall hbake hover
    have hexec := exec_waitRelease hacts hstate hstall hbake hover
    refine ⟨_, hexec, ?_, ?_, core_of_exec rfl hexec⟩ <;> rw [State.ctx_advance] <;> rfl

end Sys2Proof.Machine
end

section
namespace Sys2Proof.Machine
open Reg

/-! ## O22: errors, retirement and the event log -/

/-! ### What a report leaves of the event log -/

@[simp] theorem State.evlog_emitFlit (s : State) (p ty : Nat) (l : List Slot) (c : Bool) : (s.emitFlit p ty l c).evlog = s.evlog := by
  unfold State.emitFlit
  dsimp only
  split <;> rfl

@[simp] theorem State.evlog_dueKeySwitch (s : State) (p : Nat) : (s.dueKeySwitch p).evlog = s.evlog := by
  unfold State.dueKeySwitch State.sendKeySwitch
  dsimp only
  split
  · rw [State.setPort_evlog, State.evlog_emitFlit]
  · rfl

@[simp] theorem State.evlog_pump (s : State) (p : Nat) : (s.pump p).evlog = s.evlog := by
  unfold State.pump
  rw [foldl_keeps State.evlog _ (fun u x => ?_) _ _]
  · exact State.evlog_dueKeySwitch ..
  · dsimp only
    split
    · exact (State.evlog_emitFlit ..).trans rfl
    · rfl

@[simp] theorem State.evlog_sendAgent (s : State) (a : Nat) (m : Msg) (t j : Nat) : (s.sendAgent a m t j).evlog = s.evlog := by
  have hsend (p : Nat) : (s.send p m t j).evlog = s.evlog := by
    unfold State.send
    dsimp only
    split
    · exact (State.evlog_pump ..).trans rfl
    · split
      · exact State.bump_evlog ..
      · rfl
  unfold State.sendAgent
  split
  · rfl
  · split
    · exact hsend _
    · split
      · exact State.bump_evlog ..
      · rfl

@[simp] theorem State.evlog_raise (s : State) (p c : Nat) : (s.raise p c).evlog = s.evlog := by
  have hdeliver (u : State) : u.deliver.evlog = u.evlog := by
    have hwarden : (if u.rd BDIR_TO_WARDEN = 1 then u.out .warden else u).evlog = u.evlog := by
      split <;> rfl
    unfold State.deliver
    dsimp only
    split
    · rw [← hwarden]
      generalize (if u.rd BDIR_TO_WARDEN = 1 then u.out .warden else u) = v
      unfold State.intrAgent
      dsimp only
      split
      · split <;> rfl
      · exact State.evlog_sendAgent ..
    · exact hwarden
  have hedge (u : State) : (State.edge s u).evlog = u.evlog := by
    unfold State.edge
    split
    · exact hdeliver u
    · rfl
  unfold State.raise
  rw [hedge, State.wr_evlog]

@[simp] theorem State.evlog_sample (s : State) (p g : Nat) (v : Int) : (s.sample p g v).evlog = s.evlog := by
  unfold State.sample
  dsimp only
  split
  · split
    · rw [State.evlog_raise, State.bump_evlog, State.wr_evlog, State.wr_evlog]
    · rw [State.wr_evlog]
  · rw [State.wr_evlog]

@[simp] theorem State.evlog_cfgErr (s : State) (p w o : Nat) : (s.cfgErr p w o).evlog = s.evlog := by
  unfold State.cfgErr
  dsimp only
  rw [State.evlog_raise, State.wr_evlog]
  split
  · rw [State.wr_evlog, State.wr_evlog]
  · rfl



/-! ### Segment clears, stale rows and windows of errors -/

theorem State.ras_of_body {s t : State} (h : t.body = s.body) : t.ras = s.ras := (congrArg State.ras h :)

theorem State.mch_of_body {s t : State} (h : t.body = s.body) (n : Nat) : t.mch n = s.mch n :=
  congrArg (fun l => Tab.get l n Mch.fresh) (congrArg State.mchs h :)

/-- The state once the segment clears of a channel have ended and are reported. -/
def State.segCleared (s : State) (ch : Nat) : State :=
  (s.setMch ch { s.mch ch with clears := false }).raise (pgMCH ch) I_MCH_SEG_CLEAR_DONE

theorem State.reads_segCleared (s : State) {ch : Nat} : ((s.segCleared ch).mch ch).clears = false ∧
    bit ((s.segCleared ch).rd H_INT_STAT (pgMCH ch)) I_MCH_SEG_CLEAR_DONE = true :=
  ⟨congrArg Mch.clears ((State.mch_of_body (State.body_raise ..) ch).trans (State.mch_setMch_same ..)), State.bit_raise_same _ _ (by decide)⟩

theorem exec_segClearDone {s : State} {ch : Fin 48} (hacts : s.acts (pgMCH ch.val) = true) (hclears : (s.mch ch.val).clears = true)
    (hlow : (s.queue (2 * ch.val)).entries = []) (hlowWaiting : (s.queue (2 * ch.val)).waiting = [])
    (hhigh : (s.queue (2 * ch.val + 1)).entries = []) (hhighWaiting : (s.queue (2 * ch.val + 1)).waiting = []) :
    exec (.segClearDone ch) s = .next (s.segCleared ch.val) ∨
    exec (.segClearDone ch) s = .next { s.segCleared ch.val with ras := { (s.segCleared ch.val).ras with clearing := false } } := by
  have hexec : exec (.segClearDone ch) s = .next (if _ then _ else s.segCleared ch.val) :=
    (State.onBlk_acts _ hacts).trans (if_pos (by simp [hclears, hlow, hlowWaiting, hhigh, hhighWaiting]))
  rw [hexec]
  exact (ite_eq_or_eq ..).symm.imp (congrArg _) (congrArg _)

theorem State.staleFlush_one {s : State} {q bank row : Nat} {mask : BitVec 128}
    (h : s.mchs.flatMap (fun m => m.2.stale) = [(q, bank, row, mask)]) :
    s.staleFlush = s.enqueue q (rowEntry .reencode bank row s.openEpoch) := by
  unfold State.staleFlush
  rw [h]
  rfl

/-- The state once every window has moved one slice on. -/
def State.slicePassed (s : State) : State :=
  { s with ras := { s.ras with
      pages := (Tab.mapVal (fun (e : PageEnt) => { e with counts := nextSlice e.counts }) s.ras.pages).filter (fun p => p.2.lasting || p.2.count != 0)
      banks := Tab.mapVal (fun (e : BankEnt) => { e with
        counts := nextSlice e.counts
        subs := (e.subs.map (fun (x : Nat × List Nat) => (x.1, nextSlice x.2))).filter (fun x => windowSum x.2 != 0) }) s.ras.banks } }

theorem exec_sliceBoundary {s : State} (hacts : s.acts pgRAS = true) :
    exec .sliceBoundary s = .next ((s.slicePassed.bump RAS_SLICE_NOW).sample pgRAS 0 s.slicePassed.ras.pages.length) :=
  State.onBlk_acts _ hacts

theorem State.ptClear_lasting {s : State} {e : PageEnt} (hpage : Tab.get? s.ras.pages (s.rd RAS_PT_SEL) = some e) (hcount : e.count ≠ 0) :
    s.ptClear = s.setPage (s.rd RAS_PT_SEL) { e with lasting := false } := by
  unfold State.ptClear
  dsimp only
  rw [hpage]
  exact if_neg hcount

theorem State.ptClear_erase {s : State} {e : PageEnt} (hpage : Tab.get? s.ras.pages (s.rd RAS_PT_SEL) = some e) (hcount : e.count = 0) :
    s.ptClear = ({ s with ras := { s.ras with pages := Tab.erase s.ras.pages (s.rd RAS_PT_SEL) } } : State).sample pgRAS 0
      (Tab.erase s.ras.pages (s.rd RAS_PT_SEL)).length := by
  unfold State.ptClear
  dsimp only
  rw [hpage]
  exact if_pos hcount

theorem State.btClear_some {s : State} {e : BankEnt} (hbank : Tab.get? s.ras.banks (s.rd RAS_BT_SEL) = some e) :
    s.btClear = s.setBank (s.rd RAS_BT_SEL) { e with lasting := false, wide := false } := by
  unfold State.btClear
  dsimp only
  rw [hbank]

/-! ### Patrol -/

/-- What patrol of another queue leaves: a queue, its cursor, and what decides where patrol reads. -/
def State.patrolView (s : State) (q : Nat) : Queue × Nat × Tab Mch × Tab RmapEnt :=
  (s.queue q, Tab.get s.ras.cursor q 0, s.mchs, s.ras.rmap)

theorem State.patrolView_of_body {s t : State} (h : t.body = s.body) (q : Nat) : t.patrolView q = s.patrolView q := by
  have hqueues : t.queues = s.queues := (congrArg State.queues h :)
  have hmchs : t.mchs = s.mchs := (congrArg State.mchs h :)
  unfold State.patrolView State.queue
  rw [hqueues, hmchs, State.ras_of_body h]

theorem State.patrolView_patrol (s : State) {q r : Nat} (hne : q ≠ r) : (s.patrol r).patrolView q = s.patrolView q := by
  unfold State.patrol
  split
  · rfl
  next n wrapped hat =>
    extract_lets s0 g row bank
    have hs0 : s0.patrolView q = s.patrolView q := by
      unfold s0
      split
      · exact State.patrolView_of_body (State.body_bump ..) q
      · rfl
    clear_value s0
    rw [← hs0]
    generalize s0.staleMask r bank row = mask
    have hview (u : State) (c : Nat) (hqueue : u.queue q = s0.queue q) (hmchs : u.mchs = s0.mchs) (hras : u.ras = s0.ras) :
        State.patrolView { u with ras := { u.ras with cursor := Tab.set u.ras.cursor r c } } q = s0.patrolView q := by
      refine Prod.ext hqueue (Prod.ext ?_ (Prod.ext hmchs (congrArg Ras.rmap hras)))
      exact (Tab.get_set_ne _ _ _ hne).trans (congrArg (fun x : Ras => Tab.get x.cursor q 0) hras)
    cases mask with
    | none => exact hview _ _ (State.queue_enqueue_ne _ _ hne) rfl rfl
    | some _ => exact hview _ _ (State.queue_enqueue_ne _ _ hne) rfl rfl

theorem State.patrolView_fold {q : Nat} {l : List Nat} (h : q ∉ l) (s : State) :
    (l.foldl (fun s r => s.patrol r) s).patrolView q = s.patrolView q := by
  induction l generalizing s with
  | nil => rfl
  | cons r l ih =>
    rw [List.mem_cons, not_or] at h
    rw [List.foldl_cons, ih h.2, State.patrolView_patrol _ h.1]



theorem State.patrols_of_view {s t : State} {q : Nat} (h : t.patrolView q = s.patrolView q) (g : Nat) : t.patrols q g = s.patrols q g := by
  have hmchs : t.mchs = s.mchs := congrArg (fun v => v.2.2.1) h
  have hrmap : t.ras.rmap = s.ras.rmap := congrArg (fun v => v.2.2.2) h
  unfold State.patrols State.refreshed State.spareUse State.mch
  rw [hmchs, hrmap]

theorem State.staleMask_of_mchs {s t : State} (h : t.mchs = s.mchs) (q bank row : Nat) : t.staleMask q bank row = s.staleMask q bank row := by
  unfold State.staleMask State.mch
  rw [h]

/-- Patrol at a line that it reads places one scrub there and moves its cursor one line on. -/
theorem State.reads_patrol {s : State} {q : Nat} (hpatrols : s.patrols q (Tab.get s.ras.cursor q 0 / 128) = true)
    (hstale : s.staleMask q (Tab.get s.ras.cursor q 0 % 2 ^ 29 / 128 % 16) (Tab.get s.ras.cursor q 0 % 2 ^ 29 / 128 / 16) = none) :
    (((s.patrol q).queue q).waiting.getLast?.map (fun e => (e.kind, e.col))) =
      some (.scrub srcPatrol, Tab.get s.ras.cursor q 0 % 2 ^ 29 % 128) ∧
    Tab.get (s.patrol q).ras.cursor q 0 = Tab.get s.ras.cursor q 0 % 2 ^ 29 + 1 := by
  have hat : s.patrolAt q (Tab.get s.ras.cursor q 0) = some (Tab.get s.ras.cursor q 0 % 2 ^ 29, decide (2 ^ 29 ≤ Tab.get s.ras.cursor q 0)) :=
    if_pos hpatrols
  unfold State.patrol
  split
  next hnone => rw [hat] at hnone; cases hnone
  next n wrapped hsome =>
    rw [hat] at hsome
    simp only [Option.some.injEq, Prod.mk.injEq] at hsome
    obtain ⟨rfl, rfl⟩ := hsome
    extract_lets s0 g row bank
    have hs0 : s0.mchs = s.mchs := by
      unfold s0
      split
      · exact (congrArg State.mchs (State.body_bump s RAS_PASSES 0 0) :)
      · rfl
    have hnone : s0.staleMask q bank row = none := (State.staleMask_of_mchs hs0 ..).trans hstale
    clear_value s0
    rw [hnone]
    refine ⟨?_, Tab.get_set_same ..⟩
    refine (congrArg (fun c : Queue => c.waiting.getLast?.map (fun e => (e.kind, e.col))) (State.queue_enqueue_same ..)).trans ?_
    exact congrArg (Option.map _) List.getLast?_concat

theorem State.reads_patrolAll {s : State} {q : Fin 96} (hpatrols : s.patrols q.val (Tab.get s.ras.cursor q.val 0 / 128) = true)
    (hstale : s.staleMask q.val (Tab.get s.ras.cursor q.val 0 % 2 ^ 29 / 128 % 16) (Tab.get s.ras.cursor q.val 0 % 2 ^ 29 / 128 / 16) = none) :
    (((queueNos.foldl (fun s r => s.patrol r) s).queue q.val).waiting.getLast?.map (fun e => (e.kind, e.col))) =
      some (.scrub srcPatrol, Tab.get s.ras.cursor q.val 0 % 2 ^ 29 % 128) ∧
    Tab.get (queueNos.foldl (fun s r => s.patrol r) s).ras.cursor q.val 0 = Tab.get s.ras.cursor q.val 0 % 2 ^ 29 + 1 := by
  have hmem : q.val ∈ queueNos := List.mem_range.mpr q.isLt
  obtain ⟨before, after, hsplit⟩ := List.append_of_mem hmem
  have hnodup : (before ++ q.val :: after).Nodup := hsplit ▸ List.nodup_range
  rw [List.nodup_append] at hnodup
  obtain ⟨-, hafter, hbefore⟩ := hnodup
  have hnotBefore : q.val ∉ before := fun h => hbefore _ h _ List.mem_cons_self rfl
  have hnotAfter : q.val ∉ after := (List.nodup_cons.mp hafter).1
  rw [hsplit, List.foldl_append, List.foldl_cons]
  have hview := State.patrolView_fold hnotBefore s
  generalize before.foldl (fun s r => s.patrol r) s = u at hview ⊢
  have hcursor : Tab.get u.ras.cursor q.val 0 = Tab.get s.ras.cursor q.val 0 := congrArg (fun v => v.2.1) hview
  have hmchs : u.mchs = s.mchs := congrArg (fun v => v.2.2.1) hview
  rw [← hcursor] at hpatrols hstale ⊢
  obtain ⟨hlast, hnext⟩ := State.reads_patrol (s := u) ((State.patrols_of_view hview _).trans hpatrols)
    ((State.staleMask_of_mchs hmchs ..).trans hstale)
  have hkept := State.patrolView_fold hnotAfter (u.patrol q.val)
  generalize after.foldl (fun s r => s.patrol r) (u.patrol q.val) = v at hkept ⊢
  have hqueue : v.queue q.val = (u.patrol q.val).queue q.val := congrArg (fun x => x.1) hkept
  have hcur : Tab.get v.ras.cursor q.val 0 = Tab.get (u.patrol q.val).ras.cursor q.val 0 := congrArg (fun x => x.2.1) hkept
  exact ⟨(congrArg (fun c : Queue => c.waiting.getLast?.map (fun e => (e.kind, e.col))) hqueue).trans hlast, hcur.trans hnext⟩

/-! ### The scrub interval -/

theorem State.reads_setScrub (s : State) (v : Nat) : (s.setScrub v).rd RAS_SCRUB_INT_NOW = min v scrubLimit ∧
    (s.setScrub v).ras.errSec = s.ras.errSec := by
  have hnow : (s.wr RAS_SCRUB_INT_NOW (min v scrubLimit)).rd RAS_SCRUB_INT_NOW = min v scrubLimit := by
    refine (State.rd_wr_same ..).trans (Nat.mod_eq_of_lt ?_)
    exact lt_of_le_of_lt (Nat.min_le_right ..) (by decide)
  have herr : (s.wr RAS_SCRUB_INT_NOW (min v scrubLimit)).ras.errSec = s.ras.errSec :=
    congrArg Ras.errSec (State.ras_of_body (State.body_wr ..))
  unfold State.setScrub
  dsimp only
  split
  · refine ⟨?_, (congrArg Ras.errSec (State.ras_of_body (State.body_policyOvr ..))).trans herr⟩
    unfold State.policyOvr
    rw [State.rd_crumb_ne _ _ _ _ _ (by decide), State.rd_raise_ne _ _ _ (by decide), State.rd_raise_ne _ _ _ (by decide),
      State.rd_wr_ne _ _ (by decide)]
    exact hnow
  · exact ⟨hnow, herr⟩

/-! ### The retire map -/

theorem State.ras_raiseMask (s : State) (ch : Nat) (also : List Nat) : (s.raiseMask ch also).ras = s.ras := by
  unfold State.raiseMask
  dsimp only
  exact (foldl_keeps State.ras _ (fun _ _ => by rfl) _ _).trans rfl

theorem State.ras_rmapStart (s : State) (i q bank sa spare : Nat) : (s.rmapStart i q bank sa spare).ras.running = some i ∧
    Tab.get? (s.rmapStart i q bank sa spare).ras.rmap i =
      some { q := q, bank := bank, sa := sa, spare := spare, state := 1, placed := 0, copied := 0, issued := 0 } := by
  have hras : (s.rmapStart i q bank sa spare).ras = { s.ras with
      rmap := Tab.set s.ras.rmap i { q := q, bank := bank, sa := sa, spare := spare, state := 1, placed := 0, copied := 0, issued := 0 }
      running := some i, clearing := !s.refreshed (q / 2) spare } := by
    unfold State.rmapStart
    exact foldl_keeps State.ras _ (fun u ch => State.ras_raiseMask u ch []) _ _
  rw [hras]
  exact ⟨rfl, Tab.get?_set_same ..⟩

/-- The check of the retire-map entry that software has selected. -/
def State.rmapReason (s : State) : Nat :=
  s.rmapCheck (s.rd RAS_RMAP_SEL) (s.rmapField (s.rd RAS_RMAP_SEL) 0) (s.rmapField (s.rd RAS_RMAP_SEL) 7)
    (s.rmapField (s.rd RAS_RMAP_SEL) 11) (s.rmapField (s.rd RAS_RMAP_SEL) 20)

theorem State.rmapAdd_taken {s : State} (h : s.rmapReason = 0) : s.rmapAdd.ras =
    (s.rmapStart (s.rd RAS_RMAP_SEL) (s.rmapField (s.rd RAS_RMAP_SEL) 0) (s.rmapField (s.rd RAS_RMAP_SEL) 7)
      (s.rmapField (s.rd RAS_RMAP_SEL) 11) (s.rmapField (s.rd RAS_RMAP_SEL) 20)).ras := by
  unfold State.rmapAdd
  extract_lets i q bank sa spare
  have hras (u : State) (v : Nat) : (({ u with tmc := { s.tmc with rmap := Tab.set s.tmc.rmap i v } } : State).out (.tmc tsRmap i)).ras = u.ras := rfl
  split
  · exact hras ..
  next hrefused => exact absurd h (hrefused ·)

theorem State.rmapAdd_refused {s : State} (h : s.rmapReason ≠ 0) :
    s.rmapAdd = (s.wr RAS_RMAP_RESULT s.rmapReason).raise pgRAS I_RAS_RMAP_REFUSED := by
  unfold State.rmapAdd
  extract_lets i q bank sa spare
  split
  next htaken => exact absurd htaken h
  · rfl

theorem State.rmapCheck_le (s : State) (i q bank sa spare : Nat) : s.rmapCheck i q bank sa spare ≤ 5 := by
  unfold State.rmapCheck
  dsimp only
  split_ifs <;> decide

theorem exec_rmapCopyPlace {s : State} {i : Nat} {e : RmapEnt} (hacts : s.acts pgRAS = true) (hrunning : s.ras.running = some i)
    (hentry : Tab.get? s.ras.rmap i = some e) (hclearing : s.ras.clearing = false) (hplaced : e.placed < 512)
    (hfree : e.placed ≠ 0 ∨ s.reserved (saKey e.q e.bank e.sa) = false) : exec .rmapCopyPlace s = .next
      { s.enqueue e.q (rowEntry (.copy i) e.bank (e.sa * 512 + e.placed) s.openEpoch) with
        ras := { s.ras with rmap := Tab.set s.ras.rmap i { e with placed := e.placed + 1 } } } := by
  refine (State.onBlk_acts _ hacts).trans ?_
  rw [hrunning]
  dsimp only
  rw [hentry]
  refine if_neg ?_
  rcases hfree with hsome | hreserved
  · simp [hclearing, hsome]; omega
  · simp [hclearing, hreserved]; omega

/-! ### The event log's tail -/

theorem State.evlogFree_kept {s : State} {n : Nat} (hlost : s.evlog.lost = 0) :
    (s.evlogFree n).evlog.tail = (s.evlog.tail + n) % evPlaces ∧ (s.evlogFree n).evlog.used = s.evlog.used - n := by
  unfold State.evlogFree
  dsimp only
  rw [if_neg (by simp [hlost]), State.evlog_sample]
  exact ⟨rfl, rfl⟩

/-- Settles O22: each clause computes what its command leaves of the error and retirement state. -/
theorem retirementAndErrors : Obligations.RetirementAndErrors := by
  unfold Obligations.RetirementAndErrors
  refine ⟨?_, ?_, ?_, ?_, ?_, ?_, ?_, ?_, ?_, ?_, ?_, ?_, ?_⟩
  · intro s ch hacts hclears hlow hlowWaiting hhigh hhighWaiting
    obtain ⟨hdone, hbit⟩ := s.reads_segCleared (ch := ch.val)
    rcases exec_segClearDone hacts hclears hlow hlowWaiting hhigh hhighWaiting with hexec | hexec
    · exact ⟨_, hexec, hdone, hbit, core_of_exec rfl hexec⟩
    · exact ⟨_, hexec, hdone, hbit, core_of_exec rfl hexec⟩
  · intro s q bank row mask hacts hone
    have hexec : exec .staleFlush s = .next (s.enqueue q (rowEntry .reencode bank row s.openEpoch)) :=
      (State.onBlk_acts _ hacts).trans (congrArg Host.Outcome.next (State.staleFlush_one hone))
    refine ⟨_, hexec, ?_, rfl, core_of_exec rfl hexec⟩
    rw [State.queue_enqueue_same]
    exact congrArg (Option.map _) List.getLast?_concat
  · intro s hacts
    have hexec := exec_sliceBoundary hacts
    refine ⟨_, hexec, ?_, ?_, core_of_exec rfl hexec⟩
    · rw [State.rd_sample_ne_keys _ _ _ _ (by decide) (by decide) (by decide) (by decide)]
      exact State.rd_bump_same ..
    · rw [State.ras_of_body ((State.body_sample ..).trans (State.body_bump ..))]
      exact List.all_eq_true.mpr fun x hx => (List.mem_filter.mp hx).2
  · intro s e hacts hpage hcount
    have hexec : exec .ptClear s = .next _ := (State.onBlk_acts _ hacts).trans (congrArg Host.Outcome.next (State.ptClear_lasting hpage hcount))
    refine ⟨_, hexec, ?_, core_of_exec rfl hexec⟩
    exact (congrArg (fun x : Ras => Tab.get? x.pages (s.rd RAS_PT_SEL)) (State.ras_of_body (State.body_sample ..))).trans (Tab.get?_set_same ..)
  · intro s e hacts hpage hcount
    have hexec : exec .ptClear s = .next _ := (State.onBlk_acts _ hacts).trans (congrArg Host.Outcome.next (State.ptClear_erase hpage hcount))
    refine ⟨_, hexec, ?_, core_of_exec rfl hexec⟩
    rw [State.ras_of_body (State.body_sample ..)]
    simp [Tab.erase]
  · intro s e hacts hbank
    have hexec : exec .btClear s = .next _ := (State.onBlk_acts _ hacts).trans (congrArg Host.Outcome.next (State.btClear_some hbank))
    exact ⟨_, hexec, Tab.get?_set_same .., rfl, core_of_exec rfl hexec⟩
  · intro s q hacts hpatrols hstale
    have hexec : exec .patrolPlacement s = .next (queueNos.foldl (fun s r => s.patrol r) (s.use [pgRAS])) := State.onBlk_acts _ hacts
    have hview := State.patrolView_of_body (State.body_use s [pgRAS]) q.val
    have hcursor : Tab.get (s.use [pgRAS]).ras.cursor q.val 0 = Tab.get s.ras.cursor q.val 0 := congrArg (fun v => v.2.1) hview
    have hmchs : (s.use [pgRAS]).mchs = s.mchs := congrArg (fun v => v.2.2.1) hview
    rw [← hcursor] at hpatrols hstale ⊢
    obtain ⟨hlast, hnext⟩ := State.reads_patrolAll ((State.patrols_of_view hview _).trans hpatrols)
      ((State.staleMask_of_mchs hmchs ..).trans hstale)
    exact ⟨_, hexec, hlast, hnext, core_of_exec rfl hexec⟩
  · intro s hacts
    have hexec : exec .scrubRateStep s = .next _ := State.onBlk_acts _ hacts
    obtain ⟨hnow, herr⟩ := State.reads_setScrub { s.sample pgRAS 2 s.ras.errSec with ras := { (s.sample pgRAS 2 s.ras.errSec).ras with errSec := 0 } }
      (clamp (s.rd RAS_SCRUB_INT_FLOOR) (s.rd RAS_SCRUB_INT_CEIL) (if 0 < s.ras.errSec then s.rd RAS_SCRUB_INT_NOW / 2 else s.rd RAS_SCRUB_INT_NOW * 2))
    exact ⟨_, hexec, hnow, herr, core_of_exec rfl hexec⟩
  · rintro s _ hacts rfl hcheck
    have hexec : exec (.add .retireMap) s = .next s.rmapAdd := State.onBlk_acts _ hacts
    have hras := State.rmapAdd_taken hcheck
    obtain ⟨hrunning, hentry⟩ := State.ras_rmapStart s (s.rd RAS_RMAP_SEL) (s.rmapField (s.rd RAS_RMAP_SEL) 0)
      (s.rmapField (s.rd RAS_RMAP_SEL) 7) (s.rmapField (s.rd RAS_RMAP_SEL) 11) (s.rmapField (s.rd RAS_RMAP_SEL) 20)
    rw [← hras] at hrunning hentry
    exact ⟨_, hexec, hrunning, congrArg (Option.map _) hentry, core_of_exec rfl hexec⟩
  · rintro s _ hacts rfl hcheck
    have hexec : exec (.add .retireMap) s = .next _ :=
      (State.onBlk_acts _ hacts).trans (congrArg Host.Outcome.next (State.rmapAdd_refused hcheck))
    have hle : s.rmapReason ≤ 5 := State.rmapCheck_le ..
    refine ⟨_, hexec, ?_, State.bit_raise_same _ _ (by decide), (State.body_raise ..).trans (State.body_wr ..)⟩
    rw [State.rd_raise_ne _ _ _ (by decide)]
    exact (State.rd_wr_same ..).trans (Nat.mod_eq_of_lt (lt_of_le_of_lt hle (by decide)))
  · intro s i e hacts hrunning hentry hclearing hplaced hfree
    have hexec := exec_rmapCopyPlace hacts hrunning hentry hclearing hplaced hfree
    refine ⟨_, hexec, Tab.get?_set_same .., ?_, rfl, core_of_exec rfl hexec⟩
    refine (congrArg (fun c : Queue => c.waiting.getLast?.map (fun x => (x.kind, x.srow))) (State.queue_enqueue_same ..)).trans ?_
    exact congrArg (Option.map _) List.getLast?_concat
  · intro s val hacts hused hlost
    have hexec : exec (.evlogTailWrite val) s = .next (s.evlogFree ((bits val.toNat 0 10 + evPlaces - s.evlog.tail) % evPlaces)) :=
      (State.onBlk_acts _ hacts).trans (congrArg Host.Outcome.next (if_pos hused))
    obtain ⟨htail, hfree⟩ := State.evlogFree_kept (n := (bits val.toNat 0 10 + evPlaces - s.evlog.tail) % evPlaces) hlost
    exact ⟨_, hexec, htail, hfree, State.body_evlogFree ..⟩
  · intro s val hacts hused
    have hexec : exec (.evlogTailWrite val) s = .next (s.cfgErr pgEVLOG 0 0x104) :=
      (State.onBlk_acts _ hacts).trans (congrArg Host.Outcome.next (if_neg (by omega)))
    exact ⟨_, hexec, congrArg Evlog.tail (State.evlog_cfgErr ..), State.rd_cfgErr_same .., State.body_cfgErr ..⟩

end Sys2Proof.Machine
end

section
namespace Sys2Proof.Machine
open Reg

/-! ## O27: plans and Bakes -/

/-! ### A plan's words -/

theorem Tab.get_foldl_set_other {α : Type} (key : Nat → Nat) (v : Nat → α) (l : List Nat) (t : Tab α) {a : Nat} (d : α) (h : ∀ i ∈ l, key i ≠ a) :
    Tab.get (l.foldl (fun t i => Tab.set t (key i) (v i)) t) a d = Tab.get t a d := by
  induction l generalizing t with
  | nil => rfl
  | cons i l ih =>
    rw [List.foldl_cons, ih _ fun j hj => h j (List.mem_cons_of_mem _ hj)]
    exact Tab.get_set_ne _ _ _ (h i List.mem_cons_self).symm

/-- A word of the image stands at its place once all words are written. -/
theorem Tab.get_foldl_set_mem {α : Type} (key : Nat → Nat) (v : Nat → α) (n : Nat) (t : Tab α) {i : Nat} (d : α) (hi : i < n)
    (hinj : ∀ j < n, key j = key i → j = i) : Tab.get ((List.range n).foldl (fun t i => Tab.set t (key i) (v i)) t) (key i) d = v i := by
  induction n with
  | zero => omega
  | succ n ih =>
    rw [List.range_succ, List.foldl_append]
    by_cases hlast : i = n
    · subst hlast
      exact Tab.get_set_same ..
    · refine (Tab.get_set_ne _ _ _ fun h => hlast (hinj n (by omega) h.symm).symm).trans ?_
      exact ih (by omega) fun j hj => hinj j (by omega)

/-- The plan area of one engine once an image's words are written there. -/
def areaWith (h : Image) (b : List Byte) (t : Tab Nat) : Tab Nat :=
  (List.range h.words).foldl (fun t i => Tab.set t (h.base + i) (csWord (imgWord h b i))) t

theorem Tab.get_foldl_update {α : Type} (f : α → α) (d : α) (l : List Nat) (t : Tab α) {x : Nat} (hl : l.Nodup) :
    Tab.get (l.foldl (fun t r => Tab.set t r (f (Tab.get t r d))) t) x d = if x ∈ l then f (Tab.get t x d) else Tab.get t x d := by
  induction l generalizing t with
  | nil => rfl
  | cons r l ih =>
    rw [List.nodup_cons] at hl
    rw [List.foldl_cons, ih _ hl.2]
    by_cases hx : x = r
    · subst hx
      rw [if_neg hl.1, if_pos List.mem_cons_self]
      exact Tab.get_set_same ..
    · rw [show Tab.get (Tab.set t r (f (Tab.get t r d))) x d = Tab.get t x d from Tab.get_set_ne _ _ _ hx]
      simp [hx]

theorem State.get_loadCode (s : State) (h : Image) (b : List Byte) {rce i : Nat} (hrce : rce < 48) (hi : i < h.words) :
    Tab.get (Tab.get (s.loadCode h b) rce []) (h.base + i) 0 = csWord (imgWord h b i) := by
  have hmem : rce ∈ channels := List.mem_range.mpr hrce
  have harea : Tab.get (s.loadCode h b) rce [] = areaWith h b (Tab.get s.planArea rce []) := by
    refine (Tab.get_foldl_update (areaWith h b) [] channels s.planArea List.nodup_range).trans (if_pos hmem)
  rw [harea]
  exact Tab.get_foldl_set_mem (fun i => h.base + i) (fun i => csWord (imgWord h b i)) h.words _ 0 hi fun j _ hj => by omega

theorem codeCheck_ge {h : Image} {ws : List Nat} {c i : Nat} (hcode : codeCheck h ws = some (c, i)) : 3 ≤ c := by
  have hfind {code : Nat} {p : Nat → Bool} (hcode : 3 ≤ code)
      (hfound : ((List.range ws.length).find? p).map (fun i => (code, i)) = some (c, i)) : 3 ≤ c := by
    obtain ⟨_, -, hpair⟩ := Option.map_eq_some_iff.mp hfound
    rwa [← (Prod.mk.inj hpair).1]
  unfold codeCheck at hcode
  simp only [Option.orElse_eq_or, Option.or_eq_some_iff] at hcode
  obtain h3 | ⟨-, h4 | ⟨-, h5 | ⟨-, h6⟩⟩⟩ := hcode
  · exact hfind (by decide) h3
  · exact hfind (by decide) h4
  · exact hfind (by decide) h5
  · exact hfind (by decide) h6

theorem State.imageCheck_bound {s : State} {tid : Nat} {h : Image} {b : List Byte} {inRegion bad : Bool}
    (hcheck : s.imageCheck tid h b inRegion bad = (0, 0xFFFF)) : h.base + h.words ≤ 0x3E00 := by
  by_contra hbeyond
  unfold State.imageCheck at hcheck
  dsimp only at hcheck
  split at hcheck
  · simp at hcheck
  split at hcheck
  · simp at hcheck
  split at hcheck
  next c i hcode =>
    have hlow := codeCheck_ge hcode
    rw [(Prod.mk.inj hcheck).1] at hlow
    omega
  split at hcheck
  · simp at hcheck
  split at hcheck
  · simp at hcheck
  rw [if_pos (by omega)] at hcheck
  simp at hcheck



/-! ### Images -/

theorem State.apart_nodeWrite (s : State) (kind mid tid job ep region off n val status : Nat) :
    (s.nodeWrite kind mid tid job ep region off n val status).apart = s.apart := by
  unfold State.nodeWrite
  exact (State.apart_homeArrive ..).trans rfl

/-- The bytes of an image that the load has read: none where its head is bad or its region too short. -/
def State.imageRead (s : State) (l : Load) (r : Req) (h : Image) : List Byte :=
  if h.fmtOk && decide (h.bytes ≤ s.imageRoom r) then l.bytes h.bytes else []

/-- The plan of an image under the number that is free. -/
def State.newPlan (s : State) (r : Req) (h : Image) (b : List Byte) : Plan :=
  { num := s.freePlan.getD 0, tid := r.tid, base := h.base, words := h.words, sealed_ := h.sealed_, ops := (List.range h.nops).map (fun i => entryOf (imgEntry b i)), closing := none }

/-- The state with its plan areas as given and one more plan. -/
def State.withPlan (s : State) (area : Tab (Tab Nat)) (p : Plan) : State := { s with planArea := area, plans := s.plans ++ [p] }

theorem State.planArea_withPlan (s : State) (area : Tab (Tab Nat)) (p : Plan) : (s.withPlan area p).planArea = area := rfl

theorem State.plans_withPlan (s : State) (area : Tab (Tab Nat)) (p : Plan) : (s.withPlan area p).plans = s.plans ++ [p] := rfl

/-- What the end of an image's reads leaves, but for the report that it writes. -/
theorem exec_planImageReadDone {s : State} {rid code at_ : Nat} {l : Load} {r : Req} {h : Image} (hacts : s.acts pgHOME = true)
    (hloads : s.loads = [l]) (hrid : l.rid = rid) (hreq : s.req rid = some r) (hleft : l.left = 0) (hasked : l.asked ≠ 0)
    (hplace : r.place = .bakeWait) (hwait : r.wait = 0) (hearlier : s.loadEarlier rid = false)
    (hh : h = imageHead (Tab.get l.lines 0 0).toNat) (hplain : (h.fmtOk && decide (h.bytes ≤ s.imageRoom r) && h.sealed_) = false)
    (hcheck : s.imageCheck r.tid h (s.imageRead l r h) (decide (h.bytes ≤ s.imageRoom r)) l.bad = (code, at_)) :
    ∃ t, exec (.planImageReadDone rid) s = .next t ∧ t.apart = (if code = 0 then s.withPlan (s.loadCode h (s.imageRead l r h)) (s.newPlan r h (s.imageRead l r h)) else s).apart := by
  subst hrid
  unfold State.imageRead at hcheck ⊢
  have hwhole : (l.asked != 0 && decide (h.bytes ≤ s.imageRoom r)) = decide (h.bytes ≤ s.imageRoom r) := by simp [hasked]
  refine ⟨?t, (State.onBlk_acts _ hacts).trans ?hexec, ?hframe⟩
  case hexec =>
    split
    next l' ls r' hloads' hreq' =>
      obtain ⟨rfl, -⟩ := List.cons.inj (hloads.symm.trans hloads')
      obtain rfl := Option.some.inj (hreq.symm.trans hreq')
      dsimp only
      refine (if_neg (by simp [hleft, hplace, hwait, hearlier])).trans ((if_neg (by simp [hasked])).trans ?_)
      rw [if_neg hasked, ← hh, hwhole, if_neg (by simp [hplain]), hcheck]
    next hnone => exact absurd hreq (hnone _ _ _ hloads)
  case hframe =>
    refine (State.apart_nodeWrite ..).trans ((State.apart_of_body (State.body_use ..)).trans ?_)
    exact (State.apart_updReq ..).trans rfl

theorem State.plans_of_apart {s t : State} (h : t.apart = s.apart) : t.plans = s.plans ∧ t.planArea = s.planArea :=
  ⟨(congrArg State.plans h :), (congrArg State.planArea h :)⟩

theorem State.imageCheck_malformed {s : State} {tid : Nat} {h : Image} {b : List Byte} {inRegion bad : Bool} (hfmt : h.fmtOk = false) :
    s.imageCheck tid h b inRegion bad = (1, 0xFFFF) := if_pos (by simp [hfmt])

/-! ### The order and the runs of a Bake -/

theorem updFirst_head {α : Type} (p : α → Bool) (f : α → α) (x : α) (l : List α) (h : p x = true) : updFirst p f (x :: l) = f x :: l :=
  if_pos h

theorem find?_updFirst_bakes (p : Bake → Bool) (f : Bake → Bake) (hf : ∀ x, p (f x) = p x) (l : List Bake) :
    (updFirst p f l).find? p = (l.find? p).map f := by
  induction l with
  | nil => rfl
  | cons x l ih =>
    unfold updFirst
    cases hp : p x
    · rw [if_neg Bool.false_ne_true, List.find?_cons_of_neg (by simp [hp]), List.find?_cons_of_neg (by simp [hp]), ih]
    · rw [if_pos rfl, List.find?_cons_of_pos (by rw [hf, hp]), List.find?_cons_of_pos hp]
      rfl

theorem State.bake_updBake (s : State) (bid : Nat) {f : Bake → Bake} (hf : ∀ x, (f x).id = x.id) :
    (s.updBake bid f).bake bid = (s.bake bid).map f :=
  find?_updFirst_bakes _ _ (fun x => by rw [hf]) _

/-- The Bakes and the fences, which the preparation of lines and the Twin channel leave alone. -/
def State.order (s : State) : List Bake × List Fence := (s.bakes, s.fences)

theorem State.order_of_apart {s t : State} (h : t.apart = s.apart) : t.order = s.order :=
  Prod.ext (congrArg State.bakes h :) (congrArg State.fences h :)

theorem State.order_prepare (s : State) (b : Bake) (rows : List (Nat × Bool)) : (s.prepare b rows).order = s.order := by
  unfold State.prepare
  dsimp only
  refine foldl_keeps State.order _ (fun u la => ?_) _ _
  repeat' split
  all_goals rfl

theorem State.order_bakeEnds (s : State) (bid : Nat) : (s.bakeEnds bid).order = s.order := by
  unfold State.bakeEnds
  split
  · rfl
  · split
    · split
      · exact (State.order_of_apart (State.apart_twSeq ..) :)
      · rfl
    · rfl

theorem State.order_twBakeSend_of_plain {s : State} {b : Bake} (h : s.bakeMirrored b = false) : s.twBakeSend b = (none, s) :=
  if_neg (by simp [h])



/-- The two configurations and the epoch that drains. -/
def State.epochs (s : State) : Tab Nat × Tab Nat × Bool × Nat := (s.cfgOpen, s.cfgDrain, s.commitPending, s.drainEpoch)

theorem State.bakeMirrored_congr {s u : State} (h : u.epochs = s.epochs) (b : Bake) : u.bakeMirrored b = s.bakeMirrored b := by
  obtain ⟨hopen, hrest⟩ := Prod.mk.inj h
  obtain ⟨hdrain, hrest⟩ := Prod.mk.inj hrest
  obtain ⟨hpending, hepoch⟩ := Prod.mk.inj hrest
  have hattr (n : Nat) : u.attr b.epoch TEN_R_MIRROR n = s.attr b.epoch TEN_R_MIRROR n := by
    unfold State.attr State.rgn State.rdAt State.rd
    rw [hopen, hdrain, hpending, hepoch]
    rfl
  unfold State.bakeMirrored
  simp only [hattr]

theorem State.epochs_regrant (s : State) : s.regrant.epochs = s.epochs := by
  unfold State.regrant
  refine foldl_keeps State.epochs _ (fun u b => ?_) _ _
  dsimp only
  repeat' split
  all_goals rfl

theorem State.epochs_prepare (s : State) (b : Bake) (rows : List (Nat × Bool)) : (s.prepare b rows).epochs = s.epochs := by
  unfold State.prepare
  dsimp only
  refine foldl_keeps State.epochs _ (fun u la => ?_) _ _
  repeat' split
  all_goals rfl

/-- Granting bank subarrays to the one Bake leaves the fences, and its number, its order and its stage. -/
theorem State.order_regrant {s : State} {b : Bake} (hbakes : s.bakes = [b]) : ∃ b', s.regrant.order = ([b'], s.fences) ∧
    b'.id = b.id ∧ b'.order = b.order ∧ b'.stage = b.stage := by
  have hupd (f : Bake → Bake) : (s.updBake b.id f).order = ([f b], s.fences) :=
    Prod.ext ((congrArg (updFirst _ f) hbakes).trans (updFirst_head _ _ _ _ (beq_self_eq_true _))) rfl
  unfold State.regrant
  rw [hbakes, List.foldl_cons, List.foldl_nil]
  split
  · dsimp only
    split
    · exact ⟨b, Prod.ext hbakes rfl, rfl, rfl, rfl⟩
    · exact ⟨_, hupd _, rfl, rfl, rfl⟩
  · exact ⟨b, Prod.ext hbakes rfl, rfl, rfl, rfl⟩

/-- The state once a Bake has its place in the order and its fence. -/
def State.fencedFor (s : State) (b : Bake) : State :=
  ({ s with nextOrder := s.nextOrder + 1, fences := s.fences ++ [{ bake := b.id, rows := b.rows, order := s.nextOrder }] } : State).updBake b.id
    (fun b => { b with order := some s.nextOrder, stage := 1, keys := ({ s with nextOrder := s.nextOrder + 1 } : State).bakeKeys b })

theorem State.bakeOrdered_of_running (s : State) {b : Bake} (haborted : b.aborted = false) : s.bakeOrdered b =
    if b.replay then (s.fencedFor b).regrant.prepare b b.rows
    else ((((s.fencedFor b).regrant.prepare b b.rows).twBakeSend b).2.finishGated (((s.fencedFor b).regrant.prepare b b.rows).twBakeSend b).1
      b.id stOK 0 none).bakeEnds b.id := by
  unfold State.bakeOrdered
  dsimp only [State.nextOrd]
  rw [if_neg (show ¬ b.aborted = true by simp [haborted])]
  rfl

/-- The order of a Bake without the Twin channel: its fence stands, and it is ordered and first of all to be prepared. -/
theorem State.order_bakeOrdered {s : State} {b : Bake} (hbakes : s.bakes = [b]) (haborted : b.aborted = false)
    (hplain : s.bakeMirrored b = false) : ∃ b', (s.bakeOrdered b).order =
      ([b'], s.fences ++ [{ bake := b.id, rows := b.rows, order := s.nextOrder }]) ∧ b'.id = b.id ∧ b'.order = some s.nextOrder ∧ b'.stage = 1 := by
  have hfenced : (s.fencedFor b).bakes = [{ b with
      order := some s.nextOrder, stage := 1, keys := ({ s with nextOrder := s.nextOrder + 1 } : State).bakeKeys b }] :=
    (congrArg (updFirst _ _) hbakes).trans (updFirst_head _ _ _ _ (beq_self_eq_true _))
  obtain ⟨b', horder, hid, hord, hstage⟩ := State.order_regrant hfenced
  have hprepared : ((s.fencedFor b).regrant.prepare b b.rows).order = ([b'], (s.fencedFor b).fences) :=
    (State.order_prepare ..).trans horder
  have hmirrored : ((s.fencedFor b).regrant.prepare b b.rows).bakeMirrored b = false :=
    (State.bakeMirrored_congr ((State.epochs_prepare ..).trans (State.epochs_regrant ..)) b).trans
      ((State.bakeMirrored_congr (by rfl) b).trans hplain)
  rw [State.bakeOrdered_of_running s haborted, State.order_twBakeSend_of_plain hmirrored]
  refine ⟨b', ?_, hid, hord, hstage⟩
  split
  · exact hprepared
  · exact ((State.order_bakeEnds ..).trans (State.order_of_apart (State.apart_finishGated ..))).trans hprepared

/-! ### Writes of the node -/

theorem updFirst_append_last (p : Req → Bool) (f : Req → Req) (l : List Req) (x : Req) (hl : l.find? p = none) (hx : p x = true) :
    updFirst p f (l ++ [x]) = l ++ [f x] := by
  induction l with
  | nil => exact if_pos hx
  | cons y l ih =>
    rw [List.find?_eq_none] at hl
    rw [List.cons_append]
    unfold updFirst
    rw [if_neg (hl y List.mem_cons_self), ih (List.find?_eq_none.mpr fun z hz => hl z (List.mem_cons_of_mem _ hz))]
    rfl

/-- A write of the node under a fresh number waits at the home, behind every other request. -/
theorem State.reqs_nodeWrite {s : State} (kind mid tid job ep region off n val status : Nat) (hfree : s.req s.nextId = none) : ∃ r,
    (s.nodeWrite kind mid tid job ep region off n val status).reqs = s.reqs ++ [r] ∧ r.op = .wrPtl ∧ r.place = .home ∧
      r.off = off / 64 * 64 ∧ r.be = BitVec.ofNat 64 ((2 ^ n - 1) * 2 ^ (off % 64)) := by
  unfold State.nodeWrite
  extract_lets _ r
  have hreq : State.req { s with reqs := s.reqs ++ [r], nextId := s.nextId + 1 } r.id = some r := by
    refine (List.find?_append ..).trans ?_
    rw [show s.reqs.find? (fun x => x.id == r.id) = none from hfree]
    simp
  have hintern : r.intern = true := rfl
  have hoff : r.off = off / 64 * 64 := rfl
  have hbe : r.be = BitVec.ofNat 64 ((2 ^ n - 1) * 2 ^ (off % 64)) := rfl
  have hop : r.op = .wrPtl := rfl
  have hnum : r.id = s.nextId := rfl
  clear_value r
  unfold State.homeArrive
  rw [hreq]
  dsimp only
  have htrk (l : List Trk) : l.find? (fun t => t.la == r.la && t.awaited.any (fun a => a.1 == r.aid) && !r.intern) = none :=
    List.find?_eq_none.mpr fun t _ => by simp [hintern]
  rw [htrk]
  dsimp only
  refine ⟨{ r with place := .home, order := s.nextOrder }, ?_, hop, rfl, hoff, hbe⟩
  refine (congrArg State.reqs (State.body_sample ..) :).trans ?_
  have hupd (u : State) (hu : u.reqs = s.reqs ++ [r]) : (u.updReq r.id (fun r => { r with place := .home, order := s.nextOrder })).reqs =
      s.reqs ++ [{ r with place := .home, order := s.nextOrder }] := by
    rw [State.updReq_reqs, hu]
    exact updFirst_append_last _ _ _ _ (hnum ▸ hfree) (beq_self_eq_true _)
  split
  · exact (congrArg State.reqs (State.body_bump ..) :).trans (hupd _ rfl)
  · exact hupd _ rfl



theorem State.bake_of_bakes {s t : State} (h : t.bakes = s.bakes) (bid : Nat) : t.bake bid = s.bake bid := by
  unfold State.bake
  rw [h]

/-- A Bake that is changed as the node writes for it: the Bake, and the write that waits behind every other request. -/
theorem State.reads_bakeWrite {s : State} {bid tid job : Nat} {b : Bake} {f : Bake → Bake} (kind ep region off n val status : Nat)
    (hbake : s.bake bid = some b) (hf : ∀ x, (f x).id = x.id) (hfree : s.req s.nextId = none) :
    ((s.updBake bid f).nodeWrite kind bid tid job ep region off n val status).bake bid = some (f b) ∧
    ((s.updBake bid f).nodeWrite kind bid tid job ep region off n val status).reqs.getLast?.map (fun r => (r.op, r.place, r.off, r.be)) =
      some (.wrPtl, .home, off / 64 * 64, BitVec.ofNat 64 ((2 ^ n - 1) * 2 ^ (off % 64))) := by
  obtain ⟨r, hreqs, hop, hplace, hoff, hbe⟩ := State.reqs_nodeWrite (s := s.updBake bid f) kind bid tid job ep region off n val status hfree
  have hbakes : ((s.updBake bid f).nodeWrite kind bid tid job ep region off n val status).bakes = (s.updBake bid f).bakes :=
    (congrArg State.bakes (State.apart_nodeWrite ..) :)
  refine ⟨(State.bake_of_bakes hbakes bid).trans ?_, ?_⟩
  · exact (State.bake_updBake s bid hf).trans (congrArg (Option.map f) hbake)
  · rw [hreqs, List.getLast?_concat, Option.map_some, hop, hplace, hoff, hbe]

/-- The record of a Bake is one write of 32 bytes, after which the Bake waits for its status word. -/
theorem exec_recordWrite {s : State} {bid : Nat} {b : Bake} (hacts : s.acts pgHOME = true) (hbake : s.bake bid = some b) (hstage : b.stage = 4)
    (hrecord : b.hasRecord = true) (haborted : b.aborted = false) (hreplay : b.replay = false) (hfenced : s.bakeFenced b = false)
    (hlanes : s.bakeLanes bid = false) (hentries : s.bakeEntries bid = false) : ∃ (f : Bake → Bake) (kind value : Nat),
      exec (.recordWrite bid) s = .next ((s.updBake bid f).nodeWrite kind bid b.tid b.job b.epoch b.record.1 b.record.2 32 value 0) ∧
      ∀ x, (f x).id = x.id ∧ (f x).stage = 5 := by
  have hdue : b.recordDue = true := by simp [Bake.recordDue, hrecord, haborted, hreplay]
  have hmay : ((b.stage = 4 || (b.aborted && b.stage < 5 && s.contextsEnded b)) && b.recordDue && !s.bakeFenced b && !s.bakeLanes bid && !s.bakeEntries bid) = true := by
    simp [hstage, hdue, hfenced, hlanes, hentries]
  refine ⟨?f, ?kind, ?value, (State.onBlk_acts _ hacts).trans ?hexec, ?hf⟩
  case hexec =>
    rw [hbake]
    exact if_pos hmay
  case hf => exact fun _ => ⟨rfl, rfl⟩

/-! ### The start of a run -/

theorem exec_bakeStart {s : State} {bid : Nat} {rce : Fin 48} {b : Bake} {k ci : Nat} {run : Nat × Nat} (hacts : s.acts pgHOME = true)
    (hbake : s.bake bid = some b) (horder : b.order.isSome = true) (haborted : b.aborted = false) (hprep : s.preparing bid = false)
    (hstage : b.stage = 1 ∨ b.stage = 3) (hscan : b.stage = 1 → s.scanRows b = []) (hrun : Tab.get b.runs rce.val (0, true) = (k, true))
    (hnext : (s.runs b)[k]? = some run) (hblocked : s.startBlocked b rce.val = false) (hctx : s.ctxOf rce.val bid = none)
    (hfree : (List.range 8).find? (fun c => (s.ctx rce.val c).state == 0) = some ci) :
    exec (.bakeStart bid rce) s = .next (s.startRun b rce.val ci run k) := by
  have hnotEmpty : ¬ (s.runs b).isEmpty = true := by
    intro hempty
    rw [List.isEmpty_iff.mp hempty] at hnext
    cases hnext
  refine (State.onBlk_acts _ hacts).trans ?_
  rw [hbake]
  dsimp only
  rw [if_neg, if_neg, if_neg (by omega), if_neg hnotEmpty, hrun]
  · dsimp only
    rw [if_pos rfl, hnext]
    dsimp only
    rw [if_neg (by simp [hblocked]), hctx, Option.orElse_none, hfree]
  · rcases hstage with hone | hthree
    · simp [hscan hone]
    · simp [hthree]
  · rw [Option.isSome_iff_ne_none] at horder
    rcases hstage with hone | hthree
    · simp [horder, haborted, hprep, hone]
    · simp [horder, haborted, hprep, hthree]

theorem State.bake_of_body {s t : State} (h : t.body = s.body) (bid : Nat) : t.bake bid = s.bake bid :=
  State.bake_of_bakes (congrArg State.bakes h :) bid

theorem State.reads_startRun {s : State} {b : Bake} {rce ci k bid : Nat} {run : Nat × Nat} (hid : b.id = bid) (hbake : s.bake bid = some b) :
    ((s.startRun b rce ci run k).ctx rce ci).state = 1 ∧ ((s.startRun b rce ci run k).ctx rce ci).bid = bid ∧
    ((s.startRun b rce ci run k).ctx rce ci).pc = b.entry ∧ ((s.startRun b rce ci run k).ctx rce ci).x = b.args run.1 run.2 ∧
    ((s.startRun b rce ci run k).bake bid).map (fun x => (x.stage, Tab.get x.runs rce (0, false))) = some (3, k + 1, false) := by
  subst hid
  unfold State.startRun
  extract_lets x _ s1 s2
  have hbody : State.body ((s2.count 8 b.tid b.job 3).use [pgRCE rce]) =
      (s1.updBake b.id (fun b => { b with runs := Tab.set b.runs rce (k + 1, false), stage := 3 })).body :=
    (State.body_use ..).trans ((State.body_count ..).trans (State.body_sample ..))
  have hctx := (State.ctx_of_body hbody rce ci).trans (State.ctx_setCtx_same s rce ci _)
  rw [hctx]
  refine ⟨rfl, rfl, rfl, rfl, ?_⟩
  rw [State.bake_of_body hbody, State.bake_updBake s1 b.id (by intro _; rfl), show s1.bake b.id = some b from hbake]
  exact congrArg (fun v => some (3, v)) (Tab.get_set_same ..)

/-- Settles O27: what each command leaves of the plans, the Bakes, the contexts and the requests is computed. -/
theorem plansAndBakes : Obligations.PlansAndBakes := by
  unfold Obligations.PlansAndBakes
  refine ⟨?_, ?_, ?_, ?_, ?_, ?_, ?_⟩
  · intro s rid l r h hacts hloads hrid hreq hleft hasked hplace hwait hearlier hh hfmt hroom hsealed hcheck
    have hread : s.imageRead l r h = l.bytes h.bytes := if_pos (by simp [hfmt, hroom])
    obtain ⟨t, hexec, hframe⟩ := exec_planImageReadDone (code := 0) (at_ := 0xFFFF) hacts hloads hrid hreq hleft hasked hplace hwait hearlier hh
      (by simp [hsealed]) (by rw [hread, decide_eq_true hroom]; exact hcheck)
    rw [if_pos rfl, hread] at hframe
    obtain ⟨hplans, harea⟩ := State.plans_of_apart hframe
    have hbound := State.imageCheck_bound hcheck
    refine ⟨t, hexec, (hplans.trans (State.plans_withPlan ..)).trans (by unfold State.newPlan; rw [hsealed]), fun rce i hrce hi => ?_, core_of_exec rfl hexec⟩
    unfold State.csRead
    rw [if_pos (by omega), harea, State.planArea_withPlan]
    exact State.get_loadCode s h (l.bytes h.bytes) hrce hi
  · intro s rid l r hacts hloads hrid hreq hleft hasked hplace hwait hearlier hfmt
    obtain ⟨t, hexec, hframe⟩ := exec_planImageReadDone (code := 1) (at_ := 0xFFFF) hacts hloads hrid hreq hleft hasked hplace hwait hearlier rfl
      (by rw [hfmt]; rfl) (State.imageCheck_malformed hfmt)
    obtain ⟨hplans, harea⟩ := State.plans_of_apart hframe
    exact ⟨t, hexec, hplans, harea, core_of_exec rfl hexec⟩
  · intro s plan p rid hacts hplan hclosing hunused
    have hexec : exec (.planUnloadDone plan) s =
        .next (({ s with plans := s.plans.filter (fun x => x.num != p.num) } : State).finish rid stOK 0 none) := by
      refine (State.onBlk_acts _ hacts).trans ?_
      rw [hplan]
      dsimp only
      rw [hclosing]
      exact if_neg (by simp [hunused])
    obtain ⟨hplans, harea⟩ := State.plans_of_apart (State.apart_finish { s with plans := s.plans.filter (fun x => x.num != p.num) } rid stOK 0 none nidNone none)
    exact ⟨_, hexec, hplans, harea, core_of_exec rfl hexec⟩
  · intro s bid b r hacts hbakes hid horder haborted hfences hreq hplain hlive hinc
    subst hid
    have hexec : exec (.bakeOrder b.id) s = .next ((s.use [pgHOME, pgDIRC]).bakeOrdered b) := by
      refine (State.onBlk_acts _ hacts).trans ?_
      rw [hbakes, List.find?_cons_of_pos (by simp [horder])]
      dsimp only
      rw [if_neg (by simp; omega), hreq]
      dsimp only
      rw [if_neg (by simp [hplain]), if_neg (by simp [hlive, hinc])]
    have hbody := State.body_use s [pgHOME, pgDIRC]
    have hmirrored : (s.use [pgHOME, pgDIRC]).bakeMirrored b = false := by
      unfold State.bakeMirrored at hplain ⊢
      simpa only [State.attr_congr (State.settings_use s [pgHOME, pgDIRC]) b.epoch (f := TEN_R_MIRROR) rfl] using hplain
    have hone : (s.use [pgHOME, pgDIRC]).bakes = [b] := (congrArg State.bakes hbody :).trans hbakes
    obtain ⟨b', hordered, hid, hord, hstage⟩ := State.order_bakeOrdered hone haborted hmirrored
    have hnow : (s.use [pgHOME, pgDIRC]).nextOrder = s.nextOrder := (congrArg State.nextOrder hbody :)
    have hold : (s.use [pgHOME, pgDIRC]).fences = s.fences := (congrArg State.fences hbody :)
    rw [hnow, hold] at hordered
    rw [hnow] at hord
    have hnew : ((s.use [pgHOME, pgDIRC]).bakeOrdered b).bakes = [b'] := congrArg Prod.fst hordered
    refine ⟨_, hexec, congrArg Prod.snd hordered, ?_, core_of_exec rfl hexec⟩
    rw [hnew, List.map_cons, List.map_nil, hid, hord, hstage]
  · intro s bid rce b k ci run hacts hbake hid horder haborted hprep hstage hscan hrun hnext hblocked hctx hfree
    have hexec := exec_bakeStart hacts hbake horder haborted hprep hstage hscan hrun hnext hblocked hctx hfree
    obtain ⟨hstate, hbid, hpc, hx, hmap⟩ := State.reads_startRun (rce := rce.val) (ci := ci) (k := k) (run := run) hid hbake
    exact ⟨_, hexec, hstate, hbid, hpc, hx, hmap, core_of_exec rfl hexec⟩
  · intro s bid b hacts hbake hid hstage hrecord haborted hreplay hfenced hlanes hentries hfree
    obtain ⟨f, kind, value, hexec, hf⟩ := exec_recordWrite hacts hbake hstage hrecord haborted hreplay hfenced hlanes hentries
    obtain ⟨hbakes, hreqs⟩ := State.reads_bakeWrite kind b.epoch b.record.1 b.record.2 32 value 0 hbake (f := f) (fun x => (hf x).1) hfree
    exact ⟨_, hexec, (congrArg (Option.map _) hbakes).trans (congrArg some (hf b).2), hreqs, core_of_exec rfl hexec⟩
  · intro s bid b hacts hbake hid hreplay hfenced hover hstage hready hfree
    have hexec : exec (.statusWordWrite bid) s = .next ((s.updBake bid (fun b => { b with stage := 6 })).nodeWrite wkStatus bid b.tid b.job
        b.epoch b.status.1 b.status.2 8 b.word 0) := by
      refine (State.onBlk_acts _ hacts).trans ?_
      rw [hbake]
      dsimp only
      rw [if_neg (by simp [hreplay]), if_neg (by simp [hfenced]), if_pos (by simp [hover, hstage]), if_pos hready]
    obtain ⟨hbakes, hreqs⟩ := State.reads_bakeWrite wkStatus b.epoch b.status.1 b.status.2 8 b.word 0 hbake
      (f := fun b => { b with stage := 6 }) (by intro _; rfl) hfree
    exact ⟨_, hexec, congrArg (Option.map _) hbakes, hreqs, core_of_exec rfl hexec⟩

end Sys2Proof.Machine
end

section
/-! ## O28: the end of a mailbox command may send its interrupt through the very port whose keys it loads

LINK_KEY_LOAD names port 0, whose transmitter has a key switch due: it waits for room in its replay buffer (R81), and the switch goes
with the next message. The command ends with krBadPoint and raises MBX_DONE, whose interrupt message goes to an agent behind port 0; the
switch goes with it, so that the transmitter of the port encrypts after a command that fills no key set. -/
namespace Sys2Proof.Machine

open Reg Sys2Proof.Tests

/-- LINK_KEY_LOAD of set 1 of the transmitter of port 0 runs, without a key; the end of a mailbox command interrupts agent 7, behind that
port, whose transmitter has a key switch due. -/
def switchDue : State :=
  { (((((W.open_.wr WARDEN_MBX_BUF 0x10000 0 0).wr BDIR_TO_AGENT 1).wr BDIR_AGENT 7).wr H_INT_EN (2 ^ I_WARDEN_MBX_DONE) pgWARDEN).setPort 0
      { W.upPort with keyDue := true }) with
    warden := { W.open_.warden with busy := some (0x44, 3, true) } }

theorem txCrypt_linkKeyLoad_switchDue :
    ((switchDue.after .linkKeyLoad).port 0).txCrypt.active = true ∧ (switchDue.port 0).txCrypt.active = false := by
  exact ⟨by decide +kernel, by decide +kernel⟩


end Sys2Proof.Machine

open Sys2Proof.Machine Sys2Proof.Tests

/-- Refutes O28: with LINK_KEY_LOAD that fills no key set, the interrupt of its end carries a due key switch of the port along. -/
theorem not_keyCommands : ¬ Obligations.KeyCommands := by
  rintro ⟨-, -, -, -, -, hload, -⟩
  have hpoint : p384Point (((switchDue.mbxIn 3).drop 3).take 97) = none := by decide +kernel
  obtain ⟨t, ht, -, -, -, hcrypt, -⟩ := hload switchDue 3 true 0 (by decide +kernel) rfl (by decide +kernel) (by decide +kernel)
    (by decide +kernel) (.inl (by decide +kernel))
  rw [hpoint] at hcrypt
  have hkept : (t.port 0).txCrypt = (switchDue.port 0).txCrypt := hcrypt
  obtain ⟨hon, hoff⟩ := txCrypt_linkKeyLoad_switchDue
  rw [State.after_of_next ht, hkept, hoff] at hon
  exact absurd hon (by decide)
end

section
/-! ## O31: the interrupt of METER's state change is metered

The Meter Link goes out of sync where METER's state in MSTATE is not the one that its inputs now give. METER takes that state and raises
METER_STATE_CHANGE, whose interrupt message goes to an agent; the message is counted in the running interval, so that the tally changes. -/
namespace Sys2Proof.Machine

open Reg Sys2Proof.Tests

/-- METER's state is about to change, and a change interrupts agent 7, behind port 0; the link is in sync, and nothing is counted. -/
def stateDue : State :=
  { (((W.open_.wr BDIR_TO_AGENT 1).wr BDIR_AGENT 7).wr H_INT_EN (2 ^ I_METER_STATE_CHANGE) pgMETER).wr METER_MSTATE 5 with
    meter := { W.open_.meter with sync := true } }

theorem tally_meterLinkOutOfSync_stateDue : (stateDue.after .meterLinkOutOfSync).tally.length = 1 ∧ stateDue.tally = [] := by
  exact ⟨by decide +kernel, by decide +kernel⟩

end Sys2Proof.Machine

open Sys2Proof.Machine Sys2Proof.Tests

/-- Refutes O31: when the link goes out of sync, the interrupt of METER's state change enters the tally. -/
theorem not_meterLink : ¬ Obligations.MeterLink := by
  rintro ⟨-, -, hsync, -⟩
  obtain ⟨t, ht, -, htally, -⟩ := hsync stateDue (by decide +kernel) rfl
  obtain ⟨hone, hnone⟩ := tally_meterLinkOutOfSync_stateDue
  rw [State.after_of_next ht, htally, hnone] at hone
  exact absurd hone (by decide)
end

section
/-! ## O32: the interrupt of METER's state change on a STATUS is metered

STATUS arrives where METER's state in MSTATE is not the one that its inputs now give. METER takes that state, and the interrupt message of
METER_STATE_CHANGE is counted in the running interval, so that the tally changes with the frame. -/
namespace Sys2Proof.Machine

open Reg Sys2Proof.Tests

/-- The same state as for the loss of sync, with a ZM-3 that is present and identified. -/
def statusDue : State := { stateDue with meter := W.meter }

theorem tally_status_statusDue : (statusDue.after (.status (W.hdr 1 0) W.statusB)).tally.length = 1 ∧ statusDue.tally = [] := by
  exact ⟨by decide +kernel, by decide +kernel⟩

end Sys2Proof.Machine

open Sys2Proof.Machine Sys2Proof.Tests

/-- Refutes O32: with STATUS, the interrupt of METER's state change enters the tally. -/
theorem not_meterFrames : ¬ Obligations.MeterFrames := by
  rintro ⟨-, -, hstatus, -⟩
  obtain ⟨t, ht, -, -, -, -, -, -, -, htally, -⟩ := hstatus statusDue (W.hdr 1 0) W.statusB (by decide +kernel) rfl rfl rfl rfl rfl rfl rfl
    (by decide +kernel) rfl
  obtain ⟨hone, hnone⟩ := tally_status_statusDue
  rw [State.after_of_next ht, htally, hnone] at hone
  exact absurd hone (by decide)
end

section
namespace Sys2Proof.Machine
open Reg

/-! ## O33: jobs and Proofs in the ZM-3 -/

theorem State.foldl_out {α : Type} (f : α → Out) (l : List α) (s : State) :
    l.foldl (fun (s : State) p => s.out (f p)) s = { s with outs := s.outs ++ l.map f } := by
  induction l generalizing s with
  | nil => simp
  | cons x l ih =>
    rw [List.foldl_cons, ih]
    simp [State.out]

/-- The ALARMs of an interval are output alone. -/
theorem State.intervalAlarms_outs (s : State) (n : Nat) (e : List Nat) (causes before after : Nat) :
    s.intervalAlarms n e causes before after = { s with outs := (s.intervalAlarms n e causes before after).outs } := by
  unfold State.intervalAlarms
  dsimp only
  repeat' split
  all_goals rfl

theorem Zm3.abandon_of_none {z : Zm3} (h : z.named = none) : z.abandon = z := by
  unfold Zm3.abandon
  rw [h]

/-- An interval that is not metered leaves the accumulators, and every open job notes it. -/
theorem Zm3.tallyEnd_unmetered {z : Zm3} (hnamed : z.named = none) (n : Nat) (recs : List TallyRec) (e : List Nat) (causes : Nat) :
    z.tallyEnd n recs e causes false = { z with
      count := max z.count (z.wide n),
      jobs := z.jobs.map (fun (j : ZJob) => if j.first ≤ z.wide n then { j with odd := j.odd ++ [(z.wide n, true, 0)] } else j) } := by
  unfold Zm3.tallyEnd
  rw [Zm3.abandon_of_none hnamed]
  rfl

theorem exec_zm3TallyEnd (s : State) (interval : Word) (recs : List TallyRec) (energies : List (BitVec 64)) (causes : BitVec 5)
    (metered : Bool) : ∃ t sus, exec (.zm3TallyEnd interval recs energies causes metered) s = .next t ∧
      t.zm3 = { s.zm3.tallyEnd interval.toNat recs (energies.map (·.toNat)) causes.toNat metered with suspect := sus } ∧
      t = { s with zm3 := t.zm3, outs := t.outs } := by
  refine ⟨_, s.zm3.implausible (s.zm3.wide interval.toNat) causes.toNat, rfl, ?_, ?_⟩
  · rw [State.intervalAlarms_outs]
  · rw [State.intervalAlarms_outs]

/-- What the issue of a Proof changes of the ZM-3; the node keeps its registers and its DRAM. -/
theorem State.reads_issueProof (s : State) (j : ZJob) (last ends : Nat) (unmet : List Nat) :
    (s.issueProof j last ends unmet).zm3.pseq = s.zm3.pseq + 1 ∧
    (s.issueProof j last ends unmet).zm3.jobs = s.zm3.jobs.filter (fun x => !(x.tid == j.tid && x.job == j.job)) ∧
    (s.issueProof j last ends unmet).zm3.journal.getLast?.map (fun p => (p.1, p.2.2)) = some (s.zm3.pseq + 1, false) ∧
    (s.issueProof j last ends unmet).zm3.totals = s.zm3.totals ∧ (s.issueProof j last ends unmet).regs = s.regs ∧
    (s.issueProof j last ends unmet).dram = s.dram := by
  unfold State.issueProof
  extract_lets z n m rec256 z' s1
  have hjournal : z'.journal.getLast?.map (fun p => (p.1, p.2.2)) = some (n, false) :=
    (congrArg (Option.map _) List.getLast?_concat)
  split <;> exact ⟨rfl, rfl, hjournal, rfl, rfl, rfl⟩

/-- Settles O33: each exchange with the ZM-3 is computed; only its own state and its answers change. -/
theorem zmThree : Obligations.ZmThree := by
  unfold Obligations.ZmThree
  refine ⟨?_, ?_, ?_, ?_, ?_⟩
  · intro s nid serial hnid
    have hexec : exec (.zm3Hello nid serial) s = .next _ := if_neg (by omega)
    rw [State.foldl_out] at hexec
    refine ⟨_, hexec, rfl, ?_, rfl, rfl⟩
    exact List.append_assoc ..
  · intro s tid job interval hjob hclosed
    have hexec : exec (.zm3JobOpen tid job interval) s = .next _ := if_neg hjob
    refine ⟨_, hexec, if_neg (by simp [hclosed]), rfl⟩
  · intro s interval recs energies causes hnamed
    obtain ⟨t, sus, hexec, hzm3, hframe⟩ := exec_zm3TallyEnd s interval recs energies causes false
    rw [Zm3.tallyEnd_unmetered hnamed] at hzm3
    refine ⟨t, hexec, ?_, ?_, ?_, ?_, hframe⟩
    · rw [hzm3]
    · rw [hzm3, List.map_map]
      refine List.map_congr_left fun j _ => ?_
      dsimp only [Function.comp]
      split <;> rfl
    · rw [hzm3]
    · rw [hzm3]
  · intro s tid job interval flags unmet j hfind htid hjob'
    have hexec : exec (.zm3JobClose tid job interval flags unmet) s =
        .next (s.issueProof j (s.zm3.wide interval.toNat) flags.toNat (unmet.map (·.toNat))) := by
      show execZm3JobClose .. = _
      unfold execZm3JobClose
      rw [hfind]
    obtain ⟨hpseq, hjobs, hjournal, htotals, hregs, hdram⟩ := s.reads_issueProof j (s.zm3.wide interval.toNat) flags.toNat (unmet.map (·.toNat))
    rw [htid, hjob'] at hjobs
    exact ⟨_, hexec, hpseq, hjobs, hjournal, htotals, hregs, hdram⟩
  · intro s seq hseq
    have hexec : exec (.zm3ProofAck seq) s = .next _ := if_neg (by omega)
    refine ⟨_, hexec, ?_, ?_, rfl⟩
    · simp only [List.all_map, List.all_eq_true, Function.comp]
      intro p _
      split
      · rfl
      · simp; omega
    · rw [List.map_map]
      refine List.map_congr_left fun p _ => ?_
      dsimp only [Function.comp]
      split <;> rfl

end Sys2Proof.Machine
end

section
namespace Sys2Proof.Machine

/-! ## O34: an interval's energy is given or left unassigned -/

theorem sum_addCounts {a b : List Nat} (h : a.length = b.length) : (addCounts a b).sum = a.sum + b.sum :=
  (List.sum_add_sum_eq_sum_zipWith_of_length_eq a b h).symm

theorem length_recordShare (recs : List TallyRec) (e : List Nat) (r : TallyRec) : (recordShare recs e r).length = 6 := by
  simp [recordShare]

/-- A first element that is changed adds what the change adds to it. -/
theorem sum_map_updFirst {α : Type} (p : α → Bool) (f : α → α) (g : α → Nat) (d : Nat) (l : List α) (hany : l.any p = true)
    (hadd : ∀ x ∈ l, p x = true → g (f x) = g x + d) : ((updFirst p f l).map g).sum = (l.map g).sum + d := by
  induction l with
  | nil => simp at hany
  | cons x l ih =>
    unfold updFirst
    by_cases hx : p x = true
    · rw [if_pos hx, List.map_cons, List.map_cons, List.sum_cons, List.sum_cons, hadd x List.mem_cons_self hx]
      omega
    · have hrest : l.any p = true := by simpa [hx] using hany
      rw [if_neg hx, List.map_cons, List.map_cons, List.sum_cons, List.sum_cons, ih hrest fun y hy => hadd y (List.mem_cons_of_mem _ hy)]
      omega

theorem forall_updFirst {α : Type} {P : α → Prop} (p : α → Bool) (f : α → α) (l : List α) (hl : ∀ x ∈ l, P x) (hf : ∀ x ∈ l, P (f x)) :
    ∀ x ∈ updFirst p f l, P x := by
  induction l with
  | nil => exact hl
  | cons y l ih =>
    have hrest := ih (fun x hx => hl x (List.mem_cons_of_mem _ hx)) fun x hx => hf x (List.mem_cons_of_mem _ hx)
    unfold updFirst
    split
    · intro x hx
      rcases List.mem_cons.mp hx with rfl | hx
      · exact hf y List.mem_cons_self
      · exact hl x (List.mem_cons_of_mem _ hx)
    · intro x hx
      rcases List.mem_cons.mp hx with rfl | hx
      · exact hl x List.mem_cons_self
      · exact hrest x hx

/-- A total that is raised raises the sum of all totals by as much. -/
theorem sum_totals_set (t : Tab Nat) (x d : Nat) :
    ((Tab.set t x (Tab.get t x 0 + d)).map (fun p => p.2)).sum = (t.map (fun p => p.2)).sum + d := by
  induction t with
  | nil => simp [Tab.set, Tab.get, Tab.get?]
  | cons c t ih =>
    obtain ⟨k, w⟩ := c
    unfold Tab.get Tab.get? Tab.set
    by_cases hbelow : x < k
    · have hne : x ≠ k := by omega
      rw [if_pos hbelow, if_neg hne, if_pos hbelow]
      simp [Nat.add_comm]
    · by_cases heq : x = k
      · rw [if_neg hbelow, if_pos heq, if_pos heq]
        simp
        omega
      · rw [if_neg hbelow, if_neg heq, if_neg heq, if_neg hbelow]
        have hrest : ((Tab.set t x ((Tab.get? t x).getD 0 + d)).map (fun p => p.2)).sum = (t.map (fun p => p.2)).sum + d := ih
        rw [List.map_cons, List.map_cons, List.sum_cons, List.sum_cons, hrest]
        omega

/-- A record's share reaches its job, or the JOB 0 total of its tenant, whole; the accumulators stay six. -/
theorem Zm3.held_give {z : Zm3} (hsix : ∀ j ∈ z.jobs, j.acc.length = 6) (r : TallyRec) {share : List Nat} (hshare : share.length = 6) :
    (z.give r share).held = z.held + share.sum ∧ (∀ j ∈ (z.give r share).jobs, j.acc.length = 6) ∧
      (z.give r share).unassigned = z.unassigned := by
  unfold Zm3.give
  dsimp only
  split
  next hany =>
    refine ⟨?_, ?_, rfl⟩
    · have hsum := sum_map_updFirst _ (fun j : ZJob => { j with acc := addCounts j.acc share }) (fun j => j.acc.sum) share.sum z.jobs hany
        fun j hj _ => sum_addCounts ((hsix j hj).trans hshare.symm)
      unfold Zm3.held
      dsimp only
      omega
    · refine forall_updFirst _ _ _ hsix fun j hj => ?_
      simp [addCounts, hsix j hj, hshare]
  · refine ⟨?_, hsix, rfl⟩
    have hsum := sum_totals_set z.totals r.tid.toNat share.sum
    unfold Zm3.held
    dsimp only
    omega

/-- All shares of an interval reach a job or a total. -/
theorem Zm3.held_give_all (l : List (TallyRec × List Nat)) {z : Zm3} (hsix : ∀ j ∈ z.jobs, j.acc.length = 6)
    (hl : ∀ p ∈ l, p.2.length = 6) : (l.foldl (fun (z : Zm3) p => z.give p.1 p.2) z).held = z.held + (l.map (fun p => p.2.sum)).sum ∧
      (l.foldl (fun (z : Zm3) p => z.give p.1 p.2) z).unassigned = z.unassigned := by
  induction l generalizing z with
  | nil => exact ⟨rfl, rfl⟩
  | cons p l ih =>
    obtain ⟨hheld, hkept, hunassigned⟩ := Zm3.held_give hsix p.1 (hl p List.mem_cons_self)
    obtain ⟨hrest, hlast⟩ := ih hkept fun q hq => hl q (List.mem_cons_of_mem _ hq)
    rw [List.foldl_cons, hrest, hheld, hlast, hunassigned, List.map_cons, List.sum_cons]
    exact ⟨by omega, rfl⟩

/-- Notes of an interval that was not metered or was Degraded change no accumulator. -/
theorem Zm3.held_noted (z : Zm3) (count at_ : Nat) (odd : List (Nat × Bool × Nat)) : ({ z with
    count := count, jobs := z.jobs.map (fun (j : ZJob) => if j.first ≤ at_ then { j with odd := j.odd ++ odd } else j) } : Zm3).held = z.held := by
  unfold Zm3.held
  dsimp only
  rw [List.map_map]
  congr 2
  refine List.map_congr_left fun j _ => ?_
  dsimp only [Function.comp]
  split <;> rfl

/-- What a metered interval adds to the accumulators and totals and to the unassigned energy is what channel 0 measured. -/
theorem Zm3.held_tallyEnd {z : Zm3} (hnamed : z.named = none) (hsix : ∀ j ∈ z.jobs, j.acc.length = 6) (n : Nat) (recs : List TallyRec)
    (e : List Nat) (causes : Nat) : ((z.tallyEnd n recs e causes true).held : Int) + (z.tallyEnd n recs e causes true).unassigned =
      z.held + z.unassigned + (e[0]?.getD 0 : Nat) := by
  unfold Zm3.tallyEnd
  rw [Zm3.abandon_of_none hnamed]
  extract_lets z' at' used shares given zg z1 odd
  obtain ⟨hheld, hunassigned⟩ := Zm3.held_give_all shares hsix fun p hp => by
    obtain ⟨r, -, rfl⟩ := List.mem_map.mp hp
    exact length_recordShare ..
  have hsame : z1.held = zg.held := rfl
  have hleft : z1.unassigned = zg.unassigned + ((e[0]?.getD 0 : Nat) : Int) - (given : Nat) := rfl
  have hnoted := Zm3.held_noted z1 (max z1.count at') at' odd
  have hgiven : zg.held = z.held + given := hheld
  have hbefore : zg.unassigned = z.unassigned := hunassigned
  clear_value z1 odd at'
  rw [hnoted]
  dsimp only
  omega

/-- Settles O34: each share is given whole, and what is not given is left unassigned. -/
theorem energyIsConserved : Obligations.EnergyIsConserved := by
  intro s interval recs energies causes hnamed hsix _
  obtain ⟨t, sus, hexec, hzm3, -⟩ := exec_zm3TallyEnd s interval recs energies causes true
  refine ⟨t, hexec, ?_⟩
  beta_reduce
  rw [hzm3]
  exact Zm3.held_tallyEnd hnamed hsix ..

end Sys2Proof.Machine
end

section
/-! ## O37 and O39: a stack rail that is on while the node's rails are off

A leak and Force Off open the rails only where the node's rails are on, so a tray whose stack rail alone is on keeps it. Both statements
ask for the stack rail to be off, and neither supposes the node's rails to be on. -/
namespace Sys2Proof.Machine

open Reg Sys2Proof.Tests

/-- A running TMC with the stack rail on and the node's rails off. -/
def stackRailAlone : State :=
  { W.base with tmc := { W.base.tmc with standby := true, running := true, nodeRails := false, stackRail := true } }

theorem stackRail_leakDetect_stackRailAlone : (stackRailAlone.after (.leakDetect 0)).tmc.stackRail = true := by
  decide +kernel

theorem stackRail_forceOff_stackRailAlone : (stackRailAlone.after .forceOff).tmc.stackRail = true := by
  decide +kernel

/-! ## O40: a firmware version wider than its field

GET_INFO packs the 16 bits of WARDEN_VER, and the statement adds the register's number as it stands. -/

/-- Warden runs GET_INFO, and the register of its version holds a number of 17 bits. -/
def wideVersion : State :=
  { W.base with
    regs := Tab.set W.base.regs (keyOf IDENT_WARDEN_VER 0 0) (2 ^ 16), warden := { W.base.warden with busy := some (0x02, 0, false) } }

theorem mbxBuf_getInfo_wideVersion : (wideVersion.after .getInfo).rd WARDEN_MBX_BUF 0 0 < 2 ^ 16 ∧
    2 ^ 16 ≤ wideVersion.rd IDENT_WARDEN_VER := by
  exact ⟨by decide +kernel, by decide +kernel⟩

end Sys2Proof.Machine

open Sys2Proof.Machine Sys2Proof.Tests

/-- Refutes O37: a leak leaves the stack rail on where the node's rails are off. -/
theorem not_traySafety : ¬ Obligations.TraySafety := by
  rintro ⟨-, -, -, -, -, -, -, hleak, -⟩
  obtain ⟨t, ht, -, -, -, -, -, -, hrail, -⟩ := hleak stackRailAlone 0 rfl
  have hon := stackRail_leakDetect_stackRailAlone
  rw [State.after_of_next ht, hrail] at hon
  exact absurd hon (by decide)

/-- Refutes O39: Force Off leaves the stack rail on where the node's rails are off. -/
theorem not_trayControl : ¬ Obligations.TrayControl := by
  rintro ⟨-, -, -, -, -, -, -, -, -, -, -, -, -, -, hoff, -⟩
  obtain ⟨t, ht, -, -, -, -, hrail, -⟩ := hoff stackRailAlone rfl
  have hon := stackRail_forceOff_stackRailAlone
  rw [State.after_of_next ht, hrail] at hon
  exact absurd hon (by decide)

/-- Refutes O40: GET_INFO gives the low 16 bits of the version's register. -/
theorem not_mailbox : ¬ Obligations.Mailbox := by
  rintro ⟨-, -, -, -, hinfo, -⟩
  obtain ⟨t, ht, -, -, -, -, hbuf, -⟩ := hinfo wideVersion 0 false (by decide +kernel) rfl
  obtain ⟨hlow, hwide⟩ := mbxBuf_getInfo_wideVersion
  rw [State.after_of_next ht, hbuf] at hlow
  omega
end

/-! ## O35: the reference and the PLLs -/

section
namespace Sys2Proof.Machine
open Reg

theorem State.runs_of_acts {s : State} {p : Nat} (h : s.acts p = true) : s.stopped p = false ∧ s.tmc.nodeRails = true := by
  simp only [State.acts, State.stopped, Bool.and_eq_true, Bool.not_eq_true', Bool.or_eq_false_iff, Bool.not_eq_false'] at h ⊢
  exact ⟨⟨h.2.1, h.2.2⟩, h.2.2⟩

theorem State.clockFence_of_single {s : State} (h : s.opts.w = false ∨ (s.twin.turn ≠ tuHolder ∧ s.twin.turn ≠ tuHanding)) :
    s.clockFence = s := by
  unfold State.clockFence
  rcases h with hw | ⟨hholder, hhanding⟩
  · rw [hw]
    rfl
  · rw [if_neg (by simp [hholder, hhanding])]

/-! ### The blocks of a domain that stops -/

/-- Each listed block is in condition 2. -/
theorem State.cond_foldl_stop (l : List Nat) (s : State) (p : Nat) :
    (l.foldl (fun (s : State) p => s.wr H_COND 2 p) s).rd H_COND p = if p ∈ l then 2 else s.rd H_COND p := by
  induction l generalizing s with
  | nil => simp
  | cons n l ih =>
    rw [List.foldl_cons, ih]
    by_cases hp : p = n
    · subst hp
      simp [State.rd_wr_same, H_COND]
    · rw [State.rd_wr_ne _ _ (by unfold keyOf; omega)]
      simp [hp]

theorem State.cond_stopDomain (s : State) (mc : Bool) (p : Nat) :
    (s.stopDomain mc).rd H_COND p = if p < 0x83 ∧ s.present p = true ∧ inDomain mc p = true then 2 else s.rd H_COND p := by
  unfold State.stopDomain
  rw [State.cond_foldl_stop, State.rd_wr_ne]
  · simp [allPages]
  · cases mc
    · exact keyOf_ne_of_offset _ _ (by decide)
    · exact keyOf_ne_of_offset _ _ (by decide)

/-- Any field of a page but its condition, and the states of the PLLs, outlive the stop of a domain. -/
theorem State.rd_stopDomain_ne (s : State) (mc : Bool) {f : Field} {i : Nat} (hcond : ∀ p, keyOf f i 0 ≠ keyOf H_COND p 0)
    (hpll : keyOf f i 0 ≠ keyOf (pllField mc) 0 0) : (s.stopDomain mc).rd f i = s.rd f i := by
  unfold State.stopDomain
  rw [State.rd_foldl _ (fun u p => State.rd_wr_ne _ _ (hcond p)), State.rd_wr_ne _ _ hpll]

theorem State.pll_stopDomain (s : State) (mc : Bool) : (s.stopDomain mc).rd (pllField mc) = pllCold := by
  unfold State.stopDomain
  rw [State.rd_foldl, State.rd_wr_same]
  · cases mc <;> rfl
  · intro u p
    refine State.rd_wr_ne _ _ ?_
    cases mc
    · exact keyOf_ne_of_offset _ _ (by decide)
    · exact keyOf_ne_of_offset _ _ (by decide)

theorem State.pll_stopDomain_other (s : State) : (s.stopDomain true).rd CLK_FC_STATE = s.rd CLK_FC_STATE :=
  State.rd_stopDomain_ne _ _ (fun _ => keyOf_ne_of_offset _ _ (by decide)) (by decide)

theorem State.present_of_opts {s t : State} (h : t.opts = s.opts) (p : Nat) : t.present p = s.present p := by
  unfold State.present
  rw [h]

/-! ### The events -/

/-- A lost reference, once the node is no Holder, before its domains stop. -/
def State.referenceLost (s : State) : State :=
  let n := b2n (s.rd CLK_FC_STATE == pllRunning) + b2n (s.rd CLK_MC_STATE == pllRunning)
  let s0 := (((s.wr CLK_ON_BACKUP 1).wr CLK_REF_OK 0).bumpBy CLK_LOCK_LOSSES n).raise pgCLK I_CLK_REF_LOSS
  let s1 := if n = 0 then s0 else s0.raise pgCLK I_CLK_LOCK_LOSS
  (s1.crumb pgCLK 0x810 3 [s1.ao % 2 ^ 32]).out (.tmc tsRefLoss 1)

theorem exec_referenceLoss {s : State} (hacts : s.acts pgCLK = true)
    (hsingle : s.opts.w = false ∨ (s.twin.turn ≠ tuHolder ∧ s.twin.turn ≠ tuHanding)) (hbackup : s.rd CLK_ON_BACKUP = 0) :
    exec (.referenceLoss) s = .next ((s.referenceLost.stopDomain false).stopDomain true) := by
  refine (State.onBlk_acts _ hacts).trans ((if_neg (by rw [hbackup]; decide)).trans ?_)
  rw [State.clockFence_of_single hsingle]
  rfl

theorem State.referenceLost_reads (s : State) : s.referenceLost.rd CLK_ON_BACKUP = 1 ∧ s.referenceLost.rd CLK_REF_OK = 0 ∧
    bit (s.referenceLost.rd H_INT_STAT pgCLK) I_CLK_REF_LOSS = true ∧ s.referenceLost.opts = s.opts := by
  unfold State.referenceLost
  extract_lets n s0 s1
  have hbackup : s0.rd CLK_ON_BACKUP = 1 := by
    rw [State.rd_raise_ne _ _ _ (by decide), State.bumpBy, State.rd_wr_ne _ _ (by decide), State.rd_wr_ne _ _ (by decide), State.rd_wr_same]
    rfl
  have href : s0.rd CLK_REF_OK = 0 := by
    rw [State.rd_raise_ne _ _ _ (by decide), State.bumpBy, State.rd_wr_ne _ _ (by decide), State.rd_wr_same]
    rfl
  have hbit : bit (s0.rd H_INT_STAT pgCLK) I_CLK_REF_LOSS = true := State.bit_raise_same _ _ (by decide)
  have hs1 : s1.rd CLK_ON_BACKUP = 1 ∧ s1.rd CLK_REF_OK = 0 ∧ bit (s1.rd H_INT_STAT pgCLK) I_CLK_REF_LOSS = true := by
    rcases ite_eq_or_eq (n = 0) s0 (s0.raise pgCLK I_CLK_LOCK_LOSS) with h | h
    · rw [show s1 = s0 from h]
      exact ⟨hbackup, href, hbit⟩
    · rw [show s1 = s0.raise pgCLK I_CLK_LOCK_LOSS from h]
      exact ⟨(State.rd_raise_ne _ _ _ (by decide)).trans hbackup, (State.rd_raise_ne _ _ _ (by decide)).trans href,
        State.bit_raise_keeps _ _ _ (by decide) hbit⟩
  have hbody : (s1.crumb pgCLK 0x810 3 [s1.ao % 2 ^ 32]).body = s.body := by
    rw [State.body_crumb]
    have h0 : s0.body = s.body := by rw [State.body_raise, State.body_bumpBy, State.body_wr, State.body_wr]
    rcases ite_eq_or_eq (n = 0) s0 (s0.raise pgCLK I_CLK_LOCK_LOSS) with h | h
    · rw [show s1 = s0 from h, h0]
    · rw [show s1 = s0.raise pgCLK I_CLK_LOCK_LOSS from h, State.body_raise, h0]
  obtain ⟨h1, h2, h3⟩ := hs1
  refine ⟨?_, ?_, ?_, (congrArg State.opts hbody :)⟩
  · exact (State.rd_crumb_ne _ _ _ _ _ (by decide)).trans h1
  · exact (State.rd_crumb_ne _ _ _ _ _ (by decide)).trans h2
  · exact (congrArg (bit · I_CLK_REF_LOSS) (State.rd_crumb_ne _ _ _ _ _ (by decide))).trans h3

/-- A PLL that loses lock, before its domain stops. -/
def State.lockLost (s : State) (mc : Bool) : State := ((s.bump CLK_LOCK_LOSSES).raise pgCLK I_CLK_LOCK_LOSS).crumb pgCLK 0x812 3 [b2n mc]

theorem exec_pllLockLoss {s : State} {mc : Bool} (hacts : s.acts pgCLK = true)
    (hsingle : s.opts.w = false ∨ (s.twin.turn ≠ tuHolder ∧ s.twin.turn ≠ tuHanding)) (hrun : s.rd (pllField mc) = pllRunning) :
    exec (.pllLockLoss mc) s = .next ((s.lockLost mc).stopDomain mc) := by
  refine (State.onBlk_acts _ hacts).trans ((if_neg (not_not.mpr hrun)).trans ?_)
  rw [State.clockFence_of_single hsingle]
  rfl

theorem pllField_ne_logged (mc : Bool) : keyOf (pllField mc) 0 0 / 0x40000 ≠ pgEVLOG := by
  cases mc <;> decide

theorem pllField_ne_stat (mc : Bool) : keyOf (pllField mc) 0 0 ≠ keyOf H_INT_STAT pgCLK 0 := by
  cases mc <;> decide

/-- Settles O35: each event of the clocks moves its PLL, and a lost clock stops each block of its domain. -/
theorem clocks : Obligations.Clocks := by
  refine ⟨?lost, ?park, ?fast, ?slow, ?cold, ?unlock⟩
  case lost =>
    intro s p hacts hsingle hbackup hp hpresent hdomain
    have hexec := exec_referenceLoss hacts hsingle hbackup
    obtain ⟨h1, h2, h3, hopts⟩ := s.referenceLost_reads
    refine ⟨_, hexec, ?_, ?_, ?_, State.pll_stopDomain _ true, ?_, ?_, core_of_exec rfl hexec⟩
    · rw [State.rd_stopDomain_ne _ _ (fun _ => keyOf_ne_of_offset _ _ (by decide)) (by decide),
        State.rd_stopDomain_ne _ _ (fun _ => keyOf_ne_of_offset _ _ (by decide)) (by decide), h1]
    · rw [State.rd_stopDomain_ne _ _ (fun _ => keyOf_ne_of_offset _ _ (by decide)) (by decide),
        State.rd_stopDomain_ne _ _ (fun _ => keyOf_ne_of_offset _ _ (by decide)) (by decide), h2]
    · exact (State.pll_stopDomain_other _).trans (State.pll_stopDomain _ false)
    · rw [State.cond_stopDomain, State.cond_stopDomain, State.present_of_opts (State.opts_of_core (State.core_stopDomain ..)),
        State.present_of_opts hopts]
      rcases Bool.or_eq_true_iff.mp hdomain with hfc | hmc
      · simp [hp, hpresent, hfc]
      · simp [hp, hpresent, hmc]
    · rw [State.rd_stopDomain_ne _ _ (fun _ => keyOf_ne_of_offset _ _ (by decide)) (by decide),
        State.rd_stopDomain_ne _ _ (fun _ => keyOf_ne_of_offset _ _ (by decide)) (by decide)]
      exact h3
  case park =>
    intro s mc hacts hpark
    refine ⟨_, (State.onBlk_acts _ hacts).trans (if_pos hpark), ?_, State.rd_wr_ne _ _ ?_, State.body_wr ..⟩
    · rw [State.rd_wr_same]
      cases mc <;> rfl
    · cases mc <;> decide
  case fast =>
    intro s mc hacts hstart
    refine ⟨_, (State.onBlk_acts _ hacts).trans ((if_neg (not_not.mpr hstart)).trans (if_pos rfl)), ?_, ?_, ?_⟩
    · rw [State.rd_bump_ne _ (by cases mc <;> decide), State.rd_wr_same]
      cases mc <;> rfl
    · rw [State.rd_bump_same, State.rd_wr_ne _ _ (by cases mc <;> decide)]
    · rw [State.body_bump, State.body_wr]
  case slow =>
    intro s mc hacts hstart
    refine ⟨_, (State.onBlk_acts _ hacts).trans ((if_neg (not_not.mpr hstart)).trans (if_neg (by decide))), ?_, ?_, ?_, ?_⟩
    · rw [State.rd_crumb_ne _ _ _ _ _ (pllField_ne_logged mc), State.rd_raise_ne _ _ _ (pllField_ne_stat mc),
        State.rd_bump_ne _ (by cases mc <;> decide), State.rd_wr_same]
      cases mc <;> rfl
    · rw [State.rd_crumb_ne _ _ _ _ _ (by decide), State.rd_raise_ne _ _ _ (by decide), State.rd_bump_same,
        State.rd_wr_ne _ _ (by cases mc <;> decide)]
    · rw [State.rd_crumb_ne _ _ _ _ _ (by decide)]
      exact State.bit_raise_same _ _ (by decide)
    · rw [State.body_crumb, State.body_raise, State.body_bump, State.body_wr]
  case cold =>
    intro s mc hacts hcold hrun
    refine ⟨_, (State.onBlk_acts _ hacts).trans (if_pos (by rw [hcold, hrun]; rfl)), ?_, State.body_wr ..⟩
    rw [State.rd_wr_same]
    cases mc <;> rfl
  case unlock =>
    intro s mc p hacts hsingle hrun hp hpresent hdomain
    have hexec := exec_pllLockLoss hacts hsingle hrun
    have hopts : (s.lockLost mc).opts = s.opts := by
      have hbody : (s.lockLost mc).body = s.body := by
        unfold State.lockLost
        rw [State.body_crumb, State.body_raise, State.body_bump]
      exact (congrArg State.opts hbody :)
    refine ⟨_, hexec, State.pll_stopDomain _ mc, ?_, ?_, core_of_exec rfl hexec⟩
    · rw [State.cond_stopDomain, State.present_of_opts hopts, if_pos ⟨hp, hpresent, hdomain⟩]
    · rw [State.rd_stopDomain_ne _ _ (fun _ => keyOf_ne_of_offset _ _ (by decide)) (by cases mc <;> decide)]
      unfold State.lockLost
      rw [State.rd_crumb_ne _ _ _ _ _ (by decide)]
      exact State.bit_raise_same _ _ (by decide)

end Sys2Proof.Machine
end

/-! ## O36: block power states and the node's temperature -/

section
namespace Sys2Proof.Machine
open Reg

/-! ### What a report leaves of the blocks that wake -/

theorem State.waking_emitFlit (s : State) (p ty : Nat) (l : List Slot) (c : Bool) : (s.emitFlit p ty l c).waking = s.waking := by
  unfold State.emitFlit
  dsimp only
  split <;> rfl

theorem State.waking_dueKeySwitch (s : State) (p : Nat) : (s.dueKeySwitch p).waking = s.waking := by
  unfold State.dueKeySwitch State.sendKeySwitch
  dsimp only
  split
  · exact (State.setPort_waking ..).trans (State.waking_emitFlit ..)
  · rfl

theorem State.waking_pump (s : State) (p : Nat) : (s.pump p).waking = s.waking := by
  unfold State.pump
  rw [foldl_keeps State.waking _ (fun u x => ?_) _ _]
  · exact State.waking_dueKeySwitch ..
  · dsimp only
    split
    · exact (State.waking_emitFlit ..).trans rfl
    · rfl

theorem State.waking_sendAgent (s : State) (a : Nat) (m : Msg) (t j : Nat) : (s.sendAgent a m t j).waking = s.waking := by
  have hsend (p : Nat) : (s.send p m t j).waking = s.waking := by
    unfold State.send
    dsimp only
    split
    · exact (State.waking_pump ..).trans rfl
    · split
      · exact State.bump_waking ..
      · rfl
  unfold State.sendAgent
  split
  · rfl
  · split
    · exact hsend _
    · split
      · exact State.bump_waking ..
      · rfl

theorem State.waking_raise (s : State) (p c : Nat) : (s.raise p c).waking = s.waking := by
  have hdeliver (u : State) : u.deliver.waking = u.waking := by
    have hwarden : (if u.rd BDIR_TO_WARDEN = 1 then u.out .warden else u).waking = u.waking := by
      split <;> rfl
    unfold State.deliver
    dsimp only
    split
    · rw [← hwarden]
      generalize (if u.rd BDIR_TO_WARDEN = 1 then u.out .warden else u) = v
      unfold State.intrAgent
      dsimp only
      split
      · split <;> rfl
      · exact State.waking_sendAgent ..
    · exact hwarden
  have hedge (u : State) : (State.edge s u).waking = u.waking := by
    unfold State.edge
    split
    · exact hdeliver u
    · rfl
  unfold State.raise
  rw [hedge, State.wr_waking]

theorem State.waking_sample (s : State) (p g : Nat) (v : Int) : (s.sample p g v).waking = s.waking := by
  unfold State.sample
  dsimp only
  split
  · split
    · rw [State.waking_raise, State.bump_waking, State.wr_waking, State.wr_waking]
    · rw [State.wr_waking]
  · rw [State.wr_waking]

theorem State.waking_crumb (s : State) (p c v : Nat) (l : List Nat) : (s.crumb p c v l).waking = s.waking := by
  unfold State.crumb
  dsimp only
  split
  · rw [State.waking_raise, State.bump_waking]
  · unfold State.crumbStore
    dsimp only
    split
    · rw [State.waking_raise, State.waking_sample]
    · rw [State.waking_sample]

/-- A crumb changes no power state, not even that of the log. -/
theorem State.pwrNow_crumb (s : State) (p c v : Nat) (l : List Nat) (q : Nat) : (s.crumb p c v l).rd H_PWR_NOW q = s.rd H_PWR_NOW q := by
  have hstat : keyOf H_PWR_NOW q 0 ≠ keyOf H_INT_STAT pgEVLOG 0 := keyOf_ne_of_offset _ _ (by decide)
  have hsample (u : State) (n : Int) : (u.sample pgEVLOG 0 n).rd H_PWR_NOW q = u.rd H_PWR_NOW q :=
    State.rd_sample_ne_keys _ _ _ _ (keyOf_ne_of_offset _ _ (by decide)) (keyOf_ne_of_offset _ _ (by decide))
      (keyOf_ne_of_offset _ _ (by decide)) hstat
  unfold State.crumb
  dsimp only
  split
  · rw [State.rd_raise_ne _ _ _ hstat, State.rd_bump_ne _ (keyOf_ne_of_offset _ _ (by decide))]
    rfl
  · unfold State.crumbStore
    dsimp only
    split
    · rw [State.rd_raise_ne _ _ _ hstat, hsample]
      rfl
    · rw [hsample]
      rfl

/-! ### Power states -/

theorem State.body_stopDomain (s : State) (mc : Bool) : (s.stopDomain mc).body = s.body := by
  unfold State.stopDomain
  rw [foldl_keeps State.body _ (fun _ _ => State.body_wr ..), State.body_wr]

theorem State.rd_setPwr_same (s : State) (p st : Nat) : (s.setPwr p st).rd H_PWR_NOW p = st % 4 := by
  unfold State.setPwr
  dsimp only
  split
  · rw [State.rd_unpark_ne _ _ (keyOf_ne_of_offset _ _ (by decide)) (keyOf_ne_of_offset _ _ (by decide)), State.rd_wr_same]
    rfl
  · rw [State.rd_wr_same]
    rfl

theorem State.reqs_of_body {s t : State} (h : t.body = s.body) : t.reqs = s.reqs := (congrArg State.reqs h :)

/-- A block in a state, the blocks that wake, and the requests. -/
def State.woken (s : State) (p : Nat) : Nat × List Nat × List Req := (s.rd H_PWR_NOW p, s.waking, s.reqs)

theorem State.woken_wr (s : State) {f : Field} (v i x : Nat) {p : Nat} (h : keyOf H_PWR_NOW p 0 ≠ keyOf f i x) :
    (s.wr f v i x).woken p = s.woken p := by
  unfold State.woken
  rw [State.rd_wr_ne _ _ h, State.wr_waking, State.wr_reqs]

theorem State.woken_raise (s : State) (q c p : Nat) : (s.raise q c).woken p = s.woken p := by
  unfold State.woken
  rw [State.rd_raise_ne _ _ _ (keyOf_ne_of_offset _ _ (by decide)), State.waking_raise, State.reqs_of_body (State.body_raise s q c)]

theorem State.woken_window (s : State) : s.window.woken pgXLAT = s.woken pgXLAT := by
  have hpush (u : State) (l : Leaf) : (u.hpqPush l).woken pgXLAT = u.woken pgXLAT := by
    have hwords (v : State) (q : List (Nat × Nat)) :
        (q.foldl (fun (s : State) x => s.wr XLAT_HPQ_W x.2 0 (s.hpqHead * 4 + x.1)) v).woken pgXLAT = v.woken pgXLAT :=
      foldl_keeps (State.woken · pgXLAT) _ (fun u x => State.woken_wr _ _ _ _ (by
        simp only [keyOf, H_PWR_NOW, XLAT_HPQ_W, pgXLAT]
        omega)) _ _
    have hsample (v : State) (n : Int) : (v.sample pgXLAT 0 n).woken pgXLAT = v.woken pgXLAT := by
      unfold State.woken
      rw [State.rd_sample_ne_keys _ _ _ _ (by decide) (by decide) (by decide) (by decide), State.waking_sample,
        State.reqs_of_body (State.body_sample v pgXLAT 0 n)]
    unfold State.hpqPush
    dsimp only
    rw [hsample, State.woken_raise]
    exact hwords ..
  have hvisit (u : State) (l : Leaf) : (u.windowVisit l).woken pgXLAT = u.woken pgXLAT := by
    unfold State.windowVisit
    extract_lets hot l1 isHot s1 l2 l3
    have h1 : s1.woken pgXLAT = u.woken pgXLAT := by
      unfold s1
      split
      · split
        · exact State.woken_wr _ _ _ _ (by decide)
        · exact hpush ..
      · rfl
    exact h1
  unfold State.window
  refine foldl_keeps (State.woken · pgXLAT) _ (fun u l => ?_) _ _
  split
  · rfl
  · exact hvisit ..

theorem State.woken_windowsPassed (s : State) : s.windowsPassed.woken pgXLAT = s.woken pgXLAT := by
  unfold State.windowsPassed
  generalize List.range s.pwr.windows = l
  exact foldl_keeps (State.woken · pgXLAT) _ (fun u _ => State.woken_window u) l _

/-- A block that has woken: it is in Run, and XLAT takes the windows that passed. -/
def State.blockWoken (s : State) (p : Nat) : State :=
  if p = pgXLAT then State.windowsPassed { s.setPwr p 0 with waking := s.waking.filter (· != p) }
  else { s.setPwr p 0 with waking := s.waking.filter (· != p) }

theorem State.blockWoken_reads (s : State) (p : Nat) : (s.blockWoken p).woken p = (0, s.waking.filter (· != p), s.reqs) ∧
    (p ≠ pgXLAT → (s.blockWoken p).body = s.body) := by
  have hrun : State.woken { s.setPwr p 0 with waking := s.waking.filter (· != p) } p = (0, s.waking.filter (· != p), s.reqs) := by
    have hnow : State.rd { s.setPwr p 0 with waking := s.waking.filter (· != p) } H_PWR_NOW p = 0 := s.rd_setPwr_same p 0
    have hreqs : (s.setPwr p 0).reqs = s.reqs := (congrArg State.reqs (State.body_setPwr s p 0) :)
    exact Prod.ext hnow (Prod.ext rfl hreqs)
  unfold State.blockWoken
  by_cases hp : p = pgXLAT
  · rw [if_pos hp]
    subst hp
    exact ⟨(State.woken_windowsPassed _).trans hrun, fun h => absurd rfl h⟩
  · rw [if_neg hp]
    exact ⟨hrun, fun _ => State.body_setPwr s p 0⟩

theorem exec_blockWakeDone {s : State} {page : BitVec 12} {ticks : Nat} (hacts : s.acts pgPWR = true)
    (hwaking : s.waking.contains page.toNat = true) : exec (.blockWakeDone page ticks) s = .next
      (if ticks > s.wakeBound page.toNat + 16 then
        ((s.blockWoken page.toNat).raise pgPWR I_PWR_WAKE_SLOW).crumb pgPWR 0x803 1
          [packBits [(0, 8, page.toNat), (8, 2, s.rd H_PWR_NOW page.toNat)], ticks]
      else s.blockWoken page.toNat) := by
  refine (State.onBlk_acts _ hacts).trans ((if_neg (by rw [hwaking]; decide)).trans ?_)
  dsimp only
  split <;> rfl

theorem State.reqs_offLoss (s : State) (p : Nat) : (s.offLoss p).reqs = s.reqs := by
  unfold State.offLoss
  split
  · have hset (u : State) (set : Nat) : (u.writeSet set).reqs = u.reqs := by
      unfold State.writeSet
      generalize (List.range 4).zip (u.setLines set) = l
      exact foldl_keeps State.reqs _ (fun _ _ => by rfl) l u
    refine (foldl_keeps State.reqs _ (fun u f => ?_) _ s).trans rfl
    exact hset u f.1
  · split
    · rfl
    · split <;> rfl

/-! ### The temperature -/

/-- The registers of PWR that a sample of the sensors sets. -/
structure SampledField (f : Field) : Prop where
  log : keyOf f 0 0 / 0x40000 ≠ pgEVLOG
  stat : ∀ p, keyOf f 0 0 ≠ keyOf H_INT_STAT p 0
  shut : keyOf f 0 0 ≠ keyOf PWR_SHUT_REQ 0 0
  extreme : keyOf f 0 0 ≠ keyOf WMK_EXTREME pgPWR 0
  crossed : keyOf f 0 0 ≠ keyOf WMK_CROSSED pgPWR 0
  count : keyOf f 0 0 ≠ keyOf WMK_COUNT_ pgPWR 0

theorem sampledField_tjNow : SampledField PWR_TJ_NOW :=
  ⟨by decide, fun _ => keyOf_ne_of_offset _ _ (by decide), by decide, by decide, by decide, by decide⟩

theorem sampledField_tjValid : SampledField PWR_TJ_VALID :=
  ⟨by decide, fun _ => keyOf_ne_of_offset _ _ (by decide), by decide, by decide, by decide, by decide⟩

theorem sampledField_throttleReq : SampledField PWR_THROTTLE_REQ :=
  ⟨by decide, fun _ => keyOf_ne_of_offset _ _ (by decide), by decide, by decide, by decide, by decide⟩

theorem State.rd_judgeThrottle_sampled (s : State) {f : Field} (h : SampledField f) : s.judgeThrottle.rd f = s.rd f := by
  unfold State.judgeThrottle
  dsimp only
  split
  · rfl
  · rw [State.rd_crumb_ne _ _ _ _ _ h.log, State.rd_raise_ne _ _ _ (h.stat _)]
    rfl

/-- The readings of the sixteen sensors. -/
def tjReadings (l : List (BitVec 16 × Bool)) : List (Nat × Bool) := (List.range 16).map (fun i => match l[i]? with
  | some (v, ok) => (v.toNat, ok)
  | none => (0, false))

theorem tjReadings_of_length {l : List (BitVec 16 × Bool)} (h : l.length = 16) : tjReadings l = l.map (fun x => (x.1.toNat, x.2)) := by
  unfold tjReadings
  refine List.ext_getElem (by simp [h]) fun i h1 h2 => ?_
  have hi : i < l.length := by simpa using h2
  simp [List.getElem?_eq_getElem hi]

/-- The failed sensors reported. -/
def State.tjFailures (s : State) (l : List (Nat × Bool)) : State :=
  ((List.range 16).filter (fun i => (s.pwr.sensors[i]?.getD (0, false)).2 && !(l[i]?.getD (0, false)).2)).foldl
    (fun (s : State) i => (s.raise pgPWR I_PWR_SENSOR_FAIL).crumb pgPWR 0x802 1 [i]) { s with pwr := { s.pwr with sensors := l } }

/-- The registers of the temperature set. -/
def State.tjSet (s : State) (l : List (Nat × Bool)) : State :=
  (((s.tjFailures l).wr PWR_TJ_NOW (unsgn 16 (tjOf l))).wr PWR_TJ_VALID (l.filter (·.2)).length).wr PWR_THROTTLE_REQ
    (b2n (decide (tjOf l ≥ 400)))

/-- The temperature sampled and judged. -/
def State.tjJudged (s : State) (l : List (Nat × Bool)) : State := ((s.tjSet l).sample pgPWR 0 (tjOf l)).judgeThrottle

theorem State.rd_tjJudged (s : State) (l : List (Nat × Bool)) {f : Field} (h : SampledField f) : (s.tjJudged l).rd f = (s.tjSet l).rd f := by
  unfold State.tjJudged
  rw [State.rd_judgeThrottle_sampled _ h, State.rd_sample_ne_keys _ _ _ _ h.extreme h.crossed h.count (h.stat _)]

/-- A sample leaves its registers as it set them, whether it asks for a shutdown or not. -/
theorem exec_tjSample {s : State} {l : List (BitVec 16 × Bool)} (hacts : s.acts pgPWR = true) : ∃ t, exec (.tjSample l) s = .next t ∧
    ∀ f, SampledField f → t.rd f = (s.tjSet (tjReadings l)).rd f := by
  let r := tjReadings l
  let s3 := s.tjJudged r
  let s4 := ((s3.wr PWR_SHUT_REQ 1).raise pgPWR I_PWR_TJ_SHUT).crumb pgPWR 0x801 2
    [packBits [(0, 16, unsgn 16 (tjOf r)), (16, 5, (r.filter (·.2)).length)]]
  have hexec : exec (.tjSample l) s = if tjOf r ≥ (s3.rd PWR_TJ_SHUTDOWN : Nat) && s3.rd PWR_SHUT_REQ = 0 then
      .next (s4.out (.tmc tsShutReq (unsgn 16 (tjOf r)))) else .next s3 := (State.onBlk_acts _ hacts).trans rfl
  rw [hexec]
  split
  · refine ⟨_, rfl, fun f h => ?_⟩
    calc s4.rd f = s3.rd f := by
          rw [State.rd_crumb_ne _ _ _ _ _ h.log, State.rd_raise_ne _ _ _ (h.stat _), State.rd_wr_ne _ _ h.shut]
      _ = (s.tjSet r).rd f := State.rd_tjJudged _ _ h
  · exact ⟨_, rfl, fun f h => State.rd_tjJudged _ _ h⟩

theorem unsgn_lt (n : Nat) (v : Int) : unsgn n v < 2 ^ n := by
  unfold unsgn
  have hpos : (0 : Int) < (2 ^ n : Nat) := by exact_mod_cast Nat.two_pow_pos n
  have hlt := Int.emod_lt_of_pos v hpos
  omega

theorem powerStates_tjSample {s : State} {l : List (BitVec 16 × Bool)} (hacts : s.acts pgPWR = true) (hlen : l.length = 16) :
    Completes (.tjSample l) s fun t =>
      t.rd PWR_TJ_NOW = unsgn 16 (tjOf (l.map (fun x => (x.1.toNat, x.2)))) ∧ t.rd PWR_TJ_VALID = (l.filter (fun x => x.2)).length ∧
      t.rd PWR_THROTTLE_REQ = b2n (decide (400 ≤ tjOf (l.map (fun x => (x.1.toNat, x.2))))) ∧ t.core = s.core := by
  obtain ⟨t, hexec, hreads⟩ := exec_tjSample (l := l) hacts
  rw [tjReadings_of_length hlen] at hreads
  have hcount : ((l.map (fun x => (x.1.toNat, x.2))).filter (·.2)).length = (l.filter (fun x => x.2)).length := by
    rw [List.filter_map, List.length_map]
    rfl
  have hle : (l.filter (fun x => x.2)).length ≤ 16 := (List.length_filter_le ..).trans hlen.le
  refine ⟨t, hexec, ?_, ?_, ?_, core_of_exec rfl hexec⟩
  · rw [hreads _ sampledField_tjNow, State.tjSet, State.rd_wr_ne _ _ (by decide), State.rd_wr_ne _ _ (by decide), State.rd_wr_same]
    exact Nat.mod_eq_of_lt (unsgn_lt ..)
  · rw [hreads _ sampledField_tjValid, State.tjSet, State.rd_wr_ne _ _ (by decide), State.rd_wr_same, hcount]
    exact Nat.mod_eq_of_lt (by simp only [PWR_TJ_VALID]; omega)
  · rw [hreads _ sampledField_throttleReq, State.tjSet, State.rd_wr_same]
    exact Nat.mod_eq_of_lt (by unfold b2n PWR_THROTTLE_REQ; split <;> decide)

/-- Settles O36: a block moves to the state that its event names, and a sample sets the registers of the temperature. -/
theorem powerStates : Obligations.PowerStates := by
  refine ⟨?nap, ?doze, ?off, ?woken, ?slow, ?sample, ?report, ?trip⟩
  case nap =>
    intro s page hacts henter
    exact ⟨_, (State.onBlk_acts _ hacts).trans (if_pos henter), State.rd_setPwr_same .., State.body_setPwr ..⟩
  case doze =>
    intro s page hacts henter
    exact ⟨_, (State.onBlk_acts _ hacts).trans (if_pos henter), State.rd_setPwr_same .., State.body_setPwr ..⟩
  case off =>
    intro s page hacts henter
    have hexec : exec (.blockOffEntry page) s = .next ((s.offLoss page.toNat).setPwr page.toNat 3) :=
      (State.onBlk_acts _ hacts).trans (if_pos henter)
    exact ⟨_, hexec, State.rd_setPwr_same .., (State.reqs_of_body (State.body_setPwr ..)).trans (State.reqs_offLoss ..),
      core_of_exec rfl hexec⟩
  case woken =>
    intro s page ticks hacts hwaking hin _
    have hexec := exec_blockWakeDone (ticks := ticks) hacts hwaking
    rw [if_neg (by omega)] at hexec
    obtain ⟨hwoken, hbody⟩ := s.blockWoken_reads page.toNat
    simp only [State.woken, Prod.mk.injEq] at hwoken
    obtain ⟨hrun, hgone, hreqs⟩ := hwoken
    exact ⟨_, hexec, hrun, by rw [hgone]; simp, hbody, hreqs, core_of_exec rfl hexec⟩
  case slow =>
    intro s page ticks hacts hwaking hlate hp
    have hexec := exec_blockWakeDone (ticks := ticks) hacts hwaking
    rw [if_pos (by omega)] at hexec
    obtain ⟨hwoken, hbody⟩ := s.blockWoken_reads page.toNat
    simp only [State.woken, Prod.mk.injEq] at hwoken
    obtain ⟨hrun, hgone, hreqs⟩ := hwoken
    have hkept : (((s.blockWoken page.toNat).raise pgPWR I_PWR_WAKE_SLOW).crumb pgPWR 0x803 1
        [packBits [(0, 8, page.toNat), (8, 2, s.rd H_PWR_NOW page.toNat)], ticks]).body = (s.blockWoken page.toNat).body := by
      rw [State.body_crumb, State.body_raise]
    refine ⟨_, hexec, ?_, ?_, ?_, fun h => hkept.trans (hbody h), (State.reqs_of_body hkept).trans hreqs, core_of_exec rfl hexec⟩
    · rw [State.pwrNow_crumb, State.rd_raise_ne _ _ _ (keyOf_ne_of_offset _ _ (by decide)), hrun]
    · rw [State.waking_crumb, State.waking_raise, hgone]
      simp
    · rw [State.rd_crumb_ne _ _ _ _ _ (by decide)]
      exact State.bit_raise_same _ _ (by decide)
  case sample => exact fun s l hacts hlen => powerStates_tjSample hacts hlen
  case report =>
    intro s hacts
    exact ⟨_, State.onBlk_acts _ hacts, rfl, rfl, rfl⟩
  case trip =>
    intro s hrails
    have hexec : exec (.thermtrip) s = .next _ := if_neg (by rw [hrails]; decide)
    have htmc : ((s.stopDomain false).stopDomain true).tmc = s.tmc :=
      (congrArg State.tmc ((State.body_stopDomain ..).trans (State.body_stopDomain ..)) :)
    refine ⟨_, hexec, ?_, core_of_exec rfl hexec⟩
    unfold State.railsOpen
    dsimp only [State.out]
    rw [htmc]

end Sys2Proof.Machine
end

/-! ## O41: firmware images, their trial and the version floor -/

section
namespace Sys2Proof.Machine
open Reg

/-! ### The end of a mailbox command without an output -/

theorem State.body_mbxEnd (s : State) (result : Nat) :
    (s.mbxEnd result).body = { s.body with warden := { s.warden with busy := none } } := by
  unfold State.mbxEnd
  dsimp only
  rw [State.body_raise, State.body_wr, State.body_wr, State.body_wr]
  rfl

theorem State.warden_mbxEnd (s : State) (result : Nat) : (s.mbxEnd result).warden = { s.warden with busy := none } :=
  (congrArg State.warden (s.body_mbxEnd result) :)

theorem State.tmc_mbxEnd (s : State) (result : Nat) : (s.mbxEnd result).tmc = s.tmc := (congrArg State.tmc (s.body_mbxEnd result) :)

theorem State.done_mbxEnd (s : State) (result : Nat) : (s.mbxEnd result).rd WARDEN_MBX_DONE = 1 := by
  unfold State.mbxEnd
  dsimp only
  rw [State.rd_raise_ne _ _ _ (by decide), State.rd_wr_same]
  rfl

theorem State.rd_mbxEnd_ne (s : State) (result : Nat) {f : Field} (hlen : keyOf f 0 0 ≠ keyOf WARDEN_MBX_OUT_LEN 0 0)
    (hresult : keyOf f 0 0 ≠ keyOf WARDEN_MBX_RESULT 0 0) (hdone : keyOf f 0 0 ≠ keyOf WARDEN_MBX_DONE 0 0)
    (hstat : keyOf f 0 0 ≠ keyOf H_INT_STAT pgWARDEN 0) : (s.mbxEnd result).rd f = s.rd f := by
  unfold State.mbxEnd
  dsimp only
  rw [State.rd_raise_ne _ _ _ hstat, State.rd_wr_ne _ _ hdone, State.rd_wr_ne _ _ hresult, State.rd_wr_ne _ _ hlen]
  rfl

/-- A command of the mailbox that is under way, run by Warden. -/
theorem exec_mbx {s t : State} {code len : Nat} {core : Bool} {f : State → Nat → State} (hacts : s.acts pgWARDEN = true)
    (hbusy : s.warden.busy = some (code, len, core)) (hf : f s len = t) :
    s.onBlk pgWARDEN (.next (s.mbxRun code f)) = .next t := by
  rw [State.onBlk_acts _ hacts, State.mbxRun_of_busy f hbusy, hf]

/-! ### The node closes with nothing in it -/

/-- The tray, Warden, the pair, the transport key, the requests and Bakes, and whether admission closes. -/
def State.closure (s : State) : Tmc × Warden × Twin × Option (Nat × Nat × Nat) × List Req × List Bake × Bool :=
  (s.tmc, s.warden, s.twin, s.tpk, s.reqs, s.bakes, s.shape.closing)

theorem State.closure_of_body {s t : State} (h : t.body = s.body) : t.closure = s.closure :=
  (congrArg State.closure h : t.body.closure = s.body.closure)

theorem State.closure_judgePanic (s : State) : s.judgePanic.closure = s.closure := by
  have hsample : (s.sample pgSHAPE 2 s.rtWaiting).closure = s.closure := State.closure_of_body (State.body_sample ..)
  have hpanic (u : State) (b : Bool) : State.closure { u with shape := { u.shape with panic := b } } = u.closure := rfl
  unfold State.judgePanic
  dsimp only
  split
  · rw [hpanic, hsample]
  split
  · rw [State.closure_of_body (State.body_raise ..), State.closure_of_body (State.body_bump ..), hpanic, hsample]
  split
  · rw [hpanic, hsample]
  · exact hsample

theorem State.rd_judgePanic_ne (s : State) {f : Field} {i : Nat} (h : keyOf f i 0 / 0x40000 ≠ pgSHAPE) : s.judgePanic.rd f i = s.rd f i := by
  have hstat : keyOf f i 0 ≠ keyOf H_INT_STAT pgSHAPE 0 := fun e => h ((congrArg (· / 0x40000) e).trans (page_of_key (by decide) (by decide)))
  have hpanics : keyOf f i 0 ≠ keyOf SHAPE_PANICS 0 0 := fun e => h ((congrArg (· / 0x40000) e).trans (page_of_key (by decide) (by decide)))
  have hsample : (s.sample pgSHAPE 2 s.rtWaiting).rd f i = s.rd f i := State.rd_sample_ne _ _ _ _ (by decide) h
  have hshape (u : State) (x : Shape) : State.rd { u with shape := x } f i = u.rd f i := rfl
  unfold State.judgePanic
  dsimp only
  split
  · rw [hshape, hsample]
  split
  · rw [State.rd_raise_ne _ _ _ hstat, State.rd_bump_ne _ hpanics, hshape, hsample]
  split
  · rw [hshape, hsample]
  · exact hsample

/-- A node that holds no request or Bake and is not paired closes: admission closes, and nothing else that it keeps changes. -/
theorem State.closeNode_quiet {s : State} (hreqs : s.reqs = []) (hbakes : s.bakes = []) (hturn : s.twin.turn = tuUnpaired) :
    s.closeNode.closure = (s.tmc, s.warden, s.twin, s.tpk, s.reqs, s.bakes, true) ∧
    ∀ (f : Field) (i : Nat), keyOf f i 0 / 0x40000 ≠ pgSHAPE → s.closeNode.rd f i = s.rd f i := by
  let s1 : State := { s with shape := { s.shape with closing := true } }
  obtain ⟨e, tags, heval⟩ := State.reEval_eq s1.judgePanic
  have hclosed : s.closeAdmission = s1.judgePanic.judged e tags := by
    have hnone : s1.reqs = [] := hreqs
    unfold State.closeAdmission
    extract_lets w u out
    have hout : out = [] := by
      unfold out
      rw [show u.reqs = [] from hnone]
      rfl
    rw [hout]
    exact heval
  have hclosure : s.closeAdmission.closure = (s.tmc, s.warden, s.twin, s.tpk, s.reqs, s.bakes, true) := by
    rw [hclosed]
    exact (State.closure_judgePanic s1).trans rfl
  have hnode : s.closeNode = s.closeAdmission := by
    have hparts := hclosure
    simp only [State.closure, Prod.mk.injEq] at hparts
    obtain ⟨-, -, htwin, -, -, hnone, -⟩ := hparts
    have hstop : s.closeAdmission.stopBakes = s.closeAdmission := by
      unfold State.stopBakes
      rw [hnone, hbakes]
      rfl
    unfold State.closeNode
    rw [hstop]
    unfold State.twinClose State.turnLeave
    rw [htwin, hturn]
    rfl
  rw [hnode]
  refine ⟨hclosure, fun f i h => ?_⟩
  rw [hclosed]
  exact (State.rd_judgePanic_ne s1 h).trans rfl

theorem State.fwCheck_lt (s : State) (b : List Byte) : s.fwCheck b < 2 ^ 8 := by
  unfold State.fwCheck
  split
  · decide
  · split <;> decide

theorem State.fwCheck_congr {s t : State} (h : t.fuses = s.fuses) (b : List Byte) : t.fwCheck b = s.fwCheck b := by
  unfold State.fwCheck State.fwSigned
  rw [h]

theorem State.otherCopy_of_A {s : State} (h : s.rd WARDEN_BOOT_COPY = 0) : s.otherCopy = some 1 := by
  unfold State.otherCopy
  rw [h]
  rfl

/-- What each command of the mailbox without output has done at its end. -/
theorem State.mbxEnd_reads (s : State) {result : Nat} (h : result < 2 ^ 8) : (s.mbxEnd result).rd WARDEN_MBX_RESULT = result ∧
    (s.mbxEnd result).rd WARDEN_MBX_DONE = 1 ∧ (s.mbxEnd result).warden = { s.warden with busy := none } := by
  refine ⟨?_, s.done_mbxEnd result, s.warden_mbxEnd result⟩
  rw [State.rd_result_mbxEnd]
  exact Nat.mod_eq_of_lt h

/-- The image in copy `c` made the preferred copy, on trial. -/
def State.preferring (s : State) (c : Nat) : State :=
  (State.wr { s with warden := { s.warden with
    former := if s.rd WARDEN_TRIAL = 1 && s.rd WARDEN_BOOT_PREF = c then s.warden.former else s.rd WARDEN_BOOT_PREF
    trial := false } } WARDEN_BOOT_PREF c).wr WARDEN_TRIAL 1

theorem State.preferring_reads (s : State) : (s.preferring 1).rd WARDEN_TRIAL = 1 ∧ (s.preferring 1).rd WARDEN_BOOT_PREF = 1 ∧
    (s.preferring 1).warden = { s.warden with
      former := if s.rd WARDEN_TRIAL = 1 && s.rd WARDEN_BOOT_PREF = 1 then s.warden.former else s.rd WARDEN_BOOT_PREF, trial := false } := by
  unfold State.preferring
  refine ⟨?_, ?_, ?_⟩
  · rw [State.rd_wr_same]
    rfl
  · rw [State.rd_wr_ne _ _ (by decide), State.rd_wr_same]
    rfl
  · rw [State.wr_warden, State.wr_warden]

/-- A trial reverted, as its crumb and its free value leave the node. -/
def State.reverted (s : State) : State :=
  let s1 := (s.wr WARDEN_BOOT_PREF s.warden.former).wr WARDEN_TRIAL 0
  let s2 : State := { s1 with warden := { s1.warden with trial := false } }
  (s2.crumb pgWARDEN 0x904 1 [fwVersion (s.copy (s.rd WARDEN_BOOT_PREF))]).free.2

theorem State.reverted_reads (s : State) : s.reverted.rd WARDEN_TRIAL = 0 ∧ s.reverted.rd WARDEN_BOOT_PREF = s.warden.former % 4 ∧
    s.reverted.closure = { s with warden := { s.warden with trial := false } }.closure := by
  unfold State.reverted
  extract_lets s1 w s2
  have hrd (f : Field) (h : keyOf f 0 0 / 0x40000 ≠ pgEVLOG) (l : List Nat) : (s2.crumb pgWARDEN 0x904 1 l).free.2.rd f = s1.rd f :=
    (State.rd_crumb_ne s2 _ _ _ _ h).trans rfl
  refine ⟨?_, ?_, ?_⟩
  · rw [hrd _ (by decide), State.rd_wr_same]
    rfl
  · rw [hrd _ (by decide), State.rd_wr_ne _ _ (by decide), State.rd_wr_same]
    rfl
  · refine (State.closure_of_body (State.body_crumb s2 ..) :).trans ?_
    have hs1 : s1.closure = s.closure := State.closure_of_body ((State.body_wr ..).trans (State.body_wr ..))
    simp only [State.closure, Prod.mk.injEq] at hs1 ⊢
    obtain ⟨htmc, hwarden, htwin, htpk, hreqs, hbakes, hclosing⟩ := hs1
    exact ⟨htmc, congrArg (fun x : Warden => { x with trial := false }) hwarden, htwin, htpk, hreqs, hbakes, hclosing⟩

/-- A node that holds no request or Bake and is not paired prepares its reset. -/
theorem State.prepare467_quiet {s : State} (hreqs : s.reqs = []) (hbakes : s.bakes = []) (hturn : s.twin.turn = tuUnpaired) (cause : Nat)
    (core : Bool) : (s.prepare467 cause core).warden = { s.warden with prep := some cause, sweep := 0, prepCore := core } ∧
    (s.prepare467 cause core).shape.closing = true ∧
    ∀ (f : Field) (i : Nat), keyOf f i 0 / 0x40000 ≠ pgSHAPE → (s.prepare467 cause core).rd f i = s.rd f i := by
  unfold State.prepare467
  generalize hs : ({ s with warden := { s.warden with prep := some cause, sweep := 0, prepCore := core } } : State) = u
  obtain ⟨hclosed, hrd⟩ := State.closeNode_quiet (s := u) (by rw [← hs, hreqs]) (by rw [← hs, hbakes]) (by rw [← hs, hturn])
  simp only [State.closure, Prod.mk.injEq] at hclosed
  obtain ⟨-, hwarden, -, -, -, -, hclosing⟩ := hclosed
  refine ⟨hwarden.trans (by rw [← hs]), hclosing, fun f i h => (hrd f i h).trans ?_⟩
  rw [← hs]
  rfl

theorem images_timeout {s : State} (hacts : s.acts pgWARDEN = true) (htrial : s.rd WARDEN_TRIAL = 1) (hruns : s.warden.trial = true)
    (hprep : s.warden.prep = none) (hshut : s.tmc.shut = none) (hreqs : s.reqs = []) (hbakes : s.bakes = [])
    (hturn : s.twin.turn = tuUnpaired) : Completes (.trialTimeout) s fun t => t.rd WARDEN_TRIAL = 0 ∧
      t.rd WARDEN_BOOT_PREF = s.warden.former % 4 ∧ t.warden.prep = some 4 ∧ t.shape.closing = true ∧ t.core = s.core := by
  have hown : ∃ v, exec (.trialTimeout) s = .next (s.reverted.ownReset 4 v) :=
    ⟨_, (State.onBlk_acts _ hacts).trans ((if_pos (by rw [htrial, hruns]; rfl)).trans rfl)⟩
  obtain ⟨v, hexec⟩ := hown
  obtain ⟨hdone, hpref, hclosure⟩ := s.reverted_reads
  simp only [State.closure, Prod.mk.injEq] at hclosure
  obtain ⟨htmc, hwarden, htwin, -, hreqs', hbakes', -⟩ := hclosure
  have hprepare : s.reverted.ownReset 4 v = s.reverted.prepare467 4 v := by
    unfold State.ownReset
    rw [hwarden, htmc]
    exact if_neg (by simp [hprep, hshut])
  rw [hprepare] at hexec
  obtain ⟨hprep', hclosing, hrd⟩ := State.prepare467_quiet (hreqs'.trans hreqs) (hbakes'.trans hbakes)
    ((congrArg Twin.turn htwin).trans hturn) 4 v
  refine ⟨_, hexec, ?_, ?_, ?_, hclosing, core_of_exec rfl hexec⟩
  · rw [hrd _ _ (by decide), hdone]
  · rw [hrd _ _ (by decide), hpref]
  · rw [hprep']

/-- Settles O41: each command of the images acts on the other copy or on the trial, and ends with its result. -/
theorem images : Obligations.Images := by
  refine ⟨?write, ?check, ?prefer, ?confirm, ?advance, ?timeout⟩
  case write =>
    intro s len core hacts hbusy hcopy
    obtain ⟨t, hexec⟩ := exec_answers s .imageWrite
    have hcore : t.core = s.core := core_of_exec rfl hexec
    have hdone : exec (.imageWrite) s = .next (State.mbxEnd { s with warden := { s.warden with
        flashB := fwWrite s.warden.flashB (leNat ((s.mbxIn len).take 4)) ((s.mbxIn len).drop 4) } } mrOK) := by
      refine exec_mbx hacts hbusy ?_
      rw [State.otherCopy_of_A hcopy]
      rfl
    obtain rfl := Host.Outcome.next.inj (hdone.symm.trans hexec)
    obtain ⟨hresult, hend, hwarden⟩ := State.mbxEnd_reads { s with warden := { s.warden with
        flashB := fwWrite s.warden.flashB (leNat ((s.mbxIn len).take 4)) ((s.mbxIn len).drop 4) } } (result := mrOK) (by decide)
    refine ⟨_, hexec, hresult, hend, ?_, ?_, ?_, hcore⟩
    all_goals rw [hwarden]
  case check =>
    intro s len core hacts hbusy hcopy
    have hexec : exec (.imageCheck) s = .next (s.mbxEnd (s.fwCheck s.warden.flashB)) := by
      refine exec_mbx hacts hbusy ?_
      rw [State.otherCopy_of_A hcopy]
      rfl
    obtain ⟨hresult, hend, hwarden⟩ := s.mbxEnd_reads (s.fwCheck_lt s.warden.flashB)
    exact ⟨_, hexec, hresult, hend, by rw [hwarden], hwarden, core_of_exec rfl hexec⟩
  case prefer =>
    intro s len core hacts hbusy hcopy
    obtain ⟨t, hexec⟩ := exec_answers s .imagePrefer
    have hcore : t.core = s.core := core_of_exec rfl hexec
    by_cases hgood : s.fwCheck s.warden.flashB = mrOK
    · have hdone : exec (.imagePrefer) s = .next ((s.preferring 1).mbxEnd mrOK) := by
        refine exec_mbx hacts hbusy ?_
        rw [State.otherCopy_of_A hcopy]
        exact if_pos hgood
      obtain rfl := Host.Outcome.next.inj (hdone.symm.trans hexec)
      obtain ⟨hresult, hend, hwarden⟩ := (s.preferring 1).mbxEnd_reads (result := mrOK) (by decide)
      obtain ⟨htrial, hpref, hnew⟩ := s.preferring_reads
      refine ⟨_, hexec, hresult.trans hgood.symm, hend, by rw [hwarden], ?_, ?_, ?_, hcore⟩
      · rw [if_pos hgood, State.rd_mbxEnd_ne _ _ (by decide) (by decide) (by decide) (by decide), htrial]
      · rw [if_pos hgood, State.rd_mbxEnd_ne _ _ (by decide) (by decide) (by decide) (by decide), hpref]
      · rw [hwarden, hnew]
        dsimp only
        by_cases hagain : s.rd WARDEN_TRIAL = 1 ∧ s.rd WARDEN_BOOT_PREF = 1
        · simp [hagain]
        · rw [if_neg (by simpa using hagain), if_pos ⟨hgood, hagain⟩]
    · have hdone : exec (.imagePrefer) s = .next (s.mbxEnd (s.fwCheck s.warden.flashB)) := by
        refine exec_mbx hacts hbusy ?_
        rw [State.otherCopy_of_A hcopy]
        exact if_neg hgood
      obtain rfl := Host.Outcome.next.inj (hdone.symm.trans hexec)
      obtain ⟨hresult, hend, hwarden⟩ := s.mbxEnd_reads (s.fwCheck_lt s.warden.flashB)
      refine ⟨_, hexec, hresult, hend, by rw [hwarden], ?_, ?_, ?_, hcore⟩
      · rw [if_neg hgood, State.rd_mbxEnd_ne _ _ (by decide) (by decide) (by decide) (by decide)]
      · rw [if_neg hgood, State.rd_mbxEnd_ne _ _ (by decide) (by decide) (by decide) (by decide)]
      · rw [hwarden, if_neg (fun h => hgood h.1)]
  case confirm =>
    intro s len core hacts hbusy hruns
    have hexec : exec (.imageConfirm) s = .next ((State.wr { s with
        warden := { s.warden with trial := false }, tmc := { s.tmc with confirmed := some (s.rd WARDEN_BOOT_PREF) } } WARDEN_TRIAL 0).mbxEnd mrOK) :=
      exec_mbx hacts hbusy (if_pos hruns)
    obtain ⟨hresult, hend, hwarden⟩ := State.mbxEnd_reads (State.wr { s with
        warden := { s.warden with trial := false }, tmc := { s.tmc with confirmed := some (s.rd WARDEN_BOOT_PREF) } } WARDEN_TRIAL 0)
      (result := mrOK) (by decide)
    refine ⟨_, hexec, hresult, hend, by rw [hwarden], ?_, ?_, ?_, core_of_exec rfl hexec⟩
    · rw [State.rd_mbxEnd_ne _ _ (by decide) (by decide) (by decide) (by decide), State.rd_wr_same]
      rfl
    · rw [State.tmc_mbxEnd, State.wr_tmc]
    · rw [hwarden, State.wr_warden]
  case advance =>
    intro s len core hacts hbusy htrial
    obtain ⟨t, hexec⟩ := exec_answers s .svnAdvance
    have hdone : exec (.svnAdvance) s = .next (State.mbxEnd { s with
        fuses := { s.fuses with svnFloor := max s.fuses.svnFloor (s.rd WARDEN_RUN_SVN) } } mrOK) :=
      exec_mbx hacts hbusy (if_neg (by rw [htrial]; decide))
    obtain rfl := Host.Outcome.next.inj (hdone.symm.trans hexec)
    obtain ⟨hresult, hend, hwarden⟩ := State.mbxEnd_reads { s with
        fuses := { s.fuses with svnFloor := max s.fuses.svnFloor (s.rd WARDEN_RUN_SVN) } } (result := mrOK) (by decide)
    have hbody := State.body_mbxEnd { s with
        fuses := { s.fuses with svnFloor := max s.fuses.svnFloor (s.rd WARDEN_RUN_SVN) } } mrOK
    exact ⟨_, hexec, hresult, hend, by rw [hwarden], (congrArg State.fuses hbody :), (congrArg State.opts hbody :),
      (congrArg State.dram hbody :)⟩
  case timeout =>
    intro s hacts htrial hruns hprep hshut hreqs hbakes hturn
    exact images_timeout hacts htrial hruns hprep hshut hreqs hbakes hturn

end Sys2Proof.Machine
end

/-! ## O38: the orderly shutdown and its end -/

section
namespace Sys2Proof.Machine
open Reg

theorem State.atNode_of_runs {s : State} (h : s.stopped pgTMCB = false) (f : State → State) : s.atNode f = f s := by
  unfold State.atNode
  rw [h]
  rfl

/-- Erasing the keys forgets the transport key, and touches no register, request or Bake. -/
theorem State.eraseKeys_reads (s : State) : s.eraseKeys.tmc = s.tmc ∧ s.eraseKeys.shape = s.shape ∧ s.eraseKeys.tpk = none ∧
    ∀ (f : Field) (i : Nat), s.eraseKeys.rd f i = s.rd f i := by
  unfold State.eraseKeys
  generalize s.slots.filter (fun p => p.2.state != ksEmpty && p.2.state != ksErasing) = l
  have hkept {α : Type} (g : State → α) (h : ∀ u n, g (State.slotErasing u n) = g u) :
      g (l.foldl (fun (s : State) p => s.slotErasing p.1) s) = g s :=
    foldl_keeps g _ (fun u p => h u p.1) l s
  refine ⟨hkept State.tmc fun _ _ => rfl, hkept State.shape fun _ _ => rfl, rfl, fun f i => ?_⟩
  exact hkept (fun u => u.rd f i) fun _ _ => rfl

/-- The shutdown fixed, counted and reported, before the node closes. -/
def State.shutShown (s : State) (cause : Nat) : State :=
  let s1 : State := { s with tmc := { s.tmc with
    shut := some { cause := cause, metered := false, flushed := false, rails := false, ended := false }, uv := none } }
  ((((s1.wr TMCB_SHUT_CAUSE cause).wr TMCB_SHUT_COMMITTED 1).wr TMCB_HOLDUP_PENDING 0).raise pgTMCB I_TMCB_SHUT_COMMIT).crumb pgTMCB 0x821 2
    [cause, s1.rd TMCB_BANK_V]

theorem State.shutShown_reads (s : State) {cause : Nat} (hcause : cause < 8) : (s.shutShown cause).rd TMCB_SHUT_COMMITTED = 1 ∧
    (s.shutShown cause).rd TMCB_SHUT_CAUSE = cause ∧ bit ((s.shutShown cause).rd H_INT_STAT pgTMCB) I_TMCB_SHUT_COMMIT = true ∧
    (s.shutShown cause).rd H_COND pgSHAPE = s.rd H_COND pgSHAPE ∧ (s.shutShown cause).closure = State.closure { s with tmc := { s.tmc with
      shut := some { cause := cause, metered := false, flushed := false, rails := false, ended := false }, uv := none } } := by
  unfold State.shutShown
  extract_lets w s1
  refine ⟨?_, ?_, ?_, ?_, ?_⟩
  · rw [State.rd_crumb_ne _ _ _ _ _ (by decide), State.rd_raise_ne _ _ _ (by decide), State.rd_wr_ne _ _ (by decide), State.rd_wr_same]
    rfl
  · rw [State.rd_crumb_ne _ _ _ _ _ (by decide), State.rd_raise_ne _ _ _ (by decide), State.rd_wr_ne _ _ (by decide),
      State.rd_wr_ne _ _ (by decide), State.rd_wr_same]
    exact Nat.mod_eq_of_lt hcause
  · rw [State.rd_crumb_ne _ _ _ _ _ (by decide)]
    exact State.bit_raise_same _ _ (by decide)
  · rw [State.rd_crumb_ne _ _ _ _ _ (by decide), State.rd_raise_ne _ _ _ (by decide), State.rd_wr_ne _ _ (by decide),
      State.rd_wr_ne _ _ (by decide), State.rd_wr_ne _ _ (by decide)]
    rfl
  · refine State.closure_of_body ?_
    rw [State.body_crumb, State.body_raise, State.body_wr, State.body_wr, State.body_wr]

/-- A commit of a node that is not paired and holds no request or Bake: what it shows, and the node closed without its keys. -/
theorem State.shutCommit_reads {s : State} (hacts : s.acts pgTMCB = true) (hlive : s.tmc.live = true) (hshut : s.tmc.shut = none)
    (hshape : s.rd H_COND pgSHAPE ≠ 2) (hreqs : s.reqs = []) (hbakes : s.bakes = []) (hturn : s.twin.turn = tuUnpaired) {cause : Nat}
    (hcause : cause < 8) : (s.shutCommit cause).tmc.shut.map (fun x => (x.cause, x.rails, x.ended)) = some (cause, false, false) ∧
    (s.shutCommit cause).rd TMCB_SHUT_COMMITTED = 1 ∧ (s.shutCommit cause).rd TMCB_SHUT_CAUSE = cause ∧
    (s.shutCommit cause).shape.closing = true ∧ (s.shutCommit cause).tpk = none ∧
    bit ((s.shutCommit cause).rd H_INT_STAT pgTMCB) I_TMCB_SHUT_COMMIT = true := by
  obtain ⟨hruns, hrails⟩ := State.runs_of_acts hacts
  obtain ⟨hcommitted, hshown, hbit, hcond, hclosure⟩ := s.shutShown_reads hcause
  have hbegin : s.shutCommit cause = if (s.shutShown cause).stopped pgSHAPE then s.shutShown cause
      else (s.shutShown cause).closeNode.eraseKeys := by
    unfold State.shutCommit
    rw [if_pos (by rw [hlive, hrails, hshut]; rfl)]
    unfold State.shutBegin
    dsimp only
    rw [State.atNode_of_runs]
    case h => exact hruns
    rfl
  simp only [State.closure, Prod.mk.injEq] at hclosure
  obtain ⟨htmc, -, htwin, -, hnoReqs, hnoBakes, -⟩ := hclosure
  have hopen : (s.shutShown cause).stopped pgSHAPE = false := by
    unfold State.stopped
    rw [hcond, htmc]
    simp [hshape, hrails]
  obtain ⟨hclosed, hrd⟩ := State.closeNode_quiet (hnoReqs.trans hreqs) (hnoBakes.trans hbakes) ((congrArg Twin.turn htwin).trans hturn)
  simp only [State.closure, Prod.mk.injEq] at hclosed
  obtain ⟨htmc', -, -, -, -, -, hclosing⟩ := hclosed
  obtain ⟨htmc2, hshape2, htpk, hrd2⟩ := (s.shutShown cause).closeNode.eraseKeys_reads
  rw [hbegin, hopen]
  rw [if_neg (by decide), hrd2, hrd2, hrd2, hrd _ _ (by decide), hrd _ _ (by decide), hrd _ _ (by decide), htmc2, htmc', htmc, hshape2]
  exact ⟨rfl, hcommitted, hshown, hclosing, htpk, hbit⟩

theorem State.crumbs_railsOpen (s : State) : s.railsOpen.tmc.crumbs = s.tmc.crumbs := rfl

/-- Settles O38: the shutdown's steps in turn, each from the state that its event finds. -/
theorem orderlyShutdown : Obligations.OrderlyShutdown := by
  refine ⟨?commit, ?graceful, ?drain, ?rails, ?bank, ?cut, ?restart⟩
  case commit =>
    intro s cause hacts hlive hshut hcause _ hshape hreqs hbakes hturn
    have hexec : exec (.shutdownCommit cause) s = .next (s.shutCommit cause.toNat) := if_pos hcause
    obtain ⟨hfixed, hcommitted, hshown, hclosing, htpk, hbit⟩ :=
      State.shutCommit_reads hacts hlive hshut hshape hreqs hbakes hturn (cause := cause.toNat) cause.isLt
    exact ⟨_, hexec, hfixed, hcommitted, hshown, hclosing, htpk, hbit, core_of_exec rfl hexec⟩
  case graceful =>
    intro s hacts hlive hshut _ hshape hreqs hbakes hturn
    have hexec : exec (.gracefulShutdown) s = .next (s.shutCommit 4) := rfl
    obtain ⟨hfixed, -, -, hclosing, htpk, -⟩ :=
      State.shutCommit_reads hacts hlive hshut hshape hreqs hbakes hturn (cause := 4) (by decide)
    exact ⟨_, hexec, hfixed, hclosing, htpk, core_of_exec rfl hexec⟩
  case drain =>
    intro s hshut hacts hholder hhanding
    obtain ⟨hruns, -⟩ := State.runs_of_acts hacts
    have hexec : exec (.shutdownDrainLimit) s = .next s.dropOpen :=
      (if_pos (by rw [hshut, hruns]; rfl)).trans (by rw [if_neg (by simp [hholder, hhanding])])
    exact ⟨_, hexec, rfl, rfl, rfl, rfl, rfl, rfl, rfl, rfl, rfl⟩
  case rails =>
    intro s sh hshut hrails hended hnode
    have hexec : exec (.railsOff) s = .next { s.flushCrumbs.railsOpen with
        tmc := { s.flushCrumbs.railsOpen.tmc with shut := some { sh with metered := true, flushed := true, rails := true } } } := by
      show execRailsOff s = _
      unfold execRailsOff
      rw [hshut]
      dsimp only
      rw [if_neg (by rw [hrails, hended]; simp)]
      have hopened : (if s.tmc.nodeRails then s.flushCrumbs.railsOpen else s) = s.flushCrumbs.railsOpen := if_pos hnode
      rw [hopened]
    refine ⟨_, hexec, rfl, rfl, rfl, ?_, core_of_exec rfl hexec⟩
    dsimp only
    rw [State.crumbs_railsOpen]
    unfold State.flushCrumbs
    dsimp only
  case bank =>
    intro s sh hshut hrails hended
    refine ⟨State.out { s with tmc := { s.tmc with bankOut := false, shut := some { sh with ended := true } } } (.rail 3 false), ?_, rfl, rfl, rfl⟩
    show execBankOutputOpen s = _
    unfold execBankOutputOpen
    rw [hshut]
    dsimp only
    rw [if_pos (by rw [hrails, hended]; rfl)]
  case cut =>
    intro s sh hnode hshut
    have hexec : exec (.hardCut) s = .next _ := if_pos (by rw [hnode, hshut]; rfl)
    refine ⟨_, hexec, ?_⟩
    rw [hshut]
    exact ⟨rfl, rfl, rfl, rfl, rfl⟩
  case restart =>
    intro s n v sh hlive hoff hrest hreadings hbank hinput hlatch hshut hcause hended
    have hexec : exec (.trayRestart) s = .next s.powerUp := by
      refine if_pos ?_
      rw [hlive, hoff, hreadings, hinput, hlatch, hshut]
      simp [hrest, hbank, hcause, hended]
    exact ⟨_, hexec, rfl, rfl, rfl, rfl, rfl, hinput, rfl, rfl⟩

end Sys2Proof.Machine
end

/-! ## O29: sequenced messages of the Twin channel -/

section
namespace Sys2Proof.Machine
open Reg

/-- A Twin message that the port passes, from the partner of a paired node. -/
structure State.FromPartner (s : State) (p : Nat) (m : Msg) : Prop where
  acts : s.acts (pgFPORT p) = true
  passes : s.passes p m = true
  cls : m.cls.toNat = clsSys
  option : s.opts.w = true
  paired : s.rd TWIN_PAIR_EN = 1
  partner : m.srcNid = s.rd TWIN_PARTNER_NID

/-- The node once it has taken a message of the Twin channel. -/
def State.twTaken (s : State) (p opc : Nat) (m : Msg) : State :=
  ((s.takeMsg p m).count 0 ((s.takeMsg p m).twCost opc m).1 ((s.takeMsg p m).twCost opc m).2 (1 + m.data.length)).use [pgTWIN]

theorem State.body_twTaken (s : State) (p opc : Nat) (m : Msg) : (s.twTaken p opc m).body = s.body :=
  (State.body_use ..).trans ((State.body_count ..).trans (s.body_takeMsg p m))

theorem State.twCost_of_twin {s t : State} (h : t.twin = s.twin) (opc : Nat) (m : Msg) : t.twCost opc m = s.twCost opc m := by
  unfold State.twCost
  rw [h]

theorem State.twIn_of_partner {s : State} {p : Nat} {m : Msg} (h : s.FromPartner p m) {opc : Nat} (hopc : m.opc = opc) :
    s.twIn p opc m = some (s.twTaken p opc m, true) := by
  have hcost : (s.takeMsg p m).twCost opc m = s.twCost opc m :=
    State.twCost_of_twin (congrArg State.twin (s.body_takeMsg p m) :) opc m
  have hopts : (s.takeMsg p m).opts = s.opts := (congrArg State.opts (s.body_takeMsg p m) :)
  have hrd (f : Field) (n : State → State) (hn : ∀ u, (n u).rd f = u.rd f) : (n (s.takeMsg p m)).rd f = s.rd f :=
    (hn _).trans (s.rd_takeMsg p m f 0 0)
  have hpaired := hrd TWIN_PAIR_EN (fun u => u.count 0 (s.twCost opc m).1 (s.twCost opc m).2 (1 + m.data.length)) fun _ => rfl
  have hpartner := hrd TWIN_PARTNER_NID (fun u => u.count 0 (s.twCost opc m).1 (s.twCost opc m).2 (1 + m.data.length)) fun _ => rfl
  unfold State.twIn
  rw [State.portIn_of_passes s h.passes h.cls hopc]
  refine congrArg some ((if_pos rfl).trans ?_)
  dsimp only
  rw [if_neg (by rw [show (State.count _ _ _ _ _).opts = (s.takeMsg p m).opts from rfl, hopts, h.option]; decide),
    if_pos (by rw [hpaired, hpartner, h.paired, h.partner]; simp)]
  unfold State.twTaken
  rw [hcost]

/-- The next sequenced message applied. -/
def State.applies (s : State) (m : Msg) : State :=
  { s with twin := { s.twin with applied := m.f 45 24, sinceAck := s.twin.sinceAck + 1 } }

theorem State.twSeqIn_of_next {s : State} {p : Nat} {m : Msg} (h : s.FromPartner p m) {opc : Nat} (hopc : m.opc = opc)
    (hturn : s.twin.turn = tuStandby ∨ s.twin.turn = tuJoining) (hnext : m.f 45 24 = (s.twin.applied + 1) % 2 ^ 24) (f : State → State) :
    s.twSeqIn p opc m f = (f ((s.twTaken p opc m).applies m)).ackEighth := by
  have htwin : (s.twTaken p opc m).twin = s.twin := (congrArg State.twin (s.body_twTaken p opc m) :)
  have hnew : (s.twTaken p opc m).twNext m = ((s.twTaken p opc m).applies m, true) := by
    unfold State.twNext
    rw [if_pos (by rw [htwin]; simpa using hturn)]
    dsimp only
    rw [if_pos (by rw [htwin]; exact hnext)]
    rfl
  unfold State.twSeqIn
  rw [State.twIn_of_partner h hopc]
  dsimp only
  rw [hnew]

theorem State.twPlainIn_of_partner {s : State} {p : Nat} {m : Msg} (h : s.FromPartner p m) {opc : Nat} (hopc : m.opc = opc)
    (f : State → State) : s.twPlainIn p opc m f = f (s.twTaken p opc m) := by
  unfold State.twPlainIn
  rw [State.twIn_of_partner h hopc]

theorem State.ackEighth_of_few {s : State} (h : s.twin.sinceAck < 8) : s.ackEighth = s := if_neg (by omega)

theorem State.twin_of_body {s t : State} (h : t.body = s.body) : t.twin = s.twin := (congrArg State.twin h :)

/-- The parts of the node that the statements about the stream read. -/
def State.streamed (s : State) : Twin × List DirEnt × List Req × List Bake × Nat := (s.twin, s.dir, s.reqs, s.bakes, s.ao)

theorem State.streamed_of_body {s t : State} (h : t.body = s.body) : t.streamed = s.streamed :=
  (congrArg State.streamed h : t.body.streamed = s.body.streamed)

theorem State.streamed_applies (s : State) (p opc : Nat) (m : Msg) : ((s.twTaken p opc m).applies m).streamed =
    ({ s.twin with applied := m.f 45 24, sinceAck := s.twin.sinceAck + 1 }, s.dir, s.reqs, s.bakes, s.ao) := by
  have h := State.streamed_of_body (s.body_twTaken p opc m)
  simp only [State.streamed, Prod.mk.injEq] at h
  obtain ⟨htwin, hdir, hreqs, hbakes, hao⟩ := h
  unfold State.applies State.streamed
  dsimp only
  rw [htwin, hdir, hreqs, hbakes, hao]

/-! ### Lines and deltas -/

theorem State.closeRecord_of_none {s : State} (h : s.twin.bakes = []) (la : Nat) : s.closeRecord la = s := by
  unfold State.closeRecord
  rw [h]
  rfl

theorem State.streamed_enqueue (s : State) (q : Nat) (e : Entry) : (s.enqueue q e).streamed = s.streamed := rfl

/-- A line of the stream that rekeys nothing and closes no record waits to be written. -/
theorem State.streamed_twLineIn {s : State} {m : Msg} (hrekey : m.f 107 2 ≠ twRekey) (hbakes : s.twin.bakes = []) :
    ∃ r : Req, (s.twLineIn m).streamed = ({ s.twin with
      accepting := s.twin.accepting ++ [m.f 45 24], resynced := s.twin.resynced + (if m.f 107 2 = twResync then 1 else 0) },
      s.dir, s.reqs ++ [r], s.bakes, s.ao) ∧ (r.op, r.off, r.place) = (.resync, m.f 69 37 * 64, .memWrite) := by
  unfold State.twLineIn
  extract_lets la off rg blank r before s1
  refine ⟨r, ?_, rfl⟩
  generalize lineEntry .write .home off (s.rgn s.openEpoch TEN_R_TID rg) 0 s.openEpoch (some r.id) = x
  obtain ⟨q, e⟩ := x
  dsimp only
  rw [if_neg hrekey, State.closeRecord_of_none]
  case h => exact hbakes
  exact (State.streamed_enqueue s1 _ _).trans rfl

theorem twinStream_line {s : State} {port : Fin 16} {m : Msg} (h : s.FromPartner port.val m) (hopc : m.opc = 0x90)
    (hturn : s.twin.turn = tuStandby) (hnext : m.f 45 24 = (s.twin.applied + 1) % 2 ^ 24) (hfew : s.twin.sinceAck < 7)
    (hrekey : m.f 107 2 ≠ twRekey) (hbakes : s.twin.bakes = []) : Completes (.twLine port m) s fun t =>
      t.twin.applied = m.f 45 24 ∧ t.twin.accepting = s.twin.accepting ++ [m.f 45 24] ∧
      (t.reqs.getLast?.map (fun r => (r.op, r.off, r.place))) = some (.resync, m.f 69 37 * 64, .memWrite) ∧ t.dir = s.dir ∧
      t.core = s.core := by
  let v := (s.twTaken port.val 0x90 m).applies m
  have hv : v.streamed = _ := s.streamed_applies port.val 0x90 m
  simp only [State.streamed, Prod.mk.injEq] at hv
  obtain ⟨htwin, hdir, -, -, -⟩ := hv
  obtain ⟨r, hline, hr⟩ := State.streamed_twLineIn (s := v) (m := m) hrekey (by rw [htwin]; exact hbakes)
  simp only [State.streamed, Prod.mk.injEq] at hline
  obtain ⟨hltwin, hldir, hlreqs, -, -⟩ := hline
  have hexec : exec (.twLine port m) s = .next (v.twLineIn m) := by
    refine (State.onBlk_acts _ h.acts).trans (congrArg Host.Outcome.next ?_)
    rw [State.twSeqIn_of_next h hopc (.inl hturn) hnext, State.ackEighth_of_few (s := v.twLineIn m)]
    rw [hltwin, htwin]
    dsimp only
    omega
  refine ⟨_, hexec, ?_, ?_, ?_, hldir.trans hdir, core_of_exec rfl hexec⟩
  · rw [hltwin, htwin]
  · rw [hltwin, htwin]
  · rw [hlreqs, List.getLast?_concat]
    exact congrArg some hr

theorem twinStream_delta {s : State} {port : Fin 16} {m : Msg} (h : s.FromPartner port.val m) (hopc : m.opc = 0x91)
    (hturn : s.twin.turn = tuStandby) (hnext : m.f 45 24 = (s.twin.applied + 1) % 2 ^ 24) (hfew : s.twin.sinceAck < 7)
    (hpend : m.f 106 1 = 1) : Completes (.twDelta port m) s fun t => t.twin.applied = m.f 45 24 ∧
      t.twin.pendRecs = s.twin.pendRecs.filter (fun x => x.la != m.f 69 37) ++ (entryOfBits (m.f 69 37) m.payload).toList ∧
      t.dir = s.dir ∧ t.reqs = s.reqs ∧ t.core = s.core := by
  let v := (s.twTaken port.val 0x91 m).applies m
  have hv : v.streamed = _ := s.streamed_applies port.val 0x91 m
  simp only [State.streamed, Prod.mk.injEq] at hv
  obtain ⟨htwin, hdir, hreqs, -, -⟩ := hv
  have hin : v.twDeltaIn m = { v with twin := { v.twin with
      pendRecs := v.twin.pendRecs.filter (fun x => x.la != m.f 69 37) ++ (entryOfBits (m.f 69 37) m.payload).toList } } := if_pos hpend
  have hexec : exec (.twDelta port m) s = .next (v.twDeltaIn m) := by
    refine (State.onBlk_acts _ h.acts).trans (congrArg Host.Outcome.next ?_)
    rw [State.twSeqIn_of_next h hopc (.inl hturn) hnext, State.ackEighth_of_few (s := v.twDeltaIn m)]
    rw [hin]
    dsimp only
    rw [htwin]
    dsimp only
    omega
  have hcore := core_of_exec rfl hexec
  rw [hin] at hexec hcore
  refine ⟨_, hexec, ?_, ?_, hdir, hreqs, hcore⟩
  · dsimp only
    rw [htwin]
  · dsimp only
    rw [htwin]

/-! ### The acknowledgement at the holder -/

theorem State.twGo_of_none {s : State} (hgates : s.twin.gates = []) (hwrites : s.twin.writes = []) (ns : List Nat) : s.twGo ns = s := by
  unfold State.twGo
  rw [hgates, hwrites]
  show ({ s with twin := { s.twin with gates := [], writes := [] } } : State) = s
  rw [← hgates, ← hwrites]

theorem twRefill_of_none {s : State} (h : s.twin.waiting = []) (n : Nat) : twRefill n s = s := by
  cases n with
  | zero => rfl
  | succ n =>
    unfold twRefill
    rw [h]

/-- The messages that a TW_ACK covers. -/
def State.twCovered (s : State) (n : Nat) : List (Nat × Msg × Nat × Nat) :=
  s.twin.unacked.filter (fun u => decide ((n + 2 ^ 24 - u.1) % 2 ^ 24 < 2 ^ 23))

/-- The pair without the messages that a TW_ACK covers. -/
def State.twCleared (s : State) (n : Nat) : State := { s with twin := { s.twin with
  unacked := s.twin.unacked.filter (fun u => !((s.twCovered n).map (fun u => u.1)).contains u.1), seqAcked := n } }

theorem State.twAckIn_eq (s : State) (n : Nat) : s.twAckIn n = if (s.twCovered n).isEmpty then s else
    ((twRefill 4096 ((s.twCleared n).twGo ((s.twCovered n).map (fun u => u.1)))).sample pgTWIN 0
      (twRefill 4096 ((s.twCleared n).twGo ((s.twCovered n).map (fun u => u.1)))).twin.unacked.length).handoverStep := rfl

/-- The last unacknowledged message acknowledged. -/
theorem State.twin_twAckIn {s : State} {u : Nat × Msg × Nat × Nat} {n : Nat} (hunacked : s.twin.unacked = [u])
    (hwaiting : s.twin.waiting = []) (hgates : s.twin.gates = []) (hwrites : s.twin.writes = []) (hturn : s.twin.turn = tuHolder)
    (hn : n = u.1) : (s.twAckIn n).twin = { s.twin with unacked := [], seqAcked := n } := by
  have hnear : (n + 2 ^ 24 - u.1) % 2 ^ 24 < 2 ^ 23 := by omega
  have hcov : s.twCovered n = [u] := by
    unfold State.twCovered
    rw [hunacked]
    simp only [List.filter_cons, decide_eq_true hnear, if_true, List.filter_nil]
  have hcleared : (s.twCleared n).twin = { s.twin with unacked := [], seqAcked := n } := by
    unfold State.twCleared
    rw [hcov, hunacked]
    simp
  have hrefill : twRefill 4096 ((s.twCleared n).twGo ((s.twCovered n).map (fun u => u.1))) = s.twCleared n := by
    rw [State.twGo_of_none (by rw [hcleared]; exact hgates) (by rw [hcleared]; exact hwrites),
      twRefill_of_none (by rw [hcleared]; exact hwaiting)]
  have hsample := State.twin_of_body (State.body_sample (s.twCleared n) pgTWIN 0 (s.twCleared n).twin.unacked.length)
  rw [State.twAckIn_eq, if_neg (by rw [hcov]; simp), hrefill]
  unfold State.handoverStep
  rw [if_pos (by rw [hsample, hcleared, hturn]; decide), hsample, hcleared]

/-! ### Bakes -/

/-- The record of a Bake answered: the message leaves the pair's records as they are. -/
theorem State.streamed_twBakeAnswer (s : State) (x : TwBake) (replayed : Bool) : (s.twBakeAnswer x replayed).streamed =
    ({ s.twin with bakes := s.twin.bakes.map (fun (y : TwBake) =>
      if !y.holder && y.tid == x.tid && y.btag == x.btag then { y with answer := some replayed } else y) }, s.dir, s.reqs, s.bakes, s.ao) := by
  unfold State.twBakeAnswer
  extract_lets tw s1
  refine (State.streamed_of_body (State.body_twSend ..)).trans ?_
  split
  · exact (State.streamed_of_body (State.body_bump ..)).trans rfl
  · rfl

/-- A Bake of the stream that is to be copied, answered. -/
theorem State.streamed_twBakeIn {s : State} {m : Msg} (hbakes : s.twin.bakes = []) (hcopy : m.f 107 1 = 1) :
    ∃ x : TwBake, (s.twBakeIn m).streamed = ({ s.twin with bakes := [x] }, s.dir, s.reqs, s.bakes, s.ao) ∧
      (x.tid, x.btag, x.holder, x.bid, x.answer) = (m.f 69 8, m.f 77 16, false, none, some false) := by
  unfold State.twBakeIn
  extract_lets d job tid btag p blank r ob b copy x tw s1
  have hcopied : copy = true := by
    unfold copy
    simp [hcopy]
  have hbid : x.bid = none := if_pos hcopied
  have hone : s1.twin.bakes = [x] := by
    unfold s1
    dsimp only
    rw [hbakes]
    rfl
  have hs1 : s1.twin = { s.twin with bakes := [x] } := congrArg (fun l => ({ s.twin with bakes := l } : Twin)) hone
  rw [if_pos hcopied]
  refine ⟨{ x with answer := some false }, (State.streamed_twBakeAnswer s1 x false).trans ?_, ?_⟩
  · have hself : (!x.holder && x.tid == x.tid && x.btag == x.btag) = true := by
      rw [show x.holder = false from rfl]
      simp
    rw [hone, List.map_cons, List.map_nil, if_pos hself, hs1]
  · rw [hbid]

theorem twinStream_bake {s : State} {port : Fin 16} {m : Msg} (h : s.FromPartner port.val m) (hopc : m.opc = 0x93)
    (hturn : s.twin.turn = tuStandby) (hnext : m.f 45 24 = (s.twin.applied + 1) % 2 ^ 24) (hfew : s.twin.sinceAck < 7)
    (hbakes : s.twin.bakes = []) (hcopy : m.f 107 1 = 1) : Completes (.twBake port m) s fun t => t.twin.applied = m.f 45 24 ∧
      t.twin.bakes.map (fun x => (x.tid, x.btag, x.holder, x.bid, x.answer)) = [(m.f 69 8, m.f 77 16, false, none, some false)] ∧
      t.bakes = s.bakes ∧ t.core = s.core := by
  let v := (s.twTaken port.val 0x93 m).applies m
  have hv : v.streamed = _ := s.streamed_applies port.val 0x93 m
  simp only [State.streamed, Prod.mk.injEq] at hv
  obtain ⟨htwin, -, -, hsame, -⟩ := hv
  obtain ⟨x, hin, hx⟩ := State.streamed_twBakeIn (s := v) (m := m) (by rw [htwin]; exact hbakes) hcopy
  simp only [State.streamed, Prod.mk.injEq] at hin
  obtain ⟨hitwin, -, -, hisame, -⟩ := hin
  have hexec : exec (.twBake port m) s = .next (v.twBakeIn m) := by
    refine (State.onBlk_acts _ h.acts).trans (congrArg Host.Outcome.next ?_)
    rw [State.twSeqIn_of_next h hopc (.inl hturn) hnext, State.ackEighth_of_few (s := v.twBakeIn m)]
    rw [hitwin, htwin]
    dsimp only
    omega
  refine ⟨_, hexec, ?_, ?_, hisame.trans hsame, core_of_exec rfl hexec⟩
  · rw [hitwin, htwin]
  · rw [hitwin]
    exact congrArg (fun y => [y]) hx

/-- The end of the one Bake that is to be copied. -/
theorem State.twBakeEndIn_of_one {s : State} {m : Msg} {x : TwBake} (hbakes : s.twin.bakes = [x]) (hholder : x.holder = false)
    (hbid : x.bid = none) (htid : x.tid = m.f 69 8) (hbtag : x.btag = m.f 77 16) : s.twBakeEndIn m =
      { s with twin := { s.twin with bakes := [{ x with ended := true, copies := decide (m.f 93 1 = 1) }] } } := by
  have hfind : [x].find? (fun t => !t.holder && t.tid == m.f 69 8 && t.btag == m.f 77 16) = some x := by
    rw [List.find?_cons, hholder, htid, hbtag]
    simp
  have hself : (x.bid == x.bid && x.tid == x.tid && x.btag == x.btag && !x.holder) = true := by
    rw [hholder]
    simp
  unfold State.twBakeEndIn
  rw [hbakes]
  dsimp only
  rw [hfind]
  dsimp only
  rw [List.map_cons, List.map_nil, if_pos hself, hbid]

theorem twinStream_bakeEnd {s : State} {port : Fin 16} {m : Msg} {x : TwBake} (h : s.FromPartner port.val m) (hopc : m.opc = 0x94)
    (hturn : s.twin.turn = tuStandby) (hnext : m.f 45 24 = (s.twin.applied + 1) % 2 ^ 24) (hfew : s.twin.sinceAck < 7)
    (hbakes : s.twin.bakes = [x]) (hholder : x.holder = false) (hbid : x.bid = none) (htid : x.tid = m.f 69 8)
    (hbtag : x.btag = m.f 77 16) : Completes (.twBakeEnd port m) s fun t =>
      t.twin.applied = m.f 45 24 ∧ t.twin.bakes = [{ x with ended := true, copies := decide (m.f 93 1 = 1) }] ∧ t.bakes = s.bakes ∧
      t.core = s.core := by
  let v := (s.twTaken port.val 0x94 m).applies m
  have hv : v.streamed = _ := s.streamed_applies port.val 0x94 m
  simp only [State.streamed, Prod.mk.injEq] at hv
  obtain ⟨htwin, -, -, hsame, -⟩ := hv
  have hin : v.twBakeEndIn m = _ := State.twBakeEndIn_of_one (by rw [htwin]; exact hbakes) hholder hbid htid hbtag
  have hexec : exec (.twBakeEnd port m) s = .next (v.twBakeEndIn m) := by
    refine (State.onBlk_acts _ h.acts).trans (congrArg Host.Outcome.next ?_)
    rw [State.twSeqIn_of_next h hopc (.inl hturn) hnext, State.ackEighth_of_few (s := v.twBakeEndIn m)]
    rw [hin]
    dsimp only
    rw [htwin]
    dsimp only
    omega
  have hcore := core_of_exec rfl hexec
  rw [hin] at hexec hcore
  refine ⟨_, hexec, ?_, rfl, hsame, hcore⟩
  dsimp only
  rw [htwin]

/-- Nothing is copied while no Bake of the pair is answered with copy. -/
theorem State.copyBegin_of_answered {s : State} (h : ∀ x ∈ s.twin.bakes, x.answer ≠ some false) (bid : Nat) : s.copyBegin bid = s := by
  unfold State.copyBegin
  split
  · rfl
  · split
    next x hx =>
      have hmem : x ∈ s.twin.bakes := List.mem_of_find?_eq_some hx
      exact if_neg (by simp [h x hmem])
    · rfl

theorem twinStream_bakeRsp {s : State} {port : Fin 16} {m : Msg} {x : TwBake} (h : s.FromPartner port.val m) (hopc : m.opc = 0x95)
    (hturn : s.twin.turn = tuHolder) (hbakes : s.twin.bakes = [x]) (hholder : x.holder = true) (hanswer : x.answer = none)
    (htid : x.tid = m.f 69 8) (hbtag : x.btag = m.f 77 16) (hdone : m.f 93 1 = 0) : Completes (.twBakeRsp port m) s fun t =>
      t.twin.bakes = [{ x with answer := some true }] ∧ t.core = s.core := by
  let v := s.twTaken port.val 0x95 m
  have htwin : v.twin = s.twin := State.twin_of_body (s.body_twTaken port.val 0x95 m)
  have hfind : [x].find? (fun t => t.holder && t.tid == m.f 69 8 && t.btag == m.f 77 16 && t.answer.isNone) = some x := by
    rw [List.find?_cons, hholder, htid, hbtag, hanswer]
    simp
  have hin : v.twBakeRspIn m = { v with twin := { v.twin with bakes := [{ x with answer := some true }] } } := by
    unfold State.twBakeRspIn
    rw [htwin, hbakes, hfind]
    dsimp only
    rw [List.map_cons, List.map_nil, if_pos (by simp), hdone, State.copyBegin_of_answered]
    · rfl
    · intro y hy
      rw [List.mem_singleton.mp hy]
      simp
  have hexec : exec (.twBakeRsp port m) s = .next (v.twBakeRspIn m) := by
    refine (State.onBlk_acts _ h.acts).trans (congrArg Host.Outcome.next ?_)
    rw [State.twPlainIn_of_partner h hopc]
    exact if_pos (by rw [State.twin_of_body (s.body_twTaken port.val 0x95 m), hturn]; decide)
  have hcore := core_of_exec rfl hexec
  rw [hin] at hexec hcore
  exact ⟨_, hexec, rfl, hcore⟩

/-! ### Turns and acknowledgements of the stream -/

/-- Who holds the pair, and how often that changed. -/
def State.terms (s : State) : Nat × Bool × Bool × Nat := (s.twin.turn, s.twin.leased, s.twin.synced, s.twin.turnCount)

theorem State.terms_of_body {s t : State} (h : t.body = s.body) : t.terms = s.terms :=
  (congrArg State.terms h : t.body.terms = s.body.terms)

theorem State.terms_twAckSend (s : State) : s.twAckSend.terms = s.terms := by
  unfold State.twAckSend
  extract_lets tw n
  split
  · rfl
  · exact (State.terms_of_body (State.body_twSend ..)).trans rfl

theorem State.terms_ackEighth (s : State) : s.ackEighth.terms = s.terms := by
  unfold State.ackEighth
  split
  · exact s.terms_twAckSend
  · rfl

theorem State.body_twFirst (s : State) (m : Msg) : (s.twFirst m).body = s.body := by
  unfold State.twFirst
  split
  · rfl
  · exact (State.body_pump ..).trans rfl

theorem State.twin_setTurn (s : State) (turn : Nat) : (s.setTurn turn).twin = { s.twin with turn := turn } := by
  unfold State.setTurn
  split
  next h => rw [← h]
  · exact (State.twin_of_body (State.body_raise ..)).trans rfl

theorem State.terms_renew (s : State) : s.renew.terms = s.terms := by
  unfold State.renew
  exact (State.terms_of_body (State.body_twFirst ..)).trans rfl

theorem State.terms_twHandoverIn {s : State} (hturn : s.twin.turn = tuStandby) (hsynced : s.twin.synced = true) :
    s.twHandoverIn.terms = (tuHolder, true, true, (s.twin.turnCount + 1) % 2 ^ 32) := by
  have hcount : s.twAckSend.twin.turnCount = s.twin.turnCount := congrArg (fun x => x.2.2.2) s.terms_twAckSend
  unfold State.twHandoverIn
  rw [if_pos (by rw [hturn, hsynced]; decide)]
  extract_lets s0 tw s1
  rw [State.terms_renew, State.terms_of_body (State.body_crumb ..)]
  unfold State.terms s1
  rw [State.twin_setTurn]
  show (tuHolder, true, true, (s0.twin.turnCount + 1) % 2 ^ 32) = _
  rw [show s0.twin.turnCount = s.twin.turnCount from hcount]

theorem twinStream_handover {s : State} {port : Fin 16} {m : Msg} (h : s.FromPartner port.val m) (hopc : m.opc = 0x9A)
    (hturn : s.twin.turn = tuStandby) (hnext : m.f 45 24 = (s.twin.applied + 1) % 2 ^ 24) (hsynced : s.twin.synced = true) :
    Completes (.twHandover port m) s fun t => t.twin.turn = tuHolder ∧ t.twin.leased = true ∧
      t.twin.turnCount = (s.twin.turnCount + 1) % 2 ^ 32 ∧ t.core = s.core := by
  let v := (s.twTaken port.val 0x9A m).applies m
  have hv : v.streamed = _ := s.streamed_applies port.val 0x9A m
  simp only [State.streamed, Prod.mk.injEq] at hv
  obtain ⟨htwin, -, -, -, -⟩ := hv
  have hexec : exec (.twHandover port m) s = .next v.twHandoverIn.ackEighth :=
    (State.onBlk_acts _ h.acts).trans (congrArg Host.Outcome.next (State.twSeqIn_of_next h hopc (.inl hturn) hnext _))
  have hterms := (State.terms_ackEighth _).trans (State.terms_twHandoverIn (s := v) (by rw [htwin]; exact hturn) (by rw [htwin]; exact hsynced))
  rw [htwin] at hterms
  simp only [State.terms, Prod.mk.injEq] at hterms
  obtain ⟨hholder, hleased, -, hcount⟩ := hterms
  exact ⟨_, hexec, hholder, hleased, hcount, core_of_exec rfl hexec⟩

/-- A joining node becomes a synced Standby. -/
theorem State.twin_twSyncedIn {s : State} (hturn : s.twin.turn = tuJoining) :
    s.twSyncedIn.twin = { s.twin with synced := true, heard := some s.ao, turn := tuStandby } := by
  unfold State.twSyncedIn
  rw [if_pos hturn]
  extract_lets tw s1 n
  rw [State.twin_of_body (State.body_crumb ..), State.twin_of_body (State.body_raise ..)]
  unfold s1
  rw [State.twin_setTurn]

theorem twinStream_synced {s : State} {port : Fin 16} {m : Msg} (h : s.FromPartner port.val m) (hopc : m.opc = 0x9C)
    (hturn : s.twin.turn = tuJoining) (hnext : m.f 45 24 = (s.twin.applied + 1) % 2 ^ 24) (hfew : s.twin.sinceAck < 7) :
    Completes (.twSynced port m) s fun t => t.twin.applied = m.f 45 24 ∧ t.twin.turn = tuStandby ∧ t.twin.synced = true ∧
      t.twin.heard = some s.ao ∧ t.core = s.core := by
  let v := (s.twTaken port.val 0x9C m).applies m
  have hv : v.streamed = _ := s.streamed_applies port.val 0x9C m
  simp only [State.streamed, Prod.mk.injEq] at hv
  obtain ⟨htwin, -, -, -, hao⟩ := hv
  have hin := State.twin_twSyncedIn (s := v) (by rw [htwin]; exact hturn)
  rw [htwin, hao] at hin
  have hexec : exec (.twSynced port m) s = .next v.twSyncedIn := by
    refine (State.onBlk_acts _ h.acts).trans (congrArg Host.Outcome.next ?_)
    rw [State.twSeqIn_of_next h hopc (.inr hturn) hnext, State.ackEighth_of_few (s := v.twSyncedIn)]
    rw [hin]
    dsimp only
    omega
  refine ⟨_, hexec, ?_, ?_, ?_, ?_, core_of_exec rfl hexec⟩
  all_goals rw [hin]

/-- Settles O29: a message of the stream that is the next takes its effect, and the holder takes the answers and acknowledgements. -/
theorem twinStream : Obligations.TwinStream := by
  refine ⟨?line, ?delta, ?ack, ?bake, ?bakeEnd, ?bakeRsp, ?handover, ?synced, ?timer⟩
  case line =>
    intro s port m hacts hpasses hcls hopc hw hpaired hpartner hturn hnext hfew hrekey hbakes
    exact twinStream_line ⟨hacts, hpasses, hcls, hw, hpaired, hpartner⟩ hopc hturn hnext hfew hrekey hbakes
  case delta =>
    intro s port m hacts hpasses hcls hopc hw hpaired hpartner hturn hnext hfew hpend
    exact twinStream_delta ⟨hacts, hpasses, hcls, hw, hpaired, hpartner⟩ hopc hturn hnext hfew hpend
  case ack =>
    intro s port m u hacts hpasses hcls hopc hw hpaired hpartner hturn hunacked hwaiting hgates hwrites hn
    have h : s.FromPartner port.val m := ⟨hacts, hpasses, hcls, hw, hpaired, hpartner⟩
    have htwin : (s.twTaken port.val 0x92 m).twin = s.twin := State.twin_of_body (s.body_twTaken port.val 0x92 m)
    have hexec : exec (.twAck port m) s = .next ((s.twTaken port.val 0x92 m).twAckIn (m.f 45 24)) := by
      refine (State.onBlk_acts _ hacts).trans (congrArg Host.Outcome.next ?_)
      rw [State.twPlainIn_of_partner h hopc]
      exact if_pos (by rw [htwin, hturn]; decide)
    have hin := State.twin_twAckIn (s := s.twTaken port.val 0x92 m) (by rw [htwin]; exact hunacked) (by rw [htwin]; exact hwaiting)
      (by rw [htwin]; exact hgates) (by rw [htwin]; exact hwrites) (by rw [htwin]; exact hturn) hn
    refine ⟨_, hexec, ?_, ?_, ?_, core_of_exec rfl hexec⟩
    · rw [hin]
    · rw [hin]
      exact hn
    · rw [hin, htwin]
      exact hturn
  case bake =>
    intro s port m hacts hpasses hcls hopc hw hpaired hpartner hturn hnext hfew hbakes hcopy
    exact twinStream_bake ⟨hacts, hpasses, hcls, hw, hpaired, hpartner⟩ hopc hturn hnext hfew hbakes hcopy
  case bakeEnd =>
    intro s port m x hacts hpasses hcls hopc hw hpaired hpartner hturn hnext hfew hbakes hholder hbid htid hbtag
    exact twinStream_bakeEnd ⟨hacts, hpasses, hcls, hw, hpaired, hpartner⟩ hopc hturn hnext hfew hbakes hholder hbid htid hbtag
  case bakeRsp =>
    intro s port m x hacts hpasses hcls hopc hw hpaired hpartner hturn hbakes hholder hanswer htid hbtag hdone
    exact twinStream_bakeRsp ⟨hacts, hpasses, hcls, hw, hpaired, hpartner⟩ hopc hturn hbakes hholder hanswer htid hbtag hdone
  case handover =>
    intro s port m hacts hpasses hcls hopc hw hpaired hpartner hturn hnext _ hsynced
    exact twinStream_handover ⟨hacts, hpasses, hcls, hw, hpaired, hpartner⟩ hopc hturn hnext hsynced
  case synced =>
    intro s port m hacts hpasses hcls hopc hw hpaired hpartner hturn hnext hfew
    exact twinStream_synced ⟨hacts, hpasses, hcls, hw, hpaired, hpartner⟩ hopc hturn hnext hfew
  case timer =>
    intro s hacts hturn haccepting hnew
    have hsend : s.twAckSend = State.twSend { s with twin := { s.twin with ackSent := s.twin.applied, sinceAck := 0 } }
        (mkNodeMsg 0x92 s.nid (s.rd TWIN_PARTNER_NID) 0 [(45, 24, s.twin.applied)]) 0 0 := by
      unfold State.twAckSend
      dsimp only
      rw [haccepting]
      exact if_neg (by rw [hturn]; simp [hnew])
    have hexec : exec (.twAckTimer) s = .next s.twAckSend :=
      (State.onBlk_acts _ hacts).trans (if_pos (by rw [hturn]; decide))
    have hcore := core_of_exec rfl hexec
    rw [hsend] at hexec hcore
    have hbody := State.body_twSend { s with twin := { s.twin with ackSent := s.twin.applied, sinceAck := 0 } }
      (mkNodeMsg 0x92 s.nid (s.rd TWIN_PARTNER_NID) 0 [(45, 24, s.twin.applied)]) 0 0
    exact ⟨_, hexec, State.twin_of_body hbody, (congrArg State.dir hbody :), (congrArg State.reqs hbody :), hcore⟩

end Sys2Proof.Machine
end

/-! ## O2: writes by access code, and of pairs -/

section
/-! What register writes have configured: the open configuration, the staged sets and the held halves. Work that wakes a block or
reports an error leaves them. -/
namespace Sys2Proof.Machine

open Reg

/-- The open configuration, the staged sets and the held lower halves. -/
def State.written (s : State) : Tab Nat × Tab Nat × Tab Nat := (s.cfgOpen, s.cfgStaged, s.halves)

theorem State.written_of_body {s t : State} (h : t.body = s.body) (hopen : t.cfgOpen = s.cfgOpen) : t.written = s.written := by
  have hstaged : t.body.cfgStaged = s.body.cfgStaged := congrArg State.cfgStaged h
  have hhalves : t.body.halves = s.body.halves := congrArg State.halves h
  exact Prod.ext hopen (Prod.ext hstaged hhalves)

@[simp] theorem State.written_if {c : Prop} [Decidable c] (a b : State) : (if c then a else b).written = if c then a.written else b.written :=
  apply_ite ..

@[simp] theorem State.written_foldl {β : Type} (f : State → β → State) (h : ∀ a b, (f a b).written = a.written) (l : List β) (s : State) :
    (l.foldl f s).written = s.written := foldl_keeps State.written f h l s

theorem State.written_wr (s : State) {f : Field} (v i x : Nat) (h : f.staged = false) : (s.wr f v i x).written = s.written :=
  State.written_of_body (State.body_wr ..) (State.cfgOpen_wr _ _ _ _ _ h)

@[simp] theorem State.written_raise (s : State) (p c : Nat) : (s.raise p c).written = s.written :=
  State.written_of_body (State.body_raise ..) (State.cfgOpen_raise ..)

theorem State.written_bump (s : State) {f : Field} (i x : Nat) (h : f.staged = false) : (s.bump f i x).written = s.written :=
  State.written_wr _ _ _ _ h

@[simp] theorem State.written_sample (s : State) (p g : Nat) (v : Int) : (s.sample p g v).written = s.written := by
  unfold State.sample
  dsimp only
  split
  · split
    · rw [State.written_raise, State.written_bump _ _ _ rfl, State.written_wr _ _ _ _ rfl, State.written_wr _ _ _ _ rfl]
      rfl
    · rw [State.written_wr _ _ _ _ rfl]
      rfl
  · rw [State.written_wr _ _ _ _ rfl]
    rfl

@[simp] theorem State.written_unpark (s : State) (p : Nat) : (s.unpark p).written = s.written := by
  simp (disch := decide) [State.unpark, State.written_wr]

@[simp] theorem State.written_setPwr (s : State) (p st : Nat) : (s.setPwr p st).written = s.written := by
  have hwr (u : State) : (u.wr H_PWR_NOW st p).written = u.written := State.written_wr _ _ _ _ rfl
  simp only [State.setPwr, State.written_if, State.written_unpark, hwr, ite_self]
  rfl

@[simp] theorem State.written_use (s : State) (l : List Nat) : (s.use l).written = s.written := by
  unfold State.use
  exact State.written_foldl _ (fun a p => by simp) l s

@[simp] theorem State.written_hpqPush (s : State) (l : Leaf) : (s.hpqPush l).written = s.written := by
  simp only [State.hpqPush, State.written_sample, State.written_raise]
  exact State.written_foldl _ (fun a x => State.written_wr _ _ _ _ rfl) _ s

@[simp] theorem State.written_windowVisit (s : State) (l : Leaf) : (s.windowVisit l).written = s.written := by
  have hkept (u : State) (tc : List Leaf) (h : u.written = s.written) : ({ u with tc := tc } : State).written = s.written := h
  refine hkept _ _ ?_
  simp (disch := decide) [State.written_bump]

@[simp] theorem State.written_window (s : State) : s.window.written = s.written := by
  unfold State.window
  exact State.written_foldl _ (fun a l => by simp) _ _

@[simp] theorem State.written_windowsPassed (s : State) : s.windowsPassed.written = s.written := by
  unfold State.windowsPassed
  exact State.written_foldl _ (fun a l => by simp) _ _

@[simp] theorem State.written_reach (s : State) (addr : Nat) : (s.reach addr).written = s.written := by
  simp [State.reach, State.useXlat]

@[simp] theorem State.written_cfgErr (s : State) (p w o : Nat) : (s.cfgErr p w o).written = s.written := by
  simp (disch := decide) [State.cfgErr, State.written_wr]

@[simp] theorem State.written_lockViol (s : State) (p : Nat) : (s.lockViol p).written = s.written := by
  simp (disch := decide) [State.lockViol, State.written_wr]

theorem State.configs_of_written {s t : State} (h : t.written = s.written) :
    t.cfgOpen = s.cfgOpen ∧ t.cfgStaged = s.cfgStaged ∧ t.halves = s.halves := by
  obtain ⟨hopen, hrest⟩ := Prod.mk.inj h
  exact ⟨hopen, Prod.mk.inj hrest⟩

end Sys2Proof.Machine
end

section
/-! Writes by access code (R11, R13, R15, R48). -/
namespace Sys2Proof.Machine

open Reg

/-! ### Epoch-staged fields -/

theorem reached_stage {s : State} {f : Field} {v i x : Nat} (hv : v < 2 ^ f.width) : (s.stage f v i x).rdNext f i x = v := by
  unfold State.rdNext
  rw [State.stage_cfgStaged, Tab.get?_set_same, Nat.mod_eq_of_lt hv]
  rfl

/-- An epoch-staged field is neither locked nor, but for PAIR_EN, denied. -/
theorem State.locked_of_rwe (s : State) (p : Nat) {f : Field} (h : f.acc = .rwe) : s.locked p f = false := by
  simp [State.locked, h]

theorem State.deniedPut_of_rwe (s : State) (l : List Put) {h : Hit} {v : Nat} (hacc : h.f.acc = .rwe) (hne : h.f ≠ TWIN_PAIR_EN) :
    s.deniedPut l (h, v) = false := by
  have hnid : h.f ≠ IDENT_NID := fun e => by rw [e] at hacc; cases hacc
  simp [State.deniedPut, hne, hnid]

/-- An epoch-staged field with no rule of its own is staged. -/
theorem State.writeFields_rwe {s : State} {src : Src} {addr : Nat} {h : Hit} {v : Nat} (hacc : h.f.acc = .rwe)
    (hres : reservedValue h.f h.inst h.idx v = false) (hrules : rules.all (fun r => !r.fields.contains h.f) = true)
    (hne : h.f ≠ TWIN_PAIR_EN) : s.writeFields src addr [(h, v)] = s.stage h.f v h.inst h.idx := by
  rw [State.writeFields_of_taken (s.locked_of_rwe _ hacc) hres (s.deniedPut_of_rwe _ hacc hne) hrules,
    if_neg (by simp [Put.acts, hacc])]
  simp [State.takePut, hacc]

@[simp] theorem State.keepRules_nil (s : State) : s.keepRules [] = [] := by
  unfold State.keepRules
  generalize rules = l
  induction l with
  | nil => rfl
  | cons r l ih => exact ih

/-- A reserved encoding of an epoch-staged field is discarded with CFG_ERR. -/
theorem State.writeFields_reserved {s : State} {src : Src} {addr : Nat} {h : Hit} {v : Nat} (hacc : h.f.acc = .rwe)
    (hres : reservedValue h.f h.inst h.idx v = true) :
    s.writeFields src addr [(h, v)] =
      s.cfgErr (ownerPage (addr / 0x1000)) (if 0x100 ≤ addr / 0x1000 then addr / 0x1000 else 0) (addr % 0x1000) := by
  unfold State.writeFields
  simp [s.locked_of_rwe _ hacc, hres]

/-- A locked field keeps its value, and a write that would change it is a violation. -/
theorem State.writeFields_locked {s : State} {src : Src} {addr : Nat} {h : Hit} {v : Nat}
    (hlock : s.locked (ownerPage (addr / 0x1000)) h.f = true) (hv : v ≠ s.rdNext h.f h.inst h.idx) :
    s.writeFields src addr [(h, v)] = s.lockViol (ownerPage (addr / 0x1000)) := by
  unfold State.writeFields
  simp [hlock, hv]

theorem State.rd_lockViol_same (s : State) (p : Nat) : (s.lockViol p).rd H_LOCK_VIOL p = 1 := by
  rw [State.lockViol, State.rd_raise_ne _ _ _ (keyOf_header_ne _ rfl rfl (by decide)), State.rd_wr_same]
  rfl

/-! ### Locked fields -/

/-- The locked fields outside the FPORT pages. -/
def lockedFields : List Field :=
  [IDENT_NID, TWIN_PARTNER_NID, TWIN_TW_PORT, TWIN_TW_PORT_ALT, TWIN_ALT_EN, TWIN_LEASE_T, TWIN_RENEW_T, TWIN_FENCE_T, TWIN_GUARD_T,
    TMCB_SHUT_BUDGET, TMCB_RECHARGE_V, TMCB_ILIM, TMCB_HS_POLICY]

theorem Field.hit_eq {f : Field} {inst rel : Nat} {h : Hit} (hit : f.hit inst rel = some h) : h.f = f ∧ h.inst = inst ∧ h.idx < f.n := by
  unfold Field.hit at hit
  dsimp only at hit
  split at hit
  · cases hit
  next hin =>
    simp only [Bool.or_eq_true, decide_eq_true_eq, not_or, Nat.not_lt, Nat.not_le] at hin
    split at hit
    · cases hit
      exact ⟨rfl, rfl, hin.2⟩
    · split at hit
      · cases hit
        exact ⟨rfl, rfl, hin.2⟩
      · cases hit

/-- No field of a window, of the common header or of the watermarks is locked. -/
theorem not_rwl_of_common {page : Nat} {f : Field} (hf : f ∈ windowFields page ∨ f ∈ headerFields ∨ f ∈ wmkFields) : f.acc ≠ .rwl := by
  have hall : ∀ g ∈ (shapeTenantFields ++ shapeAgentFields) ++ (regionFields ++ tenantFields ++ agentMapFields) ++
      (rootFields ++ hpqFields) ++ (agentFields ++ trackerFields) ++ headerFields ++ wmkFields, g.acc ≠ .rwl := by decide
  refine hall f ?_
  simp only [List.mem_append]
  rcases hf with hf | hf | hf
  · unfold windowFields at hf
    repeat' split at hf
    all_goals
      simp only [List.mem_append] at hf
      tauto
  · tauto
  · tauto

/-- The locked fields of the blocks, page by page. -/
theorem mem_lockedFields_of_block {f : Field} {page : Nat} (hpage : page < 0x83) (hport : ¬(0x10 ≤ page ∧ page < 0x20))
    (hf : f ∈ blockFields page) (hacc : f.acc = .rwl) : f ∈ lockedFields ∧ page = f.page ∧ firstPage page = page := by
  have hall : (List.range 0x83).all (fun page => (decide (0x10 ≤ page) && decide (page < 0x20)) || (blockFields page).all (fun f =>
      f.acc != .rwl || (lockedFields.contains f && page == f.page && firstPage page == page))) = true := by decide +kernel
  have hone := List.all_eq_true.mp hall page (List.mem_range.mpr hpage)
  have hmiss : (decide (0x10 ≤ page) && decide (page < 0x20)) = false := by simpa using hport
  rw [hmiss, Bool.false_or] at hone
  have hfield := List.all_eq_true.mp hone f hf
  simpa [hacc, and_assoc] using hfield

/-- A locked register of one field outside the FPORT pages is one of `lockedFields`. -/
theorem State.hit_locked {s : State} {addr : Nat} {f : Field} {i x : Nat} {hi : Bool} (hhits : s.hits addr = [⟨f, i, x, hi⟩])
    (hacc : f.acc = .rwl) (hport : ¬(0x10000 ≤ addr ∧ addr < 0x20000)) : f ∈ lockedFields ∧ addr / 0x1000 = f.page ∧ i = 0 ∧ x = 0 := by
  have hmem : (⟨f, i, x, hi⟩ : Hit) ∈ s.hits addr := by
    rw [hhits]
    exact List.mem_singleton_self _
  have hcommon {page : Nat} {l : List Field} {inst rel : Nat} (hl : ∀ g ∈ l, g ∈ windowFields page ∨ g ∈ headerFields ∨ g ∈ wmkFields)
      (hin : (⟨f, i, x, hi⟩ : Hit) ∈ l.filterMap (fun g => g.hit inst rel)) : False := by
    obtain ⟨g, hg, hhit⟩ := List.mem_filterMap.mp hin
    obtain ⟨rfl, -, -⟩ := Field.hit_eq hhit
    exact not_rwl_of_common (hl _ hg) hacc
  unfold State.hits at hmem
  dsimp only at hmem
  split at hmem
  · cases hmem
  split at hmem
  · exact (hcommon (page := addr / 0x1000) (fun g hg => .inl hg) hmem).elim
  split at hmem
  · cases hmem
  next hpresent =>
    split at hmem
    · exact (hcommon (page := 0) (fun g hg => .inr (.inl hg)) hmem).elim
    split at hmem
    · exact (hcommon (page := 0) (fun g hg => .inr (.inr hg)) (List.mem_of_mem_filter hmem)).elim
    · obtain ⟨g, hg, hhit⟩ := List.mem_filterMap.mp hmem
      obtain ⟨rfl, rfl, hidx⟩ := Field.hit_eq hhit
      have hpage : addr / 0x1000 < 0x83 := present_lt (by simpa using hpresent)
      obtain ⟨hlocked, hown, hfirst⟩ := mem_lockedFields_of_block hpage (by omega) hg hacc
      have hone : ∀ f ∈ lockedFields, f.n = 1 := by decide
      refine ⟨hlocked, hown, ?_, ?_⟩
      · omega
      · have hfirst : x < 1 := lt_of_lt_of_eq hidx (hone _ hlocked)
        omega

/-- The locked fields lie apart from what a wake and a violation write. -/
theorem keyOf_ne_of_locked {f : Field} (hf : f ∈ lockedFields) (p : Nat) : keyOf f 0 0 ≠ keyOf H_PWR_NOW p 0 ∧
    keyOf f 0 0 ≠ keyOf CLK_FC_STATE 0 0 ∧ keyOf f 0 0 ≠ keyOf CLK_MC_STATE 0 0 ∧ keyOf f 0 0 ≠ keyOf H_LOCK_VIOL p 0 ∧
    keyOf f 0 0 ≠ keyOf H_INT_STAT p 0 := by
  have hall : ∀ f ∈ lockedFields, (f.off * 64 + f.lo) % 0x40000 ≠ (H_PWR_NOW.off * 64 + H_PWR_NOW.lo) % 0x40000 ∧
      keyOf f 0 0 ≠ keyOf CLK_FC_STATE 0 0 ∧ keyOf f 0 0 ≠ keyOf CLK_MC_STATE 0 0 ∧
      (f.off * 64 + f.lo) % 0x40000 ≠ (H_LOCK_VIOL.off * 64 + H_LOCK_VIOL.lo) % 0x40000 ∧
      (f.off * 64 + f.lo) % 0x40000 ≠ (H_INT_STAT.off * 64 + H_INT_STAT.lo) % 0x40000 := by decide
  obtain ⟨hpwr, hfc, hmc, hviol, hstat⟩ := hall f hf
  exact ⟨keyOf_ne_of_offset _ _ hpwr, hfc, hmc, keyOf_ne_of_offset _ _ hviol, keyOf_ne_of_offset _ _ hstat⟩

/-- The pages of the locked fields. -/
theorem page_of_locked {f : Field} (hf : f ∈ lockedFields) : ownerPage f.page = f.page ∧ f.page ≠ pgXLAT ∧ f.staged = false := by
  have hall : ∀ f ∈ lockedFields, ownerPage f.page = f.page ∧ f.page ≠ pgXLAT ∧ f.staged = false := by decide
  exact hall f hf

/-- Reaching a locked register wakes its block alone. -/
theorem State.rd_reach_locked (s : State) {addr : Nat} {g f : Field} (hg : g ∈ lockedFields) (haddr : addr / 0x1000 = g.page) {i : Nat}
    (hpwr : ∀ p, keyOf f i 0 ≠ keyOf H_PWR_NOW p 0) (hfc : keyOf f i 0 ≠ keyOf CLK_FC_STATE 0 0)
    (hmc : keyOf f i 0 ≠ keyOf CLK_MC_STATE 0 0) : (s.reach addr).rd f i = s.rd f i := by
  obtain ⟨hown, hxlat, -⟩ := page_of_locked hg
  unfold State.reach
  dsimp only
  split
  · rw [haddr, hown, if_neg hxlat, State.rd_use_ne _ _ (fun p _ => hpwr p) hfc hmc]
  · rfl

theorem registerWrites_locked {s : State} (src : Src) {addr : BitVec 24} {val : Word} {f : Field} {i x : Nat}
    (hrails : s.tmc.nodeRails = true) (hregion : ¬(0x200000 ≤ addr.toNat ∧ addr.toNat < 0x220000))
    (hagent : ¬(0x800000 ≤ addr.toNat ∧ addr.toNat < 0x804000)) (hport : ¬(0x10000 ≤ addr.toNat ∧ addr.toNat < 0x20000))
    (hhits : s.hits addr.toNat = [⟨f, i, x, false⟩]) (hacc : f.acc = .rwl) (hw : f.width ≤ 32)
    (hlock : s.rd H_LOCK (ownerPage (addr.toNat / 0x1000)) = 1) (hnew : bits val.toNat f.lo f.width ≠ s.rdNext f i x) :
    Completes (.registerWrite src ⟨addr, .word⟩ val) s fun t => t.rd H_LOCK_VIOL (ownerPage (addr.toNat / 0x1000)) = 1 ∧
      t.rd f i x = s.rd f i x ∧ t.cfgStaged = s.cfgStaged := by
  obtain ⟨hlocked, haddr, rfl, rfl⟩ := State.hit_locked hhits hacc hport
  have hrd : (s.reach addr.toNat).rd f = s.rd f := by
    obtain ⟨-, hfc, hmc, -, -⟩ := keyOf_ne_of_locked hlocked 0
    exact s.rd_reach_locked hlocked haddr (fun p => (keyOf_ne_of_locked hlocked p).1) hfc hmc
  have hlock' : (s.reach addr.toNat).rd H_LOCK (ownerPage (addr.toNat / 0x1000)) = 1 := by
    rw [s.rd_reach_locked hlocked haddr (fun p => keyOf_ne_of_offset _ _ (by decide)) (keyOf_ne_of_offset _ _ (by decide))
      (keyOf_ne_of_offset _ _ (by decide)), hlock]
  obtain ⟨-, hstaged, -⟩ := State.configs_of_written (s.written_reach addr.toNat)
  have hnext : (s.reach addr.toNat).rdNext f = s.rdNext f := by
    unfold State.rdNext
    rw [hstaged, hrd]
  have hexec : exec (.registerWrite src ⟨addr, .word⟩ val) s =
      .next ((s.reach addr.toNat).lockViol (ownerPage (addr.toNat / 0x1000))) := by
    refine congrArg Host.Outcome.next ((if_pos rfl).trans ((if_pos hrails).trans ?_))
    rw [State.writeReg_of_hit hhits hw hregion hagent (fun h => hport ⟨h.1, h.2.1⟩), State.writeFields_locked]
    · unfold State.locked
      rw [hlock', hacc]
      rfl
    · rw [hnext]
      exact hnew
  refine ⟨_, hexec, State.rd_lockViol_same .., ?_, ?_⟩
  · obtain ⟨-, -, -, hviol, hstat⟩ := keyOf_ne_of_locked hlocked (ownerPage (addr.toNat / 0x1000))
    unfold State.lockViol
    rw [State.rd_raise_ne _ _ _ hstat, State.rd_wr_ne _ _ hviol, hrd]
  · obtain ⟨-, hviol, -⟩ := State.configs_of_written ((State.written_lockViol (s.reach addr.toNat) _).trans (s.written_reach addr.toNat))
    exact hviol

/-! ### Pairs -/

/-- The lower register of a writable pair, outside the tables and the FPORT pages, holds what is written. -/
theorem State.writeReg_of_lower {s : State} {src : Src} {addr val : Nat} {f : Field} {i x : Nat}
    (hhits : s.hits addr = [⟨f, i, x, false⟩]) (hacc : f.acc ≠ .ro) (hw : 32 < f.width) (hport : ¬(0x10000 ≤ addr ∧ addr < 0x20000)) :
    s.writeReg src addr val = { s.reach addr with halves := Tab.set (s.reach addr).halves addr val } := by
  have hlower : (s.reach addr).lowerPair addr = true := by
    simp [State.lowerPair, hhits, hw, hacc]
  unfold State.writeReg
  simp only [State.hits_reach, hhits, hlower, List.isEmpty_cons, Bool.false_eq_true, ↓reduceIte]
  rw [if_neg]
  simp only [Bool.and_eq_true, decide_eq_true_eq]
  omega

/-- The upper register of a pair, outside the tables and the FPORT pages, is written with the held half. -/
theorem State.writeReg_of_upper {s : State} {src : Src} {addr val low : Nat} {f : Field} {i x : Nat}
    (hhits : s.hits addr = [⟨f, i, x, true⟩]) (hregion : ¬(0x200000 ≤ addr ∧ addr < 0x220000))
    (hagent : ¬(0x800000 ≤ addr ∧ addr < 0x804000)) (hport : ¬(0x10000 ≤ addr ∧ addr < 0x20000))
    (hlow : Tab.get? s.halves (addr - 4) = some low) :
    s.writeReg src addr val = State.writeFields { s.reach addr with halves := Tab.erase s.halves (addr - 4) } src addr
      [(⟨f, i, x, true⟩, (low + val * 2 ^ 32) % 2 ^ f.width / 2 ^ zeroBits f * 2 ^ zeroBits f)] := by
  have hother {a : Nat} (h : (s.hits a).length ≠ 1) : addr ≠ a := fun e => h (by rw [← e, hhits]; rfl)
  have hroute : addr ≠ 0x150 := hother (Nat.ne_of_gt (by exact (by decide : 1 < 3)))
  have hepoch : addr ≠ 0x2104 := hother (Nat.ne_of_gt (by exact (by decide : 1 < 2)))
  have hclaim : addr ≠ 0x6120 := hother (Nat.ne_of_gt (by exact (by decide : 1 < 4)))
  have hcode : addr ≠ 0x6124 := hother (Nat.ne_of_gt (by exact (by decide : 1 < 2)))
  have hlower : (s.reach addr).lowerPair addr = false := by simp [State.lowerPair, hhits]
  obtain ⟨-, -, hhalves⟩ := State.configs_of_written (s.written_reach addr)
  have hputs : (s.reach addr).putsOf addr val = [(⟨f, i, x, true⟩, (low + val * 2 ^ 32) % 2 ^ f.width / 2 ^ zeroBits f * 2 ^ zeroBits f)] := by
    simp [State.putsOf, State.lowerHalf, hhits, hhalves, hlow]
  unfold State.writeReg
  simp only [State.hits_reach, hhits, hputs, hlower, hroute, hclaim, hcode, hepoch, hhalves, List.isEmpty_cons, Bool.false_eq_true,
    decide_false, Bool.false_and, ↓reduceIte, List.any_cons, List.any_nil, Bool.or_false]
  rw [if_neg, if_neg, if_neg]
  · simp only [Bool.and_eq_true, decide_eq_true_eq]
    omega
  · simp only [Bool.and_eq_true, decide_eq_true_eq]
    omega
  · simp only [Bool.and_eq_true, decide_eq_true_eq]
    omega

theorem Tab.get?_erase_same {α : Type} (t : Tab α) (x : Nat) : Tab.get? (Tab.erase t x) x = none := by
  induction t with
  | nil => rfl
  | cons p t ih =>
    unfold Tab.erase
    rw [List.filter_cons]
    by_cases hp : p.1 = x
    · rw [if_neg (by simp [hp])]
      exact ih
    · rw [if_pos (by simp [hp])]
      unfold Tab.get?
      rw [if_neg (Ne.symm hp)]
      split
      · rfl
      · exact ih

/-- A write of a word of a node that has power writes the register. -/
theorem exec_registerWrite_word {s t : State} {src : Src} {addr : BitVec 24} {val : Word} (hrails : s.tmc.nodeRails = true)
    (h : s.writeReg src addr.toNat val.toNat = t) : exec (.registerWrite src ⟨addr, .word⟩ val) s = .next t :=
  congrArg Host.Outcome.next ((if_pos rfl).trans ((if_pos hrails).trans h))

/-- A narrower write changes nothing. -/
theorem State.writeSized_narrow (s : State) (src : Src) (addr val : Nat) {size : AccSize} (h : size ≠ .word) :
    s.writeSized src addr size val = s := if_neg h

/-- Settles O2: the one field of a register is written by its access code, and a pair through its held half. -/
theorem registerWrites : Obligations.RegisterWrites := by
  refine ⟨?staged, ?locked, ?reserved, ?lower, ?narrow, ?narrowLower, ?narrowUpper, ?upper⟩
  case staged =>
    intro s src addr val f i x hrails hregion hagent hport hhits hacc hw hres hrules hne
    have hwritten : s.writeReg src addr.toNat val.toNat = (s.reach addr.toNat).stage f (bits val.toNat f.lo f.width) i x := by
      rw [State.writeReg_of_hit hhits hw hregion hagent (fun h => hport ⟨h.1, h.2.1⟩)]
      exact State.writeFields_rwe hacc hres hrules hne
    obtain ⟨hopen, -, -⟩ := State.configs_of_written (s.written_reach addr.toNat)
    exact ⟨_, exec_registerWrite_word hrails hwritten, reached_stage (bits_lt ..), hopen⟩
  case locked =>
    intro s src addr val f i x hrails hregion hagent hport hhits hacc hw hlock hnew
    exact registerWrites_locked src hrails hregion hagent hport hhits hacc hw hlock hnew
  case reserved =>
    intro s src addr val f i x hrails hregion hagent hport hhits hacc hw hres
    have hwritten : s.writeReg src addr.toNat val.toNat = (s.reach addr.toNat).cfgErr (ownerPage (addr.toNat / 0x1000))
        (if 0x100 ≤ addr.toNat / 0x1000 then addr.toNat / 0x1000 else 0) (addr.toNat % 0x1000) := by
      rw [State.writeReg_of_hit hhits hw hregion hagent (fun h => hport ⟨h.1, h.2.1⟩)]
      exact State.writeFields_reserved hacc hres
    obtain ⟨hopen, hstaged, -⟩ := State.configs_of_written ((State.written_cfgErr ..).trans (s.written_reach addr.toNat))
    exact ⟨_, exec_registerWrite_word hrails hwritten, State.rd_cfgErr_same .., hstaged, hopen⟩
  case lower =>
    intro s addr val f i x hrails _ _ hport hhits hacc hw
    obtain ⟨hopen, hstaged, -⟩ := State.configs_of_written (s.written_reach addr.toNat)
    refine ⟨{ s.reach addr.toNat with halves := Tab.set (s.reach addr.toNat).halves addr.toNat val.toNat }, ?_, ?_, hstaged, hopen⟩
    · exact exec_registerWrite_word (src := .warden) hrails (State.writeReg_of_lower hhits hacc hw hport)
    · exact Tab.get?_set_same ..
  case narrow => exact fun s src addr size val h => ⟨_, congrArg Host.Outcome.next (s.writeSized_narrow src _ _ h), rfl⟩
  case narrowLower => exact fun s addr size val h => ⟨_, congrArg Host.Outcome.next (s.writeSized_narrow .warden _ _ h), rfl⟩
  case narrowUpper => exact fun s addr size val h => ⟨_, congrArg Host.Outcome.next (s.writeSized_narrow .warden _ _ h), rfl⟩
  case upper =>
    intro s addr val low f i x hrails hregion hagent hport hhits hacc hw hres hrules hne hlow
    let u : State := { s.reach addr.toNat with halves := Tab.erase s.halves (addr.toNat - 4) }
    let v := (low.toNat + val.toNat * 2 ^ 32) % 2 ^ f.width / 2 ^ zeroBits f * 2 ^ zeroBits f
    have hwritten : s.writeReg .warden addr.toNat val.toNat = u.stage f v i x :=
      (State.writeReg_of_upper hhits hregion hagent hport hlow).trans (State.writeFields_rwe hacc hres hrules hne)
    have hv : v < 2 ^ f.width :=
      lt_of_le_of_lt (Nat.div_mul_le_self _ _) (Nat.mod_lt _ (Nat.two_pow_pos _))
    obtain ⟨hopen, -, -⟩ := State.configs_of_written (s.written_reach addr.toNat)
    refine ⟨_, exec_registerWrite_word (src := .warden) hrails hwritten, reached_stage hv, hopen, ?_⟩
    exact Tab.get?_erase_same ..

end Sys2Proof.Machine
end

section
/-! What a reset has set stands until the node has booted: a frame of the operations that a boot calls. -/
namespace Sys2Proof.Machine

open Reg

/-- What a warm reset decides before the boot, and the boot leaves: the AO time, the preparation, the requests, the Bakes and the
trackers, and the two fields that say why the reset came. -/
structure Calm where
  ao    : Nat
  prep  : Option Nat
  reqs  : List Req
  bakes : List Bake
  trks  : List Trk
  cause : Nat
  lost  : Nat

def State.calm (s : State) : Calm :=
  { ao := s.ao, prep := s.warden.prep, reqs := s.reqs, bakes := s.bakes, trks := s.trks, cause := s.rd WARDEN_RESET_CAUSE,
    lost := s.rd WARDEN_COH_LOST }

/-- Whether a state works on nothing. -/
structure Calm.Idle (c : Calm) : Prop where
  reqs  : c.reqs = []
  bakes : c.bakes = []
  trks  : c.trks = []

/-- The two fields that say why a reset came. -/
def causeFields : List Field := [WARDEN_RESET_CAUSE, WARDEN_COH_LOST]

/-- Fields that are neither of the two at any page and index: those of a page behind WARDEN's, and those at other places of
their pages. -/
def Field.besideCause (f : Field) : Bool :=
  decide (7 ≤ f.page) || causeFields.all (fun g => (f.off * 64 + f.lo) % 0x40000 != (g.off * 64 + g.lo) % 0x40000)

theorem keyOf_cause_lt {g : Field} (hg : g ∈ causeFields) : keyOf g 0 0 < 7 * 0x1000 * 64 := by
  revert g
  decide

theorem keyOf_ne_of_late_page {f g : Field} (hg : g ∈ causeFields) (hf : 7 ≤ f.page) (i x : Nat) : keyOf g 0 0 ≠ keyOf f i x := by
  have hlate : 7 * 0x1000 * 64 ≤ keyOf f i x := by
    have hpage : 7 * 0x1000 ≤ (f.page + i) * 0x1000 := Nat.mul_le_mul_right _ (by omega)
    unfold keyOf
    omega
  exact (Nat.lt_of_lt_of_le (keyOf_cause_lt hg) hlate).ne

theorem keyOf_ne_of_besideCause {f g : Field} (hg : g ∈ causeFields) (hf : f.besideCause = true) (i : Nat) :
    keyOf g 0 0 ≠ keyOf f i 0 := by
  rcases Bool.or_eq_true _ _ ▸ hf with h | h
  · exact keyOf_ne_of_late_page hg (of_decide_eq_true h) i 0
  · exact (keyOf_ne_of_offset i 0 (by simpa using List.all_eq_true.mp h g hg)).symm

theorem State.calm_of_body {s t : State} (h : t.body = s.body) (hrd : ∀ g ∈ causeFields, t.rd g = s.rd g) : t.calm = s.calm := by
  have hao : t.ao = s.ao := (congrArg State.ao h :)
  have hwarden : t.warden = s.warden := (congrArg State.warden h :)
  have hreqs : t.reqs = s.reqs := (congrArg State.reqs h :)
  have hbakes : t.bakes = s.bakes := (congrArg State.bakes h :)
  have htrks : t.trks = s.trks := (congrArg State.trks h :)
  simp [State.calm, hao, hwarden, hreqs, hbakes, htrks, hrd WARDEN_RESET_CAUSE (by decide), hrd WARDEN_COH_LOST (by decide)]

@[simp] theorem State.calm_foldl {β : Type} (f : State → β → State) (h : ∀ a b, (f a b).calm = a.calm) (l : List β) (s : State) :
    (l.foldl f s).calm = s.calm := foldl_keeps State.calm f h l s

@[simp] theorem State.calm_wr (s : State) {f : Field} (hf : f.besideCause = true) (v i : Nat) : (s.wr f v i).calm = s.calm :=
  State.calm_of_body (State.body_wr ..) fun _ hg => State.rd_wr_ne _ _ (keyOf_ne_of_besideCause hg hf i)

@[simp] theorem State.calm_wr_late (s : State) {f : Field} (hf : 7 ≤ f.page) (v i x : Nat) : (s.wr f v i x).calm = s.calm :=
  State.calm_of_body (State.body_wr ..) fun _ hg => State.rd_wr_ne _ _ (keyOf_ne_of_late_page hg hf i x)

@[simp] theorem State.calm_bump (s : State) {f : Field} (hf : f.besideCause = true) (i : Nat) : (s.bump f i).calm = s.calm :=
  State.calm_of_body (State.body_bump ..) fun _ hg => State.rd_bump_ne _ (keyOf_ne_of_besideCause hg hf i)

@[simp] theorem State.calm_raise (s : State) (p c : Nat) : (s.raise p c).calm = s.calm :=
  State.calm_of_body (State.body_raise ..) fun _ hg => State.rd_raise_ne _ _ _ (keyOf_ne_of_besideCause hg (by decide) p)

theorem keyOf_cause_ne_group {f g : Field} (hg : g ∈ causeFields) (hf : f ∈ [WMK_EXTREME, WMK_CROSSED, WMK_COUNT_]) (p x : Nat) (hx : x < 16) :
    keyOf g 0 0 ≠ keyOf f p x := by
  simp only [causeFields, List.mem_cons, List.not_mem_nil, or_false] at hg hf
  rcases hg with rfl | rfl <;> rcases hf with rfl | rfl | rfl <;>
    simp only [keyOf, WARDEN_RESET_CAUSE, WARDEN_COH_LOST, WMK_EXTREME, WMK_CROSSED, WMK_COUNT_] <;> omega

theorem State.calm_sample (s : State) (p : Nat) {g : Nat} (hg : g < 16) (v : Int) : (s.sample p g v).calm = s.calm :=
  State.calm_of_body (State.body_sample ..) fun _ hf => State.rd_sample_ne_keys _ _ _ _
    (keyOf_cause_ne_group hf (by simp) _ _ hg) (keyOf_cause_ne_group hf (by simp) _ _ hg)
    (keyOf_cause_ne_group hf (by simp) _ _ hg) (keyOf_ne_of_besideCause hf (by decide) p)

@[simp] theorem State.calm_crumb (s : State) (p c v : Nat) (l : List Nat) : (s.crumb p c v l).calm = s.calm :=
  State.calm_of_body (State.body_crumb ..) (by simpa [causeFields] using
    ⟨State.rd_crumb_ne (f := WARDEN_RESET_CAUSE) _ _ _ _ _ (by decide), State.rd_crumb_ne (f := WARDEN_COH_LOST) _ _ _ _ _ (by decide)⟩)

@[simp] theorem State.calm_with (s : State) (freeCtr : Nat) (outs : List Out) (cfgOpen cfgDrain cfgStaged : Tab Nat) (wmk : Tab Wmk)
    (wins : Tab Nat) (waking : List Nat) (lastUse : Tab Nat) (openEpoch drainEpoch : Nat) (commitPending slowRaised : Bool)
    (rootChanged : List Nat) (ports : Tab Port) (shape : Shape) (agents : Tab Agent) (owed : List (Nat × Nat × Nat × Nat))
    (scan : Option Scan) (tc : List Leaf) (wc : List WalkEnt) (hpqHead hpqTail windowCount : Nat) (slots : Tab KeySlot)
    (tpk : Option (Nat × Nat × Nat)) (queues : Tab Queue) (mchs : Tab Mch) (ras : Ras) (twin : Twin) (jobs : List JobRec) (pwr : Pwr)
    (tmc : Tmc) : State.calm { s with
      freeCtr := freeCtr, outs := outs, cfgOpen := cfgOpen, cfgDrain := cfgDrain, cfgStaged := cfgStaged, wmk := wmk, wins := wins,
      waking := waking, lastUse := lastUse, openEpoch := openEpoch, drainEpoch := drainEpoch, commitPending := commitPending,
      slowRaised := slowRaised, rootChanged := rootChanged, ports := ports, shape := shape, agents := agents, owed := owed, scan := scan,
      tc := tc, wc := wc, hpqHead := hpqHead, hpqTail := hpqTail, windowCount := windowCount, slots := slots, tpk := tpk,
      queues := queues, mchs := mchs, ras := ras, twin := twin, jobs := jobs, pwr := pwr, tmc := tmc } = s.calm := rfl

@[simp] theorem State.calm_setPort (s : State) (p : Nat) (c : Port) : (s.setPort p c).calm = s.calm := rfl

@[simp] theorem State.calm_setMch (s : State) (ch : Nat) (m : Mch) : (s.setMch ch m).calm = s.calm := rfl

@[simp] theorem State.calm_enqueue (s : State) (q : Nat) (e : Entry) : (s.enqueue q e).calm = s.calm := rfl

@[simp] theorem State.calm_out (s : State) (o : Out) : (s.out o).calm = s.calm := rfl

@[simp] theorem State.calm_emitTraining (s : State) (p : Nat) (x : Slot) : (s.emitTraining p x).calm = s.calm := rfl

@[simp] theorem State.calm_stage (s : State) (f : Field) (v i x : Nat) : (s.stage f v i x).calm = s.calm := rfl

@[simp] theorem State.calm_emitFlit (s : State) (p ty : Nat) (l : List Slot) (c : Bool) : (s.emitFlit p ty l c).calm = s.calm := by
  unfold State.emitFlit
  dsimp only
  split <;> rfl

theorem State.calm_send (s : State) (p : Nat) (m : Msg) (t j : Nat) : (s.send p m t j).calm = s.calm :=
  State.calm_of_body (State.body_send ..) fun _ hg =>
    State.rd_send_ne _ _ _ _ _ fun q => keyOf_ne_of_late_page hg (by decide) q 0

theorem State.calm_twSend (s : State) (m : Msg) (t j : Nat) : (s.twSend m t j).calm = s.calm := by
  unfold State.twSend
  split
  · exact State.calm_send ..
  · rfl

theorem State.calm_lostPartner (s was : State) :
    (if s.twLost && !was.twLost then s.raise pgTWIN I_TWIN_PARTNER_LOST else s).calm = s.calm := by
  split
  · exact State.calm_raise ..
  · rfl

theorem State.calm_twMoved (s was : State) (back : Option Nat) : (s.twMoved was back).calm = s.calm := by
  have hlost := s.calm_lostPartner was
  unfold State.twMoved
  split
  · extract_lets u
    split
    · exact hlost
    · split
      · exact hlost
      · extract_lets s1 _ s2
        have hs1 : s1.calm = u.calm := by
          unfold s1
          split
          · exact State.calm_bump _ (by decide) _
          · rfl
        exact ((State.calm_foldl _ (fun a b => State.calm_twSend ..) _ s2).trans hs1).trans hlost
  · rfl

theorem State.calm_setTurn (s : State) (t : Nat) : (s.setTurn t).calm = s.calm := by
  unfold State.setTurn
  split
  · rfl
  · rw [State.calm_raise, State.calm_with]

theorem State.calm_pairCommit (s : State) : s.pairCommit.calm = s.calm := by
  unfold State.pairCommit
  split
  · split
    · rw [State.calm_twMoved, State.calm_setTurn]
    · rfl
  · split
    · rfl
    · rw [State.calm_with, State.calm_setTurn]

/-! ### The steps of a commit -/

theorem State.calm_setLim (s : State) (v : Nat) : (s.setLim v).calm = s.calm := by
  unfold State.setLim
  dsimp only
  split <;> simp

theorem State.calm_clampToks (s : State) : s.clampToks.calm = s.calm := by
  unfold State.clampToks
  extract_lets one
  exact State.calm_foldl one (fun _ _ => rfl) _ _

theorem State.calm_judgePanic (s : State) : s.judgePanic.calm = s.calm := by
  have hsample : (s.sample pgSHAPE 2 s.rtWaiting).calm = s.calm := State.calm_sample _ _ (by decide) _
  unfold State.judgePanic
  dsimp only
  repeat' split
  · rw [State.calm_with, hsample]
  · rw [State.calm_raise, State.calm_bump _ (by decide), State.calm_with, hsample]
  · rw [State.calm_with, hsample]
  · exact hsample

theorem State.calm_setTag (s : State) (t v : Nat) : (s.setTag t v).calm = s.calm := rfl

theorem State.calm_reEval (s : State) : s.reEval.calm = s.calm := by
  unfold State.reEval
  exact (State.calm_with _ ..).trans (State.calm_foldl _ (fun a t => a.calm_setTag t _) _ _)

theorem State.calm_shapeCommit (s : State) (changed : Bool) : (s.shapeCommit changed).calm = s.calm := by
  unfold State.shapeCommit
  dsimp only
  rw [State.calm_reEval, State.calm_judgePanic]
  split
  · rw [State.calm_with, State.calm_clampToks, State.calm_setLim]
  · rw [State.calm_clampToks, State.calm_setLim]

theorem State.calm_clearSegment (s : State) (ch k : Nat) : (s.clearSegment ch k).calm = s.calm := by
  unfold State.clearSegment
  simp

theorem State.calm_raiseMask (s : State) (ch : Nat) (also : List Nat) : (s.raiseMask ch also).calm = s.calm := by
  unfold State.raiseMask
  simp [State.calm_clearSegment]

theorem State.calm_policyOvr (s : State) (page floor : Nat) (start : Bool) (x y : Nat) : (s.policyOvr page floor start x y).calm = s.calm := by
  unfold State.policyOvr
  rw [State.calm_crumb, State.calm_raise, State.calm_raise, State.calm_wr _ (by decide)]

theorem State.calm_setRefi (s : State) (ch : Nat) : (s.setRefi ch).calm = s.calm := by
  unfold State.setRefi
  extract_lets m limit floor want now above s1
  unfold s1
  split
  · rw [State.calm_policyOvr, State.calm_setMch, State.calm_wr _ (by decide)]
  · rw [State.calm_wr _ (by decide)]

theorem State.calm_channelsCommit (s : State) : s.channelsCommit.calm = s.calm := by
  unfold State.channelsCommit
  simp [State.calm_raiseMask, State.calm_setRefi]

theorem State.calm_setScrub (s : State) (v : Nat) : (s.setScrub v).calm = s.calm := by
  unfold State.setScrub
  dsimp only
  split
  · rw [State.calm_policyOvr, State.calm_with, State.calm_wr _ (by decide)]
  · rw [State.calm_wr _ (by decide)]

theorem State.calm_judgePage (s : State) (i : Nat) (a : ErrAt) (hard : Bool) (n x y : Nat) : (s.judgePage i a hard n x y).calm = s.calm := by
  have hset (e : PageEnt) : (s.setPage i e).calm = s.calm := (State.calm_sample _ _ (by decide) _).trans (State.calm_with s ..)
  unfold State.judgePage
  repeat' split
  · rfl
  · rw [State.calm_raise, State.calm_crumb, hset]
  · rfl

theorem State.calm_judgeBank (s : State) (i : Nat) (a : ErrAt) (n x y : Nat) : (s.judgeBank i a n x y).calm = s.calm := by
  unfold State.judgeBank
  dsimp only
  split
  · rw [State.calm_raise, State.calm_crumb]
    rfl
  · rfl

theorem State.calm_judgeLasting (s : State) (page bank : Nat) : (s.judgeLasting page bank).calm = s.calm := by
  have hpages (u : State) : u.judgePages.calm = u.calm := State.calm_foldl _ (fun a b => State.calm_judgePage ..) _ _
  have hbanks (u : State) : u.judgeBanks.calm = u.calm := State.calm_foldl _ (fun a b => State.calm_judgeBank ..) _ _
  unfold State.judgeLasting
  dsimp only
  repeat' split
  all_goals simp [hpages, hbanks]

theorem State.calm_resample (s : State) : s.resample.calm = s.calm :=
  State.calm_foldl _ (fun _ _ => State.calm_sample _ _ (Nat.mod_lt _ (by decide)) _) _ _

theorem State.calm_rejudge (s : State) (p : Nat) : (s.rejudge p).calm = s.calm := by
  unfold State.rejudge State.judgeParams
  dsimp only
  repeat' split
  · rfl
  · exact State.calm_wr _ (by decide) _ _
  · rfl
  · rfl

theorem State.calm_use (s : State) (l : List Nat) : (s.use l).calm = s.calm :=
  State.calm_of_body (State.body_use ..) fun _ hg => State.rd_use_ne _ _ (fun p _ => keyOf_ne_of_besideCause hg (by decide) p)
    (keyOf_ne_of_besideCause hg (by decide) 0) (keyOf_ne_of_besideCause hg (by decide) 0)

theorem State.calm_hpqPush (s : State) (l : Leaf) : (s.hpqPush l).calm = s.calm := by
  unfold State.hpqPush
  dsimp only
  rw [State.calm_sample _ _ (by decide), State.calm_raise, State.calm_with]
  exact State.calm_foldl _ (fun _ _ => State.calm_wr_late _ (by decide) _ _ _) _ _

theorem State.calm_windowVisit (s : State) (l : Leaf) : (s.windowVisit l).calm = s.calm := by
  unfold State.windowVisit
  extract_lets hot l1 isHot s1 l2 l3
  have hs1 : s1.calm = s.calm := by
    unfold s1
    split
    · split
      · exact State.calm_bump _ (by decide) _
      · exact State.calm_hpqPush ..
    · rfl
  exact (State.calm_with s1 ..).trans hs1

theorem State.calm_window (s : State) : s.window.calm = s.calm := by
  refine (State.calm_foldl _ (fun a l => ?_) _ _).trans (State.calm_with s ..)
  split
  · rfl
  · exact State.calm_windowVisit ..

theorem State.calm_wakeDeep (s : State) : s.wakeDeep.calm = s.calm := by
  have hpassed (u : State) : u.windowsPassed.calm = u.calm :=
    (State.calm_foldl _ (fun a _ => State.calm_window a) _ _).trans (State.calm_with u ..)
  unfold State.wakeDeep State.windowsAwake
  split
  · rw [hpassed, State.calm_use]
  · exact State.calm_use ..

theorem State.calm_commitEnd (s : State) : s.commitEnd.calm = s.calm := by
  have hmask (u : State) (ch : Nat) : (u.fallMask ch).calm = u.calm := by
    unfold State.fallMask
    dsimp only
    split <;> rfl
  have hdrained (u : State) : u.xlatDrained.calm = u.calm := rfl
  unfold State.commitEnd
  dsimp only
  rw [State.calm_raise, State.calm_wr _ (by decide), State.calm_with, hdrained]
  exact State.calm_foldl _ hmask _ _

/-! ### A node that works on nothing -/

theorem State.calm_foldl_idle {β : Type} (f : State → β → State) (h : ∀ a b, a.calm.Idle → (f a b).calm = a.calm) (l : List β) (s : State)
    (hs : s.calm.Idle) : (l.foldl f s).calm = s.calm := by
  induction l generalizing s with
  | nil => rfl
  | cons b bs ih =>
    have hb := h s b hs
    rw [List.foldl_cons, ih _ (hb ▸ hs), hb]

theorem State.calm_tenantOff {s : State} (hs : s.calm.Idle) (t : Nat) : (s.tenantOff t).calm = s.calm := by
  have hreqs : s.reqs = [] := hs.reqs
  have hbakes : s.bakes = [] := hs.bakes
  unfold State.tenantOff
  dsimp only
  rw [hreqs, List.filter_nil, List.foldl_nil, hbakes, List.filter_nil, List.foldl_nil]
  rfl

theorem State.calm_commitCycle {s : State} (hs : s.calm.Idle) : s.commitCycle.calm = s.calm := by
  have hopen : (((({ s.openNext with rootChanged := s.rootsChanged } : State).wr EPOCH_RESULT 0).wr EPOCH_DRAIN_ELAPSED 0)).calm =
      s.calm := by
    rw [State.calm_wr _ (by decide), State.calm_wr _ (by decide)]
    rfl
  unfold State.commitCycle
  dsimp only
  rw [State.calm_wakeDeep, State.calm_pairCommit, State.calm_foldl _ State.calm_rejudge, State.calm_resample, State.calm_judgeLasting,
    State.scrubClamp, State.calm_setScrub, State.calm_channelsCommit, State.calm_shapeCommit,
    State.calm_foldl_idle _ (fun _ _ h => State.calm_tenantOff h _) _ _ (hopen ▸ hs), hopen]

theorem State.calm_purgeTx (s : State) (aid : Nat) : (s.purgeTx aid).calm = s.calm := by
  refine State.calm_foldl _ (fun a p => ?_) _ _
  extract_lets gone
  split
  · rfl
  · exact (State.calm_wr_late _ (by decide) _ _ _).trans (State.calm_setPort ..)

theorem State.calm_trackerPass {s : State} (hs : s.calm.Idle) (aid : Nat) : (s.trackerPass aid).calm = s.calm := by
  have htrks : s.trks = [] := hs.trks
  unfold State.trackerPass
  rw [htrks]
  rfl

theorem State.calm_declare {s : State} (hs : s.calm.Idle) (aid cause : Nat) : (s.declare aid cause).calm = s.calm := by
  unfold State.declare
  extract_lets a src s0 s1 s2
  split
  · have hs0 : s0.calm = s.calm := by
      unfold s0
      split <;> rfl
    have hs2 : (s2.joinSweep aid).calm = s.calm := by
      refine Eq.trans (b := s2.calm) rfl ?_
      unfold s2 s1
      rw [State.calm_crumb, State.calm_purgeTx]
      exact hs0
    rw [State.calm_trackerPass (hs2 ▸ hs), hs2]
  · rfl

theorem State.calm_clearLink (s : State) (p : Nat) : (s.clearLink p).calm = s.calm := by
  unfold State.clearLink
  dsimp only
  rw [State.calm_wr _ (by decide)]
  refine (State.calm_foldl _ (fun a x => ?_) _ _).trans (State.calm_setPort ..)
  split
  · exact State.calm_bump _ (by decide) _
  · rfl

theorem State.calm_goDown {s : State} (hs : s.calm.Idle) (p reason : Nat) (dn : Bool) : (s.goDown p reason dn).calm = s.calm := by
  unfold State.goDown
  extract_lets c wasAlive s1 s4 held s5 s6 role
  have hs4 : s4.calm = s.calm := by
    unfold s4
    rw [State.calm_wr _ (by decide), State.calm_clearLink]
    unfold s1
    split
    · exact State.calm_emitFlit ..
    · rfl
  have hs5 : s5.calm = s.calm := by
    unfold s5
    split
    · rw [State.calm_crumb, State.calm_raise, hs4]
    · exact hs4
  have hs6 : s6.calm = s.calm := (State.calm_bump _ (by decide) _).trans hs5
  split
  · split
    · rw [State.calm_declare (hs6 ▸ hs), hs6]
    · split
      · rw [State.calm_twMoved, hs6]
      · rw [State.calm_foldl_idle _ (fun _ _ h => State.calm_declare h _ _) _ _ (hs6 ▸ hs), hs6]
  · exact hs5

theorem State.calm_attemptOne (s : State) (p : Nat) : (s.attemptOne p).calm = s.calm := by
  unfold State.attemptOne
  dsimp only
  split <;> simp only [State.calm_wr _ (f := FPORT_DOWN_REASON) (by decide), State.calm_wr _ (f := FPORT_WIDTH) (by decide),
    State.calm_setPort]

theorem State.calm_copyCmis (s : State) (p : Nat) (m : Option Module) : (s.copyCmis p m).calm = s.calm := by
  have hwr (u : State) (f : Field) (hf : 7 ≤ f.page) (v x : Nat) : (u.wr f v p x).calm = u.calm := State.calm_wr_late _ hf ..
  have hwords (u : State) (v pn sn : Nat → Nat) (l : List Nat) : (l.foldl (fun (s : State) i =>
      ((s.wr FPORT_CMIS_VENDOR (v i) p i).wr FPORT_CMIS_PN (pn i) p i).wr FPORT_CMIS_SN (sn i) p i) u).calm = u.calm :=
    State.calm_foldl _ (fun a i => by rw [hwr _ _ (by decide), hwr _ _ (by decide), hwr _ _ (by decide)]) _ _
  unfold State.copyCmis
  dsimp only
  rw [hwords]
  simp only [hwr _ FPORT_CMIS_ID (by decide), hwr _ FPORT_CMIS_REV (by decide), hwr _ FPORT_CMIS_STATE (by decide),
    hwr _ FPORT_CMIS_VALID (by decide), hwr _ FPORT_CMIS_MAXPWR (by decide), hwr _ FPORT_CMIS_LENGTH (by decide)]

theorem State.calm_trainBy {s : State} (p : Nat) (fresh : Bool) {go : State → State} (hgo : ∀ u : State, u.calm = s.calm → (go u).calm = s.calm) :
    (s.trainBy p fresh go).calm = s.calm := by
  unfold State.trainBy
  extract_lets c
  split
  · split
    · extract_lets s1
      have hs1 : s1.calm = s.calm := State.calm_copyCmis ..
      split
      · extract_lets s2
        have hs2 : s2.calm = s.calm := (State.calm_wr _ (by decide) _ _).trans hs1
        split
        · rw [State.calm_raise, hs2]
        · exact hs2
      · split
        · exact hs1
        · exact hgo _ ((State.calm_setPort s1 ..).trans hs1)
    · rfl
  · rfl

theorem State.calm_attempt {s : State} (hs : s.calm.Idle) (p : Nat) : (s.attempt p).calm = s.calm := by
  unfold State.attempt
  extract_lets was cxl
  split
  · exact State.calm_attemptOne ..
  · split
    · rw [State.calm_attemptOne]
      split
      · rfl
      · exact State.calm_goDown hs ..
    · split
      · have hone := State.calm_attemptOne s p
        exact (State.calm_trainBy _ _ (fun u hu => (State.calm_attemptOne u _).trans hu)).trans hone
      · exact State.calm_attemptOne ..

theorem State.calm_tryTrain {s : State} (hs : s.calm.Idle) (p : Nat) (fresh : Bool) : (s.tryTrain p fresh).calm = s.calm :=
  State.calm_trainBy p fresh fun _ hu => (State.calm_attempt (hu ▸ hs) p).trans hu

theorem State.calm_recover (s : State) (p : Nat) : (s.recover p).calm = s.calm := by
  unfold State.recover
  extract_lets c
  split
  · rw [State.calm_twMoved, State.calm_raise, State.calm_bump _ (by decide), State.calm_setPort]
  · rfl

theorem State.calm_retrain {s : State} (hs : s.calm.Idle) (p : Nat) : (s.retrain p).calm = s.calm := by
  have hidle (c : Port) : (s.setPort p c).calm.Idle := hs
  unfold State.retrain
  extract_lets c
  split
  · exact State.calm_recover ..
  · rfl
  · rw [State.calm_attempt (hidle _), State.calm_setPort]
  · rw [State.calm_tryTrain (hidle _), State.calm_setPort]

theorem State.calm_profilePort (s : State) (b : List Byte) (p : Nat) : (s.profilePort b p).calm = s.calm := by
  unfold State.profilePort
  extract_lets r f mode acc s1 s2
  have hs1 : s1.calm = s.calm := by
    unfold s1
    split
    · rfl
    · exact State.calm_wr _ (by decide) _ _
  have hs2 : s2.calm = s.calm := (State.calm_wr _ (by decide) _ _).trans hs1
  split
  · exact hs2
  · exact hs2

theorem State.calm_applyProfile {s : State} (hs : s.calm.Idle) : s.applyProfile.calm = s.calm := by
  unfold State.applyProfile
  extract_lets good b w s2 s1 src s3 s4
  have hs1 : s1.calm = s.calm := by
    have hs2 : s2.calm = s.calm := State.calm_foldl _ (fun a p => State.calm_profilePort ..) _ _
    unfold s1
    split
    · split
      · rw [State.calm_wr _ (by decide), hs2]
      · exact hs2
    · rw [State.calm_stage, State.calm_stage, State.calm_stage, State.calm_wr _ (by decide), State.calm_wr _ (by decide)]
  have hs3 : s3.calm = s.calm := Eq.trans rfl hs1
  have hs4 : s4.calm = s.calm := by
    unfold s4
    rw [State.calm_commitEnd, State.calm_commitCycle (hs3 ▸ hs), hs3]
  refine (State.calm_foldl_idle _ (fun a p ha => ?_) _ _ (hs4 ▸ hs)).trans hs4
  split
  · exact State.calm_retrain ha p
  · rfl

/-! ### The boot -/

theorem State.calm_wardenStarts {s : State} (hs : s.calm.Idle) (c : Nat) (cold : Bool) : (s.wardenStarts c cold).calm = s.calm := by
  unfold State.wardenStarts
  extract_lets img t s1 opt s2 src s3 ras s4 s5
  have hs1 : s1.calm = s.calm := by
    unfold s1
    rw [State.calm_crumb, State.calm_wr _ (by decide), State.calm_wr _ (by decide), State.calm_wr _ (by decide),
      State.calm_wr _ (by decide), State.calm_wr _ (by decide)]
  have hs3 : s3.calm = s.calm := by
    refine Eq.trans (b := s2.calm) rfl ?_
    unfold s2
    split
    · exact hs1
    · rw [State.calm_crumb, hs1]
  have hs5 : s5.calm = s.calm := by
    have hs4 : s4.calm = s.calm := by
      unfold s4
      split <;> exact hs3
    exact (State.calm_foldl _ (fun a i => State.calm_wr_late a (f := METER_ENROLL_FP) (by decide) _ 0 i) _ s4).trans hs4
  rw [State.calm_out, State.calm_wr _ (by decide), State.calm_applyProfile (hs5 ▸ hs), hs5]

/-- A boot, whether it finds an image or not, leaves the cause that it was given. -/
theorem State.calm_boot {s : State} (hs : s.calm.Idle) (first : Nat) {cause : Nat} (hcause : cause < 16) (cold : Bool) :
    (s.boot first cause cold).calm = { s.calm with cause := cause } := by
  have hset : (s.wr WARDEN_RESET_CAUSE cause).calm = { s.calm with cause := cause } := by
    have hrd : (s.wr WARDEN_RESET_CAUSE cause).rd WARDEN_RESET_CAUSE = cause := by
      rw [State.rd_wr_same]
      exact Nat.mod_eq_of_lt hcause
    have hlost : (s.wr WARDEN_RESET_CAUSE cause).rd WARDEN_COH_LOST = s.rd WARDEN_COH_LOST := State.rd_wr_ne _ _ (by decide)
    show Calm.mk _ _ _ _ _ _ _ = _
    rw [hrd, hlost]
    rfl
  unfold State.boot
  extract_lets s1 order l
  split
  · have hidle : s1.calm.Idle := hset.symm ▸ ⟨hs.reqs, hs.bakes, hs.trks⟩
    rw [State.calm_wardenStarts hidle, hset]
  · rw [State.calm_crumb, State.calm_wr _ (by decide), hset]

theorem State.calm_trainFrom (s : State) (ch step : Nat) : (s.trainFrom ch step).calm = s.calm := by
  unfold State.trainFrom
  rw [State.calm_wr _ (by decide), State.calm_setMch]

theorem State.calm_trainCmd (s : State) (q : Nat) (x : Cmd) : (s.trainCmd q x).calm = s.calm := rfl

theorem State.calm_ready (s : State) : s.ready.calm = s.calm := by
  unfold State.ready
  extract_lets ps s1 s2
  have hs1 : s1.calm = s.calm := State.calm_foldl _ (fun _ _ => State.calm_wr _ (by decide) _ _) _ _
  unfold s2
  rw [State.calm_wr _ (by decide), State.calm_wr _ (by decide), State.calm_wr _ (by decide), State.calm_wr _ (by decide),
    State.calm_wr _ (by decide), hs1]

theorem State.calm_trialBoot (s : State) : s.trialBoot.calm = s.calm := by
  unfold State.trialBoot
  split
  · rfl
  · split
    · extract_lets v src
      rw [State.calm_crumb]
      refine Eq.trans (b := ((s.wr WARDEN_BOOT_PREF s.warden.former).wr WARDEN_TRIAL 0).calm) rfl ?_
      rw [State.calm_wr _ (by decide), State.calm_wr _ (by decide)]
    · rfl

theorem State.calm_wr_lost (s : State) (v : Bool) : (s.wr WARDEN_COH_LOST (b2n v)).calm = { s.calm with lost := b2n v } := by
  have hrd : (s.wr WARDEN_COH_LOST (b2n v)).rd WARDEN_COH_LOST = b2n v := by
    rw [State.rd_wr_same]
    cases v <;> rfl
  have hcause : (s.wr WARDEN_COH_LOST (b2n v)).rd WARDEN_RESET_CAUSE = s.rd WARDEN_RESET_CAUSE := State.rd_wr_ne _ _ (by decide)
  show Calm.mk _ _ _ _ _ _ _ = _
  rw [hrd, hcause]
  rfl

/-- What a warm reset for a cause leaves. -/
theorem State.calm_warmReset (s : State) {cause : Nat} (hcause : cause < 16) (lost : Bool) : (s.warmReset cause lost).calm =
    { ao := s.ao, prep := none, reqs := [], bakes := [], trks := [], cause := cause, lost := b2n lost } := by
  unfold State.warmReset
  extract_lets kept s1 s2
  have hs1 : s1.calm = { (s.warmBase kept).calm with lost := b2n lost } := by
    unfold s1
    rw [State.calm_trialBoot, State.calm_wr_lost, State.calm_wr _ (by decide), State.calm_ready]
  have hs2 : s2.calm = { s1.calm with cause := cause } := State.calm_boot (hs1 ▸ ⟨rfl, rfl, rfl⟩) _ hcause _
  have hs2' : s2.calm = { ao := s.ao, prep := none, reqs := [], bakes := [], trks := [], cause := cause, lost := b2n lost } := by
    rw [hs2, hs1]
    rfl
  split
  · exact hs2'
  · refine (State.calm_foldl _ (fun a n => ?_) _ _).trans hs2'
    split
    · rw [State.calm_trainFrom, State.calm_trainCmd, State.calm_trainCmd]
    · exact State.calm_trainFrom ..

/-! ### The resets -/

/-- What a statement about a warm reset names: the cause, the time and the emptiness, and what outlives every reset. -/
structure State.WarmFrom (s t : State) (cause : Nat) : Prop where
  cause   : t.rd WARDEN_RESET_CAUSE = cause
  ao      : t.ao = s.ao
  reqs    : t.reqs = []
  bakes   : t.bakes = []
  prep    : t.warden.prep = none
  opts    : t.opts = s.opts
  fuses   : t.fuses = s.fuses
  pending : t.pending = s.pending

theorem State.warmFrom_of_calm {s t : State} {cause lost : Nat} (hcalm : t.calm =
      { ao := s.ao, prep := none, reqs := [], bakes := [], trks := [], cause := cause, lost := lost })
    (hlasting : t.core.lasting = s.core.lasting) : s.WarmFrom t cause where
  cause   := congrArg Calm.cause hcalm
  ao      := congrArg Calm.ao hcalm
  reqs    := congrArg Calm.reqs hcalm
  bakes   := congrArg Calm.bakes hcalm
  prep    := congrArg Calm.prep hcalm
  opts    := congrArg (·.1) hlasting
  fuses   := congrArg (·.2.1) hlasting
  pending := congrArg (·.2.2.1) hlasting

theorem State.warmFrom_warmReset (s : State) {cause : Nat} (hcause : cause < 16) (lost : Bool) :
    s.WarmFrom (s.warmReset cause lost) cause :=
  State.warmFrom_of_calm (s.calm_warmReset hcause lost) (s.lasting_warmReset cause lost)

theorem State.rd_lost_warmReset (s : State) {cause : Nat} (hcause : cause < 16) (lost : Bool) :
    (s.warmReset cause lost).rd WARDEN_COH_LOST = b2n lost := by
  have hcalm := s.calm_warmReset hcause lost
  generalize s.warmReset cause lost = t at hcalm
  exact congrArg Calm.lost hcalm

theorem reset_warmAssert (s : State) (c : Nat) (hacts : s.acts pgWARDEN = true) (hprep : s.warden.prep = some c) (hready : s.prepared = true)
    (hshut : s.tmc.shut = none) (hc : c < 16) : Completes (.warmResetAssert) s fun t =>
      t.rd WARDEN_RESET_CAUSE = c ∧ t.rd WARDEN_COH_LOST = 0 ∧ t.ao = s.ao ∧ t.reqs = [] ∧
      t.bakes = [] ∧ t.warden.prep = none ∧ t.opts = s.opts ∧ t.fuses = s.fuses ∧ t.pending = s.pending := by
  obtain ⟨hrun, -⟩ := State.runs_of_acts hacts
  have hexec : execWarmResetAssert s = .next (s.warmReset c false) := by
    unfold execWarmResetAssert
    rw [hprep]
    exact if_pos (by simp [hready, hrun, hshut])
  have hwarm := s.warmFrom_warmReset hc false
  exact ⟨_, hexec, hwarm.cause, s.rd_lost_warmReset hc false, hwarm.ao, hwarm.reqs, hwarm.bakes, hwarm.prep, hwarm.opts, hwarm.fuses,
    hwarm.pending⟩

theorem reset_refReturn (s : State) (hlive : s.tmc.live = true) (hrails : s.tmc.nodeRails = true) (hbackup : s.rd CLK_ON_BACKUP = 1) :
    Completes (.refReturnReset) s fun t =>
      t.rd WARDEN_RESET_CAUSE = 7 ∧ t.rd WARDEN_COH_LOST = 1 ∧ t.ao = s.ao ∧ t.reqs = [] ∧ t.bakes = [] ∧ t.opts = s.opts ∧
      t.fuses = s.fuses ∧ t.pending = s.pending := by
  have hexec : execRefReturnReset s = .next (s.warmReset 7 true) := (if_neg (by simp [hlive, hrails])).trans (if_pos hbackup)
  have hwarm := s.warmFrom_warmReset (cause := 7) (by decide) true
  exact ⟨_, hexec, hwarm.cause, s.rd_lost_warmReset (by decide) true, hwarm.ao, hwarm.reqs, hwarm.bakes, hwarm.opts, hwarm.fuses,
    hwarm.pending⟩

theorem reset_hbStall (s : State) (hlive : s.tmc.live = true) (hrails : s.tmc.nodeRails = true) (h0 : s.rd WARDEN_W0_STATE ≠ 0)
    (h1 : s.rd WARDEN_W1_STATE ≠ 0) : Completes (.hbStall) s fun t =>
      t.rd WARDEN_RESET_CAUSE = 6 ∧ t.ao = s.ao ∧ t.reqs = [] ∧ t.bakes = [] ∧ t.opts = s.opts ∧
      t.fuses = s.fuses ∧ t.pending = s.pending := by
  have hexec : execHbStall s = .next (s.warmReset 6 !(s.warden.prep.isSome && s.warden.sweep == 2)) :=
    if_pos (by simp [hlive, hrails, h0, h1])
  have hwarm := s.warmFrom_warmReset (cause := 6) (by decide) (!(s.warden.prep.isSome && s.warden.sweep == 2))
  exact ⟨_, hexec, hwarm.cause, hwarm.ao, hwarm.reqs, hwarm.bakes, hwarm.opts, hwarm.fuses, hwarm.pending⟩

/-! ### A cold reset without an image -/

theorem State.body_ready (s : State) : s.ready.body = s.body := by
  unfold State.ready
  extract_lets ps s1 s2
  have hs1 : s1.body = s.body := foldl_keeps State.body _ (fun _ _ => State.body_wr ..) _ _
  unfold s2
  rw [State.body_wr, State.body_wr, State.body_wr, State.body_wr, State.body_wr, hs1]

theorem State.fwCheck_of_body {s t : State} (h : t.body = s.body) (c : Nat) : t.fwCheck (t.copy c) = s.fwCheck (s.copy c) := by
  have hfuses : t.fuses = s.fuses := (congrArg State.fuses h :)
  have hwarden : t.warden = s.warden := (congrArg State.warden h :)
  have htmc : t.tmc = s.tmc := (congrArg State.tmc h :)
  have hcopy : t.copy c = s.copy c := by simp only [State.copy, hwarden, htmc]
  unfold State.fwCheck State.fwSigned
  rw [hcopy, hfuses]

/-- A boot that finds no image records its cause and stops. -/
theorem State.boot_of_no_image {s : State} {first : Nat} (h : (bootOrder first).all (fun c => s.fwCheck (s.copy c) != mrOK) = true)
    (cause : Nat) (cold : Bool) : ∃ l : List Nat, s.boot first cause cold =
      ((s.wr WARDEN_RESET_CAUSE cause).wr WARDEN_BOOT_PHASE 5).crumb pgWARDEN 0x902 3 l := by
  have hcheck (c : Nat) : (s.wr WARDEN_RESET_CAUSE cause).fwCheck ((s.wr WARDEN_RESET_CAUSE cause).copy c) = s.fwCheck (s.copy c) :=
    State.fwCheck_of_body (State.body_wr ..) c
  have hnone : (bootOrder first).find? (fun c => (s.wr WARDEN_RESET_CAUSE cause).fwCheck ((s.wr WARDEN_RESET_CAUSE cause).copy c) == mrOK) =
      none := by
    simpa [hcheck] using h
  unfold State.boot
  extract_lets s1 order l
  rw [show order.find? (fun c => s1.fwCheck (s1.copy c) == mrOK) = none from hnone]
  exact ⟨_, rfl⟩

/-- The state in which a cold reset begins the boot. -/
def State.poweredBase (s : State) : State :=
  { s.resetBase with tmc := { s.tmc with
      nodeRails := true, start := false, offAt := none, override := none, reported := s.tmc.now, above := false } }

theorem exec_coldReset_of_start {s : State} (h : s.tmc.mayStart = true) :
    exec .coldReset s = .next (s.poweredBase.ready.boot s.coldChoice 1 true) := if_pos h

theorem reset_cold_without_image (s : State) (hstart : s.tmc.mayStart = true)
    (hnone : (bootOrder s.coldChoice).all (fun c => s.fwCheck (s.copy c) != mrOK) = true) :
    Completes (.coldReset) s fun t => t.rd WARDEN_BOOT_PHASE = 5 ∧ t.rd WARDEN_RESET_CAUSE = 1 ∧ t.ao = 0 ∧ t.dram = [] ∧
      t.reqs = [] ∧ t.tmc.nodeRails = true ∧ t.tmc.start = false ∧ t.opts = s.opts ∧ t.fuses = s.fuses ∧ t.pending = s.pending := by
  have hcheck (c : Nat) : s.poweredBase.ready.fwCheck (s.poweredBase.ready.copy c) = s.fwCheck (s.copy c) :=
    (State.fwCheck_of_body s.poweredBase.body_ready c).trans rfl
  obtain ⟨l, hboot⟩ := State.boot_of_no_image (s := s.poweredBase.ready) (by simpa only [hcheck] using hnone) 1 true
  have hexec := exec_coldReset_of_start hstart
  rw [hboot] at hexec
  refine ⟨_, hexec, ?_⟩
  generalize hu : s.poweredBase.ready = u
  have hbody : (((u.wr WARDEN_RESET_CAUSE 1).wr WARDEN_BOOT_PHASE 5).crumb pgWARDEN 0x902 3 l).body = s.poweredBase.body := by
    rw [State.body_crumb, State.body_wr, State.body_wr, ← hu, State.body_ready]
  refine ⟨?_, ?_, (congrArg State.ao hbody :), (congrArg State.dram hbody :), (congrArg State.reqs hbody :),
    (congrArg (fun s : State => s.tmc.nodeRails) hbody :), (congrArg (fun s : State => s.tmc.start) hbody :),
    (congrArg State.opts hbody :), (congrArg State.fuses hbody :), (congrArg State.pending hbody :)⟩
  · rw [State.rd_crumb_ne _ _ _ _ _ (by decide), State.rd_wr_same]
    rfl
  · rw [State.rd_crumb_ne _ _ _ _ _ (by decide), State.rd_wr_ne _ _ (by decide), State.rd_wr_same]
    rfl

/-! ### CONFIG_READY -/

/-- The state whose directory is begun anew, with its store in the DRAM. -/
def State.directoryCleared (s : State) : State :=
  { s with dir := [], frames := [], broken := [], dram := s.dram.filter (fun c => !storeCell c.1) }

def State.configured (s : State) : State := ((s.directoryCleared.wr H_COND 1 pgHOME).wr H_COND 1 pgDIRC).wr WARDEN_BOOT_PHASE 3

theorem exec_configReady_of_trained {s : State} (hphase : s.rd WARDEN_BOOT_PHASE = 2)
    (htrained : channels.all (fun n => s.rd H_COND (pgMCH n) != 0) = true) :
    exec .configReady s = .next (s.configured.raise pgWARDEN I_WARDEN_CONFIG_READY) := if_pos (by simp [hphase, htrained])

theorem reset_configReady (s : State) (hphase : s.rd WARDEN_BOOT_PHASE = 2)
    (htrained : channels.all (fun n => s.rd H_COND (pgMCH n) != 0) = true) :
    Completes (.configReady) s fun t => t.rd WARDEN_BOOT_PHASE = 3 ∧ t.rd H_COND pgHOME = 1 ∧ t.rd H_COND pgDIRC = 1 ∧ t.dir = [] ∧
      bit (t.rd H_INT_STAT pgWARDEN) I_WARDEN_CONFIG_READY = true ∧
      t.core = { s.core with dram := s.dram.filter (fun c => !storeCell c.1) } := by
  have hbody : (s.configured.raise pgWARDEN I_WARDEN_CONFIG_READY).body = s.directoryCleared.body := by
    unfold State.configured
    rw [State.body_raise, State.body_wr, State.body_wr, State.body_wr]
  refine ⟨_, exec_configReady_of_trained hphase htrained, ?_, ?_, ?_, (congrArg State.dir hbody :), State.bit_raise_same _ _ (by decide),
    (congrArg State.core hbody :)⟩
  · rw [State.rd_raise_ne _ _ _ (by decide), State.configured, State.rd_wr_same]
    rfl
  · rw [State.rd_raise_ne _ _ _ (by decide), State.configured, State.rd_wr_ne _ _ (by decide), State.rd_wr_ne _ _ (by decide),
      State.rd_wr_same]
    rfl
  · rw [State.rd_raise_ne _ _ _ (by decide), State.configured, State.rd_wr_ne _ _ (by decide), State.rd_wr_same]
    rfl

/-! ### Warden's cores -/

theorem State.findLockup_of_none {s : State} (h : s.warden.lockup = none) (core : Bool) : s.findLockup core = s := by
  unfold State.findLockup
  rw [h]

theorem reset_heartbeat (s : State) (core : Bool) (hacts : s.acts pgWARDEN = true) (hlock : s.rd (coreState core) ≠ csLock)
    (hcalm : s.rd (coreState core) = csRun ∨ s.warden.lockup = none) :
    Completes (.wardenHeartbeat core) s fun t => t.rd (coreState core) = csRun ∧
      t.rd WARDEN_WARDEN_HB = (s.rd WARDEN_WARDEN_HB + 1) % 2 ^ 32 ∧ t.body = s.body := by
  have hfound : (if s.rd (coreState core) = csRun then
        (s.wr (coreState core) csRun).wr WARDEN_WARDEN_HB ((s.rd WARDEN_WARDEN_HB + 1) % 2 ^ 32)
      else ((s.wr (coreState core) csRun).wr WARDEN_WARDEN_HB ((s.rd WARDEN_WARDEN_HB + 1) % 2 ^ 32)).findLockup core) =
      (s.wr (coreState core) csRun).wr WARDEN_WARDEN_HB ((s.rd WARDEN_WARDEN_HB + 1) % 2 ^ 32) := by
    rcases hcalm with h | h
    · exact if_pos h
    · rw [State.findLockup_of_none (by simpa using h), ite_self]
  have hexec : exec (.wardenHeartbeat core) s = .next
      ((s.wr (coreState core) csRun).wr WARDEN_WARDEN_HB ((s.rd WARDEN_WARDEN_HB + 1) % 2 ^ 32)) :=
    (State.onBlk_acts _ hacts).trans ((if_neg hlock).trans (congrArg _ hfound))
  refine ⟨_, hexec, ?_, ?_, by rw [State.body_wr, State.body_wr]⟩
  · rw [State.rd_wr_ne _ _ (by cases core <;> decide), State.rd_wr_same]
    cases core <;> rfl
  · rw [State.rd_wr_same]
    exact Nat.mod_mod _ _

theorem State.restartCore_of_idle {s : State} (hbusy : s.warden.busy = none) (hprep : s.warden.prep = none)
    (hfresh : s.warden.restarts = [[], []]) (core : Bool) : ∃ w : Warden, s.restartCore core =
      (({ s with warden := w } : State).wr (coreState core) csStart).bump (coreRestarts core) := by
  have hrecent : s.warden.restarts[b2n core]?.getD [] = [] := by
    rw [hfresh]
    cases core <;> rfl
  unfold State.restartCore
  extract_lets i recent s1 src s2 w s3
  have hs1 : s1 = s := (if_neg (by simp [hbusy])).trans (if_neg (by simp [hprep]))
  have hs2 : s2 = s := (if_neg (by simp [hs1, hprep])).trans hs1
  have hnone : recent = [] := by
    unfold recent i
    rw [hrecent, List.filter_nil]
  refine ⟨s3.warden, (if_neg (by simp [hnone])).trans ?_⟩
  unfold s3
  rw [hs2]

theorem reset_lockup_restarted (s : State) (core : Bool) (pc sp : Word) (hacts : s.acts pgWARDEN = true)
    (hrun : s.rd (coreState core) = csRun) (hother : s.rd (coreState (!core)) = csRun) (hbusy : s.warden.busy = none)
    (hprep : s.warden.prep = none) (hfresh : s.warden.restarts = [[], []]) :
    Completes (.coreLockup core pc sp) s fun t => t.rd (coreState core) = csStart ∧ t.rd (coreState (!core)) = csRun ∧
      t.rd (coreRestarts core) = min (2 ^ (coreRestarts core).width - 1) (s.rd (coreRestarts core) + 1) ∧
      bit (t.rd H_INT_STAT pgWARDEN) I_WARDEN_CORE_LOCKUP = true ∧ t.core = s.core := by
  have hexec : exec (.coreLockup core pc sp) s = .next ((s.wr (coreState core) csLock).answerLockup core pc.toNat sp.toNat) :=
    (State.onBlk_acts _ hacts).trans ((if_neg (fun h => h hrun)).trans (if_pos hother))
  generalize hu : ((s.wr (coreState core) csLock).raise pgWARDEN I_WARDEN_CORE_LOCKUP).crumb pgWARDEN 0x901 2
    [b2n core, pc.toNat, sp.toNat] = u
  have hbody : u.body = s.body := by rw [← hu, State.body_crumb, State.body_raise, State.body_wr]
  have hwarden : u.warden = s.warden := (congrArg State.warden hbody :)
  obtain ⟨w, hw⟩ := State.restartCore_of_idle (s := u) (hwarden ▸ hbusy) (hwarden ▸ hprep) (hwarden ▸ hfresh) core
  have hanswer : (s.wr (coreState core) csLock).answerLockup core pc.toNat sp.toNat =
      (({ u with warden := w } : State).wr (coreState core) csStart).bump (coreRestarts core) :=
    (congrArg (State.restartCore · core) hu).trans hw
  refine ⟨_, hexec, ?_, ?_, ?_, ?_, core_of_exec rfl hexec⟩ <;> rw [hanswer]
  · rw [State.rd_bump_ne _ (by cases core <;> decide), State.rd_wr_same]
    cases core <;> rfl
  · rw [State.rd_bump_ne _ (by cases core <;> decide), State.rd_wr_ne _ _ (by cases core <;> decide)]
    refine Eq.trans (b := u.rd (coreState (!core))) rfl ?_
    rw [← hu, State.rd_crumb_ne _ _ _ _ _ (by cases core <;> decide), State.rd_raise_ne _ _ _ (by cases core <;> decide),
      State.rd_wr_ne _ _ (by cases core <;> decide), hother]
  · have hrd : (({ u with warden := w } : State).wr (coreState core) csStart).rd (coreRestarts core) = s.rd (coreRestarts core) := by
      rw [State.rd_wr_ne _ _ (by cases core <;> decide)]
      refine Eq.trans (b := u.rd (coreRestarts core)) rfl ?_
      rw [← hu, State.rd_crumb_ne _ _ _ _ _ (by cases core <;> decide), State.rd_raise_ne _ _ _ (by cases core <;> decide),
        State.rd_wr_ne _ _ (by cases core <;> decide)]
    rw [State.rd_bump_same, hrd]
  · rw [State.rd_bump_ne _ (by cases core <;> decide), State.rd_wr_ne _ _ (by cases core <;> decide)]
    refine Eq.trans (b := bit (u.rd H_INT_STAT pgWARDEN) I_WARDEN_CORE_LOCKUP) rfl ?_
    rw [← hu, State.rd_crumb_ne _ _ _ _ _ (by decide)]
    exact State.bit_raise_same _ _ (by decide)

theorem reset_lockup_alone (s : State) (core : Bool) (pc sp : Word) (hacts : s.acts pgWARDEN = true)
    (hrun : s.rd (coreState core) = csRun) (hother : s.rd (coreState (!core)) ≠ csRun) :
    Completes (.coreLockup core pc sp) s fun t => t.rd (coreState core) = csLock ∧
      t.body = { s.body with warden := { s.warden with lockup := some (pc.toNat, sp.toNat) } } := by
  refine ⟨_, (State.onBlk_acts _ hacts).trans ((if_neg (fun h => h hrun)).trans (if_neg hother)), ?_, ?_⟩
  · refine Eq.trans (b := (s.wr (coreState core) csLock).rd (coreState core)) rfl ?_
    rw [State.rd_wr_same]
    cases core <;> rfl
  · have hwarden : (s.wr (coreState core) csLock).warden = s.warden := (congrArg State.warden (State.body_wr ..) :)
    have hbody := s.body_wr (coreState core) csLock 0 0
    rw [hwarden]
    exact (congrArg (fun v : State => ({ v with warden := { s.warden with lockup := some (pc.toNat, sp.toNat) } } : State)) hbody :)

/-- Settles O42: a boot calls nothing that changes what the reset has set while the node works on nothing. -/
theorem resetsAndCores : Obligations.ResetsAndCores := by
  unfold Obligations.ResetsAndCores
  exact ⟨reset_cold_without_image, reset_warmAssert, reset_refReturn, reset_hbStall, reset_configReady, reset_heartbeat,
    reset_lockup_restarted, reset_lockup_alone⟩

end Sys2Proof.Machine
end

section
/-! The standing of a node in its pair, its modules and the changes of them that are reported: a frame of what a home, a move, a
rotation, a load and a link do. -/
namespace Sys2Proof.Machine

open Reg

/-- What only the Turn, a module's change and its report change. -/
structure Poise where
  turn    : Nat
  leased  : Bool
  synced  : Bool
  modules : Nat → Option Module
  changed : Fin 16 → Bool

def State.moduleAt (s : State) (p : Nat) : Option Module := (s.port p).module

def State.changedAt (s : State) (p : Fin 16) : Bool := bit (s.rd H_INT_STAT (pgFPORT p.val)) I_FPORT_MODULE_CHANGE

def State.poise (s : State) : Poise :=
  { turn := s.twin.turn, leased := s.twin.leased, synced := s.twin.synced, modules := s.moduleAt, changed := s.changedAt }

/-- A field of a page behind the ports' is no INT_STAT of a port. -/
theorem keyOf_stat_ne_of_late_page {f : Field} (hf : 0x20 ≤ f.page) (p : Fin 16) (i x : Nat) :
    keyOf H_INT_STAT (pgFPORT p.val) 0 ≠ keyOf f i x := by
  have hstat : keyOf H_INT_STAT (pgFPORT p.val) 0 < 0x20 * 0x1000 * 64 := by
    unfold keyOf pgFPORT H_INT_STAT
    dsimp only
    omega
  have hlate : 0x20 * 0x1000 * 64 ≤ keyOf f i x := by
    have hpage : 0x20 * 0x1000 ≤ (f.page + i) * 0x1000 := Nat.mul_le_mul_right _ (by omega)
    unfold keyOf
    omega
  exact (Nat.lt_of_lt_of_le hstat hlate).ne

theorem State.poise_of {s t : State} (htwin : t.twin = s.twin) (hlinks : t.links = s.links)
    (hrd : ∀ p : Fin 16, t.changedAt p = s.changedAt p) : t.poise = s.poise := by
  have hmodules : t.moduleAt = s.moduleAt := funext fun p => State.module_of_links hlinks p
  simp [State.poise, htwin, hmodules, funext hrd]

theorem State.changedAt_of_rd {s t : State} (h : ∀ p : Fin 16, t.rd H_INT_STAT (pgFPORT p.val) = s.rd H_INT_STAT (pgFPORT p.val))
    (p : Fin 16) : t.changedAt p = s.changedAt p := by
  unfold State.changedAt
  rw [h p]

@[simp] theorem State.poise_foldl {β : Type} (f : State → β → State) (h : ∀ a b, (f a b).poise = a.poise) (l : List β) (s : State) :
    (l.foldl f s).poise = s.poise := foldl_keeps State.poise f h l s

theorem keyOf_ne_of_place_in_page {f g : Field} (i j : Nat) {x y : Nat}
    (h : ((f.off + x * f.stride) * 64 + f.lo) % 0x40000 ≠ ((g.off + y * g.stride) * 64 + g.lo) % 0x40000) :
    keyOf f i x ≠ keyOf g j y := by
  unfold keyOf
  omega

@[simp] theorem State.poise_wr (s : State) {f : Field} {x : Nat} (hf : ((f.off + x * f.stride) * 64 + f.lo) % 0x40000 ≠ 0x400) (v i : Nat) :
    (s.wr f v i x).poise = s.poise :=
  State.poise_of (congrArg State.twin (State.body_wr ..) :) (State.links_wr ..) <| State.changedAt_of_rd fun _ =>
    State.rd_wr_ne _ _ (keyOf_ne_of_place_in_page _ _ hf.symm)

@[simp] theorem State.poise_wr_late (s : State) {f : Field} (hf : 0x20 ≤ f.page) (v i x : Nat) : (s.wr f v i x).poise = s.poise :=
  State.poise_of (congrArg State.twin (State.body_wr ..) :) (State.links_wr ..) <| State.changedAt_of_rd fun p =>
    State.rd_wr_ne _ _ (keyOf_stat_ne_of_late_page hf p i x)

@[simp] theorem State.poise_bumpBy (s : State) {f : Field} {x : Nat} (hf : ((f.off + x * f.stride) * 64 + f.lo) % 0x40000 ≠ 0x400) (n i : Nat) :
    (s.bumpBy f n i x).poise = s.poise := by
  unfold State.bumpBy
  exact State.poise_wr _ hf ..

@[simp] theorem State.poise_bump (s : State) {f : Field} {x : Nat} (hf : ((f.off + x * f.stride) * 64 + f.lo) % 0x40000 ≠ 0x400) (i : Nat) :
    (s.bump f i x).poise = s.poise := State.poise_bumpBy _ hf ..

theorem State.bit_raise_ne (s : State) {p q c d : Nat} (hd : d < 32) (hc : c ≠ d) :
    bit ((s.raise p c).rd H_INT_STAT q) d = bit (s.rd H_INT_STAT q) d := by
  by_cases hpage : q = p
  · subst hpage
    rw [bit_eq_testBit, bit_eq_testBit, State.rd_raise_same, Nat.testBit_mod_two_pow, Nat.testBit_or, Nat.testBit_two_pow_of_ne hc]
    simp [hd]
  · rw [State.rd_raise_ne _ _ _ (by unfold keyOf H_INT_STAT; dsimp only; omega)]

@[simp] theorem State.poise_raise (s : State) (p : Nat) {c : Nat} (hc : c ≠ I_FPORT_MODULE_CHANGE) : (s.raise p c).poise = s.poise :=
  State.poise_of (congrArg State.twin (State.body_raise ..) :) (State.links_raise ..) fun _ => State.bit_raise_ne _ (by decide) hc

/-- The fields of a watermark group that a sample writes. -/
def groupFields : List Field := [WMK_EXTREME, WMK_CROSSED, WMK_COUNT_]

theorem place_of_group_ne_stat {f : Field} (hf : f ∈ groupFields) {g : Nat} (_ : g < 16) :
    ((f.off + g * f.stride) * 64 + f.lo) % 0x40000 ≠ 0x400 := by
  simp only [groupFields, List.mem_cons, List.not_mem_nil, or_false] at hf
  rcases hf with rfl | rfl | rfl <;> simp only [WMK_EXTREME, WMK_CROSSED, WMK_COUNT_] <;> omega

@[simp] theorem State.poise_sample (s : State) (p : Nat) {g : Nat} (hg : g < 16) (v : Int) : (s.sample p g v).poise = s.poise := by
  have hwmk (w : Tab Wmk) : ({ s with wmk := w } : State).poise = s.poise := rfl
  have hne {f : Field} (hf : f ∈ groupFields) := place_of_group_ne_stat hf hg
  unfold State.sample
  dsimp only
  split
  · split
    · rw [State.poise_raise _ _ (by decide), State.poise_bump _ (hne (by simp [groupFields])),
        State.poise_wr _ (hne (by simp [groupFields])), State.poise_wr _ (hne (by simp [groupFields])), hwmk]
    · rw [State.poise_wr _ (hne (by simp [groupFields])), hwmk]
  · rw [State.poise_wr _ (hne (by simp [groupFields])), hwmk]

theorem State.poise_crumbStore (s : State) (page code sev : Nat) (l : List Nat) : (s.crumbStore page code sev l).poise = s.poise := by
  have hlog (u : State) (e : Evlog) : ({ u with evlog := e } : State).poise = u.poise := rfl
  unfold State.crumbStore
  dsimp only
  split
  · rw [State.poise_raise _ _ (by decide), State.poise_sample _ _ (by decide), hlog]
  · rw [State.poise_sample _ _ (by decide), hlog]

@[simp] theorem State.poise_crumb (s : State) (page code sev : Nat) (l : List Nat) : (s.crumb page code sev l).poise = s.poise := by
  have hlog (e : Evlog) : ({ s with evlog := e } : State).poise = s.poise := rfl
  unfold State.crumb
  dsimp only
  split
  · rw [State.poise_raise _ _ (by decide), State.poise_bump _ (by decide), hlog]
  · exact State.poise_crumbStore ..

@[simp] theorem State.poise_with (s : State) (freeCtr : Nat) (outs : List Out) (cfgOpen cfgDrain cfgStaged : Tab Nat) (wmk : Tab Wmk)
    (wins : Tab Nat) (reqs : List Req) (nextId nextOrder : Nat) (shape : Shape) (agents : Tab Agent) (dir : List DirEnt)
    (frames : List (Nat × Bool)) (trks : List Trk) (openTx : List (Nat × Nat)) (owed : List (Nat × Nat × Nat × Nat)) (fences : List Fence)
    (broken : List Broken) (scan : Option Scan) (moves : Tab Move) (slots : Tab KeySlot) (rot : Option Rot) (lastGen : Tab Nat)
    (queues : Tab Queue) (mchs : Tab Mch) (ctxs : Tab Ctx) (bakes : List Bake) (plans : List Plan) (loads : List Load)
    (evlog : Evlog) (twin : Twin) (jobs : List JobRec) (tally : Tab (List Nat)) (tmc : Tmc) (warden : Warden) : State.poise { s with
      freeCtr := freeCtr, outs := outs, cfgOpen := cfgOpen, cfgDrain := cfgDrain, cfgStaged := cfgStaged, wmk := wmk, wins := wins,
      reqs := reqs, nextId := nextId, nextOrder := nextOrder, shape := shape, agents := agents, dir := dir, frames := frames, trks := trks,
      openTx := openTx, owed := owed, fences := fences, broken := broken, scan := scan, moves := moves, slots := slots, rot := rot,
      lastGen := lastGen, queues := queues, mchs := mchs, ctxs := ctxs, bakes := bakes, plans := plans, loads := loads, evlog := evlog,
      twin := twin, jobs := jobs, tally := tally, tmc := tmc, warden := warden } =
    { s.poise with turn := twin.turn, leased := twin.leased, synced := twin.synced } := rfl

@[simp] theorem State.poise_eta (s : State) :
    Poise.mk s.twin.turn s.twin.leased s.twin.synced s.poise.modules s.poise.changed = s.poise := rfl

theorem State.poise_setPort (s : State) {p : Nat} {c : Port} (h : c.module = s.moduleAt p) : (s.setPort p c).poise = s.poise := by
  have hmodules : (s.setPort p c).moduleAt = s.moduleAt := by
    funext q
    by_cases hq : q = p
    · subst hq
      unfold State.moduleAt at h ⊢
      rw [State.port_setPort_same, h]
    · unfold State.moduleAt
      rw [State.port_setPort_ne _ _ hq]
  show Poise.mk _ _ _ _ _ = _
  rw [hmodules]
  rfl

@[simp] theorem State.poise_out (s : State) (o : Out) : (s.out o).poise = s.poise := rfl

@[simp] theorem State.poise_free (s : State) : s.free.2.poise = s.poise := rfl

@[simp] theorem State.poise_nextOrd (s : State) : s.nextOrd.2.poise = s.poise := rfl

@[simp] theorem State.poise_count (s : State) (cls tid job n : Nat) : (s.count cls tid job n).poise = s.poise := rfl

@[simp] theorem State.poise_updReq (s : State) (rid : Nat) (f : Req → Req) : (s.updReq rid f).poise = s.poise := rfl

@[simp] theorem State.poise_dropReq (s : State) (rid : Nat) : (s.dropReq rid).poise = s.poise := rfl

theorem State.changedAt_emitFlit (s : State) (q ty : Nat) (l : List Slot) (c : Bool) (p : Fin 16) :
    (s.emitFlit q ty l c).changedAt p = s.changedAt p := by
  unfold State.emitFlit
  dsimp only
  split <;> rfl

@[simp] theorem State.poise_emitFlit (s : State) (p ty : Nat) (l : List Slot) (c : Bool) : (s.emitFlit p ty l c).poise = s.poise :=
  State.poise_of (congrArg State.twin (State.body_emitFlit ..) :) (State.links_emitFlit ..) (s.changedAt_emitFlit p ty l c)

@[simp] theorem State.poise_send (s : State) (p : Nat) (m : Msg) (t j : Nat) (tag : Option RspTag) : (s.send p m t j tag).poise = s.poise :=
  State.poise_of (congrArg State.twin (State.body_sendTag ..) :) (State.links_send ..) <| State.changedAt_of_rd fun q =>
    State.rd_send_ne _ _ _ _ _ fun p => keyOf_ne_of_offset _ _ (by decide)

@[simp] theorem State.poise_sendAgent (s : State) (a : Nat) (m : Msg) (t j : Nat) : (s.sendAgent a m t j).poise = s.poise := by
  unfold State.sendAgent
  repeat' split
  all_goals simp (disch := decide)

end Sys2Proof.Machine
end

section
/-! The frame of `poise`: what the operations of the home, of the moves, of the rotation and of the links leave. -/
namespace Sys2Proof.Machine

open Reg

@[simp] theorem State.poise_sampleOut (s : State) (r : Req) : (State.sampleOut s r).poise = s.poise := by
  unfold State.sampleOut
  dsimp only
  split <;> simp (disch := decide)

@[simp] theorem State.poise_cxlAnswer (s : State) (r : Req) (status grant : Nat) (data : Option (BitVec 512)) (load : Nat) :
    (s.cxlAnswer r status grant data load).poise = s.poise := by
  have hevents (u : State) (l : List (Nat × Nat)) : (u.setPort r.port { u.port r.port with cxlEvents := l }).poise = u.poise :=
    State.poise_setPort _ rfl
  unfold State.cxlAnswer
  dsimp only
  repeat' split
  all_goals simp [hevents]

@[simp] theorem State.poise_respond (s : State) (r : Req) (status grant : Nat) (data : Option (BitVec 512)) (next : Nat) (load : Option Nat) :
    (State.respond s r status grant data next load).poise = s.poise := by
  unfold State.respond
  dsimp only
  repeat' split
  all_goals simp (disch := decide)

@[simp] theorem State.poise_finish (s : State) (rid status grant : Nat) (data : Option (BitVec 512)) (next : Nat) (load : Option Nat) :
    (State.finish s rid status grant data next load).poise = s.poise := by
  unfold State.finish
  split <;> simp (disch := decide)

@[simp] theorem State.poise_twSend (s : State) (m : Msg) (tid job : Nat) : (State.twSend s m tid job).poise = s.poise := by
  unfold State.twSend
  split <;> simp (disch := decide)

@[simp] theorem State.poise_twMoved (s was : State) (back : Option Nat) : (s.twMoved was back).poise = s.poise := by
  have hlost : (if s.twLost && !was.twLost then s.raise pgTWIN I_TWIN_PARTNER_LOST else s).poise = s.poise := by
    split
    · exact State.poise_raise _ _ (by decide)
    · rfl
  unfold State.twMoved
  split
  · extract_lets u
    split
    · exact hlost
    · split
      · exact hlost
      · extract_lets s1 _ s2
        have hs1 : s1.poise = u.poise := by
          unfold s1
          split
          · exact State.poise_bump _ (by decide) _
          · rfl
        exact ((State.poise_foldl _ (fun a _ => State.poise_twSend ..) _ s2).trans hs1).trans hlost
  · rfl

@[simp] theorem State.poise_twSeq (s : State) (opc : Nat) (fields : List (Nat × Nat × Nat)) (data : List Slot) (tid job : Nat) :
    (State.twSeq s opc fields data tid job).2.poise = s.poise := by
  unfold State.twSeq
  dsimp only
  split <;> simp (disch := decide)

@[simp] theorem State.poise_twDelta (s : State) (la region : Nat) (e : Option DirEnt) (pend : Bool) (tid job : Nat) :
    (State.twDelta s la region e pend tid job).2.poise = s.poise := by
  unfold State.twDelta
  dsimp only
  split <;> simp (disch := decide)

@[simp] theorem State.poise_finishGated (s : State) (gate : Option Nat) (rid status grant : Nat) (data : Option (BitVec 512)) :
    (State.finishGated s gate rid status grant data).poise = s.poise := by
  unfold State.finishGated
  dsimp only
  repeat' split
  all_goals simp (disch := decide)

@[simp] theorem State.poise_backInv (s : State) (p kind la addr : Nat) : (s.backInv p kind la addr).poise = s.poise := by
  unfold State.backInv
  exact (State.poise_out ..).trans (State.poise_setPort _ rfl)

@[simp] theorem State.poise_setMove (s : State) (n : Nat) (v : Move) : (State.setMove s n v).poise = s.poise := rfl

@[simp] theorem State.poise_setQueue (s : State) (q : Nat) (v : Queue) : (State.setQueue s q v).poise = s.poise := rfl

@[simp] theorem State.poise_enqueue (s : State) (q : Nat) (e : Entry) : (State.enqueue s q e).poise = s.poise := rfl

@[simp] theorem State.poise_readLine (s : State) (r : Req) (why : ReadFor) (key : Option (BitVec 512)) : (State.readLine s r why key).poise = s.poise := rfl

@[simp] theorem State.poise_sealedData (s : State) (ep region : Nat) (key : Option (BitVec 512)) (data : BitVec 512) :
    (State.sealedData s ep region key data).2.poise = s.poise := by
  unfold State.sealedData
  split <;> simp (disch := decide)

@[simp] theorem State.poise_writeLine (s : State) (off region tid job ep : Nat) (req : Option Nat) (data : BitVec 512) (poison : Bool) (key : Option (BitVec 512)) :
    (State.writeLine s off region tid job ep req data poison key).poise = s.poise := by
  unfold State.writeLine
  simp (disch := decide)

@[simp] theorem State.poise_sampleDir (s : State) : (State.sampleDir s).poise = s.poise := by
  unfold State.sampleDir
  simp (disch := decide)

@[simp] theorem State.poise_putEnt (s : State) (la : Nat) (new : Option DirEnt) : (State.putEnt s la new).poise = s.poise := by
  unfold State.putEnt
  simp (disch := decide)

@[simp] theorem State.poise_writeSet (s : State) (set : Nat) : (s.writeSet set).poise = s.poise :=
  State.poise_foldl _ (fun a _ => State.poise_enqueue a ..) _ _

@[simp] theorem State.poise_fillFrame (s : State) (set : Nat) : (s.fillFrame set).poise = s.poise := by
  unfold State.fillFrame
  extract_lets same
  split
  · rfl
  · split
    · rfl
    · extract_lets s1
      have hs1 : s1.poise = s.poise := by
        unfold s1
        split <;> simp
      exact (State.poise_with s1 ..).trans ((State.poise_eta s1).trans hs1)

@[simp] theorem State.poise_readSet (s : State) (set tid job ep : Nat) (rid : Option Nat) : (s.readSet set tid job ep rid).poise = s.poise :=
  State.poise_foldl _ (fun a _ => State.poise_enqueue a ..) _ _

@[simp] theorem State.poise_setEnt (s : State) (la : Nat) (new : Option DirEnt) : (State.setEnt s la new).poise = s.poise := by
  unfold State.setEnt
  dsimp only
  split <;> simp (disch := decide)

@[simp] theorem State.poise_openLine (s : State) (la rid : Nat) : (State.openLine s la rid).poise = s.poise := rfl

@[simp] theorem State.poise_closeLine (s : State) (la : Nat) : (State.closeLine s la).poise = s.poise := rfl

@[simp] theorem State.poise_serveMem (s : State) (r : Req) (grant : Nat) (change : Bool) (new : Option DirEnt) :
    (State.serveMem s r grant change new).poise = s.poise := by
  unfold State.serveMem
  dsimp only
  split <;> simp (disch := decide)

@[simp] theorem State.poise_serveWrite (s : State) (r : Req) : (State.serveWrite s r).poise = s.poise := by
  unfold State.serveWrite
  simp (disch := decide)

@[simp] theorem State.poise_serveMerge (s : State) (r : Req) : (State.serveMerge s r).poise = s.poise := rfl

@[simp] theorem State.poise_dropHolder (s : State) (r : Req) (new : Option DirEnt) : (State.dropHolder s r new).poise = s.poise := by
  unfold State.dropHolder
  simp (disch := decide)

@[simp] theorem State.poise_storeAnswer (s : State) (t : Trk) (d : BitVec 512) (poison : Bool) :
    (State.storeAnswer s t d poison).poise = s.poise := by
  unfold State.storeAnswer
  dsimp only
  repeat' split
  all_goals simp (disch := decide)

@[simp] theorem State.poise_serveFwd (s : State) (t : Trk) : (State.serveFwd s t).poise = s.poise := by
  unfold State.serveFwd
  dsimp only
  repeat' split
  all_goals simp (disch := decide)

@[simp] theorem State.poise_holderGone (s : State) (t : Trk) (aid : Nat) : (State.holderGone s t aid).poise = s.poise := by
  unfold State.holderGone
  dsimp only
  split <;> simp (disch := decide)

@[simp] theorem State.poise_absorb (s : State) (t : Trk) (r : Req) : (State.absorb s t r).poise = s.poise := by
  unfold State.absorb
  dsimp only
  split <;> simp (disch := decide)

@[simp] theorem State.poise_freeBroken (s : State) (set : Nat) : (State.freeBroken s set).poise = s.poise := by
  unfold State.freeBroken
  repeat' split
  all_goals simp (disch := decide)

@[simp] theorem State.poise_markSettled (s : State) (la : Nat) : (State.markSettled s la).poise = s.poise := by
  unfold State.markSettled
  simp (disch := decide)

@[simp] theorem State.poise_wakeSet (s : State) (set : Nat) : (State.wakeSet s set).poise = s.poise := by
  unfold State.wakeSet
  split <;> simp (disch := decide)

@[simp] theorem State.poise_endReq (s : State) (rid : Nat) : (State.endReq s rid).poise = s.poise := by
  unfold State.endReq
  split <;> simp (disch := decide)

@[simp] theorem State.poise_readOwn (s : State) (r : Req) : (State.readOwn s r).poise = s.poise := rfl

@[simp] theorem State.poise_migrSend (s : State) (nid : Nat) (m : Msg) : (State.migrSend s nid m).poise = s.poise := by
  unfold State.migrSend
  split <;> simp (disch := decide)

@[simp] theorem State.poise_migrComplete (s : State) (n : Nat) : (State.migrComplete s n).poise = s.poise := by
  unfold State.migrComplete
  dsimp only
  repeat' split
  all_goals simp (disch := decide)

@[simp] theorem State.poise_migrRead (s : State) (r : Req) : (State.migrRead s r).poise = s.poise := by
  unfold State.migrRead
  dsimp only
  split <;> simp (disch := decide)

@[simp] theorem State.poise_forwarded (s : State) (r : Req) : (State.forwarded s r).poise = s.poise := by
  unfold State.forwarded
  split <;> simp (disch := decide)

@[simp] theorem State.poise_bracket (s : State) (t : Trk) (r : Req) : (State.bracket s t r).poise = s.poise := by
  unfold State.bracket
  dsimp only
  repeat' split
  all_goals simp (disch := decide)

@[simp] theorem State.poise_endTrk (s : State) (t : Trk) : (State.endTrk s t).poise = s.poise := by
  unfold State.endTrk
  dsimp only
  repeat' split
  all_goals simp (disch := decide)

@[simp] theorem State.poise_answered (s : State) (t : Trk) : (State.answered s t).poise = s.poise := by
  unfold State.answered
  dsimp only
  split <;> simp (disch := decide)

@[simp] theorem State.poise_takeAnswer (s : State) (t : Trk) (aid : Nat) (d : Option (BitVec 512 × Bool)) :
    (State.takeAnswer s t aid d).poise = s.poise := by
  unfold State.takeAnswer
  dsimp only
  repeat' split
  all_goals simp (disch := decide)

@[simp] theorem State.poise_homeArrive (s : State) (rid : Nat) : (s.homeArrive rid).poise = s.poise := by
  have hwait (u : State) (f : Req → Req) : ((u.updReq rid f).bump HOME_CONFLICT_WAITS).poise = u.poise :=
    (State.poise_bump _ (by decide) _).trans (State.poise_updReq ..)
  unfold State.homeArrive
  split
  · rfl
  · dsimp only
    split
    · split
      · simp
      · split
        · refine (State.poise_answered ..).trans ((State.poise_bump _ (by decide) _).trans ?_)
          exact (hwait s.nextOrd.2 _).trans (State.poise_nextOrd s)
        · exact (hwait s.nextOrd.2 _).trans (State.poise_nextOrd s)
    · refine (State.poise_sample _ _ (by decide) _).trans ?_
      split
      · exact (hwait s.nextOrd.2 _).trans (State.poise_nextOrd s)
      · rfl

@[simp] theorem State.poise_sweepCount (s : State) (aid poisoned dropped : Nat) :
    (State.sweepCount s aid poisoned dropped).poise = s.poise := by
  unfold State.sweepCount
  split <;> simp (disch := decide)

@[simp] theorem State.poise_poisonLine (s : State) (off region tid job : Nat) : (State.poisonLine s off region tid job).poise = s.poise := rfl

@[simp] theorem State.poise_applySweep (s : State) (la : Nat) : (s.applySweep la).poise = s.poise := by
  unfold State.applySweep
  dsimp only
  split
  · rfl
  · split
    · rfl
    · split
      · split <;> simp
      · split
        · rfl
        · exact (State.poise_foldl _ (fun a _ => State.poise_sweepCount a ..) _ _).trans ((State.poise_twDelta ..).trans (State.poise_setEnt ..))

@[simp] theorem State.poise_endTx (s : State) (la : Nat) : (State.endTx s la).poise = s.poise := by
  unfold State.endTx
  simp (disch := decide)

@[simp] theorem State.poise_settleEnd (s : State) (la : Nat) : (State.settleEnd s la).poise = s.poise := by
  unfold State.settleEnd
  split <;> simp (disch := decide)

@[simp] theorem State.poise_lossForward (s : State) (t : Trk) : (State.lossForward s t).poise = s.poise := by
  unfold State.lossForward
  dsimp only
  repeat' split
  all_goals simp (disch := decide)

@[simp] theorem State.poise_passTrk (s : State) (aid slot : Nat) : (State.passTrk s aid slot).poise = s.poise := by
  unfold State.passTrk
  repeat' split
  all_goals simp (disch := decide)

@[simp] theorem State.poise_trackerPass (s : State) (aid : Nat) : (s.trackerPass aid).poise = s.poise := by
  unfold State.trackerPass
  extract_lets s1
  have hs1 : s1.poise = s.poise := State.poise_foldl _ (fun a n => State.poise_passTrk a ..) _ _
  exact (State.poise_with s1 ..).trans ((State.poise_eta s1).trans hs1)

@[simp] theorem State.poise_purgeTx (s : State) (aid : Nat) : (s.purgeTx aid).poise = s.poise := by
  refine State.poise_foldl _ (fun a p => ?_) _ _
  extract_lets gone
  split
  · rfl
  · exact (State.poise_bumpBy _ (by decide) ..).trans (State.poise_setPort _ rfl)

@[simp] theorem State.poise_setAgent (s : State) (aid : Nat) (a : Agent) : (State.setAgent s aid a).poise = s.poise := rfl

@[simp] theorem State.poise_joinSweep (s : State) (aid : Nat) : (State.joinSweep s aid).poise = s.poise := rfl

@[simp] theorem State.poise_declare (s : State) (aid cause : Nat) : (State.declare s aid cause).poise = s.poise := by
  unfold State.declare
  dsimp only
  repeat' split
  all_goals simp (disch := decide)

@[simp] theorem State.poise_copyCmis (s : State) (p : Nat) (m : Option Module) : (s.copyCmis p m).poise = s.poise := by
  unfold State.copyCmis
  extract_lets z v s1
  have hs1 : s1.poise = s.poise := by
    unfold s1
    simp (disch := decide)
  rw [show List.range 4 = [0, 1, 2, 3] from rfl]
  simp (disch := decide) only [List.foldl, State.poise_wr, hs1]

@[simp] theorem State.poise_clearLink (s : State) (p : Nat) : (s.clearLink p).poise = s.poise := by
  unfold State.clearLink
  extract_lets c
  refine (State.poise_wr _ (by decide) _ _).trans ?_
  refine (State.poise_foldl _ (fun a x => ?_) _ _).trans (State.poise_setPort _ rfl)
  split <;> simp (disch := decide)

@[simp] theorem State.poise_goDown (s : State) (p reason : Nat) (dn : Bool) : (s.goDown p reason dn).poise = s.poise := by
  unfold State.goDown
  extract_lets c wasAlive s1 s4 held s5 s6 role
  have hs4 : s4.poise = s.poise := by
    unfold s4 s1
    rw [State.poise_wr _ (by decide), State.poise_clearLink]
    split <;> simp
  have hs5 : s5.poise = s.poise := by
    unfold s5
    split
    · rw [State.poise_crumb, State.poise_raise _ _ (by decide), hs4]
    · exact hs4
  have hs6 : s6.poise = s.poise := (State.poise_bump _ (by decide) _).trans hs5
  split
  · split
    · rw [State.poise_declare, hs6]
    · split
      · rw [State.poise_twMoved, hs6]
      · exact (State.poise_foldl _ (fun a _ => State.poise_declare a ..) _ _).trans hs6
  · exact hs5

@[simp] theorem State.poise_attemptOne (s : State) (p : Nat) : (s.attemptOne p).poise = s.poise := by
  have hset (train : Train) (mode : Nat) : (s.setPort p { (s.port p).unlinked with train := train, mode := mode }).poise = s.poise :=
    State.poise_setPort _ rfl
  unfold State.attemptOne
  dsimp only
  split <;> simp (disch := decide) [hset]

theorem State.poise_trainBy {s : State} (p : Nat) (fresh : Bool) {go : State → State}
    (hgo : ∀ u : State, u.poise = s.poise → (go u).poise = s.poise) : (s.trainBy p fresh go).poise = s.poise := by
  unfold State.trainBy
  extract_lets c
  split
  · split
    · extract_lets s1
      have hs1 : s1.poise = s.poise := State.poise_copyCmis ..
      split
      · extract_lets s2
        have hs2 : s2.poise = s.poise := (State.poise_wr _ (by decide) _ _).trans hs1
        split
        · rw [State.poise_raise _ _ (by decide), hs2]
        · exact hs2
      · split
        · exact hs1
        · refine hgo _ ((State.poise_setPort s1 ?_).trans hs1)
          exact (congrFun (congrArg Poise.modules hs1) p).symm
    · rfl
  · rfl

@[simp] theorem State.poise_attempt (s : State) (p : Nat) : (s.attempt p).poise = s.poise := by
  unfold State.attempt
  extract_lets was cxl
  split
  · exact State.poise_attemptOne ..
  · split
    · rw [State.poise_attemptOne]
      split <;> simp
    · split
      · exact (State.poise_trainBy _ _ (fun u hu => (State.poise_attemptOne u _).trans hu)).trans (State.poise_attemptOne ..)
      · exact State.poise_attemptOne ..

@[simp] theorem State.poise_endAt3 (s : State) (rid status next : Nat) : (State.endAt3 s rid status next).poise = s.poise := by
  unfold State.endAt3
  dsimp only
  repeat' split
  all_goals simp (disch := decide)

@[simp] theorem State.poise_resolved (s : State) (r : Req) (pga : Nat) : (State.resolved s r pga).poise = s.poise := by
  unfold State.resolved
  split <;> simp (disch := decide)

@[simp] theorem State.poise_withPga (s : State) (r : Req) (pga : Nat) : (State.withPga s r pga).poise = s.poise := by
  unfold State.withPga
  repeat' split
  all_goals simp (disch := decide)

@[simp] theorem State.poise_releaseHeld (s : State) (n : Nat) : (s.releaseHeld n).poise = s.poise :=
  State.poise_foldl _ (fun a _ => State.poise_withPga a ..) _ _

@[simp] theorem State.poise_updBake (s : State) (bid : Nat) (f : Bake → Bake) : (State.updBake s bid f).poise = s.poise := rfl

@[simp] theorem State.poise_regrant (s : State) : s.regrant.poise = s.poise := by
  refine State.poise_foldl _ (fun a b => ?_) _ _
  dsimp only
  repeat' split
  all_goals simp

@[simp] theorem State.poise_sampleCtx (s : State) (rce : Nat) : (State.sampleCtx s rce).poise = s.poise := by
  unfold State.sampleCtx
  simp (disch := decide)

@[simp] theorem State.poise_freeCtxs (s : State) : s.freeCtxs.poise = s.poise := by
  unfold State.freeCtxs
  extract_lets held free gone s1
  split
  · rfl
  · exact (State.poise_foldl _ (fun a c => State.poise_sampleCtx a ..) _ s1).trans rfl

@[simp] theorem State.poise_planReads (s : State) (r : Req) (off region i n : Nat) : (s.planReads r off region i n).poise = s.poise := by
  refine State.poise_foldl _ (fun a j => ?_) _ _
  exact (State.poise_homeArrive ..).trans rfl

@[simp] theorem State.poise_updLoad (s : State) (rid : Nat) (f : Load → Load) : (State.updLoad s rid f).poise = s.poise := rfl

@[simp] theorem State.poise_startLoad (s : State) : (State.startLoad s).poise = s.poise := by
  unfold State.startLoad
  dsimp only
  repeat' split
  all_goals simp (disch := decide)

@[simp] theorem State.poise_loadDone (s : State) (rid status : Nat) : (State.loadDone s rid status).poise = s.poise := by
  unfold State.loadDone
  simp (disch := decide)

@[simp] theorem State.poise_bakeDone (s : State) (bid : Nat) : (State.bakeDone s bid).poise = s.poise := by
  unfold State.bakeDone
  dsimp only
  split <;> simp (disch := decide)

@[simp] theorem State.poise_rotFinish (s : State) (slot : Nat) : (State.rotFinish s slot).poise = s.poise := by
  unfold State.rotFinish
  simp (disch := decide)

@[simp] theorem State.poise_rotNextOver (n : Nat) (s : State) : (State.rotNextOver n s).poise = s.poise := by
  induction n generalizing s with
  | zero => rfl
  | succ k ih =>
    unfold State.rotNextOver
    repeat' split
    · rfl
    · rfl
    · rw [ih, State.poise_rotFinish]

@[simp] theorem State.poise_rotNext (s : State) : (State.rotNext s).poise = s.poise := by
  unfold State.rotNext
  simp (disch := decide)

@[simp] theorem State.poise_rotPut (s : State) (r : Rot) (p : Option (Nat × Nat)) : (State.rotPut s r p).poise = s.poise := by
  unfold State.rotPut
  split <;> simp (disch := decide)

@[simp] theorem State.poise_rotAdvance (s : State) : (State.rotAdvance s).poise = s.poise := by
  unfold State.rotAdvance
  split <;> simp (disch := decide)

@[simp] theorem State.poise_rekeyDone (s : State) (r : Req) : (State.rekeyDone s r).poise = s.poise := by
  unfold State.rekeyDone
  dsimp only
  repeat' split
  all_goals simp (disch := decide)

@[simp] theorem State.poise_migrAckSend (s : State) (n : Nat) : (State.migrAckSend s n).poise = s.poise := by
  unfold State.migrAckSend
  simp (disch := decide)

@[simp] theorem State.poise_migrStored (s : State) (r : Req) : (State.migrStored s r).poise = s.poise := by
  unfold State.migrStored
  dsimp only
  repeat' split
  all_goals simp (disch := decide)

@[simp] theorem State.poise_rowCopyDone (s : State) (bid : Nat) : (State.rowCopyDone s bid).poise = s.poise := by
  unfold State.rowCopyDone
  dsimp only
  repeat' split
  all_goals simp (disch := decide)

@[simp] theorem State.poise_twAckSend (s : State) : s.twAckSend.poise = s.poise := by
  unfold State.twAckSend
  extract_lets t n
  split
  · rfl
  · exact (State.poise_twSend ..).trans rfl

@[simp] theorem State.poise_twStored (s : State) (tseq : Nat) : (State.twStored s tseq).poise = s.poise := by
  unfold State.twStored
  dsimp only
  split <;> simp (disch := decide)

@[simp] theorem State.poise_answerStored (s : State) (slot la : Nat) : (State.answerStored s slot la).poise = s.poise := by
  unfold State.answerStored
  split <;> simp (disch := decide)

@[simp] theorem State.poise_nodeWritten (s : State) (r : Req) : (State.nodeWritten s r).poise = s.poise := by
  unfold State.nodeWritten
  dsimp only
  repeat' split
  all_goals simp (disch := decide)

@[simp] theorem State.poise_writeDone (s : State) (rid : Nat) : (State.writeDone s rid).poise = s.poise := by
  unfold State.writeDone
  repeat' split
  all_goals simp (disch := decide)

@[simp] theorem State.poise_twGo (s : State) (ns : List Nat) : (s.twGo ns).poise = s.poise := by
  unfold State.twGo
  extract_lets gs ws src s1 s2
  have hs2 : s2.poise = s.poise := by
    refine (State.poise_foldl _ (fun a g => ?_) _ s1).trans rfl
    split <;> simp
  exact (State.poise_foldl _ (fun a w => State.poise_writeDone a ..) _ s2).trans hs2

@[simp] theorem State.poise_mergeAccepted (s : State) (rid : Nat) : (State.mergeAccepted s rid).poise = s.poise := by
  unfold State.mergeAccepted
  repeat' split
  all_goals simp (disch := decide)

@[simp] theorem State.poise_unmirror (s : State) : s.unmirror.poise = s.poise :=
  (State.poise_foldl _ (fun a i => State.poise_mergeAccepted a i) _ _).trans rfl

theorem State.poise_twQuit (s : State) : s.twQuit.poise = { s.poise with leased := false, synced := false } := by
  unfold State.twQuit
  extract_lets ns src s1 s2
  have hs1 : s1.poise = { s.poise with leased := false, synced := false } := rfl
  have hs2 : s2.poise = s1.poise := by
    unfold s2
    rw [State.poise_sample _ _ (by decide), State.poise_twGo, State.poise_unmirror]
  exact ((State.poise_with s2 ..).trans (State.poise_eta s2)).trans (hs2.trans hs1)

end Sys2Proof.Machine
end

section
/-! O6: the steps of training, the attempts and the change of a module. -/
namespace Sys2Proof.Machine

open Reg

theorem exec_trainingStepDone {s : State} {port : Fin 16} (lanes : BitVec 2) (hacts : s.acts (pgFPORT port.val) = true) {u : State}
    (hstep : s.trainStep port.val lanes.toNat = u) : exec (.trainingStepDone port lanes) s = .next u :=
  (State.onBlk_acts _ hacts).trans (congrArg _ hstep)

theorem State.train_setState (s : State) (p : Nat) (t : Train) : ((s.setState p t).port p).train = t := by
  unfold State.setState
  rw [State.port_setPort_same]

theorem training_lock (s : State) (port : Fin 16) (lanes : BitVec 2) (n : Nat) (hacts : s.acts (pgFPORT port.val) = true)
    (htrain : (s.port port.val).train = .step n) (hn : n = 2 ∨ n = 3) : Completes (.trainingStepDone port lanes) s fun t =>
      (t.port port.val).train = .step (n + 1) ∧ t.body = s.body ∧ t.regs = s.regs := by
  have hstep : s.trainStep port.val lanes.toNat = s.setState port.val (.step (n + 1)) := by
    simp [State.trainStep, htrain, hn]
  exact ⟨_, exec_trainingStepDone lanes hacts hstep, s.train_setState .., rfl, rfl⟩

theorem training_width (s : State) (port : Fin 16) (lanes : BitVec 2) (hacts : s.acts (pgFPORT port.val) = true)
    (htrain : (s.port port.val).train = .step 4) (hok : s.widthOk port.val lanes.toNat = true) :
    Completes (.trainingStepDone port lanes) s fun t => (t.port port.val).train = .step 5 ∧
      t.rd FPORT_WIDTH port.val = lanes.toNat ∧ t.body = s.body := by
  have hstep : s.trainStep port.val lanes.toNat = (s.setState port.val (.step 5)).wr FPORT_WIDTH lanes.toNat port.val := by
    simp [State.trainStep, htrain, hok]
  refine ⟨_, exec_trainingStepDone lanes hacts hstep, ?_, ?_, State.body_wr ..⟩
  · rw [State.train_of_links (State.links_wr ..), State.train_setState]
  · rw [State.rd_wr_same]
    exact Nat.mod_eq_of_lt lanes.isLt

theorem training_fec (s : State) (port : Fin 16) (lanes : BitVec 2) (hacts : s.acts (pgFPORT port.val) = true)
    (htrain : (s.port port.val).train = .step 5) : Completes (.trainingStepDone port lanes) s fun t =>
      (t.port port.val).train = .step (if (s.port port.val).mode = 1 then 9 else 6) ∧ t.body = s.body ∧ t.regs = s.regs := by
  have hstep : s.trainStep port.val lanes.toNat = if (s.port port.val).mode = 1 then s.setState port.val (.step 9)
      else (s.setState port.val (.step 6)).sendParams port.val := by
    simp [State.trainStep, htrain]
  refine ⟨_, exec_trainingStepDone lanes hacts hstep, ?_⟩
  split
  · exact ⟨s.train_setState .., rfl, rfl⟩
  · exact ⟨s.train_setState port.val _, rfl, rfl⟩

theorem training_plain (s : State) (port : Fin 16) (lanes : BitVec 2) (hacts : s.acts (pgFPORT port.val) = true)
    (htrain : (s.port port.val).train = .step 8) (hwant : s.wantEnc port.val = false) :
    Completes (.trainingStepDone port lanes) s fun t => (t.port port.val).train = .step 9 ∧
      (t.port port.val).txCrypt = (s.port port.val).txCrypt ∧ t.body = s.body ∧ t.regs = s.regs := by
  have hstep : s.trainStep port.val lanes.toNat = s.setState port.val (.step 9) := by
    simp [State.trainStep, htrain, hwant]
  refine ⟨_, exec_trainingStepDone lanes hacts hstep, s.train_setState .., ?_, rfl, rfl⟩
  unfold State.setState
  rw [State.port_setPort_same]

/-! ### The first KEY_SWITCH -/

theorem keys_sealFlit (c : LinkCrypt) (f : Flit) (close : Bool) : (sealFlit c f close).2.keys = c.keys := by
  unfold sealFlit
  dsimp only
  repeat' split
  all_goals rfl

theorem State.keys_emitFlit (s : State) (p ty : Nat) (l : List Slot) (close : Bool) :
    ((s.emitFlit p ty l close).port p).txCrypt.keys = (s.port p).txCrypt.keys := by
  unfold State.emitFlit
  dsimp only
  split
  · rfl
  · rw [State.port_out, State.port_setPort_same]
    dsimp only
    split
    · exact keys_sealFlit ..
    · rfl

/-- A switch to a key set that is loaded leaves the transmitter encrypting under it. -/
theorem State.crypt_sendKeySwitch {s : State} {p : Nat} {set : Bool} (h : (s.port p).txCrypt.loaded set = true) :
    ((s.sendKeySwitch p set).port p).txCrypt.active = true ∧ ((s.sendKeySwitch p set).port p).txCrypt.key.isSome = true := by
  unfold State.sendKeySwitch
  dsimp only
  rw [State.port_setPort_same]
  refine ⟨rfl, ?_⟩
  unfold LinkCrypt.key
  dsimp only
  rw [State.keys_emitFlit]
  exact h

theorem training_encrypts (s : State) (port : Fin 16) (lanes : BitVec 2) (set : Bool) (hacts : s.acts (pgFPORT port.val) = true)
    (htrain : (s.port port.val).train = .step 8) (hwant : s.wantEnc port.val = true) (hset : (s.port port.val).txCrypt.loaded set = true) :
    Completes (.trainingStepDone port lanes) s fun t => (t.port port.val).train = .step 9 ∧
      (t.port port.val).txCrypt.active = true ∧ (t.port port.val).txCrypt.key.isSome = true ∧ t.body = s.body ∧ t.regs = s.regs := by
  obtain ⟨next, hnext, hstep⟩ : ∃ next, (s.port port.val).txCrypt.loaded next = true ∧
      s.trainStep port.val lanes.toNat = (s.sendKeySwitch port.val next).setState port.val (.step 9) := by
    refine ⟨if (s.port port.val).txCrypt.loaded (s.port port.val).txCrypt.sel then (s.port port.val).txCrypt.sel
      else !(s.port port.val).txCrypt.sel, ?_, ?_⟩
    · split
      · assumption
      · next h =>
        have hne : set = !(s.port port.val).txCrypt.sel := by
          rcases Bool.eq_or_eq_not set (s.port port.val).txCrypt.sel with he | he
          · exact absurd (he ▸ hset) h
          · exact he
        exact hne ▸ hset
    · have hany : ((s.port port.val).txCrypt.loaded false || (s.port port.val).txCrypt.loaded true) = true := by
        cases set <;> simp [hset]
      rw [Bool.or_eq_true] at hany
      simp [State.trainStep, htrain, hwant, hany]
  obtain ⟨hactive, hkey⟩ := State.crypt_sendKeySwitch hnext
  refine ⟨_, exec_trainingStepDone lanes hacts hstep, State.train_setState .., ?_, ?_, ?_, State.regs_sendKeySwitch ..⟩
  · unfold State.setState
    rw [State.port_setPort_same]
    exact hactive
  · unfold State.setState
    rw [State.port_setPort_same]
    exact hkey
  · exact State.body_sendKeySwitch ..

theorem training_waits (s : State) (port : Fin 16) (lanes : BitVec 2) (hacts : s.acts (pgFPORT port.val) = true)
    (htrain : (s.port port.val).train = .step 8) (hwant : s.wantEnc port.val = true) (h0 : (s.port port.val).txCrypt.loaded false = false)
    (h1 : (s.port port.val).txCrypt.loaded true = false) : Completes (.trainingStepDone port lanes) s fun t => t = s := by
  have hstep : s.trainStep port.val lanes.toNat = s := by
    simp [State.trainStep, htrain, hwant, h0, h1]
  exact ⟨_, exec_trainingStepDone lanes hacts hstep, rfl⟩

theorem State.links_bootAgents (s : State) (p : Nat) : (s.bootAgents p).links = s.links := by
  unfold State.bootAgents
  dsimp only
  refine foldl_keeps State.links _ (fun u a => ?_) _ _
  split <;> rfl

theorem training_up (s : State) (port : Fin 16) (lanes : BitVec 2) (hacts : s.acts (pgFPORT port.val) = true)
    (htrain : (s.port port.val).train = .step 9) :
    Completes (.trainingStepDone port lanes) s fun t => (t.port port.val).train = .up ∧ t.dram = s.dram := by
  have hstep : s.trainStep port.val lanes.toNat = s.linkUp port.val := by
    simp [State.trainStep, htrain]
  have hexec := exec_trainingStepDone lanes hacts hstep
  refine ⟨_, hexec, ?_, congrArg Core.dram (core_of_exec rfl hexec)⟩
  have hlinks : (s.linkUp port.val).links = (s.setState port.val .up).links := by
    unfold State.linkUp
    rw [State.links_twMoved, State.links_pump, State.links_bootAgents, State.links_raise]
  rw [State.train_of_links hlinks, State.train_setState]

/-! ### Attempts -/

theorem training_again (s : State) (port : Fin 16) (n : Nat) (hacts : s.acts (pgFPORT port.val) = true)
    (htrain : (s.port port.val).train = .step n) (hn : 2 < n) (hrefused : (s.port port.val).refused = false)
    (hfew : (s.port port.val).attempts < 2) (hmode : s.rd FPORT_MODE port.val = (s.port port.val).mode) (hon : (s.port port.val).mode ≠ 2) :
    Completes (.trainAttemptTimeout port) s fun t => (t.port port.val).train = .step 2 ∧
      (t.port port.val).attempts = (s.port port.val).attempts + 1 ∧ t.body = s.body ∧ t.regs = (s.wr FPORT_WIDTH 0 port.val).regs := by
  let u := s.setPort port.val { s.port port.val with attempts := (s.port port.val).attempts + 1 }
  have hport : u.port port.val = { s.port port.val with attempts := (s.port port.val).attempts + 1 } := State.port_setPort_same ..
  have hexec : exec (.trainAttemptTimeout port) s = .next (u.attempt port.val) := by
    refine (State.onBlk_acts _ hacts).trans ?_
    rw [htrain]
    have hroom : ¬(s.port port.val).attempts + 1 ≥ 3 := by omega
    refine (if_neg (by simpa [hrefused] using hn)).trans ((if_neg hroom).trans ?_)
    rw [← htrain]
  refine ⟨_, hexec, ?_⟩
  have hattempt : u.attempt port.val = (u.setPort port.val { (u.port port.val).unlinked with
      train := .step 2, mode := u.rd FPORT_MODE port.val }).wr FPORT_WIDTH 0 port.val := by
    rw [State.attempt_of_same_mode (by rw [hport]; exact hmode)]
    exact State.attemptOne_of_on (show s.rd FPORT_MODE port.val ≠ 2 by rwa [hmode])
  beta_reduce
  rw [hattempt, State.port_wr, State.port_setPort_same]
  refine ⟨rfl, ?_, State.body_wr .., rfl⟩
  rw [hport]
  rfl

theorem training_fails (s : State) (port : Fin 16) (n : Nat) (hacts : s.acts (pgFPORT port.val) = true)
    (htrain : (s.port port.val).train = .step n) (hn : 2 < n) (hrefused : (s.port port.val).refused = false)
    (hmany : 2 ≤ (s.port port.val).attempts) : Completes (.trainAttemptTimeout port) s fun t =>
      (t.port port.val).train = .down ∧ t.rd FPORT_DOWN_REASON port.val = drTrainFail ∧ t.body = s.body := by
  have hdead : (s.port port.val).alive = false := by simp [Port.alive, htrain]
  have hquiet : s.fallsQuietly port.val = true := by simp [State.fallsQuietly, hdead]
  have hexec : exec (.trainAttemptTimeout port) s = .next (s.goDown port.val drTrainFail false) := by
    refine (State.onBlk_acts _ hacts).trans ?_
    rw [htrain]
    have hlast : (s.port port.val).attempts + 1 ≥ 3 := by omega
    exact (if_neg (by simpa [hrefused] using hn)).trans (if_pos hlast)
  refine ⟨_, hexec, ?_, ?_, ?_⟩
  · rw [State.train_of_links (State.links_goDown hquiet _ _), State.port_setPort_same]
    rfl
  · rw [State.rd_goDown hquiet _ _ rfl, State.rd_wr_same]
    rfl
  · rw [State.goDown_of_quiet hquiet, hdead, if_neg Bool.false_ne_true, State.body_reportFall]

/-! ### The change of a module -/

/-- Whether a state shows a module at a port, with its change reported. -/
def State.Shows (s : State) (p : Fin 16) (m : Option Module) : Prop := s.moduleAt p.val = m ∧ s.changedAt p = true

theorem State.shows_of_poise {s t : State} (h : t.poise = s.poise) {p : Fin 16} {m : Option Module} (hs : s.Shows p m) : t.Shows p m := by
  have hmodule : t.moduleAt = s.moduleAt := congrArg Poise.modules h
  have hchanged : t.changedAt = s.changedAt := congrArg Poise.changed h
  unfold State.Shows
  rw [hmodule, hchanged]
  exact hs

/-- The module taken in, and its change raised. -/
def State.moduleTaken (s : State) (p : Nat) (m : Option Module) : State :=
  let on := m.any (fun (x : Module) => x.cmis && decide (x.maxPwr.toNat ≤ 64))
  ((State.setPort { s with tmc := { s.tmc with modPower := setNth s.tmc.modPower p on } } p
    { s.port p with module := m, attempts := 0 }).copyCmis p m).raise (pgFPORT p) I_FPORT_MODULE_CHANGE

theorem State.shows_moduleTaken (s : State) (p : Fin 16) (m : Option Module) : (s.moduleTaken p.val m).Shows p m := by
  refine ⟨?_, State.bit_raise_same _ _ (by decide)⟩
  unfold State.moduleTaken
  extract_lets on
  unfold State.moduleAt
  rw [State.module_of_links (State.links_raise ..)]
  have hcopied := State.poise_copyCmis (State.setPort { s with tmc := { s.tmc with modPower := setNth s.tmc.modPower p.val on } } p.val
    { s.port p.val with module := m, attempts := 0 }) p.val m
  refine (congrFun (congrArg Poise.modules hcopied) p.val).trans ?_
  exact congrArg Port.module (State.port_setPort_same ..)

theorem training_module (s : State) (port : Fin 16) (m : Option Module) (hacts : s.acts (pgFPORT port.val) = true) :
    Completes (.moduleChange port m) s fun t => (t.port port.val).module = m ∧
      bit (t.rd H_INT_STAT (pgFPORT port.val)) I_FPORT_MODULE_CHANGE = true ∧ t.dram = s.dram := by
  obtain ⟨t, hexec⟩ := exec_answers s (.moduleChange port m)
  have hshows : t.Shows port m := by
    have hdef : execModuleChange port m s = .next t := hexec
    unfold execModuleChange at hdef
    extract_lets p c on src s0 s1 s2 at hdef
    rw [if_neg (by simp [(State.runs_of_acts hacts).1, p])] at hdef
    have hs1 : s1.Shows port m := s.shows_moduleTaken port m
    have hs2 : s2.Shows port m := by
      refine State.shows_of_poise ?_ hs1
      unfold s2
      split
      · split
        · exact State.poise_raise _ _ (by decide)
        · rfl
      · rfl
    split at hdef
    · cases hdef
      exact State.shows_of_poise (State.poise_trainBy _ _ fun u hu => (State.poise_attempt u _).trans hu) hs2
    · split at hdef
      · cases hdef
        exact State.shows_of_poise (State.poise_clearLink ..) hs2
      · split at hdef
        · cases hdef
          exact State.shows_of_poise (State.poise_goDown ..) hs2
        · cases hdef
          exact State.shows_of_poise (State.poise_attempt ..) hs2
    · exact Host.Outcome.next.inj hdef ▸ hs2
  exact ⟨t, hexec, hshows.1, hshows.2, congrArg Core.dram (core_of_exec rfl hexec)⟩

/-- Settles O6: each step's branch, the fall of a link that is not Up, and the frame of what a module's change calls. -/
theorem training : Obligations.Training := by
  unfold Obligations.Training
  exact ⟨training_lock, training_width, training_fec, training_plain, training_encrypts, training_waits, training_up, training_again,
    training_fails, training_module⟩

end Sys2Proof.Machine
end

section
/-! O30: renewals, the fence, the takeover and the commands of the Turn. -/
namespace Sys2Proof.Machine

open Reg

/-! ### The fence of a node that works on nothing -/

theorem State.streamed_fenceReqs {s : State} (h : s.reqs = []) : s.fenceReqs.streamed = s.streamed := by
  unfold State.fenceReqs
  dsimp only
  rw [h, List.filter_nil, List.foldl_nil]
  exact congrArg (fun l => (s.twin, s.dir, l, s.bakes, s.ao)) h.symm

theorem State.fenceBakes_of_none {s : State} (h : s.bakes = []) : s.fenceBakes = s := by
  unfold State.fenceBakes
  rw [h, List.filter_nil, List.foldl_nil]

theorem State.mergeAccepted_of_none {s : State} (h : s.reqs = []) (rid : Nat) : s.mergeAccepted rid = s := by
  unfold State.mergeAccepted State.req
  rw [h]
  rfl

theorem State.twin_unmirror {s : State} (h : s.reqs = []) : s.unmirror.twin = s.twin := by
  have hfold (u : State) (hu : u.reqs = []) (l : List Nat) : l.foldl (fun (s : State) i => s.mergeAccepted i) u = u := by
    induction l with
    | nil => rfl
    | cons i is ih => rw [List.foldl_cons, State.mergeAccepted_of_none hu, ih]
  unfold State.unmirror
  extract_lets ms s1
  exact (congrArg State.twin (hfold s1 h ms) :)

/-- What a fence leaves of the pair's standing. -/
structure State.FencedFrom (s t : State) : Prop where
  turn   : t.twin.turn = tuFenced
  leased : t.twin.leased = false
  count  : t.twin.turnCount = s.twin.turnCount
  raised : bit (t.rd H_INT_STAT pgTWIN) I_TWIN_SELF_FENCED = true

theorem State.streamed_setTurn (s : State) (turn : Nat) :
    (s.setTurn turn).streamed = ({ s.twin with turn := turn }, s.dir, s.reqs, s.bakes, s.ao) := by
  unfold State.setTurn
  split
  next h => rw [← h, State.streamed]
  · exact (State.streamed_of_body (State.body_raise ..)).trans rfl

/-- A node without requests and Bakes drops nothing at its home when it fences itself. -/
theorem State.twin_fenced {s : State} (hreqs : s.reqs = []) (hbakes : s.bakes = []) :
    s.fenceReqs.fenceBakes.unmirror.makeShadows.twin = s.twin := by
  have hfence := State.streamed_fenceReqs hreqs
  simp only [State.streamed, Prod.mk.injEq] at hfence
  obtain ⟨htwin, -, hreqs', hbakes', -⟩ := hfence
  rw [State.fenceBakes_of_none (hbakes'.trans hbakes)]
  exact (State.twin_unmirror (hreqs'.trans hreqs)).trans htwin

theorem State.selfFence_of_idle {s : State} (hreqs : s.reqs = []) (hbakes : s.bakes = []) (hgates : s.twin.gates = []) :
    s.FencedFrom s.selfFence := by
  unfold State.selfFence
  extract_lets t tw rot s1 gated s2 s2' s3
  have hs1 : s1.streamed = ({ tw with turn := tuFenced }, s.dir, s.reqs, s.bakes, s.ao) := State.streamed_setTurn ..
  have hs2 : s2 = s1 := by
    have hnone : gated = [] := by
      unfold gated t
      rw [hgates, List.filterMap_nil]
    unfold s2
    rw [hnone, List.foldl_nil]
  simp only [State.streamed, Prod.mk.injEq] at hs1
  obtain ⟨htwin, -, hreqs1, hbakes1, -⟩ := hs1
  have hs2' : s2'.fenceReqs.fenceBakes.unmirror.makeShadows.twin = { tw with turn := tuFenced } :=
    (State.twin_fenced (s := s2') (by rw [← hreqs, ← hreqs1, ← hs2]) (by rw [← hbakes, ← hbakes1, ← hs2])).trans (by
      rw [← htwin, ← hs2])
  have htwin3 : ((s3.raise pgTWIN I_TWIN_SELF_FENCED).crumb pgTWIN 0x601 2 [t.ackedLseq, s.ao - t.ackedSent]).twin =
      { tw with turn := tuFenced } := by
    rw [State.twin_of_body (State.body_crumb ..), State.twin_of_body (State.body_raise ..), ← hs2']
    exact State.twin_of_body (State.body_bump ..)
  refine ⟨by rw [htwin3], by rw [htwin3], by rw [htwin3], ?_⟩
  rw [State.rd_crumb_ne _ _ _ _ _ (by decide)]
  exact State.bit_raise_same _ _ (by decide)

/-! ### Renewals -/

theorem State.twin_renewAck (s : State) (n : Nat) : (s.renewAck n).twin = s.twin := State.twin_of_body (State.body_twFirst ..)

theorem State.twin_twRenewIn_of_standby {s : State} {m : Msg} (hturn : s.twin.turn = tuStandby) (hsynced : m.f 61 1 = 0) :
    (s.twRenewIn m).twin = { s.twin with heard := some s.ao, heardLseq := m.f 45 16 } := by
  unfold State.twRenewIn
  extract_lets n s1 src s2
  have hs1 : s1 = s := if_neg (by simp [hsynced])
  have hs2 : s2.twin = { s.twin with heard := some s.ao } := by
    have hsrc : src = s.twin := congrArg State.twin hs1
    unfold s2
    rw [if_pos (by rw [hs1]; exact hturn), hsrc]
  rw [if_neg (by rw [hturn]; decide), if_neg (by rw [hturn]; decide), State.twin_renewAck]
  exact (congrArg (fun x : Twin => ({ x with heardLseq := m.f 45 16 } : Twin)) hs2 :)

theorem turn_renew_heard {s : State} {port : Fin 16} {m : Msg} (h : s.FromPartner port.val m) (hopc : m.opc = 0x98)
    (hturn : s.twin.turn = tuStandby) (hsynced : m.f 61 1 = 0) :
    Completes (.twRenew port m) s fun t => t.twin.turn = tuStandby ∧ t.twin.heard = some s.ao ∧ t.twin.heardLseq = m.f 45 16 ∧
      t.twin.synced = s.twin.synced ∧ t.core = s.core := by
  have hbody := s.body_twTaken port.val 0x98 m
  have htwin : (s.twTaken port.val 0x98 m).twin = s.twin := State.twin_of_body hbody
  have hao : (s.twTaken port.val 0x98 m).ao = s.ao := (congrArg State.ao hbody :)
  have hexec : exec (.twRenew port m) s = .next ((s.twTaken port.val 0x98 m).twRenewIn m) :=
    (State.onBlk_acts _ h.acts).trans (congrArg Host.Outcome.next (State.twPlainIn_of_partner h hopc _))
  have hin := State.twin_twRenewIn_of_standby (s := s.twTaken port.val 0x98 m) (htwin ▸ hturn) hsynced
  rw [htwin, hao] at hin
  refine ⟨_, hexec, ?_, ?_, ?_, ?_, core_of_exec rfl hexec⟩ <;> rw [hin]
  exact hturn

/-- A fence that a report and a Crumb follow. -/
theorem State.FencedFrom.reported {s t : State} (h : s.FencedFrom t) (l : List Nat) :
    s.FencedFrom ((t.raise pgTWIN I_TWIN_TWO_HOLDERS).crumb pgTWIN 0x605 3 l) := by
  have htwin : ((t.raise pgTWIN I_TWIN_TWO_HOLDERS).crumb pgTWIN 0x605 3 l).twin = t.twin :=
    State.twin_of_body ((State.body_crumb ..).trans (State.body_raise ..))
  refine ⟨htwin ▸ h.turn, htwin ▸ h.leased, htwin ▸ h.count, ?_⟩
  rw [State.rd_crumb_ne _ _ _ _ _ (by decide)]
  exact State.bit_raise_keeps _ _ _ (by decide) h.raised

theorem turn_renew_two_holders {s : State} {port : Fin 16} {m : Msg} (h : s.FromPartner port.val m) (hopc : m.opc = 0x98)
    (hturn : s.twin.turn = tuHolder) (hreqs : s.reqs = []) (hbakes : s.bakes = []) (hgates : s.twin.gates = []) :
    Completes (.twRenew port m) s fun t => t.twin.turn = tuFenced ∧
      t.twin.leased = false ∧ bit (t.rd H_INT_STAT pgTWIN) I_TWIN_TWO_HOLDERS = true ∧
      bit (t.rd H_INT_STAT pgTWIN) I_TWIN_SELF_FENCED = true ∧ t.core = s.core := by
  have hstream := State.streamed_of_body (s.body_twTaken port.val 0x98 m)
  simp only [State.streamed, Prod.mk.injEq] at hstream
  obtain ⟨htwin, -, hreqs', hbakes', -⟩ := hstream
  have hexec : exec (.twRenew port m) s = .next (((s.twTaken port.val 0x98 m).selfFence.raise pgTWIN I_TWIN_TWO_HOLDERS).crumb pgTWIN 0x605 3
      [packBits [(0, 9, m.srcNid), (16, 16, m.f 45 16)]]) := by
    refine (State.onBlk_acts _ h.acts).trans (congrArg Host.Outcome.next ((State.twPlainIn_of_partner h hopc _).trans ?_))
    exact if_pos (htwin ▸ hturn)
  have hfence := (State.selfFence_of_idle (hreqs'.trans hreqs) (hbakes'.trans hbakes) (htwin ▸ hgates)).reported
    [packBits [(0, 9, m.srcNid), (16, 16, m.f 45 16)]]
  refine ⟨_, hexec, hfence.turn, hfence.leased, ?_, hfence.raised, core_of_exec rfl hexec⟩
  rw [State.rd_crumb_ne _ _ _ _ _ (by decide)]
  exact State.bit_raise_same _ _ (by decide)

theorem State.twin_twRenewAckIn_of_found {s : State} {m : Msg} {x : Nat × Nat} (hleased : s.twin.leased = false)
    (hfind : s.twin.renewals.find? (fun r => r.1 == m.f 45 16) = some x) : (s.twRenewAckIn m).twin = { s.twin with
      renewals := s.twin.renewals.filter (fun r => decide (x.2 < r.2)), ackedSent := max s.twin.ackedSent x.2, ackedLseq := m.f 45 16,
      partPref := m.f 62 1 = 1 } := by
  unfold State.twRenewAckIn
  dsimp only
  rw [hfind]
  dsimp only
  rw [if_neg (by simp [hleased]), if_neg (by simp [hleased])]
  exact (State.twin_of_body (State.body_sample ..)).trans rfl

theorem turn_renewAck {s : State} {port : Fin 16} {m : Msg} {x : Nat × Nat} (h : s.FromPartner port.val m) (hopc : m.opc = 0x99)
    (hturn : s.twin.turn = tuHolder) (hleased : s.twin.leased = false)
    (hfind : s.twin.renewals.find? (fun r => r.1 == m.f 45 16) = some x) :
    Completes (.twRenewAck port m) s fun t => t.twin.ackedSent = max s.twin.ackedSent x.2 ∧ t.twin.ackedLseq = m.f 45 16 ∧
      t.twin.renewals = s.twin.renewals.filter (fun r => decide (x.2 < r.2)) ∧ t.twin.turn = tuHolder ∧ t.core = s.core := by
  have htwin : (s.twTaken port.val 0x99 m).twin = s.twin := State.twin_of_body (s.body_twTaken ..)
  have hexec : exec (.twRenewAck port m) s = .next ((s.twTaken port.val 0x99 m).twRenewAckIn m) := by
    refine (State.onBlk_acts _ h.acts).trans (congrArg Host.Outcome.next ((State.twPlainIn_of_partner h hopc _).trans ?_))
    exact if_pos (by rw [htwin, hturn]; decide)
  have hin := State.twin_twRenewAckIn_of_found (s := s.twTaken port.val 0x99 m) (htwin ▸ hleased) (htwin ▸ hfind)
  rw [htwin] at hin
  refine ⟨_, hexec, ?_, ?_, ?_, ?_, core_of_exec rfl hexec⟩ <;> rw [hin]
  exact hturn

/-! ### TW_JOIN -/

/-- The resynchronization and the scan of a state. -/
def State.resyncing (s : State) : Option Nat × Option Scan := (s.twin.resync, s.scan)

theorem State.resyncing_of_body {s t : State} (h : t.body = s.body) : t.resyncing = s.resyncing :=
  (congrArg State.resyncing h : t.body.resyncing = s.body.resyncing)

theorem State.resyncing_twSeq (s : State) (opc : Nat) (fields : List (Nat × Nat × Nat)) (data : List Slot) (tid job : Nat) :
    (s.twSeq opc fields data tid job).2.resyncing = s.resyncing := by
  unfold State.twSeq
  extract_lets t n m
  split
  · exact (State.resyncing_of_body ((State.body_sample ..).trans (State.body_twSend ..))).trans rfl
  · rfl

theorem State.resyncing_twDelta (s : State) (la region : Nat) (e : Option DirEnt) (pend : Bool) (tid job : Nat) :
    (s.twDelta la region e pend tid job).2.resyncing = s.resyncing := by
  unfold State.twDelta
  dsimp only
  split
  · exact State.resyncing_twSeq ..
  · rfl

/-- The image of an open transaction leaves what the pair stands at. -/
theorem State.imageOpen_keeps (s : State) : s.imageOpen.poise = s.poise ∧ s.imageOpen.resyncing = s.resyncing := by
  constructor
  · refine State.poise_foldl _ (fun a o => ?_) _ _
    split
    · exact State.poise_twDelta ..
    · rfl
  · refine foldl_keeps State.resyncing _ (fun a o => ?_) _ _
    split
    · exact State.resyncing_twDelta ..
    · rfl

theorem State.resyncStart_stands (s : State) : s.resyncStart.twin.turn = s.twin.turn ∧ s.resyncStart.twin.synced = false ∧
    s.resyncStart.twin.resync = some 0 ∧ s.resyncStart.scan.map (fun c => c.image) = some (some dirSets) := by
  unfold State.resyncStart
  extract_lets s1 c src s2
  have hquit := s.poise_twQuit
  obtain ⟨hpoise, hresync⟩ := s2.imageOpen_keeps
  have hturn : s2.twin.turn = s.twin.turn := (congrArg Poise.turn hquit :)
  have hsynced : s2.twin.synced = false := (congrArg Poise.synced hquit :)
  refine ⟨(congrArg Poise.turn hpoise).trans hturn, (congrArg Poise.synced hpoise).trans hsynced, congrArg Prod.fst hresync, ?_⟩
  rw [show s2.imageOpen.scan = s2.scan from congrArg Prod.snd hresync]
  rfl

/-- The node once it has counted a TW_JOIN. -/
def State.joinHeard (s : State) (p : Nat) (m : Msg) : State := (s.takeMsg p m).count 0 0 0 (1 + m.data.length)

theorem State.body_joinHeard (s : State) (p : Nat) (m : Msg) : (s.joinHeard p m).body = s.body :=
  (State.body_count ..).trans (s.body_takeMsg p m)

theorem State.rd_joinHeard (s : State) (p : Nat) (m : Msg) (f : Field) : (s.joinHeard p m).rd f = s.rd f :=
  (rfl : (s.joinHeard p m).rd f = (s.takeMsg p m).rd f).trans (s.rd_takeMsg p m f 0 0)

theorem exec_twJoin_of_partner {s : State} {port : Fin 16} {m : Msg} (h : s.FromPartner port.val m) (hopc : m.opc = 0x9B) :
    exec (.twJoin port m) s = if s.twin.turn = tuHolder then
        .next (((s.joinHeard port.val m).use [pgTWIN]).sysAnswer port.val m stOK 0).resyncStart
      else .next ((s.joinHeard port.val m).sysAnswer port.val m stDenied 0) := by
  have hopts : (s.joinHeard port.val m).opts.w = true := by
    rw [show (s.joinHeard port.val m).opts = s.opts from (congrArg State.opts (s.body_joinHeard port.val m) :)]
    exact h.option
  have htwin : (s.joinHeard port.val m).twin = s.twin := State.twin_of_body (s.body_joinHeard port.val m)
  refine (State.onBlk_acts _ h.acts).trans ?_
  rw [State.portIn_of_passes s h.passes h.cls hopc]
  refine (if_neg (by rw [show (State.count _ _ _ _ _).opts.w = true from hopts]; decide)).trans ?_
  have hcond : ((s.joinHeard port.val m).rd TWIN_PAIR_EN = 1 && m.srcNid = (s.joinHeard port.val m).rd TWIN_PARTNER_NID &&
      (s.joinHeard port.val m).twin.turn = tuHolder) = decide (s.twin.turn = tuHolder) := by
    rw [s.rd_joinHeard, s.rd_joinHeard, h.paired, h.partner, htwin]
    simp
  by_cases hturn : s.twin.turn = tuHolder
  · exact (if_pos (hcond.trans (decide_eq_true hturn))).trans (if_pos hturn).symm
  · exact (if_neg (fun hif => hturn (of_decide_eq_true (hcond ▸ hif)))).trans (if_neg hturn).symm

theorem turn_join_resync {s : State} {port : Fin 16} {m : Msg} (h : s.FromPartner port.val m) (hopc : m.opc = 0x9B)
    (hturn : s.twin.turn = tuHolder) :
    Completes (.twJoin port m) s fun t => t.twin.resync = some 0 ∧ t.twin.synced = false ∧ t.twin.turn = tuHolder ∧
      t.scan.map (fun c => c.image) = some (some dirSets) ∧ t.core = s.core := by
  have hexec := (exec_twJoin_of_partner h hopc).trans (if_pos hturn)
  have htwin : (((s.joinHeard port.val m).use [pgTWIN]).sysAnswer port.val m stOK 0).twin = s.twin :=
    State.twin_of_body ((State.body_sysAnswer ..).trans ((State.body_use ..).trans (s.body_joinHeard port.val m)))
  obtain ⟨hholder, hsynced, hresync, hscan⟩ := State.resyncStart_stands (((s.joinHeard port.val m).use [pgTWIN]).sysAnswer port.val m stOK 0)
  exact ⟨_, hexec, hresync, hsynced, hholder.trans (htwin ▸ hturn), hscan, core_of_exec rfl hexec⟩

theorem turn_join_denied {s : State} {port : Fin 16} {m : Msg} (h : s.FromPartner port.val m) (hopc : m.opc = 0x9B)
    (hturn : s.twin.turn ≠ tuHolder) :
    Completes (.twJoin port m) s fun t => t.twin = s.twin ∧ t.reqs = s.reqs ∧ t.core = s.core := by
  have hexec := (exec_twJoin_of_partner h hopc).trans (if_neg hturn)
  have hbody := (State.body_sysAnswer (s.joinHeard port.val m) port.val m stDenied 0).trans (s.body_joinHeard port.val m)
  exact ⟨_, hexec, State.twin_of_body hbody, (congrArg State.reqs hbody :), core_of_exec rfl hexec⟩

/-! ### The timers -/

theorem turn_renewTimer (s : State) (hacts : s.acts pgTWIN = true) (hturn : s.twin.turn = tuHolder) :
    Completes (.renewTimer) s fun t =>
      t.twin.lseq = (s.twin.lseq + 1) % 2 ^ 16 ∧ t.twin.renewals.getLast? = some ((s.twin.lseq + 1) % 2 ^ 16, s.ao) ∧
      t.twin.turn = tuHolder ∧ t.core = s.core := by
  have hexec : exec (.renewTimer) s = .next (s.use [pgTWIN]).renew := (State.onBlk_acts _ hacts).trans (if_pos hturn)
  have htwin : (s.use [pgTWIN]).twin = s.twin := State.twin_of_body (State.body_use ..)
  have hao : (s.use [pgTWIN]).ao = s.ao := (congrArg State.ao (State.body_use ..) :)
  have hrenew : (s.use [pgTWIN]).renew.twin = { s.twin with
      lseq := (s.twin.lseq + 1) % 2 ^ 16,
      renewals := (s.twin.renewals.filter (fun r => r.1 != (s.twin.lseq + 1) % 2 ^ 16)) ++ [((s.twin.lseq + 1) % 2 ^ 16, s.ao)] } := by
    unfold State.renew
    extract_lets tw n
    refine (State.twin_of_body (State.body_twFirst ..)).trans ?_
    unfold n tw
    dsimp only
    rw [htwin, hao]
  refine ⟨_, hexec, ?_, ?_, ?_, core_of_exec rfl hexec⟩ <;> rw [hrenew]
  · exact List.getLast?_concat
  · exact hturn

theorem turn_fenceDeadline (s : State) (hacts : s.acts pgTWIN = true) (hturn : s.twin.turn = tuHolder) (hleased : s.twin.leased = true)
    (hlate : s.twin.ackedSent + s.rd TWIN_FENCE_T ≤ s.ao) (hreqs : s.reqs = []) (hbakes : s.bakes = []) (hgates : s.twin.gates = []) :
    Completes (.fenceDeadline) s fun t => t.twin.turn = tuFenced ∧ t.twin.leased = false ∧ t.twin.turnCount = s.twin.turnCount ∧
      bit (t.rd H_INT_STAT pgTWIN) I_TWIN_SELF_FENCED = true ∧ t.core = s.core := by
  have hexec : exec (.fenceDeadline) s = .next (s.use [pgTWIN]).selfFence :=
    (State.onBlk_acts _ hacts).trans (if_pos (by simp [hturn, hleased, hlate]))
  have hstream := State.streamed_of_body (s.body_use [pgTWIN])
  simp only [State.streamed, Prod.mk.injEq] at hstream
  obtain ⟨htwin, -, hreqs', hbakes', -⟩ := hstream
  have hfence := State.selfFence_of_idle (hreqs'.trans hreqs) (hbakes'.trans hbakes) (htwin ▸ hgates)
  exact ⟨_, hexec, hfence.turn, hfence.leased, htwin ▸ hfence.count, hfence.raised, core_of_exec rfl hexec⟩

theorem State.streamed_soloHolder (s : State) : s.soloHolder.streamed = ({ s.twin with
      leased := false, synced := false, current := false, desync := false, heard := none, resync := none, handing := none, unacked := [],
      waiting := [], gates := [], writes := [], renewals := [], accepting := [], turnCount := (s.twin.turnCount + 1) % 2 ^ 32,
      turn := tuHolder }, s.dir.map (fun e => { e with shadow := false }), s.reqs, s.bakes, s.ao) :=
  State.streamed_setTurn ..

/-- The holder that a takeover makes, with none of its Bakes. -/
def State.tookOver (s : State) : State := { s.soloHolder with twin := { s.soloHolder.twin with bakes := [] } }

theorem State.takeover_of_none {s : State} (hrecs : s.twin.pendRecs = []) (hbakes : s.twin.bakes = []) :
    ∃ l, s.takeover = (s.tookOver.raise pgTWIN I_TWIN_TAKEOVER).crumb pgTWIN 0x602 2 l := by
  unfold State.takeover
  extract_lets recs bs s1 src s2 s3
  have hbs : bs = [] := by
    unfold bs
    rw [hbakes, List.filter_nil]
  rw [show recs = [] from hrecs, hbs, List.foldl_nil, List.foldl_nil]
  exact ⟨_, rfl⟩

theorem turn_takeover (s : State) (n : Nat) (hacts : s.acts pgTWIN = true) (hturn : s.twin.turn = tuStandby) (hsynced : s.twin.synced = true)
    (hheard : s.twin.heard = some n) (hlate : n + s.rd TWIN_LEASE_T + s.rd TWIN_GUARD_T ≤ s.ao) (hrecs : s.twin.pendRecs = [])
    (hbakes : s.twin.bakes = []) : Completes (.takeover) s fun t =>
      t.twin.turn = tuHolder ∧ t.twin.leased = false ∧ t.twin.turnCount = (s.twin.turnCount + 1) % 2 ^ 32 ∧
      t.dir = s.dir.map (fun e => { e with shadow := false }) ∧ bit (t.rd H_INT_STAT pgTWIN) I_TWIN_TAKEOVER = true ∧ t.core = s.core := by
  have hexec : exec (.takeover) s = .next (s.use [pgTWIN, pgHOME]).takeover := by
    refine (State.onBlk_acts _ hacts).trans ?_
    rw [hheard]
    exact if_pos (by simp [hturn, hsynced, hlate])
  have hstream := State.streamed_of_body (s.body_use [pgTWIN, pgHOME])
  simp only [State.streamed, Prod.mk.injEq] at hstream
  obtain ⟨htwin, hdir, -, -, -⟩ := hstream
  obtain ⟨l, htake⟩ := State.takeover_of_none (s := s.use [pgTWIN, pgHOME]) (htwin ▸ hrecs) (htwin ▸ hbakes)
  have hholder := State.streamed_soloHolder (s.use [pgTWIN, pgHOME])
  simp only [State.streamed, Prod.mk.injEq] at hholder
  obtain ⟨hsolo, hdir1, -, -, -⟩ := hholder
  have hcore := core_of_exec rfl hexec
  rw [htake] at hexec hcore
  have hbody := (State.body_crumb ((s.use [pgTWIN, pgHOME]).tookOver.raise pgTWIN I_TWIN_TAKEOVER) pgTWIN 0x602 2 l).trans
    (State.body_raise ..)
  have htaken := State.twin_of_body hbody
  have hdir2 : _ = (s.use [pgTWIN, pgHOME]).tookOver.dir := congrArg (fun x => x.2.1) (State.streamed_of_body hbody)
  have hdir3 : (s.use [pgTWIN, pgHOME]).tookOver.dir = (s.use [pgTWIN, pgHOME]).soloHolder.dir := rfl
  have htwin2 : (s.use [pgTWIN, pgHOME]).tookOver.twin = { (s.use [pgTWIN, pgHOME]).soloHolder.twin with bakes := [] } := rfl
  refine ⟨_, hexec, ?_, ?_, ?_, ?_, ?_, hcore⟩
  · rw [htaken, htwin2, hsolo]
  · rw [htaken, htwin2, hsolo]
  · rw [htaken, htwin2, hsolo, htwin]
  · exact (hdir2.trans (hdir3.trans hdir1)).trans (by rw [hdir])
  · rw [State.rd_crumb_ne _ _ _ _ _ (by decide)]
    exact State.bit_raise_same _ _ (by decide)

theorem turn_resyncLine (s : State) (ptr n la : Nat) (hacts : s.acts pgTWIN = true) (hturn : s.twin.turn = tuHolder)
    (hresync : s.twin.resync = some ptr) (hreqs : s.reqs = []) (hnext : s.nextMirror ptr = some (n, la)) :
    Completes (.resyncLine) s fun t =>
      t.reqs.map (fun r => (r.op, r.off, r.region, r.place)) = [(.resync, la * 64, n, .queued)] ∧ t.twin = s.twin ∧ t.core = s.core := by
  have hexec : exec (.resyncLine) s = .next ((s.use [pgTWIN]).queueIntern .resync 0 0 la n) := by
    refine (State.onBlk_acts _ hacts).trans ?_
    rw [if_pos hturn, hresync]
    refine (if_neg (by rw [hreqs]; simp)).trans ?_
    rw [hnext]
  have hstream := State.streamed_of_body (s.body_use [pgTWIN])
  simp only [State.streamed, Prod.mk.injEq] at hstream
  obtain ⟨htwin, -, hreqs', -, -⟩ := hstream
  refine ⟨_, hexec, ?_, htwin, core_of_exec rfl hexec⟩
  unfold State.queueIntern
  dsimp only [State.nextOrd]
  rw [hreqs', hreqs]
  rfl

theorem State.isUp_of_links {s t : State} (h : t.links = s.links) (p : Nat) : (t.port p).isUp = (s.port p).isUp := by
  unfold Port.isUp
  rw [State.train_of_links h]

theorem State.twPort_use (s : State) : (s.use [pgTWIN]).twPort = s.twPort := by
  have hlinks := s.links_use [pgTWIN]
  have hchosen : (s.use [pgTWIN]).twChosen = s.twChosen := by
    unfold State.twChosen
    rw [State.isUp_of_links hlinks, State.rd_use_of_page _ _ (f := TWIN_ALT_EN) (by decide) (by decide) (by decide),
      State.rd_use_of_page _ _ (f := TWIN_TW_PORT) (by decide) (by decide) (by decide),
      State.rd_use_of_page _ _ (f := TWIN_TW_PORT_ALT) (by decide) (by decide) (by decide)]
  have halive : ((s.use [pgTWIN]).port s.twChosen).alive = (s.port s.twChosen).alive := by
    unfold Port.alive
    rw [State.train_of_links hlinks]
  unfold State.twPort
  rw [hchosen, halive]

theorem State.joinSend_of_up {s : State} {p : Nat} (hport : s.twPort = some p) (hup : (s.port p).isUp = true)
    (hopen : s.shape.closing = false) (hturn : s.twin.turn = tuFenced ∨ s.twin.turn = tuIdle) :
    (s.use [pgTWIN]).joinSend = (s.use [pgTWIN]).send p (mkNodeMsg 0x9B s.nid (s.rd TWIN_PARTNER_NID) joinTxid []) 0 0 := by
  have hbody := s.body_use [pgTWIN]
  have htwin : (s.use [pgTWIN]).twin = s.twin := State.twin_of_body hbody
  have hshape : (s.use [pgTWIN]).shape = s.shape := (congrArg State.shape hbody :)
  have hnid : (s.use [pgTWIN]).nid = s.nid := State.rd_use_of_page _ _ (by decide) (by decide) (by decide)
  have hpartner : (s.use [pgTWIN]).rd TWIN_PARTNER_NID = s.rd TWIN_PARTNER_NID :=
    State.rd_use_of_page _ _ (by decide) (by decide) (by decide)
  unfold State.joinSend
  rw [State.twPort_use, hport, hnid, hpartner]
  exact if_pos (by rw [State.isUp_of_links (s.links_use [pgTWIN]), hshape, htwin, hup, hopen]; simpa using hturn)

theorem turn_autoJoin (s : State) (p : Nat) (hacts : s.acts pgTWIN = true) (hport : s.twPort = some p) (hup : (s.port p).isUp = true)
    (hopen : s.shape.closing = false) (hturn : s.twin.turn = tuFenced) (hauto : s.rd TWIN_AUTO_JOIN = 1) :
    Completes (.autoJoinTimer) s fun t => t = (s.use [pgTWIN]).send p (mkNodeMsg 0x9B s.nid (s.rd TWIN_PARTNER_NID) joinTxid []) 0 0 ∧
      t.core = s.core := by
  have hexec : exec (.autoJoinTimer) s = .next (s.use [pgTWIN]).joinSend := (State.onBlk_acts _ hacts).trans (if_pos hauto)
  exact ⟨_, hexec, State.joinSend_of_up hport hup hopen (.inl hturn), core_of_exec rfl hexec⟩

theorem turn_join (s : State) (p : Nat) (hacts : s.acts pgTWIN = true) (hport : s.twPort = some p) (hup : (s.port p).isUp = true)
    (hopen : s.shape.closing = false) (hturn : s.twin.turn = tuFenced ∨ s.twin.turn = tuIdle) :
    Completes (.join) s fun t => t = (s.use [pgTWIN]).send p (mkNodeMsg 0x9B s.nid (s.rd TWIN_PARTNER_NID) joinTxid []) 0 0 ∧
      t.core = s.core := by
  have hexec : exec (.join) s = .next (s.use [pgTWIN]).joinSend := State.onBlk_acts _ hacts
  exact ⟨_, hexec, State.joinSend_of_up hport hup hopen hturn, core_of_exec rfl hexec⟩

/-! ### The commands -/

theorem turn_claim (s : State) (hacts : s.acts pgTWIN = true) (hopen : s.shape.closing = false)
    (hturn : s.twin.turn = tuFenced ∨ s.twin.turn = tuIdle) : Completes (.claim) s fun t => t.twin.turn = tuHolder ∧ t.twin.leased = false ∧
      t.twin.turnCount = (s.twin.turnCount + 1) % 2 ^ 32 ∧ t.core = s.core := by
  have hbody := s.body_use [pgTWIN]
  have htwin : (s.use [pgTWIN]).twin = s.twin := State.twin_of_body hbody
  have hshape : (s.use [pgTWIN]).shape = s.shape := (congrArg State.shape hbody :)
  have hexec : exec (.claim) s = .next (s.use [pgTWIN]).soloHolder := by
    refine (State.onBlk_acts _ hacts).trans (congrArg Host.Outcome.next ?_)
    exact (if_neg (by rw [hshape, hopen]; decide)).trans (if_pos (by rw [htwin]; simpa [or_comm] using hturn))
  have hholder := State.streamed_soloHolder (s.use [pgTWIN])
  simp only [State.streamed, Prod.mk.injEq] at hholder
  obtain ⟨htwin1, -⟩ := hholder
  refine ⟨_, hexec, ?_, ?_, ?_, core_of_exec rfl hexec⟩ <;> rw [htwin1]
  rw [htwin]

theorem turn_solo (s : State) (hacts : s.acts pgTWIN = true) (hturn : s.twin.turn = tuHolder) (hleased : s.twin.leased = true) :
    Completes (.solo) s fun t => t.twin.turn = tuHolder ∧ t.twin.leased = false ∧ t.twin.synced = false ∧ t.twin.desync = true ∧
      t.core = s.core := by
  have htwin : (s.use [pgTWIN]).twin = s.twin := State.twin_of_body (State.body_use ..)
  have hquit := (s.use [pgTWIN]).poise_twQuit
  have hexec : exec (.solo) s = .next { (s.use [pgTWIN]).twQuit with twin := { (s.use [pgTWIN]).twQuit.twin with desync := true } } :=
    (State.onBlk_acts _ hacts).trans (congrArg Host.Outcome.next (if_pos (by rw [htwin, hturn, hleased]; decide)))
  have hholder : (s.use [pgTWIN]).twQuit.twin.turn = tuHolder :=
    (congrArg Poise.turn hquit).trans ((congrArg Twin.turn htwin).trans hturn)
  exact ⟨_, hexec, hholder, (congrArg Poise.leased hquit :), (congrArg Poise.synced hquit :), rfl, core_of_exec rfl hexec⟩

theorem turn_leave (s : State) (hacts : s.acts pgTWIN = true) (hturn : s.twin.turn = tuStandby) (hbakes : s.twin.bakes = []) :
    Completes (.leave) s fun t => t.twin.turn = tuFenced ∧ t.twin.synced = false ∧ t.twin.heard = none ∧ t.core = s.core := by
  have htwin : (s.use [pgTWIN]).twin = s.twin := State.twin_of_body (State.body_use ..)
  have hexec : exec (.leave) s = .next (s.use [pgTWIN]).leaveNow :=
    (State.onBlk_acts _ hacts).trans (congrArg Host.Outcome.next (if_pos (htwin ▸ hturn)))
  have hleave : (s.use [pgTWIN]).leaveNow.twin = { s.twin with synced := false, heard := none, bakes := [], turn := tuFenced } := by
    refine (State.twin_renewAck ..).trans ?_
    unfold State.toFenced
    dsimp only
    rw [htwin, hbakes, List.filterMap_nil, List.foldl_nil, State.twin_setTurn, List.filter_nil]
  refine ⟨_, hexec, ?_, ?_, ?_, core_of_exec rfl hexec⟩ <;> rw [hleave]

/-- Settles O30: each clause follows the one branch that its hypotheses leave, and `poise_twQuit` says what the end of a lease leaves. -/
theorem turn : Obligations.Turn := by
  unfold Obligations.Turn
  refine ⟨?heard, ?twoHolders, ?ack, ?resync, ?denied, turn_renewTimer, turn_fenceDeadline, turn_takeover, turn_resyncLine, turn_autoJoin,
    turn_join, turn_claim, ?solo, turn_leave⟩
  case heard =>
    intro s port m hacts hpasses hcls hopc hw hpaired hpartner hturn hsynced
    exact turn_renew_heard ⟨hacts, hpasses, hcls, hw, hpaired, hpartner⟩ hopc hturn hsynced
  case twoHolders =>
    intro s port m hacts hpasses hcls hopc hw hpaired hpartner hturn hreqs hbakes hgates
    exact turn_renew_two_holders ⟨hacts, hpasses, hcls, hw, hpaired, hpartner⟩ hopc hturn hreqs hbakes hgates
  case ack =>
    intro s port m x hacts hpasses hcls hopc hw hpaired hpartner hturn hleased hfind
    exact turn_renewAck ⟨hacts, hpasses, hcls, hw, hpaired, hpartner⟩ hopc hturn hleased hfind
  case resync =>
    intro s port m hacts hpasses hcls hopc hw hpaired hpartner hturn _
    exact turn_join_resync ⟨hacts, hpasses, hcls, hw, hpaired, hpartner⟩ hopc hturn
  case denied =>
    intro s port m hacts hpasses hcls hopc hw hpaired hpartner hturn
    exact turn_join_denied ⟨hacts, hpasses, hcls, hw, hpaired, hpartner⟩ hopc hturn
  case solo => exact fun s hacts hturn hleased _ _ => turn_solo s hacts hturn hleased

end Sys2Proof.Machine
end
